-- ==== Sys2Proof/Machine/Numbers.lean ====
section
/-! DEFINITION. Number formats and conversions (03_number_formats.md): the format codes, the exact form of a value,
the one conversion algorithm of R87, binary32 arithmetic (R11, R81) and the counter-based generator (R90). -/

namespace Sys2Proof.Machine

/-- The class and exact value of a conversion's input: `(-1)^s * m * 2^e` when finite (R87). -/
inductive XNum where
  | nan
  | inf (s : Bool)
  | fin (s : Bool) (m : Nat) (e : Int)
  deriving DecidableEq, Repr

/-- The rounding modes (R86); `rto` is only the first step of a two-step conversion (R89). -/
inductive RMode where
  | rne
  | sr
  | rto
  deriving DecidableEq, Repr

/-- The parameters of a format, as R87 names them. `maxN` is the largest magnitude as a multiple of
`2^(emax - mbits)`. -/
structure Fmt where
  isInt : Bool
  width : Nat
  ebits : Nat := 0
  mbits : Nat := 0
  bias : Nat := 0
  emax : Int := 0
  maxN : Nat := 0
  hasNan : Bool := false
  canonNan : Nat := 0
  hasInf : Bool := false
  maxpos : Nat := 0
  maxneg : Nat := 0
  deriving DecidableEq, Repr

def fmtF32 : Fmt :=
  { isInt := false, width := 32, ebits := 8, mbits := 23, bias := 127, emax := 127, maxN := 2 ^ 24 - 1,
    hasNan := true, canonNan := 0x7FC00000, hasInf := true }
def fmtXF8 : Fmt :=
  { isInt := false, width := 8, ebits := 4, mbits := 3, bias := 7, emax := 8, maxN := 14, hasNan := true, canonNan := 0x7F }
def fmtXF6a : Fmt := { isInt := false, width := 6, ebits := 3, mbits := 2, bias := 3, emax := 4, maxN := 7 }
def fmtXF6b : Fmt := { isInt := false, width := 6, ebits := 2, mbits := 3, bias := 1, emax := 2, maxN := 15 }
def fmtXF4 : Fmt := { isInt := false, width := 4, ebits := 2, mbits := 1, bias := 1, emax := 2, maxN := 3 }
def fmtG8 : Fmt :=
  { isInt := false, width := 8, ebits := 5, mbits := 2, bias := 15, emax := 15, maxN := 7, hasNan := true, canonNan := 0x7E,
    hasInf := true }
def fmtG16 : Fmt :=
  { isInt := false, width := 16, ebits := 8, mbits := 7, bias := 127, emax := 127, maxN := 255, hasNan := true,
    canonNan := 0x7FC0, hasInf := true }
/-- A two's-complement format of `w` bits, plain or symmetric (R74). -/
def fmtInt (w : Nat) (symmetric : Bool) : Fmt :=
  { isInt := true, width := w, maxpos := 2 ^ (w - 1) - 1, maxneg := if symmetric then 2 ^ (w - 1) - 1 else 2 ^ (w - 1) }
def fmtXT2 : Fmt := { isInt := true, width := 2, maxpos := 1, maxneg := 1 }

/-- The format a code names (R69): the formats a value converts to or is read from. FP32 pairs, codebook indices and
E8M0 scales have their own readers. -/
def fmtOf : Nat → Option Fmt
  | 0x01 => some fmtF32
  | 0x10 => some fmtXF8
  | 0x11 => some fmtXF6a
  | 0x12 => some fmtXF6b
  | 0x13 => some fmtXF4
  | 0x18 => some (fmtInt 8 false)
  | 0x19 => some (fmtInt 8 true)
  | 0x1A => some (fmtInt 4 false)
  | 0x1B => some (fmtInt 4 true)
  | 0x1C => some (fmtInt 3 false)
  | 0x1D => some (fmtInt 3 true)
  | 0x1E => some (fmtInt 2 false)
  | 0x1F => some fmtXT2
  | 0x30 => some fmtG8
  | 0x31 => some fmtG16
  | _ => none

/-- The width in bits of an element of a format code (R69). -/
def fmtBits (code : Nat) : Nat :=
  match code with
  | 0x02 => 64
  | 0x20 => 4
  | 0x21 => 3
  | 0x22 => 2
  | 0x40 => 8
  | c => ((fmtOf c).map (·.width)).getD 0

/-- The format codes of R69. -/
def knownFmt (code : Nat) : Bool := fmtBits code != 0
/-- A forward format, codebooks apart (R69). -/
def isForward (code : Nat) : Bool := (0x10 ≤ code && code ≤ 0x13) || (0x18 ≤ code && code ≤ 0x1F)
/-- A codebook format (R76). -/
def isCodebook (code : Nat) : Bool := 0x20 ≤ code && code ≤ 0x22
/-- G8 or G16. -/
def isG (code : Nat) : Bool := code == 0x30 || code == 0x31
/-- A format that takes block and scope scales (R94, R99). -/
def isScaled (code : Nat) : Bool := isForward code

/-- The number of bits of `m`, 0 for 0. -/
def bitLength (m : Nat) : Nat := if m = 0 then 0 else Nat.log2 m + 1

/-- `m * 2^k` as a natural number when `k` is not negative, and its floor otherwise. -/
def shl (m : Nat) (k : Int) : Nat := if 0 ≤ k then m <<< k.toNat else m >>> (-k).toNat

/-- What a conversion returns (R87, R88). -/
structure Conv where
  code : Nat
  sat : Bool
  zeroed : Bool
  nan : Bool
  deriving DecidableEq, Repr

/-- `limit` of R87 for the integer kinds. -/
def Fmt.limit (F : Fmt) (s : Bool) : Nat := if s then F.maxneg else F.maxpos

/-- `encode` of R87. -/
def Fmt.encode (F : Fmt) (s : Bool) (n : Nat) (q : Int) : Nat :=
  if F.isInt then
    if s && n != 0 then 2 ^ F.width - n else n
  else
    let (n, q) := if n = 2 ^ (F.mbits + 1) then (n / 2, q + 1) else (n, q)
    let (E, M) := if 2 ^ F.mbits ≤ n then ((q + F.mbits + F.bias).toNat, n - 2 ^ F.mbits) else (0, n)
    (if s then 2 ^ (F.ebits + F.mbits) else 0) + E * 2 ^ F.mbits + M

/-- `encode_max` of R87. -/
def Fmt.encodeMax (F : Fmt) (s : Bool) : Nat :=
  if F.isInt then F.encode s (F.limit s) 0 else F.encode s F.maxN (F.emax - F.mbits)

/-- The code of an infinity, for formats that have one. -/
def Fmt.infCode (F : Fmt) (s : Bool) : Nat :=
  (if s then 2 ^ (F.ebits + F.mbits) else 0) + (2 ^ F.ebits - 1) * 2 ^ F.mbits

/-- Whether `n * 2^q` exceeds the format's largest magnitude of sign `s` (the exact comparison of R87). -/
def Fmt.exceeds (F : Fmt) (s : Bool) (n : Nat) (q : Int) : Bool :=
  if F.isInt then decide (F.limit s < shl n q)
  else
    let d := q - (F.emax - F.mbits)
    if 0 ≤ d then decide (F.maxN < shl n d) else decide (shl F.maxN (-d) < n)

/-- Whether the rounding of R87 goes up, from the kept part `n`, the remainder `rem` and the dropped width `d`. -/
def roundsUp (mode : RMode) (n rem d r : Nat) : Bool :=
  match mode with
  | .rne => decide (2 ^ d < 2 * rem) || (decide (2 * rem = 2 ^ d) && decide (n % 2 = 1))
  | .sr => decide (r < (rem * 65536) / 2 ^ d)
  | .rto => decide (rem ≠ 0) && decide (n % 2 = 0)

/-- The conversion algorithm of R87. -/
def convert (x : XNum) (F : Fmt) (mode : RMode) (r : Nat) : Conv :=
  match x with
  | .nan => if F.hasNan then ⟨F.canonNan, false, false, true⟩ else ⟨F.encode false 0 0, false, false, true⟩
  | .inf s => if F.hasInf then ⟨F.infCode s, true, false, false⟩ else ⟨F.encodeMax s, true, false, false⟩
  | .fin s m e =>
    if m = 0 then ⟨F.encode s 0 0, false, false, false⟩
    else
      let L : Int := e + bitLength m - 1
      let q : Int := if F.isInt then 0 else max L (1 - F.bias) - F.mbits
      let d : Nat := (q - e).toNat
      let n := if q ≤ e then shl m (e - q) else m >>> d
      let rem := if q ≤ e then 0 else m % 2 ^ d
      let d := if q ≤ e then 0 else d
      let n := if roundsUp mode n rem d r && decide (rem ≠ 0) then n + 1 else n
      if F.exceeds s n q then ⟨F.encodeMax s, true, false, false⟩
      else if n = 0 then ⟨F.encode s 0 0, false, true, false⟩
      else ⟨F.encode s n q, false, false, false⟩

/-- The value a float code of the format names (R71, R80, R81). -/
def Fmt.decodeFloat (F : Fmt) (code : Nat) : XNum :=
  let s := bitOf code (F.ebits + F.mbits)
  let E := bitsOf code F.mbits F.ebits
  let M := bitsOf code 0 F.mbits
  if F.hasInf && E = 2 ^ F.ebits - 1 then (if M = 0 then .inf s else .nan)
  else if F.hasNan && !F.hasInf && E = 2 ^ F.ebits - 1 && M = 2 ^ F.mbits - 1 then .nan
  else if E = 0 then .fin s M (1 - F.bias - F.mbits)
  else .fin s (2 ^ F.mbits + M) (E - F.bias - F.mbits)

/-- Whether an integer code is reserved (R74). -/
def Fmt.reservedCode (F : Fmt) (code : Nat) : Bool :=
  F.isInt && decide (F.maxneg = F.maxpos) && decide (code % 2 ^ F.width = 2 ^ (F.width - 1))

/-- The value a code of the format names; a reserved code is read as 0 (R74, R75). -/
def Fmt.decode (F : Fmt) (code : Nat) : XNum :=
  if F.isInt then
    let c := code % 2 ^ F.width
    if F.reservedCode c then .fin false 0 0
    else if c < 2 ^ (F.width - 1) then .fin false c 0
    else .fin true (2 ^ F.width - c) 0
  else F.decodeFloat code

/-! ### Exact arithmetic -/

def XNum.isNan : XNum → Bool
  | .nan => true
  | _ => false
def XNum.isInf : XNum → Bool
  | .inf _ => true
  | _ => false
/-- Whether the value is a finite zero. -/
def XNum.isZero : XNum → Bool
  | .fin _ m _ => m == 0
  | _ => false
def XNum.isFinite : XNum → Bool
  | .fin _ _ _ => true
  | _ => false
def XNum.sign : XNum → Bool
  | .nan => false
  | .inf s => s
  | .fin s _ _ => s
def XNum.neg : XNum → XNum
  | .nan => .nan
  | .inf s => .inf (!s)
  | .fin s m e => .fin (!s) m e
def XNum.abs : XNum → XNum
  | .nan => .nan
  | .inf _ => .inf false
  | .fin _ m e => .fin false m e
/-- The value times `2^k`. -/
def XNum.scale (x : XNum) (k : Int) : XNum :=
  match x with
  | .fin s m e => .fin s m (e + k)
  | x => x
def XNum.ofNat (n : Nat) : XNum := .fin false n 0
/-- The signed significand of a finite value aligned to exponent `e0`, `e0 ≤ e`. -/
def alignTo (s : Bool) (m : Nat) (e e0 : Int) : Int :=
  let v : Int := (shl m (e - e0) : Nat)
  if s then -v else v

/-- The exact sum. An exact zero takes the sign that round-to-nearest-even gives it (R11). -/
def XNum.add : XNum → XNum → XNum
  | .nan, _ => .nan
  | _, .nan => .nan
  | .inf s, .inf t => if s = t then .inf s else .nan
  | .inf s, _ => .inf s
  | _, .inf t => .inf t
  | .fin s m e, .fin t n f =>
    let g := min e f
    let v := alignTo s m e g + alignTo t n f g
    if v = 0 then .fin (s && t) 0 0
    else .fin (decide (v < 0)) v.natAbs g
def XNum.sub (a b : XNum) : XNum := a.add b.neg
/-- The exact product, IEEE 754 specials included. -/
def XNum.mul : XNum → XNum → XNum
  | .nan, _ => .nan
  | _, .nan => .nan
  | .inf s, .inf t => .inf (s != t)
  | .inf s, .fin t n _ => if n = 0 then .nan else .inf (s != t)
  | .fin s m _, .inf t => if m = 0 then .nan else .inf (s != t)
  | .fin s m e, .fin t n f => .fin (s != t) (m * n) (e + f)
/-- The quotient with a sticky last bit: it rounds as the exact quotient does in every mode of R87 whose quantum has
fewer than 64 significant bits. -/
def XNum.div : XNum → XNum → XNum
  | .nan, _ => .nan
  | _, .nan => .nan
  | .inf _, .inf _ => .nan
  | .inf s, .fin t _ _ => .inf (s != t)
  | .fin s _ _, .inf t => .fin (s != t) 0 0
  | .fin s m e, .fin t n f =>
    if n = 0 then (if m = 0 then .nan else .inf (s != t))
    else
      let k := 64 + bitLength n
      let q := (m <<< k) / n
      let sticky := if (m <<< k) % n = 0 then 0 else 1
      .fin (s != t) (2 * q + sticky) (e - f - k - 1)
/-- Digit-by-digit square root: `k` bits still to find, `r` the root so far. -/
def isqrtAux (n : Nat) : Nat → Nat → Nat
  | 0, r => r
  | k + 1, r => isqrtAux n k (if (r + 2 ^ k) * (r + 2 ^ k) ≤ n then r + 2 ^ k else r)
def isqrt (n : Nat) : Nat := isqrtAux n (bitLength n / 2 + 1) 0
/-- The square root with a sticky last bit. -/
def XNum.sqrt : XNum → XNum
  | .nan => .nan
  | .inf s => if s then .nan else .inf false
  | .fin s m e =>
    if m = 0 then .fin s 0 0
    else if s then .nan
    else
      let e' := if e % 2 = 0 then e - 64 else e - 65
      let n := shl m (e - e')
      let r := isqrt n
      .fin false (2 * r + if r * r = n then 0 else 1) (e' / 2 - 1)
/-- The exact comparison `a < b` of two values; false when either is NaN. -/
def XNum.lt : XNum → XNum → Bool
  | .nan, _ => false
  | _, .nan => false
  | .inf s, .inf t => s && !t
  | .inf s, .fin _ _ _ => s
  | .fin _ _ _, .inf t => !t
  | .fin s m e, .fin t n f =>
    let g := min e f
    decide (alignTo s m e g < alignTo t n f g)
def XNum.le (a b : XNum) : Bool := !a.isNan && !b.isNan && !(b.lt a)
def XNum.eqv (a b : XNum) : Bool := a.le b && b.le a
/-- The greater of two values neither of which is NaN. -/
def XNum.max (a b : XNum) : XNum := if a.lt b then b else a
def XNum.min (a b : XNum) : XNum := if b.lt a then b else a
/-- The greatest integer not above a finite value. -/
def XNum.floor : XNum → Int
  | .fin s m e => alignTo s m e 0 - (if s && decide (e < 0) && decide (m % 2 ^ (-e).toNat ≠ 0) then 1 else 0)
  | _ => 0

/-! ### Binary32 operations (R11) -/

/-- The value of an FP32 word. -/
def f32 (w : Nat) : XNum := fmtF32.decodeFloat w
def nanF32 : Nat := 0x7FC00000
def maxF32 (s : Bool) : Nat := if s then 0xFF7FFFFF else 0x7F7FFFFF
def infF32 (s : Bool) : Nat := if s then 0xFF800000 else 0x7F800000
def minNormF32 : Nat := 0x00800000
def f32IsNan (w : Nat) : Bool := (f32 w).isNan
def f32IsInf (w : Nat) : Bool := (f32 w).isInf
def f32IsZero (w : Nat) : Bool := (f32 w).isZero
def f32IsFinite (w : Nat) : Bool := (f32 w).isFinite

/-- An exact value rounded to FP32: to nearest-even with IEEE overflow to infinity, or by `convert(…, FP32, rto)`
(R11). The second component says that a finite value overflowed or the value was infinite. -/
def roundF32 (last : RMode) (x : XNum) : Nat × Bool :=
  let c := convert x fmtF32 last 0
  match last with
  | .rto => (c.code, c.sat)
  | _ => if c.sat then (infF32 x.sign, true) else (c.code, false)

def rne32 (x : XNum) : Nat := (roundF32 .rne x).1
/-- `rto32` of R102: truncation to the FP32 grid with the last bit set when inexact. -/
def rto32 (x : XNum) : Nat := (roundF32 .rto x).1

def fadd (a b : Nat) : Nat := rne32 ((f32 a).add (f32 b))
def fsub (a b : Nat) : Nat := rne32 ((f32 a).sub (f32 b))
def fmul (a b : Nat) : Nat := rne32 ((f32 a).mul (f32 b))
def fdiv (a b : Nat) : Nat := rne32 ((f32 a).div (f32 b))
/-- The exact value of `a * b + c`. -/
def fmaNum (a b c : Nat) : XNum := ((f32 a).mul (f32 b)).add (f32 c)
def fma32 (a b c : Nat) : Nat := rne32 (fmaNum a b c)
def fneg (a : Nat) : Nat := if bitOf a 31 then a - 2 ^ 31 else a + 2 ^ 31
def fabs (a : Nat) : Nat := a % 2 ^ 31
/-- `pow2(e)`: the FP32 value `2^e` (R156). -/
def pow2F32 (e : Int) : Nat := rne32 (.fin false 1 e)

/-- The largest magnitude `maxmag` of a target format (R95). -/
def maxmag (F : Fmt) : XNum :=
  if F.isInt then .fin false F.maxpos 0 else .fin false F.maxN (F.emax - F.mbits)

/-- `up(x)` of R102 for a positive exact value: the smallest FP32 normal not below it, else the max finite. -/
def upF32 (x : XNum) : Nat :=
  match x with
  | .fin false m e =>
    if m = 0 then minNormF32
    else
      let L : Int := e + bitLength m - 1
      let q : Int := max L (-126) - 23
      let d := (q - e).toNat
      let n := if q ≤ e then shl m (e - q) else (m >>> d) + (if m % 2 ^ d = 0 then 0 else 1)
      if fmtF32.exceeds false n q then maxF32 false
      else max minNormF32 (fmtF32.encode false n q)
  | _ => maxF32 false

/-- A finite exact magnitude rounded up to FP32, saturating at the max finite (R103, R108). Zero stays zero. -/
def ceilF32 (x : XNum) : Nat :=
  match x with
  | .fin _ m e =>
    if m = 0 then 0
    else
      let L : Int := e + bitLength m - 1
      let q : Int := max L (-126) - 23
      let d := (q - e).toNat
      let n := if q ≤ e then shl m (e - q) else (m >>> d) + (if m % 2 ^ d = 0 then 0 else 1)
      if fmtF32.exceeds false n q then maxF32 false else fmtF32.encode false n q
  | _ => maxF32 false

/-- A valid tensor scale: positive, finite and normal (R84). -/
def validTs (w : Nat) : Bool := decide (0x00800000 ≤ w) && decide (w ≤ 0x7F7FFFFF)

/-- The rounding mode of an RMODE field and the class default it selects (R86). -/
def rmodeOf (field : Nat) (dflt : RMode) : RMode :=
  match field with
  | 1 => .rne
  | 2 => .sr
  | _ => dflt

/-! ### The counter-based generator (R90) -/

def w32 (n : Nat) : Nat := n % 2 ^ 32
def xor32 (a b : Nat) : Nat := (a ^^^ b) % 2 ^ 32
def rotl32 (x n : Nat) : Nat := ((x <<< n) ||| (x >>> (32 - n))) % 2 ^ 32

/-- The four words of one evaluation. -/
structure Quad where
  x0 : Nat
  x1 : Nat
  x2 : Nat
  x3 : Nat
  deriving DecidableEq, Repr

/-- Key word `i` of the seed, little-endian (R90). -/
def seedWord (seed i : Nat) : Nat := bitsOf seed (32 * i) 32

/-- Round `i` of R90. -/
def drawRound (seed i : Nat) (x : Quad) : Quad :=
  let x0 := w32 (x.x0 + x.x1)
  let x3 := rotl32 (xor32 x.x3 x0) 16
  let x2 := w32 (x.x2 + x3)
  let x1 := rotl32 (xor32 x.x1 x2) 12
  let x0 := w32 (x0 + x1)
  let x3 := rotl32 (xor32 x3 x0) 8
  let x2 := w32 (x2 + x3)
  let x1 := rotl32 (xor32 x1 x2) 7
  let x0 := xor32 (xor32 x0 (seedWord seed ((i + 1) % 4))) (w32 (0x9E3779B9 * (i + 1)))
  ⟨x1, x2, x3, x0⟩

/-- Rounds `i`, `i + 1`, … for as many as are left. -/
def drawRounds (seed : Nat) : Nat → Nat → Quad → Quad
  | 0, _, x => x
  | k + 1, i, x => drawRounds seed k (i + 1) (drawRound seed i x)

/-- `draw16(seed, step, tensor, index, purpose)` of R90. -/
def draw16 (seed step tensor index purpose : Nat) : Nat :=
  let lane := index >>> 3
  let j := index % 8
  let c0 := w32 lane
  let c1 := bitsOf lane 32 24 + purpose * 2 ^ 24
  let c2 := tensor % 2 ^ 24 + (step % 256) * 2 ^ 24
  let c3 := bitsOf step 8 32
  let x := drawRounds seed 10 0
    ⟨xor32 c0 (seedWord seed 0), xor32 c1 (seedWord seed 1), xor32 c2 (seedWord seed 2), xor32 c3 (seedWord seed 3)⟩
  let w := match j / 2 with
    | 0 => w32 (x.x0 + c0)
    | 1 => w32 (x.x1 + c1)
    | 2 => w32 (x.x2 + c2)
    | _ => w32 (x.x3 + c3)
  if j % 2 = 0 then w % 65536 else w / 65536

end Sys2Proof.Machine
end

