-- ==== Sys2Proof/Syntax.lean ====
section
/-! DEFINITION. The commands of the module: one constructor of `Instr` per row of the opcode table, with the row's operands
(DESIGN CHOICE, log 18). -/

namespace Sys2Proof.Machine
/-- Statistics of the scout pass (R101), exact. -/
structure Scout where
  amax : XNum
  vmin : XNum
  vmax : XNum
  nfinite : Nat
  deriving DecidableEq, Repr
/-- What an entry meets: nothing, an uncorrectable word of the oldest committed packet of a Sluice it reads (R277), an
uncorrectable word it writes to a Sluice (R276), or a core fault (R375). -/
inductive EntryErr where
  | none
  | staged (sl : Fin 16)
  | output (sl : Fin 16)
  | core
  deriving DecidableEq, Repr
/-- The paths to the object dictionary (R427). -/
inductive Path where
  | inband | field
  deriving DecidableEq, Repr
/-- What identifies a request to the dictionary (R427, R430): its path, source address, UDP source port and tag, and how
many requests the queue of R430 holds when it arrives. -/
structure Req where
  path : Path
  addr : BitVec 128
  port : BitVec 16
  tag : BitVec 32
  queued : Fin 257
  deriving DecidableEq, Repr
/-- What the (72,64) code finds in a word that is read: no error, a corrected one, an uncorrectable one (R296). -/
inductive WordStat where
  | ok | ce | ue
  deriving DecidableEq, Repr
/-- Where a Sluice command comes from: a unit of the device, or software through `SLU.CMD` (R278). -/
inductive CmdSrc where
  | unit (core : Fin 256) (sl : Fin 16)
  | software (q : Req)
  deriving DecidableEq, Repr
/-- A flit as it arrives (R323–R325): its routing and content words, its payload, the tally that travels with it (R342), the
fields of its trailer, what the check of its words and CRC finds, and the slot in which it left the device before. -/
structure FlitRx where
  kind : BitVec 2
  vc : BitVec 2
  dest : BitVec 15
  waypt : Bool
  waypoint : BitVec 15
  seq : BitVec 12
  last : Bool
  src : BitVec 15
  coll : BitVec 8
  index : BitVec 24
  scale1 : BitVec 8
  scale0 : BitVec 8
  hop : BitVec 8
  payload : BitVec 8192
  tally : List (BitVec 64)
  ack : Option (BitVec 12)
  nak : Bool
  credits : BitVec 8
  creditVc : BitVec 2
  crcOk : Bool
  ce : BitVec 8
  ue : BitVec 8
  slot : Fin 20
  deriving DecidableEq, Repr
/-- Who arrives at a barrier (R52): a core's barrier entry, or another participant by its message. -/
inductive ArriveSrc where
  | entry (core : Fin 256)
  | message (barrier : BitVec 16) (part : BitVec 28) (slips late : BitVec 32) (flags : BitVec 18) (abort : Bool)
  deriving DecidableEq, Repr
/-- What every RoCE request brings (R351, R353, R357): the port it arrives on, the local queue pair number, its packet sequence
number, and whether it is marked for congestion. -/
structure RoceHdr where
  port : Fin 8
  qpn : BitVec 24
  psn : BitVec 24
  ecn : Bool
  deriving DecidableEq, Repr
/-- The address, key and length that a request begins with. -/
structure RoceAddr where
  va : BitVec 64
  rkey : BitVec 32
  len : BitVec 32
  deriving DecidableEq, Repr
/-- What answers a request of the device (R351): an acknowledgement of everything up to a packet, a NAK with its syndrome,
the data of a read. -/
inductive RoceAnswer where
  | ack (psn : BitVec 24)
  | nak (psn : BitVec 24) (syndrome : BitVec 8)
  | data (psn : BitVec 24) (bytes : List Byte)
  deriving DecidableEq, Repr
/-- A doorbell mask (R363, R371): the management controller's and a sequencer's are objects, a host endpoint's is a field of its
page. -/
inductive MaskAt where
  | mc (q : Req)
  | seq (q : Req) (cl : Fin 16)
  | host (h : RoceHdr) (rkey : BitVec 32) (e : Fin 16)
  deriving DecidableEq, Repr
/-- A write to the dictionary: plain, with the object and the value's bytes, or a signed command block (R424, R435). -/
inductive RegWrite where
  | plain (index : BitVec 16) (sub : BitVec 8) (bytes : List Byte)
  | signed (block : List Byte)
  deriving DecidableEq, Repr
end Sys2Proof.Machine
namespace Sys2Proof

open Machine

/-- The commands. Each constructor's docstring has its row's mnemonic and rule. -/
inductive Instr where
  /-- `BEAT_START` (R45). -/
  | beatStart
  /-- `CADENCE_SET` (R46). -/
  | cadenceSet
  /-- `PTP_SYNC_RX` (R359). -/
  | ptpSyncRx (port : Fin 8) (domain : BitVec 8) (server : BitVec 64) (seq : BitVec 16) (twoStep : Bool) (origin : BitVec 64) (ns : Fin 1000)
  /-- `PTP_ANNOUNCE_RX` (R359). -/
  | ptpAnnounceRx (port : Fin 8) (domain : BitVec 8) (server : BitVec 64) (rank : List (BitVec 64)) (steps : BitVec 16)
  /-- `PTP_DELAY_RESP_RX` (R351). -/
  | ptpDelayRespRx (port : Fin 8) (domain : BitVec 8) (server : BitVec 64) (seq : BitVec 16) (received : BitVec 64)
  /-- `PTP_LOCK_LOST` (R47). -/
  | ptpLockLost
  /-- `HOLDOVER_EXPIRED` (R47). -/
  | holdoverExpired
  /-- `PPS_IN_EDGE` (R361). -/
  | ppsInEdge (ns : Fin 1000)
  /-- `FRAME_IN_EDGE` (R49). -/
  | frameInEdge (ns : Fin 1000)
  /-- `FRAME_TIMEOUT` (R49). -/
  | frameTimeout
  /-- `TBL_ACTIVATE_WRITE` (R37). -/
  | tblActivateWrite (q : Req) (h : BitVec 64)
  /-- `TABLE_ACTIVATION_APPLY` (R469). -/
  | tableActivationApply (h : BitVec 64) (g : Fin 3)
  /-- `ROLE_REQ_WRITE` (R64). -/
  | roleReqWrite (q : Req) (cl : Fin 16) (v : BitVec 8)
  /-- `ROLE_CHANGE_APPLY` (R23). -/
  | roleChangeApply (cl : Fin 16)
  /-- `TRAINING_PLAN_BUILD` (R55). -/
  | trainingPlanBuild
  /-- `MICROBATCH_BOUNDARY` (R316). -/
  | microbatchBoundary (cl : Fin 16)
  /-- `LAYER_BOUNDARY` (R54). -/
  | layerBoundary (cl : Fin 16)
  /-- `F_PRODUCT` (R123). -/
  | fProduct (core : Fin 256) (err : EntryErr) (peers : List (Nat × Scout)) (sideWait : Nat)
  /-- `OUTLIER_SIDE_PRODUCT` (R132). -/
  | outlierSideProduct (core : Fin 256) (err : EntryErr)
  /-- `BX_PRODUCT` (R150). -/
  | bxProduct (core : Fin 256) (err : EntryErr) (sideWait : Nat)
  /-- `BW_PRODUCT` (R150). -/
  | bwProduct (core : Fin 256) (err : EntryErr)
  /-- `BX_BW_PAIR` (R161). -/
  | bxBwPair (core : Fin 256) (err : EntryErr) (sideWait : Nat)
  /-- `VECTOR_FN` (R141). -/
  | vectorFn (core : Fin 256) (err : EntryErr)
  /-- `VECTOR_ADD` (R141). -/
  | vectorAdd (core : Fin 256) (err : EntryErr)
  /-- `VECTOR_MUL` (R141). -/
  | vectorMul (core : Fin 256) (err : EntryErr)
  /-- `VECTOR_ROWMAX` (R141). -/
  | vectorRowmax (core : Fin 256) (err : EntryErr)
  /-- `VECTOR_ROWSUM` (R141). -/
  | vectorRowsum (core : Fin 256) (err : EntryErr)
  /-- `VECTOR_RECIP` (R141). -/
  | vectorRecip (core : Fin 256) (err : EntryErr)
  /-- `VECTOR_RSQRT` (R141). -/
  | vectorRsqrt (core : Fin 256) (err : EntryErr)
  /-- `VECTOR_SUBROW` (R141). -/
  | vectorSubrow (core : Fin 256) (err : EntryErr)
  /-- `VECTOR_MULROW` (R141). -/
  | vectorMulrow (core : Fin 256) (err : EntryErr)
  /-- `SPILL_CONV_SCALED_TO_G` (R159). -/
  | spillConvScaledToG (core : Fin 256) (err : EntryErr)
  /-- `SPILL_QUANTISE` (R102). -/
  | spillQuantise (core : Fin 256) (err : EntryErr) (peers : List (Nat × Scout))
  /-- `SPILL_CONV_WIDE` (R159). -/
  | spillConvWide (core : Fin 256) (err : EntryErr)
  /-- `GRAD_TILE_SPILL` (R163). -/
  | gradTileSpill (core : Fin 256) (err : EntryErr)
  /-- `GRAD_TILE_RELOAD` (R165). -/
  | gradTileReload (core : Fin 256) (err : EntryErr)
  /-- `STREAM_ARM` (R271). -/
  | streamArm (core : Fin 256)
  /-- `STREAM_REARM` (R271). -/
  | streamRearm (core : Fin 256)
  /-- `STREAM_DISARM` (R271). -/
  | streamDisarm (core : Fin 256)
  /-- `BARRIER_ARRIVE` (R52). -/
  | barrierArrive (src : ArriveSrc)
  /-- `BARRIER_COMPLETE` (R52). -/
  | barrierComplete (b : BitVec 16)
  /-- `BARRIER_GRACE_EXPIRED` (R53). -/
  | barrierGraceExpired (b : BitVec 16)
  /-- `HEALTH_BARRIER_COMPLETE` (R201). -/
  | healthBarrierComplete
  /-- `COMMIT_BARRIER_COMPLETE` (R201). -/
  | commitBarrierComplete
  /-- `STEP_COMMIT` (R202). -/
  | stepCommit
  /-- `STEP_DISCARD` (R203). -/
  | stepDiscard
  /-- `ENTRY_COMPLETE` (R51). -/
  | entryComplete (core : Fin 256) (k : BitVec 8)
  /-- `SEGMENT_CLOSE` (R181). -/
  | segmentClose (core : Fin 256) (base : BitVec 32)
  /-- `UPDATE_OPTIMISER` (R207). -/
  | updateOptimiser (core : Fin 256) (err : EntryErr)
  /-- `UPDATE_NARROW_COPY` (R208). -/
  | updateNarrowCopy (core : Fin 256) (err : EntryErr) (peers : List (Nat × Scout))
  /-- `UPDATE_SIDE_WEIGHT` (R208). -/
  | updateSideWeight (core : Fin 256) (err : EntryErr)
  /-- `ROUTER_SELECT` (R225). -/
  | routerSelect (core : Fin 256) (err : EntryErr)
  /-- `ROUTER_COMBINE` (R229). -/
  | routerCombine (core : Fin 256) (err : EntryErr)
  /-- `ROUTER_SCATTER` (R230). -/
  | routerScatter (core : Fin 256) (err : EntryErr)
  /-- `ROUTER_RETURN` (R229). -/
  | routerReturn (core : Fin 256) (err : EntryErr)
  /-- `LUT_PRODUCT` (R255). -/
  | lutProduct (core : Fin 256) (err : EntryErr) (peers : List (Nat × Scout))
  /-- `SAMPLING_SAMPLE` (R252). -/
  | samplingSample (core : Fin 256) (err : EntryErr)
  /-- `SAMPLING_SCORE` (R252). -/
  | samplingScore (core : Fin 256) (err : EntryErr)
  /-- `REDUCTION_SEND` (R340). -/
  | reductionSend (core : Fin 256) (err : EntryErr)
  /-- `REDUCTION_RECEIVE` (R340). -/
  | reductionReceive (core : Fin 256) (err : EntryErr)
  /-- `ROLLOUT_STEP_BOUNDARY` (R241). -/
  | rolloutStepBoundary
  /-- `ROLLOUT_STEP_ORIGIN` (R245). -/
  | rolloutStepOrigin
  /-- `ROLLOUT_STEP_DISCARD` (R247). -/
  | rolloutStepDiscard
  /-- `ROLL_CANCEL_WRITE` (R247). -/
  | rollCancelWrite (q : Req) (v : BitVec 64)
  /-- `EPOCH_READY_WRITE` (R256). -/
  | epochReadyWrite (q : Req) (v : BitVec 64)
  /-- `EPOCH_PUBLISH_COPY_DONE` (R257). -/
  | epochPublishCopyDone (copy : List (BitVec 64 × BitVec 64))
  /-- `STREAM_START` (R271). -/
  | streamStart (core : Fin 256) (ctx : Fin 48)
  /-- `STREAM_REQUEST_ISSUE` (R282). -/
  | streamRequestIssue (core : Fin 256) (ctx : Fin 48) (ue : Bool)
  /-- `MEMORY_READ_COMPLETE` (R275). -/
  | memoryReadComplete (core : Fin 256) (ctx : Fin 48) (st : WordStat)
  /-- `STORE_WRITE_ACK` (R272). -/
  | storeWriteAck (core : Fin 256) (ctx : Fin 48)
  /-- `TRANSLATION_WALK_COMPLETE` (R304). -/
  | translationWalkComplete (core : Fin 256) (ctx : Fin 48) (bad : Option (Fin 3))
  /-- `STRM_RESUME_WRITE` (R285). -/
  | strmResumeWrite (q : Req) (v : BitVec 8)
  /-- `FQ_TAIL_WRITE` (R307). -/
  | fqTailWrite (q : Req) (v : BitVec 32)
  /-- `SLUICE_DROP_REM` (R278). -/
  | sluiceDropRem (src : CmdSrc)
  /-- `SLUICE_FLUSH` (R278). -/
  | sluiceFlush (src : CmdSrc)
  /-- `SLUICE_FLUSH_APPLY` (R278). -/
  | sluiceFlushApply (core : Fin 256) (sl : Fin 16)
  /-- `SLUICE_RESET` (R278). -/
  | sluiceReset (src : CmdSrc)
  /-- `SLU_NARROW_DATA_WRITE` (R279). -/
  | sluNarrowDataWrite (q : Req) (v : BitVec 32)
  /-- `SLU_NARROW_CLOSE_WRITE` (R279). -/
  | sluNarrowCloseWrite (q : Req) (v : BitVec 8)
  /-- `DEADLOCK_PREEMPT` (R286). -/
  | deadlockPreempt (core : Fin 256)
  /-- `MEM_RETIRE_WRITE` (R300). -/
  | memRetireWrite (q : Req) (v : BitVec 16)
  /-- `RETIRE_REBUILD_START` (R301). -/
  | retireRebuildStart
  /-- `RETIRE_REBUILD_DONE` (R301). -/
  | retireRebuildDone (bad : List Nat)
  /-- `SCRUB_WORD` (R298). -/
  | scrubWord (addr : BitVec 48) (st : WordStat) (odecc : BitVec 32)
  /-- `CXL_EXPANDER_LOST` (R299). -/
  | cxlExpanderLost (port : Fin 2)
  /-- `XLAT_INVAL_WRITE` (R306). -/
  | xlatInvalWrite (q : Req) (v : BitVec 64)
  /-- `XLAT_INVAL_DONE` (R306). -/
  | xlatInvalDone
  /-- `PAGE_MOVE_GO` (R311). -/
  | pageMoveGo (q : Req) (v : BitVec 8)
  /-- `PAGE_MOVE_DONE` (R311). -/
  | pageMoveDone (bad : List Nat)
  /-- `SIPHON_ITEM_PLACE` (R316). -/
  | siphonItemPlace (cl : Fin 16) (ue : Bool)
  /-- `SIPHON_PREFETCH_START` (R317). -/
  | siphonPrefetchStart (cl : Fin 16)
  /-- `RILL_FLIT_RX` (R326). -/
  | rillFlitRx (port : Fin 6) (r : FlitRx)
  /-- `RILL_SLOT` (R338). -/
  | rillSlot (port : Fin 6) (slot : Fin 20)
  /-- `RILL_TRAINING_DONE` (R328). -/
  | rillTrainingDone (port : Fin 6) (good : BitVec 18) (nbr : BitVec 15)
  /-- `RILL_TRAINING_TIMEOUT` (R328). -/
  | rillTrainingTimeout (port : Fin 6)
  /-- `RILL_LANE_LOCK_LOSS` (R329). -/
  | rillLaneLockLoss (port : Fin 6) (lane : Fin 18)
  /-- `RILL_LANE_ERROR_LIMIT` (R329). -/
  | rillLaneErrorLimit (port : Fin 6) (lane : Fin 18) (errors : BitVec 32)
  /-- `RILL_REMAP_DONE` (R329). -/
  | rillRemapDone (port : Fin 6) (good : BitVec 18)
  /-- `RILL_RETRAIN_WRITE` (R327). -/
  | rillRetrainWrite (q : Req) (port : Fin 6) (v : BitVec 8)
  /-- `RILL_ALT_SEL_WRITE` (R346). -/
  | rillAltSelWrite (q : Req) (v : BitVec 8)
  /-- `ROUTE_BARRIER_COMPLETE` (R346). -/
  | routeBarrierComplete
  /-- `ETH_PORT_ENABLE` (R352). -/
  | ethPortEnable (q : Req) (p : Fin 8)
  /-- `ETH_PORT_DISABLE` (R352). -/
  | ethPortDisable (q : Req) (p : Fin 8)
  /-- `ETH_LINK_UP` (R352). -/
  | ethLinkUp (p : Fin 8) (sync : Bool)
  /-- `ETH_LINK_DOWN` (R354). -/
  | ethLinkDown (p : Fin 8)
  /-- `ETH_TRAINING_TIMEOUT` (R352). -/
  | ethTrainingTimeout (p : Fin 8)
  /-- `ETH_DOWN_RETRY` (R352). -/
  | ethDownRetry (p : Fin 8)
  /-- `ROCE_WRITE_RX` (R356). -/
  | roceWriteRx (h : RoceHdr) (first : Option RoceAddr) (last : Bool) (bytes : List Byte)
  /-- `ROCE_READ_RX` (R356). -/
  | roceReadRx (h : RoceHdr) (a : RoceAddr) (ue : Bool)
  /-- `ROCE_RESPONSE_RX` (R351). -/
  | roceResponseRx (k : Fin 2048) (a : RoceAnswer)
  /-- `ROCE_ACK_TIMEOUT` (R351). -/
  | roceAckTimeout (k : Fin 2048)
  /-- `ROCE_CNP_RX` (R351). -/
  | roceCnpRx (k : Fin 2048)
  /-- `ARP_REQUEST_RX` (R351). -/
  | arpRequestRx (p : Fin 8) (ip : BitVec 32)
  /-- `NEIGHBOUR_SOLICIT_RX` (R351). -/
  | neighbourSolicitRx (p : Fin 8) (ip : BitVec 128)
  /-- `ICMP_ECHO_RX` (R351). -/
  | icmpEchoRx (p : Fin 8) (v6 : Bool) (ip : BitVec 128) (fragment : Bool) (payload : List Byte)
  /-- `LACP_PDU_RX` (R351). -/
  | lacpPduRx (p : Fin 8) (sync : Bool)
  /-- `ROCE_QP_WRITE` (R357). -/
  | roceQpWrite (q : Req) (v : BitVec 512)
  /-- `ROCE_RGN_WRITE` (R358). -/
  | roceRgnWrite (q : Req) (v : BitVec 256)
  /-- `MBX_PORT_WRITE` (R365). -/
  | mbxPortWrite (h : RoceHdr) (key : BitVec 32) (e : Fin 16) (j : Fin 18) (off : Fin 64) (bytes : List Byte)
  /-- `MBX_CONS_WRITE` (R363). -/
  | mbxConsWrite (h : RoceHdr) (key : BitVec 32) (e : Fin 16) (j : Fin 18) (v : BitVec 32)
  /-- `MBX_DB_CLEAR_WRITE` (R363). -/
  | mbxDbClearWrite (h : RoceHdr) (key : BitVec 32) (e : Fin 16) (v : BitVec 32)
  /-- `MBX_DB_MASK_WRITE` (R366). -/
  | mbxDbMaskWrite (m : MaskAt) (v : BitVec 32)
  /-- `SEQUENCER_MAILBOX_TAKE` (R366). -/
  | sequencerMailboxTake (cl : Fin 16)
  /-- `MC_MAILBOX_SERVICE` (R366). -/
  | mcMailboxService
  /-- `MC_MAILBOX_SEND` (R365). -/
  | mcMailboxSend (dest : Fin 32) (secure : Bool) (msg : BitVec 512)
  /-- `RES_FENCE_REQ_WRITE` (R375). -/
  | resFenceReqWrite (q : Req) (v : BitVec 16)
  /-- `CORE_HANG_TIMEOUT` (R375). -/
  | coreHangTimeout (core : Fin 256)
  /-- `RES_CORE_TEST_WRITE` (R377). -/
  | resCoreTestWrite (q : Req) (v : BitVec 8)
  /-- `CORE_TEST_DONE` (R377). -/
  | coreTestDone (pass : Bool)
  /-- `RES_UNFENCE_WRITE` (R377). -/
  | resUnfenceWrite (q : Req) (v : BitVec 8)
  /-- `CORE_UNFENCE_APPLY` (R377). -/
  | coreUnfenceApply (cl : Fin 16)
  /-- `FATAL_FAULT` (R17). -/
  | fatalFault (die : Fin 6)
  /-- `CKPT_INTERVAL_EXPIRED` (R381). -/
  | ckptIntervalExpired
  /-- `CKPT_REQUEST_WRITE` (R381). -/
  | ckptRequestWrite (q : Req) (v : BitVec 8)
  /-- `RES_FAIL_NOTICE_WRITE` (R381). -/
  | resFailNoticeWrite (q : Req) (v : BitVec 8)
  /-- `RES_MTBF_RESET_WRITE` (R381). -/
  | resMtbfResetWrite (q : Req) (v : BitVec 8)
  /-- `CKPT_STOP_BEGIN` (R383). -/
  | ckptStopBegin
  /-- `CKPT_STOP_END` (R383). -/
  | ckptStopEnd (sig : BitVec 1056)
  /-- `CKPT_DRAIN_TARGET_DONE` (R385). -/
  | ckptDrainTargetDone (t : Fin 3)
  /-- `CKPT_DRAIN_TIMEOUT` (R387). -/
  | ckptDrainTimeout (t : Fin 3)
  /-- `CKPT_RESTORE_T1` (R392). -/
  | ckptRestoreT1 (q : Req)
  /-- `CKPT_RESTORE_T3` (R392). -/
  | ckptRestoreT3 (q : Req)
  /-- `CKPT_RESTORE_DONE` (R393). -/
  | ckptRestoreDone
  /-- `CKPT_SERVE_WRITE` (R394). -/
  | ckptServeWrite (q : Req) (v : BitVec 8)
  /-- `CKPT_SERVE_DONE` (R394). -/
  | ckptServeDone
  /-- `SUPPLY_OUT_OF_RANGE` (R398). -/
  | supplyOutOfRange (mv : BitVec 17)
  /-- `SUPPLY_BELOW_46` (R399). -/
  | supplyBelow46 (mv : BitVec 17)
  /-- `SUPPLY_ABOVE_47` (R400). -/
  | supplyAbove47 (mv : BitVec 17)
  /-- `SUPPLY_HOLD_COMPLETE` (R400). -/
  | supplyHoldComplete
  /-- `SUPPLY_RELEASE_STEP` (R400). -/
  | supplyReleaseStep
  /-- `BROWN_OUT` (R401). -/
  | brownOut (mv : BitVec 17)
  /-- `OVER_VOLTAGE` (R401). -/
  | overVoltage (mv : BitVec 17)
  /-- `DOMAIN_REQ_WRITE` (R404). -/
  | domainReqWrite (q : Req) (v : BitVec 8)
  /-- `DOMAIN_TRANSITION_DONE` (R403). -/
  | domainTransitionDone (id : BitVec 9)
  /-- `DOMAIN_TRANSITION_ABORT` (R404). -/
  | domainTransitionAbort (id : BitVec 9)
  /-- `FREQ_REQ_WRITE` (R410). -/
  | freqReqWrite (q : Req) (f : BitVec 16)
  /-- `VOLT_REQ_WRITE` (R410). -/
  | voltReqWrite (q : Req) (v : BitVec 16)
  /-- `DVFS_VOLTAGE_REACHED` (R411). -/
  | dvfsVoltageReached (id : BitVec 9)
  /-- `SLEEP_WRITE` (R408). -/
  | sleepWrite (q : Req) (v : BitVec 8)
  /-- `POWER_SAMPLE` (R415). -/
  | powerSample (w : BitVec 16) (mv : BitVec 17)
  /-- `THERMAL_SAMPLE` (R417). -/
  | thermalSample (ts : Vector Int 6)
  /-- `SSP_ADDRESS_MATCH` (R419). -/
  | sspAddressMatch (addr : BitVec 7)
  /-- `SSP_WAKE_COMPLETE` (R419). -/
  | sspWakeComplete
  /-- `J1_MATE` (R459). -/
  | j1Mate (feed : BitVec 4) (slot : BitVec 6)
  /-- `J1_BREAK` (R453). -/
  | j1Break
  /-- `PWR_EN_RISE` (R459). -/
  | pwrEnRise (rested : Bool)
  /-- `SOFT_START_BEGIN` (R459). -/
  | softStartBegin
  /-- `RAILS_IN_REGULATION` (R459). -/
  | railsInRegulation
  /-- `PWR_EN_FALL` (R460). -/
  | pwrEnFall
  /-- `RST_N_ASSERT` (R460). -/
  | rstNAssert
  /-- `RST_N_DEASSERT` (R440). -/
  | rstNDeassert (feed : BitVec 4) (slot : BitVec 6)
  /-- `BOOT_IDENTITY` (R433). -/
  | bootIdentity (key : BitVec 1064)
  /-- `BOOT_FIRMWARE` (R441). -/
  | bootFirmware
  /-- `BOOT_CONFIG` (R437). -/
  | bootConfig
  /-- `BOOT_POWER` (R440). -/
  | bootPower
  /-- `BOOT_POWER_RETRY` (R440). -/
  | bootPowerRetry
  /-- `BOOT_MEMORY` (R440). -/
  | bootMemory
  /-- `BOOT_READY` (R440). -/
  | bootReady (ms : BitVec 32)
  /-- `RECOVER_REQ_TIMER` (R441). -/
  | recoverReqTimer
  /-- `RECOVERY_BLOCK_RX` (R441). -/
  | recoveryBlockRx (block : BitVec 32) (bytes : List Byte)
  /-- `RECOVER_GO_RX` (R441). -/
  | recoverGoRx (tag : BitVec 32) (len : BitVec 32)
  /-- `REGISTER_WRITE` (R424). -/
  | registerWrite (q : Req) (w : RegWrite)
  /-- `RNG_SEED_WRITE` (R93). -/
  | rngSeedWrite (q : Req) (v : BitVec 128)
  /-- `DATA_POS_WRITE` (R190). -/
  | dataPosWrite (q : Req) (v : BitVec 128)
  /-- `STEP_SKIP_WRITE` (R204). -/
  | stepSkipWrite (q : Req) (v : BitVec 64)
  /-- `RETRY_LIMIT_WRITE` (R204). -/
  | retryLimitWrite (q : Req) (v : BitVec 8)
  /-- `DBG_ACC_READ` (R186). -/
  | dbgAccRead (q : Req)
  /-- `DBG_SPILL_READ` (R186). -/
  | dbgSpillRead (q : Req)
  /-- `LOG_READ` (R431). -/
  | logRead (q : Req)
  /-- `ALERT_ACK_WRITE` (R465). -/
  | alertAckWrite (q : Req) (v : BitVec 8)
  /-- `SEC_OWNER_KEY_WRITE` (R434). -/
  | secOwnerKeyWrite (q : Req) (w : RegWrite)
  /-- `SEC_OWNER_RELEASE` (R434). -/
  | secOwnerRelease (q : Req) (b : List Byte)
  /-- `SEC_MIN_SVN_WRITE` (R447). -/
  | secMinSvnWrite (q : Req) (b : List Byte)
  /-- `ATTEST_NONCE_WRITE` (R444). -/
  | attestNonceWrite (q : Req) (nonce : BitVec 512)
  /-- `ATTEST_REPORT_READY` (R444). -/
  | attestReportReady (sig : BitVec 1056)
  /-- `DBG_ENTER` (R445). -/
  | dbgEnter (q : Req) (b : List Byte)
  /-- `DBG_EXIT` (R445). -/
  | dbgExit (q : Req) (v : BitVec 8)
  /-- `CFG_WRITE` (R439). -/
  | cfgWrite (q : Req) (b : List Byte)
  /-- `CFG_RECORD_DONE` (R439). -/
  | cfgRecordDone
  /-- `FW_VERIFY` (R446). -/
  | fwVerify (q : Req) (v : BitVec 8)
  /-- `FW_VERIFY_DONE` (R446). -/
  | fwVerifyDone
  /-- `FW_COMMIT_FLASH` (R446). -/
  | fwCommitFlash (q : Req) (b : List Byte)
  /-- `FW_COMMIT_RESTART` (R446). -/
  | fwCommitRestart (q : Req) (b : List Byte)
  /-- `FW_FLASH_DONE` (R446). -/
  | fwFlashDone
  /-- `WARM_RESTART_START` (R446). -/
  | warmRestartStart
  /-- `WARM_RESTART_DONE` (R446). -/
  | warmRestartDone
  /-- `STRAP_CHECK` (R457). -/
  | strapCheck (feed : BitVec 4) (slot : BitVec 6)
  /-- `COOLANT_SAMPLE` (R464). -/
  | coolantSample (inlet : BitVec 32) (outlet : BitVec 32) (flow : BitVec 16) (leak : Bool)
  /-- `PTP_FOLLOW_UP_RX` (R351). -/
  | ptpFollowUpRx (port : Fin 8) (domain : BitVec 8) (server : BitVec 64) (seq : BitVec 16) (origin : BitVec 64)
  /-- `PTP_DELAY_REQ_SEND` (R351). -/
  | ptpDelayReqSend (ns : Fin 1000)
  /-- `PFC_FRAME_RX` (R351). -/
  | pfcFrameRx (p : Fin 8) (enable : BitVec 8) (quanta : BitVec 16)
  /-- `CADENCE_COUNTER_RESUME` (R46). -/
  | cadenceCounterResume
  /-- `SUPPLY_BACK_IN_RANGE` (R398). -/
  | supplyBackInRange (mv : BitVec 17)
  /-- `SUPPLY_FALL_TO_47V` (R400). -/
  | supplyFallTo47v (mv : BitVec 17)
  /-- `INTERNAL_RESET_END` (R459). -/
  | internalResetEnd
  /-- `SIPHON_OFFLOAD_DONE` (R317). -/
  | siphonOffloadDone (cl : Fin 16) (ue : Bool)
  /-- `SIPHON_PREFETCH_DONE` (R317). -/
  | siphonPrefetchDone (cl : Fin 16) (ue : Bool)
  /-- `INPUT_BELOW_40V` (R461). -/
  | inputBelow40v
  deriving DecidableEq, Repr

end Sys2Proof
end

