-- ==== Sys2Proof/Machine/Objects.lean ====
section
/-! DEFINITION. The object dictionary: the key of every object, and for each its size, access class, Default and
range, from the object tables of the chapters (R68, R93, R110, R147, R170, R187, R211, R236, R261, R290, R320, R348,
R371, R396, R421, R449, R467). An object is named by its mnemonic; a family takes the unit's number. -/

namespace Sys2Proof.Machine

/-- The key of an object: index and subindex (R423). -/
def ob (index sub : Nat) : Nat := index * 256 + sub

/-- The access classes of R424. -/
inductive Access where
  | ro | rw | wo | const | rws
  deriving DecidableEq, Repr

/-- What the object tables say of an object, or of a family of consecutive indices. `align` 0 asks for a power of two. -/
structure ObjDesc where
  lo : Nat
  hi : Nat
  sub : Nat
  size : Nat
  acc : Access
  dflt : Nat
  rmin : Nat
  rmax : Nat
  align : Nat
  rsv : Nat
  deriving DecidableEq, Repr

/-! The number of a unit is taken modulo the number of its family, so that no family's key is another object's. -/

namespace Obj

/-- `CAD.COUNTER`, U64 (R68 02). -/
def cadCounter : Nat := ob 0x4000 0x01
/-- `CAD.SYNC_STATE`, U8 (R68 02). -/
def cadSyncState : Nat := ob 0x4000 0x02
/-- `CAD.OFFSET`, I32 (R68 02). -/
def cadOffset : Nat := ob 0x4000 0x03
/-- `CAD.HOLDOVER_LIMIT`, U32 (R68 02). -/
def cadHoldoverLimit : Nat := ob 0x4000 0x04
/-- `CAD.BARRIER_GRACE`, U32 (R68 02). -/
def cadBarrierGrace : Nat := ob 0x4000 0x05
/-- `CAD.FRAME_LAST`, U64 (R68 02). -/
def cadFrameLast : Nat := ob 0x4001 0x01
/-- `CAD.FRAME_COUNT`, U32 (R68 02). -/
def cadFrameCount : Nat := ob 0x4001 0x02
/-- `CAD.FRAME_REJECT`, U32 (R68 02). -/
def cadFrameReject : Nat := ob 0x4001 0x03
/-- `TBL.ACTIVATE`, U64 (R68 02). -/
def tblActivate : Nat := ob 0x4200 0x01
/-- `TBL.ACT_STATUS`, U8 (R68 02). -/
def tblActStatus : Nat := ob 0x4200 0x02
/-- `TBL.REFUSED`, U32 (R68 02). -/
def tblRefused : Nat := ob 0x4200 0x03
/-- `TBL.ACTIVE_K1`, TABLE (R68 02). -/
def tblActiveK1 : Nat := ob 0x4201 0x01
/-- `TBL.ACTIVE_K2`, TABLE (R68 02). -/
def tblActiveK2 : Nat := ob 0x4201 0x02
/-- `TBL.ACTIVE_K3`, TABLE (R68 02). -/
def tblActiveK3 : Nat := ob 0x4201 0x03
/-- `TBL.ACTIVE_K4`, TABLE (R68 02). -/
def tblActiveK4 : Nat := ob 0x4201 0x04
/-- `TBL.ACTIVE_K5`, TABLE (R68 02). -/
def tblActiveK5 : Nat := ob 0x4201 0x05
/-- `TBL.ACTIVE_K6`, TABLE (R68 02). -/
def tblActiveK6 : Nat := ob 0x4201 0x06
/-- `TBL.ACTIVE_K7`, TABLE (R68 02). -/
def tblActiveK7 : Nat := ob 0x4201 0x07
/-- `TBL.ACTIVE_K8`, TABLE (R68 02). -/
def tblActiveK8 : Nat := ob 0x4201 0x08
/-- `TBL.ACTIVE_K9`, TABLE (R68 02). -/
def tblActiveK9 : Nat := ob 0x4201 0x09
/-- `SCHED.CL_ROLE_REQ` of unit `n`, U8 (R68 02). -/
def schedClRoleReq (n : Nat) : Nat := ob (0x4100 + n % 16) 0x01
/-- `SCHED.CL_ROLE` of unit `n`, U8 (R68 02). -/
def schedClRole (n : Nat) : Nat := ob (0x4100 + n % 16) 0x02
/-- `SCHED.CL_PACING` of unit `n`, U8 (R68 02). -/
def schedClPacing (n : Nat) : Nat := ob (0x4100 + n % 16) 0x03
/-- `SCHED.CL_IMAGE` of unit `n`, TABLE (R68 02). -/
def schedClImage (n : Nat) : Nat := ob (0x4100 + n % 16) 0x04
/-- `SCHED.CL_VARIANT` of unit `n`, U32 (R68 02). -/
def schedClVariant (n : Nat) : Nat := ob (0x4100 + n % 16) 0x05
/-- `SCHED.CL_STEP` of unit `n`, U64 (R68 02). -/
def schedClStep (n : Nat) : Nat := ob (0x4100 + n % 16) 0x06
/-- `SCHED.CL_SLIPS` of unit `n`, U32 (R68 02). -/
def schedClSlips (n : Nat) : Nat := ob (0x4100 + n % 16) 0x07
/-- `SCHED.CL_SLIP_MAX` of unit `n`, U32 (R68 02). -/
def schedClSlipMax (n : Nat) : Nat := ob (0x4100 + n % 16) 0x08
/-- `SCHED.CL_NBR_SLIPS` of unit `n`, U32 (R68 02). -/
def schedClNbrSlips (n : Nat) : Nat := ob (0x4100 + n % 16) 0x09
/-- `SCHED.CL_FENCED` of unit `n`, U8 (R68 02). -/
def schedClFenced (n : Nat) : Nat := ob (0x4100 + n % 16) 0x0A
/-- `SCHED.CL_SEGMENTED` of unit `n`, U32 (R68 02). -/
def schedClSegmented (n : Nat) : Nat := ob (0x4100 + n % 16) 0x0B
/-- `FMT.CB_COUNT`, U16 (R93 03). -/
def fmtCbCount : Nat := ob 0x3000 0x01
/-- `FMT.RSV_READS`, U32 (R93 03). -/
def fmtRsvReads : Nat := ob 0x3000 0x02
/-- `FMT.NAN_NARROWED`, U32 (R93 03). -/
def fmtNanNarrowed : Nat := ob 0x3000 0x03
/-- `FMT.BAD_SCALES`, U32 (R93 03). -/
def fmtBadScales : Nat := ob 0x3000 0x04
/-- `RNG.SEED`, BYTES[16] (R93 03). -/
def rngSeed : Nat := ob 0x3100 0x01
/-- `RNG.SEED_SET`, U8 (R93 03). -/
def rngSeedSet : Nat := ob 0x3100 0x02
/-- `SPILL.LAST_TENSOR` of unit `n`, U32 (R110 04). -/
def spillLastTensor (n : Nat) : Nat := ob (0x3400 + n % 256) 0x01
/-- `SPILL.BLK_SAT` of unit `n`, U32 (R110 04). -/
def spillBlkSat (n : Nat) : Nat := ob (0x3400 + n % 256) 0x02
/-- `SPILL.BLK_ZERO` of unit `n`, U32 (R110 04). -/
def spillBlkZero (n : Nat) : Nat := ob (0x3400 + n % 256) 0x03
/-- `SPILL.NAN_IN` of unit `n`, U32 (R110 04). -/
def spillNanIn (n : Nat) : Nat := ob (0x3400 + n % 256) 0x04
/-- `SPILL.ZERO_BLOCKS` of unit `n`, U32 (R110 04). -/
def spillZeroBlocks (n : Nat) : Nat := ob (0x3400 + n % 256) 0x05
/-- `SPILL.SKEW` of unit `n`, U32 (R110 04). -/
def spillSkew (n : Nat) : Nat := ob (0x3400 + n % 256) 0x06
/-- `SPILL.HIST_SEL`, U32 (R110 04). -/
def spillHistSel : Nat := ob 0x3500 0x01
/-- `SPILL.HIST`, BYTES[64] (R110 04). -/
def spillHist : Nat := ob 0x3500 0x02
/-- `FENG.ENTRIES` of unit `n`, U32 (R147 05). -/
def fengEntries (n : Nat) : Nat := ob (0x3700 + n % 256) 0x01
/-- `FENG.ZBLK_SKIPPED` of unit `n`, U32 (R147 05). -/
def fengZblkSkipped (n : Nat) : Nat := ob (0x3700 + n % 256) 0x02
/-- `FENG.WPASS_SKIPPED` of unit `n`, U32 (R147 05). -/
def fengWpassSkipped (n : Nat) : Nat := ob (0x3700 + n % 256) 0x03
/-- `FENG.SIDE_EXTRA` of unit `n`, U32 (R147 05). -/
def fengSideExtra (n : Nat) : Nat := ob (0x3700 + n % 256) 0x04
/-- `FENG.ACC_WAITS` of unit `n`, U32 (R147 05). -/
def fengAccWaits (n : Nat) : Nat := ob (0x3700 + n % 256) 0x05
/-- `FENG.MIRROR` of unit `n`, U32 (R147 05). -/
def fengMirror (n : Nat) : Nat := ob (0x3700 + n % 256) 0x06
/-- `SPILL.MIRROR_SEL`, U32 (R147 05). -/
def spillMirrorSel : Nat := ob 0x3600 0x01
/-- `SPILL.MIRROR`, BYTES[64] (R147 05). -/
def spillMirror : Nat := ob 0x3600 0x02
/-- `BENG.BX_ENTRIES` of unit `n`, U32 (R170 06). -/
def bengBxEntries (n : Nat) : Nat := ob (0x3800 + n % 256) 0x01
/-- `BENG.BW_ENTRIES` of unit `n`, U32 (R170 06). -/
def bengBwEntries (n : Nat) : Nat := ob (0x3800 + n % 256) 0x02
/-- `BENG.PAIRS` of unit `n`, U32 (R170 06). -/
def bengPairs (n : Nat) : Nat := ob (0x3800 + n % 256) 0x03
/-- `BENG.ADAPTER` of unit `n`, U32 (R170 06). -/
def bengAdapter (n : Nat) : Nat := ob (0x3800 + n % 256) 0x04
/-- `BENG.WT_INLINE` of unit `n`, U32 (R170 06). -/
def bengWtInline (n : Nat) : Nat := ob (0x3800 + n % 256) 0x05
/-- `BENG.WPASS_SKIPPED` of unit `n`, U32 (R170 06). -/
def bengWpassSkipped (n : Nat) : Nat := ob (0x3800 + n % 256) 0x06
/-- `BENG.SIDE_EXTRA` of unit `n`, U32 (R170 06). -/
def bengSideExtra (n : Nat) : Nat := ob (0x3800 + n % 256) 0x07
/-- `BENG.SPILLS` of unit `n`, U32 (R170 06). -/
def bengSpills (n : Nat) : Nat := ob (0x3800 + n % 256) 0x08
/-- `BENG.RELOADS` of unit `n`, U32 (R170 06). -/
def bengReloads (n : Nat) : Nat := ob (0x3800 + n % 256) 0x09
/-- `BENG.SHIFT_CLAMP` of unit `n`, U32 (R170 06). -/
def bengShiftClamp (n : Nat) : Nat := ob (0x3800 + n % 256) 0x0A
/-- `ACC.SAT_ADDS` of unit `n`, U32 (R187 07). -/
def accSatAdds (n : Nat) : Nat := ob (0x3900 + n % 256) 0x01
/-- `ACC.NAN_ADDS` of unit `n`, U32 (R187 07). -/
def accNanAdds (n : Nat) : Nat := ob (0x3900 + n % 256) 0x02
/-- `ACC.SEG_CLOSED` of unit `n`, U32 (R187 07). -/
def accSegClosed (n : Nat) : Nat := ob (0x3900 + n % 256) 0x03
/-- `ACC.LONG_TILES` of unit `n`, U32 (R187 07). -/
def accLongTiles (n : Nat) : Nat := ob (0x3900 + n % 256) 0x04
/-- `ACC.SEG_STORE_PEAK` of unit `n`, U32 (R187 07). -/
def accSegStorePeak (n : Nat) : Nat := ob (0x3A00 + n % 16) 0x01
/-- `DBG.ACC_SEL`, U32 (R187 07). -/
def dbgAccSel : Nat := ob 0xF200 0x01
/-- `DBG.ACC_READ`, BYTES[64] (R187 07). -/
def dbgAccRead : Nat := ob 0xF200 0x02
/-- `DBG.ACC_SLOTS`, U32 (R187 07). -/
def dbgAccSlots : Nat := ob 0xF200 0x03
/-- `DBG.SPILL_SEL`, U32 (R187 07). -/
def dbgSpillSel : Nat := ob 0xF200 0x04
/-- `DBG.SPILL_READ`, BYTES[64] (R187 07). -/
def dbgSpillRead : Nat := ob 0xF200 0x05
/-- `DBG.READS`, U32 (R187 07). -/
def dbgReads : Nat := ob 0xF200 0x06
/-- `STEP.HEALTH`, U64 (R211 08). -/
def stepHealth : Nat := ob 0x3C00 0x01
/-- `STEP.BLOCK_MASK`, U16 (R211 08). -/
def stepBlockMask : Nat := ob 0x3C00 0x02
/-- `STEP.OUTCOME`, U8 (R211 08). -/
def stepOutcome : Nat := ob 0x3C00 0x03
/-- `STEP.BANK`, U8 (R211 08). -/
def stepBank : Nat := ob 0x3C00 0x04
/-- `STEP.COMMITS`, U64 (R211 08). -/
def stepCommits : Nat := ob 0x3C00 0x05
/-- `STEP.DISCARDS`, U32 (R211 08). -/
def stepDiscards : Nat := ob 0x3C00 0x06
/-- `STEP.RETRY_LIMIT`, U8 (R211 08). -/
def stepRetryLimit : Nat := ob 0x3C00 0x07
/-- `STEP.RETRIES`, U8 (R211 08). -/
def stepRetries : Nat := ob 0x3C00 0x08
/-- `STEP.SKIP`, U64 (R211 08). -/
def stepSkip : Nat := ob 0x3C00 0x09
/-- `STEP.DATA_POS`, BYTES[16] (R211 08). -/
def stepDataPos : Nat := ob 0x3C00 0x0A
/-- `STEP.WDOG_DEFAULT`, U16 (R211 08). -/
def stepWdogDefault : Nat := ob 0x3C00 0x0B
/-- `STEP.FB_COUNT`, U16 (R211 08). -/
def stepFbCount : Nat := ob 0x3C00 0x0C
/-- `STEP.LR_0`, F32 (R211 08). -/
def stepLr0 : Nat := ob 0x3C01 0x01
/-- `STEP.LR_1`, F32 (R211 08). -/
def stepLr1 : Nat := ob 0x3C01 0x02
/-- `STEP.LR_2`, F32 (R211 08). -/
def stepLr2 : Nat := ob 0x3C01 0x03
/-- `STEP.LR_3`, F32 (R211 08). -/
def stepLr3 : Nat := ob 0x3C01 0x04
/-- `STEP.LR_4`, F32 (R211 08). -/
def stepLr4 : Nat := ob 0x3C01 0x05
/-- `STEP.LR_5`, F32 (R211 08). -/
def stepLr5 : Nat := ob 0x3C01 0x06
/-- `STEP.LR_6`, F32 (R211 08). -/
def stepLr6 : Nat := ob 0x3C01 0x07
/-- `STEP.LR_7`, F32 (R211 08). -/
def stepLr7 : Nat := ob 0x3C01 0x08
/-- `STEP.LR_8`, F32 (R211 08). -/
def stepLr8 : Nat := ob 0x3C01 0x09
/-- `STEP.LR_9`, F32 (R211 08). -/
def stepLr9 : Nat := ob 0x3C01 0x0A
/-- `STEP.LR_10`, F32 (R211 08). -/
def stepLr10 : Nat := ob 0x3C01 0x0B
/-- `STEP.LR_11`, F32 (R211 08). -/
def stepLr11 : Nat := ob 0x3C01 0x0C
/-- `STEP.LR_12`, F32 (R211 08). -/
def stepLr12 : Nat := ob 0x3C01 0x0D
/-- `STEP.LR_13`, F32 (R211 08). -/
def stepLr13 : Nat := ob 0x3C01 0x0E
/-- `STEP.LR_14`, F32 (R211 08). -/
def stepLr14 : Nat := ob 0x3C01 0x0F
/-- `STEP.LR_15`, F32 (R211 08). -/
def stepLr15 : Nat := ob 0x3C01 0x10
/-- `STEP.LAYER_SEL`, U16 (R211 08). -/
def stepLayerSel : Nat := ob 0x3C02 0x01
/-- `STEP.LAYER_K`, I32 (R211 08). -/
def stepLayerK : Nat := ob 0x3C02 0x02
/-- `STEP.LAYER_WDOG`, U16 (R211 08). -/
def stepLayerWdog : Nat := ob 0x3C02 0x03
/-- `STEP.LAYER_FB`, U8 (R211 08). -/
def stepLayerFb : Nat := ob 0x3C02 0x04
/-- `STEP.LAYER_SAT`, U32 (R211 08). -/
def stepLayerSat : Nat := ob 0x3C02 0x05
/-- `STEP.LAYER_GAMAX`, F32 (R211 08). -/
def stepLayerGamax : Nat := ob 0x3C02 0x06
/-- `STEP.FB_MASK`, BYTES[512] (R211 08). -/
def stepFbMask : Nat := ob 0x3C03 0x01
/-- `SPARSE.PRUNE_DROPS` of unit `n`, U32 (R236 09). -/
def sparsePruneDrops (n : Nat) : Nat := ob (0x3D00 + n % 256) 0x01
/-- `SPARSE.ATTN_CLEAR` of unit `n`, U32 (R236 09). -/
def sparseAttnClear (n : Nat) : Nat := ob (0x3D00 + n % 256) 0x02
/-- `SPARSE.META_ERRORS` of unit `n`, U32 (R236 09). -/
def sparseMetaErrors (n : Nat) : Nat := ob (0x3D00 + n % 256) 0x03
/-- `ROUTE.ENTRIES` of unit `n`, U32 (R236 09). -/
def routeEntries (n : Nat) : Nat := ob (0x3E00 + n % 16) 0x01
/-- `ROUTE.ROUTED` of unit `n`, U32 (R236 09). -/
def routeRouted (n : Nat) : Nat := ob (0x3E00 + n % 16) 0x02
/-- `ROUTE.SPILLED` of unit `n`, U32 (R236 09). -/
def routeSpilled (n : Nat) : Nat := ob (0x3E00 + n % 16) 0x03
/-- `ROUTE.DROPPED` of unit `n`, U32 (R236 09). -/
def routeDropped (n : Nat) : Nat := ob (0x3E00 + n % 16) 0x04
/-- `ROUTE.FULL_EXPERTS` of unit `n`, U32 (R236 09). -/
def routeFullExperts (n : Nat) : Nat := ob (0x3E00 + n % 16) 0x05
/-- `ROUTE.NONFINITE` of unit `n`, U32 (R236 09). -/
def routeNonfinite (n : Nat) : Nat := ob (0x3E00 + n % 16) 0x06
/-- `ROLL.PROMPT_RING`, U64 (R261 10). -/
def rollPromptRing : Nat := ob 0x4400 0x01
/-- `ROLL.PROMPT_SIZE`, U32 (R261 10). -/
def rollPromptSize : Nat := ob 0x4400 0x02
/-- `ROLL.PROMPT_TAIL`, U32 (R261 10). -/
def rollPromptTail : Nat := ob 0x4400 0x03
/-- `ROLL.PROMPT_HEAD`, U32 (R261 10). -/
def rollPromptHead : Nat := ob 0x4400 0x04
/-- `ROLL.OUT_RING`, U64 (R261 10). -/
def rollOutRing : Nat := ob 0x4400 0x05
/-- `ROLL.OUT_SIZE`, U32 (R261 10). -/
def rollOutSize : Nat := ob 0x4400 0x06
/-- `ROLL.OUT_HEAD`, U32 (R261 10). -/
def rollOutHead : Nat := ob 0x4400 0x07
/-- `ROLL.OUT_TAIL`, U32 (R261 10). -/
def rollOutTail : Nat := ob 0x4400 0x08
/-- `ROLL.CANCEL`, U64 (R261 10). -/
def rollCancel : Nat := ob 0x4400 0x09
/-- `ROLL.RING_STALLS`, U32 (R261 10). -/
def rollRingStalls : Nat := ob 0x4400 0x0A
/-- `ROLL.DISCARDS`, U32 (R261 10). -/
def rollDiscards : Nat := ob 0x4400 0x0B
/-- `EPOCH.ACTIVE`, U64 (R261 10). -/
def epochActive : Nat := ob 0x4401 0x01
/-- `EPOCH.READY`, U64 (R261 10). -/
def epochReady : Nat := ob 0x4401 0x02
/-- `EPOCH.SHADOW`, U64 (R261 10). -/
def epochShadow : Nat := ob 0x4401 0x03
/-- `EPOCH.BANK`, U8 (R261 10). -/
def epochBank : Nat := ob 0x4401 0x04
/-- `EPOCH.SWITCHES`, U32 (R261 10). -/
def epochSwitches : Nat := ob 0x4401 0x05
/-- `EPOCH.REFUSED`, U32 (R261 10). -/
def epochRefused : Nat := ob 0x4401 0x06
/-- `EPOCH.SKIPPED`, U32 (R261 10). -/
def epochSkipped : Nat := ob 0x4401 0x07
/-- `EPOCH.BASE0`, U64 (R261 10). -/
def epochBase0 : Nat := ob 0x4401 0x08
/-- `EPOCH.BASE1`, U64 (R261 10). -/
def epochBase1 : Nat := ob 0x4401 0x09
/-- `EPOCH.LEN`, U64 (R261 10). -/
def epochLen : Nat := ob 0x4401 0x0A
/-- `ROLL.CL_LIVE` of unit `n`, U16 (R261 10). -/
def rollClLive (n : Nat) : Nat := ob (0x4300 + n % 16) 0x01
/-- `ROLL.CL_BUCKET` of unit `n`, U8 (R261 10). -/
def rollClBucket (n : Nat) : Nat := ob (0x4300 + n % 16) 0x02
/-- `ROLL.CL_TOKENS` of unit `n`, U64 (R261 10). -/
def rollClTokens (n : Nat) : Nat := ob (0x4300 + n % 16) 0x03
/-- `ROLL.CL_ENDED` of unit `n`, U32 (R261 10). -/
def rollClEnded (n : Nat) : Nat := ob (0x4300 + n % 16) 0x04
/-- `ROLL.CL_SEALS` of unit `n`, U32 (R261 10). -/
def rollClSeals (n : Nat) : Nat := ob (0x4300 + n % 16) 0x05
/-- `ROLL.CL_PREFILL` of unit `n`, U64 (R261 10). -/
def rollClPrefill (n : Nat) : Nat := ob (0x4300 + n % 16) 0x06
/-- `STRM.SEL`, U32 (R290 11). -/
def strmSel : Nat := ob 0x5000 0x01
/-- `STRM.STATE`, U8 (R290 11). -/
def strmState : Nat := ob 0x5000 0x02
/-- `STRM.POS`, U64 (R290 11). -/
def strmPos : Nat := ob 0x5000 0x03
/-- `STRM.PACKETS`, U64 (R290 11). -/
def strmPackets : Nat := ob 0x5000 0x04
/-- `STRM.HALT_CAUSE`, U8 (R290 11). -/
def strmHaltCause : Nat := ob 0x5000 0x05
/-- `STRM.FAULT_POS`, U64 (R290 11). -/
def strmFaultPos : Nat := ob 0x5000 0x06
/-- `STRM.RESUME`, U8 (R290 11). -/
def strmResume : Nat := ob 0x5000 0x07
/-- `STRM.SHADOW`, U8 (R290 11). -/
def strmShadow : Nat := ob 0x5000 0x08
/-- `SLU.SEL`, U32 (R290 11). -/
def sluSel : Nat := ob 0x5001 0x01
/-- `SLU.FILL`, U32 (R290 11). -/
def sluFill : Nat := ob 0x5001 0x02
/-- `SLU.CMD`, U8 (R290 11). -/
def sluCmd : Nat := ob 0x5001 0x03
/-- `SLU.NARROW`, U8 (R290 11). -/
def sluNarrow : Nat := ob 0x5001 0x04
/-- `SLU.NARROW_DATA`, U32 (R290 11). -/
def sluNarrowData : Nat := ob 0x5001 0x05
/-- `SLU.NARROW_CLOSE`, U8 (R290 11). -/
def sluNarrowClose : Nat := ob 0x5001 0x06
/-- `SLU.CMD_REFUSED`, U32 (R290 11). -/
def sluCmdRefused : Nat := ob 0x5001 0x07
/-- `WEIR.TOTAL` of unit `n`, U32 (R290 11). -/
def weirTotal (n : Nat) : Nat := ob (0x5100 + n % 4) 0x01
/-- `WEIR.CLASS_0` of unit `n`, U32 (R290 11). -/
def weirClass0 (n : Nat) : Nat := ob (0x5100 + n % 4) 0x02
/-- `WEIR.CLASS_1` of unit `n`, U32 (R290 11). -/
def weirClass1 (n : Nat) : Nat := ob (0x5100 + n % 4) 0x03
/-- `WEIR.CLASS_2` of unit `n`, U32 (R290 11). -/
def weirClass2 (n : Nat) : Nat := ob (0x5100 + n % 4) 0x04
/-- `WEIR.CLASS_3` of unit `n`, U32 (R290 11). -/
def weirClass3 (n : Nat) : Nat := ob (0x5100 + n % 4) 0x05
/-- `WEIR.FABRIC` of unit `n`, U32 (R290 11). -/
def weirFabric (n : Nat) : Nat := ob (0x5100 + n % 4) 0x06
/-- `WEIR.CORE_CAP` of unit `n`, U32 (R290 11). -/
def weirCoreCap (n : Nat) : Nat := ob (0x5100 + n % 4) 0x07
/-- `WEIR.CLAMP_PCT` of unit `n`, U8 (R290 11). -/
def weirClampPct (n : Nat) : Nat := ob (0x5100 + n % 4) 0x08
/-- `WEIR.GRANTED` of unit `n`, U32 (R290 11). -/
def weirGranted (n : Nat) : Nat := ob (0x5100 + n % 4) 0x09
/-- `WEIR.WAIT_BEATS` of unit `n`, U64 (R290 11). -/
def weirWaitBeats (n : Nat) : Nat := ob (0x5100 + n % 4) 0x0A
/-- `STRM.OVERWRITES` of unit `n`, U32 (R290 11). -/
def strmOverwrites (n : Nat) : Nat := ob (0x5200 + n % 256) 0x01
/-- `STRM.REWINDS` of unit `n`, U32 (R290 11). -/
def strmRewinds (n : Nat) : Nat := ob (0x5200 + n % 256) 0x02
/-- `STRM.DROPS` of unit `n`, U32 (R290 11). -/
def strmDrops (n : Nat) : Nat := ob (0x5200 + n % 256) 0x03
/-- `STRM.FLUSHES` of unit `n`, U32 (R290 11). -/
def strmFlushes (n : Nat) : Nat := ob (0x5200 + n % 256) 0x04
/-- `STRM.DEADLOCKS` of unit `n`, U32 (R290 11). -/
def strmDeadlocks (n : Nat) : Nat := ob (0x5200 + n % 256) 0x05
/-- `STRM.FAULT_HALTS` of unit `n`, U32 (R290 11). -/
def strmFaultHalts (n : Nat) : Nat := ob (0x5200 + n % 256) 0x06
/-- `STRM.REFETCHES` of unit `n`, U32 (R290 11). -/
def strmRefetches (n : Nat) : Nat := ob (0x5200 + n % 256) 0x07
/-- `STRM.BOUNDARY_CUTS` of unit `n`, U32 (R290 11). -/
def strmBoundaryCuts (n : Nat) : Nat := ob (0x5200 + n % 256) 0x08
/-- `MEM.T0_CAP`, U64 (R320 12). -/
def memT0Cap : Nat := ob 0x6000 0x01
/-- `MEM.T1_CAP`, U64 (R320 12). -/
def memT1Cap : Nat := ob 0x6000 0x02
/-- `MEM.T2_CAP`, U64 (R320 12). -/
def memT2Cap : Nat := ob 0x6000 0x03
/-- `MEM.T3_CAP`, U64 (R320 12). -/
def memT3Cap : Nat := ob 0x6000 0x04
/-- `MEM.TBL_BASE`, U64 (R320 12). -/
def memTblBase : Nat := ob 0x6000 0x05
/-- `MEM.TBL_LEN`, U64 (R320 12). -/
def memTblLen : Nat := ob 0x6000 0x06
/-- `MEM.CE_T0`, U64 (R320 12). -/
def memCeT0 : Nat := ob 0x6001 0x01
/-- `MEM.CE_T1`, U64 (R320 12). -/
def memCeT1 : Nat := ob 0x6001 0x02
/-- `MEM.CE_T2`, U64 (R320 12). -/
def memCeT2 : Nat := ob 0x6001 0x03
/-- `MEM.CE_T3`, U64 (R320 12). -/
def memCeT3 : Nat := ob 0x6001 0x04
/-- `MEM.UE_T0`, U64 (R320 12). -/
def memUeT0 : Nat := ob 0x6001 0x05
/-- `MEM.UE_T1`, U64 (R320 12). -/
def memUeT1 : Nat := ob 0x6001 0x06
/-- `MEM.UE_T2`, U64 (R320 12). -/
def memUeT2 : Nat := ob 0x6001 0x07
/-- `MEM.UE_T3`, U64 (R320 12). -/
def memUeT3 : Nat := ob 0x6001 0x08
/-- `MEM.SCRUB_HOURS`, U16 (R320 12). -/
def memScrubHours : Nat := ob 0x6001 0x09
/-- `MEM.PC_SEL`, U16 (R320 12). -/
def memPcSel : Nat := ob 0x6002 0x01
/-- `MEM.PC_CE`, U32 (R320 12). -/
def memPcCe : Nat := ob 0x6002 0x02
/-- `MEM.PC_UE`, U32 (R320 12). -/
def memPcUe : Nat := ob 0x6002 0x03
/-- `MEM.PC_CE_LIMIT`, U32 (R320 12). -/
def memPcCeLimit : Nat := ob 0x6002 0x04
/-- `MEM.HBM_ODECC`, U32 (R320 12). -/
def memHbmOdecc : Nat := ob 0x6002 0x05
/-- `MEM.RETIRE`, U16 (R320 12). -/
def memRetire : Nat := ob 0x6003 0x01
/-- `MEM.RETIRED_C0`, BYTES[16] (R320 12). -/
def memRetiredC0 : Nat := ob 0x6003 0x02
/-- `MEM.RETIRED_C1`, BYTES[16] (R320 12). -/
def memRetiredC1 : Nat := ob 0x6003 0x03
/-- `MEM.RETIRED_C2`, BYTES[16] (R320 12). -/
def memRetiredC2 : Nat := ob 0x6003 0x04
/-- `MEM.RETIRED_C3`, BYTES[16] (R320 12). -/
def memRetiredC3 : Nat := ob 0x6003 0x05
/-- `MEM.RETIRE_STATE`, U8 (R320 12). -/
def memRetireState : Nat := ob 0x6003 0x06
/-- `MEM.REBUILD_POOL`, U64 (R320 12). -/
def memRebuildPool : Nat := ob 0x6003 0x07
/-- `MEM.AUTO_RETIRE`, U8 (R320 12). -/
def memAutoRetire : Nat := ob 0x6003 0x08
/-- `XLAT.ROOT`, U64 (R320 12). -/
def xlatRoot : Nat := ob 0x6100 0x01
/-- `XLAT.INVAL`, U64 (R320 12). -/
def xlatInval : Nat := ob 0x6100 0x02
/-- `XLAT.INVAL_STATE`, U8 (R320 12). -/
def xlatInvalState : Nat := ob 0x6100 0x03
/-- `XLAT.FQ_BASE`, U64 (R320 12). -/
def xlatFqBase : Nat := ob 0x6100 0x04
/-- `XLAT.FQ_SIZE`, U32 (R320 12). -/
def xlatFqSize : Nat := ob 0x6100 0x05
/-- `XLAT.FQ_HEAD`, U32 (R320 12). -/
def xlatFqHead : Nat := ob 0x6100 0x06
/-- `XLAT.FQ_TAIL`, U32 (R320 12). -/
def xlatFqTail : Nat := ob 0x6100 0x07
/-- `XLAT.FQ_HELD`, U32 (R320 12). -/
def xlatFqHeld : Nat := ob 0x6100 0x08
/-- `XLAT.FQ_LOST`, U32 (R320 12). -/
def xlatFqLost : Nat := ob 0x6100 0x09
/-- `XLAT.FAULTS`, U64 (R320 12). -/
def xlatFaults : Nat := ob 0x6100 0x0A
/-- `XLAT.WALKS` of unit `n`, U64 (R320 12). -/
def xlatWalks (n : Nat) : Nat := ob (0x6110 + n % 4) 0x01
/-- `XLAT.MOVE_SRC`, U64 (R320 12). -/
def xlatMoveSrc : Nat := ob 0x6200 0x01
/-- `XLAT.MOVE_DST`, U64 (R320 12). -/
def xlatMoveDst : Nat := ob 0x6200 0x02
/-- `XLAT.MOVE_LEN`, U32 (R320 12). -/
def xlatMoveLen : Nat := ob 0x6200 0x03
/-- `XLAT.MOVE_GO`, U8 (R320 12). -/
def xlatMoveGo : Nat := ob 0x6200 0x04
/-- `XLAT.MOVE_STATE`, U8 (R320 12). -/
def xlatMoveState : Nat := ob 0x6200 0x05
/-- `SIPH.WINDOW_BASE`, U64 (R320 12). -/
def siphWindowBase : Nat := ob 0x6300 0x01
/-- `SIPH.CL_T0_POOL` of unit `n`, U64 (R320 12). -/
def siphClT0Pool (n : Nat) : Nat := ob (0x6310 + n % 16) 0x01
/-- `SIPH.CL_T1_POOL` of unit `n`, U64 (R320 12). -/
def siphClT1Pool (n : Nat) : Nat := ob (0x6310 + n % 16) 0x03
/-- `SIPH.CL_T2_POOL` of unit `n`, U64 (R320 12). -/
def siphClT2Pool (n : Nat) : Nat := ob (0x6310 + n % 16) 0x05
/-- `SIPH.CL_T0_LEN` of unit `n`, U64 (R320 12). -/
def siphClT0Len (n : Nat) : Nat := ob (0x6310 + n % 16) 0x02
/-- `SIPH.CL_T1_LEN` of unit `n`, U64 (R320 12). -/
def siphClT1Len (n : Nat) : Nat := ob (0x6310 + n % 16) 0x04
/-- `SIPH.CL_T2_LEN` of unit `n`, U64 (R320 12). -/
def siphClT2Len (n : Nat) : Nat := ob (0x6310 + n % 16) 0x06
/-- `SIPH.CL_LEDGER` of unit `n`, BYTES[24] (R320 12). -/
def siphClLedger (n : Nat) : Nat := ob (0x6310 + n % 16) 0x07
/-- `SIPH.CL_REDIRECTS` of unit `n`, U32 (R320 12). -/
def siphClRedirects (n : Nat) : Nat := ob (0x6310 + n % 16) 0x08
/-- `SIPH.CL_RECOMPUTES` of unit `n`, U32 (R320 12). -/
def siphClRecomputes (n : Nat) : Nat := ob (0x6310 + n % 16) 0x09
/-- `SIPH.CL_RAW_BYTES` of unit `n`, U64 (R320 12). -/
def siphClRawBytes (n : Nat) : Nat := ob (0x6310 + n % 16) 0x0A
/-- `SIPH.CL_STORED_BYTES` of unit `n`, U64 (R320 12). -/
def siphClStoredBytes (n : Nat) : Nat := ob (0x6310 + n % 16) 0x0B
/-- `SIPH.CL_EXPAND_SAT` of unit `n`, U32 (R320 12). -/
def siphClExpandSat (n : Nat) : Nat := ob (0x6310 + n % 16) 0x0C
/-- `SIPH.CL_EXPAND_ZERO` of unit `n`, U32 (R320 12). -/
def siphClExpandZero (n : Nat) : Nat := ob (0x6310 + n % 16) 0x0D
/-- `RILL.COORD`, U16 (R348 13). -/
def rillCoord : Nat := ob 0x7000 0x01
/-- `RILL.RANK`, U16 (R348 13). -/
def rillRank : Nat := ob 0x7000 0x02
/-- `RILL.ALT_SEL`, U8 (R348 13). -/
def rillAltSel : Nat := ob 0x7000 0x03
/-- `RILL.ALT_ACTIVE`, U8 (R348 13). -/
def rillAltActive : Nat := ob 0x7000 0x04
/-- `RILL.ROUTE_GEN`, U32 (R348 13). -/
def rillRouteGen : Nat := ob 0x7000 0x05
/-- `RILL.HELD_FLITS`, U32 (R348 13). -/
def rillHeldFlits : Nat := ob 0x7000 0x06
/-- `RILL.WIRE_ZERO`, U32 (R348 13). -/
def rillWireZero : Nat := ob 0x7000 0x07
/-- `RILL.RED_SAT`, U32 (R348 13). -/
def rillRedSat : Nat := ob 0x7000 0x08
/-- `RILL.P_STATE` of unit `n`, U8 (R348 13). -/
def rillPState (n : Nat) : Nat := ob (0x7100 + n % 6) 0x01
/-- `RILL.P_LANES` of unit `n`, U8 (R348 13). -/
def rillPLanes (n : Nat) : Nat := ob (0x7100 + n % 6) 0x02
/-- `RILL.P_FAILED` of unit `n`, U32 (R348 13). -/
def rillPFailed (n : Nat) : Nat := ob (0x7100 + n % 6) 0x03
/-- `RILL.P_NBR` of unit `n`, U16 (R348 13). -/
def rillPNbr (n : Nat) : Nat := ob (0x7100 + n % 6) 0x04
/-- `RILL.P_NBR_OK` of unit `n`, U8 (R348 13). -/
def rillPNbrOk (n : Nat) : Nat := ob (0x7100 + n % 6) 0x05
/-- `RILL.P_REPLAYS` of unit `n`, U64 (R348 13). -/
def rillPReplays (n : Nat) : Nat := ob (0x7100 + n % 6) 0x06
/-- `RILL.P_CE` of unit `n`, U64 (R348 13). -/
def rillPCe (n : Nat) : Nat := ob (0x7100 + n % 6) 0x07
/-- `RILL.P_UE` of unit `n`, U64 (R348 13). -/
def rillPUe (n : Nat) : Nat := ob (0x7100 + n % 6) 0x08
/-- `RILL.P_FWD` of unit `n`, U64 (R348 13). -/
def rillPFwd (n : Nat) : Nat := ob (0x7100 + n % 6) 0x09
/-- `RILL.P_SLOT_MISS` of unit `n`, U32 (R348 13). -/
def rillPSlotMiss (n : Nat) : Nat := ob (0x7100 + n % 6) 0x0A
/-- `RILL.P_LANE_ERR_LIMIT` of unit `n`, U32 (R348 13). -/
def rillPLaneErrLimit (n : Nat) : Nat := ob (0x7100 + n % 6) 0x0B
/-- `RILL.P_RETRAIN` of unit `n`, U8 (R348 13). -/
def rillPRetrain (n : Nat) : Nat := ob (0x7100 + n % 6) 0x0C
/-- `ETH.P_STATE` of unit `n`, U8 (R371 14). -/
def ethPState (n : Nat) : Nat := ob (0x7200 + n % 8) 0x01
/-- `ETH.P_ENABLE` of unit `n`, U8 (R371 14). -/
def ethPEnable (n : Nat) : Nat := ob (0x7200 + n % 8) 0x02
/-- `ETH.P_MEDIA` of unit `n`, U8 (R371 14). -/
def ethPMedia (n : Nat) : Nat := ob (0x7200 + n % 8) 0x03
/-- `ETH.P_FEC_CORR` of unit `n`, U64 (R371 14). -/
def ethPFecCorr (n : Nat) : Nat := ob (0x7200 + n % 8) 0x04
/-- `ETH.P_FEC_UNCORR` of unit `n`, U64 (R371 14). -/
def ethPFecUncorr (n : Nat) : Nat := ob (0x7200 + n % 8) 0x05
/-- `ETH.P_RX_FRAMES` of unit `n`, U64 (R371 14). -/
def ethPRxFrames (n : Nat) : Nat := ob (0x7200 + n % 8) 0x06
/-- `ETH.P_TX_FRAMES` of unit `n`, U64 (R371 14). -/
def ethPTxFrames (n : Nat) : Nat := ob (0x7200 + n % 8) 0x07
/-- `ETH.P_DROPS` of unit `n`, U64 (R371 14). -/
def ethPDrops (n : Nat) : Nat := ob (0x7200 + n % 8) 0x08
/-- `ETH.P_QPS` of unit `n`, U16 (R371 14). -/
def ethPQps (n : Nat) : Nat := ob (0x7200 + n % 8) 0x09
/-- `ETH.P_LINK_DOWNS` of unit `n`, U32 (R371 14). -/
def ethPLinkDowns (n : Nat) : Nat := ob (0x7200 + n % 8) 0x0A
/-- `ETH.N_MAC` of unit `n`, BYTES[6] (R371 14). -/
def ethNMac (n : Nat) : Nat := ob (0x7300 + n % 2) 0x01
/-- `ETH.N_IPV4` of unit `n`, U32 (R371 14). -/
def ethNIpv4 (n : Nat) : Nat := ob (0x7300 + n % 2) 0x02
/-- `ETH.N_IPV6` of unit `n`, BYTES[16] (R371 14). -/
def ethNIpv6 (n : Nat) : Nat := ob (0x7300 + n % 2) 0x03
/-- `ETH.N_VLAN` of unit `n`, U16 (R371 14). -/
def ethNVlan (n : Nat) : Nat := ob (0x7300 + n % 2) 0x04
/-- `ETH.N_ROCE_PRIO` of unit `n`, U8 (R371 14). -/
def ethNRocePrio (n : Nat) : Nat := ob (0x7300 + n % 2) 0x05
/-- `ETH.N_MTU` of unit `n`, U16 (R371 14). -/
def ethNMtu (n : Nat) : Nat := ob (0x7300 + n % 2) 0x06
/-- `ETH.N_PORTS_UP` of unit `n`, U8 (R371 14). -/
def ethNPortsUp (n : Nat) : Nat := ob (0x7300 + n % 2) 0x07
/-- `ETH.N_LACP` of unit `n`, U8 (R371 14). -/
def ethNLacp (n : Nat) : Nat := ob (0x7300 + n % 2) 0x08
/-- `ETH.BMGT_UDP`, U16 (R371 14). -/
def ethBmgtUdp : Nat := ob 0x7310 0x01
/-- `PTP.NET`, U8 (R371 14). -/
def ptpNet : Nat := ob 0x7380 0x01
/-- `PTP.DOMAIN`, U8 (R371 14). -/
def ptpDomain : Nat := ob 0x7380 0x02
/-- `PTP.PPS_MODE`, U8 (R371 14). -/
def ptpPpsMode : Nat := ob 0x7380 0x03
/-- `PTP.SERVER`, BYTES[8] (R371 14). -/
def ptpServer : Nat := ob 0x7380 0x04
/-- `PTP.PORT`, U8 (R371 14). -/
def ptpPort : Nat := ob 0x7380 0x05
/-- `ROCE.QP_MAX`, U16 (R371 14). -/
def roceQpMax : Nat := ob 0x7400 0x01
/-- `ROCE.TIMEOUT`, U8 (R371 14). -/
def roceTimeout : Nat := ob 0x7400 0x02
/-- `ROCE.RETRY`, U8 (R371 14). -/
def roceRetry : Nat := ob 0x7400 0x03
/-- `ROCE.ECN`, U8 (R371 14). -/
def roceEcn : Nat := ob 0x7400 0x04
/-- `ROCE.ERR_QPS`, U32 (R371 14). -/
def roceErrQps : Nat := ob 0x7400 0x05
/-- `ROCE.ACCESS_NAKS`, U32 (R371 14). -/
def roceAccessNaks : Nat := ob 0x7400 0x06
/-- `ROCE.RGN_SEL`, U16 (R371 14). -/
def roceRgnSel : Nat := ob 0x7410 0x01
/-- `ROCE.RGN`, BYTES[32] (R371 14). -/
def roceRgn : Nat := ob 0x7410 0x02
/-- `ROCE.QP_SEL`, U16 (R371 14). -/
def roceQpSel : Nat := ob 0x7420 0x01
/-- `ROCE.QP`, BYTES[64] (R371 14). -/
def roceQp : Nat := ob 0x7420 0x02
/-- `MBX.VA`, U64 (R371 14). -/
def mbxVa : Nat := ob 0xA000 0x01
/-- `MBX.RKEY`, U32 (R371 14). -/
def mbxRkey : Nat := ob 0xA000 0x02
/-- `MBX.NOTIFY_MASK`, U16 (R371 14). -/
def mbxNotifyMask : Nat := ob 0xA000 0x03
/-- `MBX.NOTIFY_DB`, U8 (R371 14). -/
def mbxNotifyDb : Nat := ob 0xA000 0x04
/-- `MBX.FULL_WRITES`, U32 (R371 14). -/
def mbxFullWrites : Nat := ob 0xA000 0x05
/-- `MBX.DROPPED`, U32 (R371 14). -/
def mbxDropped : Nat := ob 0xA000 0x06
/-- `MBX.BAD_LENGTHS`, U32 (R371 14). -/
def mbxBadLengths : Nat := ob 0xA000 0x07
/-- `MBX.EP_QP` of unit `n`, U16 (R371 14). -/
def mbxEpQp (n : Nat) : Nat := ob (0xA100 + n % 16) 0x01
/-- `MBX.EP_SECURE` of unit `n`, U8 (R371 14). -/
def mbxEpSecure (n : Nat) : Nat := ob (0xA100 + n % 16) 0x02
/-- `MBX.EP_HOST_ADDR` of unit `n`, U64 (R371 14). -/
def mbxEpHostAddr (n : Nat) : Nat := ob (0xA100 + n % 16) 0x03
/-- `MBX.EP_HOST_RKEY` of unit `n`, U32 (R371 14). -/
def mbxEpHostRkey (n : Nat) : Nat := ob (0xA100 + n % 16) 0x04
/-- `MBX.MC_DB_PENDING`, U32 (R371 14). -/
def mbxMcDbPending : Nat := ob 0xA200 0x01
/-- `MBX.MC_DB_MASK`, U32 (R371 14). -/
def mbxMcDbMask : Nat := ob 0xA200 0x02
/-- `MBX.SQ_DB_PENDING` of unit `n`, U32 (R371 14). -/
def mbxSqDbPending (n : Nat) : Nat := ob (0xA300 + n % 16) 0x01
/-- `MBX.SQ_DB_MASK` of unit `n`, U32 (R371 14). -/
def mbxSqDbMask (n : Nat) : Nat := ob (0xA300 + n % 16) 0x02
/-- `MBX.SQ_LEN_HELD` of unit `n`, U16 (R371 14). -/
def mbxSqLenHeld (n : Nat) : Nat := ob (0xA300 + n % 16) 0x03
/-- `RES.CAP`, U64 (R396 15). -/
def resCap : Nat := ob 0x8000 0x01
/-- `RES.FEED`, U8 (R396 15). -/
def resFeed : Nat := ob 0x8000 0x02
/-- `RES.SLOT`, U8 (R396 15). -/
def resSlot : Nat := ob 0x8000 0x03
/-- `RES.FENCE_REQ`, U16 (R396 15). -/
def resFenceReq : Nat := ob 0x8000 0x04
/-- `RES.CORE_SEL`, U16 (R396 15). -/
def resCoreSel : Nat := ob 0x8000 0x05
/-- `RES.CORE_TEST`, U8 (R396 15). -/
def resCoreTest : Nat := ob 0x8000 0x06
/-- `RES.TEST_RESULT`, U8 (R396 15). -/
def resTestResult : Nat := ob 0x8000 0x07
/-- `RES.UNFENCE`, U8 (R396 15). -/
def resUnfence : Nat := ob 0x8000 0x08
/-- `RES.FENCED_MAP`, BYTES[32] (R396 15). -/
def resFencedMap : Nat := ob 0x8000 0x09
/-- `RES.HANG_BEATS`, U32 (R396 15). -/
def resHangBeats : Nat := ob 0x8000 0x0A
/-- `RES.FAIL_NOTICE`, U8 (R396 15). -/
def resFailNotice : Nat := ob 0x8000 0x0B
/-- `RES.MTBF_PRIOR`, U32 (R396 15). -/
def resMtbfPrior : Nat := ob 0x8000 0x0C
/-- `RES.MTBF_OBS`, U32 (R396 15). -/
def resMtbfObs : Nat := ob 0x8000 0x0D
/-- `RES.MTBF_RESET`, U8 (R396 15). -/
def resMtbfReset : Nat := ob 0x8000 0x0E
/-- `CKPT.MODE`, U8 (R396 15). -/
def ckptMode : Nat := ob 0x8100 0x01
/-- `CKPT.FIXED_S`, U32 (R396 15). -/
def ckptFixedS : Nat := ob 0x8100 0x02
/-- `CKPT.REQUEST`, U8 (R396 15). -/
def ckptRequest : Nat := ob 0x8100 0x03
/-- `CKPT.INTERVAL_S`, U32 (R396 15). -/
def ckptIntervalS : Nat := ob 0x8100 0x04
/-- `CKPT.GEN`, U64 (R396 15). -/
def ckptGen : Nat := ob 0x8100 0x05
/-- `CKPT.SECURED_GEN`, U64 (R396 15). -/
def ckptSecuredGen : Nat := ob 0x8100 0x06
/-- `CKPT.STATE`, U8 (R396 15). -/
def ckptState : Nat := ob 0x8100 0x07
/-- `CKPT.LAST_STOP_US`, U32 (R396 15). -/
def ckptLastStopUs : Nat := ob 0x8100 0x08
/-- `CKPT.LAST_BYTES`, U64 (R396 15). -/
def ckptLastBytes : Nat := ob 0x8100 0x09
/-- `CKPT.CONFLICT`, U8 (R396 15). -/
def ckptConflict : Nat := ob 0x8100 0x0A
/-- `CKPT.DRAIN_LIMIT_S`, U32 (R396 15). -/
def ckptDrainLimitS : Nat := ob 0x8100 0x0B
/-- `CKPT.DRAIN_STATE`, U8 (R396 15). -/
def ckptDrainState : Nat := ob 0x8100 0x0C
/-- `CKPT.T1_BASE`, U64 (R396 15). -/
def ckptT1Base : Nat := ob 0x8101 0x01
/-- `CKPT.T1_LEN`, U64 (R396 15). -/
def ckptT1Len : Nat := ob 0x8101 0x02
/-- `CKPT.T3_BASE`, U64 (R396 15). -/
def ckptT3Base : Nat := ob 0x8101 0x03
/-- `CKPT.T3_SLOT_LEN`, U64 (R396 15). -/
def ckptT3SlotLen : Nat := ob 0x8101 0x04
/-- `CKPT.PIN_BASE`, U64 (R396 15). -/
def ckptPinBase : Nat := ob 0x8101 0x05
/-- `CKPT.PARTNER_QP`, U16 (R396 15). -/
def ckptPartnerQp : Nat := ob 0x8102 0x01
/-- `CKPT.PARTNER_ADDR`, U64 (R396 15). -/
def ckptPartnerAddr : Nat := ob 0x8102 0x02
/-- `CKPT.PARTNER_RKEY`, U32 (R396 15). -/
def ckptPartnerRkey : Nat := ob 0x8102 0x03
/-- `CKPT.STORE_QP`, BYTES[8] (R396 15). -/
def ckptStoreQp : Nat := ob 0x8102 0x04
/-- `CKPT.STORE_ADDR`, U64 (R396 15). -/
def ckptStoreAddr : Nat := ob 0x8102 0x05
/-- `CKPT.STORE_RKEY`, U32 (R396 15). -/
def ckptStoreRkey : Nat := ob 0x8102 0x06
/-- `CKPT.SERVE`, U8 (R396 15). -/
def ckptServe : Nat := ob 0x8102 0x07
/-- `CKPT.SERVE_QP`, U16 (R396 15). -/
def ckptServeQp : Nat := ob 0x8102 0x08
/-- `CKPT.SERVE_ADDR`, U64 (R396 15). -/
def ckptServeAddr : Nat := ob 0x8102 0x09
/-- `CKPT.SERVE_RKEY`, U32 (R396 15). -/
def ckptServeRkey : Nat := ob 0x8102 0x0A
/-- `CKPT.RGN_SEL`, U8 (R396 15). -/
def ckptRgnSel : Nat := ob 0x8103 0x01
/-- `CKPT.RGN`, BYTES[32] (R396 15). -/
def ckptRgn : Nat := ob 0x8103 0x02
/-- `CKPT.RESTORE`, U8 (R396 15). -/
def ckptRestore : Nat := ob 0x8104 0x01
/-- `CKPT.RESTORE_STATE`, U8 (R396 15). -/
def ckptRestoreState : Nat := ob 0x8104 0x02
/-- `CKPT.RESTORE_REASON`, U8 (R396 15). -/
def ckptRestoreReason : Nat := ob 0x8104 0x03
/-- `RES.LEDGER_SEL`, U32 (R396 15). -/
def resLedgerSel : Nat := ob 0x8200 0x01
/-- `RES.LEDGER`, BYTES[64] (R396 15). -/
def resLedger : Nat := ob 0x8200 0x02
/-- `PWR.INPUT_MV`, U32 (R421 16). -/
def pwrInputMv : Nat := ob 0x2000 0x01
/-- `PWR.INPUT_W`, U32 (R421 16). -/
def pwrInputW : Nat := ob 0x2000 0x02
/-- `PWR.SUPPLY_STATE`, U8 (R421 16). -/
def pwrSupplyState : Nat := ob 0x2000 0x03
/-- `PWR.DIP_FREQ`, U16 (R421 16). -/
def pwrDipFreq : Nat := ob 0x2000 0x04
/-- `PWR.DIP_WEIR_PCT`, U8 (R421 16). -/
def pwrDipWeirPct : Nat := ob 0x2000 0x05
/-- `PWR.DIP_COUNT`, U32 (R421 16). -/
def pwrDipCount : Nat := ob 0x2000 0x06
/-- `PWR.RESET_CAUSE`, U8 (R421 16). -/
def pwrResetCause : Nat := ob 0x2000 0x07
/-- `PWR.CAP_W`, U16 (R421 16). -/
def pwrCapW : Nat := ob 0x2001 0x01
/-- `PWR.CAP_CEIL`, U16 (R421 16). -/
def pwrCapCeil : Nat := ob 0x2001 0x02
/-- `PWR.CAP_BEATS`, U64 (R421 16). -/
def pwrCapBeats : Nat := ob 0x2001 0x03
/-- `PWR.THERM_THROTTLE_C`, U8 (R421 16). -/
def pwrThermThrottleC : Nat := ob 0x2001 0x04
/-- `PWR.TEMP` of unit `n`, I32 (R421 16). -/
def pwrTemp (n : Nat) : Nat := ob (0x2020 + n % 6) 0x01
/-- `PWR.THERM_CEIL` of unit `n`, U16 (R421 16). -/
def pwrThermCeil (n : Nat) : Nat := ob (0x2020 + n % 6) 0x02
/-- `PWR.PST_HDR` of unit `n`, BYTES[64] (R421 16). -/
def pwrPstHdr (n : Nat) : Nat := ob (0x2020 + n % 6) 0x03
/-- `PWR.PST_POINTS` of unit `n`, BYTES[256] (R421 16). -/
def pwrPstPoints (n : Nat) : Nat := ob (0x2020 + n % 6) 0x04
/-- `PWR.DOM_SEL`, U16 (R421 16). -/
def pwrDomSel : Nat := ob 0x2100 0x01
/-- `PWR.DOM_REQ`, U8 (R421 16). -/
def pwrDomReq : Nat := ob 0x2100 0x02
/-- `PWR.DOM_STATE`, U8 (R421 16). -/
def pwrDomState : Nat := ob 0x2100 0x03
/-- `PWR.DOM_FREQ_REQ`, U16 (R421 16). -/
def pwrDomFreqReq : Nat := ob 0x2100 0x04
/-- `PWR.DOM_VOLT_REQ`, U16 (R421 16). -/
def pwrDomVoltReq : Nat := ob 0x2100 0x05
/-- `PWR.DOM_FREQ`, U16 (R421 16). -/
def pwrDomFreq : Nat := ob 0x2100 0x06
/-- `PWR.DOM_VOLT`, U16 (R421 16). -/
def pwrDomVolt : Nat := ob 0x2100 0x07
/-- `PWR.DOM_REFUSED`, U32 (R421 16). -/
def pwrDomRefused : Nat := ob 0x2100 0x08
/-- `PWR.DOM_ABORTED`, U32 (R421 16). -/
def pwrDomAborted : Nat := ob 0x2100 0x09
/-- `PWR.DOM_LAST_REFUSER`, U8 (R421 16). -/
def pwrDomLastRefuser : Nat := ob 0x2100 0x0A
/-- `PWR.DOM_CEIL`, U16 (R421 16). -/
def pwrDomCeil : Nat := ob 0x2100 0x0B
/-- `PWR.SSP_ADDR`, U8 (R421 16). -/
def pwrSspAddr : Nat := ob 0x2200 0x01
/-- `PWR.WAKE_SET`, U8 (R421 16). -/
def pwrWakeSet : Nat := ob 0x2200 0x02
/-- `PWR.SLEEP`, U8 (R421 16). -/
def pwrSleep : Nat := ob 0x2200 0x03
/-- `PWR.WAKES`, U32 (R421 16). -/
def pwrWakes : Nat := ob 0x2200 0x04
/-- `ID.PART`, BYTES[16] (R449 17). -/
def idPart : Nat := ob 0x1000 0x01
/-- `ID.SERIAL`, BYTES[16] (R449 17). -/
def idSerial : Nat := ob 0x1000 0x02
/-- `ID.ROM_VERSION`, U32 (R449 17). -/
def idRomVersion : Nat := ob 0x1000 0x03
/-- `ID.FW_VERSION`, U32 (R449 17). -/
def idFwVersion : Nat := ob 0x1000 0x04
/-- `ID.FW_SVN`, U32 (R449 17). -/
def idFwSvn : Nat := ob 0x1000 0x05
/-- `ID.FIELD_MAC`, BYTES[6] (R449 17). -/
def idFieldMac : Nat := ob 0x1000 0x06
/-- `CFG.UNIT_MAP`, BYTES[64] (R449 17). -/
def cfgUnitMap : Nat := ob 0x1001 0x01
/-- `CFG.STAGE_ADDR`, U64 (R449 17). -/
def cfgStageAddr : Nat := ob 0x1001 0x02
/-- `CFG.WRITE`, U32 (R449 17). -/
def cfgWrite : Nat := ob 0x1001 0x03
/-- `CFG.STATE`, U8 (R449 17). -/
def cfgState : Nat := ob 0x1001 0x04
/-- `CFG.FACTORY_SEQ`, U32 (R449 17). -/
def cfgFactorySeq : Nat := ob 0x1001 0x05
/-- `CFG.OWNER_SEQ`, U32 (R449 17). -/
def cfgOwnerSeq : Nat := ob 0x1001 0x06
/-- `CFG.OWNER_OK`, U8 (R449 17). -/
def cfgOwnerOk : Nat := ob 0x1001 0x07
/-- `BOOT.STAGE`, U8 (R449 17). -/
def bootStage : Nat := ob 0x1100 0x01
/-- `BOOT.COUNT`, U32 (R449 17). -/
def bootCount : Nat := ob 0x1100 0x02
/-- `BOOT.RECOVERY`, U8 (R449 17). -/
def bootRecovery : Nat := ob 0x1100 0x03
/-- `BOOT.READY_MS`, U32 (R449 17). -/
def bootReadyMs : Nat := ob 0x1100 0x04
/-- `BOOT.WARM`, U32 (R449 17). -/
def bootWarm : Nat := ob 0x1100 0x05
/-- `LOG.HEAD`, U64 (R449 17). -/
def logHead : Nat := ob 0x1200 0x01
/-- `LOG.SEL`, U64 (R449 17). -/
def logSel : Nat := ob 0x1200 0x02
/-- `LOG.READ`, BYTES[64] (R449 17). -/
def logRead : Nat := ob 0x1200 0x03
/-- `LOG.SUB_SEL`, U8 (R449 17). -/
def logSubSel : Nat := ob 0x1200 0x04
/-- `LOG.SUB`, BYTES[24] (R449 17). -/
def logSub : Nat := ob 0x1200 0x05
/-- `FW.STAGE_ADDR`, U64 (R449 17). -/
def fwStageAddr : Nat := ob 0x1300 0x01
/-- `FW.STAGE_LEN`, U32 (R449 17). -/
def fwStageLen : Nat := ob 0x1300 0x02
/-- `FW.VERIFY`, U8 (R449 17). -/
def fwVerify : Nat := ob 0x1300 0x03
/-- `FW.STATE`, U8 (R449 17). -/
def fwState : Nat := ob 0x1300 0x04
/-- `FW.COMMIT`, U8 (R449 17). -/
def fwCommit : Nat := ob 0x1300 0x05
/-- `MGT.INBAND_WRITE`, U8 (R449 17). -/
def mgtInbandWrite : Nat := ob 0x1400 0x01
/-- `MGT.BAD_FRAMES`, U32 (R449 17). -/
def mgtBadFrames : Nat := ob 0x1400 0x02
/-- `MGT.REQUESTS`, U64 (R449 17). -/
def mgtRequests : Nat := ob 0x1400 0x03
/-- `FLD.PLCA_EN`, U8 (R449 17). -/
def fldPlcaEn : Nat := ob 0x7390 0x01
/-- `FLD.PLCA_ID`, U8 (R449 17). -/
def fldPlcaId : Nat := ob 0x7390 0x02
/-- `FLD.STATE`, U8 (R449 17). -/
def fldState : Nat := ob 0x7390 0x03
/-- `SEC.ID_STATE`, U8 (R449 17). -/
def secIdState : Nat := ob 0x9000 0x01
/-- `SEC.CERT_SEL`, U16 (R449 17). -/
def secCertSel : Nat := ob 0x9000 0x02
/-- `SEC.CERT_LEN`, U32 (R449 17). -/
def secCertLen : Nat := ob 0x9000 0x03
/-- `SEC.CERT`, BYTES[512] (R449 17). -/
def secCert : Nat := ob 0x9000 0x04
/-- `SEC.OWNER_KEY`, BYTES[133] (R449 17). -/
def secOwnerKey : Nat := ob 0x9001 0x01
/-- `SEC.OWNER_RELEASE`, BYTES[16] (R449 17). -/
def secOwnerRelease : Nat := ob 0x9001 0x02
/-- `SEC.NONCE`, U64 (R449 17). -/
def secNonce : Nat := ob 0x9001 0x03
/-- `SEC.MIN_SVN`, U32 (R449 17). -/
def secMinSvn : Nat := ob 0x9001 0x04
/-- `SEC.SECURE_EPS`, U16 (R449 17). -/
def secSecureEps : Nat := ob 0x9001 0x05
/-- `SEC.AUTH_FAILS`, U32 (R449 17). -/
def secAuthFails : Nat := ob 0x9001 0x06
/-- `SEC.ATTEST_NONCE`, BYTES[64] (R449 17). -/
def secAttestNonce : Nat := ob 0x9002 0x01
/-- `SEC.ATTEST_STATE`, U8 (R449 17). -/
def secAttestState : Nat := ob 0x9002 0x02
/-- `SEC.ATTEST_LEN`, U32 (R449 17). -/
def secAttestLen : Nat := ob 0x9002 0x03
/-- `SEC.ATTEST_SEL`, U16 (R449 17). -/
def secAttestSel : Nat := ob 0x9002 0x04
/-- `SEC.ATTEST`, BYTES[512] (R449 17). -/
def secAttest : Nat := ob 0x9002 0x05
/-- `DBG.MODE`, U8 (R449 17). -/
def dbgMode : Nat := ob 0xF000 0x01
/-- `DBG.ENTER`, U8 (R449 17). -/
def dbgEnter : Nat := ob 0xF000 0x02
/-- `DBG.EXIT`, U8 (R449 17). -/
def dbgExit : Nat := ob 0xF000 0x03
/-- `DBG.ENTRIES`, U32 (R449 17). -/
def dbgEntries : Nat := ob 0xF000 0x04
/-- `MOD.STRAPS_LIVE`, U16 (R467 18). -/
def modStrapsLive : Nat := ob 0x2300 0x01
/-- `MOD.INLET_C`, I32 (R467 18). -/
def modInletC : Nat := ob 0x2301 0x01
/-- `MOD.OUTLET_C`, I32 (R467 18). -/
def modOutletC : Nat := ob 0x2301 0x02
/-- `MOD.FLOW`, U16 (R467 18). -/
def modFlow : Nat := ob 0x2301 0x03
/-- `MOD.LEAK`, U8 (R467 18). -/
def modLeak : Nat := ob 0x2301 0x04
/-- `MOD.COOL_LIMIT_C`, U8 (R467 18). -/
def modCoolLimitC : Nat := ob 0x2301 0x05
/-- `MOD.ALERT_SEV`, U8 (R467 18). -/
def modAlertSev : Nat := ob 0x2302 0x01
/-- `MOD.ALERT_STATE`, U8 (R467 18). -/
def modAlertState : Nat := ob 0x2302 0x02
/-- `MOD.ALERT_ACK`, U8 (R467 18). -/
def modAlertAck : Nat := ob 0x2302 0x03
/-- `MOD.ALERT_SEQ`, U64 (R467 18). -/
def modAlertSeq : Nat := ob 0x2302 0x04

end Obj

def objTab1_0 : List ObjDesc := [
  ⟨0x1000, 0x1000, 0x01, 16, .const, 0x4D2D363158542D58514C, 0, 340282366920938463463374607431768211455, 1, 0⟩,
  ⟨0x1000, 0x1000, 0x02, 16, .const, 0, 0, 340282366920938463463374607431768211455, 1, 0⟩,
  ⟨0x1000, 0x1000, 0x03, 4, .const, 1, 0, 4294967295, 1, 0⟩,
  ⟨0x1000, 0x1000, 0x04, 4, .ro, 0, 0, 4294967295, 1, 0⟩,
  ⟨0x1000, 0x1000, 0x05, 4, .ro, 0, 0, 4294967295, 1, 0⟩,
  ⟨0x1000, 0x1000, 0x06, 6, .const, 0, 0, 281474976710655, 1, 0⟩,
  ⟨0x1001, 0x1001, 0x01, 64, .const, 0x3FFFFFF3FFFFFFFFFFFFFFFFFFFFFFFFFFFFFFFFFFFFFFFFFFFFFFFFFFFFFFFFFFFFFFFFFFFFF, 0, 13407807929942597099574024998205846127479365820592393377723561443721764030073546976801874298166903427690031858186486050853753882811946569946433649006084095, 1, 0⟩,
  ⟨0x1001, 0x1001, 0x02, 8, .rw, 0, 0, 18446744073709551615, 1, 0⟩,
  ⟨0x1001, 0x1001, 0x03, 4, .wo, 0, 0, 4294967295, 1, 0⟩,
  ⟨0x1001, 0x1001, 0x04, 1, .ro, 0, 0, 255, 1, 0⟩,
  ⟨0x1001, 0x1001, 0x05, 4, .ro, 0, 0, 4294967295, 1, 0⟩,
  ⟨0x1001, 0x1001, 0x06, 4, .ro, 0, 0, 4294967295, 1, 0⟩,
  ⟨0x1001, 0x1001, 0x07, 1, .ro, 0, 0, 255, 1, 0⟩,
  ⟨0x1100, 0x1100, 0x01, 1, .ro, 1, 0, 255, 1, 0⟩,
  ⟨0x1100, 0x1100, 0x02, 4, .ro, 0, 0, 4294967295, 1, 0⟩,
  ⟨0x1100, 0x1100, 0x03, 1, .ro, 0, 0, 255, 1, 0⟩,
  ⟨0x1100, 0x1100, 0x04, 4, .ro, 0, 0, 4294967295, 1, 0⟩,
  ⟨0x1100, 0x1100, 0x05, 4, .ro, 0, 0, 4294967295, 1, 0⟩,
  ⟨0x1200, 0x1200, 0x01, 8, .ro, 0, 0, 18446744073709551615, 1, 0⟩,
  ⟨0x1200, 0x1200, 0x02, 8, .rw, 0, 0, 18446744073709551615, 1, 0⟩,
  ⟨0x1200, 0x1200, 0x03, 64, .ro, 0, 0, 13407807929942597099574024998205846127479365820592393377723561443721764030073546976801874298166903427690031858186486050853753882811946569946433649006084095, 1, 0⟩,
  ⟨0x1200, 0x1200, 0x04, 1, .rw, 0, 0, 3, 1, 0⟩,
  ⟨0x1200, 0x1200, 0x05, 24, .rw, 0, 0, 6277101735386680763835789423207666416102355444464034512895, 1, 0⟩,
  ⟨0x1300, 0x1300, 0x01, 8, .rw, 0, 0, 18446744073709551615, 1, 0⟩,
  ⟨0x1300, 0x1300, 0x02, 4, .rw, 0, 0, 33554432, 1, 0⟩,
  ⟨0x1300, 0x1300, 0x03, 1, .wo, 0, 0, 255, 1, 0⟩,
  ⟨0x1300, 0x1300, 0x04, 1, .ro, 0, 0, 255, 1, 0⟩,
  ⟨0x1300, 0x1300, 0x05, 1, .wo, 0, 0, 255, 1, 0⟩,
  ⟨0x1400, 0x1400, 0x01, 1, .rw, 1, 0, 1, 1, 0⟩,
  ⟨0x1400, 0x1400, 0x02, 4, .ro, 0, 0, 4294967295, 1, 0⟩]
def objTab1_1 : List ObjDesc := [
  ⟨0x1400, 0x1400, 0x03, 8, .ro, 0, 0, 18446744073709551615, 1, 0⟩]
def objTab2_0 : List ObjDesc := [
  ⟨0x2000, 0x2000, 0x01, 4, .ro, 0xD2F0, 0, 4294967295, 1, 0⟩,
  ⟨0x2000, 0x2000, 0x02, 4, .ro, 0, 0, 4294967295, 1, 0⟩,
  ⟨0x2000, 0x2000, 0x03, 1, .ro, 0, 0, 255, 1, 0⟩,
  ⟨0x2000, 0x2000, 0x04, 2, .rw, 0x320, 800, 2000, 25, 0⟩,
  ⟨0x2000, 0x2000, 0x05, 1, .rw, 0x32, 1, 100, 1, 0⟩,
  ⟨0x2000, 0x2000, 0x06, 4, .ro, 0, 0, 4294967295, 1, 0⟩,
  ⟨0x2000, 0x2000, 0x07, 1, .ro, 0, 0, 255, 1, 0⟩,
  ⟨0x2001, 0x2001, 0x01, 2, .rw, 0xED8, 1000, 3800, 1, 0⟩,
  ⟨0x2001, 0x2001, 0x02, 2, .ro, 0x7D0, 0, 65535, 1, 0⟩,
  ⟨0x2001, 0x2001, 0x03, 8, .ro, 0, 0, 18446744073709551615, 1, 0⟩,
  ⟨0x2001, 0x2001, 0x04, 1, .rw, 0x64, 85, 104, 1, 0⟩,
  ⟨0x2020, 0x2025, 0x01, 4, .ro, 0x61A8, 0, 4294967295, 1, 0⟩,
  ⟨0x2020, 0x2025, 0x02, 2, .ro, 0x7D0, 0, 65535, 1, 0⟩,
  ⟨0x2020, 0x2025, 0x03, 64, .ro, 0, 0, 13407807929942597099574024998205846127479365820592393377723561443721764030073546976801874298166903427690031858186486050853753882811946569946433649006084095, 1, 0⟩,
  ⟨0x2020, 0x2025, 0x04, 256, .ro, 0, 0, 32317006071311007300714876688669951960444102669715484032130345427524655138867890893197201411522913463688717960921898019494119559150490921095088152386448283120630877367300996091750197750389652106796057638384067568276792218642619756161838094338476170470581645852036305042887575891541065808607552399123930385521914333389668342420684974786564569494856176035326322058077805659331026192708460314150258592864177116725943603718461857357598351152301645904403697613233287231227125684710820209725157101726931323469678542580656697935045997268352998638215525166389437335543602135433229604645318478604952148193555853611059596230655, 1, 0⟩,
  ⟨0x2100, 0x2100, 0x01, 2, .rw, 0, 0, 65535, 1, 0⟩,
  ⟨0x2100, 0x2100, 0x02, 1, .rw, 0, 0, 255, 1, 0⟩,
  ⟨0x2100, 0x2100, 0x03, 1, .ro, 0, 0, 255, 1, 0⟩,
  ⟨0x2100, 0x2100, 0x04, 2, .rw, 0x7D0, 0, 65535, 1, 0⟩,
  ⟨0x2100, 0x2100, 0x05, 2, .rw, 0, 0, 65535, 1, 0⟩,
  ⟨0x2100, 0x2100, 0x06, 2, .ro, 0, 0, 65535, 1, 0⟩,
  ⟨0x2100, 0x2100, 0x07, 2, .ro, 0, 0, 65535, 1, 0⟩,
  ⟨0x2100, 0x2100, 0x08, 4, .ro, 0, 0, 4294967295, 1, 0⟩,
  ⟨0x2100, 0x2100, 0x09, 4, .ro, 0, 0, 4294967295, 1, 0⟩,
  ⟨0x2100, 0x2100, 0x0A, 1, .ro, 0, 0, 255, 1, 0⟩,
  ⟨0x2100, 0x2100, 0x0B, 2, .ro, 0x7D0, 0, 65535, 1, 0⟩,
  ⟨0x2200, 0x2200, 0x01, 1, .rw, 0x4C, 0, 255, 1, 0x80⟩,
  ⟨0x2200, 0x2200, 0x02, 1, .rw, 1, 0, 255, 1, 0xC0⟩,
  ⟨0x2200, 0x2200, 0x03, 1, .wo, 0, 0, 255, 1, 0⟩,
  ⟨0x2200, 0x2200, 0x04, 4, .ro, 0, 0, 4294967295, 1, 0⟩]
def objTab2_1 : List ObjDesc := [
  ⟨0x2300, 0x2300, 0x01, 2, .ro, 0x3FF, 0, 65535, 1, 0⟩,
  ⟨0x2301, 0x2301, 0x01, 4, .ro, 0x61A8, 0, 4294967295, 1, 0⟩,
  ⟨0x2301, 0x2301, 0x02, 4, .ro, 0x61A8, 0, 4294967295, 1, 0⟩,
  ⟨0x2301, 0x2301, 0x03, 2, .ro, 0xBB8, 0, 65535, 1, 0⟩,
  ⟨0x2301, 0x2301, 0x04, 1, .ro, 0, 0, 255, 1, 0⟩,
  ⟨0x2301, 0x2301, 0x05, 1, .rw, 0x2D, 30, 50, 1, 0⟩,
  ⟨0x2302, 0x2302, 0x01, 1, .rw, 1, 0, 3, 1, 0⟩,
  ⟨0x2302, 0x2302, 0x02, 1, .ro, 0, 0, 255, 1, 0⟩,
  ⟨0x2302, 0x2302, 0x03, 1, .wo, 0, 0, 255, 1, 0⟩,
  ⟨0x2302, 0x2302, 0x04, 8, .ro, 0, 0, 18446744073709551615, 1, 0⟩]
def objTab3_0 : List ObjDesc := [
  ⟨0x3000, 0x3000, 0x01, 2, .ro, 0, 0, 65535, 1, 0⟩,
  ⟨0x3000, 0x3000, 0x02, 4, .ro, 0, 0, 4294967295, 1, 0⟩,
  ⟨0x3000, 0x3000, 0x03, 4, .ro, 0, 0, 4294967295, 1, 0⟩,
  ⟨0x3000, 0x3000, 0x04, 4, .ro, 0, 0, 4294967295, 1, 0⟩,
  ⟨0x3100, 0x3100, 0x01, 16, .rws, 0, 0, 340282366920938463463374607431768211455, 1, 0⟩,
  ⟨0x3100, 0x3100, 0x02, 1, .ro, 0, 0, 255, 1, 0⟩,
  ⟨0x3400, 0x34FF, 0x01, 4, .ro, 0, 0, 4294967295, 1, 0⟩,
  ⟨0x3400, 0x34FF, 0x02, 4, .ro, 0, 0, 4294967295, 1, 0⟩,
  ⟨0x3400, 0x34FF, 0x03, 4, .ro, 0, 0, 4294967295, 1, 0⟩,
  ⟨0x3400, 0x34FF, 0x04, 4, .ro, 0, 0, 4294967295, 1, 0⟩,
  ⟨0x3400, 0x34FF, 0x05, 4, .ro, 0, 0, 4294967295, 1, 0⟩,
  ⟨0x3400, 0x34FF, 0x06, 4, .ro, 0, 0, 4294967295, 1, 0⟩,
  ⟨0x3500, 0x3500, 0x01, 4, .rw, 0, 0, 4294967295, 1, 0xFF00FE00⟩,
  ⟨0x3500, 0x3500, 0x02, 64, .ro, 0, 0, 13407807929942597099574024998205846127479365820592393377723561443721764030073546976801874298166903427690031858186486050853753882811946569946433649006084095, 1, 0⟩,
  ⟨0x3600, 0x3600, 0x01, 4, .rw, 0, 0, 4294967295, 1, 0xFF00FFC0⟩,
  ⟨0x3600, 0x3600, 0x02, 64, .ro, 0, 0, 13407807929942597099574024998205846127479365820592393377723561443721764030073546976801874298166903427690031858186486050853753882811946569946433649006084095, 1, 0⟩,
  ⟨0x3700, 0x37FF, 0x01, 4, .ro, 0, 0, 4294967295, 1, 0⟩,
  ⟨0x3700, 0x37FF, 0x02, 4, .ro, 0, 0, 4294967295, 1, 0⟩,
  ⟨0x3700, 0x37FF, 0x03, 4, .ro, 0, 0, 4294967295, 1, 0⟩,
  ⟨0x3700, 0x37FF, 0x04, 4, .ro, 0, 0, 4294967295, 1, 0⟩,
  ⟨0x3700, 0x37FF, 0x05, 4, .ro, 0, 0, 4294967295, 1, 0⟩,
  ⟨0x3700, 0x37FF, 0x06, 4, .ro, 0, 0, 4294967295, 1, 0⟩,
  ⟨0x3800, 0x38FF, 0x01, 4, .ro, 0, 0, 4294967295, 1, 0⟩,
  ⟨0x3800, 0x38FF, 0x02, 4, .ro, 0, 0, 4294967295, 1, 0⟩,
  ⟨0x3800, 0x38FF, 0x03, 4, .ro, 0, 0, 4294967295, 1, 0⟩,
  ⟨0x3800, 0x38FF, 0x04, 4, .ro, 0, 0, 4294967295, 1, 0⟩,
  ⟨0x3800, 0x38FF, 0x05, 4, .ro, 0, 0, 4294967295, 1, 0⟩,
  ⟨0x3800, 0x38FF, 0x06, 4, .ro, 0, 0, 4294967295, 1, 0⟩,
  ⟨0x3800, 0x38FF, 0x07, 4, .ro, 0, 0, 4294967295, 1, 0⟩,
  ⟨0x3800, 0x38FF, 0x08, 4, .ro, 0, 0, 4294967295, 1, 0⟩]
def objTab3_1 : List ObjDesc := [
  ⟨0x3800, 0x38FF, 0x09, 4, .ro, 0, 0, 4294967295, 1, 0⟩,
  ⟨0x3800, 0x38FF, 0x0A, 4, .ro, 0, 0, 4294967295, 1, 0⟩,
  ⟨0x3900, 0x39FF, 0x01, 4, .ro, 0, 0, 4294967295, 1, 0⟩,
  ⟨0x3900, 0x39FF, 0x02, 4, .ro, 0, 0, 4294967295, 1, 0⟩,
  ⟨0x3900, 0x39FF, 0x03, 4, .ro, 0, 0, 4294967295, 1, 0⟩,
  ⟨0x3900, 0x39FF, 0x04, 4, .ro, 0, 0, 4294967295, 1, 0⟩,
  ⟨0x3A00, 0x3A0F, 0x01, 4, .ro, 0, 0, 4294967295, 1, 0⟩,
  ⟨0x3C00, 0x3C00, 0x01, 8, .ro, 0xFFFF00000000, 0, 18446744073709551615, 1, 0⟩,
  ⟨0x3C00, 0x3C00, 0x02, 2, .rw, 0x202F, 0, 65535, 1, 0⟩,
  ⟨0x3C00, 0x3C00, 0x03, 1, .ro, 0, 0, 255, 1, 0⟩,
  ⟨0x3C00, 0x3C00, 0x04, 1, .ro, 0, 0, 255, 1, 0⟩,
  ⟨0x3C00, 0x3C00, 0x05, 8, .ro, 0, 0, 18446744073709551615, 1, 0⟩,
  ⟨0x3C00, 0x3C00, 0x06, 4, .ro, 0, 0, 4294967295, 1, 0⟩,
  ⟨0x3C00, 0x3C00, 0x07, 1, .rw, 4, 0, 255, 1, 0⟩,
  ⟨0x3C00, 0x3C00, 0x08, 1, .ro, 0, 0, 255, 1, 0⟩,
  ⟨0x3C00, 0x3C00, 0x09, 8, .wo, 0, 0, 18446744073709551615, 1, 0⟩,
  ⟨0x3C00, 0x3C00, 0x0A, 16, .rw, 0, 0, 340282366920938463463374607431768211455, 1, 0⟩,
  ⟨0x3C00, 0x3C00, 0x0B, 2, .rw, 0x40, 0, 65535, 1, 0⟩,
  ⟨0x3C00, 0x3C00, 0x0C, 2, .ro, 0, 0, 65535, 1, 0⟩,
  ⟨0x3C01, 0x3C01, 0x01, 4, .rw, 0, 0, 4294967295, 1, 0⟩,
  ⟨0x3C01, 0x3C01, 0x02, 4, .rw, 0, 0, 4294967295, 1, 0⟩,
  ⟨0x3C01, 0x3C01, 0x03, 4, .rw, 0, 0, 4294967295, 1, 0⟩,
  ⟨0x3C01, 0x3C01, 0x04, 4, .rw, 0, 0, 4294967295, 1, 0⟩,
  ⟨0x3C01, 0x3C01, 0x05, 4, .rw, 0, 0, 4294967295, 1, 0⟩,
  ⟨0x3C01, 0x3C01, 0x06, 4, .rw, 0, 0, 4294967295, 1, 0⟩,
  ⟨0x3C01, 0x3C01, 0x07, 4, .rw, 0, 0, 4294967295, 1, 0⟩,
  ⟨0x3C01, 0x3C01, 0x08, 4, .rw, 0, 0, 4294967295, 1, 0⟩,
  ⟨0x3C01, 0x3C01, 0x09, 4, .rw, 0, 0, 4294967295, 1, 0⟩,
  ⟨0x3C01, 0x3C01, 0x0A, 4, .rw, 0, 0, 4294967295, 1, 0⟩,
  ⟨0x3C01, 0x3C01, 0x0B, 4, .rw, 0, 0, 4294967295, 1, 0⟩]
def objTab3_2 : List ObjDesc := [
  ⟨0x3C01, 0x3C01, 0x0C, 4, .rw, 0, 0, 4294967295, 1, 0⟩,
  ⟨0x3C01, 0x3C01, 0x0D, 4, .rw, 0, 0, 4294967295, 1, 0⟩,
  ⟨0x3C01, 0x3C01, 0x0E, 4, .rw, 0, 0, 4294967295, 1, 0⟩,
  ⟨0x3C01, 0x3C01, 0x0F, 4, .rw, 0, 0, 4294967295, 1, 0⟩,
  ⟨0x3C01, 0x3C01, 0x10, 4, .rw, 0, 0, 4294967295, 1, 0⟩,
  ⟨0x3C02, 0x3C02, 0x01, 2, .rw, 0, 0, 65535, 1, 0⟩,
  ⟨0x3C02, 0x3C02, 0x02, 4, .ro, 0, 0, 4294967295, 1, 0⟩,
  ⟨0x3C02, 0x3C02, 0x03, 2, .ro, 0, 0, 65535, 1, 0⟩,
  ⟨0x3C02, 0x3C02, 0x04, 1, .ro, 0, 0, 255, 1, 0⟩,
  ⟨0x3C02, 0x3C02, 0x05, 4, .ro, 0, 0, 4294967295, 1, 0⟩,
  ⟨0x3C02, 0x3C02, 0x06, 4, .ro, 0, 0, 4294967295, 1, 0⟩,
  ⟨0x3C03, 0x3C03, 0x01, 512, .ro, 0, 0, 1044388881413152506691752710716624382579964249047383780384233483283953907971557456848826811934997558340890106714439262837987573438185793607263236087851365277945956976543709998340361590134383718314428070011855946226376318839397712745672334684344586617496807908705803704071284048740118609114467977783598029006686938976881787785946905630190260940599579453432823469303026696443059025015972399867714215541693835559885291486318237914434496734087811872639496475100189041349008417061675093668333850551032972088269550769983616369411933015213796825837188091833656751221318492846368125550225998300412344784862595674492194617023806505913245610825731835380087608622102834270197698202313169017678006675195485079921636419370285375124784014907159135459982790513399611551794271106831134090584272884279791554849782954323534517065223269061394905987693002122963395687782878948440616007412945674919823050571642377154816321380631045902916136926708342856440730447899971901781465763473223850267253059899795996090799469201774624817718449867455659250178329070473119433165550807568221846571746373296884912819520317457002440926616910874148385078411929804522981857338977648103126085903001302413467189726673216491511131602920781738033436090243804708340403154190335, 1, 0⟩,
  ⟨0x3D00, 0x3DFF, 0x01, 4, .ro, 0, 0, 4294967295, 1, 0⟩,
  ⟨0x3D00, 0x3DFF, 0x02, 4, .ro, 0, 0, 4294967295, 1, 0⟩,
  ⟨0x3D00, 0x3DFF, 0x03, 4, .ro, 0, 0, 4294967295, 1, 0⟩,
  ⟨0x3E00, 0x3E0F, 0x01, 4, .ro, 0, 0, 4294967295, 1, 0⟩,
  ⟨0x3E00, 0x3E0F, 0x02, 4, .ro, 0, 0, 4294967295, 1, 0⟩,
  ⟨0x3E00, 0x3E0F, 0x03, 4, .ro, 0, 0, 4294967295, 1, 0⟩,
  ⟨0x3E00, 0x3E0F, 0x04, 4, .ro, 0, 0, 4294967295, 1, 0⟩,
  ⟨0x3E00, 0x3E0F, 0x05, 4, .ro, 0, 0, 4294967295, 1, 0⟩,
  ⟨0x3E00, 0x3E0F, 0x06, 4, .ro, 0, 0, 4294967295, 1, 0⟩]
def objTab4_0 : List ObjDesc := [
  ⟨0x4000, 0x4000, 0x01, 8, .ro, 0, 0, 18446744073709551615, 1, 0⟩,
  ⟨0x4000, 0x4000, 0x02, 1, .ro, 0, 0, 255, 1, 0⟩,
  ⟨0x4000, 0x4000, 0x03, 4, .ro, 0, 0, 4294967295, 1, 0⟩,
  ⟨0x4000, 0x4000, 0x04, 4, .rw, 0xF4240, 0, 60000000, 1, 0⟩,
  ⟨0x4000, 0x4000, 0x05, 4, .rw, 0x186A0, 1000, 10000000, 1, 0⟩,
  ⟨0x4001, 0x4001, 0x01, 8, .ro, 0, 0, 18446744073709551615, 1, 0⟩,
  ⟨0x4001, 0x4001, 0x02, 4, .ro, 0, 0, 4294967295, 1, 0⟩,
  ⟨0x4001, 0x4001, 0x03, 4, .ro, 0, 0, 4294967295, 1, 0⟩,
  ⟨0x4100, 0x410F, 0x01, 1, .rw, 0, 0, 2, 1, 0⟩,
  ⟨0x4100, 0x410F, 0x02, 1, .ro, 0, 0, 255, 1, 0⟩,
  ⟨0x4100, 0x410F, 0x03, 1, .rws, 0, 0, 1, 1, 0⟩,
  ⟨0x4100, 0x410F, 0x04, 8, .ro, 0, 0, 18446744073709551615, 1, 0⟩,
  ⟨0x4100, 0x410F, 0x05, 4, .ro, 0xF800000, 0, 4294967295, 1, 0⟩,
  ⟨0x4100, 0x410F, 0x06, 8, .ro, 0, 0, 18446744073709551615, 1, 0⟩,
  ⟨0x4100, 0x410F, 0x07, 4, .ro, 0, 0, 4294967295, 1, 0⟩,
  ⟨0x4100, 0x410F, 0x08, 4, .ro, 0, 0, 4294967295, 1, 0⟩,
  ⟨0x4100, 0x410F, 0x09, 4, .ro, 0, 0, 4294967295, 1, 0⟩,
  ⟨0x4100, 0x410F, 0x0A, 1, .ro, 0xFF, 0, 255, 1, 0⟩,
  ⟨0x4100, 0x410F, 0x0B, 4, .ro, 0, 0, 4294967295, 1, 0⟩,
  ⟨0x4200, 0x4200, 0x01, 8, .wo, 0, 0, 18446744073709551615, 1, 0⟩,
  ⟨0x4200, 0x4200, 0x02, 1, .ro, 0, 0, 255, 1, 0⟩,
  ⟨0x4200, 0x4200, 0x03, 4, .ro, 0, 0, 4294967295, 1, 0⟩,
  ⟨0x4201, 0x4201, 0x01, 8, .ro, 0, 0, 18446744073709551615, 1, 0⟩,
  ⟨0x4201, 0x4201, 0x02, 8, .ro, 0, 0, 18446744073709551615, 1, 0⟩,
  ⟨0x4201, 0x4201, 0x03, 8, .ro, 0, 0, 18446744073709551615, 1, 0⟩,
  ⟨0x4201, 0x4201, 0x04, 8, .ro, 0, 0, 18446744073709551615, 1, 0⟩,
  ⟨0x4201, 0x4201, 0x05, 8, .ro, 0, 0, 18446744073709551615, 1, 0⟩,
  ⟨0x4201, 0x4201, 0x06, 8, .ro, 0, 0, 18446744073709551615, 1, 0⟩,
  ⟨0x4201, 0x4201, 0x07, 8, .ro, 0, 0, 18446744073709551615, 1, 0⟩,
  ⟨0x4201, 0x4201, 0x08, 8, .ro, 0, 0, 18446744073709551615, 1, 0⟩]
def objTab4_1 : List ObjDesc := [
  ⟨0x4201, 0x4201, 0x09, 8, .ro, 0, 0, 18446744073709551615, 1, 0⟩,
  ⟨0x4300, 0x430F, 0x01, 2, .ro, 0, 0, 65535, 1, 0⟩,
  ⟨0x4300, 0x430F, 0x02, 1, .ro, 0, 0, 255, 1, 0⟩,
  ⟨0x4300, 0x430F, 0x03, 8, .ro, 0, 0, 18446744073709551615, 1, 0⟩,
  ⟨0x4300, 0x430F, 0x04, 4, .ro, 0, 0, 4294967295, 1, 0⟩,
  ⟨0x4300, 0x430F, 0x05, 4, .ro, 0, 0, 4294967295, 1, 0⟩,
  ⟨0x4300, 0x430F, 0x06, 8, .ro, 0, 0, 18446744073709551615, 1, 0⟩,
  ⟨0x4400, 0x4400, 0x01, 8, .rws, 0, 0, 18446744073709551615, 64, 0⟩,
  ⟨0x4400, 0x4400, 0x02, 4, .rws, 0x400, 64, 65536, 0, 0⟩,
  ⟨0x4400, 0x4400, 0x03, 4, .rw, 0, 0, 4294967295, 1, 0⟩,
  ⟨0x4400, 0x4400, 0x04, 4, .ro, 0, 0, 4294967295, 1, 0⟩,
  ⟨0x4400, 0x4400, 0x05, 8, .rws, 0, 0, 18446744073709551615, 64, 0⟩,
  ⟨0x4400, 0x4400, 0x06, 4, .rws, 0x10000, 256, 16777216, 0, 0⟩,
  ⟨0x4400, 0x4400, 0x07, 4, .ro, 0, 0, 4294967295, 1, 0⟩,
  ⟨0x4400, 0x4400, 0x08, 4, .rw, 0, 0, 4294967295, 1, 0⟩,
  ⟨0x4400, 0x4400, 0x09, 8, .wo, 0, 0, 18446744073709551615, 1, 0⟩,
  ⟨0x4400, 0x4400, 0x0A, 4, .ro, 0, 0, 4294967295, 1, 0⟩,
  ⟨0x4400, 0x4400, 0x0B, 4, .ro, 0, 0, 4294967295, 1, 0⟩,
  ⟨0x4401, 0x4401, 0x01, 8, .ro, 0, 0, 18446744073709551615, 1, 0⟩,
  ⟨0x4401, 0x4401, 0x02, 8, .wo, 0, 0, 18446744073709551615, 1, 0⟩,
  ⟨0x4401, 0x4401, 0x03, 8, .ro, 0, 0, 18446744073709551615, 1, 0⟩,
  ⟨0x4401, 0x4401, 0x04, 1, .ro, 0, 0, 255, 1, 0⟩,
  ⟨0x4401, 0x4401, 0x05, 4, .ro, 0, 0, 4294967295, 1, 0⟩,
  ⟨0x4401, 0x4401, 0x06, 4, .ro, 0, 0, 4294967295, 1, 0⟩,
  ⟨0x4401, 0x4401, 0x07, 4, .ro, 0, 0, 4294967295, 1, 0⟩,
  ⟨0x4401, 0x4401, 0x08, 8, .ro, 0, 0, 18446744073709551615, 1, 0⟩,
  ⟨0x4401, 0x4401, 0x09, 8, .ro, 0, 0, 18446744073709551615, 1, 0⟩,
  ⟨0x4401, 0x4401, 0x0A, 8, .ro, 0, 0, 18446744073709551615, 1, 0⟩]
def objTab5_0 : List ObjDesc := [
  ⟨0x5000, 0x5000, 0x01, 4, .rw, 0, 0, 4294967295, 1, 0xFFFFC0⟩,
  ⟨0x5000, 0x5000, 0x02, 1, .ro, 0, 0, 255, 1, 0⟩,
  ⟨0x5000, 0x5000, 0x03, 8, .ro, 0, 0, 18446744073709551615, 1, 0⟩,
  ⟨0x5000, 0x5000, 0x04, 8, .ro, 0, 0, 18446744073709551615, 1, 0⟩,
  ⟨0x5000, 0x5000, 0x05, 1, .ro, 0, 0, 255, 1, 0⟩,
  ⟨0x5000, 0x5000, 0x06, 8, .ro, 0, 0, 18446744073709551615, 1, 0⟩,
  ⟨0x5000, 0x5000, 0x07, 1, .wo, 0, 0, 255, 1, 0⟩,
  ⟨0x5000, 0x5000, 0x08, 1, .ro, 0, 0, 255, 1, 0⟩,
  ⟨0x5001, 0x5001, 0x01, 4, .rw, 0, 0, 4294967295, 1, 0xFFFFF0⟩,
  ⟨0x5001, 0x5001, 0x02, 4, .ro, 0, 0, 4294967295, 1, 0⟩,
  ⟨0x5001, 0x5001, 0x03, 1, .wo, 0, 0, 255, 1, 0⟩,
  ⟨0x5001, 0x5001, 0x04, 1, .rws, 0, 0, 1, 1, 0⟩,
  ⟨0x5001, 0x5001, 0x05, 4, .wo, 0, 0, 4294967295, 1, 0⟩,
  ⟨0x5001, 0x5001, 0x06, 1, .wo, 0, 0, 255, 1, 0⟩,
  ⟨0x5001, 0x5001, 0x07, 4, .ro, 0, 0, 4294967295, 1, 0⟩,
  ⟨0x5100, 0x5103, 0x01, 4, .rw, 0x12E1F, 1, 78125, 1, 0⟩,
  ⟨0x5100, 0x5103, 0x02, 4, .rw, 0x12E1F, 0, 78125, 1, 0⟩,
  ⟨0x5100, 0x5103, 0x03, 4, .rw, 0x12E1F, 0, 78125, 1, 0⟩,
  ⟨0x5100, 0x5103, 0x04, 4, .rw, 0x4C4B, 0, 78125, 1, 0⟩,
  ⟨0x5100, 0x5103, 0x05, 4, .rw, 0xF42, 0, 78125, 1, 0⟩,
  ⟨0x5100, 0x5103, 0x06, 4, .rw, 0x7A12, 1, 62500, 1, 0⟩,
  ⟨0x5100, 0x5103, 0x07, 4, .rw, 0x1000, 64, 16384, 1, 0⟩,
  ⟨0x5100, 0x5103, 0x08, 1, .ro, 0x64, 0, 255, 1, 0⟩,
  ⟨0x5100, 0x5103, 0x09, 4, .ro, 0, 0, 4294967295, 1, 0⟩,
  ⟨0x5100, 0x5103, 0x0A, 8, .ro, 0, 0, 18446744073709551615, 1, 0⟩,
  ⟨0x5200, 0x52FF, 0x01, 4, .ro, 0, 0, 4294967295, 1, 0⟩,
  ⟨0x5200, 0x52FF, 0x02, 4, .ro, 0, 0, 4294967295, 1, 0⟩,
  ⟨0x5200, 0x52FF, 0x03, 4, .ro, 0, 0, 4294967295, 1, 0⟩,
  ⟨0x5200, 0x52FF, 0x04, 4, .ro, 0, 0, 4294967295, 1, 0⟩,
  ⟨0x5200, 0x52FF, 0x05, 4, .ro, 0, 0, 4294967295, 1, 0⟩]
def objTab5_1 : List ObjDesc := [
  ⟨0x5200, 0x52FF, 0x06, 4, .ro, 0, 0, 4294967295, 1, 0⟩,
  ⟨0x5200, 0x52FF, 0x07, 4, .ro, 0, 0, 4294967295, 1, 0⟩,
  ⟨0x5200, 0x52FF, 0x08, 4, .ro, 0, 0, 4294967295, 1, 0⟩]
def objTab6_0 : List ObjDesc := [
  ⟨0x6000, 0x6000, 0x01, 8, .ro, 0, 0, 18446744073709551615, 1, 0⟩,
  ⟨0x6000, 0x6000, 0x02, 8, .ro, 0, 0, 18446744073709551615, 1, 0⟩,
  ⟨0x6000, 0x6000, 0x03, 8, .ro, 0, 0, 18446744073709551615, 1, 0⟩,
  ⟨0x6000, 0x6000, 0x04, 8, .ro, 0, 0, 18446744073709551615, 1, 0⟩,
  ⟨0x6000, 0x6000, 0x05, 8, .rws, 0, 0, 1099511627775, 65536, 0⟩,
  ⟨0x6000, 0x6000, 0x06, 8, .rws, 0x400000000, 0, 1099511627776, 65536, 0⟩,
  ⟨0x6001, 0x6001, 0x01, 8, .ro, 0, 0, 18446744073709551615, 1, 0⟩,
  ⟨0x6001, 0x6001, 0x02, 8, .ro, 0, 0, 18446744073709551615, 1, 0⟩,
  ⟨0x6001, 0x6001, 0x03, 8, .ro, 0, 0, 18446744073709551615, 1, 0⟩,
  ⟨0x6001, 0x6001, 0x04, 8, .ro, 0, 0, 18446744073709551615, 1, 0⟩,
  ⟨0x6001, 0x6001, 0x05, 8, .ro, 0, 0, 18446744073709551615, 1, 0⟩,
  ⟨0x6001, 0x6001, 0x06, 8, .ro, 0, 0, 18446744073709551615, 1, 0⟩,
  ⟨0x6001, 0x6001, 0x07, 8, .ro, 0, 0, 18446744073709551615, 1, 0⟩,
  ⟨0x6001, 0x6001, 0x08, 8, .ro, 0, 0, 18446744073709551615, 1, 0⟩,
  ⟨0x6001, 0x6001, 0x09, 2, .rw, 0x18, 1, 168, 1, 0⟩,
  ⟨0x6002, 0x6002, 0x01, 2, .rw, 0, 0, 65535, 1, 0xFC80⟩,
  ⟨0x6002, 0x6002, 0x02, 4, .ro, 0, 0, 4294967295, 1, 0⟩,
  ⟨0x6002, 0x6002, 0x03, 4, .ro, 0, 0, 4294967295, 1, 0⟩,
  ⟨0x6002, 0x6002, 0x04, 4, .rw, 0x3E8, 0, 4294967295, 1, 0⟩,
  ⟨0x6002, 0x6002, 0x05, 4, .ro, 0, 0, 4294967295, 1, 0⟩,
  ⟨0x6003, 0x6003, 0x01, 2, .wo, 0, 0, 65535, 1, 0⟩,
  ⟨0x6003, 0x6003, 0x02, 16, .ro, 0, 0, 340282366920938463463374607431768211455, 1, 0⟩,
  ⟨0x6003, 0x6003, 0x03, 16, .ro, 0, 0, 340282366920938463463374607431768211455, 1, 0⟩,
  ⟨0x6003, 0x6003, 0x04, 16, .ro, 0, 0, 340282366920938463463374607431768211455, 1, 0⟩,
  ⟨0x6003, 0x6003, 0x05, 16, .ro, 0, 0, 340282366920938463463374607431768211455, 1, 0⟩,
  ⟨0x6003, 0x6003, 0x06, 1, .ro, 0, 0, 255, 1, 0⟩,
  ⟨0x6003, 0x6003, 0x07, 8, .rws, 0, 0, 281474976710655, 65536, 0⟩,
  ⟨0x6003, 0x6003, 0x08, 1, .rw, 1, 0, 1, 1, 0⟩,
  ⟨0x6100, 0x6100, 0x01, 8, .rws, 0, 0, 1099511627775, 2097152, 0⟩,
  ⟨0x6100, 0x6100, 0x02, 8, .wo, 0, 0, 18446744073709551615, 1, 0⟩]
def objTab6_1 : List ObjDesc := [
  ⟨0x6100, 0x6100, 0x03, 1, .ro, 0, 0, 255, 1, 0⟩,
  ⟨0x6100, 0x6100, 0x04, 8, .rws, 0, 0, 1099511627775, 4096, 0⟩,
  ⟨0x6100, 0x6100, 0x05, 4, .rws, 0x1000, 64, 65536, 0, 0⟩,
  ⟨0x6100, 0x6100, 0x06, 4, .ro, 0, 0, 4294967295, 1, 0⟩,
  ⟨0x6100, 0x6100, 0x07, 4, .rw, 0, 0, 4294967295, 1, 0⟩,
  ⟨0x6100, 0x6100, 0x08, 4, .ro, 0, 0, 4294967295, 1, 0⟩,
  ⟨0x6100, 0x6100, 0x09, 4, .ro, 0, 0, 4294967295, 1, 0⟩,
  ⟨0x6100, 0x6100, 0x0A, 8, .ro, 0, 0, 18446744073709551615, 1, 0⟩,
  ⟨0x6110, 0x6113, 0x01, 8, .ro, 0, 0, 18446744073709551615, 1, 0⟩,
  ⟨0x6200, 0x6200, 0x01, 8, .rw, 0, 0, 281474976710655, 65536, 0⟩,
  ⟨0x6200, 0x6200, 0x02, 8, .rw, 0, 0, 281474976710655, 65536, 0⟩,
  ⟨0x6200, 0x6200, 0x03, 4, .rw, 0x10000, 65536, 1073741824, 65536, 0⟩,
  ⟨0x6200, 0x6200, 0x04, 1, .wo, 0, 0, 255, 1, 0⟩,
  ⟨0x6200, 0x6200, 0x05, 1, .ro, 0, 0, 255, 1, 0⟩,
  ⟨0x6300, 0x6300, 0x01, 8, .rws, 0xFF0000000000, 0, 281474976710655, 1099511627776, 0⟩,
  ⟨0x6310, 0x631F, 0x01, 8, .rws, 0, 0, 281474976710655, 65536, 0⟩,
  ⟨0x6310, 0x631F, 0x02, 8, .rws, 0, 0, 2199023255552, 65536, 0⟩,
  ⟨0x6310, 0x631F, 0x03, 8, .rws, 0, 0, 281474976710655, 65536, 0⟩,
  ⟨0x6310, 0x631F, 0x04, 8, .rws, 0, 0, 2199023255552, 65536, 0⟩,
  ⟨0x6310, 0x631F, 0x05, 8, .rws, 0, 0, 281474976710655, 65536, 0⟩,
  ⟨0x6310, 0x631F, 0x06, 8, .rws, 0, 0, 2199023255552, 65536, 0⟩,
  ⟨0x6310, 0x631F, 0x07, 24, .ro, 0, 0, 6277101735386680763835789423207666416102355444464034512895, 1, 0⟩,
  ⟨0x6310, 0x631F, 0x08, 4, .ro, 0, 0, 4294967295, 1, 0⟩,
  ⟨0x6310, 0x631F, 0x09, 4, .ro, 0, 0, 4294967295, 1, 0⟩,
  ⟨0x6310, 0x631F, 0x0A, 8, .ro, 0, 0, 18446744073709551615, 1, 0⟩,
  ⟨0x6310, 0x631F, 0x0B, 8, .ro, 0, 0, 18446744073709551615, 1, 0⟩,
  ⟨0x6310, 0x631F, 0x0C, 4, .ro, 0, 0, 4294967295, 1, 0⟩,
  ⟨0x6310, 0x631F, 0x0D, 4, .ro, 0, 0, 4294967295, 1, 0⟩]
def objTab7_0 : List ObjDesc := [
  ⟨0x7000, 0x7000, 0x01, 2, .ro, 0, 0, 65535, 1, 0⟩,
  ⟨0x7000, 0x7000, 0x02, 2, .ro, 0xFFFF, 0, 65535, 1, 0⟩,
  ⟨0x7000, 0x7000, 0x03, 1, .rw, 0, 0, 255, 1, 0⟩,
  ⟨0x7000, 0x7000, 0x04, 1, .ro, 0, 0, 255, 1, 0⟩,
  ⟨0x7000, 0x7000, 0x05, 4, .ro, 0, 0, 4294967295, 1, 0⟩,
  ⟨0x7000, 0x7000, 0x06, 4, .ro, 0, 0, 4294967295, 1, 0⟩,
  ⟨0x7000, 0x7000, 0x07, 4, .ro, 0, 0, 4294967295, 1, 0⟩,
  ⟨0x7000, 0x7000, 0x08, 4, .ro, 0, 0, 4294967295, 1, 0⟩,
  ⟨0x7100, 0x7105, 0x01, 1, .ro, 0, 0, 255, 1, 0⟩,
  ⟨0x7100, 0x7105, 0x02, 1, .ro, 0, 0, 255, 1, 0⟩,
  ⟨0x7100, 0x7105, 0x03, 4, .ro, 0, 0, 4294967295, 1, 0⟩,
  ⟨0x7100, 0x7105, 0x04, 2, .ro, 0xFFFF, 0, 65535, 1, 0⟩,
  ⟨0x7100, 0x7105, 0x05, 1, .ro, 0, 0, 255, 1, 0⟩,
  ⟨0x7100, 0x7105, 0x06, 8, .ro, 0, 0, 18446744073709551615, 1, 0⟩,
  ⟨0x7100, 0x7105, 0x07, 8, .ro, 0, 0, 18446744073709551615, 1, 0⟩,
  ⟨0x7100, 0x7105, 0x08, 8, .ro, 0, 0, 18446744073709551615, 1, 0⟩,
  ⟨0x7100, 0x7105, 0x09, 8, .ro, 0, 0, 18446744073709551615, 1, 0⟩,
  ⟨0x7100, 0x7105, 0x0A, 4, .ro, 0, 0, 4294967295, 1, 0⟩,
  ⟨0x7100, 0x7105, 0x0B, 4, .rw, 0xF4240, 0, 4294967295, 1, 0⟩,
  ⟨0x7100, 0x7105, 0x0C, 1, .wo, 0, 0, 255, 1, 0⟩,
  ⟨0x7200, 0x7207, 0x01, 1, .ro, 0, 0, 255, 1, 0⟩,
  ⟨0x7200, 0x7207, 0x02, 1, .rw, 1, 0, 1, 1, 0⟩,
  ⟨0x7200, 0x7207, 0x03, 1, .rws, 0, 0, 2, 1, 0⟩,
  ⟨0x7200, 0x7207, 0x04, 8, .ro, 0, 0, 18446744073709551615, 1, 0⟩,
  ⟨0x7200, 0x7207, 0x05, 8, .ro, 0, 0, 18446744073709551615, 1, 0⟩,
  ⟨0x7200, 0x7207, 0x06, 8, .ro, 0, 0, 18446744073709551615, 1, 0⟩,
  ⟨0x7200, 0x7207, 0x07, 8, .ro, 0, 0, 18446744073709551615, 1, 0⟩,
  ⟨0x7200, 0x7207, 0x08, 8, .ro, 0, 0, 18446744073709551615, 1, 0⟩,
  ⟨0x7200, 0x7207, 0x09, 2, .ro, 0, 0, 65535, 1, 0⟩,
  ⟨0x7200, 0x7207, 0x0A, 4, .ro, 0, 0, 4294967295, 1, 0⟩]
def objTab7_1 : List ObjDesc := [
  ⟨0x7300, 0x7301, 0x01, 6, .rws, 0, 0, 281474976710655, 1, 0⟩,
  ⟨0x7300, 0x7301, 0x02, 4, .rws, 0, 0, 4294967295, 1, 0⟩,
  ⟨0x7300, 0x7301, 0x03, 16, .rws, 0, 0, 340282366920938463463374607431768211455, 1, 0⟩,
  ⟨0x7300, 0x7301, 0x04, 2, .rws, 0, 0, 65535, 1, 0x1000⟩,
  ⟨0x7300, 0x7301, 0x05, 1, .rws, 3, 0, 7, 1, 0⟩,
  ⟨0x7300, 0x7301, 0x06, 2, .rws, 0x2400, 1500, 9216, 1, 0⟩,
  ⟨0x7300, 0x7301, 0x07, 1, .ro, 0, 0, 255, 1, 0⟩,
  ⟨0x7300, 0x7301, 0x08, 1, .rws, 1, 0, 1, 1, 0⟩,
  ⟨0x7310, 0x7310, 0x01, 2, .rws, 0x6022, 0, 65535, 1, 0⟩,
  ⟨0x7380, 0x7380, 0x01, 1, .rw, 1, 0, 1, 1, 0⟩,
  ⟨0x7380, 0x7380, 0x02, 1, .rw, 0, 0, 127, 1, 0⟩,
  ⟨0x7380, 0x7380, 0x03, 1, .rw, 0, 0, 1, 1, 0⟩,
  ⟨0x7380, 0x7380, 0x04, 8, .ro, 0, 0, 18446744073709551615, 1, 0⟩,
  ⟨0x7380, 0x7380, 0x05, 1, .ro, 0xFF, 0, 255, 1, 0⟩,
  ⟨0x7390, 0x7390, 0x01, 1, .rw, 1, 0, 1, 1, 0⟩,
  ⟨0x7390, 0x7390, 0x02, 1, .rw, 0x40, 0, 254, 1, 0⟩,
  ⟨0x7390, 0x7390, 0x03, 1, .ro, 0, 0, 255, 1, 0⟩,
  ⟨0x7400, 0x7400, 0x01, 2, .const, 0x400, 0, 65535, 1, 0⟩,
  ⟨0x7400, 0x7400, 0x02, 1, .rw, 0xE, 8, 20, 1, 0⟩,
  ⟨0x7400, 0x7400, 0x03, 1, .rw, 7, 0, 7, 1, 0⟩,
  ⟨0x7400, 0x7400, 0x04, 1, .rw, 1, 0, 1, 1, 0⟩,
  ⟨0x7400, 0x7400, 0x05, 4, .ro, 0, 0, 4294967295, 1, 0⟩,
  ⟨0x7400, 0x7400, 0x06, 4, .ro, 0, 0, 4294967295, 1, 0⟩,
  ⟨0x7410, 0x7410, 0x01, 2, .rw, 0, 0, 255, 1, 0⟩,
  ⟨0x7410, 0x7410, 0x02, 32, .rw, 0, 0, 115792089237316195423570985008687907853269984665640564039457584007913129639935, 1, 0⟩,
  ⟨0x7420, 0x7420, 0x01, 2, .rw, 0, 0, 2047, 1, 0⟩,
  ⟨0x7420, 0x7420, 0x02, 64, .rw, 0, 0, 13407807929942597099574024998205846127479365820592393377723561443721764030073546976801874298166903427690031858186486050853753882811946569946433649006084095, 1, 0⟩]
def objTab8_0 : List ObjDesc := [
  ⟨0x8000, 0x8000, 0x01, 8, .ro, 0, 0, 18446744073709551615, 1, 0⟩,
  ⟨0x8000, 0x8000, 0x02, 1, .ro, 0xF, 0, 255, 1, 0⟩,
  ⟨0x8000, 0x8000, 0x03, 1, .ro, 0x3F, 0, 255, 1, 0⟩,
  ⟨0x8000, 0x8000, 0x04, 2, .wo, 0, 0, 65535, 1, 0⟩,
  ⟨0x8000, 0x8000, 0x05, 2, .rw, 0, 0, 255, 1, 0⟩,
  ⟨0x8000, 0x8000, 0x06, 1, .wo, 0, 0, 255, 1, 0⟩,
  ⟨0x8000, 0x8000, 0x07, 1, .ro, 0, 0, 255, 1, 0⟩,
  ⟨0x8000, 0x8000, 0x08, 1, .wo, 0, 0, 255, 1, 0⟩,
  ⟨0x8000, 0x8000, 0x09, 32, .ro, 0, 0, 115792089237316195423570985008687907853269984665640564039457584007913129639935, 1, 0⟩,
  ⟨0x8000, 0x8000, 0x0A, 4, .rw, 0x2710, 1000, 1000000, 1, 0⟩,
  ⟨0x8000, 0x8000, 0x0B, 1, .wo, 0, 0, 255, 1, 0⟩,
  ⟨0x8000, 0x8000, 0x0C, 4, .rw, 0x2A30, 60, 10000000, 1, 0⟩,
  ⟨0x8000, 0x8000, 0x0D, 4, .ro, 0x2A30, 0, 4294967295, 1, 0⟩,
  ⟨0x8000, 0x8000, 0x0E, 1, .wo, 0, 0, 255, 1, 0⟩,
  ⟨0x8100, 0x8100, 0x01, 1, .rw, 0, 0, 2, 1, 0⟩,
  ⟨0x8100, 0x8100, 0x02, 4, .rw, 0x258, 10, 3600, 1, 0⟩,
  ⟨0x8100, 0x8100, 0x03, 1, .wo, 0, 0, 255, 1, 0⟩,
  ⟨0x8100, 0x8100, 0x04, 4, .ro, 0, 0, 4294967295, 1, 0⟩,
  ⟨0x8100, 0x8100, 0x05, 8, .ro, 0, 0, 18446744073709551615, 1, 0⟩,
  ⟨0x8100, 0x8100, 0x06, 8, .ro, 0, 0, 18446744073709551615, 1, 0⟩,
  ⟨0x8100, 0x8100, 0x07, 1, .ro, 0, 0, 255, 1, 0⟩,
  ⟨0x8100, 0x8100, 0x08, 4, .ro, 0, 0, 4294967295, 1, 0⟩,
  ⟨0x8100, 0x8100, 0x09, 8, .ro, 0, 0, 18446744073709551615, 1, 0⟩,
  ⟨0x8100, 0x8100, 0x0A, 1, .ro, 0, 0, 255, 1, 0⟩,
  ⟨0x8100, 0x8100, 0x0B, 4, .rw, 0x258, 10, 86400, 1, 0⟩,
  ⟨0x8100, 0x8100, 0x0C, 1, .ro, 0, 0, 255, 1, 0⟩,
  ⟨0x8101, 0x8101, 0x01, 8, .rws, 0, 0, 281474976710655, 65536, 0⟩,
  ⟨0x8101, 0x8101, 0x02, 8, .rws, 0, 0, 18446744073709551615, 1, 0⟩,
  ⟨0x8101, 0x8101, 0x03, 8, .rws, 0, 0, 18446744073709551615, 1, 0⟩,
  ⟨0x8101, 0x8101, 0x04, 8, .rws, 0, 0, 18446744073709551615, 65536, 0⟩]
def objTab8_1 : List ObjDesc := [
  ⟨0x8101, 0x8101, 0x05, 8, .rws, 0, 0, 18446744073709551615, 1, 0⟩,
  ⟨0x8102, 0x8102, 0x01, 2, .rws, 0xFFFF, 0, 65535, 1, 0⟩,
  ⟨0x8102, 0x8102, 0x02, 8, .rws, 0, 0, 18446744073709551615, 1, 0⟩,
  ⟨0x8102, 0x8102, 0x03, 4, .rws, 0, 0, 4294967295, 1, 0⟩,
  ⟨0x8102, 0x8102, 0x04, 8, .rws, 0xFFFFFFFFFFFFFFFF, 0, 18446744073709551615, 1, 0⟩,
  ⟨0x8102, 0x8102, 0x05, 8, .rws, 0, 0, 18446744073709551615, 1, 0⟩,
  ⟨0x8102, 0x8102, 0x06, 4, .rws, 0, 0, 4294967295, 1, 0⟩,
  ⟨0x8102, 0x8102, 0x07, 1, .wo, 0, 0, 255, 1, 0⟩,
  ⟨0x8102, 0x8102, 0x08, 2, .rw, 0xFFFF, 0, 65535, 1, 0⟩,
  ⟨0x8102, 0x8102, 0x09, 8, .rw, 0, 0, 18446744073709551615, 1, 0⟩,
  ⟨0x8102, 0x8102, 0x0A, 4, .rw, 0, 0, 4294967295, 1, 0⟩,
  ⟨0x8103, 0x8103, 0x01, 1, .rw, 0, 0, 255, 1, 0⟩,
  ⟨0x8103, 0x8103, 0x02, 32, .rws, 0, 0, 115792089237316195423570985008687907853269984665640564039457584007913129639935, 1, 0⟩,
  ⟨0x8104, 0x8104, 0x01, 1, .wo, 0, 0, 255, 1, 0⟩,
  ⟨0x8104, 0x8104, 0x02, 1, .ro, 0, 0, 255, 1, 0⟩,
  ⟨0x8104, 0x8104, 0x03, 1, .ro, 0, 0, 255, 1, 0⟩,
  ⟨0x8200, 0x8200, 0x01, 4, .rw, 0, 0, 4294967295, 1, 0⟩,
  ⟨0x8200, 0x8200, 0x02, 64, .ro, 0, 0, 13407807929942597099574024998205846127479365820592393377723561443721764030073546976801874298166903427690031858186486050853753882811946569946433649006084095, 1, 0⟩]
def objTab9_0 : List ObjDesc := [
  ⟨0x9000, 0x9000, 0x01, 1, .ro, 0, 0, 255, 1, 0⟩,
  ⟨0x9000, 0x9000, 0x02, 2, .rw, 0, 0, 65535, 1, 0⟩,
  ⟨0x9000, 0x9000, 0x03, 4, .ro, 0, 0, 4294967295, 1, 0⟩,
  ⟨0x9000, 0x9000, 0x04, 512, .ro, 0, 0, 1044388881413152506691752710716624382579964249047383780384233483283953907971557456848826811934997558340890106714439262837987573438185793607263236087851365277945956976543709998340361590134383718314428070011855946226376318839397712745672334684344586617496807908705803704071284048740118609114467977783598029006686938976881787785946905630190260940599579453432823469303026696443059025015972399867714215541693835559885291486318237914434496734087811872639496475100189041349008417061675093668333850551032972088269550769983616369411933015213796825837188091833656751221318492846368125550225998300412344784862595674492194617023806505913245610825731835380087608622102834270197698202313169017678006675195485079921636419370285375124784014907159135459982790513399611551794271106831134090584272884279791554849782954323534517065223269061394905987693002122963395687782878948440616007412945674919823050571642377154816321380631045902916136926708342856440730447899971901781465763473223850267253059899795996090799469201774624817718449867455659250178329070473119433165550807568221846571746373296884912819520317457002440926616910874148385078411929804522981857338977648103126085903001302413467189726673216491511131602920781738033436090243804708340403154190335, 1, 0⟩,
  ⟨0x9001, 0x9001, 0x01, 133, .rw, 0, 0, 197658450495420525734858737030192682665582665785295037457911482448662440984370455949180062208434691889831130726871886632216610095103313942252942773379627451095231859645084337269987214591887906583241960623508540106017585433031926463494241558251132379239072320812850360890950600210186037629088210457662115491511433340911615, 1, 0⟩,
  ⟨0x9001, 0x9001, 0x02, 16, .wo, 0, 0, 340282366920938463463374607431768211455, 1, 0⟩,
  ⟨0x9001, 0x9001, 0x03, 8, .ro, 0, 0, 18446744073709551615, 1, 0⟩,
  ⟨0x9001, 0x9001, 0x04, 4, .rw, 0, 0, 4294967295, 1, 0⟩,
  ⟨0x9001, 0x9001, 0x05, 2, .rw, 0, 0, 65535, 1, 0⟩,
  ⟨0x9001, 0x9001, 0x06, 4, .ro, 0, 0, 4294967295, 1, 0⟩,
  ⟨0x9002, 0x9002, 0x01, 64, .wo, 0, 0, 13407807929942597099574024998205846127479365820592393377723561443721764030073546976801874298166903427690031858186486050853753882811946569946433649006084095, 1, 0⟩,
  ⟨0x9002, 0x9002, 0x02, 1, .ro, 0, 0, 255, 1, 0⟩,
  ⟨0x9002, 0x9002, 0x03, 4, .ro, 0, 0, 4294967295, 1, 0⟩,
  ⟨0x9002, 0x9002, 0x04, 2, .rw, 0, 0, 65535, 1, 0⟩,
  ⟨0x9002, 0x9002, 0x05, 512, .ro, 0, 0, 1044388881413152506691752710716624382579964249047383780384233483283953907971557456848826811934997558340890106714439262837987573438185793607263236087851365277945956976543709998340361590134383718314428070011855946226376318839397712745672334684344586617496807908705803704071284048740118609114467977783598029006686938976881787785946905630190260940599579453432823469303026696443059025015972399867714215541693835559885291486318237914434496734087811872639496475100189041349008417061675093668333850551032972088269550769983616369411933015213796825837188091833656751221318492846368125550225998300412344784862595674492194617023806505913245610825731835380087608622102834270197698202313169017678006675195485079921636419370285375124784014907159135459982790513399611551794271106831134090584272884279791554849782954323534517065223269061394905987693002122963395687782878948440616007412945674919823050571642377154816321380631045902916136926708342856440730447899971901781465763473223850267253059899795996090799469201774624817718449867455659250178329070473119433165550807568221846571746373296884912819520317457002440926616910874148385078411929804522981857338977648103126085903001302413467189726673216491511131602920781738033436090243804708340403154190335, 1, 0⟩]
def objTabA_0 : List ObjDesc := [
  ⟨0xA000, 0xA000, 0x01, 8, .rws, 0xFE0000000000, 0, 18446744073709551615, 65536, 0⟩,
  ⟨0xA000, 0xA000, 0x02, 4, .rws, 0, 0, 4294967295, 1, 0⟩,
  ⟨0xA000, 0xA000, 0x03, 2, .rw, 0, 0, 65535, 1, 0⟩,
  ⟨0xA000, 0xA000, 0x04, 1, .rw, 0, 0, 31, 1, 0⟩,
  ⟨0xA000, 0xA000, 0x05, 4, .ro, 0, 0, 4294967295, 1, 0⟩,
  ⟨0xA000, 0xA000, 0x06, 4, .ro, 0, 0, 4294967295, 1, 0⟩,
  ⟨0xA000, 0xA000, 0x07, 4, .ro, 0, 0, 4294967295, 1, 0⟩,
  ⟨0xA100, 0xA10F, 0x01, 2, .rw, 0xFFFF, 0, 65535, 1, 0⟩,
  ⟨0xA100, 0xA10F, 0x02, 1, .ro, 0, 0, 255, 1, 0⟩,
  ⟨0xA100, 0xA10F, 0x03, 8, .rws, 0, 0, 18446744073709551615, 1, 0⟩,
  ⟨0xA100, 0xA10F, 0x04, 4, .rws, 0, 0, 4294967295, 1, 0⟩,
  ⟨0xA200, 0xA200, 0x01, 4, .ro, 0, 0, 4294967295, 1, 0⟩,
  ⟨0xA200, 0xA200, 0x02, 4, .rw, 0, 0, 4294967295, 1, 0⟩,
  ⟨0xA300, 0xA30F, 0x01, 4, .ro, 0, 0, 4294967295, 1, 0⟩,
  ⟨0xA300, 0xA30F, 0x02, 4, .rw, 0, 0, 4294967295, 1, 0⟩,
  ⟨0xA300, 0xA30F, 0x03, 2, .ro, 0, 0, 65535, 1, 0⟩]
def objTabF_0 : List ObjDesc := [
  ⟨0xF000, 0xF000, 0x01, 1, .ro, 0, 0, 255, 1, 0⟩,
  ⟨0xF000, 0xF000, 0x02, 1, .wo, 0, 0, 255, 1, 0⟩,
  ⟨0xF000, 0xF000, 0x03, 1, .wo, 0, 0, 255, 1, 0⟩,
  ⟨0xF000, 0xF000, 0x04, 4, .ro, 0, 0, 4294967295, 1, 0⟩,
  ⟨0xF200, 0xF200, 0x01, 4, .rw, 0, 0, 4294967295, 1, 0xFE0007⟩,
  ⟨0xF200, 0xF200, 0x02, 64, .ro, 0, 0, 13407807929942597099574024998205846127479365820592393377723561443721764030073546976801874298166903427690031858186486050853753882811946569946433649006084095, 1, 0⟩,
  ⟨0xF200, 0xF200, 0x03, 4, .ro, 0, 0, 4294967295, 1, 0⟩,
  ⟨0xF200, 0xF200, 0x04, 4, .rw, 0, 0, 4294967295, 1, 0⟩,
  ⟨0xF200, 0xF200, 0x05, 64, .ro, 0, 0, 13407807929942597099574024998205846127479365820592393377723561443721764030073546976801874298166903427690031858186486050853753882811946569946433649006084095, 1, 0⟩,
  ⟨0xF200, 0xF200, 0x06, 4, .ro, 0, 0, 4294967295, 1, 0⟩]
/-- The descriptions of the objects of an area (the top four bits of the index). -/
def objArea : Nat → List ObjDesc
  | 0x1 => objTab1_0 ++ objTab1_1
  | 0x2 => objTab2_0 ++ objTab2_1
  | 0x3 => objTab3_0 ++ objTab3_1 ++ objTab3_2
  | 0x4 => objTab4_0 ++ objTab4_1
  | 0x5 => objTab5_0 ++ objTab5_1
  | 0x6 => objTab6_0 ++ objTab6_1
  | 0x7 => objTab7_0 ++ objTab7_1
  | 0x8 => objTab8_0 ++ objTab8_1
  | 0x9 => objTab9_0
  | 0xA => objTabA_0
  | 0xF => objTabF_0
  | _ => []

/-- The description of an object, or none for an absent one (R423, R426). -/
def objDesc (key : Nat) : Option ObjDesc :=
  (objArea (key >>> 20)).find? fun d => d.lo ≤ key / 256 && key / 256 ≤ d.hi && d.sub == key % 256

/-- The size in bytes of an object; absent objects have none. -/
def objSize (key : Nat) : Nat := ((objDesc key).map (·.size)).getD 0
/-- The value an object holds after reset (R7); the log names the values its table does not give. -/
def objDefault (key : Nat) : Nat := ((objDesc key).map (·.dflt)).getD 0
/-- The highest subindex of an index, 0 when it is absent (R423). -/
def objTopSub (index : Nat) : Nat :=
  (objArea (index >>> 12)).foldl (fun m d => if d.lo ≤ index && index ≤ d.hi then max m d.sub else m) 0

end Sys2Proof.Machine
end

