-- ==== Sys2Proof/Machine/SMap.lean ====
section
/-! DEFINITION. Sparse maps: plain data keyed by numbers, in one canonical form (keys strictly rising, no entry equal to
the default of its key). Every family of units, registers and words of the machine is held in one. -/

namespace Sys2Proof.Machine

/-- A finite map from numbers; a key that is not listed holds the default. -/
abbrev SMap (α : Type) := List (Nat × α)

/-- The value at a key; `d` gives the default of each key. -/
def smGet {α : Type} (d : Nat → α) : SMap α → Nat → α
  | [], k => d k
  | (j, v) :: m, k => if j = k then v else smGet d m k

/-- The map with the entry of `k` removed. -/
def smErase {α : Type} : SMap α → Nat → SMap α
  | [], _ => []
  | (j, w) :: m, k => if j = k then smErase m k else (j, w) :: smErase m k

/-- The entry put in its place among rising keys; an entry of the same key is replaced. -/
def smInsert {α : Type} : SMap α → Nat → α → SMap α
  | [], k, v => [(k, v)]
  | (j, w) :: m, k, v =>
    if j < k then (j, w) :: smInsert m k v
    else if j = k then (k, v) :: smErase m k
    else (k, v) :: smErase ((j, w) :: m) k

/-- The map with `k` at `v`, in canonical form. -/
def smSet {α : Type} [DecidableEq α] (d : Nat → α) (m : SMap α) (k : Nat) (v : α) : SMap α :=
  if v = d k then smErase m k else smInsert m k v

/-- The map with the values of a run of keys set. -/
def smSetMany {α : Type} [DecidableEq α] (d : Nat → α) : SMap α → List (Nat × α) → SMap α
  | m, [] => m
  | m, (k, v) :: r => smSetMany d (smSet d m k v) r

/-- The canonical form: keys strictly rising and no entry equal to its default. -/
def smWf {α : Type} [DecidableEq α] (d : Nat → α) : SMap α → Bool
  | [] => true
  | [(j, v)] => decide (v ≠ d j)
  | (j, v) :: (k, w) :: m => decide (v ≠ d j) && decide (j < k) && smWf d ((k, w) :: m)

end Sys2Proof.Machine
end

