-- ==== Sys2Proof/Machine/State.lean ====
section
/-! DEFINITION. The state of the module as plain data, with what it holds after reset. -/

namespace Sys2Proof.Machine

/-! ### Streams and Sluices (11) -/

/-- The states of `STRM.STATE` (R290). -/
inductive SState where
  | disarmed | running | waitSpace | waitCredit | done | haltFault | haltError
  deriving DecidableEq, Repr

/-- One 64-byte word of staging with its tag (R274); commands say when its check bits hold an uncorrectable error. -/
structure SWord where
  data : Nat := 0
  last : Bool := false
  vb : Nat := 0
  /-- The packet it stands for was dropped before it was written: no word of it enters the Sluice (R247, R278). -/
  void : Bool := false
  deriving DecidableEq, Repr

/-- The bases an arming brings; 0 keeps the descriptor's (R270). -/
structure Arming where
  base0 : Nat := 0
  base1 : Nat := 0
  sbase0 : Nat := 0
  sbase1 : Nat := 0
  /-- The frame whose buffers it names: that of an encoding, else the one observed (R260). -/
  frame : Nat := 0
  deriving DecidableEq, Repr

/-- A Sluice (R263, R275, R278, R279). -/
structure Sluice where
  /-- The staging area of R264. -/
  base : Nat := 0
  size : Nat := 0
  /-- Committed packets, oldest first, each its words in order. -/
  packets : List (List SWord) := []
  /-- Words of the oldest committed packet that its reader has consumed. -/
  taken : Nat := 0
  /-- The words of the packet in progress. -/
  prog : List SWord := []
  /-- Words reserved for the packet in progress. -/
  rsv : Nat := 0
  /-- A FLUSH accepted and not yet at its packet boundary. -/
  flush : Bool := false
  /-- Narrow mode and the bytes of its packet in progress (R279). -/
  narrow : Bool := false
  nbytes : List Byte := []
  /-- The context and arming whose load packets it took last: where a reader's error reaches once the stream is disarmed (R107, R277). -/
  src : Option (Nat × Arming) := none
  deriving DecidableEq, Repr

/-- A run of bits of a request's word: bits of memory from a physical bit address, bits of a stash item, bits that no
memory holds, an FP32 bias that one bit of a bitmap selects (`first` at a block's first element), or one that a row map
word selects for key `j` (R266, R226, R234, R242, R313); and bytes of a list, bitmap or metadata read beside the word, of a
stash item where they belong to one (R222, R232). -/
inductive Piece where
  | mem (bit n : Nat)
  | stash (i bit n : Nat)
  | lit (v n : Nat)
  | bias (bit : Nat) (first : Bool)
  | key (at_ j : Nat)
  | side (a n : Nat) (item : Option Nat)
  deriving DecidableEq, Repr

/-- A memory request of a stream between issue and completion (R275, R282): what its word is made of (load), the bits
it writes as bit address, width and value (store), the stash item and byte offset of a window access (R313), and the
virtual addresses it was translated through (R306). -/
structure Flight where
  load : List Piece := []
  puts : List (Nat × Nat × Nat) := []
  item : Option (Nat × Nat) := none
  vas : List Nat := []
  deriving DecidableEq, Repr

/-- A stream context (R263, R271, R272, R285, R288). -/
structure Ctx where
  st : SState := .disarmed
  arm : Arming := {}
  shadow : Option Arming := none
  /-- The stream has issued its first request or accepted its first writer word (R271, Start). -/
  started : Bool := false
  /-- Packets completed in the arming. -/
  packets : Nat := 0
  /-- Requests of the packet in progress between issue and completion, oldest first. -/
  flight : List Flight := []
  /-- The virtual address whose walk the next request waits for, with the element position it is for. -/
  walk : Option (Nat × Nat) := none
  /-- The packet in progress was read again once (R276). -/
  refetched : Bool := false
  cause : Nat := 0
  faultPos : Nat := 0
  /-- The fault record of the halt and its number (R307, R308). -/
  faultSeq : Nat := 0
  faultRec : Nat := 0
  /-- ACTION 3 or a boundary ends the arming at the next packet boundary. -/
  ending : Bool := false
  /-- Stash items the arming has read (R317). -/
  items : List Nat := []
  /-- Clear bitmap bits that the packet in progress has expanded (R234). -/
  clears : Nat := 0
  deriving DecidableEq, Repr

/-- A translation the TLB holds (R305). -/
structure TlbEntry where
  va : Nat := 0
  size : Nat := 0
  frame : Nat := 0
  w : Bool := false
  d : Bool := false
  pte : Nat := 0
  deriving DecidableEq, Repr

/-! ### Entries (02, R43) -/

/-- A 128-bit schedule entry (R43). -/
structure Entry where
  op : Nat := 0
  fmtA : Nat := 0
  fmtB : Nat := 0
  orient : Nat := 0
  earliest : Nat := 0
  deadline : Nat := 0
  wait : Nat := 0
  out : Nat := 0
  param : Nat := 0
  deriving DecidableEq, Repr

/-- An entry of the step's plan: its place in the image, its segment's origin, its micro-batch and layer. -/
structure PlanEntry where
  off : Nat := 0
  origin : Nat := 0
  mb : Nat := 0
  layer : Nat := 0
  deriving DecidableEq, Repr

/-- A started entry that has not completed (R50, R51, R127). -/
structure RunEntry where
  plan : PlanEntry := {}
  entry : Entry := {}
  /-- Its results are formed; until then it gathers committed operand words. -/
  formed : Bool := false
  /-- Operand words taken so far, by Sluice. -/
  got : SMap (List Nat) := []
  /-- Accumulator regions it writes: first pair and length. -/
  regions : List (Nat × Nat) := []
  /-- Output words still to enter their Sluices, in order, each with its Sluice. -/
  outq : List (Nat × SWord) := []
  /-- The clk count its timing rule gives (R126, R141, R159, R168, R207, R208, R231, R253, R255, R340). -/
  clk : Nat := 0
  /-- The barrier a barrier entry has arrived at and waits for (R52). -/
  wait : Option Nat := none
  /-- A fault stopped it: it never completes (R107, R146, R166). -/
  stopped : Bool := false
  /-- Its share of a scope is scouted, and it waits for the other shares (R101). -/
  scouted : Bool := false
  /-- The mirror slot and record written when it completes (R145). -/
  mirror : Option (Nat × Nat) := none
  deriving DecidableEq, Repr

/-- An accumulator region with its slot count and closed segments (R181), and the weight identity that pins it (R162). -/
structure Region where
  base : Nat := 0
  len : Nat := 0
  slots : Nat := 0
  segs : List (List Nat) := []
  wid : Nat := 0
  pinned : Bool := false
  /-- The tensor scales its rows and its columns have met so far; 0 none (R107). -/
  rowTs : List Nat := []
  colTs : List Nat := []
  deriving DecidableEq, Repr

/-- The statistics of one channel of a share that a core has scouted in the step (R101): tensor, micro-batch, channel, and whether a
conversion of it has entered the amax history (R103). -/
structure ScoutRec where
  tensor : Nat := 0
  mb : Nat := 0
  ch : Nat := 0
  stat : Scout
  done : Bool := false
  deriving DecidableEq, Repr

/-- A core's private state (R263, R172, R103, R145, R305). -/
structure Core where
  /-- Transposable weight store, 64-bit words (R13). -/
  wstore : SMap Nat := []
  /-- Accumulator buffer, FP32 pairs (R172). -/
  acc : SMap Nat := []
  regions : List Region := []
  ctxs : SMap Ctx := []
  sluices : SMap Sluice := []
  /-- Amax history slots, newest first (R103), and the slots as they stood at the step origin (R203). -/
  hist : SMap (List Nat) := []
  histOrigin : SMap (List Nat) := []
  /-- Mirror records, 512 bits each (R145). -/
  mirror : SMap Nat := []
  todo : List PlanEntry := []
  running : List RunEntry := []
  /-- Commit tokens the step has produced, each with the part of the plan that committed it (R50). -/
  tokens : List (Nat × Nat) := []
  tlb : List TlbEntry := []
  /-- Stalled beats, whether a packet moved in this beat, pre-emptions without progress (R286). -/
  stalled : Nat := 0
  moved : Bool := false
  preempts : Nat := 0
  noPreempt : Bool := false
  /-- The head entry has been held under R127 and counted. -/
  accHeld : Bool := false
  /-- "First in a step" events already raised: code and tensor (R75, R85, R174 and others). -/
  firsts : List (Nat × Nat) := []
  /-- Shares scouted in the step (R101). -/
  scouts : List ScoutRec := []
  deriving DecidableEq, Repr

/-! ### Clusters and groups (02, 08, 10, 12) -/

/-- A micro-batch of the plan, or a segment of one (R61, R62). -/
structure PlanMb where
  tokens : Nat := 0
  bucket : Nat := 0
  segment : Nat := 0
  segmented : Bool := false
  origin : Nat := 0
  deriving DecidableEq, Repr

/-- A stash item (R316, R317). -/
structure StashItem where
  /-- Raw bytes written so far, in address order; after a prefetch, the restored bytes. -/
  data : List Byte := []
  /-- Bytes that store requests have been issued for. -/
  asked : Nat := 0
  placed : Bool := false
  tier : Nat := 0
  form : Nat := 0
  pa : Nat := 0
  stored : Nat := 0
  /-- The item is in T0, or back in T0 after prefetch. -/
  present : Bool := false
  lost : Bool := false
  loads : Nat := 0
  /-- Its bytes still stand in the staging area, waiting for offload. -/
  staged : Bool := false
  deriving DecidableEq, Repr

/-- The states of a rollout slot (R240). -/
inductive SlotState where
  | empty | prefill | decode | ended
  deriving DecidableEq, Repr

/-- A rollout slot (R240–R247). -/
structure Slot where
  st : SlotState := .empty
  seqId : Nat := 0
  promptLen : Nat := 0
  maxNew : Nat := 0
  tokensVa : Nat := 0
  invT : Nat := 0
  topp : Nat := 0
  topk : Nat := 0
  greedy : Bool := false
  /-- Processed context length, generated tokens, rows allocated in this step. -/
  len : Nat := 0
  generated : Nat := 0
  rows : Nat := 0
  samples : Bool := false
  reason : Nat := 0
  cancel : Bool := false
  /-- MIXED: its KV holds more than one epoch (R246, R258). -/
  mixed : Bool := false
  /-- The token record of the step in progress: token, LOGP, and whether its logits were not finite. -/
  token : Option (Nat × Nat) := none
  nonfinite : Bool := false
  dropped : Bool := false
  /-- Its tails hold 32 tokens and are marked for the seal segment (R248). -/
  sealMark : Bool := false
  /-- Tokens waiting in its tails. -/
  tail : Nat := 0
  /-- The tails that the step's seal segment has cleared: address and contents, for a discard (R247). -/
  sealed : List (Nat × Nat) := []
  deriving DecidableEq, Repr

/-- A cluster's private state. -/
structure Cluster where
  /-- Stacked SRAM, 64-bit words (R172, R195). -/
  sram : SMap Nat := []
  /-- A role request waits for its boundary (R64). -/
  roleReq : Option Nat := none
  /-- A checked role waits for its group's next boundary: the cluster is idle until then (R24, R67). -/
  joining : Option Nat := none
  /-- R26 was reported for the pending change. -/
  deferred : Bool := false
  /-- The beat in which the request was written: an idle cluster changes in a later one (R23). -/
  reqAt : Nat := 0
  /-- Length words of the awaited step, by micro-batch index (R368). -/
  lengths : SMap Nat := []
  /-- The beat in which the last of them arrived (R55). -/
  lengthsAt : Nat := 0
  plan : List PlanMb := []
  /-- Position in the plan: micro-batch and layer. -/
  mb : Nat := 0
  layer : Nat := 0
  recompute : Bool := false
  recomputeReq : Bool := false
  fencedSample : Nat := 0xFF
  /-- Health flag bits and tokens of the step (R197, R198). -/
  health : Nat := 0
  firsts : List Nat := []
  /-- The step's tail has started: FWD_SAT is formed (R196). -/
  tailOpen : Bool := false
  /-- Slips and largest lateness of its entries since a participant's previous barrier, by the participant's number (R52). -/
  since : SMap (Nat × Nat) := []
  /-- Fenced cores (R373). -/
  fenced : List Nat := []
  /-- A pending unfence (R377). -/
  unfence : Option Nat := none
  /-- The stash: items by number, prefetch position, ledgers L0, L1, L2 (R316, R317). -/
  stash : SMap StashItem := []
  prefetch : Option Nat := none
  ledger : Nat × Nat × Nat := (0, 0, 0)
  redirected : Bool := false
  /-- Rollout slots and the row map of the step in progress (R242). -/
  slots : SMap Slot := []
  rowMap : List Nat := []
  /-- Observation encoding in progress and the halves (R260): frame number of the running encoding, of the latest
  completed one, and of the current one. -/
  encoding : Option Nat := none
  encoded : Option Nat := none
  observed : Option Nat := none
  deriving DecidableEq, Repr

/-- Where a group stands in its step (R54, R201, R241). -/
inductive Phase where
  | idle
  | boundary
  | running
  | updating
  | commitReady
  | discardReady
  | ringWait
  deriving DecidableEq, Repr

/-- The training group (R24, R55, R199–R204, R257). -/
structure TrainGroup where
  phase : Phase := .idle
  /-- Earliest origin beat of the next plan, and the origin of the step in progress. -/
  earliest : Nat := 0
  origin : Nat := 0
  members : List Nat := []
  /-- The beat in which the group was formed, until its first step starts (R67). -/
  formedAt : Option Nat := none
  /-- The clusters that belonged to the group at the origin of its step (R369). -/
  atOrigin : List Nat := []
  mask : Nat := 0x202F
  lr : List Nat := []
  /-- State bank and epoch bank sampled at the step origin (R267). -/
  bank : Nat := 0
  epochBank : Nat := 0
  abort : Bool := false
  wide : Bool := false
  /-- The plan waits for a new data position word (R190). -/
  skewWait : Bool := false
  /-- No new step under R204. -/
  stopped : Bool := false
  /-- The job tally of the last health barrier: TOKENS, HEALTH, SLIP_MAX, then the layer tallies. -/
  tally : Option (List Nat) := none
  healthWord : Nat := 0x0000FFFF00000000
  /-- Update flags of this device (NAN, OPT_SAT, SILENT). -/
  updFlags : Nat := 0
  /-- Layers whose hold this step's health barrier set, and layers a MODE 0 entry read a nonzero gradient of. -/
  held : List Nat := []
  loud : List Nat := []
  updated : List Nat := []
  /-- A publication's copy runs; the next commit waits (R257). -/
  publishing : Option Nat := none
  firsts : List Nat := []
  deriving DecidableEq, Repr

/-- The rollout group (R239–R247). -/
structure RollGroup where
  phase : Phase := .idle
  earliest : Nat := 0
  origin : Nat := 0
  members : List Nat := []
  formedAt : Option Nat := none
  bank : Nat := 0
  abort : Bool := false
  stallRaised : Bool := false
  /-- The ring check of the coming step has succeeded (R241, R245). -/
  ringOk : Bool := false
  firsts : List Nat := []
  lastHostEpoch : Nat := 0
  deriving DecidableEq, Repr

/-- A layer's carried values (R193, R194, R209, R210). -/
structure Layer where
  k : Int := 0
  hold : Nat := 0
  wdog : Nat := 0
  fwdSat : Nat := 0
  gamax : Nat := 0
  deriving DecidableEq, Repr

/-! ### Tables (02, R35–R44, R469) -/

/-- Which alternative of a layer segment an entry list serves (R57, R58, R243). -/
structure VarKey where
  fenced : Nat := 0x1F
  xf8 : Bool := false
  wide : Bool := false
  bucket : Nat := 0
  segment : Nat := 0
  recompute : Bool := false
  deriving DecidableEq, Repr

/-- One entry list of the segment directory. -/
structure AltList where
  layer : Nat := 0
  key : VarKey := {}
  core : Nat := 0
  off : Nat := 0
  count : Nat := 0
  /-- Beats from the micro-batch's (tail's, step's) origin to the segment's origin. -/
  origin : Nat := 0
  deriving DecidableEq, Repr

/-- What a barrier gates (R52, R101, R201, R346). -/
inductive BarrierRole where
  | plain | shares | health | commit | route
  deriving DecidableEq, Repr

/-- A barrier of the barrier list: its participants, by number in increasing order (R52). -/
structure BarrierDesc where
  role : BarrierRole := .plain
  parts : List Nat := []
  deriving DecidableEq, Repr

/-- The directories of a schedule image (R42, R43): the manual names them and lays none of them out. -/
structure SchedLayout where
  alts : List AltList := []
  tail : List AltList := []
  obs : List AltList := []
  /-- `waits[core]` lists, for each WAIT index, the Sluices and commit tokens it names. -/
  waits : List (List (List Nat × List Nat)) := []
  barriers : List BarrierDesc := []
  deriving DecidableEq, Repr, Inhabited

/-- An accepted image, shadow or active (R36–R40, R469). -/
structure TableRec where
  handle : Nat := 0
  active : Bool := false
  /-- The region's bytes as they were measured, by offset, listed where not zero. -/
  snap : SMap Nat := []
  digest : Nat := 0
  layout : SchedLayout := {}
  /-- Groups that have not switched to it yet: 1 training, 2 rollout (R469). -/
  waitGroups : List Nat := []
  /-- Groups that still read the table it replaced. -/
  oldFor : List Nat := []
  /-- An active read differed from the measurement: the region is not used again (R40). -/
  bad : Bool := false
  deriving DecidableEq, Repr

/-- A barrier in progress: who has arrived, with what (R52). The group, the number and the participants tell barriers of different images
apart. -/
structure Arrival where
  barrier : Nat := 0
  group : Nat := 1
  parts : List Nat := []
  part : Nat := 0
  slips : Nat := 0
  late : Nat := 0
  beat : Nat := 0
  deadline : Nat := 0
  abort : Bool := false
  /-- Health or update flags that the arrival carries (R201). -/
  flags : Nat := 0
  deriving DecidableEq, Repr

/-! ### Memory (12) -/

/-- A fault record held for room, with the die that holds it (R307). -/
structure HeldFault where
  die : Nat := 0
  seq : Nat := 0
  record : Nat := 0
  deriving DecidableEq, Repr

/-- A byte that a die has written and that units on other dies may still read as it was (R19): the byte before the write, the die that
wrote it, and the dies that have taken part in a barrier with that die since. -/
structure Unseen where
  addr : Nat := 0
  old : Byte := 0
  writer : Nat := 0
  seen : List Nat := []
  deriving DecidableEq, Repr

/-- Memory and translation state (R292–R312). -/
structure MemState where
  /-- Physical bytes, in canonical form: what is not listed reads as 0. -/
  cells : List Host.Cell := []
  /-- Poisoned 64-bit words, by word address (R297). -/
  poison : SMap Bool := []
  /-- CXL ports whose expander is lost (R299). -/
  lost : List Nat := []
  /-- The address range of the invalidation in progress (R306). -/
  inval : Option (Nat × Nat) := none
  /-- Pseudo-channel requests pending and under rebuild: die and way (R300). -/
  retire : Option (Nat × Nat) := none
  /-- Addressable bytes of the CXL expanders of ports 0 and 1. -/
  cxl : Nat × Nat := (2 ^ 40, 2 ^ 40)
  faultSeq : Nat := 1
  held : List HeldFault := []
  /-- The page mover's copy in progress: source, destination, length; and the destination lines whose contents a stream
  write into either frame left undefined (R312). -/
  mover : Option (Nat × Nat × Nat) := none
  raced : List Nat := []
  /-- Writes that are not visible to every die yet, newest first (R19). -/
  unseen : List Unseen := []
  /-- Walks asked of the walkers, in arrival order: core and context (R305). -/
  walks : List (Nat × Nat) := []
  /-- Beats of the corrected words of each pseudo-channel, newest first, and its other counts (R298, R320). -/
  pcCe : SMap (List Nat) := []
  pcUe : SMap Nat := []
  pcOdecc : SMap Nat := []
  deriving DecidableEq, Repr

/-- Credits drawn in the present beat, by budget (R281, R282), and the budgets in force. -/
structure WeirState where
  used : SMap Nat := []
  budget : SMap Nat := []
  deriving DecidableEq, Repr

/-- A flit (R323–R325) without its CRC and link fields; `payload` is 1,024 bytes, `tally` the step tally record that a
ring with TALLY carries (R342). -/
structure Flit where
  kind : Nat := 0
  vc : Nat := 0
  dest : Nat := 0
  waypt : Bool := false
  waypoint : Nat := 0
  seq : Nat := 0
  last : Bool := false
  src : Nat := 0
  coll : Nat := 0
  index : Nat := 0
  scale1 : Nat := 0
  scale0 : Nat := 0
  hop : Nat := 0
  payload : Nat := 0
  tally : List Nat := []
  /-- The port and virtual channel whose buffer the flit still takes at this device. -/
  buf : Option (Nat × Nat) := none
  deriving DecidableEq, Repr

/-! ### The event log (17, R431) -/

/-- The severities of R9. -/
inductive Sev where
  | note | degrade | stepAbort | fatal
  deriving DecidableEq, Repr

/-- A log record (R431). -/
structure Event where
  seq : Nat := 0
  code : Nat := 0
  sev : Sev := .note
  unit : Nat := 0
  beat : Nat := 0
  pos : Nat := 0
  deriving DecidableEq, Repr

/-- The event log (R431), and the events held while the management controller restarts (R446, R472). -/
structure LogState where
  /-- Newest first, at most 65,536 records. -/
  ring : List Event := []
  /-- The number the next record takes. -/
  next : Nat := 1
  held : List Event := []
  holding : Bool := false
  /-- Events are logged: boot stage 1 was reached (R472). -/
  ready : Bool := true
  /-- The pending-event condition of `alert_n` (R465). -/
  alert : Bool := false
  deriving DecidableEq, Repr

/-- What an RDMA request says on the wire. -/
structure RdmaReqMsg where
  /-- 0 write, 1 write with immediate, 2 read. -/
  op : Nat := 0
  addr : Nat := 0
  rkey : Nat := 0
  len : Nat := 0
  imm : Nat := 0
  psn : Nat := 0
  bytes : List Byte := []
  deriving DecidableEq, Repr

/-- What the device sends or reports outside. -/
inductive Out where
  /-- An EVENT message to subscription `k` (R432). -/
  | event (k : Nat) (e : Event)
  /-- A response to a dictionary request: its path, address, port and tag, the operation, the object, the status and the
  value (R428–R430). -/
  | response (path : Path) (addr port tag op obj status : Nat) (value : List Byte)
  /-- A flit sent on a Rill port, with its words H0 and H1 and the fields of its trailer below the CRC (R324, R325; the CRC: log 84). -/
  | flit (port : Nat) (f : Flit) (h0 h1 tail : Nat)
  /-- A flit cut through and ended with a forced CRC error (R334). -/
  | badFlit (port : Nat) (f : Flit)
  /-- Control flits of a port: its coordinate and name at Identify, a barrier arrival (R328, R344). -/
  | identify (port coord : Nat)
  | arrival (barrier part : Nat) (slips late flags : Nat) (abort : Bool)
  /-- An RDMA request sent on a queue pair, and the answers of the responder: an acknowledgement, read data, a NAK with
  its syndrome (R356). -/
  | rdma (qp : Nat) (r : RdmaReqMsg)
  | ack (qp psn : Nat)
  | data (qp psn : Nat) (bytes : List Byte)
  | nak (qp psn syndrome : Nat)
  | cnp (qp : Nat)
  /-- Answers of the network layer: ARP, neighbour advertisement, echo, LACP; a PTP Delay_Req (R351, R359). -/
  | arpReply (port : Nat) (ip : Nat) (mac : Nat)
  | neighbourAdvert (port : Nat) (ip : Nat) (mac : Nat)
  | echoReply (port : Nat) (payload : List Byte)
  | delayReq (port seq : Nat)
  /-- A firmware interrupt of the management controller (R366). -/
  | interrupt
  /-- RECOVER_REQ and the answer to a BLOCK or RECOVER_GO (R441). -/
  | recoverReq (port : Nat) (value : List Byte)
  | recoverAnswer (tag op status : Nat)
  /-- The address phase of the standby serial port acknowledged (R419). -/
  | sspAck
  deriving DecidableEq, Repr

/-- The ways a step stops with a fault: none. Every command the manual gives an effect has it, and a command that names an
event which cannot happen leaves the state as it is (DESIGN CHOICE, log 10). Safe: there is nothing to raise. -/
inductive Fault where
  deriving DecidableEq, Repr

/-- The ways a command has no meaning. -/
inductive Refusal where
  /-- A command not yet given its meaning, by its mnemonic. Safe. -/
  | notModelled (mnemonic : String)
  deriving DecidableEq, Repr

/-- A stored response (R430). -/
structure StoredResp where
  path : Path := .inband
  addr : Nat := 0
  port : Nat := 0
  tag : Nat := 0
  beat : Nat := 0
  op : Nat := 0
  obj : Nat := 0
  status : Nat := 0
  value : List Byte := []
  deriving DecidableEq, Repr

/-- Module flash beside the persistent objects (R29, R414, R433, R437): what it holds at reset is log 4. An empty image or
record is one that fails its checks. -/
structure Flash where
  firmware : List Byte := []
  /-- The two slots of each kind of configuration record. -/
  factory : List (List Byte) := [[], []]
  owner : List (List Byte) := [[], []]
  /-- The factory power state tables of the six dies. -/
  pst : List (List Byte) := []
  /-- The certificate chain, and the public key that the device certificate names (R433). -/
  certs : List (List Byte) := []
  deviceKey : List Byte := []
  deriving DecidableEq, Repr

/-- A REGISTER of the measurements (R442): SHA-512 wide, zero at reset. -/
def zeroDigest : List Byte := List.replicate 64 0

/-- The management controller and the security engine (17). -/
structure MgtState where
  /-- The last 256 responses, newest first (R430). -/
  stored : List StoredResp := []
  /-- The derived identity public key (R433). -/
  identity : List Byte := []
  /-- REG_FW, REG_CFG, REG_TBL and REG_DBG (R442). -/
  regFw : List Byte := zeroDigest
  regCfg : List Byte := zeroDigest
  regTbl : List Byte := zeroDigest
  regDbg : List Byte := zeroDigest
  /-- Debug mode was entered since reset (R445). -/
  debugSince : Bool := false
  /-- The report being built, without its signature, and the finished one (R444). -/
  building : Option (List Byte) := none
  report : List Byte := []
  /-- The staged record being checked or written (R439): its bytes. -/
  record : Option (List Byte) := none
  /-- The staged firmware image that was verified, the image being written, and whether a restart follows (R446). -/
  verified : List Byte := []
  flashing : Option (List Byte × Bool) := none
  /-- A warm restart runs; one is pending (R446). -/
  restarting : Bool := false
  /-- Cores that failed during it: what the management controller does of a core fault follows the restart (R448). -/
  faults : List Nat := []
  /-- Reads of accumulator pairs held while an entry writes them, each with the selection it was made under (R186). -/
  heldReads : List (Req × Nat) := []
  /-- The recovery buffer's bytes, by offset (R441), and why recovery runs: 1 firmware, 2 factory record, 3 SVN. -/
  recovery : SMap Byte := []
  reason : Nat := 0
  /-- Power state tables that the recovery image has taken. -/
  recPst : Nat := 0
  deriving DecidableEq, Repr

/-- The power state beside the objects (16). -/
structure PowerState where
  /-- Domains in transition: the state they left and the state they go to (R404). -/
  trans : SMap (Nat × Nat) := []
  /-- Requests held until a transition ends. -/
  held : SMap (Option Nat) := []
  /-- The always-on domain is in SLEEP; a wake runs (R408, R419). -/
  sleeping : Bool := false
  waking : Bool := false
  /-- The supply ceiling, and whether the throttle, its hold and its release are in force (R399, R400). -/
  throttle : Bool := false
  holding : Bool := false
  ceil : Nat := 2000
  /-- Input power samples, newest first (R415). -/
  samples : List Nat := []
  /-- The cap ceiling's run: 0 none, 1 falling, 2 rising, and samples since its first step. -/
  capRun : Nat × Nat := (0, 0)
  /-- A1 stood above its limit at the last sample. -/
  capPeak : Bool := false
  /-- The same of each die's thermal ceiling, in beats (R417). -/
  thermRun : SMap (Nat × Nat) := []
  /-- Dies at or above 105 °C whose clamp is in force. -/
  hot : List Nat := []
  /-- Body bias and assist settings of the privileged domains, as the 6 bytes of a point (R412). -/
  bias : SMap Nat := []
  deriving DecidableEq, Repr

/-- The pins, the power stage and the input monitor (18). -/
structure Pins where
  /-- J1 is mated; the input monitor supply is up (at or above 40 V). -/
  mated : Bool := true
  monitor : Bool := true
  pwrEn : Bool := true
  /-- The soft start runs; every rail is in regulation and `pwr_good` is released (R459). -/
  softStart : Bool := false
  pwrGood : Bool := true
  rstN : Bool := true
  /-- The device is held in reset: no boot has begun since the last reset. -/
  inReset : Bool := false
  /-- The internal reset of R459 has ended since the rails regulate. -/
  internalDone : Bool := true
  /-- The power stage starts only after `pwr_en` has risen again (R461, causes 0 and 3). -/
  needRise : Bool := false
  /-- `therm_trip_n` is latched; the fatal latch of `alert_n` (R461, R465). -/
  thermLatch : Bool := false
  fatalLatch : Bool := false
  /-- The cause of the last reset, for the event of the next boot (R401). -/
  cause : Nat := 0
  /-- An edge of the coolant excursions: inlet above its limit, flow below 2.0 L/min, liquid sensed (R464). -/
  hotInlet : Bool := false
  lowFlow : Bool := false
  deriving DecidableEq, Repr

/-! ### Rill ports and collectives (13) -/

/-- A scheduled flit that waits at an output, with the beat and slot it is due in (R338). -/
structure DueFlit where
  flit : Flit := {}
  beat : Nat := 0
  slot : Nat := 0
  /-- Its slot is not one reserved for scheduled flits: it goes at the first free flit time (R338). -/
  late : Bool := false
  deriving DecidableEq, Repr

/-- A Rill port (R326–R330). -/
structure RillPort where
  /-- Trainings that failed since the port entered TRAINING (R328). -/
  attempts : Nat := 0
  /-- The next SEQ, the flits sent and not acknowledged, oldest first, and those to be replayed (R326). -/
  seq : Nat := 0
  unacked : List Flit := []
  replay : List Flit := []
  /-- The next SEQ expected, refusals in succession, a NAK to be sent. -/
  rxSeq : Nat := 0
  /-- A flit was received in order since the link opened: ACK_SEQ is meaningful (R325). -/
  heard : Bool := false
  refused : Nat := 0
  nak : Bool := false
  /-- Credits held, and flit buffers freed and not yet reported, by virtual channel. -/
  credits : SMap Nat := []
  freed : SMap Nat := []
  /-- Flits waiting for the output: scheduled, control, best-effort. -/
  sched : List DueFlit := []
  ctl : List Flit := []
  best : List Flit := []
  /-- The beat in which a flit of others last crossed the port (R330). -/
  lastFwd : Option Nat := none
  /-- The input whose best-effort flit was sent last (R338). -/
  turn : Nat := 0
  deriving DecidableEq, Repr

/-- A cluster's contribution to a range of a ring reduction, until the clusters of the group are summed (R66, R341): its first element
and its pairs. -/
structure CollPart where
  cl : Nat := 0
  elem0 : Nat := 0
  pairs : List Nat := []
  deriving DecidableEq, Repr

/-- A collective in progress (R340–R344). -/
structure Coll where
  /-- Contributions of this device's clusters (R66). -/
  parts : List CollPart := []
  /-- Ranges of CBUF that are ready: first element and count. -/
  ready : List (Nat × Nat) := []
  /-- Blocks of its own chunk (KIND 1), elements or bytes (KIND 2 and 3) that were injected. -/
  sent : Nat := 0
  /-- Blocks received of each chunk: reducing at 2 j, gathering at 2 j + 1. -/
  seen : SMap Nat := []
  /-- Flits that wait for this rank's contribution, and flits to inject. -/
  inq : List Flit := []
  outq : List Flit := []
  /-- Final ranges of RBUF. -/
  fin : List (Nat × Nat) := []
  /-- KIND 3: bytes written, by source. -/
  pos : SMap Nat := []
  lastHop : Nat := 0xFF
  done : Nat := 0
  /-- Halted by a skew (R341). -/
  halted : Bool := false
  /-- The compute die whose streams move its flits: that of the core whose reduction entry formed last (R334). -/
  die : Nat := 0
  /-- The job tally that came round (R342). -/
  tally : Option (List Nat) := none
  deriving DecidableEq, Repr

structure RillState where
  ports : SMap RillPort := []
  /-- Flits held for an unusable port, with the port (R333); flits to deliver after a stop, with 6 (R347). -/
  held : List (Nat × Flit) := []
  colls : SMap Coll := []
  /-- First hold and first missed slot of the step already raised. -/
  holdRaised : Bool := false
  missRaised : Bool := false
  /-- A route set request waits for its barrier (R346). -/
  altReq : Option Nat := none
  /-- A request written when that barrier had begun: it waits for the next (R347). -/
  altNext : Option Nat := none
  deriving DecidableEq, Repr

/-! ### Ethernet, RoCE, PTP and mailboxes (14) -/

/-- What an RDMA request of the device serves. -/
inductive RdmaUse where
  | mailbox (endpoint : Nat)
  | partnerId
  | drain (target : Nat)
  | serve
  deriving DecidableEq, Repr

inductive RdmaKind where
  | write
  | writeImm (imm : Nat)
  | read
  deriving DecidableEq, Repr

/-- A request that this device sent and that is not acknowledged yet (R351, R354). -/
structure RdmaReq where
  kind : RdmaKind := .write
  use : RdmaUse := .serve
  addr : Nat := 0
  rkey : Nat := 0
  bytes : List Byte := []
  len : Nat := 0
  psn : Nat := 0
  deriving DecidableEq, Repr

/-- A queue pair beside its record (R356, R357). -/
structure Qp where
  sendPsn : Nat := 0
  recvPsn : Nat := 0
  out : List RdmaReq := []
  retries : Nat := 0
  /-- The first access refusal was reported (R356). -/
  naked : Bool := false
  /-- A WRITE whose packets are not all in: the address of the next, and the bytes left. -/
  wr : Option (Nat × Nat) := none
  /-- Congestion notifications acted on (R351). -/
  cnps : Nat := 0
  deriving DecidableEq, Repr

/-- A port beside its objects: its pause of the RoCE priority (R351), its link. -/
structure EthPort where
  /-- The beat in which the pause ends, and what waits for it. -/
  pause : Nat := 0
  waiting : List Out := []
  /-- In TRAINING: the link is up, and the LACP partner is in sync (R352). -/
  link : Bool := false
  sync : Bool := false
  deriving DecidableEq, Repr

/-- A server the PTP client has heard (R359): what the best master clock algorithm compares, and where it was heard. -/
structure PtpMaster where
  /-- Priority 1, class, accuracy, variance, priority 2 and identity of the grandmaster, in order of comparison. -/
  rank : List Nat := []
  steps : Nat := 0
  id : Nat := 0
  /-- Ports that receive its messages. -/
  ports : List Nat := []
  deriving DecidableEq, Repr

structure PtpState where
  masters : List PtpMaster := []
  /-- Consecutive Syncs within 1 µs. -/
  good : Nat := 0
  /-- Beat of the last valid Sync. -/
  lastSync : Option Nat := none
  /-- A two-step Sync waiting for its Follow_Up: sequence and receive time. -/
  waiting : Option (Nat × Int) := none
  /-- The last Sync's origin and receive time, a Delay_Req sent: sequence and time; the measured path delay. -/
  last : Option (Int × Int) := none
  delayReq : Option (Nat × Int) := none
  delay : Int := 0
  reqSeq : Nat := 0
  high : Bool := false
  /-- A correction above 100 µs that waits for the boundary (R46); the counter stands until PTP time reaches it. -/
  correction : Option Int := none
  halted : Bool := false
  /-- The beat in which holdover began (R47); the missing `frame_in` edge was reported (R49). -/
  lostAt : Nat := 0
  frameLate : Bool := false
  deriving DecidableEq, Repr

/-- A mailbox channel (R362): W, T and the messages between them, oldest first. -/
structure Chan where
  w : Nat := 0
  t : Nat := 0
  msgs : List (List Byte) := []
  deriving DecidableEq, Repr

structure NetState where
  ports : SMap EthPort := []
  qps : SMap Qp := []
  ptp : PtpState := {}
  /-- Channels by 256 × sender + receiver, twice, plus 1 when secure. -/
  chans : SMap Chan := []
  /-- CONS of the host's receiving channels, by 32 × endpoint + sender port; pending bits and masks of the endpoints. -/
  cons : SMap Nat := []
  hostPending : SMap Nat := []
  hostMask : SMap Nat := []
  deriving DecidableEq, Repr

/-! ### Checkpoints and the ledger (15) -/

/-- The progress ledger (R388–R390) as it was last written. -/
structure Ledger where
  frozen : Bool := false
  fatalDie : Nat := 7
  phase : Nat := 0
  bank : Nat := 0
  step : Nat := 0
  beat : Nat := 0
  /-- CKPT.GEN, CKPT.SECURED_GEN and the drain state as they stood when the ledger froze. -/
  gens : Nat × Nat × Nat := (0, 0, 0)
  /-- Stream entries by 48 n + c, collective entries by k, 16 bytes each. -/
  streams : SMap Nat := []
  colls : SMap Nat := []
  deriving DecidableEq, Repr

/-- A region of the checkpoint set: its manifest index, base, length and the physical address of each of its pages. -/
structure CkptRegion where
  idx : Nat := 0
  va : Nat := 0
  len : Nat := 0
  pages : List Nat := []
  deriving DecidableEq, Repr

structure CkptState where
  /-- A checkpoint is due (R381); the stop follows the commit or boundary that lets it (R382). -/
  due : Bool := false
  stopNext : Bool := false
  /-- Ends of the last stop and the start of service, in beats; failure notices since. -/
  lastEnd : Nat := 0
  since : Nat := 0
  notices : Nat := 0
  /-- The stop in progress: its origin and regions; it is abandoned by R384. -/
  origin : Nat := 0
  regions : List CkptRegion := []
  bytes : Nat := 0
  /-- `STEP.DATA_POS` as it stood at the last commit; none before any (R379). -/
  dataPos : Option Nat := none
  /-- The generation that is drained. -/
  draining : Nat := 0
  /-- Cores whose test has passed since their fence, and the core under test (R377). -/
  passed : List Nat := []
  testing : Option Nat := none
  /-- The restore in progress: the image's address. -/
  restore : Option Nat := none
  /-- Targets whose header was sent: 1 partner, 2 store, 3 the serve. -/
  heads : List Nat := []
  /-- The slot being served. -/
  serving : Option Nat := none
  deriving DecidableEq, Repr

/-- What keeps new steps from starting: a large clock offset (R46), an expired holdover (R47), a checkpoint stop (R383), a
rebuild stop (R301). -/
inductive Hold where
  | offset | holdover | checkpoint | rebuild
  deriving DecidableEq, Repr

structure State where
  pending : List Instr := []
  outbox : List Out := []
  fresh : Nat := 0
  regs : SMap Nat := []
  counter : Nat := 0
  tables : List TableRec := []
  arrivals : List Arrival := []
  cores : SMap Core := []
  clusters : SMap Cluster := []
  train : TrainGroup := {}
  roll : RollGroup := {}
  layers : SMap Layer := []
  mem : MemState := {}
  weir : WeirState := {}
  log : LogState := {}
  mgt : MgtState := {}
  power : PowerState := {}
  pins : Pins := {}
  rill : RillState := {}
  net : NetState := {}
  ckpt : CkptState := {}
  ledger : Ledger := {}
  flash : Flash := {}
  holds : List Hold := []
  /-- The device stopped at a fatal fault (R17); on EW nothing is reachable. -/
  stopped : Bool := false
  dead : Bool := false
  deriving DecidableEq, Repr

/-- The machine right after reset: boot stage 1 begins, and nothing has been commanded. Every object holds the Default of its table
(R7, R425), or the value that the log names. -/
def State.reset : State := {}

end Sys2Proof.Machine
end

