-- ==== Sys2Proof/Config.lean ====
section
/-! DEFINITION. What the manual leaves open and the model does not choose: constants without a body, so that nothing
proved can rest on a value of them. -/

namespace Sys2Proof

/-- The values the manual leaves open, one for each use, numbered by `State.fresh` (DESIGN CHOICE, log 9). -/
opaque Config.freeValue : Nat → Nat
/-- What the directories of a schedule image say, as a function of the image's bytes: the manual names the segment
directory, the entry lists, the wait lists and the barrier list, and lays none of them out (DESIGN CHOICE, log 11). -/
opaque Config.schedLayout : Machine.SMap Nat → Machine.SchedLayout
/-- The public key that verifies images, factory records and release commands, as its two coordinates (DESIGN CHOICE, log 12). -/
opaque Config.lumquerixKey : Nat × Nat
/-- The public key that verifies firmware images (DESIGN CHOICE, log 12). -/
opaque Config.firmwareKey : Nat × Nat

end Sys2Proof
end

