-- ==== Sys2Proof/Machine/Ops.lean ====
section
/-! DEFINITION. The named operations over the state: objects, units, time, events, physical memory, and the free
values. -/

namespace Sys2Proof.Machine

/-! ### A part of the state replaced -/

def State.withPending (s : State) (v : List Instr) : State := { s with pending := v }
def State.withOutbox (s : State) (v : List Out) : State := { s with outbox := v }
def State.withFresh (s : State) (v : Nat) : State := { s with fresh := v }
def State.withRegs (s : State) (v : SMap Nat) : State := { s with regs := v }
def State.withCounter (s : State) (v : Nat) : State := { s with counter := v }
def State.withTables (s : State) (v : List TableRec) : State := { s with tables := v }
def State.withArrivals (s : State) (v : List Arrival) : State := { s with arrivals := v }
def State.withCores (s : State) (v : SMap Core) : State := { s with cores := v }
def State.withClusters (s : State) (v : SMap Cluster) : State := { s with clusters := v }
def State.withTrain (s : State) (v : TrainGroup) : State := { s with train := v }
def State.withRoll (s : State) (v : RollGroup) : State := { s with roll := v }
def State.withLayers (s : State) (v : SMap Layer) : State := { s with layers := v }
def State.withMem (s : State) (v : MemState) : State := { s with mem := v }
def State.withWeir (s : State) (v : WeirState) : State := { s with weir := v }
def State.withLog (s : State) (v : LogState) : State := { s with log := v }
def State.withMgt (s : State) (v : MgtState) : State := { s with mgt := v }
def State.withPower (s : State) (v : PowerState) : State := { s with power := v }
def State.withPins (s : State) (v : Pins) : State := { s with pins := v }
def State.withRill (s : State) (v : RillState) : State := { s with rill := v }
def State.withNet (s : State) (v : NetState) : State := { s with net := v }
def State.withCkpt (s : State) (v : CkptState) : State := { s with ckpt := v }
def State.withLedger (s : State) (v : Ledger) : State := { s with ledger := v }
def State.withFlash (s : State) (v : Flash) : State := { s with flash := v }
def State.withHolds (s : State) (v : List Hold) : State := { s with holds := v }
def State.withStopped (s : State) (v : Bool) : State := { s with stopped := v }
def State.withDead (s : State) (v : Bool) : State := { s with dead := v }

/-! ### Objects (R423–R425) -/

/-- The key of an object of a selected unit (a power domain, a queue pair, a region …). -/
def ofUnit (key unit : Nat) : Nat := key + unit * 2 ^ 24
/-- The object part of a key. -/
def objPart (key : Nat) : Nat := key % 2 ^ 24
/-- A queue pair record before it is written: the defaults of its fields, PORT 0xFF (R357). -/
def qpDefault : Nat := 0xFF * 2 ^ 328
/-- The default of a key: its object's (R7), or that of the fields of a record it holds. -/
def regDefault (key : Nat) : Nat := if objPart key = Obj.roceQp then qpDefault else objDefault (objPart key)

/-- The value of an object. -/
def State.reg (s : State) (k : Nat) : Nat := smGet regDefault s.regs k
/-- The object set to a value, cut to its size. -/
def State.setReg (s : State) (k v : Nat) : State :=
  (s.withRegs (smSet regDefault s.regs k (v % 256 ^ objSize (objPart k))))
/-- A counter advanced, saturating at its maximum (R93, R147 and others). -/
def State.bump (s : State) (k n : Nat) : State := s.setReg k (min (s.reg k + n) (256 ^ objSize (objPart k) - 1))
/-- An object back at its default. -/
def State.clearReg (s : State) (k : Nat) : State := (s.withRegs (smErase s.regs k))
/-- Several objects back at their defaults. -/
def State.clearRegs (s : State) : List Nat → State
  | [] => s
  | k :: ks => (s.clearReg k).clearRegs ks
/-- A counter raised to a value if that is larger. -/
def State.raiseTo (s : State) (k v : Nat) : State := s.setReg k (max (s.reg k) (min v (256 ^ objSize (objPart k) - 1)))

/-! ### Units -/

def dCore : Nat → Core := fun _ => {}
def dCluster : Nat → Cluster := fun _ => {}
def State.core (s : State) (n : Nat) : Core := smGet dCore s.cores n
def State.setCore (s : State) (n : Nat) (c : Core) : State := (s.withCores (smSet dCore s.cores n c))
def State.modCore (s : State) (n : Nat) (f : Core → Core) : State := s.setCore n (f (s.core n))
def State.cluster (s : State) (n : Nat) : Cluster := smGet dCluster s.clusters n
def State.setCluster (s : State) (n : Nat) (c : Cluster) : State := (s.withClusters (smSet dCluster s.clusters n c))
def State.modCluster (s : State) (n : Nat) (f : Cluster → Cluster) : State := s.setCluster n (f (s.cluster n))
def dLayer : Nat → Layer := fun _ => {}
def State.layer (s : State) (n : Nat) : Layer := smGet dLayer s.layers n
def State.modLayer (s : State) (n : Nat) (f : Layer → Layer) : State :=
  (s.withLayers (smSet dLayer s.layers n (f (s.layer n))))
def dCtx : Nat → Ctx := fun _ => {}
def dSluice : Nat → Sluice := fun _ => {}
def Core.ctx (c : Core) (n : Nat) : Ctx := smGet dCtx c.ctxs n
def Core.modCtx (c : Core) (n : Nat) (f : Ctx → Ctx) : Core := { c with ctxs := smSet dCtx c.ctxs n (f (c.ctx n)) }
def Core.sluice (c : Core) (n : Nat) : Sluice := smGet dSluice c.sluices n
def Core.modSluice (c : Core) (n : Nat) (f : Sluice → Sluice) : Core :=
  { c with sluices := smSet dSluice c.sluices n (f (c.sluice n)) }

/-- The cluster of a core: cores are numbered 64 × die + 16 × cluster + core, clusters 4 × die + cluster. -/
def clusterOf (core : Nat) : Nat := core / 16
/-- The compute die of a core. -/
def dieOf (core : Nat) : Nat := core / 64
/-- The cores of a cluster. -/
def coresOf (cl : Nat) : List Nat := (List.range 16).map (16 * cl + ·)
def allClusters : List Nat := List.range 16
/-- The role in force of a cluster: 0 idle, 1 training, 2 rollout (R16, R64). -/
def State.role (s : State) (cl : Nat) : Nat := s.reg (Obj.schedClRole cl)
/-- The clusters that hold a role. -/
def State.inRole (s : State) (r : Nat) : List Nat := allClusters.filter fun c => s.role c == r
/-- A function applied for each element of a list, in order. -/
def forAll {α : Type} (xs : List α) (f : α → State → State) (s : State) : State := xs.foldl (fun s x => f x s) s

/-- A flag at a bit of a word. -/
def bit01 (b : Bool) (i : Nat) : Nat := if b then 2 ^ i else 0
/-- A number put in its place among rising ones. -/
def insertNum (n : Nat) : List Nat → List Nat
  | [] => [n]
  | m :: ms => if n < m then n :: m :: ms else if n = m then m :: ms else m :: insertNum n ms

/-! ### Time (R5, R45) -/

/-- The beat in progress. -/
def State.beat (s : State) : Nat := s.counter / 1000

/-! ### Free values -/

/-- A value the manual leaves open, and the state with the counter advanced (DESIGN CHOICE, log 9). -/
def State.draw (s : State) : Nat × State := (Config.freeValue s.fresh, (s.withFresh (s.fresh + 1)))

/-! ### Events (R9, R10, R431, R432, R465, R472) -/

def uCore (n : Nat) : Nat := 1 * 2 ^ 24 + n
def uCluster (n : Nat) : Nat := 2 * 2 ^ 24 + n
def uDie (n : Nat) : Nat := 3 * 2 ^ 24 + n
def uEdge (n : Nat) : Nat := 4 * 2 ^ 24 + n
def uRill (n : Nat) : Nat := 5 * 2 ^ 24 + n
def uEth (n : Nat) : Nat := 6 * 2 ^ 24 + n
def uDomain (n : Nat) : Nat := 7 * 2 ^ 24 + n
def uMgt : Nat := 8 * 2 ^ 24
def uDevice : Nat := 9 * 2 ^ 24
/-- The position field where no rule gives one: stream context (0x3F none) and element (R431). -/
def posOf (ctx elem : Nat) : Nat := ctx * 2 ^ 58 + elem % 2 ^ 58
def noPos : Nat := posOf 0x3F 0

def Sev.code : Sev → Nat
  | .note => 0
  | .degrade => 1
  | .stepAbort => 2
  | .fatal => 3

/-- A subscription's message for a new record (R432). -/
def subscribers (s : State) (e : Event) : List Out :=
  ((List.range 4).filter fun k =>
    let v := s.reg (ofUnit Obj.logSub k)
    bitOf v (8 * 0x13) && decide (bitsOf v (8 * 0x12) 8 ≤ e.sev.code)).map fun k => Out.event k e

/-- The record written into the ring, sent to subscribers and reported at `alert_n` (R431, R432, R465). -/
def logRecord (s : State) (e : Event) : State :=
  let e := { e with seq := s.log.next }
  let s1 := ((s.withLog { s.log with ring := (e :: s.log.ring).take 65536, next := s.log.next + 1 }).withOutbox (s.outbox ++ subscribers s e))
  if s.reg Obj.modAlertSev ≤ e.sev.code && !s.log.alert then
    (s1.withLog { s1.log with alert := true }).setReg Obj.modAlertSeq e.seq
  else s1

/-- The group of a cluster stops issuing entries and takes ABORT (R9, R200). -/
def abortGroup (s : State) (cl : Nat) : State :=
  match s.role cl with
  | 1 => ((s.modCluster cl fun c => { c with health := c.health ||| 2 }).withTrain { s.train with abort := true })
  | 2 => (s.withRoll { s.roll with abort := true })
  | _ => s

/-- A step-abort that no core or cluster raises ends the training group's step, and the rollout group's where there is no
training group (DEDUCED, log 28). -/
def abortDevice (s : State) : State :=
  match s.inRole 1, s.inRole 2 with
  | cl :: _, _ => abortGroup s cl
  | [], cl :: _ => abortGroup s cl
  | [], [] => s

/-- What a severity does at once (R9): a step-abort of a core or cluster ends its group's step, a fatal event sets the
fatal latch (R465). -/
def sevEffect (s : State) (sev : Sev) (unit : Nat) : State :=
  match sev with
  | .stepAbort =>
    if unit / 2 ^ 24 = 1 then abortGroup s (clusterOf (unit % 2 ^ 24))
    else if unit / 2 ^ 24 = 2 then abortGroup s (unit % 2 ^ 24)
    else abortDevice s
  | .fatal => (s.withPins { s.pins with fatalLatch := true })
  | _ => s

/-- An event raised: the severity's effect, and the record, held while the management controller restarts (R446) and
not made before boot stage 1 (R472). -/
def raise (s : State) (code : Nat) (sev : Sev) (unit : Nat) (pos : Nat := noPos) : State :=
  let s := sevEffect s sev unit
  let e : Event := { code := code, sev := sev, unit := unit, beat := s.beat, pos := pos }
  if !s.log.ready then s
  else if s.log.holding then
    (if s.log.held.length < 1024 then (s.withLog { s.log with held := s.log.held ++ [e] }) else s)
  else logRecord s e

/-- An event a core raises only once per step, or once per tensor and step (R75, R174). -/
def raiseFirst (s : State) (core code tensor : Nat) (sev : Sev) (pos : Nat := noPos) : State :=
  if (s.core core).firsts.contains (code, tensor) then s
  else raise (s.modCore core fun c => { c with firsts := c.firsts ++ [(code, tensor)] }) code sev (uCore core) pos
/-- An event a cluster raises only once per step. -/
def raiseFirstCl (s : State) (cl code : Nat) (sev : Sev) (pos : Nat := noPos) : State :=
  if (s.cluster cl).firsts.contains code then s
  else raise (s.modCluster cl fun c => { c with firsts := c.firsts ++ [code] }) code sev (uCluster cl) pos

/-- Health flag bits of R198 set in a cluster's word. -/
def setHealth (s : State) (cl bits : Nat) : State := s.modCluster cl fun c => { c with health := c.health ||| bits }

/-! ### Physical memory (R292, R294) -/

/-- What a byte that nothing has written reads as (DESIGN CHOICE, log 6). -/
def memDefault : Nat → Byte := fun _ => 0
/-- What a word that nothing has poisoned reads as. -/
def notPoisoned : Nat → Bool := fun _ => false
/-- Reading one byte of physical memory. -/
def memByte (m : MemState) (a : Nat) : Byte := smGet memDefault m.cells a
/-- Writing one byte. -/
def memSetByte (m : MemState) (a : Nat) (b : Byte) : MemState := { m with cells := smSet memDefault m.cells a b }
/-- `n` bytes from `a`, as a little-endian number (R3). -/
def memRead (m : MemState) (a : Nat) : Nat → Nat
  | 0 => 0
  | n + 1 => (memByte m a).toNat + 256 * memRead m (a + 1) n
/-- The bytes from `a` written. -/
def memWriteBytes (m : MemState) (a : Nat) : List Byte → MemState
  | [] => m
  | b :: bs => memWriteBytes (memSetByte m a b) (a + 1) bs
/-- The `n` lowest bytes of `v` written from `a` (R3). -/
def memWrite (m : MemState) (a n v : Nat) : MemState := memWriteBytes m a (leBytes n v)
/-- The poison of the 64-bit words that a write covers whole is gone (R297). -/
def clearPoison (m : MemState) (a n : Nat) : MemState :=
  { m with poison := m.poison.filter fun p => decide (8 * p.1 < a) || decide (a + n < 8 * p.1 + 8) }
/-- Poison in any 64-bit word that a range touches. -/
def poisoned (m : MemState) (a n : Nat) : Bool :=
  m.poison.any fun p => p.2 && decide (8 * p.1 < a + n) && decide (a < 8 * p.1 + 8)
def setPoison (m : MemState) (word : Nat) : MemState := { m with poison := smSet notPoisoned m.poison word true }

def State.memRd (s : State) (a n : Nat) : Nat := memRead s.mem a n
def State.memWr (s : State) (a n v : Nat) : State := (s.withMem (clearPoison (memWrite s.mem a n v) a n))

/-- The canonical form of memory: bytes, and the words of it that are poisoned. -/
def Memory.wf (m : MemState) : Bool := smWf memDefault m.cells && smWf notPoisoned m.poison

/-! ### Private SRAM words -/

def zeroWord : Nat → Nat := fun _ => 0
/-- `n` bytes from byte address `a` of an SRAM held as 64-bit words. -/
def sramRead (m : SMap Nat) (a : Nat) : Nat → Nat
  | 0 => 0
  | n + 1 => bitsOf (smGet zeroWord m (a / 8)) (8 * (a % 8)) 8 + 256 * sramRead m (a + 1) n
def sramSetByte (m : SMap Nat) (a b : Nat) : SMap Nat :=
  let w := smGet zeroWord m (a / 8)
  let sh := 8 * (a % 8)
  smSet zeroWord m (a / 8) (w - bitsOf w sh 8 * 2 ^ sh + b % 256 * 2 ^ sh)
def sramWrite (m : SMap Nat) (a : Nat) : Nat → Nat → SMap Nat
  | 0, _ => m
  | n + 1, v => sramWrite (sramSetByte m a (v % 256)) (a + 1) n (v / 256)

/-- The sum of a list. -/
def sumOf (xs : List Nat) : Nat := xs.foldl (· + ·) 0
/-- `ceil(a / b)`. -/
def ceilDiv (a b : Nat) : Nat := (a + b - 1) / b

end Sys2Proof.Machine
end

