-- ==== Sys2Proof/Machine/Pairs.lean ====
section
/-! DEFINITION. Accumulation (07_reference_order.md, 06_backward_engines.md): the pair primitives of R173, the
reference order of R175, the block results of R176, the group adder of R154, the output stages of R177 and R156, and
the function evaluation of R139. -/

namespace Sys2Proof.Machine

/-- An FP32 pair: `hi` in bits [63:32], `lo` in bits [31:0] (R82). -/
structure Pair where
  hi : Nat
  lo : Nat
  deriving DecidableEq, Repr

def Pair.zero : Pair := ⟨0, 0⟩
def Pair.ofWord (w : Nat) : Pair := ⟨bitsOf w 32 32, bitsOf w 0 32⟩
def Pair.toWord (p : Pair) : Nat := p.hi * 2 ^ 32 + p.lo
def nanPair : Pair := ⟨0x7FC00000, 0⟩
def satPair (s : Bool) : Pair := ⟨maxF32 s, 0⟩

/-- `classify` of R173 with the pair's exact value (R82). -/
def Pair.num (p : Pair) : XNum :=
  let h := f32 p.hi
  let l := f32 p.lo
  match h.add l with
  | .fin s m e => if m = 0 then .fin h.sign 0 0 else .fin s m e
  | x => x

/-- The six operations of `two_sum`, in the order of R173: s, bb, aa, a - aa, b - bb, e. -/
def twoSumOps (a b : Nat) : List Nat :=
  let s := fadd a b
  let bb := fsub s a
  let aa := fsub s bb
  let x := fsub a aa
  let y := fsub b bb
  [s, bb, aa, x, y, fadd x y]
def twoSumErr (a b : Nat) : Nat :=
  let s := fadd a b
  let bb := fsub s a
  fadd (fsub a (fsub s bb)) (fsub b bb)
/-- The three operations of `fast_two_sum`: s, s - a, e. -/
def fastTwoSumOps (a b : Nat) : List Nat :=
  let s := fadd a b
  [s, fsub s a, fsub b (fsub s a)]
def fastTwoSumErr (a b : Nat) : Nat := fsub b (fsub (fadd a b) a)

/-- A pair with the `sat` and `nan` results of R173. -/
structure PairRes where
  pair : Pair
  sat : Bool
  nan : Bool
  deriving DecidableEq, Repr

/-- `pair_add` of R173, stopping at the first binary32 operation that returns an infinity. -/
def pairAdd (x y : Pair) : PairRes :=
  let cx := x.num
  let cy := y.num
  let sat := cx.isInf || cy.isInf
  if cx.isNan || cy.isNan then ⟨nanPair, sat, true⟩
  else if cx.isInf && cy.isInf && cx.sign != cy.sign then ⟨nanPair, true, true⟩
  else if sat then ⟨satPair (if cx.isInf then cx.sign else cy.sign), true, false⟩
  else
    let sh := fadd x.hi y.hi
    let sl := twoSumErr x.hi y.hi
    let th := fadd x.lo y.lo
    let tl := twoSumErr x.lo y.lo
    let c := fadd sl th
    let vh := fadd sh c
    let vl := fastTwoSumErr sh c
    let w := fadd tl vl
    let zh := fadd vh w
    let zl := fastTwoSumErr vh w
    let ops := twoSumOps x.hi y.hi ++ twoSumOps x.lo y.lo ++ [c] ++ fastTwoSumOps sh c ++ [w] ++ fastTwoSumOps vh w
    match ops.find? f32IsInf with
    | some v => ⟨satPair (f32 v).sign, true, false⟩
    | none => ⟨⟨zh, if f32IsZero zl then 0 else zl⟩, false, false⟩

/-- `as_pair` of R173. -/
def asPair (t : XNum) : Pair :=
  match t with
  | .nan => nanPair
  | .inf s => ⟨infF32 s, 0⟩
  | .fin s m e =>
    if m = 0 then Pair.zero
    else
      let c := convert (.fin s m e) fmtF32 .rne 0
      if c.sat then ⟨infF32 s, 0⟩
      else
        let l := (convert ((XNum.fin s m e).sub (f32 c.code)) fmtF32 .rne 0).code
        ⟨c.code, if f32IsZero l then 0 else l⟩

/-- `enter` of R173: one term into a pair. -/
def enter (P : Pair) (t : XNum) : PairRes :=
  if t.isZero then ⟨P, false, false⟩ else pairAdd P (asPair t)

/-- What the additions of an entry did to the flags of R174: calls that returned sat, and calls that made a pair NaN. -/
structure AccFlags where
  sat : Nat := 0
  nan : Nat := 0
  deriving DecidableEq, Repr

def AccFlags.plus (a b : AccFlags) : AccFlags := ⟨a.sat + b.sat, a.nan + b.nan⟩
/-- The flags of one call on pair `p` (R174): nan counts only from a pair that was not NaN. -/
def callFlags (p : Pair) (r : PairRes) : AccFlags :=
  ⟨if r.sat then 1 else 0, if r.nan && !p.num.isNan then 1 else 0⟩

/-- The terms entered one after another into `p`. -/
def enterAll (p : Pair) : List XNum → Pair × AccFlags
  | [] => (p, {})
  | t :: ts =>
    let r := enter p t
    let q := enterAll r.pair ts
    (q.1, (callFlags p r).plus q.2)

/-- One level of `segment_combine` (R175). -/
def combineLevel : List Pair → List Pair × AccFlags
  | x :: y :: rest =>
    let r := pairAdd x y
    let q := combineLevel rest
    (r.pair :: q.1, (callFlags x r).plus q.2)
  | xs => (xs, {})

/-- `segment_combine` of R175, on fuel: each level at least halves the list. -/
def segmentCombine : Nat → List Pair → Pair × AccFlags
  | _, [] => (Pair.zero, {})
  | _, [p] => (p, {})
  | 0, p :: _ => (p, {})
  | k + 1, ps =>
    let l := combineLevel ps
    let q := segmentCombine k l.1
    (q.1, l.2.plus q.2)

/-- The terms of one segment of 65,536 slots each (R175), on fuel. -/
def segmentsOf : Nat → List XNum → List (List XNum)
  | 0, ts => [ts]
  | k + 1, ts => if ts.length ≤ 65536 then [ts] else ts.take 65536 :: segmentsOf k (ts.drop 65536)

/-- `reduce` of R175, with whether the long-sum flag is set. -/
def reduceSlots (ts : List XNum) : Pair × AccFlags × Bool :=
  let parts := (segmentsOf ts.length ts).map (enterAll Pair.zero)
  let c := segmentCombine parts.length (parts.map (·.1))
  (c.1, parts.foldl (fun a p => a.plus p.2) c.2, decide (1 < parts.length))

/-! ### Block results of the F-engine (R128, R176) -/

/-- The exact sum of the products of two lists of element values. -/
def dot : List XNum → List XNum → XNum
  | a :: as, w :: ws => (a.mul w).add (dot as ws)
  | _, _ => .fin false 0 0

/-- The slot of one product block (R176): `ca` and `cw` are the E8M0 codes of the two blocks. -/
def blockSlot (A W : List XNum) (ca cw : Nat) : XNum :=
  if A.any XNum.isNan || W.any XNum.isNan || ca = 0xFF || cw = 0xFF then .nan
  else
    let r := dot A W
    if r.isZero then .fin false 0 0 else r.scale ((ca : Int) + cw - 254)

/-- The slot of one index of a mirror pass (R179). -/
def mirrorSlot (a b : XNum) : XNum := a.mul b

/-! ### The group adder (R154) -/

/-- The significand and exponent of a finite G value with its hidden bit. -/
def gParts : XNum → Nat × Int
  | .fin _ m e => (m, e)
  | _ => (0, 0)

/-- The terms of a group: sign, shifted product, exponent. -/
def gTerms (sh : Nat) : List XNum → List XNum → List (Bool × Nat × Int)
  | a :: as, b :: bs =>
    let (ma, ea) := gParts a
    let (mb, eb) := gParts b
    if ma = 0 ∨ mb = 0 then gTerms sh as bs
    else (a.sign != b.sign, (ma * mb) <<< sh, ea + eb - sh) :: gTerms sh as bs
  | _, _ => []

/-- `g_group` of R154 on two lists of G values of widths `wa` and `wb`. -/
def gGroup (a b : List XNum) (wa wb : Nat) (escale : Int) : XNum :=
  let prods := List.zipWith XNum.mul a b
  if prods.any XNum.isNan then .nan
  else
    let infs := (prods.filter XNum.isInf).map XNum.sign
    if infs.contains true && infs.contains false then .nan
    else match infs with
      | s :: _ => .inf s
      | [] =>
        let ts := gTerms (16 - wa - wb) a b
        match ts with
        | [] => .fin false 0 0
        | t :: rest =>
          let emax := rest.foldl (fun e x => max e x.2.2) t.2.2
          let S : Int := ts.foldl
            (fun acc x =>
              let T : Int := if x.1 then -((x.2.1 <<< 11 : Nat) : Int) else ((x.2.1 <<< 11 : Nat) : Int)
              acc + T / (2 ^ (emax - x.2.2).toNat : Int)) 0
          .fin (decide (S < 0)) S.natAbs (emax - 11 + escale)

/-- The width of a G format in R154: 3 for G8, 8 for G16. -/
def gWidth (fmt : Nat) : Nat := if fmt = 0x30 then 3 else 8

/-! ### Function evaluation (R139) -/

/-- `fma_last` of R139: its result and whether the rounding saturated. -/
def fmaLast (last : RMode) (a b c : Nat) : Nat × Bool :=
  let v := fmaNum a b c
  if v.isNan then (nanF32, false) else roundF32 last v

/-- `fn_eval` of R139. `R` reads the 32-bit word of the record at an offset. -/
def fnEval (R : Nat → Nat) (x : Nat) (last : RMode) : Nat × Bool :=
  if f32IsNan x then (nanF32, false)
  else if (f32 x).lt (f32 (R 0x00)) then
    (if f32IsZero (R 0x0C) then (R 0x10, false) else fmaLast last (R 0x0C) x (R 0x10))
  else if (f32 (R 0x04)).le (f32 x) then
    (if f32IsZero (R 0x14) then (R 0x18, false) else fmaLast last (R 0x14) x (R 0x18))
  else
    let u := fmul (fsub x (R 0x00)) (R 0x08)
    let j : Nat := if f32IsInf u then 511 else min (f32 u).floor.toNat 511
    let f := fsub u (rne32 (.ofNat j))
    let seg := 0x40 + 16 * j
    fmaLast last (fma32 (R (seg + 8)) f (R (seg + 4))) f (R seg)

/-! ### Output stages -/

/-- `fwd_out` of R177 with rescale words `mul` and `off`; the Bool is the sat of the last rounding. -/
def fwdOut (P : Pair) (tsA tsW mul off : Nat) (last : RMode) : Nat × Bool :=
  if P.num.isNan then (nanF32, false)
  else
    let k := fmul (fmul tsA tsW) mul
    let u := fma32 P.lo k off
    fmaLast last P.hi k u

/-- The clamp of R118 by exact comparison; NaN passes. -/
def clampOut (v sat clamp : Nat) : Nat :=
  if f32IsNan v then v
  else match sat with
    | 1 => if (f32 clamp).lt (f32 v) then clamp else if (f32 v).lt (f32 (fneg clamp)) then fneg clamp else v
    | 2 => if (f32 clamp).lt (f32 v) then clamp else if (f32 v).lt (f32 0) then 0 else v
    | _ => v

/-- The flags an FP32 output takes (R471). -/
def f32Flags (w : Nat) : Conv := ⟨w, f32IsInf w, false, f32IsNan w⟩

/-- An FP32 intermediate written in the output format: as it stands in FP32 (R471), else by the second step of R89. -/
def finish (v : Nat) (sat1 : Bool) (fmt : Nat) (mode : RMode) (draw : Nat) : Conv :=
  if fmt = 0x01 then f32Flags v
  else
    let c := convert (f32 v) ((fmtOf fmt).getD fmtF32) mode draw
    { c with sat := c.sat || sat1 }

/-- The value `v` of `bwd_out` (R156) and the sat of its last rounding; `d` is the derivative value when DERIV is set. -/
def bwdVal (P : Pair) (t : Nat) (d : Option Nat) (last : RMode) : Nat × Bool :=
  let lt := fmul P.lo t
  match d with
  | some d =>
    let x := (f32 (fma32 P.hi t lt)).mul (f32 d)
    if x.isNan then (nanF32, false) else roundF32 last x
  | none => fmaLast last P.hi t lt

/-- The last rounding of a result that goes on to `fmt` (R142, R156, R177). -/
def lastOf (fmt : Nat) : RMode := if fmt = 0x01 then .rne else .rto

/-- `bwd_out` of R156. -/
def bwdOut (P : Pair) (t : Nat) (d : Option Nat) (fmt : Nat) (mode : RMode) (draw : Nat) : Conv :=
  let v := bwdVal P t d (lastOf fmt)
  finish v.1 (fmt != 0x01 && v.2) fmt mode draw

/-- The exact value of a scaled element: code value times block scale times scope scale (R94). -/
def scaledNum (fmt code c ts : Nat) : XNum :=
  if c = 0xFF ∨ !validTs ts then .nan
  else ((((fmtOf fmt).getD fmtF32).decode code).scale ((c : Int) - 127)).mul (f32 ts)

end Sys2Proof.Machine
end

