-- ==== Sys2Proof/Machine/Operands.lean ====
section
/-! DEFINITION. What an entry reads and writes: table regions (R35–R40), entries and parameter blocks (R43), stream
descriptors (R264–R267), Sluice words (R274, R275), packing (R70) and scale words (R99, R104). -/

namespace Sys2Proof.Machine

/-! ### Table handles and regions (R36, R40, R295, R469) -/

def hKind (h : Nat) : Nat := bitsOf h 60 4
def hScope (h : Nat) : Nat := bitsOf h 58 2
def hId (h : Nat) : Nat := bitsOf h 50 8
def hOffset (h : Nat) : Nat := bitsOf h 16 24
def hLength (h : Nat) : Nat := bitsOf h 0 16
/-- First physical byte of a handle's region. -/
def State.regionBase (s : State) (h : Nat) : Nat := s.reg Obj.memTblBase + hOffset h * 65536
def hBytes (h : Nat) : Nat := hLength h * 65536
/-- The scope of a kind: 0 device, 1 die, 2 cluster, 3 core (R35). -/
def kindScope (kind : Nat) : Nat :=
  match kind with
  | 2 | 3 | 4 | 6 => 2
  | 5 => 3
  | 8 => 1
  | _ => 0
/-- The SCOPE_ID of a unit in a scope (R36): clusters shift over the core field; dies are 0–5. -/
def scopeId (scope unit : Nat) : Nat :=
  match scope with
  | 2 => unit * 16
  | 0 => 0
  | _ => unit

/-- The table of a kind that a group reads for a unit (R469): one that is active and that the group has switched to,
or the one it replaced that the group still reads. Group 0 stands for no group. -/
def State.table (s : State) (kind unit group : Nat) : Option TableRec :=
  s.tables.find? fun t =>
    hKind t.handle == kind && hId t.handle == scopeId (kindScope kind) unit && t.active &&
      (if t.oldFor.isEmpty then !t.waitGroups.contains group else t.oldFor.contains group)
/-- The bytes of a region, as memory holds them. -/
def State.tblRd (s : State) (t : TableRec) (off n : Nat) : Nat := s.memRd (s.regionBase t.handle + off) n
/-- Whether bytes of a region differ from their measurement (R40). -/
def State.tblDiffers (s : State) (t : TableRec) (off n : Nat) : Bool :=
  (List.range n).any fun i =>
    decide ((memByte s.mem (s.regionBase t.handle + off + i)).toNat ≠ smGet zeroWord t.snap (off + i))

/-! ### Entries and parameter blocks (R43) -/

/-- The fields of a 128-bit entry (R43). -/
def entryOf (w : Nat) : Entry :=
  { op := bitsOf w 120 8, fmtA := bitsOf w 112 8, fmtB := bitsOf w 104 8, orient := bitsOf w 103 1,
    earliest := bitsOf w 72 24, deadline := bitsOf w 48 24, wait := bitsOf w 40 8, out := bitsOf w 32 8,
    param := bitsOf w 0 32 }
/-- Field of `size` bytes at byte `off` of a parameter block. -/
def fld (blk off size : Nat) : Nat := bitsOf blk (8 * off) (8 * size)
/-- The active schedule image of a core's cluster. -/
def State.image (s : State) (core : Nat) : Option TableRec := s.table 6 (clusterOf core) (s.role (clusterOf core))
def State.entryAt (s : State) (t : TableRec) (off : Nat) : Entry := entryOf (s.tblRd t off 16)
/-- The parameter block of an entry, 128 bytes of it. -/
def State.blockAt (s : State) (t : TableRec) (e : Entry) : Nat := s.tblRd t (64 * e.param) 128
/-- Bytes of a class's parameter block. -/
def blockBytes (op : Nat) : Nat := if op = 1 ∨ op = 2 ∨ op = 3 ∨ op = 4 ∨ op = 6 then 128 else 64
/-- A field of layer record `l` of the active kind 0x9 table (R191). -/
def State.layerRec (s : State) (l off size : Nat) : Nat :=
  match s.table 9 0 1 with
  | some t => s.tblRd t (0x40 + 64 * l + off) size
  | none => 0
/-- LAYERS of the active kind 0x9 table (R191). -/
def State.layerCount (s : State) : Nat :=
  match s.table 9 0 1 with
  | some t => s.tblRd t 6 2
  | none => 0
/-- What reading every layer record reads of the table (R40). -/
def State.layerReads (s : State) : List (TableRec × Nat × Nat) :=
  match s.table 9 0 1 with
  | some t => [(t, 0, 0x40 + 64 * s.layerCount)]
  | none => []
/-- The first of the reads whose bytes differ from their measurement (R40). -/
def firstDiffer (s : State) (reads : List (TableRec × Nat × Nat)) : Option TableRec :=
  (reads.find? fun r => s.tblDiffers r.1 r.2.1 r.2.2).map (·.1)
/-- A region that differed is not used again (R40). -/
def anyBad (reads : List (TableRec × Nat × Nat)) : Bool := reads.any fun r => r.1.bad
/-- `n` bytes at `off` of the bytes that were measured, as a little-endian number. -/
def snapRd (t : TableRec) (off : Nat) : Nat → Nat
  | 0 => 0
  | n + 1 => smGet zeroWord t.snap off + 256 * snapRd t (off + 1) n
/-- What the WAIT index of a core's entry names: Sluices and commit tokens. -/
def TableRec.waitOf (t : TableRec) (core : Nat) (w : Nat) : List Nat × List Nat :=
  (((t.layout.waits.drop (core % 16)).headD []).drop w).headD ([], [])

/-- The scale parameter field (R99). -/
structure ScaleP where
  fmt : Nat
  scope : Nat
  src : Nat
  geom : Nat
  rmode : Nat
  depth : Nat
  slot : Nat
  tensor : Nat
  fixedTs : Nat
  share : Nat
  deriving DecidableEq, Repr
def scaleP (w : Nat) : ScaleP :=
  { fmt := bitsOf w 120 8, scope := bitsOf w 118 2, src := bitsOf w 116 2, geom := bitsOf w 114 2, rmode := bitsOf w 112 2,
    depth := bitsOf w 108 4, slot := bitsOf w 99 9, tensor := bitsOf w 72 24, fixedTs := bitsOf w 32 32,
    share := bitsOf w 16 16 }
/-- Block length of a geometry along the reduction (R96, R97): a square tile counts as 32. -/
def blockLen (geom : Nat) : Nat :=
  match geom with
  | 1 => 64
  | 2 => 128
  | _ => 32

/-- The outlier list at an image offset in 64-byte units (R114): reduction indices in order. -/
def State.outliers (s : State) (t : TableRec) (off : Nat) : List Nat :=
  if off = 0 then []
  else (List.range (s.tblRd t (64 * off) 1)).map fun i => s.tblRd t (64 * off + 8 + 4 * i) 4

/-- What reading that list reads of the image (R40): nothing for no list. -/
def State.outlierReads (s : State) (t : TableRec) (off : Nat) : List (TableRec × Nat × Nat) :=
  if off = 0 then [] else [(t, 64 * off, 8 + 4 * s.tblRd t (64 * off) 1)]

/-- A function or derivative record of the cluster's active table, as a reader of its 32-bit words (R138, R157). -/
def State.fnRecord (s : State) (kind core f : Nat) : Option (Nat → Nat) :=
  (s.table kind (clusterOf core) (s.role (clusterOf core))).bind fun t =>
    if f < s.tblRd t 6 2 then some fun o => s.tblRd t (0x40 + 8256 * f + o) 4 else none
/-- A rescale entry of the cluster's active table (R117). -/
def State.rescale (s : State) (core c : Nat) : Option Nat :=
  (s.table 4 (clusterOf core) (s.role (clusterOf core))).bind fun t =>
    if c < s.tblRd t 6 2 then some (s.tblRd t (0x40 + 16 * c) 16) else none
/-- What reading `n` rescale entries from `c` on reads of the table (R40). -/
def State.rescaleReads (s : State) (core c n : Nat) : List (TableRec × Nat × Nat) :=
  match s.table 4 (clusterOf core) (s.role (clusterOf core)) with
  | some t => [(t, 6, 2), (t, 0x40 + 16 * c, 16 * n)]
  | none => []
/-- What evaluating a function or derivative record reads of its table (R40). -/
def State.fnReads (s : State) (kind core f : Nat) : List (TableRec × Nat × Nat) :=
  match s.table kind (clusterOf core) (s.role (clusterOf core)) with
  | some t => [(t, 6, 2), (t, 0x40 + 8256 * f, 8256)]
  | none => []
def rsMul (e : Nat) : Nat := bitsOf e 96 32
def rsOff (e : Nat) : Nat := bitsOf e 64 32
def rsFmt (e : Nat) : Nat := bitsOf e 56 8
def rsSat (e : Nat) : Nat := bitsOf e 54 2
def rsMode (e : Nat) : Nat := bitsOf e 52 2
def rsClamp (e : Nat) : Nat := bitsOf e 16 32

/-- The gradient exponent of a layer; 0xFFFF has exponent 0 (R156). -/
def State.gradK (s : State) (l : Nat) : Int := if l = 0xFFFF then 0 else (s.layer l).k

/-! ### Stream descriptors (R265–R267) -/

/-- A stream descriptor (R265). -/
structure Desc where
  base0 : Nat
  base1 : Nat
  count : List Nat
  stride : List Int
  elemFmt : Nat
  sluice : Nat
  tc : Nat
  prio : Nat
  kind : Nat
  store : Bool
  persist : Bool
  pktDim : Nat
  wordDim : Nat
  scaleLink : Nat
  aux : Nat
  deriving DecidableEq, Repr

/-- A 64-bit word read as a signed number. -/
def sint64 (w : Nat) : Int := if w < 2 ^ 63 then w else (w : Int) - 2 ^ 64
def descFrom (w : Nat) : Desc :=
  { base0 := fld w 0 8, base1 := fld w 8 8, count := (List.range 5).map fun i => fld w (0x10 + 4 * i) 4,
    stride := (List.range 4).map fun i => sint64 (fld w (0x28 + 8 * i) 8), elemFmt := fld w 0x48 1,
    sluice := fld w 0x49 1 % 16, tc := fld w 0x4A 1, prio := fld w 0x4B 1, kind := fld w 0x4C 1,
    store := bitOf (fld w 0x4D 1) 0, persist := bitOf (fld w 0x4D 1) 1, pktDim := bitsOf (fld w 0x4D 1) 2 3,
    wordDim := bitsOf (fld w 0x4D 1) 5 3, scaleLink := fld w 0x4E 1, aux := fld w 0x50 8 }
/-- The descriptor of a core's context in its active table (R264). -/
def State.desc (s : State) (core ctx : Nat) : Option Desc :=
  (s.table 5 core (s.role (clusterOf core))).bind fun t =>
    if ctx < s.tblRd t 6 2 then some (descFrom (s.tblRd t (0x80 + 128 * ctx) 128)) else none
/-- Width in bits of a stream's elements: format code 0x40 moves whole scale words (R265). -/
def Desc.width (d : Desc) : Nat := if d.elemFmt = 0x40 then 512 else fmtBits d.elemFmt
def Desc.cnt (d : Desc) (i : Nat) : Nat := (d.count.drop i).headD 1
def Desc.str (d : Desc) (i : Nat) : Int := (d.stride.drop (i - 1)).headD 0
/-- Elements in one index of dimension `k`: the product of the counts below it. -/
def Desc.below (d : Desc) (k : Nat) : Nat := (d.count.take k).foldl (· * ·) 1
/-- Elements of a packet and of a word group (R266). -/
def Desc.pktElems (d : Desc) : Nat := d.below d.pktDim
def Desc.groupElems (d : Desc) : Nat := if d.wordDim = 0 then d.pktElems else d.below d.wordDim
/-- Packets of an arming. -/
def Desc.numPkts (d : Desc) : Nat := d.below 5 / max 1 d.pktElems
/-- Words of a packet (R266). -/
def Desc.groupWords (d : Desc) : Nat := ceilDiv (d.groupElems * d.width) 512
def Desc.pktWords (d : Desc) : Nat := d.pktElems / max 1 d.groupElems * d.groupWords

/-- Whether a context is armed (R290): every state but DISARMED. -/
def Ctx.armed (c : Ctx) : Bool := c.st != .disarmed
/-- The armed context whose descriptor names the Sluice, with its descriptor (R278, R286). -/
def State.ctxOn (s : State) (core sl : Nat) : Option (Nat × Desc) :=
  (List.range 48).findSome? fun i =>
    if ((s.core core).ctx i).armed then
      (s.desc core i).bind fun d => if d.sluice = sl then some (i, d) else none
    else none

/-! ### Packing (R70) and Sluice words -/

/-- Element `i` of a packed sequence of `w`-bit elements. -/
def elemAt (bits w i : Nat) : Nat := bitsOf bits (w * i) w
/-- The little-endian number of a packed sequence. -/
def packBits (w : Nat) : List Nat → Nat
  | [] => 0
  | c :: cs => c % 2 ^ w + 2 ^ w * packBits w cs
/-- A number cut into `k` 512-bit words. -/
def wordsOf : Nat → Nat → List Nat
  | 0, _ => []
  | k + 1, b => b % 2 ^ 512 :: wordsOf k (b / 2 ^ 512)
/-- A list cut into runs of `n`, on fuel. -/
def chunks {α : Type} (n : Nat) : Nat → List α → List (List α)
  | 0, _ => []
  | k + 1, xs => if xs.isEmpty then [] else xs.take n :: chunks n k (xs.drop n)
def chunksOf {α : Type} (n : Nat) (xs : List α) : List (List α) := chunks (max 1 n) xs.length xs
/-- The last word of a packet gets LAST = 1. -/
def markLast : List Nat → List SWord
  | [] => []
  | [w] => [{ data := w, last := true }]
  | w :: ws => { data := w } :: markLast ws
/-- The words of one packet from its element codes. -/
def packetWords (w group : Nat) (codes : List Nat) : List SWord :=
  markLast ((chunksOf group codes).flatMap fun g => wordsOf (ceilDiv (g.length * w) 512) (packBits w g))
/-- The words an engine writes for element codes of width `w`: packets and words follow the armed descriptor (R266);
with none armed, packets of up to 256 words packed without gaps (DEDUCED, log 16). -/
def packetize (d : Option Desc) (w : Nat) (codes : List Nat) : List SWord :=
  match d with
  | some d => (chunksOf d.pktElems codes).flatMap (packetWords w d.groupElems)
  | none => (chunksOf (256 * 512 / max 1 w) codes).flatMap fun p => packetWords w p.length p

/-- Words committed and not yet consumed. -/
def Sluice.avail (q : Sluice) : Nat := sumOf (q.packets.map List.length) - q.taken
/-- Words in use: committed packets and the space reserved for the one in progress (R275). -/
def Sluice.used (q : Sluice) : Nat := sumOf (q.packets.map List.length) + max q.rsv q.prog.length
def Sluice.room (q : Sluice) : Nat := q.size - q.used
/-- Packets released once their last word is consumed (R275). -/
def releaseDone : List (List SWord) → Nat → List (List SWord) × Nat
  | [], t => ([], t)
  | p :: ps, t => if p.length ≤ t then releaseDone ps (t - p.length) else (p :: ps, t)
/-- Up to `n` committed words taken in commit order. -/
def Sluice.take (q : Sluice) (n : Nat) : List SWord × Sluice :=
  let ws := (q.packets.flatten.drop q.taken).take n
  let r := releaseDone q.packets (q.taken + ws.length)
  (ws, { q with packets := r.1, taken := r.2 })
/-- A packet committed; one that was dropped leaves an empty place, so that the next keeps its own (R247, R278). -/
def Sluice.commit (q : Sluice) (p : List SWord) : Sluice := { q with packets := q.packets ++ [p.filter fun w => !w.void] }

/-- The words of the first packet of a queue of output words for a Sluice, through LAST. -/
def headPacket : List SWord → List SWord
  | [] => []
  | w :: ws => if w.last then [w] else w :: headPacket ws

/-- An armed store stream accepts writer words only once it has started (R271) and while no error halts it (R276); a pending FLUSH stops
the writer at the packet boundary (R278). -/
def State.accepts (s : State) (core sl : Nat) : Bool :=
  !((s.core core).sluice sl).flush &&
    match s.ctxOn core sl with
    | some (i, d) => !d.store || (((s.core core).ctx i).started && ((s.core core).ctx i).st != .haltError)
    | none => true

/-- Output words enter their Sluices, packet by packet in order, while there is room (R275). On fuel. -/
def pushOut (core : Nat) : Nat → List (Nat × SWord) → State → List (Nat × SWord) × State
  | 0, q, s => (q, s)
  | _ + 1, [], s => ([], s)
  | k + 1, (sl, w) :: q, s =>
    let pkt := headPacket (w :: (q.takeWhile fun x => x.1 == sl).map (·.2))
    if pkt.length ≤ ((s.core core).sluice sl).room && s.accepts core sl then
      pushOut core k (q.drop (pkt.length - 1))
        (s.modCore core fun c => { c.modSluice sl (fun z => z.commit pkt) with moved := true, preempts := 0 })
    else ((sl, w) :: q, s)

/-- Output codes of an entry as words for a Sluice: nothing is written to a Sluice that does not exist (0xFF none). -/
def State.outWords (s : State) (core sl w : Nat) (codes : List Nat) : List (Nat × SWord) :=
  if sl < 16 then (packetize ((s.ctxOn core sl).map (·.2)) w codes).map fun x => (sl, x) else []
/-- Whole 64-byte words (scale words, counter words, records) for a Sluice. -/
def State.outLines (s : State) (core sl : Nat) (words : List Nat) : List (Nat × SWord) := s.outWords core sl 512 words
/-- The Sluice of the scale stream linked to the stream armed on a Sluice (R268); 0xFF none. -/
def State.linkedSluice (s : State) (core sl : Nat) : Nat :=
  match s.ctxOn core sl with
  | some (_, d) => if d.scaleLink = 0xFF then 0xFF else ((s.desc core d.scaleLink).map (·.sluice)).getD 0xFF
  | none => 0xFF

/-! ### Scale words (R104, R107) -/

def swTag (w : Nat) : Nat := fld w 0 1
def swCount (w : Nat) : Nat := fld w 1 1
def swZmask (w : Nat) : Nat := fld w 4 4
def swTs (w : Nat) : Nat := fld w 8 4
def swScale (w j : Nat) : Nat := fld w (0x10 + j) 1
/-- The position of block `b` in a scale word, or none: a scale-skew fault (R107). -/
def swPos (w b : Nat) : Option Nat :=
  let j := (b % 256 + 256 - swTag w) % 256
  if j < swCount w then some j else none
/-- A scale word of R104. -/
def mkScaleWord (tag count zmask ts : Nat) (scales : List Nat) : Nat :=
  tag % 256 + count * 2 ^ 8 + zmask * 2 ^ 32 + ts * 2 ^ 64 + packBits 8 scales * 2 ^ 128
/-- The scale and the zero mark a block takes from a scale word. -/
structure BlockScale where
  c : Nat
  zero : Bool
  ts : Nat
  deriving DecidableEq, Repr
def blockScale (w b : Nat) : Option BlockScale :=
  (swPos w b).map fun j => ⟨swScale w j, bitOf (swZmask w) j, swTs w⟩

/-! ### Active tables that differ from their measurement (R40) -/

/-- The first read of an active region that differs from its measurement, reported once; the region is not used again. -/
def mismatchBy (s : State) (unit : Nat) (t : TableRec) : State :=
  if t.bad then s
  else raise (s.withTables (s.tables.map fun x => if x.handle = t.handle && x.active then { x with bad := true } else x)) 0x4A03 .stepAbort unit
def mismatch (s : State) (core : Nat) (t : TableRec) : State := mismatchBy s (uCore core) t
/-- Reads of active regions made by a unit: the first that differs from its measurement is reported. -/
def checkReads (s : State) (unit : Nat) (reads : List (TableRec × Nat × Nat)) : State :=
  match firstDiffer s (reads.filter fun r => !r.1.bad) with
  | some t => mismatchBy s unit t
  | none => s

end Sys2Proof.Machine
end

