-- ==== Sys2Proof/Machine/Ledger.lean ====
section
/-! DEFINITION. The stream and collective entries of the progress ledger (R388–R390). -/

namespace Sys2Proof.Machine

/-- `STRM.STATE` (R290). -/
def SState.code : SState → Nat
  | .disarmed => 0
  | .running => 1
  | .waitSpace => 2
  | .waitCredit => 3
  | .done => 4
  | .haltFault => 5
  | .haltError => 6
/-- A stream entry: POS, PACKETS, STATE, FLAGS. -/
def streamEntry (pos packets state : Nat) (dir inFlight : Bool) (cause : Nat) : Nat :=
  pos % 2 ^ 64 + packets % 2 ^ 32 * 2 ^ 64 + state * 2 ^ 96 +
    ((if dir then 1 else 0) + (if inFlight then 2 else 0) + cause % 8 * 4) * 2 ^ 104
def State.ledgerOf (s : State) (core i : Nat) : Nat := smGet zeroWord s.ledger.streams (48 * core + i)
/-- A stream entry written; a frozen ledger takes nothing more (R388). -/
def ledgerStream (s : State) (core i v : Nat) : State :=
  if s.ledger.frozen then s
  else (s.withLedger { s.ledger with streams := smSet zeroWord s.ledger.streams (48 * core + i) v, beat := s.beat })
/-- IN_FLIGHT set before the first memory write of a store packet. -/
def ledgerFlight (s : State) (core i : Nat) : State := ledgerStream s core i (s.ledgerOf core i ||| 3 * 2 ^ 104)
/-- A collective entry that nothing has written: LAST_HOP none. -/
def noColl : Nat → Nat := fun _ => 0xFF * 2 ^ 96
/-- A collective entry written: DONE, STEP, LAST_HOP, KIND. -/
def ledgerColl (s : State) (k done step hop kind : Nat) : State :=
  if s.ledger.frozen then s
  else (s.withLedger { s.ledger with colls := smSet noColl s.ledger.colls k (done % 2 ^ 64 + step % 2 ^ 32 * 2 ^ 64 + hop * 2 ^ 96 + kind * 2 ^ 104), beat := s.beat })

end Sys2Proof.Machine
end

