-- ==== Sys2Proof/Machine/Dictionary.lean ====
section
/-! DEFINITION. The object dictionary: how a request is taken, answered and stored (R423, R424, R427–R430). -/

namespace Sys2Proof.Machine

/-! ### Status codes (R429) -/

def stOk : Nat := 0
def stNoObject : Nat := 1
def stAccess : Nat := 2
def stLength : Nat := 3
def stRange : Nat := 4
def stReserved : Nat := 5
def stState : Nat := 6
def stAuth : Nat := 7
def stBusy : Nat := 8
def stMalformed : Nat := 9

/-- What the handler of a request answers: the status, the value of a read, and the state it leaves. -/
structure Ans where
  status : Nat
  st : State
  value : List Byte := []
def Ans.ok (s : State) : Ans := ⟨stOk, s, []⟩
def Ans.refuse (status : Nat) (s : State) : Ans := ⟨status, s, []⟩

/-- A message sent. -/
def State.emit (s : State) (o : Out) : State := (s.withOutbox (s.outbox ++ [o]))

/-- Whether port `p` is UP (R352). -/
def State.portUp (s : State) (p : Nat) : Bool := s.reg (Obj.ethPState p) == 2
/-- The ports of a network, 0 A and 1 B, and those that are UP (R350, R354). -/
def netPorts (net : Nat) : List Nat := (List.range 4).map (4 * net + ·)
def State.activePorts (s : State) (net : Nat) : List Nat := (netPorts net).filter s.portUp
/-- The device runs: it is not held in reset, and no fatal fault on EW has stopped it (R17, R472). -/
def State.running (s : State) : Bool := !s.pins.inReset && !s.dead
/-- Whether a path to the dictionary answers: not in reset, in SLEEP, during a warm restart or after a fatal fault on EW;
the field network from boot stage 4, the in-band path from stage 6 while network B is up, both in recovery (R408, R427,
R440, R441, R446, R448). -/
def State.serving (s : State) (p : Path) : Bool :=
  s.running && !s.power.sleeping && !s.mgt.restarting &&
    match p with
    | .field => decide (4 ≤ s.reg Obj.bootStage)
    | .inband => decide (6 ≤ s.reg Obj.bootStage) && !(s.activePorts 1).isEmpty

/-- What the boot ROM or a recovery image answers in recovery (R441); none where the request is served. -/
def recoveryGate (s : State) (op obj : Nat) : Option Nat :=
  if s.reg Obj.bootStage ≠ 8 then none
  else if s.reg Obj.bootRecovery = 1 then
    (if obj / 2 ^ 20 = 1 ∨ obj / 2 ^ 20 = 9 then none else some stNoObject)
  else
    let open_ := [Obj.idPart, Obj.idSerial, Obj.idRomVersion, Obj.bootStage, Obj.bootCount, Obj.secIdState,
                  ob 0x1000 0, ob 0x1100 0, ob 0x9000 0]
    if op = 1 ∧ open_.contains obj then none else some stState

/-- The stored response to a request answered in the last 2 s (R430). -/
def storedFor (s : State) (q : Req) : Option StoredResp :=
  s.mgt.stored.find? fun r => r.path == q.path && r.addr == q.addr.toNat && r.port == q.port.toNat &&
    r.tag == q.tag.toNat && decide (s.beat < r.beat + 2000000)

/-- A request answered: the response stored for 2 s, counted and sent (R430). -/
def answered (beat : Nat) (q : Req) (op obj : Nat) (a : Ans) : State :=
  let r : StoredResp := { path := q.path, addr := q.addr.toNat, port := q.port.toNat, tag := q.tag.toNat,
                          beat := beat, op := op, obj := obj, status := a.status, value := a.value }
  ((a.st.withMgt { a.st.mgt with stored := (r :: a.st.mgt.stored).take 256 }).bump Obj.mgtRequests 1).emit
    (.response r.path r.addr r.port r.tag (op + 0x80) obj r.status r.value)

/-- A request of operation `op` on an object, taken by the rules of R430 and given to its handler. -/
def request (s : State) (q : Req) (op obj : Nat) (f : State → Ans) : State :=
  if !s.serving q.path then s
  else
    match storedFor s q with
    | some r => s.emit (.response r.path r.addr r.port r.tag (r.op + 0x80) r.obj r.status r.value)
    | none =>
      if q.queued.val = 256 then
        s.emit (.response q.path q.addr.toNat q.port.toNat q.tag.toNat (op + 0x80) obj stBusy [])
      else
        answered s.beat q op obj (match recoveryGate s op obj with
          | some status => Ans.refuse status s
          | none => f s)

/-- A plain WRITE of an object (R424, R427): refused in-band while `MGT.INBAND_WRITE` reads 0. -/
def dictWrite (s : State) (q : Req) (obj : Nat) (f : State → Ans) : State :=
  request s q 0x02 obj fun s =>
    if q.path == .inband && s.reg Obj.mgtInbandWrite = 0 then Ans.refuse stAccess s else f s

/-- A write of 1 that starts an action: any other value is out of range. -/
def dictAction (s : State) (q : Req) (obj v : Nat) (f : State → Ans) : State :=
  dictWrite s q obj fun s => if v = 1 then f s else Ans.refuse stRange s

end Sys2Proof.Machine
end

