-- ==== Sys2Proof/Machine/Domains.lean ====
section
/-! DEFINITION. The power domains: ids, states and contents (R402, R403), the refusal of a request (R404), and the
fenced cores of a cluster (R375, R377, R438). -/

namespace Sys2Proof.Machine

/-! ### Ids (R402) -/

def domCore (n : Nat) : Nat := n
def domFabric (cl : Nat) : Nat := 0x100 + cl
def domSram (cl : Nat) : Nat := 0x110 + cl
def domHbm (stack : Nat) : Nat := 0x120 + stack
def domRill (p : Nat) : Nat := 0x130 + p
def domEth (p : Nat) : Nat := 0x138 + p
def domLpddr (i : Nat) : Nat := 0x140 + i
def domCxl (i : Nat) : Nat := 0x142 + i
def domAlwaysOn : Nat := 0x1FF
/-- Every domain but the always-on one. -/
def allDomains : List Nat :=
  List.range 256 ++ (List.range 16).map (0x100 + ·) ++ (List.range 16).map (0x110 + ·) ++ (List.range 16).map (0x120 + ·) ++
    (List.range 6).map (0x130 + ·) ++ (List.range 8).map (0x138 + ·) ++ (List.range 4).map (0x140 + ·)
def isDomain (id : Nat) : Bool :=
  decide (id < 0x136) || (decide (0x138 ≤ id) && decide (id < 0x144)) || id == domAlwaysOn
/-- Ports and CXL controllers have no RETENTION. -/
def hasRetention (id : Nat) : Bool := decide (id < 0x130) || id == 0x140 || id == 0x141
/-- The DVFS domains (R409). -/
def isDvfs (id : Nat) : Bool := decide (id < 0x110)
/-- The domain that must be ON for a domain to be ON. -/
def parentOf (id : Nat) : Option Nat :=
  if id < 0x100 then some (domFabric (id / 16)) else if id < 0x110 then some (id + 0x10) else none
/-- The domains that depend on a domain. -/
def childrenOf (id : Nat) : List Nat :=
  if 0x100 ≤ id ∧ id < 0x110 then coresOf (id - 0x100) else if 0x110 ≤ id ∧ id < 0x120 then [id - 0x10] else []
/-- The domains that run at a requested frequency and voltage: the DVFS domains, and stacked SRAM, which follows the requests of its cluster
fabric (R409). -/
def isPaced (id : Nat) : Bool := decide (id < 0x120)
/-- The domain whose requests a domain follows. -/
def requester (id : Nat) : Nat := if id < 0x110 then id else id - 0x10
/-- The domains that follow the requests of a DVFS domain. -/
def followers (id : Nat) : List Nat := if id < 0x100 then [id] else [id, id + 0x10]
/-- The domains with body bias and assists: transposable weight stores with their cores, and stacked SRAM (R402). -/
def isPrivileged (id : Nat) : Bool := decide (id < 0x100) || (decide (0x110 ≤ id) && decide (id < 0x120))
/-- The die of a core, a cluster fabric or a stacked SRAM. -/
def dieOfDomain (id : Nat) : Nat := if id < 0x100 then id / 64 else id % 16 / 4
/-- The cluster of a core or cluster fabric domain. -/
def clusterOfDomain (id : Nat) : Nat := if id < 0x100 then id / 16 else id - 0x100

def dsOff : Nat := 0
def dsRetention : Nat := 1
def dsOn : Nat := 2
def dsEntering : Nat := 3
def dsLeaving : Nat := 4
/-- `PWR.DOM_STATE` of a domain; the always-on domain never leaves ON. -/
def State.domState (s : State) (id : Nat) : Nat := if id = domAlwaysOn then dsOn else s.reg (ofUnit Obj.pwrDomState id)
def State.domOn (s : State) (id : Nat) : Bool := s.domState id == dsOn
def State.setDom (s : State) (id v : Nat) : State := s.setReg (ofUnit Obj.pwrDomState id) v

/-! ### Refusals (R404, R405) -/

def rfRange : Nat := 0x01
def rfOrder : Nat := 0x02
def rfParent : Nat := 0x03
def rfChild : Nat := 0x04
def rfRole : Nat := 0x05
def rfFenced : Nat := 0x06
def rfForward : Nat := 0x07
def rfLastPort : Nat := 0x08
def rfStruct : Nat := 0x09
def rfStop : Nat := 0x0A
def rfSupply : Nat := 0x0B
def rfSleep : Nat := 0x0C
/-- A refused request counted, recorded and reported (R404). -/
def domRefuse (s : State) (id refuser : Nat) : State :=
  raise ((s.bump (ofUnit Obj.pwrDomRefused id) 1).setReg (ofUnit Obj.pwrDomLastRefuser id) refuser) 0x2A10 .note (uDomain id) refuser
/-- The status that answers a refused write. -/
def refuserStatus (refuser : Nat) : Nat := if refuser = rfRange then stRange else stState

/-! ### Units of the module (R438) -/

/-- Whether a unit of the map is present: bits of `CFG.UNIT_MAP`. -/
def State.mapBit (s : State) (byte bit : Nat) : Bool := bitOf (s.reg Obj.cfgUnitMap) (8 * byte + bit)
def State.corePresent (s : State) (n : Nat) : Bool := s.mapBit 0 n
/-- Whether a domain's units are present. -/
def State.domPresent (s : State) (id : Nat) : Bool :=
  if id < 0x100 then s.corePresent id
  else if id < 0x120 then (coresOf (id % 16)).any s.corePresent
  else if id < 0x130 then s.mapBit 0x20 (id - 0x120)
  else if id < 0x136 then s.mapBit 0x22 (id - 0x130)
  else if id < 0x140 then s.mapBit 0x23 (id - 0x138)
  else if id < 0x142 then (List.range 8).all fun c => s.mapBit 0x24 (8 * (id - 0x140) + c)
  else if id < 0x144 then s.mapBit 0x26 (id - 0x142)
  else true

/-- A core that reads as fenced in `RES.FENCED_MAP`: fenced, or absent from the map. -/
def State.coreFenced (s : State) (n : Nat) : Bool := bitOf (s.reg Obj.resFencedMap) n || !s.corePresent n
def State.fencedIn (s : State) (cl : Nat) : List Nat := (coresOf cl).filter s.coreFenced
/-- `SCHED.CL_FENCED` set from the map (R56, R377). -/
def refreshFenced (s : State) (cl : Nat) : State :=
  s.setReg (Obj.schedClFenced cl)
    (match s.fencedIn cl with
     | [] => 0xFF
     | [n] => n % 16
     | _ => 0xFE)

/-! ### Contents (R403) -/

/-- A core that loses its contents: SRAM, history slots and mirror records; its staging areas stay as its table sets them. -/
def blankCore (c : Core) : Core := { sluices := c.sluices.map fun p => (p.1, ({ base := p.2.base, size := p.2.size } : Sluice)) }
/-- Bias and assists of a privileged domain, as 6 bytes (R412). -/
def setBias (s : State) (id v : Nat) : State :=
  if isPrivileged id then s.withPower { s.power with bias := smSet zeroWord s.power.bias id v } else s
/-- The clock stopped and the voltage off. -/
def unpowered (s : State) (id : Nat) : State :=
  setBias ((s.setReg (ofUnit Obj.pwrDomFreq id) 0).setReg (ofUnit Obj.pwrDomVolt id) 0) id 0
def coreOff (s : State) (n : Nat) : State := unpowered ((s.modCore n blankCore).setDom (domCore n) dsOff) (domCore n)

end Sys2Proof.Machine
end

