-- ==== Sys2Proof/Machine/Memory.lean ====
section
/-! DEFINITION. The memory tiers (R292–R299), pseudo-channel retirement (R300, R301), translation (R302–R306), fault
records (R307–R309) and the page mover (R311). -/

namespace Sys2Proof.Machine

/-! ### The physical address map (R294, R295) -/

/-- The tier of a physical address. -/
def tierOf (a : Nat) : Option Nat :=
  if a < 0x010000000000 then some 0
  else if a < 0x020000000000 then some 1
  else if a < 0x040000000000 then some 2
  else if a < 0x050000000000 then some 3
  else none

/-- The retired ways of a die, in increasing order (R295). -/
def State.retired (s : State) (die : Nat) : List Nat :=
  (List.range 128).filter fun w => bitOf (s.reg (Obj.memRetiredC0 + die % 4)) w
def State.activeWays (s : State) (die : Nat) : List Nat :=
  (List.range 128).filter fun w => !bitOf (s.reg (Obj.memRetiredC0 + die % 4)) w
/-- The first row of the fold band. -/
def foldLimit (k : Nat) : Nat := 2 ^ 23 - k * 2 ^ 16
/-- `t0_place` of R295: the way and row of a granule, or none where it is absent. -/
def t0Place (retired active : List Nat) (g : Nat) : Option (Nat × Nat) :=
  let w := g % 128
  let r := g / 128
  let lim := foldLimit retired.length
  if lim ≤ r then none
  else if !retired.contains w then some (w, r)
  else
    let u := retired.idxOf w * lim + r
    let n := 128 - retired.length
    some ((active.drop (u % n)).headD 0, lim + u / n)
/-- The die, way and row that hold a T0 byte. -/
def State.t0Cell (s : State) (a : Nat) : Option (Nat × Nat × Nat) :=
  let die := a / 2 ^ 38
  (t0Place (s.retired die) (s.activeWays die) (a % 2 ^ 38 / 256)).map fun p => (die, p.1, p.2)
/-- The pseudo-channel of an address: 256 × die + way, as `MEM.PC_SEL` numbers it. -/
def State.pcOf (s : State) (a : Nat) : Nat := ((s.t0Cell a).map fun p => p.1 * 256 + p.2.1).getD 0

/-- Whether a physical address lies in the capacity that is present (R294, R295, R299). -/
def State.installed (s : State) (a : Nat) : Bool :=
  match tierOf a with
  | some 0 => decide (a % 2 ^ 38 / 32768 < foldLimit (s.retired (a / 2 ^ 38)).length)
  | some 2 =>
    let port := (a - 0x020000000000) / 2 ^ 40
    !s.mem.lost.contains port && decide (a % 2 ^ 40 < if port = 0 then s.mem.cxl.1 else s.mem.cxl.2)
  | some _ => true
  | none => false
/-- Whether the domain that holds an address is ON (R406). -/
def State.powered (s : State) (a : Nat) : Bool :=
  match tierOf a with
  | some 0 => ((s.t0Cell a).map fun p => s.domOn (domHbm (4 * p.1 + p.2.1 / 32))).getD false
  | some 1 => s.domOn (domLpddr (if a < 0x018000000000 then 0 else 1))
  | some 2 => s.domOn (domCxl ((a - 0x020000000000) / 2 ^ 40))
  | some _ => true
  | none => false
/-- Whether an access to a physical address finds it present: an access to a domain that is not ON meets an absent frame
(R406). -/
def State.present (s : State) (a : Nat) : Bool := s.installed a && s.powered a
/-- Whether a range is present, by its 64 KiB blocks. -/
def State.rangePresent (s : State) (a n : Nat) : Bool :=
  (List.range (ceilDiv n 65536)).all fun i => s.present (a + 65536 * i)
/-- Whether a range lies wholly in a tier. -/
def inTier (t a n : Nat) : Bool := tierOf a == some t && (n == 0 || tierOf (a + n - 1) == some t)

/-! ### Credits of the Weirs (R281, R282) -/

/-- Keys of the budgets: of die `d`, TOTAL, CLASS[tc] and FABRIC; of each core of the die, CORE_CAP. -/
def wTotal (d : Nat) : Nat := 16 * d
def wClass (d tc : Nat) : Nat := 16 * d + 1 + tc
def wFabric (d : Nat) : Nat := 16 * d + 5
def wCap (d : Nat) : Nat := 16 * d + 6
def wCore (core : Nat) : Nat := 1000 + core
/-- The budget that a draw is held against. -/
def budgetKey (k : Nat) : Nat := if 1000 ≤ k then wCap (dieOf (k - 1000)) else k
/-- Credits of a budget drawn in the beat, its size, and what it has left. -/
def WeirState.drawn (w : WeirState) (k : Nat) : Nat := smGet zeroWord w.used k
def WeirState.size (w : WeirState) (k : Nat) : Nat := smGet zeroWord w.budget (budgetKey k)
def WeirState.left (w : WeirState) (k : Nat) : Nat := w.size k - w.drawn k
def WeirState.take (w : WeirState) (k n : Nat) : WeirState := { w with used := smSet zeroWord w.used k (w.drawn k + n) }
/-- Whether every budget has the credits of a request left in this beat (R282). A request that needs more than a whole budget has them
while the beat has drawn none of it (DESIGN CHOICE, log 72). -/
def creditLeft (w : WeirState) (draws : List Nat) : Bool :=
  draws.all fun k => decide ((draws.filter (· == k)).length ≤ w.left k) || (w.drawn k == 0 && w.size k != 0)
/-- The credits of a request drawn; the Weir grants no more than a budget has. -/
def drawCredits (w : WeirState) (draws : List Nat) : WeirState :=
  draws.foldl (fun w k => w.take k (min 1 (w.left k))) w
/-- Words of T0 read or written by the device itself at traffic class SYS (R298, R305, R311): they draw what the beat has left of them
(DESIGN CHOICE, log 72). -/
def sysDraw (s : State) (a n : Nat) : State :=
  if tierOf a ≠ some 0 then s
  else
    let d := a / 2 ^ 38
    let k := min n (min (s.weir.left (wTotal d)) (s.weir.left (wClass d 3)))
    s.withWeir ((s.weir.take (wTotal d) k).take (wClass d 3) k)

/-! ### The word code (R296–R298) -/

def day : Nat := 86400000000
def noTimes : Nat → List Nat := fun _ => []
/-- Corrected words of a pseudo-channel over the last 24 hours. -/
def State.pcCe (s : State) (pc : Nat) : Nat := ((smGet noTimes s.mem.pcCe pc).filter fun b => decide (s.beat < b + day)).length

/-- Whether a retirement request is refused (R300). -/
def retireRefused (s : State) (die way : Nat) : Bool :=
  decide (8 ≤ (s.retired die).length) || (s.retired die).contains way || s.reg Obj.memRebuildPool == 0 || s.mem.retire.isSome
/-- A retirement request (R300). -/
def retireRequest (s : State) (die way : Nat) : State :=
  if retireRefused s die way then raise (s.setReg Obj.memRetireState 3) 0x6A06 .note (uDie die)
  else (s.withMem { s.mem with retire := some (die, way) }).setReg Obj.memRetireState 1

/-- A corrected word of an address: the tier's count and, in T0, the pseudo-channel's; a count that passes its limit is
reported and, with `MEM.AUTO_RETIRE`, its retirement requested (R296, R298). -/
def noteCe (s : State) (a : Nat) : State :=
  match tierOf a with
  | some t =>
    let s := s.bump (Obj.memCeT0 + t % 4) 1
    if t ≠ 0 then s
    else
      let pc := s.pcOf a
      let before := s.pcCe pc
      let times := s.beat :: (smGet noTimes s.mem.pcCe pc).filter fun b => decide (s.beat < b + day)
      let s := (s.withMem { s.mem with pcCe := smSet noTimes s.mem.pcCe pc times })
      if before ≤ s.reg Obj.memPcCeLimit && decide (s.reg Obj.memPcCeLimit < s.pcCe pc) then
        let s := raise s 0x6A03 .note (uDie (pc / 256)) pc
        if s.reg Obj.memAutoRetire = 1 then retireRequest s (pc / 256) (pc % 256) else s
      else s
  | none => s
/-- An uncorrectable word of an address, counted (R296). -/
def noteUe (s : State) (a : Nat) : State :=
  match tierOf a with
  | some t =>
    let s := s.bump (Obj.memUeT0 + t % 4) 1
    if t ≠ 0 then s
    else
      let n := min (smGet zeroWord s.mem.pcUe (s.pcOf a) + 1) (2 ^ 32 - 1)
      (s.withMem { s.mem with pcUe := smSet zeroWord s.mem.pcUe (s.pcOf a) n })
  | none => s
/-- A word read with what its check bits say; poison always reads as uncorrectable (R296, R297). Answers whether it is
uncorrectable. -/
def readStat (s : State) (a n : Nat) (st : WordStat) : Bool × State :=
  if poisoned s.mem a n || st == .ue then (true, noteUe s a)
  else match st with
    | .ce => (false, noteCe s a)
    | _ => (false, s)

/-- SCRUB_WORD (R298): a word of T0, T1 or T2 read in the background; `odecc` on-die corrections reach the counts. -/
def execScrubWord (addr : BitVec 48) (st : WordStat) (odecc : BitVec 32) (s : State) : Host.Outcome State Fault Refusal :=
  let a := addr.toNat
  match tierOf a with
  | some t =>
    if 3 ≤ t || !s.present a then .next s
    else
      let r := readStat (sysDraw s a 1) (a / 8 * 8) 8 st
      let pc := r.2.pcOf a
      if t = 0 then
        let n := min (smGet zeroWord r.2.mem.pcOdecc pc + odecc.toNat) (2 ^ 32 - 1)
        .next (r.2.withMem { r.2.mem with pcOdecc := smSet zeroWord r.2.mem.pcOdecc pc n })
      else .next r.2
  | none => .next s

/-- CXL_EXPANDER_LOST (R299): the range of the port is absent until reset. -/
def execCxlExpanderLost (port : Fin 2) (s : State) : Host.Outcome State Fault Refusal :=
  if s.mem.lost.contains port.val then .next s
  else .next (raise (s.withMem { s.mem with lost := port.val :: s.mem.lost }) 0x6A14 .degrade (uEdge (4 + port.val)))

/-! ### Fault records (R307–R309) -/

/-- The record of R308. -/
def faultRecord (seq va pos beat step core ctx cause flags pte level : Nat) : Nat :=
  seq + va * 2 ^ 64 + pos * 2 ^ 128 + beat * 2 ^ 192 + step % 2 ^ 32 * 2 ^ 256 + core * 2 ^ 288 + ctx * 2 ^ 296 +
    cause * 2 ^ 304 + flags * 2 ^ 312 + pte * 2 ^ 320 + level * 2 ^ 384

def fqFull (s : State) : Bool :=
  decide ((s.reg Obj.xlatFqHead + 2 ^ 32 - s.reg Obj.xlatFqTail) % 2 ^ 32 ≥ s.reg Obj.xlatFqSize)
/-- A record written into the ring. -/
def fqWrite (s : State) (r : Nat) : State :=
  let h := s.reg Obj.xlatFqHead
  (s.memWr (s.reg Obj.xlatFqBase + 64 * (h % s.reg Obj.xlatFqSize)) 64 r).setReg Obj.xlatFqHead ((h + 1) % 2 ^ 32)
/-- A record produced by the walker of a die: written, held or lost (R307). -/
def produceRecord (s : State) (die seq r : Nat) : State :=
  let s := (s.withMem { s.mem with faultSeq := s.mem.faultSeq + 1 }).bump Obj.xlatFaults 1
  if s.reg Obj.xlatFqBase = 0 then s.bump Obj.xlatFqLost 1
  else if !fqFull s && s.mem.held.isEmpty then fqWrite s r
  else
    let mine := (s.mem.held.filter fun h => h.die == die).length
    if 64 ≤ mine then s.bump Obj.xlatFqLost 1
    else
      let h : HeldFault := { die := die, seq := seq, record := r }
      let s := (s.withMem { s.mem with held := s.mem.held ++ [h] }).bump Obj.xlatFqHeld 1
      if mine = 0 then raise s 0x6A02 .note (uDie die) else s
/-- Held records written in sequence order while there is room. -/
def fqDrain : List HeldFault → State → State
  | [], s => s
  | h :: hs, s =>
    if fqFull s then s
    else
      let s := fqWrite s h.record
      fqDrain hs (((s.withMem { s.mem with held := hs })).setReg Obj.xlatFqHeld hs.length)
/-- A write of `Obj.xlatFqTail`, checked and applied. -/
def fqTailWrite (v : Nat) (s : State) : Ans :=
    let s := s.setReg Obj.xlatFqTail v
    Ans.ok (fqDrain s.mem.held s)
/-- FQ_TAIL_WRITE (R307). -/
def execFqTailWrite (q : Req) (v : BitVec 32) (s : State) : Host.Outcome State Fault Refusal :=
  .next (dictWrite s q Obj.xlatFqTail (fqTailWrite v.toNat))

/-- A write of `Obj.xlatFqBase`: with no fault queue the records held are lost, with one they are written as there is room (R307). -/
def fqBaseWrite (v : Nat) (s : State) : Ans :=
  let s := s.setReg Obj.xlatFqBase v
  if v ≠ 0 then Ans.ok (fqDrain s.mem.held s)
  else Ans.ok (((s.withMem { s.mem with held := [] }).bump Obj.xlatFqLost s.mem.held.length).setReg Obj.xlatFqHeld 0)
/-- A write of `Obj.xlatFqSize`: records held are written as there is room (R307). -/
def fqSizeWrite (v : Nat) (s : State) : Ans :=
  let s := s.setReg Obj.xlatFqSize v
  Ans.ok (fqDrain s.mem.held s)

/-- A withdrawal record for a stream that leaves HALT_FAULT without a resume; a record still held is dropped (R309). -/
def withdraw (s : State) (core ctx : Nat) : State :=
  let c := (s.core core).ctx ctx
  if c.st != .haltFault then s
  else if s.mem.held.any fun h => h.seq == c.faultSeq then
    let hs := s.mem.held.filter fun h => h.seq != c.faultSeq
    (s.withMem { s.mem with held := hs }).setReg Obj.xlatFqHeld hs.length
  else
    let seq := s.mem.faultSeq
    let r := c.faultRec - c.faultRec % 2 ^ 64 + seq
    produceRecord s (dieOf core) seq (r + 2 ^ 313 + c.faultSeq * 2 ^ 448)

/-! ### Translation (R302–R305) -/

/-- A translation fault: its cause, the entry at which the walk stopped and its level (R304, R308). -/
structure XFault where
  cause : Nat
  pte : Nat := 0
  level : Nat := 0
  at_ : Nat := 0
  deriving DecidableEq, Repr

/-- What a walk ends with: a translation, with the address of its leaf entry, or a fault. -/
inductive Walk where
  | hit (e : TlbEntry) (at_ : Nat)
  | fail (f : XFault)
  deriving DecidableEq, Repr

def pageSize (level : Nat) : Nat :=
  match level with
  | 0 => 2 ^ 30
  | 1 => 2 ^ 21
  | _ => 2 ^ 16
/-- Alignment of the table that an entry of a level points to (R302). -/
def tableAlign (level : Nat) : Nat := if level = 0 then 4096 else 256
/-- The index of a virtual address at a level. -/
def levelIndex (level va : Nat) : Nat :=
  match level with
  | 0 => bitsOf va 30 18
  | 1 => bitsOf va 21 9
  | _ => bitsOf va 16 5

def pteAddr (e : Nat) : Nat := bitsOf e 8 40 * 256
/-- A walk from a table of a level (R304). `bad` names the level whose entry is read as uncorrectable. -/
def walkFrom (s : State) (va : Nat) (write stash : Bool) (bad : Option Nat) : Nat → Nat → Nat → Walk
  | 0, _, _ => .fail ⟨4, 0, 2, 0⟩
  | n + 1, level, table =>
    let at_ := table + 8 * levelIndex level va
    let e := s.memRd at_ 8
    if !s.powered at_ then .fail ⟨5, 0, level, at_⟩
    else if bad = some level || poisoned s.mem at_ 8 then .fail ⟨6, e, level, at_⟩
    else if !bitOf e 63 then .fail ⟨1, e, level, at_⟩
    else if bitsOf e 0 8 ≠ 0 then .fail ⟨4, e, level, at_⟩
    else if bitOf e 62 then
      let size := pageSize level
      if pteAddr e % size ≠ 0 then .fail ⟨4, e, level, at_⟩
      else if write && !bitOf e 61 then .fail ⟨2, e, level, at_⟩
      else if stash && tierOf (pteAddr e) = some 3 then .fail ⟨3, 0, level, at_⟩
      else if !s.installed (pteAddr e) || !s.installed (pteAddr e + size - 1) || !s.powered (pteAddr e + va % size) then .fail ⟨5, e, level, at_⟩
      else .hit { va := va / size * size, size := size, frame := pteAddr e, w := bitOf e 61, d := bitOf e 59, pte := e } at_
    else if level = 2 || pteAddr e % tableAlign level ≠ 0 || tierOf (pteAddr e) ≠ some 0 then .fail ⟨4, e, level, at_⟩
    else if !s.installed (pteAddr e) then .fail ⟨5, e, level, at_⟩
    else walkFrom s va write stash bad n (level + 1) (pteAddr e)
/-- The walk of a virtual address (R302–R304). -/
def walk (s : State) (va : Nat) (write stash : Bool) (bad : Option Nat) : Walk :=
  if va / 2 ^ 48 ≠ 0 then .fail ⟨4, 0, 0, 0⟩
  else if s.reg Obj.xlatRoot = 0 then .fail ⟨1, 0, 0, 0⟩
  else walkFrom s va write stash bad 3 0 (s.reg Obj.xlatRoot)

/-- The TLB entry of a core that serves an access; a write needs W and D set (R305). -/
def tlbFind (c : Core) (va : Nat) (write : Bool) : Option TlbEntry :=
  c.tlb.find? fun e => decide (e.va ≤ va) && decide (va < e.va + e.size) && (!write || (e.w && e.d))
/-- A translation filled into the TLB of a core; a full TLB gives up an entry the manual does not name (DESIGN CHOICE, log 15). -/
def tlbFill (s : State) (core : Nat) (e : TlbEntry) : State :=
  let keep := (s.core core).tlb.filter fun x => decide (x.va + x.size ≤ e.va) || decide (e.va + e.size ≤ x.va)
  if keep.length < 256 then s.modCore core fun c => { c with tlb := e :: keep }
  else
    let r := s.draw
    r.2.modCore core fun c => { c with tlb := e :: keep.eraseIdx (r.1 % keep.length) }
/-- A leaf entry after an access: A is set, and D at the first write (R303). -/
def markedPte (e : TlbEntry) (write : Bool) : Nat := e.pte ||| 2 ^ 60 ||| (if write then 2 ^ 59 else 0)
def markPte (s : State) (e : TlbEntry) (at_ : Nat) (write : Bool) : State :=
  if markedPte e write = e.pte then s else (s.withMem (memWrite s.mem at_ 8 (markedPte e write)))
/-- A successful walk: the entry is marked, and the TLB takes the translation (R303, R305). -/
def walkFill (s : State) (core : Nat) (e : TlbEntry) (at_ : Nat) (write : Bool) : State :=
  tlbFill (markPte s e at_ write) core { e with pte := markedPte e write, d := e.d || write }
/-- The parts of a range of virtual addresses that lie in one 64 KiB page each: address and length. -/
def vaRuns (va n : Nat) : List (Nat × Nat) :=
  (List.range (ceilDiv (va % 65536 + n) 65536)).map fun i =>
    let lo := max va ((va / 65536 + i) * 65536)
    (lo, min (va + n) ((va / 65536 + i + 1) * 65536) - lo)
/-- Whether every page of a range translates for an access. -/
def vaOk (s : State) (va n : Nat) (write : Bool) : Bool :=
  (vaRuns va n).all fun r => match walk s r.1 write false none with
    | .hit _ _ => true
    | .fail _ => false
/-- Bytes of a run that every die sees as they stand (R19, R356). -/
def seenByAll (m : MemState) (a n : Nat) : MemState :=
  { m with unseen := m.unseen.filter fun u => decide (u.addr < a) || decide (a + n ≤ u.addr) }
/-- Bytes written through the page tables, visible to every die (R356); the words they cover whole lose their poison. -/
def vaStore (s : State) (va : Nat) (bytes : List Byte) : State :=
  forAll (vaRuns va bytes.length) (fun r s =>
    match walk s r.1 true false none with
    | .fail _ => s
    | .hit e at_ =>
      let s := markPte s e at_ true
      let pa := e.frame + (r.1 - e.va)
      (s.withMem (clearPoison (seenByAll (memWriteBytes s.mem pa ((bytes.drop (r.1 - va)).take r.2)) pa r.2) pa r.2))) s
/-- The first word of a range that a unit of the device reads as uncorrectable, by physical address; `ue` says that its first one is. -/
def vaBad (s : State) (va n : Nat) (ue : Bool) : Option Nat :=
  (vaRuns va n).findSome? fun r =>
    match walk s r.1 false false none with
    | .fail _ => none
    | .hit e _ =>
      let pa := e.frame + (r.1 - e.va)
      if ue then some pa else ((List.range (ceilDiv (pa % 8 + r.2) 8)).map fun i => pa / 8 * 8 + 8 * i).find? fun a => poisoned s.mem a 8
/-- Bytes read through the page tables, and whether a word of them is poisoned. -/
def vaLoad (s : State) (va n : Nat) : List Byte × Bool :=
  (vaRuns va n).foldl (fun a r =>
    match walk s r.1 false false none with
    | .fail _ => a
    | .hit e _ =>
      let pa := e.frame + (r.1 - e.va)
      (a.1 ++ leBytes r.2 (memRead s.mem pa r.2), a.2 || poisoned s.mem pa r.2)) ([], false)
/-- The entries of a range that was read, marked. -/
def vaMark (s : State) (va n : Nat) : State :=
  forAll (vaRuns va n) (fun r s =>
    match walk s r.1 false false none with
    | .fail _ => s
    | .hit e at_ => markPte s e at_ false) s

/-! ### Invalidation (R306) -/

/-- The range an invalidation names. -/
def invalRange (v : Nat) : Nat × Nat :=
  match v % 4 with
  | 3 => (0, 2 ^ 48)
  | n =>
    let size := pageSize (2 - n)
    (bitsOf v 16 32 * 65536 / size * size, size)
/-- A write of `Obj.xlatInval`, checked and applied. -/
def xlatInvalWrite (v : Nat) (s : State) : Ans :=
    if bitsOf v 2 14 ≠ 0 ∨ bitsOf v 48 16 ≠ 0 then Ans.refuse stReserved s
    else if s.mem.inval.isSome then Ans.refuse stBusy s
    else Ans.ok ((s.withMem { s.mem with inval := some (invalRange v) }).setReg Obj.xlatInvalState 1)
/-- XLAT_INVAL_WRITE (R306). -/
def execXlatInvalWrite (q : Req) (v : BitVec 64) (s : State) : Host.Outcome State Fault Refusal :=
  .next (dictWrite s q Obj.xlatInval (xlatInvalWrite v.toNat))

def tlbDrop (r : Nat × Nat) (c : Core) : Core :=
  { c with tlb := c.tlb.filter fun e => decide (e.va + e.size ≤ r.1) || decide (r.1 + r.2 ≤ e.va) }
/-- A request translated through an address of a range has not completed. -/
def inFlight (s : State) (r : Nat × Nat) : Bool :=
  s.cores.any fun p => p.2.ctxs.any fun c => c.2.flight.any fun f => f.vas.any fun v => decide (r.1 ≤ v) && decide (v < r.1 + r.2)
/-- A function over the cores that hold anything. -/
def State.mapCores (s : State) (f : Core → Core) : State :=
  (s.cores.map (·.1)).foldl (fun s n => s.modCore n f) s
/-- XLAT_INVAL_DONE (R306): it waits for the requests already translated. -/
def execXlatInvalDone (s : State) : Host.Outcome State Fault Refusal :=
  match s.mem.inval with
  | some r =>
    if inFlight s r then .next s
    else
      let s := s.mapCores (tlbDrop r)
      .next ((s.withMem { s.mem with inval := none }).setReg Obj.xlatInvalState 0)
  | none => .next s

/-! ### What the dies see of each other's writes (R19) -/

/-- A barrier in which dies take part: what each of them has written is visible to the others; what every die sees is forgotten. -/
def settleWrites (m : MemState) (dies : List Nat) : MemState :=
  { m with unseen := (m.unseen.map fun u =>
      if dies.contains u.writer then { u with seen := u.seen ++ dies.filter fun d => !u.seen.contains d } else u).filter fun u =>
        !(List.range 4).all u.seen.contains }
/-- A byte written by a unit of a die, which the units of other dies may go on reading as it was. -/
def dieWrite (m : MemState) (die a : Nat) (b : Byte) : MemState :=
  let old := memByte m a
  { memSetByte m a b with unseen := if old = b then m.unseen else { addr := a, old := old, writer := die, seen := [die] } :: m.unseen }
/-- A byte as a unit of a die reads it: the newest value, or one that a write it need not see has replaced (a free choice). -/
def dieRead (die a : Nat) (us : List Unseen) (v : Nat) (s : State) : Nat × State :=
  match us with
  | [] => (v, s)
  | u :: us =>
    if u.addr ≠ a then dieRead die a us v s
    else if u.seen.contains die then (v, s)
    else let r := s.draw; if r.1 % 2 = 0 then (v, r.2) else dieRead die a us u.old.toNat r.2

/-- Bytes of a run as a unit of a die reads them. -/
def dieBytes (die a : Nat) : Nat → State → Nat × State
  | 0, s => (0, s)
  | n + 1, s =>
    let b := dieRead die a s.mem.unseen (memByte s.mem a).toNat s
    let r := dieBytes die (a + 1) n b.2
    (b.1 + 256 * r.1, r.2)
/-- Bits of memory from a bit address as a unit of a die reads them. -/
def dieBits (die bit n : Nat) (s : State) : Nat × State :=
  let r := dieBytes die (bit / 8) ((bit % 8 + n + 7) / 8) s
  (bitsOf r.1 (bit % 8) n, r.2)
/-- Bytes of a run written by a unit of a die. -/
def dieWriteBytes (die a : Nat) : Nat → Nat → MemState → MemState
  | 0, _, m => m
  | n + 1, v, m => dieWriteBytes die (a + 1) n (v / 256) (dieWrite m die a (BitVec.ofNat 8 v))
/-- Bits of physical memory from a bit address. -/
def memBits (m : MemState) (bit n : Nat) : Nat := bitsOf (memRead m (bit / 8) ((bit % 8 + n + 7) / 8)) (bit % 8) n
/-- The bytes that hold `n` bits from a bit address, with those bits replaced and the others as they stand. -/
def patchBits (m : MemState) (bit n v : Nat) : Nat :=
  let old := memRead m (bit / 8) ((bit % 8 + n + 7) / 8)
  old - bitsOf old (bit % 8) n * 2 ^ (bit % 8) + v % 2 ^ n * 2 ^ (bit % 8)
/-- Bits of physical memory written from a bit address; the other bits of the bytes stay. -/
def memSetBits (m : MemState) (bit n v : Nat) : MemState :=
  memWrite m (bit / 8) ((bit % 8 + n + 7) / 8) (patchBits m bit n v)
/-- The same write by a unit of a die. -/
def dieSetBits (die : Nat) (m : MemState) (bit n v : Nat) : MemState :=
  dieWriteBytes die (bit / 8) ((bit % 8 + n + 7) / 8) (patchBits m bit n v) m

/-! ### The page mover (R311, R312) -/

def movePage (m : MemState) (src dst len : Nat) : MemState :=
  let out := m.cells.filter fun c => decide (c.1 < dst) || decide (dst + len ≤ c.1)
  let copy := m.cells.filter fun c => decide (src ≤ c.1) && decide (c.1 < src + len)
  let wout := m.poison.filter fun c => decide (8 * c.1 < dst) || decide (dst + len ≤ 8 * c.1)
  let wcopy := m.poison.filter fun c => decide (src ≤ 8 * c.1) && decide (8 * c.1 < src + len)
  { m with
    cells := smSetMany memDefault out (copy.map fun c => (c.1 - src + dst, c.2)),
    poison := smSetMany notPoisoned wout (wcopy.map fun c => (c.1 - src / 8 + dst / 8, c.2)) }

/-- Whether a start of the page mover is refused (R311). -/
def moveRefused (s : State) : Bool :=
  let src := s.reg Obj.xlatMoveSrc
  let dst := s.reg Obj.xlatMoveDst
  let len := s.reg Obj.xlatMoveLen
  s.mem.mover.isSome || !s.rangePresent src len || !s.rangePresent dst len ||
    (decide (src < dst + len) && decide (dst < src + len)) ||
    (decide (dst < s.reg Obj.memTblBase + s.reg Obj.memTblLen) && decide (s.reg Obj.memTblBase < dst + len))
/-- A write of `Obj.xlatMoveGo`, checked and applied. -/
def pageMoveGo (s : State) : Ans :=
    if moveRefused s then Ans.refuse stState (s.setReg Obj.xlatMoveState 4)
    else Ans.ok ((s.withMem { s.mem with
      mover := some (s.reg Obj.xlatMoveSrc, s.reg Obj.xlatMoveDst, s.reg Obj.xlatMoveLen), raced := [] }).setReg
        Obj.xlatMoveState 1)
/-- PAGE_MOVE_GO (R311). -/
def execPageMoveGo (q : Req) (v : BitVec 8) (s : State) : Host.Outcome State Fault Refusal :=
  .next (dictAction s q Obj.xlatMoveGo v.toNat pageMoveGo)

/-- Bytes that the manual leaves open written over a run. -/
def freeBytes (a : Nat) : Nat → State → State
  | 0, s => s
  | n + 1, s => let r := s.draw; freeBytes (a + 1) n (r.2.withMem (memSetByte r.2.mem a (BitVec.ofNat 8 r.1)))
/-- The destination line that a write to a line of either frame of the mover leaves undefined (R312). -/
def racedLine (m : MemState) (line : Nat) : List Nat :=
  match m.mover with
  | some (src, dst, len) =>
    if src ≤ line && decide (line < src + len) then [line - src + dst]
    else if dst ≤ line && decide (line < dst + len) then [line] else []
  | none => []
/-- PAGE_MOVE_DONE (R311): `bad` lists the 64-bit words of the range read as uncorrectable. -/
def execPageMoveDone (bad : List Nat) (s : State) : Host.Outcome State Fault Refusal :=
  match s.mem.mover with
  | none => .next s
  | some (src, dst, len) =>
    let bad := bad.filter fun w => decide (8 * w < len)
    let dirty := poisoned s.mem src len || !bad.isEmpty
    let pois := (s.mem.poison.filter fun p => decide (src ≤ 8 * p.1) && decide (8 * p.1 < src + len)).map (·.1)
    let s := forAll (pois ++ (bad.map (src / 8 + ·)).filter fun w => !pois.contains w) (fun w s => noteUe s (8 * w)) s
    let m := seenByAll (movePage s.mem src dst len) dst len
    let m := bad.foldl (fun m w => setPoison m (dst / 8 + w)) m
    let s := (s.withMem { m with mover := none })
    let s := forAll s.mem.raced.eraseDups (fun l s => freeBytes l 64 s) s
    .next ((s.withMem { s.mem with raced := [] }).setReg Obj.xlatMoveState (if dirty then 3 else 2))

end Sys2Proof.Machine
end

