-- ==== Sys2Proof/Machine/Flags.lean ====
section
/-! DEFINITION. The Spillway's counters and flags: what a conversion counts (R75, R85, R88, R108–R110, R174, R196,
R471), and where each count goes. -/

namespace Sys2Proof.Machine

/-- What a run of conversions counted. -/
structure Cnt where
  sat : Nat := 0
  zeroed : Nat := 0
  nan : Nat := 0
  rsv : Nat := 0
  zeroBlocks : Nat := 0
  deriving DecidableEq, Repr

def Cnt.plus (a b : Cnt) : Cnt :=
  ⟨a.sat + b.sat, a.zeroed + b.zeroed, a.nan + b.nan, a.rsv + b.rsv, a.zeroBlocks + b.zeroBlocks⟩
def Cnt.ofConv (c : Conv) : Cnt :=
  { sat := if c.sat then 1 else 0, zeroed := if c.zeroed then 1 else 0, nan := if c.nan then 1 else 0 }
def cntAll (cs : List Conv) : Cnt := cs.foldl (fun a c => a.plus (Cnt.ofConv c)) {}

/-- The class of an entry's tile, which says the health bit its saturation flag sets (R198): PAIR_SAT for F, outlier
side and vector tiles, GRAD_SAT for BX, BW and pair tiles, and none for the others. -/
inductive TileClass where
  | forward | gradient | other
  deriving DecidableEq, Repr

def TileClass.satBit : TileClass → Nat
  | .forward => 2 ^ 5
  | .gradient => 2 ^ 3
  | .other => 0

/-- The tile flags of an entry enter its cluster's health word (R109, R198). -/
def tileFlags (s : State) (core : Nat) (cls : TileClass) (sat nan : Bool) : State :=
  setHealth s (clusterOf core) ((if sat then cls.satBit else 0) ||| (if nan then 1 else 0))

/-- Reserved codes read (R75): counted in the format counter and with the zeroed elements, RSV_READ set, and the first
of a core, tensor and step reported. -/
def noteReserved (s : State) (core tensor n : Nat) : State :=
  if n = 0 then s
  else
    let s := (s.bump Obj.fmtRsvReads n).bump (Obj.spillBlkZero core) n
    raiseFirst (setHealth s (clusterOf core) (2 ^ 12)) core 0x3A01 tensor .note

/-- NaNs written as +0 into a format without NaN (R85). -/
def noteNarrowed (s : State) (core tensor fmt n : Nat) : State :=
  if n = 0 || ((fmtOf fmt).map (·.hasNan)).getD true then s
  else raiseFirst (s.bump Obj.fmtNanNarrowed n) core 0x3A02 tensor .note

/-- The conversions of an entry counted in its core's counters (R110) and its tile's flags (R109). -/
def noteCnt (s : State) (core : Nat) (cls : TileClass) (tensor fmt : Nat) (c : Cnt) : State :=
  let s := (((s.bump (Obj.spillBlkSat core) c.sat).bump (Obj.spillBlkZero core) c.zeroed).bump
    (Obj.spillNanIn core) c.nan).bump (Obj.spillZeroBlocks core) c.zeroBlocks
  let s := noteNarrowed s core tensor fmt c.nan
  tileFlags (noteReserved s core tensor c.rsv) core cls (decide (0 < c.sat)) (decide (0 < c.nan))

/-- Pair additions that returned sat or made a pair NaN (R174). -/
def noteAcc (s : State) (core : Nat) (cls : TileClass) (f : AccFlags) : State :=
  let s := tileFlags s core cls (decide (0 < f.sat)) (decide (0 < f.nan))
  let s := if f.sat = 0 then s else raiseFirst (s.bump (Obj.accSatAdds core) f.sat) core 0x3E01 0 .note
  if f.nan = 0 then s else raiseFirst (s.bump (Obj.accNanAdds core) f.nan) core 0x3E02 0 .note

/-- `n` E8M0 scales of 0xFF read as block scales: each is counted and reported (R83). -/
def noteBadScale (s : State) (core n : Nat) : State :=
  if n = 0 then s
  else
    forAll (List.range n) (fun _ s => raise s 0x3A03 .stepAbort (uCore core))
      (tileFlags (s.bump Obj.fmtBadScales n) core .other false true)
/-- `n` invalid tensor scales read: each is counted and reported (R84). -/
def noteBadTs (s : State) (core n : Nat) : State :=
  forAll (List.range n) (fun _ s => raise s 0x3A04 .stepAbort (uCore core)) (s.bump Obj.fmtBadScales n)

/-! ### The tally area (R108, R195, R196) -/

def shareBase (i : Nat) : Nat := 0x1A00000 + 32 * i
def layerBase (l : Nat) : Nat := 0x19E0000 + 32 * l
def State.sramRd (s : State) (cl a n : Nat) : Nat := sramRead (s.cluster cl).sram a n
def State.sramWr (s : State) (cl a n v : Nat) : State := s.modCluster cl fun c => { c with sram := sramWrite c.sram a n v }
/-- A 32-bit field advanced, saturating (R108). -/
def State.sramBump (s : State) (cl a size n : Nat) : State :=
  s.sramWr cl a size (min (s.sramRd cl a size + n) (256 ^ size - 1))

/-- The greater of two non-negative FP32 words. -/
def maxPosF32 (a b : Nat) : Nat := max a b
/-- The share record at an index opened for a tensor: one that carries another tensor starts anew (R108, R159). -/
def openShare (s : State) (cl idx tensor : Nat) : State :=
  if s.sramRd cl (shareBase idx) 4 = tensor then s else s.sramWr cl (shareBase idx) 32 tensor
/-- A tile's counts entered in a share record's totals (R108). -/
def addShare (s : State) (cl idx tensor : Nat) (c : Cnt) : State :=
  let a := shareBase idx
  let s := openShare s cl idx tensor
  let s := ((s.sramBump cl (a + 4) 4 c.sat).sramBump cl (a + 8) 4 c.zeroed).sramBump cl (a + 12) 4 c.nan
  (s.sramBump cl (a + 0x1C) 2 (if 0 < c.nan then 1 else 0)).sramBump cl (a + 0x1E) 2 (if 0 < c.sat then 1 else 0)
/-- A quantised tile entered in the share record of its share: the totals, the share's own amax and the scope's scale (R108). -/
def scopeShare (s : State) (cl idx tensor : Nat) (c : Cnt) (amax ts : Nat) : State :=
  let a := shareBase idx
  let s := (addShare s cl idx tensor c).sramBump cl (a + 0x10) 4 c.zeroBlocks
  let s := s.sramWr cl (a + 0x14) 4 (maxPosF32 (s.sramRd cl (a + 0x14) 4) amax)
  s.sramWr cl (a + 0x18) 4 ts
/-- The same by a core, which names its last share (R108, R110). -/
def writeShare (s : State) (core idx tensor : Nat) (c : Cnt) (amax ts : Nat) : State :=
  (scopeShare s (clusterOf core) idx tensor c amax ts).setReg (Obj.spillLastTensor core) tensor

/-- What the conversions of an entry add to the layer tally of LAYER_OUT (R196). `amax` is the largest |v| of the
finite values, rounded up to FP32. -/
def noteLayer (s : State) (core layer n amax : Nat) (c : Cnt) : State :=
  if layer = 0xFFFF then s
  else
    let a := layerBase layer
    let cl := clusterOf core
    let s := s.sramWr cl (a + 4) 4 (maxPosF32 (s.sramRd cl (a + 4) 4) amax)
    (((s.sramBump cl (a + 8) 4 c.sat).sramBump cl (a + 0xC) 4 c.zeroed).sramBump cl (a + 0x10) 4 c.nan).sramBump
      cl (a + 0x14) 4 n

/-- A count summed, saturating at 32 bits. -/
def satSum (xs : List Nat) : Nat := min (sumOf xs) 0xFFFFFFFF
/-- FWD_SAT of a layer in a cluster: SAT_TOTAL over its share range (R196). -/
def fwdSat (s : State) (cl l : Nat) : Nat :=
  let lo := s.layerRec l 0x20 2
  satSum ((List.range (s.layerRec l 0x22 2)).map fun i => s.sramRd cl (shareBase (lo + i) + 4) 4)

/-- The largest magnitude of the finite values of a list, rounded up to FP32. -/
def amaxOf (xs : List XNum) : Nat := xs.foldl (fun m x => if x.isFinite then max m (ceilF32 x.abs) else m) 0

end Sys2Proof.Machine
end

