-- ==== Sys2Proof/Machine/Quantise.lean ====
section
/-! DEFINITION. The Spillway's quantiser (04_scaling_and_quantisation.md): scout statistics (R101), the choice of scales
and the conversion of blocks (R102), the amax history (R103), scale and counter words (R104–R106, R470). -/

namespace Sys2Proof.Machine

/-! ### The scout pass (R101) -/

def Scout.none : Scout := { amax := .fin false 0 0, vmin := .fin false 0 0, vmax := .fin false 0 0, nfinite := 0 }
/-- One more finite element. -/
def Scout.addElem (st : Scout) (x : XNum) : Scout :=
  if !x.isFinite then st
  else if st.nfinite = 0 then { amax := x.abs, vmin := x, vmax := x, nfinite := 1 }
  else { amax := st.amax.max x.abs, vmin := st.vmin.min x, vmax := st.vmax.max x, nfinite := st.nfinite + 1 }
/-- The statistics of two shares combined: they do not depend on order (R101). -/
def Scout.join (a b : Scout) : Scout :=
  if a.nfinite = 0 then b
  else if b.nfinite = 0 then a
  else { amax := a.amax.max b.amax, vmin := a.vmin.min b.vmin, vmax := a.vmax.max b.vmax, nfinite := a.nfinite + b.nfinite }
def scoutOf (xs : List XNum) : Scout := xs.foldl Scout.addElem Scout.none

/-- The kinds of `choose_ts` (R102). -/
inductive ScopeKind where
  | normal | zero | constant
  deriving DecidableEq, Repr

/-- `choose_ts` of R102; `hist` is the slot's history, newest first. -/
def chooseTs (P : ScaleP) (F : Fmt) (hist : List Nat) (st : Scout) : Nat × ScopeKind :=
  if P.src = 2 then (P.fixedTs, .normal)
  else if P.src = 1 ∧ hist ≠ [] then
    let A := (hist.take (P.depth + 1)).foldl max 0
    if A = 0 then (minNormF32, .normal) else (upF32 ((f32 A).div (maxmag F)), .normal)
  else if st.nfinite = 0 || (st.vmin.isZero && st.vmax.isZero) then (minNormF32, .zero)
  else
    let a := st.vmin.abs
    let c := convert a fmtF32 .rto 0
    if st.vmin.eqv st.vmax && (f32 c.code).eqv a && validTs c.code then (c.code, .constant)
    else (upF32 (st.amax.div (maxmag F)), .normal)

/-! ### Blocks (R102, R111, R112, R115) -/

/-- An element of a block: its exact value, its linear index, and whether it lies in an outlier channel. -/
structure QElem where
  x : XNum
  idx : Nat
  outlier : Bool := false
  deriving DecidableEq, Repr

/-- What `quantise_block` returns. -/
structure QBlock where
  codes : List Nat := []
  c : Nat := 0
  cnt : Cnt := {}
  zmark : Bool := false
  deriving DecidableEq, Repr

/-- The smallest integer `k` with `a <= maxmag × 2^k`, from a first guess that is at most two too small. -/
def leastK (a mm : XNum) (k : Int) : Nat → Int
  | 0 => k
  | n + 1 => if a.le (mm.scale k) then k else leastK a mm (k + 1) n
/-- The exponent of a finite value's top bit. -/
def topExp : XNum → Int
  | .fin _ m e => e + bitLength m - 1
  | _ => 0
/-- The E8M0 code of a block's scale (R102). -/
def blockCode (F : Fmt) (kind : ScopeKind) (infblock : Bool) (ys : List XNum) : Nat :=
  if infblock then 0x7F
  else match kind with
    | .zero => 0
    | .constant => 0x7F
    | .normal =>
      let a := ys.foldl (fun m y => if y.isFinite then m.max y.abs else m) (.fin false 0 0)
      if a.isZero then 0
      else
        let k := leastK a (maxmag F) (topExp a - topExp (maxmag F) - 1) 3
        (min (max k (-127)) 0 + 127).toNat

/-- The arguments of a quantisation's draws (R91). -/
structure DrawArgs where
  seed : Nat
  step : Nat
  tensor : Nat
  purpose : Nat
  deriving DecidableEq, Repr
def DrawArgs.at (d : DrawArgs) (mode : RMode) (i : Nat) : Nat :=
  match mode with
  | .sr => draw16 d.seed d.step d.tensor i d.purpose
  | _ => 0

/-- `quantise_block` of R102 with the scale `ts` of each element's scope. -/
def quantiseBlock (F : Fmt) (mode : RMode) (d : DrawArgs) (kind : ScopeKind) (els : List (QElem × Nat)) : QBlock :=
  let ys := els.map fun p => (p.1, f32 (rto32 (p.1.x.div (f32 p.2))))
  let inn := ys.filter fun p => !p.1.outlier
  let infblock := inn.any fun p => p.2.isInf
  let c := blockCode F kind infblock (inn.map (·.2))
  let k : Int := (c : Int) - 127
  let convs := ys.map fun p =>
    if p.1.outlier then (⟨F.encode false 0 0, false, false, false⟩ : Conv)
    else if infblock && !p.2.isNan then ⟨F.encodeMax p.2.sign, true, false, false⟩
    else convert (p.2.scale (-k)) F mode (d.at mode p.1.idx)
  let hasnan := inn.any fun p => p.2.isNan
  let zmark := !hasnan && convs.all fun r => (F.decode r.code).isZero
  { codes := convs.map (·.code), c := c, zmark := zmark,
    cnt := { cntAll convs with zeroBlocks := if zmark then 1 else 0 } }

/-- The G16 side value of a listed element, `convert(rto32(x / ts), G16, RNE)` (R115). -/
def sideConv (x : XNum) (ts : Nat) : Conv := convert (f32 (rto32 (x.div (f32 ts)))) fmtG16 .rne 0

/-! ### Scale words and counter words (R104–R106) -/

/-- A block's place and results for the words that carry them. -/
structure BlockRec where
  idx : Nat
  channel : Nat
  ts : Nat
  q : QBlock
  deriving DecidableEq, Repr

/-- Blocks gathered into scale words: a new word starts after 32 blocks, at a gap of the index, at a new TS and, for
1-D blocks under SCOPE 1, at each channel (R105). `acc` is the word being filled, `last` its last index. -/
def packBlocks (split : Bool) : Nat → List BlockRec → List BlockRec → List (List BlockRec)
  | _, acc, [] => if acc.isEmpty then [] else [acc]
  | last, acc, b :: bs =>
    if acc.isEmpty then packBlocks split b.idx [b] bs
    else if b.idx = last + 1 && acc.length < 32 &&
        (!split || ((acc.head?).map (·.channel)) == some b.channel) && ((acc.head?).map (·.ts)) == some b.ts then
      packBlocks split b.idx (acc ++ [b]) bs
    else acc :: packBlocks split b.idx [b] bs

def scaleWordOf (g : List BlockRec) : Nat :=
  let marks := sumOf ((g.zipIdx).map fun p => if p.1.q.zmark then 2 ^ p.2 else 0)
  mkScaleWord ((g.head?.map (·.idx)).getD 0) g.length marks ((g.head?.map (·.ts)).getD 0) (g.map (·.q.c))
/-- The scale words of a run of blocks. -/
def scaleWords (split : Bool) (bs : List BlockRec) : List Nat := (packBlocks split 0 [] bs).map scaleWordOf

/-- The counter words of a run of blocks (R106): word w holds blocks 32w to 32w + 31. A byte stands at 128 where a square tile of 1,024
elements counts more: the field's stated range ends there (DESIGN CHOICE, log 69). -/
def counterWords (bs : List BlockRec) : List Nat :=
  let ws := (bs.map fun b => b.idx / 32).eraseDups
  ws.map fun w =>
    sumOf ((bs.filter fun b => b.idx / 32 == w).map fun b =>
      (min b.q.cnt.sat 128 + 256 * min b.q.cnt.zeroed 128) * 2 ^ (16 * (b.idx % 32)))

/-! ### The amax history (R100, R103) -/

def noHist : Nat → List Nat := fun _ => []
def State.hist (s : State) (core slot : Nat) : List Nat := smGet noHist (s.core core).hist slot
/-- The present amax of a scope appended to its slot: the newest 16 entries stay. -/
def appendHist (s : State) (core slot amax : Nat) : State :=
  s.modCore core fun c => { c with hist := smSet noHist c.hist slot ((amax :: smGet noHist c.hist slot).take 16) }
/-- Every slot back to its content at the step origin (R203). -/
def rollbackHist (s : State) (core : Nat) : State := s.modCore core fun c => { c with hist := c.histOrigin }

/-! ### A whole scope -/

/-- The seed and the step number a core converts with (R91). -/
def State.seed (s : State) : Nat := s.reg Obj.rngSeed
def State.clStep (s : State) (cl : Nat) : Nat := s.reg (Obj.schedClStep cl)
def State.drawArgs (s : State) (core tensor purpose : Nat) : DrawArgs :=
  ⟨s.seed, s.clStep (clusterOf core) % 2 ^ 40, tensor, purpose⟩

/-- A block waiting to be quantised: its index in the producer's order, its channel, its elements. -/
structure BlockIn where
  idx : Nat
  channel : Nat
  els : List QElem
  deriving DecidableEq, Repr

/-- What a quantisation leaves: the blocks, the scope scale and the share's own amax for the share record, the amax of every scope over
all its shares (R103), the share's statistics by channel (R101), and whether an empty history slot made it use present scales (R100). -/
structure QuantRes where
  blocks : List BlockRec := []
  cnt : Cnt := {}
  ts : Nat := 0
  amax : Nat := 0
  amaxs : List Nat := []
  shares : List (Nat × Scout) := []
  emptyHist : Bool := false
  deriving DecidableEq, Repr

/-- The statistics of another core's shares for a channel; channel 0 stands for a tensor scope (R101). -/
def peersOf (peers : List (Nat × Scout)) (ch : Nat) : Scout :=
  (peers.filter fun p => p.1 == ch).foldl (fun a p => a.join p.2) Scout.none

/-- The channel an element's scale belongs to: one for a tensor scope, else its column under R470 or its block's. -/
def channelOf (scope : Nat) (column : Option (Nat → Nat)) (b : BlockIn) (e : QElem) : Nat :=
  if scope = 0 then 0
  else match column with
    | some f => f e.idx
    | none => b.channel

/-- The scout and quantise passes over a share (R101, R102). Under SCOPE 1 each channel has its own scale; a square
tile under SCOPE 1 divides each element by its column's scale (R470), where `column` gives the column of an index. -/
def quantise (P : ScaleP) (F : Fmt) (mode : RMode) (d : DrawArgs) (hist : List Nat) (peers : List (Nat × Scout))
    (column : Option (Nat → Nat)) (ins : List BlockIn) : QuantRes :=
  let tagged := ins.flatMap fun b => b.els.map fun e => (channelOf P.scope column b e, e)
  let chs := (tagged.map (·.1)).eraseDups
  let scales := chs.map fun ch =>
    let own := scoutOf ((tagged.filter fun p => p.1 == ch && !p.2.outlier).map (·.2.x))
    (ch, own, chooseTs P F hist (own.join (peersOf peers ch)))
  let tsOf (ch : Nat) : Nat × ScopeKind := ((scales.find? fun q => q.1 == ch).map (·.2.2)).getD (minNormF32, .zero)
  let percol := column.isSome && P.scope = 1
  let blocks := ins.map fun b =>
    let els := b.els.map fun e => (e, (tsOf (channelOf P.scope column b e)).1)
    let kind := match b.els with
      | e :: _ => (tsOf (channelOf P.scope column b e)).2
      | [] => .zero
    { idx := b.idx, channel := b.channel, ts := if percol then 0 else ((els.head?).map (·.2)).getD 0,
      q := quantiseBlock F mode d (if percol then .normal else kind) els : BlockRec }
  { blocks := blocks, cnt := (blocks.map (·.q.cnt)).foldl Cnt.plus {},
    ts := if P.scope = 0 then (tsOf 0).1 else 0,
    amax := ceilF32 (scales.foldl (fun m q => m.max q.2.1.amax) (.fin false 0 0)),
    amaxs := scales.map fun q => ceilF32 (q.2.1.join (peersOf peers q.1)).amax,
    shares := scales.map fun q => (q.1, q.2.1),
    emptyHist := decide (P.src = 1) && hist.isEmpty }

/-- The scales of the channels as `quantise` chooses them (for the channel scale words of R470). -/
def channelScales (P : ScaleP) (F : Fmt) (hist : List Nat) (peers : List (Nat × Scout)) (column : Nat → Nat) (n : Nat)
    (ins : List BlockIn) : List Nat :=
  let els := ins.flatMap (·.els)
  (List.range n).map fun ch =>
    (chooseTs P F hist ((scoutOf ((els.filter fun e => column e.idx == ch).map (·.x))).join (peersOf peers ch))).1

/-! ### Shares of a scope (R101, R103) -/

/-- The statistics that the other cores of the cluster have scouted of a tensor in a micro-batch (R101). -/
def State.sharesOf (s : State) (core tensor mb : Nat) : List (Nat × Scout) :=
  (coresOf (clusterOf core)).flatMap fun n =>
    if n = core then []
    else ((s.core n).scouts.filter fun r => r.tensor == tensor && r.mb == mb).map fun r => (r.ch, r.stat)
/-- The share whose statistics the other shares of its scope need: a present scale, also one that an empty history slot calls for (R100,
R101). -/
def QuantRes.toShare (r : QuantRes) (P : ScaleP) : Option (Nat × List (Nat × Scout)) :=
  if P.src = 0 || r.emptyHist then some (P.tensor, r.shares) else none
/-- A core's own share of a tensor joined with what it scouted of it before. -/
def noteShare (s : State) (core tensor mb : Nat) (done : Bool) (shares : List (Nat × Scout)) : State :=
  s.modCore core fun c => { c with scouts := shares.foldl (fun rs p =>
    let old := rs.filter fun r => r.tensor == tensor && r.mb == mb && r.ch == p.1
    { tensor := tensor, mb := mb, ch := p.1, stat := old.foldl (fun a r => a.join r.stat) p.2,
      done := done || old.any (·.done) } :: rs.filter fun r => !(r.tensor == tensor && r.mb == mb && r.ch == p.1)) c.scouts }
/-- The newest amax of a slot raised: a further part of a scope that stands in the history already (R103). -/
def raiseHist (s : State) (core slot amax : Nat) : State :=
  s.modCore core fun c =>
    let h := smGet noHist c.hist slot
    { c with hist := smSet noHist c.hist slot (maxPosF32 (h.headD 0) amax :: h.drop 1) }
/-- The present amax of each scope of a conversion enters the history once: a later entry of the core that converts more of the same
tensor scope in the same micro-batch raises it (DESIGN CHOICE, log 69). -/
def noteHist (s : State) (core mb : Nat) (P : ScaleP) (amaxs : List Nat) : State :=
  if P.scope = 0 && (s.core core).scouts.any fun r => r.tensor == P.tensor && r.mb == mb && r.done then
    forAll amaxs (fun a s => raiseHist s core P.slot a) s
  else forAll amaxs (fun a s => appendHist s core P.slot a) s

/-- A quantisation's records: history, share record, counters and flags (R100, R103, R108–R110, R115). `extra` counts the G16 conversions
of outlier channels. -/
def noteQuant (s : State) (core mb : Nat) (cls : TileClass) (P : ScaleP) (r : QuantRes) (extra : Cnt) : State :=
  let s := if r.emptyHist then raise s 0x3B02 .note (uCore core) else s
  let s := noteCnt (noteCnt s core cls P.tensor P.fmt r.cnt) core cls P.tensor 0x31 extra
  let s := writeShare s core P.share P.tensor (r.cnt.plus extra) r.amax r.ts
  noteShare (noteHist s core mb P r.amaxs) core P.tensor mb true r.shares

end Sys2Proof.Machine
end

