-- ==== Sys2Proof/Machine/Siphon.lean ====
section
/-! DEFINITION. The stash and the Siphon: windows (R313), spill plans (R314, R315), placement (R316), offload and prefetch
(R317), and the stored forms (R318, R319). -/

namespace Sys2Proof.Machine

/-! ### Spill plans (R60, R314, R315) -/

/-- An item entry of a spill plan (R315). -/
structure PlanItem where
  woff : Nat
  bytes : Nat
  tier : Nat
  form : Nat
  srcFmt : Nat
  recomp : Bool
  reads : Nat
  tensor : Nat
  share : Nat
  deriving DecidableEq, Repr

/-- The bucket table's word of a bucket (R60). -/
def bucketWord (s : State) (t : TableRec) (b : Nat) : Nat := s.tblRd t (s.tblRd t 0x18 8 + 8 + 8 * b) 8
/-- The image offset of a spill plan (R314). -/
def planOffset (s : State) (t : TableRec) (i : Nat) : Nat := s.tblRd t (s.tblRd t 0x18 8 + 256 + 8 * i) 8
def planItem (s : State) (t : TableRec) (off i : Nat) : PlanItem :=
  let w := s.tblRd t (off + 0x40 + 32 * i) 32
  { woff := fld w 0 8, bytes := fld w 8 8, tier := fld w 0x12 1, form := fld w 0x13 1, srcFmt := fld w 0x14 1,
    recomp := bitOf (fld w 0x15 1) 1, reads := fld w 0x16 1, tensor := fld w 0x18 4 % 2 ^ 24, share := fld w 0x1C 2 }
def planItems (s : State) (t : TableRec) (off : Nat) : List PlanItem :=
  (List.range (s.tblRd t (off + 4) 4)).map (planItem s t off)
/-- The spill plan in force on a cluster: the one that the bucket of its present micro-batch names. -/
def State.spillPlan (s : State) (cl : Nat) : Option (TableRec × Nat) :=
  (s.table 6 cl 1).bind fun t =>
    let c := s.cluster cl
    if c.mb = 0 then none
    else ((c.plan.drop (c.mb - 1)).head?).map fun m => (t, planOffset s t (bitsOf (bucketWord s t m.bucket) 12 8))
def planT0Share (s : State) (p : TableRec × Nat) : Nat := s.tblRd p.1 (p.2 + 8) 8
def planT0High (s : State) (p : TableRec × Nat) : Nat := s.tblRd p.1 (p.2 + 0x10) 8
def planT1Share (s : State) (p : TableRec × Nat) : Nat := s.tblRd p.1 (p.2 + 0x18) 8
def planT2Share (s : State) (p : TableRec × Nat) : Nat := s.tblRd p.1 (p.2 + 0x20) 8

/-! ### The lossless form (R318) -/

/-- The exponent field and residue of an element of a packable format. -/
def expOf (fmt e : Nat) : Nat := if fmt = 0x01 then bitsOf e 23 8 else bitsOf e 7 8
def residueOf (fmt e : Nat) : Nat :=
  if fmt = 0x01 then bitsOf e 31 1 * 2 ^ 23 + bitsOf e 0 23 else bitsOf e 15 1 * 2 ^ 7 + bitsOf e 0 7
def unexp (fmt ex r : Nat) : Nat :=
  if fmt = 0x01 then bitsOf r 23 1 * 2 ^ 31 + ex * 2 ^ 23 + bitsOf r 0 23
  else bitsOf r 7 1 * 2 ^ 15 + ex * 2 ^ 7 + bitsOf r 0 7
def packable (fmt : Nat) : Bool := fmt == 0x01 || fmt == 0x31
def elemWidth (fmt : Nat) : Nat := if fmt = 0x01 then 32 else 16
def residueWidth (fmt : Nat) : Nat := if fmt = 0x01 then 24 else 8
def up8 (n : Nat) : Nat := ceilDiv n 8 * 8

/-- One chunk of up to 16 words in its stored form. -/
def packChunk (fmt : Nat) (words : List Nat) : List Byte :=
  let zmap := sumOf (words.zipIdx.map fun p => if p.1 = 0 then 0 else 2 ^ p.2)
  let nz := words.filter fun w => w != 0
  let lit := 64 * nz.length
  if !packable fmt || nz.isEmpty then leBytes 8 (zmap * 2 ^ 48 + lit) ++ leBytes lit (packBits 512 nz)
  else
    let els := nz.flatMap fun w => (List.range (512 / elemWidth fmt)).map fun i => elemAt w (elemWidth fmt) i
    let exps := els.map (expOf fmt)
    let emin := exps.foldl min 255
    let ew := max 1 (bitLength (exps.foldl max 0 - emin))
    let res := residueWidth fmt / 8 * els.length
    let plen := up8 (res + ceilDiv (ew * els.length) 8)
    if ew ≤ 7 && plen < lit then
      let hdr := zmap * 2 ^ 48 + 2 ^ 46 + emin * 2 ^ 32 + ew * 2 ^ 28 + plen
      leBytes 8 hdr ++ leBytes res (packBits (residueWidth fmt) (els.map (residueOf fmt))) ++
        leBytes (plen - res) (packBits ew (exps.map (· - emin)))
    else leBytes 8 (zmap * 2 ^ 48 + emin * 2 ^ 32 + lit) ++ leBytes lit (packBits 512 nz)

/-- Zeros up to a multiple of 64 bytes. -/
def pad64 (bs : List Byte) : List Byte := bs ++ List.replicate (ceilDiv bs.length 64 * 64 - bs.length) 0
/-- An item in the lossless form. -/
def packItem (fmt : Nat) (raw : List Byte) : List Byte :=
  pad64 ((chunksOf 16 (wordsOf (raw.length / 64) (leNat raw))).flatMap (packChunk fmt))

/-- The nonzero words put back among the zero ones. -/
def spread (zmap : Nat) : Nat → Nat → List Nat → List Nat
  | 0, _, _ => []
  | n + 1, j, ws =>
    if bitOf zmap j then ws.headD 0 :: spread zmap n (j + 1) (ws.drop 1) else 0 :: spread zmap n (j + 1) ws
/-- The first chunk of `words` words of a stored item. -/
def unpackChunk (fmt words : Nat) (bs : List Byte) : List Nat × List Byte :=
  let h := leNat (bs.take 8)
  let plen := bitsOf h 0 16
  let pay := leNat ((bs.drop 8).take plen)
  let zmap := bitsOf h 48 16
  let n := ((List.range words).filter (bitOf zmap)).length
  let ws :=
    if bitsOf h 46 2 = 1 then
      let k := n * (512 / elemWidth fmt)
      let deltas := pay / 2 ^ (residueWidth fmt * k)
      let els := (List.range k).map fun i =>
        unexp fmt (bitsOf h 32 8 + elemAt deltas (bitsOf h 28 4) i) (elemAt pay (residueWidth fmt) i)
      (chunksOf (512 / elemWidth fmt) els).map (packBits (elemWidth fmt))
    else wordsOf n pay
  (spread zmap words 0 ws, bs.drop (8 + plen))
/-- The words of a stored item, chunk by chunk, on fuel. -/
def unpackChunks (fmt : Nat) : Nat → Nat → List Byte → List Nat
  | 0, _, _ => []
  | k + 1, words, bs =>
    if words = 0 then []
    else
      let r := unpackChunk fmt (min 16 words) bs
      r.1 ++ unpackChunks fmt k (words - 16) r.2
def unpackItem (fmt bytes : Nat) (stored : List Byte) : List Byte :=
  leBytes bytes (packBits 512 (unpackChunks fmt (bytes / 64) (bytes / 64) stored))

/-! ### The lossy forms (R319) -/

/-- The target format of a lossy FORM. -/
def lossyFmt (form : Nat) : Nat :=
  match form with
  | 2 => 0x10
  | 3 => 0x11
  | _ => 0x12
def lossyElems (it : PlanItem) : Nat := it.bytes / (elemWidth it.srcFmt / 8)
/-- An item quantised under the settings of R319. -/
def lossyQuant (s : State) (cl : Nat) (it : PlanItem) (raw : List Byte) : QuantRes :=
  let fmt := lossyFmt it.form
  let F := (fmtOf fmt).getD fmtF32
  let S := (fmtOf it.srcFmt).getD fmtF32
  let bits := leNat raw
  let els := (List.range (lossyElems it)).map fun i =>
    ({ x := S.decode (elemAt bits (elemWidth it.srcFmt) i), idx := i } : QElem)
  let ins := (chunksOf 32 els).zipIdx.map fun p => ({ idx := p.2, channel := 0, els := p.1 } : BlockIn)
  let P : ScaleP := { fmt := fmt, scope := 0, src := 0, geom := 0, rmode := 1, depth := 0, slot := 0, tensor := it.tensor,
                      fixedTs := 0, share := it.share }
  quantise P F .rne (s.drawArgs (16 * cl) it.tensor 0) [] [] none ins
/-- The codes packed, then the scale words. -/
def lossyBytes (it : PlanItem) (r : QuantRes) : List Byte :=
  let w := fmtBits (lossyFmt it.form)
  let sw := scaleWords false r.blocks
  leBytes (ceilDiv (w * lossyElems it) 8) (packBits w (r.blocks.flatMap (·.q.codes))) ++ leBytes (64 * sw.length) (packBits 512 sw)
/-- The restored elements of a lossy item, with the counts of R319. -/
def lossyRestore (it : PlanItem) (stored : List Byte) : List Byte × Cnt :=
  let fmt := lossyFmt it.form
  let w := fmtBits fmt
  let n := lossyElems it
  let bits := leNat stored
  let sw := bits / 2 ^ (8 * ceilDiv (w * n) 8)
  let S := (fmtOf it.srcFmt).getD fmtF32
  let convs := (List.range n).map fun i =>
    let b := i / 32
    let word := elemAt sw 512 (b / 32)
    convert (scaledNum fmt (elemAt bits w i) (swScale word (b % 32)) (swTs word)) S .rne 0
  (leBytes it.bytes (packBits (elemWidth it.srcFmt) (convs.map (·.code))), cntAll convs)

/-- The stored bytes of an item in a form. -/
def storedBytes (s : State) (cl : Nat) (it : PlanItem) (form : Nat) (raw : List Byte) : List Byte :=
  match form with
  | 0 => raw
  | 1 => packItem it.srcFmt raw
  | f => lossyBytes { it with form := f } (lossyQuant s cl { it with form := f } raw)
/-- The raw bytes back from the stored ones. -/
def restoredBytes (it : PlanItem) (form : Nat) (stored : List Byte) : List Byte × Cnt :=
  match form with
  | 0 => (stored, {})
  | 1 => (unpackItem it.srcFmt it.bytes stored, {})
  | f => lossyRestore { it with form := f } stored

/-! ### Items -/

def dItem : Nat → StashItem := fun _ => {}
def Cluster.item (c : Cluster) (i : Nat) : StashItem := smGet dItem c.stash i
def modItem (s : State) (cl i : Nat) (f : StashItem → StashItem) : State :=
  s.modCluster cl fun c => { c with stash := smSet dItem c.stash i (f (smGet dItem c.stash i)) }

/-- An item read as uncorrectable is lost (R317). -/
def loseItem (s : State) (cl i : Nat) : State :=
  if ((s.cluster cl).item i).lost then s
  else raise (modItem s cl i fun x => { x with lost := true, staged := false, data := [] }) 0x6A04 .stepAbort (uCluster cl)
/-- Bytes of a run of physical memory. -/
def memBytes (m : MemState) (a n : Nat) : List Byte := leBytes n (memRead m a n)

/-- The writes of a store's request done: memory bits, or the bytes of a stash item (R272, R293, R313). -/
def landPuts (s : State) (core : Nat) (f : Flight) : State :=
  match f.item with
  | some (n, _) =>
    let bits := f.puts.foldr (fun p acc => p.2.2 % 2 ^ p.2.1 + 2 ^ p.2.1 * acc) 0
    modItem s (clusterOf core) n fun x => { x with data := x.data ++ leBytes (sumOf (f.puts.map (·.2.1)) / 8) bits }
  | none =>
    f.puts.foldl (fun s p =>
      let m := clearPoison (dieSetBits (dieOf core) s.mem p.1 p.2.1 p.2.2) (p.1 / 8) (p.2.1 / 8)
      (s.withMem { m with raced := m.raced ++ (racedLine m (p.1 / 512 * 64)).filter fun l => !m.raced.contains l })) s

/-- The pool base of a tier (R313). -/
def State.pool (s : State) (cl tier : Nat) : Nat :=
  match tier with
  | 0 => s.reg (Obj.siphClT0Pool cl)
  | 1 => s.reg (Obj.siphClT1Pool cl)
  | _ => s.reg (Obj.siphClT2Pool cl)

/-- An item that stands in memory in its stored form restored to raw bytes, its flags counted (R317, R319). -/
def expandItem (s : State) (cl i : Nat) (it : PlanItem) : State :=
  let x := (s.cluster cl).item i
  let r := restoredBytes it x.form (memBytes s.mem x.pa x.stored)
  let s := modItem s cl i fun x => { x with data := r.1, present := true }
  (s.bump (Obj.siphClExpandSat cl) r.2.sat).bump (Obj.siphClExpandZero cl) r.2.zeroed

/-! ### Windows (R313) -/

/-- The cluster whose stash window holds a virtual address. -/
def State.windowOf (s : State) (va : Nat) : Option Nat :=
  let b := s.reg Obj.siphWindowBase
  if b ≤ va && decide (va < b + 16 * 2 ^ 36) then some ((va - b) / 2 ^ 36) else none
/-- The item and offset an access of 64 bytes reaches, or none: a fault of cause 7. -/
def windowItem (s : State) (core tc va : Nat) (store : Bool) : Option (Nat × Nat) :=
  let cl := clusterOf core
  if tc ≠ 2 || s.windowOf va ≠ some cl then none
  else
    let o := (va - s.reg Obj.siphWindowBase) % 2 ^ 36
    (s.spillPlan cl).bind fun p =>
      ((planItems s p.1 p.2).zipIdx.find? fun q => decide (q.1.woff ≤ o) && decide (o < q.1.woff + q.1.bytes)).bind fun q =>
        if store && ((s.cluster cl).item q.2).asked ≠ o - q.1.woff then none else some (q.2, o - q.1.woff)
/-- Staging bytes in use: items on their way to or from T1 and T2. -/
def stagingUsed (s : State) (cl : Nat) (items : List PlanItem) : Nat :=
  sumOf (items.zipIdx.map fun p =>
    let x := (s.cluster cl).item p.2
    if x.staged || (x.placed && x.tier ≠ 0) || (!x.placed && p.1.tier ≠ 0) then x.data.length else 0)
/-- A window store finds staging full (R317). -/
def stagingFull (s : State) (cl : Nat) : Bool :=
  match s.spillPlan cl with
  | some p => decide (s.reg (Obj.siphClT0Len cl) - planT0Share s p < stagingUsed s cl (planItems s p.1 p.2) + 64)
  | none => false

/-! ### Placement (R316) -/

/-- The next item to place: the first unplaced one that is complete or that the alternative in force writes. -/
def nextToPlace (s : State) (cl : Nat) (items : List PlanItem) : Option (PlanItem × Nat) :=
  items.zipIdx.find? fun p =>
    let x := (s.cluster cl).item p.2
    !x.placed && !x.lost && (p.1.recomp == (s.cluster cl).recompute || x.data.length == p.1.bytes)

/-- Where an item goes: tier, form, whether from the reserve, whether redirected by the high-water mark. -/
structure Place where
  tier : Nat
  form : Nat
  reserve : Bool
  redirect : Bool
  deriving DecidableEq, Repr
/-- The decisions of R316 up to the reserve. `size f` is the stored size in a form. -/
def choosePlace (it : PlanItem) (size : Nat → Nat) (l : Nat × Nat × Nat) (high t1 t2 : Nat) : Place :=
  let redirect := it.tier == 0 && decide (high < l.1 + size it.form)
  let t := if redirect then 1 else it.tier
  let f := if redirect && it.form = 0 then 1 else it.form
  let t := if t = 1 && decide (t1 < l.2.1 + size f) then 2 else t
  if t = 2 && decide (t2 < l.2.2 + size f) then ⟨0, it.form, true, redirect⟩ else ⟨t, f, false, redirect⟩
def ledgerAt (l : Nat × Nat × Nat) : Nat → Nat
  | 0 => l.1
  | 1 => l.2.1
  | _ => l.2.2
def ledgerAdd (l : Nat × Nat × Nat) (t n : Nat) : Nat × Nat × Nat :=
  match t with
  | 0 => (l.1 + n, l.2.1, l.2.2)
  | 1 => (l.1, l.2.1 + n, l.2.2)
  | _ => (l.1, l.2.1, l.2.2 + n)

/-- A request for recompute (R316): the first use of the reserve in a step. -/
def requestRecompute (s : State) (cl : Nat) : State :=
  let c := s.cluster cl
  if c.recomputeReq || c.recompute then s
  else raise ((s.modCluster cl fun c => { c with recomputeReq := true }).bump (Obj.siphClRecomputes cl) 1) 0x6A11 .note (uCluster cl)

/-- NaNs that a cluster's Siphon writes as +0 (R85); the Siphon is a Spillway (R319), and its first of a tensor and step is
reported under its cluster. -/
def narrowedBySiphon (s : State) (cl tensor n : Nat) : State :=
  if n = 0 then s
  else
    let s := s.bump Obj.fmtNanNarrowed n
    let key := 0x1000000 + tensor
    if (s.cluster cl).firsts.contains key then s
    else raise (s.modCluster cl fun c => { c with firsts := key :: c.firsts }) 0x3A02 .note (uCluster cl)

/-- The share record of a lossy item and the NaNs it narrows (R85, R319). -/
def lossyShare (s : State) (cl : Nat) (it : PlanItem) (form : Nat) (raw : List Byte) : State :=
  if form < 2 then s
  else
    let r := lossyQuant s cl { it with form := form } raw
    narrowedBySiphon (scopeShare s cl it.share it.tensor r.cnt r.amax r.ts) cl it.tensor r.cnt.nan

/-- An item placed (R316). -/
def placeItem (s : State) (cl i : Nat) (it : PlanItem) (p : TableRec × Nat) : State :=
  let raw := ((s.cluster cl).item i).data
  let size := fun f => (storedBytes s cl it f raw).length
  let l := (s.cluster cl).ledger
  let d := choosePlace it size l (planT0High s p) (planT1Share s p) (planT2Share s p)
  let s := if d.redirect && !(s.cluster cl).redirected then
      raise (s.modCluster cl fun c => { c with redirected := true }) 0x6A10 .note (uCluster cl) else s
  let s := if d.reserve then requestRecompute s cl else s
  let n := size d.form
  if d.reserve && decide (planT0Share s p < l.1 + n) then raise s 0x6A12 .stepAbort (uCluster cl)
  else
    let pa := s.pool cl d.tier + ledgerAt l d.tier
    let bytes := storedBytes s cl it d.form raw
    let s := lossyShare s cl it d.form raw
    let s := if d.tier = 0 then
        modItem (s.withMem (clearPoison (memWriteBytes s.mem pa bytes) pa n)) cl i fun x => { x with data := [], present := true }
      else modItem s cl i fun x => { x with staged := true }
    let s := modItem s cl i fun x => { x with placed := true, tier := d.tier, form := d.form, pa := pa, stored := n }
    let s := s.modCluster cl fun c => { c with ledger := ledgerAdd c.ledger d.tier n }
    let s := if d.tier = it.tier then s else s.bump (Obj.siphClRedirects cl) 1
    (s.bump (Obj.siphClRawBytes cl) it.bytes).bump (Obj.siphClStoredBytes cl) n

/-- What the Siphon reads of the spill plan in force: the bucket's word, the plan's offset, its header and items (R40, R60, R314, R315). -/
def planReads (s : State) (cl : Nat) (p : TableRec × Nat) : List (TableRec × Nat × Nat) :=
  let base := s.tblRd p.1 0x18 8
  let words := ((s.cluster cl).plan.drop ((s.cluster cl).mb - 1)).head?.toList.flatMap fun m =>
    [(p.1, base + 8 + 8 * m.bucket, 8), (p.1, base + 256 + 8 * bitsOf (bucketWord s p.1 m.bucket) 12 8, 8)]
  (p.1, 0x18, 8) :: words ++ [(p.1, p.2, 0x40 + 32 * s.tblRd p.1 (p.2 + 4) 4)]
/-- A command of a cluster's Siphon under the spill plan in force, once what it reads of it is as measured (R40). -/
def siphonCommand (cl : Nat) (f : TableRec × Nat → State → State) (s : State) : Host.Outcome State Fault Refusal :=
  match s.spillPlan cl with
  | none => .next s
  | some p =>
    if p.1.bad then .next s
    else match firstDiffer s (planReads s cl p) with
      | some t => .next (mismatchBy s (uCluster cl) t)
      | none => .next (f p s)

/-- An item that the Siphon reads from the staging area as uncorrectable: counted in the tier, and lost (R296, R317). The manual gives a
staged word no pseudo-channel, and none counts it (DESIGN CHOICE, log 83). -/
def loseStaged (s : State) (cl i : Nat) : State := loseItem (s.bump Obj.memUeT0 1) cl i
/-- The first word of a stored item that reads as uncorrectable (R297, R299). -/
def storedBad (s : State) (x : StashItem) (ue : Bool) : Option Nat :=
  if ue || !s.installed x.pa then some x.pa
  else ((List.range (ceilDiv x.stored 8)).map (x.pa + 8 * ·)).find? fun a => poisoned s.mem a 8

/-- The next item of the plan placed, once its last word is written. -/
def placeNext (cl : Nat) (ue : Bool) (p : TableRec × Nat) (s : State) : State :=
  match nextToPlace s cl (planItems s p.1 p.2) with
  | none => s
  | some (it, i) =>
    if ((s.cluster cl).item i).data.length ≠ it.bytes then s
    else if ue then loseStaged s cl i else placeItem s cl i it p
/-- SIPHON_ITEM_PLACE (R316): the next item of the plan, once its last word is written; `ue` says the Siphon reads it as
uncorrectable. -/
def execSiphonItemPlace (cl : Fin 16) (ue : Bool) (s : State) : Host.Outcome State Fault Refusal := siphonCommand cl (placeNext cl ue) s

/-- The oldest item waiting in staging written to its place in T1 or T2. -/
def offloadNext (cl : Nat) (ue : Bool) (p : TableRec × Nat) (s : State) : State :=
  match (planItems s p.1 p.2).zipIdx.find? fun q => ((s.cluster cl).item q.2).staged with
  | none => s
  | some (it, i) =>
    if ue then loseStaged s cl i
    else
      let x := (s.cluster cl).item i
      let bytes := storedBytes s cl it x.form x.data
      let s := (s.withMem (clearPoison (memWriteBytes s.mem x.pa bytes) x.pa x.stored))
      modItem s cl i fun x => { x with data := [], staged := false }
/-- SIPHON_OFFLOAD_DONE (R317): the oldest item waiting in staging reaches T1 or T2. -/
def execSiphonOffloadDone (cl : Fin 16) (ue : Bool) (s : State) : Host.Outcome State Fault Refusal := siphonCommand cl (offloadNext cl ue) s

/-- Prefetch begins at the last item. It does not wait for room in the staging area: only window stores are held by it (DESIGN CHOICE,
log 83). -/
def prefetchStart (cl : Nat) (p : TableRec × Nat) (s : State) : State :=
  let items := planItems s p.1 p.2
  if (nextToPlace s cl items).isSome || (s.cluster cl).prefetch.isSome then s
  else s.modCluster cl fun c => { c with prefetch := some items.length }
/-- SIPHON_PREFETCH_START (R317): once the micro-batch has placed its last item. -/
def execSiphonPrefetchStart (cl : Fin 16) (s : State) : Host.Outcome State Fault Refusal := siphonCommand cl (prefetchStart cl) s

/-- The next item in reverse order restored to T0. -/
def prefetchNext (cl : Nat) (ue : Bool) (p : TableRec × Nat) (s : State) : State :=
  match (s.cluster cl).prefetch with
  | none => s
  | some n =>
    match ((planItems s p.1 p.2).zipIdx.take n).reverse.find? fun q =>
        let x := (s.cluster cl).item q.2
        x.placed && x.tier != 0 && !x.present && !x.staged && !x.lost with
    | none => s.modCluster cl fun c => { c with prefetch := some 0 }
    | some (it, i) =>
      let x := (s.cluster cl).item i
      let s := s.modCluster cl fun c => { c with prefetch := some i }
      match storedBad s x ue with
      | some a => loseItem (noteUe s a) cl i
      | none => expandItem s cl i it
/-- SIPHON_PREFETCH_DONE (R317): the next item in reverse order is back in T0, restored. -/
def execSiphonPrefetchDone (cl : Fin 16) (ue : Bool) (s : State) : Host.Outcome State Fault Refusal := siphonCommand cl (prefetchNext cl ue) s

/-- An arming that read items has completed: the space of an item read READS times is freed (R317). -/
def itemsRead (s : State) (cl : Nat) (items : List Nat) : State :=
  match s.spillPlan cl with
  | none => s
  | some p => forAll items (fun i s =>
      let it := planItem s p.1 p.2 i
      modItem s cl i fun x =>
        if it.reads ≤ x.loads + 1 then { x with loads := x.loads + 1, data := [], present := x.present && x.form == 0 && x.tier == 0 }
        else { x with loads := x.loads + 1 }) s

/-- The stash released: a discard, or a new micro-batch (R203, R316). -/
def clearStash (c : Cluster) : Cluster := { c with stash := [], prefetch := none, ledger := (0, 0, 0) }

end Sys2Proof.Machine
end

