-- ==== Sys2Proof/Machine/Slots.lean ====
section
/-! DEFINITION. Rollout slots: the rollout record (R238), slots (R240), the records of the output ring (R245, R246) and
the end of a sequence (R244, R246). -/

namespace Sys2Proof.Machine

/-! ### The rollout record (R238) -/

/-- A field of the rollout record at the head of the segment directory of a cluster's role-2 image. -/
def imageRoll (s : State) (t : TableRec) (off size : Nat) : Nat := s.tblRd t (s.tblRd t 0x10 8 + off) size
def State.rollField (s : State) (cl off size : Nat) : Nat :=
  match s.table 6 cl 2 with
  | some t => imageRoll s t off size
  | none => 0
def State.slotsOf (s : State) (cl : Nat) : Nat := s.rollField cl 0x04 2
def State.vocab (s : State) (cl : Nat) : Nat := s.rollField cl 0x50 4
def dSlot : Nat → Slot := fun _ => {}
def Cluster.slot (c : Cluster) (n : Nat) : Slot := smGet dSlot c.slots n
def Cluster.modSlot (c : Cluster) (n : Nat) (f : Slot → Slot) : Cluster := { c with slots := smSet dSlot c.slots n (f (c.slot n)) }
/-- The global slot number (R239). -/
def globalSlot (cl sl : Nat) : Nat := 1024 * cl + sl

/-! ### Records of the output ring (R245, R246) -/

/-- A token record (R246). -/
def tokenRecord (seqId pos token logp info epoch : Nat) : Nat :=
  seqId % 2 ^ 64 + pos % 2 ^ 32 * 2 ^ 64 + token % 2 ^ 32 * 2 ^ 96 + logp % 2 ^ 32 * 2 ^ 128 + info % 2 ^ 32 * 2 ^ 160 +
    epoch % 2 ^ 64 * 2 ^ 192
/-- FRAME of the current observation of a cluster, or 0. -/
def frameOf (c : Cluster) : Nat := (c.observed.map (· % 2 ^ 16)).getD 0
def slotRecord (s : State) (cl : Nat) (x : Slot) (token logp : Nat) : Nat :=
  tokenRecord x.seqId x.generated token logp
    ((if x.mixed then 2 ^ 29 else 0) + frameOf (s.cluster cl) * 2 ^ 8) (s.reg Obj.epochActive)

/-- A record put into the output ring. -/
def ringPut (s : State) (r : Nat) : State :=
  let h := s.reg Obj.rollOutHead
  (s.memWr (s.reg Obj.rollOutRing + 32 * (h % max 1 (s.reg Obj.rollOutSize))) 32 r).setReg Obj.rollOutHead ((h + 1) % 2 ^ 32)

/-- The reasons of an end record. -/
def reStop : Nat := 1
def reMaxNew : Nat := 2
def reMaxCtx : Nat := 3
def reCancel : Nat := 4
def reEpoch : Nat := 5
def reRole : Nat := 6
def reNonfinite : Nat := 7
def reInvalid : Nat := 8
/-- An end record. -/
def endRecord (s : State) (cl seqId count reason : Nat) (mixed : Bool) : Nat :=
  tokenRecord seqId count 0 0 (2 ^ 30 + (if mixed then 2 ^ 29 else 0) + frameOf (s.cluster cl) * 2 ^ 8 + reason) (s.reg Obj.epochActive)
def Slot.live (x : Slot) : Bool := x.st == .prefill || x.st == .decode
/-- A live slot marked to end. -/
def endSlot (reason : Nat) (x : Slot) : Slot := if x.live then { x with st := .ended, reason := reason } else x
def liveSlots (c : Cluster) : Nat := (c.slots.filter fun p => p.2.live).length
def refreshLive (s : State) (cl : Nat) : State := s.setReg (Obj.rollClLive cl) (liveSlots (s.cluster cl))
/-- The end records of a cluster's ENDED slots in order; the slots become EMPTY. -/
def writeEndsOf (s : State) (cl : Nat) : State :=
  let ended := (s.cluster cl).slots.filter fun p => p.2.st == .ended
  let s := forAll ended (fun p s =>
    let s := (ringPut s (endRecord s cl p.2.seqId p.2.generated p.2.reason p.2.mixed)).bump (Obj.rollClEnded cl) 1
    s.modCluster cl fun c => c.modSlot p.1 fun _ => {}) s
  refreshLive s cl
/-- The end records of every cluster, by increasing global slot (R241 row 4). -/
def writeEnds (s : State) : State := forAll allClusters (fun cl s => writeEndsOf s cl) s

end Sys2Proof.Machine
end

