-- ==== Sys2Proof/Machine/CoreFault.lean ====
section
/-! DEFINITION. What ends streams all at once (R273, R276, R287), what a cluster does on leaving its role (R65), and a
core fault (R56, R375). -/

namespace Sys2Proof.Machine

/-! ### Contexts and Sluices -/

def modCtx (s : State) (core i : Nat) (f : Ctx → Ctx) : State := s.modCore core fun c => c.modCtx i f
def modSlu (s : State) (core sl : Nat) (f : Sluice → Sluice) : State := s.modCore core fun c => c.modSluice sl f
/-- The Sluice of a context. -/
def State.sluOf (s : State) (core i : Nat) : Nat := ((s.desc core i).map (·.sluice)).getD 0
/-- A load's packet in progress: words written, asked for, or space reserved. -/
def inProgress (s : State) (core i : Nat) : Bool :=
  let q := (s.core core).sluice (s.sluOf core i)
  !((s.core core).ctx i).flight.isEmpty || !q.prog.isEmpty || q.rsv != 0
/-- Whether an engine of the core still holds words for a Sluice. -/
def State.heldFor (s : State) (core sl : Nat) : Bool := (s.core core).running.any fun r => r.outq.any fun x => x.1 == sl
/-- The requests issued by a context complete (R282): the writes of a store land, an answer to a load that has given it up is dropped. -/
def landIssued (s : State) (core i : Nat) : State :=
  modCtx (forAll ((s.core core).ctx i).flight (fun f s => landPuts s core f) s) core i fun c => { c with flight := [], walk := none }
/-- The packet in progress of a context discarded and counted (R276); a store starts its packet again at its first element (R287). -/
def rewindOne (s : State) (core i : Nat) : State :=
  let s := modCtx (landIssued s core i) core i fun c => { c with clears := 0 }
  (modSlu s core (s.sluOf core i) fun q =>
    if ((s.desc core i).map (·.store)).getD false then { q with taken := 0 } else { q with prog := [], rsv := 0 }).bump (Obj.strmRewinds core) 1
/-- What a stop, a flush or a fence finds in progress on a context (R287): words of a load; a packet that an engine holds for a store, or
one that a halted store has not written whole. -/
def holdsPacket (s : State) (core i : Nat) : Bool :=
  if ((s.desc core i).map (·.store)).getD false then
    s.heldFor core (s.sluOf core i) ||
      (((s.core core).ctx i).st == .haltFault && !((s.core core).sluice (s.sluOf core i)).packets.isEmpty)
  else inProgress s core i
/-- A context ended: what it has issued completes, it is disarmed, its packet in progress is gone, a fault record withdrawn (R271, R282,
R287, R309). -/
def disarmOne (s : State) (core i : Nat) : State :=
  let s := landIssued (withdraw s core i) core i
  modSlu (modCtx s core i fun _ => {}) core (s.sluOf core i) fun q => { q with prog := [], rsv := 0, flush := false }
/-- A Sluice emptied. -/
def emptySlu (s : State) (core sl : Nat) : State :=
  modSlu s core sl fun q => { q with packets := [], taken := 0, prog := [], rsv := 0, flush := false, nbytes := [], src := none }

/-! ### Boundaries, stops and fences (R273, R276, R287) -/

/-- The armed contexts of a core. -/
def State.armedOn (s : State) (core : Nat) : List Nat := (List.range 48).filter fun i => ((s.core core).ctx i).armed
/-- Every context of a core ended and its Sluices emptied; a narrow Sluice is left alone (R273, R280). -/
def clearStreams (s : State) (core : Nat) : State :=
  let s := forAll (s.armedOn core) (fun i s => disarmOne s core i) s
  forAll ((List.range 16).filter fun sl => !((s.core core).sluice sl).narrow) (fun sl s => emptySlu s core sl) s
/-- Whether an arming is complete. -/
def armingDone (s : State) (core i : Nat) : Bool :=
  let c := (s.core core).ctx i
  c.st == .done || !c.armed
/-- The contexts of a core whose arming a step boundary cuts short. -/
def cutArmings (s : State) (core : Nat) : List Nat :=
  (List.range 48).filter fun i => !armingDone s core i && !((s.core core).sluice (s.sluOf core i)).narrow
/-- An arming cut short: counted, and its position recorded (R273, R288, R388). -/
def cutArming (s : State) (core i : Nat) : State :=
  let c := (s.core core).ctx i
  let s := s.bump (Obj.strmBoundaryCuts core) 1
  match s.desc core i with
  | some d =>
    ledgerStream s core i
      (streamEntry (c.packets * d.pktElems) c.packets SState.disarmed.code d.store (d.store && !c.flight.isEmpty) c.cause)
  | none => s
/-- Whether a context carries the scale words of an armed data stream, and follows it (R268). -/
def isLinked (s : State) (core i : Nat) : Bool := (s.armedOn core).any fun j => ((s.desc core j).map (·.scaleLink)) == some i
/-- The flushes a boundary makes: of every training-class Sluice whose stream is armed by itself (R273, R278). -/
def flushedAtBoundary (s : State) (core : Nat) : Nat :=
  ((s.armedOn core).filter fun i => ((s.desc core i).map (·.tc)).getD 0 != 1 && !isLinked s core i &&
    !((s.core core).sluice (s.sluOf core i)).narrow).length
/-- A step boundary of a cluster ends every arming of its cores (R273). -/
def boundaryDisarm (s : State) (cl : Nat) : State :=
  forAll (coresOf cl) (fun core s =>
    let flushed := flushedAtBoundary s core
    clearStreams ((forAll (cutArmings s core) (fun i s => cutArming s core i) s).bump (Obj.strmFlushes core) flushed) core) s
/-- Every packet in progress on a core rewound (R276, R287). -/
def rewindHeld (s : State) (core : Nat) : State :=
  forAll ((s.armedOn core).filter (holdsPacket s core)) (fun i s => rewindOne s core i) s
/-- A stop of all groups rewinds every packet in progress (R276, R287). -/
def stopRewind (s : State) : State := forAll (s.cores.map (·.1)) (fun core s => rewindHeld s core) s
/-- The fencing of a core: packets rewound, streams disarmed, Sluices emptied (R287). -/
def fenceStreams (s : State) (core : Nat) : State := clearStreams (rewindHeld s core) core

/-! ### Leaving a role (R65) and a group (R24) -/

/-- `EPOCH.BASE0`, `EPOCH.BASE1` and `EPOCH.LEN` of the rollout group's images; 0 while it has none (R257). -/
def refreshEpoch (s : State) : State :=
  match s.inRole 2 with
  | cl :: _ =>
    ((s.setReg Obj.epochBase0 (s.rollField cl 0x60 8)).setReg Obj.epochBase1 (s.rollField cl 0x68 8)).setReg Obj.epochLen
      (s.rollField cl 0x70 8)
  | [] => s.clearRegs [Obj.epochBase0, Obj.epochBase1, Obj.epochLen]
/-- What a core of a leaving cluster gives up: accumulators, entries, tokens. -/
def emptyCore (c : Core) : Core :=
  { c with acc := [], regions := [], todo := [], running := [], tokens := [], accHeld := false, scouts := [] }
/-- What a leaving cluster gives up: its stash, its plan and length words, its observations; live slots end with reason ROLE, or CANCEL
where they were cancelled first (R244). -/
def emptyCluster (c : Cluster) : Cluster :=
  { c with stash := [], prefetch := none, ledger := (0, 0, 0), plan := [], lengths := [], rowMap := [], since := [], encoding := none,
           encoded := none, observed := none,
           slots := c.slots.map fun p => (p.1, endSlot (if p.2.cancel then reCancel else reRole) p.2) }
/-- A group that has lost its last cluster waits for no table and reads none: a table it alone still read is given up, and one that only it
waited for is active for every group that uses it (R469). -/
def releaseTables (s : State) (g : Nat) : State :=
  let waits (t : TableRec) : Bool := t.active && t.waitGroups == [g]
  let last := s.tables.any fun t => waits t && t.handle == s.reg Obj.tblActivate
  let s := s.withTables (s.tables.filterMap fun t =>
    if t.active && t.oldFor == [g] then none
    else some (if t.active then { t with oldFor := t.oldFor.filter (· != g), waitGroups := t.waitGroups.filter (· != g) } else t))
  if last then s.setReg Obj.tblActStatus 0 else s
/-- A cluster leaves its role: streams and Sluices cleared, stash and KV regions released, accumulators emptied; live
slots end with reason ROLE; the cluster is idle and its group goes on without it. -/
def leaveRole (s : State) (cl : Nat) : State :=
  let s := boundaryDisarm s cl
  let s := forAll (coresOf cl) (fun n s => s.modCore n emptyCore) s
  let g := s.role cl
  let s := s.modCluster cl emptyCluster
  let t := s.train.members.filter (· != cl)
  let r := s.roll.members.filter (· != cl)
  let s := ((s.withTrain { s.train with members := t, phase := if t.isEmpty && s.train.phase == Phase.boundary then .idle else s.train.phase }).withRoll { s.roll with members := r, phase := if r.isEmpty then .idle else s.roll.phase })
  let s := s.setReg (Obj.schedClRole cl) 0
  refreshEpoch (if (s.inRole g).isEmpty then releaseTables s g else s)

/-! ### Core faults (R375, R56) -/

/-- A request held for a core's domain is refused once the core is fenced (R420). -/
def dropHeld (s : State) (id : Nat) : State :=
  let held := smGet (fun _ => none) s.power.held id
  let p := s.power
  let s := (s.withPower { p with held := smErase p.held id, trans := smErase p.trans id })
  if held = some dsOn then domRefuse s id rfFenced else s
/-- A second fenced core takes the cluster out of its group (R56). -/
def clusterOut (s : State) (cl : Nat) : State :=
  let s := if s.role cl = 0 then s else writeEndsOf (leaveRole s cl) cl
  raise (s.setReg (Obj.schedClRoleReq cl) 0) 0x4A30 .degrade (uCluster cl)
/-- What the hardware does at a core fault: steps 1 to 3 of R375. -/
def faultStop (s : State) (core : Nat) : State :=
  let s := raise s 0x8A10 .stepAbort (uCore core)
  let s := fenceStreams s core
  coreOff (dropHeld s (domCore core)) core
/-- What the management controller does: steps 4 to 6. -/
def faultFence (s : State) (core : Nat) : State :=
  let cl := clusterOf core
  let s := s.setReg Obj.resFencedMap (s.reg Obj.resFencedMap ||| 2 ^ core)
  let s := refreshFenced s cl
  let s := if (s.fencedIn cl).length = 2 then clusterOut s cl else s
  raise s 0x8A11 .degrade (uCore core)
/-- A core fault, in the order of R375; during a warm restart the fence follows it (R448). A core already fenced has no fault to take. -/
def coreFault (s : State) (core : Nat) : State :=
  if s.coreFenced core || s.mgt.faults.contains core then s
  else
    let s := faultStop s core
    if s.mgt.restarting then s.withMgt { s.mgt with faults := s.mgt.faults ++ [core] } else faultFence s core
/-- The cores that failed during a warm restart are fenced. -/
def fenceWaiting (s : State) : State :=
  forAll s.mgt.faults (fun core s => faultFence s core) (s.withMgt { s.mgt with faults := [] })

end Sys2Proof.Machine
end

