-- ==== Sys2Proof/Machine/Entries.lean ====
section
/-! DEFINITION. How an entry starts (R50), takes its operands from committed packets (R146, R275, R277), is held for
an accumulator region (R127) and delivers its results; the accumulator regions with their segments (R173, R181). -/

namespace Sys2Proof.Machine

/-! ### Accumulator regions (R172, R181) -/

def Core.pair (c : Core) (i : Nat) : Pair := Pair.ofWord (smGet zeroWord c.acc i)
def Core.setPair (c : Core) (i : Nat) (p : Pair) : Core := { c with acc := smSet zeroWord c.acc i p.toWord }
def Core.setPairs (c : Core) (base : Nat) : List Pair → Core
  | [] => c
  | p :: ps => (c.setPair base p).setPairs (base + 1) ps
def Core.pairs (c : Core) (base n : Nat) : List Pair := (List.range n).map fun i => c.pair (base + i)
def Core.region (c : Core) (base : Nat) : Region := (c.regions.find? fun r => r.base == base).getD { base := base }
def Core.modRegion (c : Core) (base : Nat) (f : Region → Region) : Core :=
  { c with regions := f (c.region base) :: c.regions.filter fun r => r.base != base }
/-- A region zeroed and its count restarted: FIRST or DW_FIRST (R123, R150, R181). -/
def startRegion (s : State) (core base len wid : Nat) : State :=
  s.modCore core fun c =>
    (c.setPairs base (List.replicate len Pair.zero)).modRegion base fun _ => { base := base, len := len, wid := wid, pinned := wid != 0 }

/-- Pairs held in a cluster's segment store (R172). -/
def segStored (s : State) (cl : Nat) : Nat :=
  sumOf ((coresOf cl).map fun n => sumOf ((s.core n).regions.map fun r => sumOf (r.segs.map List.length)))
/-- A segment closed (R181): the pairs go to the segment store, and the region restarts at zero. -/
def closeSegment (s : State) (core base : Nat) : State :=
  let s := s.modCore core fun c =>
    let r := c.region base
    let ps := (c.pairs base r.len).map Pair.toWord
    (c.setPairs base (List.replicate r.len Pair.zero)).modRegion base fun r => { r with slots := 0, segs := r.segs ++ [ps] }
  (s.bump (Obj.accSegClosed core) 1).raiseTo (Obj.accSegStorePeak (clusterOf core)) (segStored s (clusterOf core))
/-- A region with closed segments combined by the reduction tree before it is read (R181). -/
def combineRegion (s : State) (core base : Nat) (cls : TileClass) : State :=
  let r := (s.core core).region base
  if r.segs.isEmpty then s
  else
    let opens := (s.core core).pairs base r.len
    let res := opens.zipIdx.map fun p =>
      segmentCombine (r.segs.length + 1) (r.segs.map (fun g => Pair.ofWord ((g.drop p.2).headD 0)) ++ [p.1])
    let s := s.modCore core fun c => (c.setPairs base (res.map (·.1))).modRegion base fun r => { r with segs := [] }
    let s := noteAcc s core cls (res.foldl (fun a p => a.plus p.2) {})
    let s := setHealth (s.bump (Obj.accLongTiles core) 1) (clusterOf core) (2 ^ 6)
    raiseFirstCl s (clusterOf core) 0x3E03 .note
/-- Slots entered into every element of a region; a segment closes when the count stands at 65,536 (R175, R181). `els`
lists the slots of each element; all have the same number. On fuel. -/
def enterRegion (core base : Nat) (cls : TileClass) : Nat → List (List XNum) → State → State
  | 0, _, s => s
  | k + 1, els, s =>
    let n := els.foldl (fun m l => max m l.length) 0
    if n = 0 then s
    else
      let r := (s.core core).region base
      if 65536 ≤ r.slots then enterRegion core base cls k els (closeSegment s core base)
      else
        let m := min n (65536 - r.slots)
        let res := (els.zipIdx).map fun p => enterAll ((s.core core).pair (base + p.2)) (p.1.take m)
        let s := s.modCore core fun c =>
          (c.setPairs base (res.map (·.1))).modRegion base fun r => { r with slots := r.slots + m, len := max r.len els.length }
        let s := noteAcc s core cls (res.foldl (fun a p => a.plus p.2) {})
        enterRegion core base cls k (els.map (·.drop m)) s
/-- A pair added into a pair, with its flags (R174, R180). -/
def addPair (p q : Pair) : Pair × AccFlags := let r := pairAdd p q; (r.pair, callFlags p r)

def rangesMeet (a b : Nat × Nat) : Bool := decide (a.1 < b.1 + b.2) && decide (b.1 < a.1 + a.2)

/-! ### Starting an entry (R40, R50, R127) -/

/-- The entry a command names: the first started one of its class that still gathers operands, else the head of the
core's list. -/
structure Cur where
  re : RunEntry
  fresh : Bool
  img : TableRec
  blk : Nat
  deriving DecidableEq, Repr

def currentEntry (s : State) (core op : Nat) : Option Cur :=
  (s.image core).bind fun img =>
    match (s.core core).running.find? fun r => r.entry.op == op && !r.formed with
    | some r => some ⟨r, false, img, s.blockAt img r.entry⟩
    | none =>
      match (s.core core).todo with
      | p :: _ =>
        let e := s.entryAt img p.off
        if e.op = op then some ⟨{ plan := p, entry := e }, true, img, s.blockAt img e⟩ else none
      | [] => none

/-- The group of a core's cluster has stopped issuing entries (R200), or a stop is in force. -/
def State.groupHalted (s : State) (core : Nat) : Bool :=
  match s.role (clusterOf core) with
  | 1 => s.train.abort || s.stopped
  | 2 => s.roll.abort || s.stopped
  | _ => true

/-- Parts of a plan whose entries wait on each other's tokens: encodings (part 0) stand by themselves. -/
def partBefore (k mb : Nat) : Bool := decide (k ≤ mb) && ((k == 0) == (mb == 0))
/-- Whether a core has still to commit a token in a part up to `mb`. -/
def owesToken (s : State) (core : Nat) (img : TableRec) (t mb : Nat) : Bool :=
  ((s.core core).todo.any fun p => partBefore p.mb mb && (s.entryAt img p.off).out == t) ||
    (s.core core).running.any fun r => partBefore r.plan.mb mb && r.entry.out == t
/-- A token holds committed input for an entry of part `mb` once its own part has committed it, on any core of the cluster; where the part
brings none, once an earlier part has and nothing up to the part has still to (DEDUCED, log 74). -/
def tokenHeld (s : State) (core : Nat) (img : TableRec) (mb t : Nat) : Bool :=
  let cs := coresOf (clusterOf core)
  (cs.any fun n => (s.core n).tokens.contains (t, mb)) ||
    ((cs.any fun n => (s.core n).tokens.any fun q => q.1 == t && partBefore q.2 mb) && !cs.any fun n => owesToken s n img t mb)
/-- The three conditions of R50. -/
def startsNow (s : State) (core : Nat) (c : Cur) : Bool :=
  let w := c.img.waitOf core c.re.entry.wait
  !s.groupHalted core && decide (c.re.plan.origin + c.re.entry.earliest ≤ s.beat) &&
    w.1.all (fun q => !((s.core core).sluice q).packets.isEmpty) && w.2.all (tokenHeld s core c.img c.re.plan.mb)

/-- Whether any pair of the regions named is still to be written by a started entry: its last write is made when its results are formed
(R127). -/
def heldForRegion (s : State) (core : Nat) (regions : List (Nat × Nat)) : Bool :=
  (s.core core).running.any fun r => !r.formed && r.regions.any fun a => regions.any fun b => rangesMeet a b

/-- A Sluice of the WAIT list that the entry's parameter block does not name carries weights, scale words, metadata or
side weights into the transposable weight store (DEDUCED, log 17): its committed packets are written there from `dest`. -/
def loadStore (s : State) (core sl dest : Nat) : State :=
  let q := (s.core core).sluice sl
  let r := q.take q.avail
  s.modCore core fun c =>
    { (c.modSluice sl fun _ => r.2) with
      wstore := sramWrite c.wstore (64 * dest) (64 * r.1.length) (packBits 512 (r.1.map (·.data))) }
/-- Where the Sluices that feed the store go: words of a scale stream to the scale words, the others in WAIT order. -/
def loadAll (core scaleDest : Nat) : List Nat → List Nat → State → State
  | [], _, s => s
  | sl :: sls, dests, s =>
    if ((s.ctxOn core sl).map (·.2.elemFmt)) = some 0x40 then loadAll core scaleDest sls dests (loadStore s core sl scaleDest)
    else match dests with
      | d :: ds => loadAll core scaleDest sls ds (loadStore s core sl d)
      | [] => s

/-- The load stream whose packets a Sluice holds or held last: its context, descriptor, arming and completed packets (R277). -/
structure LoadSrc where
  ctx : Nat
  desc : Desc
  arm : Arming
  packets : Nat
  deriving DecidableEq, Repr
def State.loadSrc (s : State) (core sl : Nat) : Option LoadSrc :=
  match s.ctxOn core sl with
  | some (i, d) => if d.store then none else some ⟨i, d, ((s.core core).ctx i).arm, ((s.core core).ctx i).packets⟩
  | none => (((s.core core).sluice sl).src).bind fun q => (s.desc core q.1).map fun d => ⟨q.1, d, q.2, d.numPkts⟩
/-- A load stream set back to the first element of packet `k`: the packets of its Sluice are discarded; a halted stream stays halted, any
other fetches them again, also one whose arming was complete (R107, R277; DEDUCED, log 82). -/
def refetchFrom (s : State) (core sl : Nat) (l : LoadSrc) (k : Nat) : State :=
  s.modCore core fun c =>
    (c.modCtx l.ctx fun x =>
      { x with
        st := if x.st == .haltFault || x.st == .haltError then x.st else .running
        arm := l.arm, started := true, packets := k, flight := [], walk := none, clears := 0 }).modSluice sl fun q =>
      { q with packets := [], taken := 0, prog := [], rsv := 0 }

/-- A committed packet found uncorrectable when it is read (R277): for a load stream it and every later committed
packet of the Sluice are discarded and fetched again; for another Sluice the words stand. -/
def stagedUe (s : State) (core sl : Nat) : State :=
  let n := ((s.core core).sluice sl).packets.length
  match s.loadSrc core sl with
  | some l =>
    if n = 0 then s
    else
      let k := l.packets - n
      raise ((refetchFrom s core sl l k).bump (Obj.strmRefetches core) n) 0x5A08 .note (uCore core) (posOf l.ctx (k * l.desc.pktElems))
  | none => s

/-- An uncorrectable word written by an engine rewinds its packet and halts the stream of the Sluice (R276); a stream that a skew has
halted already keeps that lower cause and its one rewind (R287). -/
def writerUe (s : State) (core sl : Nat) : State :=
  match s.ctxOn core sl with
  | some (i, d) =>
    let x := (s.core core).ctx i
    let s := if x.st == .haltError then s.modCore core fun c => c.modCtx i fun x => { x with cause := min x.cause 3 }
      else (s.modCore core fun c => c.modCtx i fun x => { x with st := .haltError, cause := 3 }).bump (Obj.strmRewinds core) 1
    raise s 0x5A06 .stepAbort (uCore core) (posOf i (x.packets * d.pktElems))
  | none => s

/-- Operand words taken from a Sluice until `n` are held. -/
def gather (core : Nat) (got : SMap (List Nat)) (s : State) : List (Nat × Nat) → SMap (List Nat) × State
  | [] => (got, s)
  | (sl, n) :: rest =>
    let have_ := smGet (fun _ => []) got sl
    let r := ((s.core core).sluice sl).take (n - have_.length)
    let freed := r.2.packets.length < ((s.core core).sluice sl).packets.length
    let s := if r.1.isEmpty then s else s.modCore core fun c =>
      { c.modSluice sl (fun _ => r.2) with moved := c.moved || freed }
    gather core (smSet (fun _ => []) got sl (have_ ++ r.1.map (·.data))) s rest

/-- What the results of an entry are made of: output words with their Sluices, and the clk count; whether a fault stopped it; the mirror
record it leaves when it completes (R145); and its share of a scope whose scale needs the statistics of every share (R101). -/
structure Formed where
  st : State
  outq : List (Nat × SWord) := []
  clk : Nat := 0
  stopped : Bool := false
  mirror : Option (Nat × Nat) := none
  share : Option (Nat × List (Nat × Scout)) := none

/-- An entry that a fault stops forms nothing (R107, R146, R166). -/
def Formed.stop (s : State) : Formed := { st := s, stopped := true }

/-- What sets a class of entries apart: the Sluices it reads and how many words of each, the regions it takes part in and those of them
it writes, the parts of active tables it reads beside its own words, where weights delivered by WAIT go, and how its results are formed
from the words taken. -/
structure EntryKind where
  op : Nat
  needs : State → Nat → Cur → List (Nat × Nat)
  regions : State → Nat → Cur → List (Nat × Nat) := fun _ _ _ => []
  writes : State → Nat → Cur → List (Nat × Nat) := regions
  reads : State → Nat → Cur → List (TableRec × Nat × Nat) := fun _ _ _ => []
  store : Nat → Nat × List Nat := fun _ => (0, [])
  /-- A condition beside its operand words: a receive entry waits for its range to be final (R340). -/
  ready : State → Nat → Cur → Bool := fun _ _ _ => true
  form : State → Nat → Cur → (Nat → List Nat) → Formed

/-- The entry recorded among the started ones, replacing what stood there for it. -/
def putRunning (c : Core) (r : RunEntry) : Core :=
  { c with running := (c.running.filter fun x => x.plan.off != r.plan.off || x.formed) ++ [r] }

/-- The scale field of the scope that an entry quantises (R101): the scaled output of a FINAL F entry, of a quantisation, of a narrow copy. -/
def quantScope (e : Entry) (b : Nat) : Option ScaleP :=
  let p : Option ScaleP :=
    if e.op = 0x01 then (if bitOf (fld b 0x03 1) 1 then some (scaleP (fld b 0x50 16)) else none)
    else if e.op = 0x06 then (if fld b 0x00 1 = 2 then some (scaleP (fld b 0x40 16)) else none)
    else if e.op = 0x0B then (if fld b 0x00 1 = 1 then some (scaleP (fld b 0x20 16)) else none)
    else none
  p.filter fun P => P.fmt != 0
/-- Another core of the cluster has still to scout its share of the tensor in the micro-batch: the barrier between the two passes is not
passed (R101). -/
def sharesOpen (s : State) (core : Nat) (img : TableRec) (tensor mb : Nat) : Bool :=
  let same (e : Entry) (b : Nat) : Bool := ((quantScope e b).map (·.tensor)) == some tensor
  (coresOf (clusterOf core)).any fun n => n != core &&
    (((s.core n).todo.any fun p => p.mb == mb && (let e := s.entryAt img p.off; same e (s.blockAt img e))) ||
      (s.core n).running.any fun r => !r.formed && !r.scouted && r.plan.mb == mb && same r.entry (s.blockAt img r.entry))

/-- A later entry of the core's list quantises more of the tensor in the micro-batch (R470). -/
def morePartsOf (s : State) (core : Nat) (img : TableRec) (tensor mb : Nat) : Bool :=
  (s.core core).todo.any fun p => p.mb == mb &&
    (let e := s.entryAt img p.off; ((quantScope e (s.blockAt img e)).map (·.tensor)) == some tensor)

/-- The results of an entry put in place (R50): its outputs enter their Sluices as far as they have room. An uncorrectable word written
to `bad` halts that Sluice's stream (R276). -/
def putFormed (s : State) (core : Nat) (re : RunEntry) (bad : Option Nat) (f : Formed) : State :=
  let s := match bad with
    | some sl => if f.outq.any fun x => x.1 == sl then writerUe s core sl else s
    | none => s
  let p := pushOut core (f.outq.length + 1) f.outq s
  p.2.modCore core fun x => putRunning x
    { re with got := [], formed := true, outq := p.1, clk := f.clk, stopped := f.stopped, mirror := f.mirror }

/-- Every operand word of an entry is held, and what else it waits for has come (R146). -/
def operandsHeld (k : EntryKind) (s : State) (core : Nat) (c : Cur) (needs : List (Nat × Nat)) (got : SMap (List Nat)) : Bool :=
  k.ready s core c && needs.all fun p => decide (p.2 ≤ (smGet (fun _ => []) got p.1).length)

/-- Gathering and, once every operand word is held, forming (R146); a share of a scope waits, scouted, for the other shares (R101). -/
def proceed (k : EntryKind) (s : State) (core : Nat) (c : Cur) (bad : Option Nat) : State :=
  let needs := (k.needs s core c).filter fun p => decide (p.1 < 16)
  let g := gather core c.re.got s needs
  let re := { c.re with got := g.1, regions := k.writes s core c }
  if operandsHeld k s core c needs g.1 then
    let f := k.form g.2 core { c with re := re } fun sl => smGet (fun _ => []) g.1 sl
    match f.share with
    | some q =>
      if sharesOpen g.2 core c.img q.1 c.re.plan.mb then
        (if c.re.scouted then g.2 else noteShare g.2 core q.1 c.re.plan.mb false q.2).modCore core fun x =>
          putRunning x { re with scouted := true }
      else putFormed f.st core re bad f
    | none => putFormed f.st core re bad f
  else g.2.modCore core fun x => putRunning x re

/-- The entry's words and its parameter block in the image (R40). -/
def ownReads (op : Nat) (c : Cur) : List (TableRec × Nat × Nat) :=
  [(c.img, c.re.plan.off, 16), (c.img, 64 * c.re.entry.param, blockBytes op)]
/-- A cluster's tail starts with its first entry, and FWD_SAT is formed (R196): SAT_TOTAL over the share range of each layer. -/
def openTail (s : State) (core : Nat) (p : PlanEntry) : State :=
  let cl := clusterOf core
  if s.role cl != 1 || (s.cluster cl).tailOpen || decide (p.mb ≤ (s.cluster cl).plan.length) then s
  else
    forAll (List.range s.layerCount) (fun l s => s.sramWr cl (layerBase l) 4 (fwdSat s cl l))
      (s.modCluster cl fun c => { c with tailOpen := true })

/-- The head entry of a core's list started: it leaves the list, the weights its WAIT brings are stored, and it takes operands. -/
def startEntry (k : EntryKind) (s : State) (core : Nat) (c : Cur) (bad : Option Nat) : State :=
  let s := openTail s core c.re.plan
  let named := (k.needs s core c).map (·.1)
  let feeds := (c.img.waitOf core c.re.entry.wait).1.filter fun q => !named.contains q
  let d := k.store c.blk
  proceed k (loadAll core d.1 feeds d.2 (s.modCore core fun x => { x with todo := x.todo.drop 1, accHeld := false })) core c bad
/-- The head entry held while a started entry has still to write a region of its own, counted once (R127), or started. -/
def holdOrStart (k : EntryKind) (s : State) (core : Nat) (c : Cur) (bad : Option Nat) : State :=
  if heldForRegion s core (k.regions s core c) then
    (if (s.core core).accHeld then s
     else (s.modCore core fun x => { x with accHeld := true }).bump (Obj.fengAccWaits core) 1)
  else startEntry k s core c bad

/-- The head entry of the list, once its own words are as measured (R40): it starts when its conditions hold (R50) and what it reads of
other active tables is as measured; a region that differed is not used again. -/
def freshEntry (k : EntryKind) (s : State) (core : Nat) (c : Cur) (bad : Option Nat) : State :=
  match firstDiffer s (ownReads k.op c) with
  | some t => mismatch s core t
  | none =>
    if !startsNow s core c || anyBad (k.reads s core c) then s
    else match firstDiffer s (k.reads s core c) with
      | some t => mismatch s core t
      | none => holdOrStart k s core c bad

/-- The Sluice whose written word an entry command finds uncorrectable. -/
def badOutput : EntryErr → Option Nat
  | .output sl => some sl
  | _ => none

/-- An entry command of class `k.op` on a core (R50): a started entry goes on taking operands, else the head of the list may start. -/
def runEntry (k : EntryKind) (core : Nat) (err : EntryErr) (s : State) : Host.Outcome State Fault Refusal :=
  match currentEntry s core k.op with
  | none => .next s
  | some c =>
    match err with
    | .core => .next (coreFault s core)
    | .staged sl => .next (stagedUe s core sl)
    | _ =>
      if c.img.bad || s.groupHalted core then .next s
      else if c.fresh then .next (freshEntry k s core c (badOutput err))
      else .next (proceed k s core c (badOutput err))

/-- Where a skew was met (R107): the Sluice of the data, how many words before its read position the word stands that holds the first
element of block `b`, and the bits of that word before it; the words back to the scale word in hand; the element's index for a block that
no stream brings. -/
structure SkewAt where
  sl : Nat
  back : Nat := 0
  sub : Nat := 0
  scaleSl : Nat := 0xFF
  scaleBack : Nat := 0
  el : Nat := 0
  deriving DecidableEq, Repr

/-- The word of an arming that stands `back` words before the reader's position. -/
def wordBack (s : State) (core sl : Nat) (l : LoadSrc) (back : Nat) : Nat :=
  l.packets * l.desc.pktWords - ((s.core core).sluice sl).avail - back
/-- The packet of a Sluice that holds words already read rewound (R107, R276). -/
def rewindRead (s : State) (core sl back : Nat) : State :=
  match s.loadSrc core sl with
  | some l => (refetchFrom s core sl l (wordBack s core sl l back / max 1 l.desc.pktWords)).bump (Obj.strmRewinds core) 1
  | none => s
/-- The stream and the element that a skew's event names (R107). -/
def skewPos (s : State) (core : Nat) (k : SkewAt) : Nat × Nat :=
  match s.loadSrc core k.sl with
  | some l =>
    let g := wordBack s core k.sl l k.back
    let r := g % max 1 l.desc.pktWords
    (l.ctx, g / max 1 l.desc.pktWords * l.desc.pktElems + r / max 1 l.desc.groupWords * l.desc.groupElems +
      (512 * (r % max 1 l.desc.groupWords) + k.sub) / max 1 l.desc.width)
  | none => (0x3F, k.el)
/-- A scale-skew fault met by an entry (R107): its data and scale packets are rewound, the data stream halts, SPILL.SKEW counts, the step
is aborted. -/
def skewFault (s : State) (core : Nat) (k : SkewAt) : State :=
  let at_ := skewPos s core k
  let s := rewindRead (rewindRead s core k.scaleSl k.scaleBack) core k.sl k.back
  let s := if at_.1 = 0x3F then s else s.modCore core fun c => c.modCtx at_.1 fun x =>
    { x with st := .haltError, cause := if x.cause = 0 then 2 else min x.cause 2 }
  let s := setHealth (s.bump (Obj.spillSkew core) 1) (clusterOf core) 4
  raise s 0x3B01 .stepAbort (uCore core) (posOf at_.1 at_.2)

/-! ### Tensor scales along a row (R107) -/

/-- Scopes met so far and those of this entry: 0 stands for none. -/
def tsClash (old new : List Nat) : Bool := (old.zip new).any fun p => p.1 != 0 && p.2 != 0 && p.1 != p.2
def tsJoin (old new : List Nat) : List Nat :=
  if old.isEmpty then new else (old.zip new).map fun p => if p.1 = 0 then p.2 else p.1

end Sys2Proof.Machine
end

