-- ==== Sys2Proof/Machine/Weights.lean ====
section
/-! DEFINITION. Weights in the transposable weight store: tiles and their block index (R98, R125, R152), structured
sparsity (R135, R166, R215–R218), tile bitmaps (R136, R220) and weight scales (R104, R470). -/

namespace Sys2Proof.Machine

/-- A weight as an entry reads it: where its tiles, metadata, bitmap and scale words stand (byte addresses), its
format, its tiles per row and in all, its rows, its pattern, and whether it is read transposed: reduction index `i` and output index
`j` of a product are then its column and its row (R98). -/
structure WeightView where
  base : Nat
  metaAt : Nat
  bmap : Nat
  scale : Nat
  fmt : Nat
  cols : Nat
  tiles : Nat
  rows : Nat
  sparse : Nat
  hasMap : Bool
  P : ScaleP
  trans : Bool := false
  deriving DecidableEq, Repr

def Core.wRd (c : Core) (a n : Nat) : Nat := sramRead c.wstore a n
/-- The row and the column of the weight at reduction index `i` and output index `j` (R98). -/
def WeightView.cell (w : WeightView) (i j : Nat) : Nat × Nat := if w.trans then (j, i) else (i, j)
/-- Tile block index of the element at (i, j) (R98). -/
def WeightView.tile (w : WeightView) (i j : Nat) : Nat := (w.cell i j).1 / 32 * w.cols + (w.cell i j).2 / 32
/-- Whether a tile is present (R136). -/
def WeightView.present (w : WeightView) (c : Core) (t : Nat) : Bool :=
  if w.hasMap then bitOf (c.wRd (w.bmap + t / 8) 1) (t % 8) else true
/-- The ordinal of a tile among the present ones (R217, R220). -/
def WeightView.ordinal (w : WeightView) (c : Core) (t : Nat) : Nat :=
  if w.hasMap then ((List.range t).filter fun u => w.present c u).length else t
/-- Stored rows of a tile: 32, or 16 of a compressed one (R216). -/
def WeightView.tileRows (w : WeightView) : Nat := if w.sparse = 0 then 32 else 16
def WeightView.tileBytes (w : WeightView) : Nat := w.tileRows * 32 * fmtBits w.fmt / 8
/-- Element (row, col) of the stored rows of the tile of ordinal `p`. -/
def WeightView.stored (w : WeightView) (c : Core) (p row col : Nat) : Nat :=
  let bit := (row * 32 + col) * fmtBits w.fmt
  bitsOf (c.wRd (w.base + p * w.tileBytes + bit / 8) 2) (bit % 8) (fmtBits w.fmt)
/-- The metadata nibble of group `g`, column `n` of the tile of ordinal `p` (R217): IDX0 and IDX1. -/
def WeightView.nibble (w : WeightView) (c : Core) (p g n : Nat) : Nat × Nat :=
  let i := g * 32 + n
  let b := bitsOf (c.wRd (w.metaAt + 128 * p + i / 2) 1) (4 * (i % 2)) 4
  (b % 4, b / 4)
/-- The code of the weight at (i, j), or none at an absent tile or a pruned position (R130, R215, R216). -/
def WeightView.code (w : WeightView) (c : Core) (i j : Nat) : Option Nat :=
  let t := w.tile i j
  let k := (w.cell i j).1
  let n := (w.cell i j).2
  if !w.present c t then none
  else
    let p := w.ordinal c t
    if w.sparse = 0 then some (w.stored c p (k % 32) (n % 32))
    else
      let x := w.nibble c p (k % 32 / 4) (n % 32)
      if k % 4 = x.1 then some (w.stored c p (2 * (k % 32 / 4)) (n % 32))
      else if k % 4 = x.2 then some (w.stored c p (2 * (k % 32 / 4) + 1) (n % 32))
      else none
/-- A group that names one position twice, or holds more nonzeros than its pattern allows (R135, R215). `one4` says the
pattern is 1:4. -/
def WeightView.groupBad (w : WeightView) (c : Core) (one4 : Bool) (p g n : Nat) : Bool :=
  let x := w.nibble c p g n
  if one4 then x.1 != x.2 || w.stored c p (2 * g + 1) n != 0 else x.1 == x.2
/-- Whether a present tile's metadata is malformed (R135). -/
def WeightView.tileBad (w : WeightView) (c : Core) (one4 : Bool) (t : Nat) : Bool :=
  let p := w.ordinal c t
  w.present c t && (List.range 8).any fun g => (List.range 32).any fun n => w.groupBad c one4 p g n
/-- Whether a present tile breaks the transposable condition in some 4×4 sub-tile (R215, R218): each row has exactly two
named positions among its four columns under 2:4, and one under 1:4. -/
def WeightView.notTransposable (w : WeightView) (c : Core) (one4 : Bool) (t : Nat) : Bool :=
  let p := w.ordinal c t
  w.present c t && (List.range 8).any fun g => (List.range 8).any fun h => (List.range 4).any fun r =>
    let named := ((List.range 4).filter fun j =>
      let x := w.nibble c p g (4 * h + j)
      if one4 then x.1 == r else x.1 == r || x.2 == r).length
    named != (if one4 then 1 else 2)

/-- The channel scale of output column `n` (R470). -/
def WeightView.channelAt (w : WeightView) (n : Nat) : Nat := w.scale + 64 * ceilDiv w.tiles 32 + 64 * (n / 16) + 4 * (n % 16)
/-- The scale word that holds the block of (i, j), by byte address, and the block's index (R104, R105). -/
def WeightView.wordAt (w : WeightView) (i j : Nat) : Nat × Nat :=
  if w.P.geom = 3 then (w.scale + 64 * (w.tile i j / 32), w.tile i j)
  else
    let bl := blockLen w.P.geom
    let per := w.rows / bl
    let b := j * per + i / bl
    (w.scale + 64 * (if w.P.scope = 1 then j * ceilDiv per 32 + i / bl / 32 else b / 32), b)
/-- Where the scope scale of (i, j) stands (R94, R470). -/
def WeightView.tsAddr (w : WeightView) (i j : Nat) : Nat :=
  if w.P.geom = 3 ∧ w.P.scope = 1 then w.channelAt j else (w.wordAt i j).1 + 8
/-- The scope scale that (i, j) takes, whether or not its tile is present. -/
def WeightView.tsAt (w : WeightView) (c : Core) (i j : Nat) : Nat := c.wRd (w.tsAddr i j) 4
/-- The scale a weight block takes: of its tile, or of its 1-D block along k in column n (R98, R104, R105, R470). -/
def WeightView.scaleOf (w : WeightView) (c : Core) (i j : Nat) : Option BlockScale :=
  (blockScale (c.wRd (w.wordAt i j).1 64) (w.wordAt i j).2).map fun b => { b with ts := w.tsAt c i j }

/-- The value of a code with the reserved code's count (R75). -/
def codeVal (fmt code : Nat) : XNum × Nat :=
  let F := (fmtOf fmt).getD fmtF32
  (F.decode code, if F.reservedCode code then 1 else 0)
/-- The G16 image that the inline converter makes of a code value: its significand and exponent are those of G16 (R153). -/
def g16Image (x : XNum) : XNum := fmtG16.decode (convert x fmtG16 .rne 0).code
/-- The exact value of a code that carries no scale: FP32, a pair, G8 or G16 (R82). -/
def plainNum (fmt code : Nat) : XNum :=
  if fmt = 0x02 then (Pair.ofWord code).num else (codeVal fmt code).1

end Sys2Proof.Machine
end

