-- ==== Sys2Proof/Machine/Reading.lean ====
section
/-! DEFINITION. How an entry reads a tensor from a Sluice: unpacked as its stream packs it (R70, R266), with the scale
words of its blocks (R94, R104, R107). -/

namespace Sys2Proof.Machine

/-- Elements and words of a run that the stream of a Sluice packs without a gap (R266); with no stream armed there, a
whole packet of up to 256 words (DEDUCED, log 16). -/
def runOf (d : Option Desc) (w : Nat) : Nat × Nat :=
  match d with
  | some d => (max 1 d.groupElems, d.groupWords)
  | none => (max 1 (256 * 512 / max 1 w), 256)
/-- Words that `n` elements of width `w` fill. -/
def elemWords (d : Option Desc) (w n : Nat) : Nat :=
  let r := runOf d w
  n / r.1 * r.2 + ceilDiv (n % r.1 * w) 512
/-- The first `n` element codes of a list of words. -/
def unpack (d : Option Desc) (w n : Nat) (ws : List Nat) : List Nat :=
  let r := runOf d w
  (List.range (ceilDiv n r.1)).flatMap fun i =>
    let bits := packBits 512 ((ws.drop (i * r.2)).take r.2)
    (List.range (min r.1 (n - i * r.1))).map (elemAt bits w)
/-- The word of the run that holds element `i`, and the bits of that word before it. -/
def placeOfElem (d : Option Desc) (w i : Nat) : Nat × Nat :=
  let r := runOf d w
  (i / r.1 * r.2 + i % r.1 * w / 512, i % r.1 * w % 512)
/-- Words and codes of `n` elements of a format that a core reads from a Sluice. -/
def State.inWords (s : State) (core sl fmt n : Nat) : Nat := elemWords ((s.ctxOn core sl).map (·.2)) (fmtBits fmt) n
def State.inCodes (s : State) (core sl fmt n : Nat) (ws : List Nat) : List Nat :=
  unpack ((s.ctxOn core sl).map (·.2)) (fmtBits fmt) n ws

/-- The part of a logical tensor that an entry reads or writes, row by row. -/
structure Part where
  rows : Nat
  cols : Nat
  row0 : Nat
  rowLen : Nat
  col0 : Nat
  deriving DecidableEq, Repr

/-- The linear index of element `i` of a part. -/
def Part.index (p : Part) (i : Nat) : Nat := (p.row0 + i / max 1 p.cols) * p.rowLen + p.col0 + i % max 1 p.cols
/-- The index of the 1-D block of element `i` in the producer's order (R105). -/
def Part.block (p : Part) (bl i : Nat) : Nat :=
  (p.row0 + i / max 1 p.cols) * ceilDiv p.rowLen bl + (p.col0 + i % max 1 p.cols) / bl
/-- The scale words of a part as R105 packs its blocks: 32 to a word, a new word at a gap or, under SCOPE 1, at each
channel (DESIGN CHOICE, log 18). -/
def Part.scaleWords (p : Part) (bl scope : Nat) : Nat :=
  let per := ceilDiv p.cols bl
  if p.cols = p.rowLen ∧ scope = 0 then ceilDiv (p.rows * per) 32 else p.rows * ceilDiv per 32

/-- A list without immediate repeats. -/
def dedupRuns : List Nat → List Nat
  | a :: b :: r => if a = b then dedupRuns (b :: r) else a :: dedupRuns (b :: r)
  | xs => xs
/-- Block indices paired with their scales as the scale words come: a block that the word in hand does not hold is
looked for in the next one (R107). -/
def seqScales : List Nat → List Nat → List (Nat × Option BlockScale)
  | _, [] => []
  | [], b :: bs => (b, none) :: seqScales [] bs
  | w :: ws, b :: bs =>
    match blockScale w b with
    | some q => (b, some q) :: seqScales (w :: ws) bs
    | none => (b, (ws.head?).bind fun v => blockScale v b) :: seqScales ws bs

/-- The place, in its list, of the scale word in hand when block `b` is looked up (R107). -/
def wordInHand (b : Nat) : Nat → List Nat → List Nat → Nat
  | i, w :: ws, x :: bs =>
    if x = b then i else if (blockScale w x).isSome then wordInHand b i (w :: ws) bs else wordInHand b (i + 1) ws bs
  | i, _, _ => i

/-- A tensor's values as a unit reads them: exact values, the scope scale of each element, which codes are reserved, bad scales,
and the first element of a skewed block with the scale word in hand there. -/
structure Operand where
  vals : List XNum := []
  ts : List Nat := []
  rsvs : List Bool := []
  badScale : Nat := 0
  badTs : Nat := 0
  skew : Option (Nat × Nat) := none
  deriving DecidableEq, Repr
/-- Reserved codes read. -/
def Operand.rsv (o : Operand) : Nat := (o.rsvs.filter id).length

/-- A part read in a format: a scaled element has its code times its block and scope scales (R94). Every invalid scale is counted once
for its block, every invalid scope scale once for its scale word (R83, R84). -/
def readPart (fmt : Nat) (p : Part) (bl : Nat) (codes words : List Nat) : Operand :=
  let rsvs := codes.map fun k => ((fmtOf fmt).map (·.reservedCode k)).getD false
  if !isScaled fmt then { vals := codes.map (plainNum fmt), ts := codes.map fun _ => 0, rsvs := rsvs }
  else
    let blocks := dedupRuns (codes.zipIdx.map fun c => p.block bl c.2)
    let sc := seqScales words blocks
    let at_ (i : Nat) : Option BlockScale := (sc.find? fun q => q.1 == p.block bl i).bind (·.2)
    { vals := codes.zipIdx.map fun c => match at_ c.2 with
        | some b => scaledNum fmt c.1 b.c b.ts
        | none => .nan
      ts := codes.zipIdx.map fun c => ((at_ c.2).map (·.ts)).getD 0
      rsvs := rsvs
      badScale := (sc.filter fun q => q.2.map (·.c) == some 0xFF).length
      badTs := (words.filter fun w => !validTs (swTs w)).length
      skew := ((List.range codes.length).find? fun i => (at_ i).isNone).map fun i => (i, wordInHand (p.block bl i) 0 words blocks) }

/-- What reading a tensor counts (R75, R83, R84). -/
def noteOperand (s : State) (core tensor : Nat) (o : Operand) : State :=
  noteReserved (noteBadTs (noteBadScale s core o.badScale) core o.badTs) core tensor o.rsv

/-- Where a skew at an element of a tensor read from a Sluice lies (R107): `n` elements and `words` scale words were taken. -/
def State.skewIn (s : State) (core sl fmt n scaleSl words : Nat) (q : Nat × Nat) : SkewAt :=
  let at_ := placeOfElem ((s.ctxOn core sl).map (·.2)) (fmtBits fmt) q.1
  { sl := sl, back := s.inWords core sl fmt n - at_.1, sub := at_.2, scaleSl := scaleSl, scaleBack := words - q.2, el := q.1 }

/-- Counter words of an output that has no blocks: runs of 32 elements along its rows (DEDUCED, log 19). -/
def runCounters (convs : List Conv) (cols row0 rowLen col0 : Nat) : List Nat :=
  counterWords ((chunksOf cols convs).zipIdx.flatMap fun r =>
    (chunksOf 32 r.1).zipIdx.map fun p =>
      { idx := (row0 + r.2) * (rowLen / 32) + col0 / 32 + p.2, channel := r.2, ts := 0, q := { cnt := cntAll p.1 } : BlockRec })

/-- A value rounded to FP32 in a mode, NaN to the canonical one (R11, R142). -/
def lastF32 (last : RMode) (x : XNum) : Nat × Bool := if x.isNan then (nanF32, false) else roundF32 last x

/-- Results delivered to a Sluice in a format: FP32 intermediates with the sat of their last rounding, converted at
their linear indices, counted in the core's counters and its tile flags (R88, R109, R110, R142, R471). No share record takes these counts:
the blocks of the entries served here name no share (DESIGN CHOICE, log 69). -/
def deliver (s : State) (core out : Nat) (cls : TileClass) (fmt tensor : Nat) (mode : RMode) (p : Part)
    (vals : List (Nat × Bool)) : State × List Conv × List (Nat × SWord) :=
  let convs := vals.zipIdx.map fun v =>
    finish v.1.1 (fmt != 0x01 && v.1.2) fmt mode ((s.drawArgs core tensor 1).at mode (p.index v.2))
  (noteCnt s core cls tensor fmt (cntAll convs), convs, s.outWords core out (fmtBits fmt) (convs.map (·.code)))

end Sys2Proof.Machine
end

