-- ==== Sys2Proof/Machine/Forward.lean ====
section
/-! DEFINITION. The forward engine (05_forward_engine.md): the F product (R123–R137, R143–R146, R176, R177, R179) and the
outlier side product (R132, R133). -/

namespace Sys2Proof.Machine

/-! ### The F product's parameter block (R123) -/

def fM (b : Nat) : Nat := fld b 0x00 2
def fN (b : Nat) : Nat := fld b 0x02 1
def fFirst (b : Nat) : Bool := bitOf (fld b 0x03 1) 0
def fFinal (b : Nat) : Bool := bitOf (fld b 0x03 1) 1
def fBlockmap (b : Nat) : Bool := bitOf (fld b 0x03 1) 2
def fMirror (b : Nat) : Bool := bitOf (fld b 0x03 1) 3
def fSparse (b : Nat) : Nat := bitsOf (fld b 0x03 1) 4 2
def fKStart (b : Nat) : Nat := fld b 0x04 4
def fKLen (b : Nat) : Nat := fld b 0x08 4
def fRsFirst (b : Nat) : Nat := fld b 0x0C 2
def fAcc (b : Nat) : Nat := fld b 0x10 4
def fSideAcc (b : Nat) : Nat := fld b 0x14 4
def fMirAcc (b : Nat) : Nat := fld b 0x18 4
def fRow0 (b : Nat) : Nat := fld b 0x68 4
def fCol0 (b : Nat) : Nat := fld b 0x6C 4
def fRowLen (b : Nat) : Nat := fld b 0x70 4
def noneRegion : Nat := 0xFFFFFFFF

/-- The dense K pass of a format: 128, 256 or 512 by its rate class (R121). -/
def kPassOf (fmt : Nat) : Nat :=
  if fmt = 0x1F ∨ fmt = 0x1E then 512 else if fmt = 0x13 ∨ (0x1A ≤ fmt ∧ fmt ≤ 0x1D) then 256 else 128
/-- The K pass of an entry: of the slower of its formats, doubled under structured sparsity (R121, R122). -/
def fPass (e : Entry) (b : Nat) : Nat := min (kPassOf e.fmtA) (kPassOf e.fmtB) * if fSparse b = 0 then 1 else 2
/-- The passes of an entry: first index, relative to K_START, and length (R125). -/
def fPasses (e : Entry) (b : Nat) : List (Nat × Nat) :=
  (List.range (ceilDiv (fKLen b) (fPass e b))).map fun p => (p * fPass e b, min (fPass e b) (fKLen b - p * fPass e b))
/-- Words of a pass in the activation Sluice: M slices without padding, from a word boundary (R125). -/
def fPassWords (e : Entry) (b len : Nat) : Nat := ceilDiv (fM b * len * fmtBits e.fmtA) 512

/-- The reduction length of the whole operation: the end of the chain of F entries of the list that share ACC_BASE,
from this entry on to the one with FINAL (R124). -/
def chainEnd (s : State) (img : TableRec) (accOff : Nat) (acc : Nat) (isFinal : Nat → Bool) (endOf : Nat → Nat) (op : Nat) :
    Nat → List PlanEntry → Nat
  | d, [] => d
  | d, p :: ps =>
    let e := s.entryAt img p.off
    let b := s.blockAt img e
    if e.op = op ∧ fld b accOff 4 = acc then
      (if isFinal b then endOf b else chainEnd s img accOff acc isFinal endOf op (endOf b) ps)
    else chainEnd s img accOff acc isFinal endOf op d ps
/-- The reduction length of the whole chain. Row `m` of an activation has its blocks from (ROW0 + m) × this length over the block length on
(DESIGN CHOICE, log 69). -/
def fKTotal (s : State) (core : Nat) (c : Cur) : Nat :=
  let e := fKStart c.blk + fKLen c.blk
  if fFinal c.blk then e
  else chainEnd s c.img 0x10 (fAcc c.blk) fFinal (fun b => fKStart b + fKLen b) 1 e (s.core core).todo

/-- The weight of an F product (R123, R125). A tile row of a plain weight holds the tiles of the logical output's columns, the greater of
ROW_LEN and COL0 + N, and column 0 of the entry is weight column COL0; a transposed weight has the output's columns as its rows and the
chain's reduction length as its columns (DESIGN CHOICE, log 69). -/
def fWeight (s : State) (core : Nat) (c : Cur) : WeightView :=
  let b := c.blk
  let k := fKTotal s core c
  let outs := ceilDiv (max (fRowLen b) (fCol0 b + fN b)) 32
  let trans := c.re.entry.orient == 1
  let cols := if trans then ceilDiv k 32 else outs
  { base := 64 * fld b 0x1C 4, metaAt := 64 * fld b 0x20 4, bmap := 64 * fld b 0x24 4, scale := 64 * fld b 0x60 4,
    fmt := c.re.entry.fmtB, cols := cols, tiles := outs * (k / 32), rows := k, sparse := fSparse b, hasMap := fBlockmap b,
    P := scaleP (fld b 0x40 16), trans := trans }

/-- The Sluices an F product reads (R123, R125, R143). A K pass that is skipped for absent tiles still takes its activation rows and its
scale words from their Sluices (DESIGN CHOICE, log 69). Wide operands are packed row by row: A as M rows of K_LEN, W as
K_LEN rows of N (DESIGN CHOICE, log 18). -/
def fNeeds (_s : State) (_core : Nat) (c : Cur) : List (Nat × Nat) :=
  let b := c.blk
  let ps := fPasses c.re.entry b
  [(fld b 0x28 1, sumOf (ps.map fun p => fPassWords c.re.entry b p.2)), (fld b 0x29 1, ps.length * fM b)] ++
    if fMirror b then
      [(fld b 0x2B 1, ceilDiv (fM b * fKLen b * fmtBits (fld b 0x2D 1)) 512),
       (fld b 0x2C 1, ceilDiv (fKLen b * fN b * fmtBits (fld b 0x2E 1)) 512)]
    else []

/-- The pair regions of an F product: ACC and MIR, which it writes, and SIDE, which a FINAL entry reads (R124, R127, R133). -/
def fWrites (b : Nat) : List (Nat × Nat) :=
  (fAcc b, fM b * fN b) :: if fMirror b then [(fMirAcc b, fM b * fN b)] else []
def fSide (b : Nat) : List (Nat × Nat) := if fSideAcc b = noneRegion then [] else [(fSideAcc b, fM b * fN b)]
/-- A FINAL entry waits for a side entry of its side region that is still running (R133). -/
def fReady (s : State) (core : Nat) (c : Cur) : Bool :=
  !fFinal c.blk || !((s.core core).running.any fun r =>
    r.entry.op == 0x0C && !r.formed && r.regions.any fun a => (fSide c.blk).any fun x => rangesMeet a x)
/-- What a FINAL entry reads of its cluster's rescale table (R40, R117). -/
def fReads (s : State) (core : Nat) (c : Cur) : List (TableRec × Nat × Nat) :=
  if fFinal c.blk then s.rescaleReads core (fRsFirst c.blk) (fN c.blk) else []
/-- Where the weights that the entry's WAIT delivers go; a field of 0 names no metadata and no bitmap (R123). -/
def fDests (b : Nat) : List Nat :=
  fld b 0x1C 4 :: ([fld b 0x20 4, fld b 0x24 4].filter (· != 0))

/-- One activation product block of a row in an entry: its first index, values, scale, and reserved codes read; and where its first
element stands in the entry's words, with the scale word of its pass and row. -/
structure ActBlock where
  k : Nat
  vals : List XNum
  scale : Option BlockScale
  rsv : Nat
  bit : Nat := 0
  word : Nat := 0
  deriving DecidableEq, Repr

/-- Row `m` of the activation, cut into product blocks of length `pb` in increasing reduction index. `blk0` is the block
index of the row's first block in the producer's order (R105), `bl` the activation's block length. -/
def actRow (e : Entry) (b : Nat) (data scales : List Nat) (pb bl blk0 m : Nat) : List ActBlock :=
  let w := fmtBits e.fmtA
  let rec go : Nat → Nat → List (Nat × Nat) → List Nat → List ActBlock
    | _, _, [], _ => []
    | i, at_, (k0, len) :: ps, ws =>
      let nw := fPassWords e b len
      let bits := packBits 512 (ws.take nw)
      let word := (scales.drop (i * fM b + m)).headD 0
      ((List.range (len / pb)).map fun j =>
        let k := k0 + j * pb
        let vs := (List.range pb).map fun x => codeVal e.fmtA (elemAt bits w (m * len + j * pb + x))
        { k := fKStart b + k, vals := vs.map (·.1), scale := blockScale word (blk0 + (fKStart b + k) / bl),
          rsv := sumOf (vs.map (·.2)), bit := 512 * at_ + (m * len + j * pb) * w, word := i * fM b + m : ActBlock }) ++
        go (i + 1) (at_ + nw) ps (ws.drop nw)
  go 0 0 (fPasses e b) data

/-- The weight column `n` over a product block (R176): absent tiles, pruned positions and the tiles of `bad` hold code 0 (R130, R135). -/
def wColumn (c : Core) (w : WeightView) (bad : List Nat) (k pb n : Nat) : List XNum × Nat :=
  let xs := (List.range pb).map fun i =>
    if bad.contains (w.tile (k + i) n) then (.fin false 0 0, 0)
    else match w.code c (k + i) n with
      | some code => codeVal w.fmt code
      | none => (.fin false 0 0, 0)
  (xs.map (·.1), sumOf (xs.map (·.2)))

/-- The weight's block scale over a product block; none on a scale-skew fault. An absent tile has no scale to read. -/
def wScale (c : Core) (w : WeightView) (k n : Nat) : Option BlockScale :=
  if w.present c (w.tile k n) then w.scaleOf c k n else some ⟨127, true, 0⟩

/-- A block's slot with its scales: marked blocks hold code 0 (R111, R130, R176). -/
def fSlot (a : ActBlock) (W : List XNum) (sa sw : BlockScale) : XNum :=
  let zero := fun x : XNum => if x.isNan then x else .fin false 0 0
  blockSlot (if sa.zero then a.vals.map zero else a.vals) (if sw.zero then W.map zero else W) sa.c sw.c

/-- The clk that an F entry takes, c+0 to its last event (R126, R136, R143), with `p` passes that are not skipped. -/
def fClk (b : Nat) (p : Nat) (scaled : Bool) : Nat :=
  let sp := fSparse b != 0
  let m := max (fM b) (if sp then 40 else 32)
  let t := p * m + (if fFinal b then 316 else 300) + (if sp then 8 else 0)
  let q := if fFinal b && scaled then 2 * fM b else 0
  t + q + if fMirror b then ceilDiv (fM b * fN b * fKLen b) 1024 else 0

/-- A sum of FP32 words by TwoSum, with the flags of its additions (R144, R174). -/
def pairSum (xs : List Nat) : Pair × AccFlags :=
  xs.foldl (fun a x => let r := pairAdd a.1 ⟨x, 0⟩; (r.pair, a.2.plus (callFlags a.1 r))) (Pair.zero, {})
/-- The mirror record of an entry (R144, R145), from the pairs (vn, vm) in increasing element index. -/
def mirrorRecord (tensor step : Nat) (vs : List (Nat × Nat)) : Nat × AccFlags :=
  let both := vs.filter fun v => !f32IsNan v.1 && !f32IsNan v.2
  let ds := both.map fun v => fsub v.1 v.2
  let sabs := pairSum (ds.map fabs)
  let ssq := pairSum (ds.map fun d => fmul d d)
  let sref := pairSum (both.map fun v => fmul v.2 v.2)
  let mism := (vs.filter fun v => f32IsNan v.1 != f32IsNan v.2).length
  (tensor % 2 ^ 24 + vs.length * 2 ^ 32 + mism * 2 ^ 64 + (ds.foldl (fun m d => max m (fabs d)) 0) * 2 ^ 96 +
    sabs.1.toWord * 2 ^ 128 + ssq.1.toWord * 2 ^ 192 + sref.1.toWord * 2 ^ 256 + step % 2 ^ 32 * 2 ^ 320,
   (sabs.2.plus ssq.2).plus sref.2)

/-- The scaled output of a forward entry as blocks to quantise: row `m` of ROW_LEN columns from COL0 (R101, R105, R123). -/
def rowBlocks (P : ScaleP) (row0 rowLen col0 m n : Nat) (vals : List Nat) : List BlockIn :=
  let bl := blockLen P.geom
  (List.range m).flatMap fun i =>
    (List.range (ceilDiv n bl)).map fun j =>
      { idx := (row0 + i) * (rowLen / bl) + (col0 + j * bl) / bl, channel := row0 + i,
        els := (List.range (min bl (n - j * bl))).map fun x =>
          { x := f32 ((vals.drop (i * n + j * bl + x)).headD 0), idx := (row0 + i) * rowLen + col0 + j * bl + x } }

/-- The output stage shared by F and LUT entries (R118, R134, R177): clamped FP32 values, one per element in row-major
order, with the sat of their last rounding, written in the rescale entries' format. A direct output has its counters in runs of 32
elements (R106). -/
def fwdOutput (s : State) (core mb : Nat) (entry : Entry) (outScale : Nat) (ctr tensor row0 rowLen col0 m n : Nat)
    (ents : List Nat) (vals : List (Nat × Bool)) (peers : List (Nat × Scout)) : Formed :=
  let fmt := rsFmt (ents.headD 0)
  let clamped := vals.zipIdx.map fun p =>
    let e := (ents.drop (p.2 % max 1 n)).headD 0
    (clampOut p.1.1 (rsSat e) (rsClamp e), p.1.2)
  if isScaled fmt then
    let P := scaleP outScale
    let F := (fmtOf P.fmt).getD fmtF32
    let r := quantise P F (rmodeOf P.rmode .rne) (s.drawArgs core P.tensor 1) (s.hist core P.slot)
      (peers ++ s.sharesOf core P.tensor mb) none (rowBlocks P row0 rowLen col0 m n (clamped.map (·.1)))
    let s := noteQuant s core mb .forward P { r with cnt := { r.cnt with sat := r.cnt.sat + (clamped.filter (·.2)).length } } {}
    { st := s
      outq := s.outWords core entry.out (fmtBits P.fmt) (r.blocks.flatMap (·.q.codes)) ++
        s.outLines core (s.linkedSluice core entry.out) (scaleWords (P.scope = 1) r.blocks) ++
        s.outLines core ctr (counterWords r.blocks)
      share := r.toShare P }
  else
    let convs := clamped.zipIdx.map fun p =>
      let e := (ents.drop (p.2 % max 1 n)).headD 0
      let mode := rmodeOf (rsMode e) .rne
      let i := (row0 + p.2 / max 1 n) * rowLen + col0 + p.2 % max 1 n
      finish p.1.1 p.1.2 fmt mode ((s.drawArgs core tensor 1).at mode i)
    { st := noteCnt s core .forward tensor fmt (cntAll convs)
      outq := s.outWords core entry.out (fmtBits fmt) (convs.map (·.code)) ++
        s.outLines core ctr (runCounters convs n row0 rowLen col0) }

/-- The tiles of the weight that an entry's block results take in: every tile row of its reduction, every tile column from that of COL0 to
that of its last column (R135, R136). -/
def fTileCols (b : Nat) : List Nat :=
  (List.range ((fCol0 b + fN b - 1) / 32 + 1 - fCol0 b / 32)).map fun j => 32 * (fCol0 b / 32 + j)
def fTiles (w : WeightView) (b k0 len : Nat) : List Nat :=
  ((List.range (ceilDiv len 32)).flatMap fun i => (fTileCols b).map fun n => w.tile (k0 + 32 * i) n).eraseDups

/-- The operands of an F product as its cells meet them (R125, R176): the activation's product blocks by row, the weight's by column with
their scales, the malformed tiles, and the passes skipped for absent tiles. -/
structure FOperands where
  rows : List (List ActBlock)
  cols : List (List ((List XNum × Nat) × Option BlockScale))
  bad : List Nat
  skipped : Nat
  deriving DecidableEq, Repr
def fOperands (s : State) (core : Nat) (c : Cur) (ws : Nat → List Nat) : FOperands :=
  let b := c.blk
  let e := c.re.entry
  let co := s.core core
  let w := fWeight s core c
  let bl := blockLen (scaleP (fld b 0x30 16)).geom
  let pb := min bl (blockLen w.P.geom)
  let kIdx := (List.range (fKLen b / pb)).map fun i => fKStart b + i * pb
  let bad := if fSparse b = 0 then [] else (fTiles w b (fKStart b) (fKLen b)).filter fun t => w.tileBad co (fSparse b = 2) t
  { rows := (List.range (fM b)).map fun m =>
      actRow e b (ws (fld b 0x28 1)) (ws (fld b 0x29 1)) pb bl ((fRow0 b + m) * (fKTotal s core c / bl)) m
    cols := (List.range (fN b)).map fun n => kIdx.map fun k =>
      (wColumn co w bad k pb (fCol0 b + n), wScale co w k (fCol0 b + n))
    bad := bad
    skipped := ((fPasses e b).filter fun p =>
      fBlockmap b && (fTiles w b (fKStart b + p.1) p.2).all fun t => !w.present co t).length }

/-- The tensor scale of each row and of each column of an entry (R94, R107): 0 where it reads no word of the scope. -/
def rowScopes (o : FOperands) : List Nat := o.rows.map fun r => ((r.findSome? (·.scale)).map (·.ts)).getD 0
def colScopes (o : FOperands) : List Nat :=
  o.cols.map fun col => (((col.filter fun q => q.2 != some ⟨127, true, 0⟩).findSome? (·.2)).map (·.ts)).getD 0
/-- The first activation block that meets no scale, or a word whose TS differs from that of another word of its row, in this entry or in
its chain (R107). -/
def skewedAct (o : FOperands) (met : List Nat) : Option ActBlock :=
  (o.rows.zipIdx.flatMap fun r =>
    let ts := (r.1.findSome? (·.scale)).map (·.ts)
    r.1.filter fun a => a.scale.isNone || a.scale.map (·.ts) != ts ||
      tsClash [(met.drop r.2).headD 0] [((a.scale.map (·.ts)).getD 0)]).head?
/-- The same of the weight columns; the tile scale words of R470 are exempt, whose columns take one channel scale each. -/
def skewedCol (o : FOperands) (met : List Nat) : Bool :=
  o.cols.any (fun col =>
    let used := col.filter fun q => q.2 != some ⟨127, true, 0⟩
    used.any (fun q => q.2.isNone) || used.any fun q => q.2.map (·.ts) != (used.head?).bind fun x => x.2.map (·.ts)) ||
    tsClash met (colScopes o)

/-- What reading the operands of an F product counts (R75, R83, R84, R130, R136). A zero-marked activation block counts as skipped also in
a pass that is skipped for absent tiles (DESIGN CHOICE, log 69). -/
def noteFOperands (s : State) (core : Nat) (c : Cur) (o : FOperands) (scales : List Nat) : State :=
  let b := c.blk
  let co := s.core core
  let w := fWeight s core c
  let bl := blockLen (scaleP (fld b 0x30 16)).geom
  let pb := min bl (blockLen w.P.geom)
  let cells := (List.range (fN b)).flatMap fun n => (List.range (fKLen b / pb)).filterMap fun i =>
    let k := fKStart b + i * pb
    if w.present co (w.tile k (fCol0 b + n)) then some (k, fCol0 b + n) else none
  let badA := sumOf (o.rows.map fun r =>
    (dedupRuns ((r.filter fun a => (a.scale.map (·.c)) == some 0xFF).map fun a => a.k / bl)).length)
  let badW := (((cells.filter fun p => ((w.scaleOf co p.1 p.2).map (·.c)) == some 0xFF).map fun p => w.wordAt p.1 p.2).eraseDups).length
  let tsW := (((List.range (fN b)).map fun n => (fKStart b, fCol0 b + n)) ++ cells).map fun p => w.tsAddr p.1 p.2
  let s := noteBadScale s core (badA + badW)
  let s := noteBadTs s core ((scales.filter fun x => !validTs (swTs x)).length + (tsW.eraseDups.filter fun a => !validTs (co.wRd a 4)).length)
  let s := noteReserved s core (scaleP (fld b 0x30 16)).tensor (sumOf (o.rows.map fun r => sumOf (r.map (·.rsv))))
  let s := noteReserved s core w.P.tensor (sumOf (o.cols.map fun col => sumOf (col.map (·.1.2))))
  (s.bump (Obj.fengZblkSkipped core) (sumOf (o.rows.map fun r => (r.filter fun a => (a.scale.map (·.zero)) == some true).length))).bump
    (Obj.fengWpassSkipped core) o.skipped

/-- The pairs of the mirror pass (R143, R179), in MIR_ACC. -/
def mirrorPass (s : State) (core b : Nat) (ws : Nat → List Nat) : State :=
  let wa := fld b 0x2D 1
  let ww := fld b 0x2E 1
  let A := packBits 512 (ws (fld b 0x2B 1))
  let W := packBits 512 (ws (fld b 0x2C 1))
  let F (f code : Nat) : XNum := ((fmtOf f).getD fmtF32).decode code
  let els := (List.range (fM b)).flatMap fun m => (List.range (fN b)).map fun n => (List.range (fKLen b)).map fun k =>
    mirrorSlot (F wa (elemAt A (fmtBits wa) (m * fKLen b + k))) (F ww (elemAt W (fmtBits ww) (k * fN b + n)))
  let s := startRegion s core (fMirAcc b) (fM b * fN b) 0
  let s := enterRegion core (fMirAcc b) .forward (els.foldl (fun n l => n + l.length) 2) els s
  combineRegion s core (fMirAcc b) .forward

/-- The rescale and output of a FINAL F entry (R133, R134, R143–R145, R177). -/
def fFinish (peers : List (Nat × Scout)) (sideWait : Nat) (s : State) (core : Nat) (c : Cur) (ws : Nat → List Nat)
    (tsA tsW : List Nat) : Formed :=
  let b := c.blk
  let M := fM b
  let N := fN b
  let s := combineRegion s core (fAcc b) .forward
  let pairs := ((s.core core).pairs (fAcc b) (M * N)).zipIdx.map fun p =>
    if fSideAcc b = noneRegion then (p.1, ({} : AccFlags)) else addPair p.1 ((s.core core).pair (fSideAcc b + p.2))
  let s := noteAcc s core .forward (pairs.foldl (fun a p => a.plus p.2) {})
  let s := if fSideAcc b = noneRegion || sideWait = 0 then s
    else raiseFirst (s.bump (Obj.fengSideExtra core) sideWait) core 0x3C03 0 .note
  let ents := (List.range N).filterMap fun n => s.rescale core (fRsFirst b + n)
  let value (P : Pair) (ta tw n : Nat) : Nat × Bool :=
    let x := (ents.drop n).headD 0
    fwdOut P ta tw (rsMul x) (rsOff x) (lastOf (rsFmt (ents.headD 0)))
  let vals := pairs.zipIdx.map fun p =>
    value p.1.1 ((tsA.drop (p.2 / N)).headD 0) ((tsW.drop (p.2 % N)).headD 0) (p.2 % N)
  let m := if fMirror b then mirrorPass s core b ws else s
  let vm := ((m.core core).pairs (fMirAcc b) (M * N)).zipIdx.map fun p => (value p.1 0x3F800000 0x3F800000 (p.2 % N)).1
  let rec_ := mirrorRecord (fld b 0x64 3) (s.clStep (clusterOf core)) ((vals.map (·.1)).zip vm)
  let s := if fMirror b then noteAcc m core .forward rec_.2 else m
  let o := fwdOutput s core c.re.plan.mb c.re.entry (fld b 0x50 16) (fld b 0x2A 1) (fld b 0x64 3) (fRow0 b) (fRowLen b) (fCol0 b) M N
    ents vals peers
  { o with mirror := if fMirror b then some (fld b 0x2F 1, rec_.1) else none }

/-- The results of an F product (R123–R136, R143–R145, R176, R177). `peers` are the statistics of the shares of a scaled output on other
devices (R101), `sideWait` the clk a FINAL entry waited for the side array (R133). -/
def fForm (peers : List (Nat × Scout)) (sideWait : Nat) (s : State) (core : Nat) (c : Cur) (ws : Nat → List Nat) : Formed :=
  let b := c.blk
  let e := c.re.entry
  let co := s.core core
  let w := fWeight s core c
  let M := fM b
  let N := fN b
  let scales := ws (fld b 0x29 1)
  let o := fOperands s core c ws
  let s := forAll o.bad (fun t s => raise (s.bump (Obj.sparseMetaErrors core) 1) 0x3C01 .stepAbort (uCore core) t) s
  let met := if fFirst b then {} else co.region (fAcc b)
  match skewedAct o met.rowTs with
  | some a =>
    .stop (skewFault s core { sl := fld b 0x28 1, back := (ws (fld b 0x28 1)).length - a.bit / 512, sub := a.bit % 512,
                              scaleSl := fld b 0x29 1, scaleBack := scales.length - a.word, el := a.k })
  | none =>
  if skewedCol o met.colTs then .stop (skewFault s core { sl := 0xFF, el := w.tile (fKStart b) (fCol0 b) })
  else
    let s := noteFOperands s core c o scales
    let tsA := rowScopes o
    let tsW := (List.range N).map fun n => w.tsAt co (fKStart b) (fCol0 b + n)
    let els := o.rows.zipIdx.flatMap fun r => o.cols.zipIdx.map fun cn =>
      (r.1.zip cn.1).map fun q =>
        if !validTs ((tsA.drop r.2).headD 0) || !validTs ((tsW.drop cn.2).headD 0) then .nan
        else fSlot q.1 q.2.1.1 (q.1.scale.getD ⟨127, true, 0⟩) (q.2.2.getD ⟨127, true, 0⟩)
    let s := if fFirst b then startRegion s core (fAcc b) (M * N) 0 else s
    let s := enterRegion core (fAcc b) .forward (els.foldl (fun n l => n + l.length) 2) els s
    let s := s.modCore core fun x => x.modRegion (fAcc b) fun r =>
      { r with rowTs := tsJoin r.rowTs tsA, colTs := tsJoin r.colTs (colScopes o) }
    let f := if fFinal b then fFinish peers sideWait s core c ws tsA tsW else { st := s }
    let scaled := fFinal b && isScaled (rsFmt ((s.rescale core (fRsFirst b)).getD 0))
    { f with clk := fClk b ((fPasses e b).length - o.skipped) scaled }

/-- The F product as a class of entries. -/
def fKind (peers : List (Nat × Scout)) (sideWait : Nat) : EntryKind :=
  { op := 0x01, needs := fNeeds, regions := fun _ _ c => fWrites c.blk ++ fSide c.blk, writes := fun _ _ c => fWrites c.blk,
    reads := fReads, store := fun b => (fld b 0x60 4, fDests b), ready := fReady, form := fForm peers sideWait }

/-- `F_PRODUCT` (R123). -/
def execFProduct (core : Fin 256) (err : EntryErr) (peers : List (Nat × Scout)) (sideWait : Nat) (s : State) :
    Host.Outcome State Fault Refusal := runEntry (fKind peers sideWait) core err s

/-! ### The outlier side product (R132, R133) -/

/-- Groups of 16 listed channels, the last padded with zeros. -/
def pad16 (xs : List XNum) : List XNum := xs ++ List.replicate (16 - xs.length) (.fin false 0 0)
def groups16 (xs : List XNum) : List (List XNum) := (chunksOf 16 xs).map pad16

def sideForm (s : State) (core : Nat) (c : Cur) (ws : Nat → List Nat) : Formed :=
  let b := c.blk
  let M := fld b 0 2
  let N := fld b 2 1
  let n := (s.outliers c.img (fld b 0x0C 4)).length
  let A := packBits 512 (ws (fld b 0x10 1))
  let base := 64 * fld b 8 4
  let act (m : Nat) : List XNum := (List.range n).map fun i => fmtG16.decode (elemAt A 16 (m * n + i))
  let wt (j : Nat) : List XNum := (List.range n).map fun i => fmtG16.decode ((s.core core).wRd (base + 2 * (i * N + j)) 2)
  let els := (List.range M).flatMap fun m => (List.range N).map fun j =>
    List.zipWith (fun x y => gGroup x y 8 8 0) (groups16 (act m)) (groups16 (wt j))
  let s := startRegion s core (fld b 4 4) (M * N) 0
  { st := enterRegion core (fld b 4 4) .forward (els.foldl (fun n l => n + l.length) 2) els s, clk := M * ceilDiv n 16 }

def sideKind : EntryKind :=
  { op := 0x0C,
    needs := fun s _ c => [(fld c.blk 0x10 1, ceilDiv (fld c.blk 0 2 * (s.outliers c.img (fld c.blk 0x0C 4)).length * 16) 512)],
    regions := fun _ _ c => [(fld c.blk 4 4, fld c.blk 0 2 * fld c.blk 2 1)],
    reads := fun s _ c => s.outlierReads c.img (fld c.blk 0x0C 4), store := fun b => (fld b 8 4, [fld b 8 4]), form := sideForm }

/-- `OUTLIER_SIDE_PRODUCT` (R132). -/
def execOutlierSideProduct (core : Fin 256) (err : EntryErr) (s : State) : Host.Outcome State Fault Refusal :=
  runEntry sideKind core err s

end Sys2Proof.Machine
end

