-- ==== Sys2Proof/Machine/Backward.lean ====
section
/-! DEFINITION. The backward engines (06_backward_engines.md): BX and BW products and their pair (R149–R162, R166,
R168, R169, R178). -/

namespace Sys2Proof.Machine

/-! ### Reading rows of elements -/

/-- Words of a row of `n` elements that starts on a word boundary (R152). -/
def rowWords (fmt n : Nat) : Nat := ceilDiv (n * fmtBits fmt) 512
/-- The element codes of row `m` of rows that each start on a word boundary (R152). -/
def rowCodes (fmt n : Nat) (ws : List Nat) (m : Nat) : List Nat :=
  let r := rowWords fmt n
  let bits := packBits 512 ((ws.drop (m * r)).take r)
  (List.range n).map (elemAt bits (fmtBits fmt))
/-- A row of a stored pre-activation (R94, R156). `idx` gives the block index of a column, `word` is the row's scale word. -/
def zRow (fmt : Nat) (codes : List Nat) (word : Nat) (idx : Nat → Nat) : Operand :=
  let rsvs := codes.map fun k => ((fmtOf fmt).map (·.reservedCode k)).getD false
  if !isScaled fmt then { vals := codes.map (plainNum fmt), rsvs := rsvs }
  else
    let at_ (j : Nat) : Option BlockScale := blockScale word (idx j)
    let blocks := dedupRuns ((List.range codes.length).map idx)
    { vals := codes.zipIdx.map fun p => ((at_ p.2).map fun b => scaledNum fmt p.1 b.c b.ts).getD .nan
      rsvs := rsvs
      badScale := (blocks.filter fun b => (blockScale word b).map (·.c) == some 0xFF).length
      badTs := if validTs (swTs word) then 0 else 1
      skew := ((List.range codes.length).find? fun j => (at_ j).isNone).map fun j => (j, 0) }

/-! ### The backward product parameter block (R150) -/

def bM (b : Nat) : Nat := fld b 0x00 2
def bFirst (b : Nat) : Bool := bitOf (fld b 0x02 1) 0
def bFinal (b : Nat) : Bool := bitOf (fld b 0x02 1) 1
def bDwFirst (b : Nat) : Bool := bitOf (fld b 0x02 1) 2
def bDeriv (b : Nat) : Bool := bitOf (fld b 0x02 1) 3
def bMap (b : Nat) : Bool := bitOf (fld b 0x02 1) 4
def bSparse (b : Nat) : Nat := bitsOf (fld b 0x02 1) 5 2
def bFrozen (b : Nat) : Bool := bitOf (fld b 0x02 1) 7
def bXFmt (b : Nat) : Nat := fld b 0x03 1
def bN0 (b : Nat) : Nat := fld b 0x04 4
def bK0 (b : Nat) : Nat := fld b 0x08 4
def bNW (b : Nat) : Nat := fld b 0x0C 2
def bKW (b : Nat) : Nat := fld b 0x0E 1
def bRank (b : Nat) : Nat := fld b 0x0F 1
def bDx (b : Nat) : Nat := fld b 0x10 4
def bDw (b : Nat) : Nat := fld b 0x14 4
def bSide (b : Nat) : Nat := fld b 0x18 4
def bZFmt (b : Nat) : Nat := fld b 0x3F 1
def bRow0 (b : Nat) : Nat := fld b 0x48 4
def bKTotal (b : Nat) : Nat := fld b 0x4C 4
/-- Columns of the BW operand: KW of X, or RANK of H under FROZEN (R152, R161). -/
def bXCols (b : Nat) : Nat := if bFrozen b then bRank b else bKW b
def hasBx (op : Nat) : Bool := op == 0x02 || op == 0x04
def hasBw (op : Nat) : Bool := op == 0x03 || op == 0x04

/-- Columns of the weight: the greatest end of the dY columns of this entry and of the entries still to run that name
the same weight (DEDUCED, log 19). -/
def bCols (s : State) (core : Nat) (c : Cur) : Nat :=
  ((s.core core).todo.foldl (fun m p =>
    let e := s.entryAt c.img p.off
    let b := s.blockAt c.img e
    if (hasBx e.op || hasBw e.op) && fld b 0x1C 4 == fld c.blk 0x1C 4 && fld b 0x20 4 == fld c.blk 0x20 4 &&
        fld b 0x24 4 == fld c.blk 0x24 4 then max m (bN0 b + bNW b) else m) (bN0 c.blk + bNW c.blk))
def bWeight (s : State) (core : Nat) (c : Cur) : WeightView :=
  let b := c.blk
  let cols := ceilDiv (bCols s core c) 32
  { base := 64 * fld b 0x1C 4, metaAt := 64 * fld b 0x20 4, bmap := 64 * fld b 0x24 4, scale := 64 * fld b 0x28 4,
    fmt := c.re.entry.fmtB, cols := cols, tiles := cols * (bKTotal b / 32), rows := bKTotal b, sparse := bSparse b,
    hasMap := bMap b, P := scaleP (fld b 0x50 16) }

/-- The Sluices a backward product reads (R152): dY, X or H, and under DERIV the pre-activation with, for a scaled one,
a scale word for each row from the stream linked to it (DEDUCED, log 19). -/
def bNeeds (s : State) (core : Nat) (c : Cur) : List (Nat × Nat) :=
  let b := c.blk
  [(fld b 0x38 1, bM b * rowWords c.re.entry.fmtA (bNW b))] ++
    (if hasBw c.re.entry.op then [(fld b 0x39 1, bM b * rowWords (bXFmt b) (bXCols b))] else []) ++
    if bDeriv b then
      [(fld b 0x3A 1, bM b * rowWords (bZFmt b) (bKW b))] ++
        (if isScaled (bZFmt b) then [(s.linkedSluice core (fld b 0x3A 1), bM b)] else [])
    else []
def bSideLen (outliers : List Nat) (b : Nat) : Nat :=
  (outliers.filter fun k => decide (bK0 b ≤ k) && decide (k < bK0 b + bKW b)).length
def bRegions (s : State) (_core : Nat) (c : Cur) : List (Nat × Nat) :=
  let b := c.blk
  (if bDx b = noneRegion then [] else [(bDx b, bM b * bKW b)]) ++
    (if bDw b = noneRegion then [] else [(bDw b, bXCols b * bNW b)]) ++
    if bSide b = noneRegion then [] else [(bSide b, bM b * bSideLen (s.outliers c.img (fld b 0x30 4)) b)]

/-- What an entry reads of its outlier list and of its derivative record (R40, R114, R157). -/
def bReads (s : State) (core : Nat) (c : Cur) : List (TableRec × Nat × Nat) :=
  s.outlierReads c.img (fld c.blk 0x30 4) ++ if bFinal c.blk && bDeriv c.blk then s.fnReads 3 core (fld c.blk 0x3C 1) else []

/-- The clk that a backward entry takes, c+0 to its last event (R160, R161, R168). -/
def bClk (op b fmtA : Nat) (skipped : Bool) (sideWait : Nat) : Nat :=
  let r := if fmtA = 0x30 && (!hasBw op || bXFmt b == 0x30) then 1 else 2
  let last := 32 + r * (bM b - 1) + (if bSparse b = 0 then 0 else 8)
  let bx := if skipped then 0 else last + (if bFinal b then 285 else 269)
  let bw := last + 29
  (if hasBx op then (if hasBw op then max bx bw else bx) else bw) + sideWait

/-! ### Group results (R154, R178) -/

/-- The groups of 16 along a list. -/
def groupsAlong (xs ys : List XNum) (wa wb : Nat) (scale : Nat → Option Int) : List XNum :=
  ((chunksOf 16 xs).zip (chunksOf 16 ys)).zipIdx.map fun p =>
    match scale p.2 with
    | some e => gGroup p.1.1 p.1.2 wa wb e
    | none => .nan
/-- Group results that are NaN or infinite set the tile flags (R154). -/
def noteGroups (s : State) (core : Nat) (els : List (List XNum)) : State :=
  tileFlags s core .gradient (els.any fun l => l.any XNum.isInf) (els.any fun l => l.any XNum.isNan)
/-- Slots entered into a region, after FIRST zeroed it. -/
def formRegion (s : State) (core base : Nat) (fst : Bool) (wid : Nat) (els : List (List XNum)) : State :=
  let s := if fst then startRegion s core base els.length wid else s
  enterRegion core base .gradient (els.foldl (fun n l => n + l.length) 2) els (noteGroups s core els)

/-- A malformed metadata group, or one that breaks the transposable condition (R166); under SPARSE 3 a group repeats a
position when both stored elements are nonzero there (DEDUCED, log 19). -/
def bBadTile (co : Core) (w : WeightView) (sparse t : Nat) : Bool :=
  if sparse = 3 then
    let p := w.ordinal co t
    w.present co t && (List.range 8).any fun g => (List.range 32).any fun n =>
      let x := w.nibble co p g n
      x.1 == x.2 && w.stored co p (2 * g + 1) n != 0
  else w.tileBad co (sparse == 2) t || w.notTransposable co (sparse == 2) t

/-- The factor `t` of R156 without ts_W, and whether the exponent difference was clamped. -/
def gradShift (s : State) (lin lout : Nat) : Nat × Bool :=
  let d := s.gradK lout - s.gradK lin
  let c := max (-126) (min 127 d)
  (pow2F32 c, decide (c ≠ d))
def noteClamp (s : State) (core : Nat) (clamped : Bool) : State :=
  if clamped then raiseFirst (s.bump (Obj.bengShiftClamp core) 1) core 0x3D05 0 .note else s

/-- The rows of the pre-activation that a FINAL entry under DERIV reads (R152, R156). -/
def zRows (s : State) (core b : Nat) (ws : Nat → List Nat) : List Operand :=
  let bl := blockLen (scaleP (fld b 0x60 16)).geom
  (List.range (bM b)).map fun m =>
    zRow (bZFmt b) (rowCodes (bZFmt b) (bKW b) (ws (fld b 0x3A 1)) m) ((ws (s.linkedSluice core (fld b 0x3A 1))).drop m |>.headD 0)
      fun j => (bRow0 b + m) * (bKTotal b / bl) + (bK0 b + j) / bl
/-- The first row and column of the pre-activation that meet no scale, as the Sluices' words stand (R107). -/
def zSkew (s : State) (core b : Nat) (zs : List Operand) : Option SkewAt :=
  (zs.zipIdx.findSome? fun r => r.1.skew.map fun q => (r.2, q.1)).map fun q =>
    let w := fmtBits (bZFmt b)
    let rw := rowWords (bZFmt b) (bKW b)
    { sl := fld b 0x3A 1, back := bM b * rw - (q.1 * rw + q.2 * w / 512), sub := q.2 * w % 512,
      scaleSl := s.linkedSluice core (fld b 0x3A 1), scaleBack := bM b - q.1, el := q.1 * bKW b + q.2 }

/-- The dX output stage (R156, R160): the side pairs added, and every element converted. -/
def bOutput (s : State) (core : Nat) (c : Cur) (tsW : Nat) (side : List Nat) (sideWait : Nat) (ws : Nat → List Nat) :
    Formed :=
  let b := c.blk
  let M := bM b
  let KW := bKW b
  let s := combineRegion s core (bDx b) .gradient
  let s := if bSide b = noneRegion then s else combineRegion s core (bSide b) .gradient
  let C := side.length
  let pairs := ((s.core core).pairs (bDx b) (M * KW)).zipIdx.map fun p =>
    match (side.zipIdx.find? fun q => q.1 == bK0 b + p.2 % KW) with
    | some q => addPair p.1 ((s.core core).pair (bSide b + p.2 / KW * C + q.2))
    | none => (p.1, ({} : AccFlags))
  let s := noteAcc s core .gradient (pairs.foldl (fun a p => a.plus p.2) {})
  let s := if bSide b = noneRegion || sideWait = 0 then s
    else raiseFirst (s.bump (Obj.bengSideExtra core) sideWait) core 0x3D03 0 .note
  let lout := fld b 0x42 2
  let sh := gradShift s (fld b 0x40 2) lout
  let s := noteClamp s core sh.2
  let t := fmul tsW sh.1
  let fmt := fld b 0x3D 1
  let tensor := fld b 0x44 3
  let mode := rmodeOf (fld b 0x3E 1 % 4) .sr
  let zs := if bDeriv b then zRows s core b ws else []
  match zSkew s core b zs with
  | some k => .stop (skewFault s core k)
  | none =>
    let s := forAll zs (fun o s => noteOperand s core (scaleP (fld b 0x60 16)).tensor o) s
    let z := zs.flatMap fun o => o.vals.map rne32
    let R := (s.fnRecord 3 core (fld b 0x3C 1)).getD fun _ => 0
    let deriv (i : Nat) : Option Nat := if bDeriv b then some (fnEval R ((z.drop i).headD 0) .rne).1 else none
    let vals := pairs.zipIdx.map fun p => bwdVal p.1.1 t (deriv p.2) (lastOf fmt)
    let convs := vals.zipIdx.map fun p =>
      let idx := (bRow0 b + p.2 / KW) * bKTotal b + bK0 b + p.2 % KW
      finish p.1.1 (fmt != 0x01 && p.1.2) fmt mode ((s.drawArgs core tensor 1).at mode idx)
    let cnt := cntAll convs
    let s := noteCnt s core .gradient tensor fmt cnt
    let s := noteLayer s core lout convs.length (amaxOf (vals.map fun v => f32 v.1)) cnt
    { st := s
      outq := s.outWords core c.re.entry.out (fmtBits fmt) (convs.map (·.code)) ++
        s.outLines core (fld b 0x3B 1) (runCounters convs KW (bRow0 b) (bKTotal b) (bK0 b)) }

/-- The tiles of the weight that an entry covers, in increasing tile block index (R152). -/
def bTiles (w : WeightView) (b : Nat) : List Nat :=
  ((List.range (bKW b / 32)).flatMap fun i => (List.range (ceilDiv (bNW b) 32)).map fun j =>
    w.tile (bK0 b + 32 * i) (bN0 b + 32 * j)).eraseDups
/-- The scale of a tile; one that an absent tile does not read stands as 1 (R104, R136). -/
def bTileScale (co : Core) (w : WeightView) (t : Nat) : Option BlockScale :=
  if w.present co t then blockScale (co.wRd (w.scale + 64 * (t / 32)) 64) t else some ⟨127, true, 0⟩
/-- The listed channels among an entry's weight rows (R160). -/
def bListed (s : State) (c : Cur) : List Nat :=
  (s.outliers c.img (fld c.blk 0x30 4)).filter fun k => decide (bK0 c.blk ≤ k) && decide (k < bK0 c.blk + bKW c.blk)

/-- The BX part of an entry: groups along n for each row of dY and each row of the weight, which BX meets as G16 images (R153, R154, R160,
R178). -/
def bxGroups (s : State) (core : Nat) (c : Cur) (dy : List (List XNum)) (skipped : Bool) : State :=
  let b := c.blk
  let co := s.core core
  let w := bWeight s core c
  let NW := bNW b
  let wa := gWidth c.re.entry.fmtA
  let tiles := bTiles w b
  let ks := (List.range (bKW b)).map (bK0 b + ·)
  let ns := (List.range NW).map (bN0 b + ·)
  let side := bListed s c
  let tsW := w.tsAt co (bK0 b) (bN0 b)
  let words := (w.tsAddr (bK0 b) (bN0 b) :: (tiles.filter (w.present co)).map fun t => w.scale + 64 * (t / 32) + 8).eraseDups
  let s := noteBadScale s core ((tiles.filter fun t => (bTileScale co w t).map (·.c) == some 0xFF).length)
  let s := noteBadTs s core ((words.filter fun a => !validTs (co.wRd a 4)).length)
  let wrows := ks.map fun k => ns.map fun n => (w.code co k n).map (codeVal w.fmt)
  let conv := if bSparse b = 3 then sumOf (ks.map fun k => (ns.filter fun n => w.present co (w.tile k n)).length)
    else sumOf (wrows.map fun r => (r.filter Option.isSome).length)
  let s := s.bump (Obj.bengWtInline core) conv
  let s := noteReserved s core w.P.tensor (sumOf (wrows.map fun r => sumOf (r.map fun x => (x.map (·.2)).getD 0)))
  let s := if skipped then s.bump (Obj.bengWpassSkipped core) 1 else s
  let scaleAt (k n : Nat) : Option Int :=
    if !w.present co (w.tile k n) then some 0
    else (bTileScale co w (w.tile k n)).bind fun q => if q.c = 0xFF then none else some ((q.c : Int) - 127)
  let els := dy.flatMap fun row => (ks.zip wrows).map fun kw =>
    if side.contains kw.1 then List.replicate (NW / 16) (.fin false 0 0)
    else if !validTs tsW then List.replicate (NW / 16) .nan
    else groupsAlong row (kw.2.map fun x => (x.map fun v => g16Image v.1).getD (.fin false 0 0)) wa 8
      fun g => scaleAt kw.1 (bN0 b + 16 * g)
  let s := formRegion s core (bDx b) (bFirst b) 0 els
  let s := s.modCore core fun x => x.modRegion (bDx b) fun r => { r with colTs := tsJoin r.colTs [tsW] }
  if bSide b = noneRegion || side.isEmpty then s
  else
    let wt (i : Nat) : List XNum := (List.range NW).map fun j =>
      fmtG16.decode (co.wRd (64 * fld b 0x2C 4 + 2 * (i * NW + j)) 2)
    formRegion s core (bSide b) (bFirst b) 0
      (dy.flatMap fun row => (List.range side.length).map fun i => groupsAlong row (wt i) wa 8 fun _ => some 0)

/-- The BW part: groups along the rows for each cell; pruned positions and absent tiles are gated (R154, R161, R167, R178). -/
def bwGroups (s : State) (core : Nat) (c : Cur) (dy : List (List XNum)) (ws : Nat → List Nat) : State :=
  let b := c.blk
  let co := s.core core
  let w := bWeight s core c
  let M := bM b
  let xc := bXCols b
  let xs := (List.range M).map fun m => (rowCodes (bXFmt b) xc (ws (fld b 0x39 1)) m).map (plainNum (bXFmt b))
  let col (rows : List (List XNum)) (j : Nat) : List XNum := rows.map fun r => (r.drop j).headD (.fin false 0 0)
  let els := (List.range xc).flatMap fun i => (List.range (bNW b)).map fun j =>
    let gated := !bFrozen b && (bSparse b != 0 || bMap b) && (w.code co (bK0 b + i) (bN0 b + j)).isNone
    if gated then List.replicate (M / 16) (.fin false 0 0)
    else groupsAlong (col xs i) (col dy j) (gWidth (bXFmt b)) (gWidth c.re.entry.fmtA) fun _ => some 0
  formRegion s core (bDw b) (bDwFirst b) (fld b 0x34 3) els

/-- The results of a backward product (R150–R162, R166). BX alone reads the weight's metadata and scales, so only an entry with BX is
stopped by them. `sideWait` is the clk a FINAL entry waited for the side array. -/
def bForm (sideWait : Nat) (s : State) (core : Nat) (c : Cur) (ws : Nat → List Nat) : Formed :=
  let b := c.blk
  let e := c.re.entry
  let bx := hasBx e.op
  let co := s.core core
  let w := bWeight s core c
  let tiles := bTiles w b
  let dy := (List.range (bM b)).map fun m => (rowCodes e.fmtA (bNW b) (ws (fld b 0x38 1)) m).map (plainNum e.fmtA)
  let badTile := if !bx || bSparse b = 0 then none else tiles.find? fun t => bBadTile co w (bSparse b) t
  let scales := tiles.map (bTileScale co w)
  let tss := (scales.filterMap fun q => q.map (·.ts)).filter (· != 0)
  let met := if bFirst b then [] else (co.region (bDx b)).colTs
  let skewed := bx && (scales.any Option.isNone || (tss.any fun t => t != tss.headD 0) || tsClash met [tss.headD 0])
  let skipped := bx && bMap b && tiles.all fun t => !w.present co t
  match badTile with
  | some t => .stop (raise (s.bump (Obj.sparseMetaErrors core) 1) 0x3D04 .stepAbort (uCore core) t)
  | none =>
  if skewed then .stop (skewFault s core { sl := 0xFF, el := tiles.headD 0 })
  else
    let s := if bx then bxGroups s core c dy skipped else s
    let s := if hasBw e.op then bwGroups s core c dy ws else s
    let f := if bx && bFinal b then bOutput s core c (w.tsAt co (bK0 b) (bN0 b)) (bListed s c) sideWait ws else { st := s }
    { f with clk := bClk e.op b e.fmtA skipped (if bSide b = noneRegion then 0 else sideWait) }

/-- Where the weights, metadata, bitmap and side weights that the entry's WAIT delivers go; a field of 0 names none (R150). -/
def bStore (b : Nat) : Nat × List Nat :=
  (fld b 0x28 4, fld b 0x1C 4 :: ([fld b 0x20 4, fld b 0x24 4, fld b 0x2C 4].filter (· != 0)))

/-- The class of BX entries. -/
def bxKind (sideWait : Nat) : EntryKind :=
  { op := 0x02, needs := bNeeds, regions := bRegions, reads := bReads, store := bStore, form := bForm sideWait }
def bwKind : EntryKind := { op := 0x03, needs := bNeeds, regions := bRegions, reads := bReads, store := bStore, form := bForm 0 }
def pairKind (sideWait : Nat) : EntryKind :=
  { op := 0x04, needs := bNeeds, regions := bRegions, reads := bReads, store := bStore, form := bForm sideWait }

/-- `BX_PRODUCT` (R150). -/
def execBxProduct (core : Fin 256) (err : EntryErr) (sideWait : Nat) (s : State) : Host.Outcome State Fault Refusal :=
  runEntry (bxKind sideWait) core err s
/-- `BW_PRODUCT` (R150). -/
def execBwProduct (core : Fin 256) (err : EntryErr) (s : State) : Host.Outcome State Fault Refusal :=
  runEntry bwKind core err s
/-- `BX_BW_PAIR` (R161). -/
def execBxBwPair (core : Fin 256) (err : EntryErr) (sideWait : Nat) (s : State) : Host.Outcome State Fault Refusal :=
  runEntry (pairKind sideWait) core err s

end Sys2Proof.Machine
end

