-- ==== Sys2Proof/Machine/Net.lean ====
section
/-! DEFINITION. Queue pairs (R354–R357), and the mailbox channels with the messages that the device sends (R362–R367). -/

namespace Sys2Proof.Machine

/-! ### Queue pair records (R357) -/

def State.qpRec (s : State) (i : Nat) : Nat := s.reg (ofUnit Obj.roceQp i)
/-- A field of a record. -/
def State.qpFld (s : State) (i off size : Nat) : Nat := fld (s.qpRec i) off size
def State.setQpFld (s : State) (i off size v : Nat) : State :=
  s.setReg (ofUnit Obj.roceQp i) (s.qpRec i - s.qpFld i off size * 256 ^ off + v % 256 ^ size * 256 ^ off)
def State.qpValid (s : State) (i : Nat) : Bool := bitOf (s.qpFld i 4 4) 0
/-- The network of a queue pair: 0 A, 1 B. -/
def State.qpNet (s : State) (i : Nat) : Nat := bitsOf (s.qpFld i 4 4) 1 1
def State.qpState (s : State) (i : Nat) : Nat := s.qpFld i 0x28 1
def State.qpPort (s : State) (i : Nat) : Nat := s.qpFld i 0x29 1
def allQps : List Nat := List.range 2048
/-- The valid queue pairs of a network. -/
def State.qpsOf (s : State) (net : Nat) : List Nat := allQps.filter fun i => s.qpValid i && s.qpNet i == net
def dQp : Nat → Qp := fun _ => {}
def State.qp (s : State) (i : Nat) : Qp := smGet dQp s.net.qps i
def State.modQp (s : State) (i : Nat) (f : Qp → Qp) : State :=
  (s.withNet { s.net with qps := smSet dQp s.net.qps i (f (s.qp i)) })

/-! ### Sending (R351, R354) -/

def dEth : Nat → EthPort := fun _ => {}
def State.eth (s : State) (p : Nat) : EthPort := smGet dEth s.net.ports p
def State.modEth (s : State) (p : Nat) (f : EthPort → EthPort) : State :=
  (s.withNet { s.net with ports := smSet dEth s.net.ports p (f (s.eth p)) })
/-- Packets of a message at path MTU 4,096. -/
def packetCount (n : Nat) : Nat := max 1 (ceilDiv n 4096)
/-- Frames of a message. -/
def frameCount : Out → Nat
  | .rdma _ r => if r.op = 2 then 1 else packetCount r.len
  | .data _ _ bs => packetCount bs.length
  | _ => 1
/-- A frame that a port receives, counted. -/
def rxFrame (s : State) (p : Nat) : State := if s.portUp p then s.bump (Obj.ethPRxFrames p) 1 else s
/-- A frame that a port receives for no queue pair, dropped. -/
def dropFrame (s : State) (p : Nat) : State := if s.portUp p then s.bump (Obj.ethPDrops p) 1 else s
/-- A frame that a port sends. -/
def txFrame (s : State) (p : Nat) (o : Out) : State := (s.bump (Obj.ethPTxFrames p) (frameCount o)).emit o
/-- A message of the RoCE priority leaves by a port, or waits while the priority is paused there. -/
def roceEmit (s : State) (port : Nat) (o : Out) : State :=
  if 8 ≤ port then s
  else if s.beat < (s.eth port).pause then s.modEth port fun e => { e with waiting := e.waiting ++ [o] } else txFrame s port o
/-- The pauses that end by the present beat. -/
def endPauses (s : State) : State :=
  forAll ((List.range 8).filter fun p => decide ((s.eth p).pause ≤ s.beat) && !(s.eth p).waiting.isEmpty) (fun p s =>
    forAll (s.eth p).waiting (fun o s => txFrame s p o) (s.modEth p fun e => { e with waiting := [] })) s

def RdmaReq.wire (r : RdmaReq) : RdmaReqMsg :=
  match r.kind with
  | .write => { op := 0, addr := r.addr, rkey := r.rkey, len := r.len, psn := r.psn, bytes := r.bytes }
  | .writeImm i => { op := 1, addr := r.addr, rkey := r.rkey, len := r.len, imm := i, psn := r.psn, bytes := r.bytes }
  | .read => { op := 2, addr := r.addr, rkey := r.rkey, len := r.len, psn := r.psn }
def psnMod : Nat := 2 ^ 24
/-- A request given to a ready queue pair: it takes the next sequence numbers and waits for its acknowledgement. -/
def qpSend (s : State) (i : Nat) (r : RdmaReq) : State :=
  if s.qpState i ≠ 1 then s
  else
    let r := { r with psn := (s.qp i).sendPsn }
    let s := s.modQp i fun q => { q with sendPsn := (q.sendPsn + packetCount r.len) % psnMod, out := q.out ++ [r] }
    roceEmit s (s.qpPort i) (.rdma i r.wire)
/-- Everything unacknowledged sent again, oldest first (go-back-N, R354). -/
def qpResend (s : State) (i : Nat) : State :=
  forAll (s.qp i).out (fun r s => roceEmit s (s.qpPort i) (.rdma i r.wire)) s
/-- A queue pair enters the error state (R356): its operations complete with an error. -/
def qpError (s : State) (i : Nat) : State :=
  if s.qpState i ≠ 1 then s
  else
    let s := (s.setQpFld i 0x28 1 2).modQp i fun q => { q with out := [], retries := 0 }
    raise (s.bump Obj.roceErrQps 1) 0x7B05 .note uDevice

/-! ### Channels (R362–R364) -/

def epMc : Nat := 0
def epSeq (cl : Nat) : Nat := 0x10 + cl
def epHost (e : Nat) : Nat := 0x40 + e
def chanKey (sender receiver : Nat) (secure : Bool) : Nat := 2 * (256 * sender + receiver) + if secure then 1 else 0
def dChan : Nat → Chan := fun _ => {}
def State.chan (s : State) (k : Nat) : Chan := smGet dChan s.net.chans k
def State.modChan (s : State) (k : Nat) (f : Chan → Chan) : State :=
  (s.withNet { s.net with chans := smSet dChan s.net.chans k (f (s.chan k)) })
/-- A host endpoint exists while its queue pair is a valid one of network B. -/
def State.hostExists (s : State) (e : Nat) : Bool :=
  let q := s.reg (Obj.mbxEpQp e)
  decide (q < 2048) && s.qpValid q && s.qpNet q == 1
/-- Doorbell bits of a receiver. -/
def State.dbPending (s : State) (ep : Nat) : Nat :=
  if ep = epMc then s.reg Obj.mbxMcDbPending
  else if ep < 0x40 then s.reg (Obj.mbxSqDbPending (ep - 0x10))
  else smGet zeroWord s.net.hostPending (ep - 0x40)
def State.dbMask (s : State) (ep : Nat) : Nat :=
  if ep = epMc then s.reg Obj.mbxMcDbMask
  else if ep < 0x40 then s.reg (Obj.mbxSqDbMask (ep - 0x10))
  else smGet zeroWord s.net.hostMask (ep - 0x40)
def State.setPending (s : State) (ep v : Nat) : State :=
  if ep = epMc then s.setReg Obj.mbxMcDbPending v
  else if ep < 0x40 then s.setReg (Obj.mbxSqDbPending (ep - 0x10)) v
  else (s.withNet { s.net with hostPending := smSet zeroWord s.net.hostPending (ep - 0x40) v })
/-- The receiver is notified while an unmasked bit is pending (R366). -/
def State.notified (s : State) (ep : Nat) : Bool :=
  (List.range 32).any fun b => bitOf (s.dbPending ep) b && !bitOf (s.dbMask ep) b
/-- A bit rung at a receiver; the management controller takes an interrupt when it is first notified. -/
def ring (s : State) (ep bit : Nat) : State :=
  let was := s.notified ep
  let s := s.setPending ep (s.dbPending ep ||| 2 ^ bit)
  if ep = epMc && !was && s.notified ep then s.emit .interrupt else s

/-- A message as it is delivered: the device writes SENDER, FLAGS and SEQ and clears the reserved doorbell bits. -/
def stamp (sender : Nat) (secure : Bool) (w : Nat) (bytes : List Byte) : List Byte :=
  let b := leNat (bytes.take 64)
  leBytes 64 (bitsOf b 0 13 + sender * 2 ^ 16 + (if secure then 2 ^ 24 else 0) + w % 2 ^ 32 * 2 ^ 32 + bitsOf b 64 448 * 2 ^ 64)
def msgDbell (bytes : List Byte) : Nat := bitsOf (leNat (bytes.take 2)) 8 5

/-- The page port of a sender's channel to a host: 0 and 1 the management controller, 2 + n the sequencers. -/
def senderPort (sender : Nat) (secure : Bool) : Nat := if sender = epMc then (if secure then 1 else 0) else sender - 0x10 + 2
def State.consOf (s : State) (e j : Nat) : Nat := smGet zeroWord s.net.cons (32 * e + j)
def State.hostFull (s : State) (e sender : Nat) (secure : Bool) : Bool :=
  let w := (s.chan (chanKey sender (epHost e) secure)).w
  decide (8 ≤ (w + 2 ^ 32 - s.consOf e (senderPort sender secure)) % 2 ^ 32)
/-- A message written to a host endpoint by RDMA WRITE (R367). -/
def sendHost (s : State) (e sender : Nat) (secure : Bool) (bytes : List Byte) : State :=
  let k := chanKey sender (epHost e) secure
  let w := (s.chan k).w
  let j := senderPort sender secure
  let b := msgDbell bytes
  let r : RdmaReq := { kind := if bitOf (s.dbMask (epHost e)) b then .write else .writeImm (j * 256 + b), use := .mailbox e,
                       addr := s.reg (Obj.mbxEpHostAddr e) + (8 * j + w % 8) * 64, rkey := s.reg (Obj.mbxEpHostRkey e),
                       bytes := stamp sender secure w bytes, len := 64 }
  let s := s.modChan k fun c => { c with w := (c.w + 1) % 2 ^ 32 }
  qpSend (ring s (epHost e) b) (s.reg (Obj.mbxEpQp e)) r
/-- A message of a sequencer to a host endpoint: dropped and counted where it cannot go (R367). -/
def seqSend (s : State) (cl e : Nat) (bytes : List Byte) : State :=
  if !s.hostExists e || s.reg Obj.mbxRkey = 0 || s.qpState (s.reg (Obj.mbxEpQp e)) ≠ 1 || (s.activePorts 1).isEmpty ||
      s.hostFull e (epSeq cl) false then
    raise (s.bump Obj.mbxDropped 1) 0xAA04 .note (uCluster cl)
  else sendHost s e (epSeq cl) false bytes
/-- The STEP_DONE message of a commit or discard (R369), of the lowest-numbered cluster of the group at the origin. -/
def stepDone (s : State) (step health outcome : Nat) : State :=
  match s.train.atOrigin with
  | [] => s
  | cl :: _ =>
    let m := leBytes 64 (0x81 + s.reg Obj.mbxNotifyDb * 256 + step * 2 ^ 64 + health * 2 ^ 128 + outcome * 2 ^ 192)
    forAll ((List.range 16).filter fun e => bitOf (s.reg Obj.mbxNotifyMask) e) (fun e s => seqSend s cl e m) s

/-! ### Length words (R368) -/

/-- A micro-batch whose length has not arrived. -/
def noLength : Nat → Nat := fun _ => 2 ^ 32
def Cluster.length (c : Cluster) (i : Nat) : Nat := smGet noLength c.lengths i
/-- MB_PER_STEP of a training cluster's image. -/
def State.mbPerStep (s : State) (cl : Nat) : Nat := ((s.table 6 cl 1).map fun t => snapRd t 8 2).getD 0
def State.lengthsHeld (s : State) (cl : Nat) : Bool :=
  (List.range (s.mbPerStep cl)).all fun i => (s.cluster cl).length i != 2 ^ 32

end Sys2Proof.Machine
end

