-- ==== Sys2Proof/Machine/Crypto.lean ====
section
/-! DEFINITION. The cryptographic functions the manual names: SHA-512, ECDSA over P-521 (R37, R379, R433–R435, R441) and
the CRC-32 of its records (R165 and others use their own). Constants are those of the published standards. -/

namespace Sys2Proof.Machine

/-! ### SHA-512 -/

def w64 (n : Nat) : Nat := n % 2 ^ 64
def rotr64 (x n : Nat) : Nat := (x >>> n) ||| w64 (x <<< (64 - n))

def shaK0 : List Nat := [0x428A2F98D728AE22, 0x7137449123EF65CD, 0xB5C0FBCFEC4D3B2F, 0xE9B5DBA58189DBBC, 0x3956C25BF348B538, 0x59F111F1B605D019, 0x923F82A4AF194F9B, 0xAB1C5ED5DA6D8118]
def shaK1 : List Nat := [0xD807AA98A3030242, 0x12835B0145706FBE, 0x243185BE4EE4B28C, 0x550C7DC3D5FFB4E2, 0x72BE5D74F27B896F, 0x80DEB1FE3B1696B1, 0x9BDC06A725C71235, 0xC19BF174CF692694]
def shaK2 : List Nat := [0xE49B69C19EF14AD2, 0xEFBE4786384F25E3, 0x0FC19DC68B8CD5B5, 0x240CA1CC77AC9C65, 0x2DE92C6F592B0275, 0x4A7484AA6EA6E483, 0x5CB0A9DCBD41FBD4, 0x76F988DA831153B5]
def shaK3 : List Nat := [0x983E5152EE66DFAB, 0xA831C66D2DB43210, 0xB00327C898FB213F, 0xBF597FC7BEEF0EE4, 0xC6E00BF33DA88FC2, 0xD5A79147930AA725, 0x06CA6351E003826F, 0x142929670A0E6E70]
def shaK4 : List Nat := [0x27B70A8546D22FFC, 0x2E1B21385C26C926, 0x4D2C6DFC5AC42AED, 0x53380D139D95B3DF, 0x650A73548BAF63DE, 0x766A0ABB3C77B2A8, 0x81C2C92E47EDAEE6, 0x92722C851482353B]
def shaK5 : List Nat := [0xA2BFE8A14CF10364, 0xA81A664BBC423001, 0xC24B8B70D0F89791, 0xC76C51A30654BE30, 0xD192E819D6EF5218, 0xD69906245565A910, 0xF40E35855771202A, 0x106AA07032BBD1B8]
def shaK6 : List Nat := [0x19A4C116B8D2D0C8, 0x1E376C085141AB53, 0x2748774CDF8EEB99, 0x34B0BCB5E19B48A8, 0x391C0CB3C5C95A63, 0x4ED8AA4AE3418ACB, 0x5B9CCA4F7763E373, 0x682E6FF3D6B2B8A3]
def shaK7 : List Nat := [0x748F82EE5DEFB2FC, 0x78A5636F43172F60, 0x84C87814A1F0AB72, 0x8CC702081A6439EC, 0x90BEFFFA23631E28, 0xA4506CEBDE82BDE9, 0xBEF9A3F7B2C67915, 0xC67178F2E372532B]
def shaK8 : List Nat := [0xCA273ECEEA26619C, 0xD186B8C721C0C207, 0xEADA7DD6CDE0EB1E, 0xF57D4F7FEE6ED178, 0x06F067AA72176FBA, 0x0A637DC5A2C898A6, 0x113F9804BEF90DAE, 0x1B710B35131C471B]
def shaK9 : List Nat := [0x28DB77F523047D84, 0x32CAAB7B40C72493, 0x3C9EBE0A15C9BEBC, 0x431D67C49C100D4C, 0x4CC5D4BECB3E42B6, 0x597F299CFC657E2A, 0x5FCB6FAB3AD6FAEC, 0x6C44198C4A475817]
def shaK : List Nat := shaK0 ++ shaK1 ++ shaK2 ++ shaK3 ++ shaK4 ++ shaK5 ++ shaK6 ++ shaK7 ++ shaK8 ++ shaK9
def shaH : List Nat := [0x6A09E667F3BCC908, 0xBB67AE8584CAA73B, 0x3C6EF372FE94F82B, 0xA54FF53A5F1D36F1, 0x510E527FADE682D1, 0x9B05688C2B3E6C1F, 0x1F83D9ABFB41BD6B, 0x5BE0CD19137E2179]

/-- Padding to whole 128-byte blocks: a 1 bit, zeros, and the length in bits as 16 bytes, highest first. -/
def shaPad (bs : List Byte) : List Byte :=
  let z := (128 - (bs.length + 17) % 128) % 128
  bs ++ [0x80] ++ List.replicate z 0 ++ (leBytes 16 (8 * bs.length)).reverse
/-- The big-endian number a list of bytes spells. -/
def beNat (bs : List Byte) : Nat := leNat bs.reverse
/-- The `k` bytes of `n`, highest first. -/
def beBytes (k n : Nat) : List Byte := (leBytes k n).reverse
/-- The first `k` groups of 8 bytes as words. -/
def shaWords : Nat → List Byte → List Nat
  | 0, _ => []
  | k + 1, bs => beNat (bs.take 8) :: shaWords k (bs.drop 8)
/-- The message schedule: `recent` holds the last 16 words, newest first. -/
def shaExpand : Nat → List Nat → List Nat
  | 0, _ => []
  | k + 1, recent =>
    let at_ := fun i => (recent.drop i).headD 0
    let a := at_ 14
    let b := at_ 1
    let s0 := rotr64 a 1 ^^^ rotr64 a 8 ^^^ (a >>> 7)
    let s1 := rotr64 b 19 ^^^ rotr64 b 61 ^^^ (b >>> 6)
    let w := w64 (at_ 15 + s0 + at_ 6 + s1)
    w :: shaExpand k (w :: recent.take 15)
/-- The eight working variables. -/
structure ShaVars where
  a : Nat
  b : Nat
  c : Nat
  d : Nat
  e : Nat
  f : Nat
  g : Nat
  h : Nat
  deriving DecidableEq, Repr
def shaRound (v : ShaVars) (kw : Nat × Nat) : ShaVars :=
  let s1 := rotr64 v.e 14 ^^^ rotr64 v.e 18 ^^^ rotr64 v.e 41
  let ch := (v.e &&& v.f) ^^^ ((2 ^ 64 - 1 - v.e) &&& v.g)
  let t1 := w64 (v.h + s1 + ch + kw.1 + kw.2)
  let s0 := rotr64 v.a 28 ^^^ rotr64 v.a 34 ^^^ rotr64 v.a 39
  let maj := (v.a &&& v.b) ^^^ (v.a &&& v.c) ^^^ (v.b &&& v.c)
  ⟨w64 (t1 + s0 + maj), v.a, v.b, v.c, w64 (v.d + t1), v.e, v.f, v.g⟩
def ShaVars.ofList (l : List Nat) : ShaVars :=
  let at_ := fun i => (l.drop i).headD 0
  ⟨at_ 0, at_ 1, at_ 2, at_ 3, at_ 4, at_ 5, at_ 6, at_ 7⟩
def ShaVars.toList (v : ShaVars) : List Nat := [v.a, v.b, v.c, v.d, v.e, v.f, v.g, v.h]
def shaBlock (st : List Nat) (block : List Byte) : List Nat :=
  let ws := shaWords 16 block
  let all := ws ++ shaExpand 64 ws.reverse
  let v := (shaK.zip all).foldl shaRound (ShaVars.ofList st)
  (st.zip v.toList).map fun p => w64 (p.1 + p.2)
def shaBlocks : Nat → List Nat → List Byte → List Nat
  | 0, st, _ => st
  | k + 1, st, bs => shaBlocks k (shaBlock st (bs.take 128)) (bs.drop 128)
/-- SHA-512: the 64 bytes of the digest. -/
def sha512 (bs : List Byte) : List Byte :=
  let m := shaPad bs
  (shaBlocks (m.length / 128) shaH m).flatMap (beBytes 8)

/-! ### ECDSA over P-521 -/

def ecP : Nat := 2 ^ 521 - 1

def ecB : Nat :=
  0x51953EB9618E1C9A1F929A21A0B68540EEA2DA725B99B315F3B8B489918EF109E156193951EC7E937B1652C0BD3BB1BF073573DF883D2C34F1EF451FD46B503F00
def ecN : Nat :=
  0x1FFFFFFFFFFFFFFFFFFFFFFFFFFFFFFFFFFFFFFFFFFFFFFFFFFFFFFFFFFFFFFFFFA51868783BF2F966B7FCC0148F709A5D03BB5C9B8899C47AEBB6FB71E91386409
def ecGx : Nat :=
  0xC6858E06B70404E9CD9E3ECB662395B4429C648139053FB521F828AF606B4D3DBAA14B5E77EFE75928FE1DC127A2FFA8DE3348B3C1856A429BF97E7E31C2E5BD66
def ecGy : Nat :=
  0x11839296A789A3BC0045C8A5FB42C7D1BD998F54449579B446817AFBD17273E662C97EE72995EF42640C550B9013FAD0761353C7086A272C24088BE94769FD16650

/-- `b^e mod m`, on the `k` low bits of `e`. -/
def powMod (m : Nat) : Nat → Nat → Nat → Nat
  | 0, _, _ => 1 % m
  | k + 1, b, e =>
    let r := powMod m k (b * b % m) (e / 2)
    if e % 2 = 1 then r * b % m else r
/-- The inverse modulo a prime below 2^521. -/
def invMod (m a : Nat) : Nat := powMod m 521 (a % m) (m - 2)
def subP (a b : Nat) : Nat := (a + ecP - b % ecP) % ecP
/-- A point in Jacobian coordinates: the point at infinity has `z = 0`. -/
structure EcPoint where
  x : Nat
  y : Nat
  z : Nat
  deriving DecidableEq, Repr
def ecDouble (p : EcPoint) : EcPoint :=
  if p.z = 0 ∨ p.y = 0 then ⟨1, 1, 0⟩
  else
    let d := p.z * p.z % ecP
    let g := p.y * p.y % ecP
    let b := p.x * g % ecP
    let a := 3 * (subP p.x d * ((p.x + d) % ecP)) % ecP
    let x := subP (a * a) (8 * b)
    let z := 2 * p.y * p.z % ecP
    ⟨x, subP (a * subP (4 * b) x) (8 * (g * g)), z⟩
def ecAdd (p q : EcPoint) : EcPoint :=
  if p.z = 0 then q
  else if q.z = 0 then p
  else
    let z1 := p.z * p.z % ecP
    let z2 := q.z * q.z % ecP
    let u1 := p.x * z2 % ecP
    let u2 := q.x * z1 % ecP
    let s1 := p.y * z2 % ecP * q.z % ecP
    let s2 := q.y * z1 % ecP * p.z % ecP
    if u1 = u2 then (if s1 = s2 then ecDouble p else ⟨1, 1, 0⟩)
    else
      let h := subP u2 u1
      let r := subP s2 s1
      let hh := h * h % ecP
      let hhh := h * hh % ecP
      let v := u1 * hh % ecP
      let x := subP (subP (r * r) hhh) (2 * v)
      ⟨x, subP (r * subP v x) (s1 * hhh), p.z * q.z % ecP * h % ecP⟩
/-- `e · p`, on the `k` low bits of `e`. -/
def ecMul : Nat → Nat → EcPoint → EcPoint
  | 0, _, _ => ⟨1, 1, 0⟩
  | k + 1, e, p =>
    let r := ecMul k (e / 2) (ecDouble p)
    if e % 2 = 1 then ecAdd r p else r
def onCurve (x y : Nat) : Bool := x < ecP && y < ecP && (y * y) % ecP == (x * x * x + (ecP - 3) * x + ecB) % ecP
/-- ECDSA verification: a public key, the digest and the signature `r`, `s`. -/
def ecdsaValid (qx qy : Nat) (digest : List Byte) (r s : Nat) : Bool :=
  if !onCurve qx qy || r = 0 || ecN ≤ r || s = 0 || ecN ≤ s then false
  else
    let w := invMod ecN s
    let p := ecAdd (ecMul 521 (beNat digest * w % ecN) ⟨ecGx, ecGy, 1⟩) (ecMul 521 (r * w % ecN) ⟨qx, qy, 1⟩)
    if p.z = 0 then false
    else
      let zi := invMod ecP p.z
      p.x * (zi * zi % ecP) % ecP % ecN == r
/-- A 132-byte signature, `r` then `s`, 66 bytes each, highest byte first (PRESUMED, log 23). -/
def sigValid (key : Nat × Nat) (message sig : List Byte) : Bool :=
  sig.length == 132 && ecdsaValid key.1 key.2 (sha512 message) (beNat (sig.take 66)) (beNat (sig.drop 66))
/-- A 133-byte uncompressed point (R434). -/
def keyOfBytes (bs : List Byte) : Nat × Nat := (beNat ((bs.drop 1).take 66), beNat (bs.drop 67))

end Sys2Proof.Machine
end

