-- ==== Sys2Proof/Machine/Images.lean ====
section
/-! DEFINITION. The structure checks of table images (R38): every kind but the schedule image. -/

namespace Sys2Proof.Machine

/-- A reader of an image: bytes from an offset, as a little-endian number. -/
abbrev Rd := Nat → Nat → Nat

/-- Reserved bytes are zero (R8). -/
def zeros (rd : Rd) (fs : List (Nat × Nat)) : Bool := fs.all fun f => rd f.1 f.2 == 0
def between (lo hi v : Nat) : Bool := decide (lo ≤ v) && decide (v ≤ hi)
def allBelow (n : Nat) (p : Nat → Bool) : Bool := (List.range n).all p
/-- A list that strictly increases. -/
def rising : List Nat → Bool
  | [] => true
  | [_] => true
  | a :: b :: r => decide (a < b) && rising (b :: r)
/-- A reader moved to an offset. -/
def Rd.at (rd : Rd) (base : Nat) : Rd := fun o n => rd (base + o) n
def finiteAt (rd : Rd) (os : List Nat) : Bool := os.all fun o => f32IsFinite (rd o 4)
/-- A 16-bit two's complement number. -/
def sint16 (w : Nat) : Int := if w < 2 ^ 15 then w else (w : Int) - 2 ^ 16
def sint8 (w : Nat) : Int := if w < 2 ^ 7 then w else (w : Int) - 2 ^ 8
def intBetween (lo hi v : Int) : Bool := decide (lo ≤ v) && decide (v ≤ hi)

/-! ### Format tables (R77–R79) -/

def codebookOk (rd : Rd) : Bool :=
  let f := rd 0 1
  let used := if f = 0x20 then 16 else if f = 0x21 then 8 else 4
  isCodebook f && zeros rd [(1, 63)] &&
    allBelow 16 fun i => if i < used then f32IsFinite (rd (0x40 + 4 * i) 4) else rd (0x40 + 4 * i) 4 == 0
def formatOk (rd : Rd) : Bool :=
  rd 0 4 == 0x58444D46 && rd 4 2 == 1 && decide (rd 6 2 ≤ 256) && zeros rd [(0x10, 48)] &&
    allBelow (rd 6 2) fun n => codebookOk (Rd.at rd (0x40 + 128 * n))

/-! ### Function and derivative tables (R138, R157) -/

def recordOk (rd : Rd) : Bool :=
  finiteAt rd [0, 4, 0x0C, 0x10, 0x14, 0x18] && (f32 (rd 0 4)).lt (f32 (rd 4 4)) && validTs (rd 8 4) &&
    zeros rd [(0x1C, 36)] &&
    allBelow 512 fun j => let o := 0x40 + 16 * j; finiteAt rd [o, o + 4, o + 8] && rd (o + 12) 4 == 0
def functionOk (magic : Nat) (rd : Rd) : Bool :=
  rd 0 4 == magic && rd 4 2 == 1 && between 1 64 (rd 6 2) && zeros rd [(0x10, 48)] &&
    allBelow (rd 6 2) fun f => recordOk (Rd.at rd (0x40 + 8256 * f))

/-! ### Rescale tables (R116, R117) -/

def rescaleOk (e : Nat) : Bool :=
  f32IsFinite (rsMul e) && f32IsFinite (rsOff e) && (rsFmt e == 0x01 || rsFmt e == 0x31 || isForward (rsFmt e)) &&
    decide (rsSat e < 3) && decide (rsMode e < 3) && bitsOf e 48 4 == 0 && bitsOf e 0 16 == 0 &&
    (if rsSat e = 0 then rsClamp e == 0
     else f32IsFinite (rsClamp e) && !f32IsZero (rsClamp e) && !bitOf (rsClamp e) 31)
def rescaleTableOk (rd : Rd) : Bool :=
  rd 0 4 == 0x58445352 && rd 4 2 == 1 && between 1 16384 (rd 6 2) && zeros rd [(0x10, 48)] &&
    allBelow (rd 6 2) fun c => rescaleOk (rd (0x40 + 16 * c) 16)

/-! ### Stream descriptor tables (R264–R269) -/

def areasOk (rd : Rd) : Bool :=
  let area (s : Nat) : Nat × Nat := (bitsOf (rd (0x40 + 4 * s) 4) 16 16, bitsOf (rd (0x40 + 4 * s) 4) 0 16)
  allBelow 16 fun i =>
    let a := area i
    a.2 == 0 || (decide (a.1 + a.2 ≤ 16384) && allBelow i fun j =>
      let b := area j
      b.2 == 0 || decide (a.1 + a.2 ≤ b.1) || decide (b.1 + b.2 ≤ a.1))
/-- The aligned AUX field of a descriptor of its kind. -/
def auxOk (d : Desc) : Bool :=
  match d.kind with
  | 3 | 5 => true
  | 4 => bitsOf d.aux 32 8 == 0
  | 6 => decide (d.aux < 2 ^ 32)
  | _ => d.aux == 0
def descOk (rd : Rd) (count : Nat) (i : Nat) : Bool :=
  let o := 0x80 + 128 * i
  let d := descFrom (rd o 128)
  let size := bitsOf (rd (0x40 + 4 * d.sluice) 4) 0 16
  (d.count.all fun c => between 1 16777216 c) && zeros (Rd.at rd o) [(0x24, 4), (0x4F, 1), (0x58, 40)] &&
    (d.elemFmt == 0x40 || knownFmt d.elemFmt) && decide (rd (o + 0x49) 1 < 16) && decide (d.tc < 4) && decide (d.prio < 8) &&
    decide (d.kind < 7) && between 1 5 d.pktDim && decide (d.wordDim < 5) && decide (d.wordDim < d.pktDim) &&
    decide (d.pktWords ≤ 256) && decide (size ≠ 0) && decide (2 * d.pktWords ≤ size) &&
    (if d.kind = 1 ∨ d.kind = 2 then d.base1 != 0 else d.base1 == 0) &&
    (if d.kind = 5 then d.store else !(d.store && decide (3 ≤ d.kind))) &&
    !(d.persist && (d.kind == 4 || d.kind == 6)) && auxOk d &&
    (d.scaleLink == 0xFF || (decide (d.scaleLink < count) &&
      let e := descFrom (rd (0x80 + 128 * d.scaleLink) 128)
      e.elemFmt == 0x40 && e.store == d.store && e.tc == d.tc))
def streamTableOk (rd : Rd) : Bool :=
  let n := rd 6 2
  let links := ((List.range n).map fun i => (descFrom (rd (0x80 + 128 * i) 128)).scaleLink).filter fun l => l != 0xFF
  rd 0 4 == 0x58445354 && rd 4 2 == 1 && between 1 48 n && zeros rd [(0x10, 48)] && areasOk rd &&
    (allBelow n fun i => descOk rd n i) && decide links.Nodup

/-! ### Routing capacity tables (R335–R339) -/

/-- A coordinate within the torus (R324). -/
def coordOk (dx dy dz c : Nat) : Bool :=
  decide (c < 2 ^ 15) && decide (bitsOf c 10 5 < dx) && decide (bitsOf c 5 5 < dy) && decide (bitsOf c 0 5 < dz)
/-- The U16 coordinates of a list. -/
def coordList (rd : Rd) (off n : Nat) : List Nat := (List.range n).map fun i => rd (off + 2 * i) 2
def setMap (rd : Rd) (o : Nat) : List Nat := coordList rd (rd (o + 8) 8) (rd o 2)
def setFailed (rd : Rd) (o : Nat) : List Nat := coordList rd (rd (o + 0x20) 8) (rd (o + 4) 2)
def routeSetOk (rd : Rd) (o : Nat) : Bool :=
  let ok := coordOk (rd 0x10 1) (rd 0x11 1) (rd 0x12 1)
  let map := setMap rd o
  let failed := setFailed rd o
  let ovr := (List.range (rd (o + 2) 2)).map fun i => rd (rd (o + 0x10) 8 + 4 * i) 4
  between 1 (rd 0x10 1 * rd 0x11 1 * rd 0x12 1) (rd o 2) && decide (rd (o + 2) 2 ≤ 32768) && decide (rd (o + 4) 2 ≤ 64) &&
    zeros rd [(o + 6, 2), (o + 0x28, 24)] && map.all ok && failed.all ok && decide map.Nodup &&
    (map.all fun c => !failed.contains c) &&
    (ovr.all fun v => bitsOf v 0 2 == 0 && ok (bitsOf v 17 15) && ok (bitsOf v 2 15) &&
      !failed.contains (bitsOf v 17 15) && !failed.contains (bitsOf v 2 15)) &&
    rising (ovr.map fun v => bitsOf v 17 15) &&
    allBelow (6 * rd 0x1A 2 * 19) fun i => bitsOf (rd (rd (o + 0x18) 8 + 2 * i) 2) 8 6 == 0
def collOk (rd : Rd) : Bool :=
  let k := rd 0 1
  between 1 3 k && (if k = 2 then decide (rd 1 1 < 3) else rd 1 1 == 0xFF) &&
    (if k = 1 then decide (rd 2 1 < 3) else rd 2 1 == 0) && decide (rd 3 1 < 2) && rd 7 1 == 0 &&
    (k != 2 || rd 0x20 2 == 1 || rd 0x20 2 == 0xFFFF) && zeros rd [(0x22, 30)]
def routingOk (rd : Rd) : Bool :=
  let sets := (List.range (rd 6 1 + 1)).map fun i => rd (rd 0x20 8 + 8 * i) 8
  let self := rd 0x18 2
  rd 0 4 == 0x58445254 && rd 4 2 == 1 && decide (1 ≤ rd 7 1) && between 1 32 (rd 0x10 1) && between 1 32 (rd 0x11 1) &&
    between 1 32 (rd 0x12 1) && zeros rd [(0x13, 1), (0x1C, 4), (0x30, 80)] &&
    coordOk (rd 0x10 1) (rd 0x11 1) (rd 0x12 1) self && between 1 1024 (rd 0x1A 2) && (sets.all fun o => routeSetOk rd o) &&
    (sets.any fun o => (setMap rd o).contains self || (setFailed rd o).contains self) &&
    allBelow (rd 7 1) fun i => collOk (Rd.at rd (rd 0x28 8 + 64 * i))

/-! ### Power state tables (R413) -/

def powerPointOk (rd : Rd) (vmax : Nat) (o : Nat) : Bool :=
  rd o 2 % 25 == 0 && between 800 2000 (rd o 2) && between 600 1000 (rd (o + 2) 2) && decide (rd (o + 2) 2 ≤ vmax) &&
    intBetween (-300) 300 (sint16 (rd (o + 4) 2)) && intBetween (-300) 300 (sint16 (rd (o + 6) 2)) &&
    decide (rd (o + 8) 1 < 8) && decide (rd (o + 9) 1 < 8) && zeros rd [(o + 10, 6)]
def powerTableOk (die : Nat) (rd : Rd) : Bool :=
  let n := rd 6 1
  let vmin (p : Nat) : Nat := rd (0x42 + 16 * p) 2
  let freq (p : Nat) : Nat := rd (0x40 + 16 * p) 2
  rd 0 4 == 0x58445057 && rd 4 2 == 1 && (if die < 4 then between 1 16 n else n == 1) && decide (rd 0x10 2 ≤ 1000) &&
    between 450 (vmin 0) (rd 0x20 2) && intBetween (-300) 300 (sint16 (rd 0x22 2)) &&
    intBetween (-300) 300 (sint16 (rd 0x24 2)) && decide (rd 0x26 1 < 8) && decide (rd 0x27 1 < 8) &&
    zeros rd [(7, 1), (0x12, 14), (0x28, 24)] && (allBelow n fun p => powerPointOk rd (rd 0x10 2) (0x40 + 16 * p)) &&
    (allBelow (n - 1) fun p => decide (freq p < freq (p + 1)) && decide (vmin p ≤ vmin (p + 1))) &&
    (decide (4 ≤ die) || freq (n - 1) == 2000)

/-! ### Fallback and variant selection tables (R191, R192) -/

/-- An FP32 word in [0, 1). -/
def betaOk (w : Nat) : Bool := f32IsFinite w && !(bitOf w 31 && !f32IsZero w) && (f32 w).lt (f32 0x3F800000)
def layerRecOk (rd : Rd) : Bool :=
  let opt := rd 0 1
  decide (opt < 4) && decide (rd 1 1 < 4) && decide (rd 2 1 < 16) && intBetween (-60) 60 (sint8 (rd 3 1)) &&
    decide (rd 4 1 ≤ 8) && decide (1 ≤ rd 5 1) && betaOk (rd 8 4) && betaOk (rd 0x0C 4) && (opt == 3 || rd 0x0C 4 == 0) &&
    (if opt = 3 then validTs (rd 0x10 4) else rd 0x10 4 == 0) && f32IsFinite (rd 0x14 4) &&
    !(bitOf (rd 0x14 4) 31 && !f32IsZero (rd 0x14 4)) && decide (rd 0x20 2 + rd 0x22 2 ≤ 65536) && zeros rd [(0x24, 28)]
def layerTableOk (rd : Rd) : Bool :=
  rd 0 4 == 0x58444C52 && rd 4 2 == 1 && between 1 4096 (rd 6 2) && zeros rd [(0x14, 44)] &&
    allBelow (rd 6 2) fun l => layerRecOk (Rd.at rd (0x40 + 64 * l))

/-! ### Buckets and spill plans (R60, R314, R315) -/

def planItemOk (rd : Rd) (len : Nat) (o : Nat) : Bool :=
  let form := rd (o + 0x13) 1
  rd o 8 % 64 == 0 && rd (o + 8) 8 % 64 == 0 && decide (rd (o + 0x12) 1 < 3) && decide (form < 5) && decide (rd (o + 0x15) 1 < 4) &&
    decide (1 ≤ rd (o + 0x16) 1) && zeros rd [(o + 0x17, 1), (o + 0x1B, 1), (o + 0x1E, 2)] && decide (rd o 8 + rd (o + 8) 8 ≤ len) &&
    knownFmt (rd (o + 0x14) 1) &&
    (decide (form < 2) || (!bitOf (rd (o + 0x15) 1) 0 && (rd (o + 0x14) 1 == 0x01 || rd (o + 0x14) 1 == 0x31)))
def spillPlanOk (rd : Rd) (p : Nat) : Bool :=
  let n := rd (p + 4) 4
  let item (i : Nat) : Nat := p + 0x40 + 32 * i
  rd p 4 == 0x58445350 && between 1 65535 n && decide (rd (p + 0x10) 8 ≤ rd (p + 8) 8) && decide (rd (p + 0x28) 8 ≤ 2 ^ 36) &&
    zeros rd [(p + 0x30, 16)] && (allBelow n fun i => planItemOk rd (rd (p + 0x28) 8) (item i)) &&
    allBelow n fun i => allBelow i fun j =>
      decide (rd (item i) 8 + rd (item i + 8) 8 ≤ rd (item j) 8) || decide (rd (item j) 8 + rd (item j + 8) 8 ≤ rd (item i) 8)
def bucketsOk (rd : Rd) (off : Nat) : Bool :=
  let h := rd off 8
  let e (b : Nat) : Nat := rd (off + 8 + 8 * b) 8
  let last := bitsOf h 56 4
  bitsOf h 60 4 == 0 && bitsOf h 0 28 == 0 && between 1 64 (bitsOf h 49 7) &&
    (allBelow (last + 1) fun b => bitsOf (e b) 0 12 == 0 && rd (off + 256 + 8 * bitsOf (e b) 12 8) 8 != 0 &&
      spillPlanOk rd (rd (off + 256 + 8 * bitsOf (e b) 12 8) 8)) &&
    rising ((List.range (last + 1)).map fun b => bitsOf (e b) 40 24)

/-! ### Rollout records (R238) -/

def rolloutRecOk (rd : Rd) : Bool :=
  let buckets := (List.range 8).map fun i => rd (0x30 + 2 * i) 2
  let used := buckets.takeWhile fun b => b != 0
  let blk := 32 * 2 ^ rd 0x18 1
  rd 0 4 == 0x5844524F && between 1 1024 (rd 4 2) && decide (rd 6 1 < 2) && decide (rd 7 1 < 4) && rd 8 4 % 1024 == 0 &&
    between 1024 524288 (rd 8 4) && between 1 (rd 8 4) (rd 0x0C 4) && rd 0x10 2 % 32 == 0 && decide (rd 0x10 2 ≤ 4096) &&
    between 1 512 (rd 0x12 2) && between 1 64 (rd 0x14 1) && (rd 0x15 1 == 0x10 || rd 0x15 1 == 0x13) &&
    rd 0x16 2 % 32 == 0 && between 32 256 (rd 0x16 2) && decide (rd 0x18 1 < 3) && decide (blk ≤ rd 0x16 2) &&
    zeros rd [(0x19, 7), (0x78, 8)] && rising used && ((buckets.drop used.length).all fun b => b == 0) &&
    decide (1024 * used.getLastD 0 = rd 8 4) && rd 0x40 8 % 65536 == 0 && rd 0x48 8 % 65536 == 0 &&
    between 2 1048576 (rd 0x50 4) && rd 0x60 8 % 65536 == 0 && rd 0x68 8 % 65536 == 0 && rd 0x70 8 % 65536 == 0

end Sys2Proof.Machine
end

