-- ==== Sys2Proof/Machine/Ports.lean ====
section
/-! DEFINITION. What a change of the ports that are UP does (R352–R355, R360, R387): queue pairs move or fail, drain
targets fail with them, and the PTP client moves. -/

namespace Sys2Proof.Machine

/-! ### The PTP client's choice (R359, R360) -/

def modPtp (s : State) (f : PtpState → PtpState) : State := (s.withNet { s.net with ptp := f s.net.ptp })
/-- A port on which the client listens: UP, of the network that `PTP.NET` names. -/
def ptpListens (s : State) (port : Nat) : Bool := s.portUp port && port / 4 == s.reg Obj.ptpNet
def ptpMaster (s : State) (id : Nat) : Option PtpMaster := s.net.ptp.masters.find? fun m => m.id == id
/-- The server chosen, or none. -/
def ptpChosen (s : State) : Option PtpMaster := if s.reg Obj.ptpPort = 0xFF then none else ptpMaster s (s.reg Obj.ptpServer)
/-- One rank before another, by the first difference; then the steps removed. -/
def rankLt : List Nat → List Nat → Bool
  | a :: as, b :: bs => decide (a < b) || (a == b && rankLt as bs)
  | _, _ => false
def betterMaster (a b : PtpMaster) : PtpMaster :=
  if rankLt (b.rank ++ [b.steps, b.id]) (a.rank ++ [a.steps, a.id]) then b else a
/-- The choice of the best master clock algorithm over the servers heard; a change is reported (R360). -/
def ptpChoose (s : State) : State :=
  let ms := s.net.ptp.masters.filter fun m => !m.ports.isEmpty
  match ms with
  | [] => (s.setReg Obj.ptpServer 0).setReg Obj.ptpPort 0xFF
  | m :: rest =>
    let best := rest.foldl betterMaster m
    let old := s.reg Obj.ptpPort
    let stays := s.reg Obj.ptpServer == best.id && best.ports.contains old && old != 0xFF
    if stays then s
    else
      let port := (best.ports.find? fun p => decide (old < p) && old != 0xFF).getD (best.ports.foldl min 7)
      let changed := old != 0xFF
      let s := (s.setReg Obj.ptpServer best.id).setReg Obj.ptpPort port
      let s := modPtp s fun p => { p with waiting := none, last := none, delayReq := none }
      if changed then raise s 0x7C01 .note uDevice else s
/-- The client forgets a port that left UP. -/
def ptpPortGone (s : State) (port : Nat) : State :=
  ptpChoose (modPtp s fun p => { p with masters := (p.masters.map fun m => { m with ports := m.ports.filter (· != port) }).filter fun m => !m.ports.isEmpty })

/-! ### Drain targets (R385–R387) -/

/-- The state of a drain target, 0 T3, 1 partner, 2 store: 0 idle, 1 running, 2 done, 3 failed. -/
def State.drainOf (s : State) (t : Nat) : Nat := bitsOf (s.reg Obj.ckptDrainState) (2 * t) 2
def setDrain (s : State) (t v : Nat) : State :=
  s.setReg Obj.ckptDrainState (s.reg Obj.ckptDrainState - s.drainOf t * 4 ^ t + v * 4 ^ t)
/-- The drain is finished when no target runs. -/
def drainEnd (s : State) : State :=
  if s.reg Obj.ckptState = 2 ∧ [0, 1, 2].all (fun t => s.drainOf t != 1) then s.setReg Obj.ckptState 0 else s
/-- A running target fails (R387). -/
def drainFail (s : State) (t : Nat) : State :=
  if s.drainOf t ≠ 1 then s else drainEnd (raise (setDrain s t 3) 0x8A04 .note uDevice t)
/-- Queue pairs of the shared store: four numbers; 0xFFFF none (R385). -/
def storeQps (s : State) : List Nat :=
  ((List.range 4).map fun j => bitsOf (s.reg Obj.ckptStoreQp) (16 * j) 16).filter fun q => decide (q < 2048) && s.qpValid q
/-- The targets and the serve that use a queue pair end with it (R387, R394). -/
def usersFail (s : State) (i : Nat) : State :=
  let s := if s.reg Obj.ckptPartnerQp = i then drainFail s 1 else s
  let s := if (storeQps s).contains i then drainFail s 2 else s
  if s.reg Obj.ckptServeQp = i then (s.withCkpt { s.ckpt with serving := none }) else s
/-- A queue pair enters the error state, with what rests on it. -/
def qpFail (s : State) (i : Nat) : State := if s.qpState i ≠ 1 then s else usersFail (qpError s i) i

/-! ### Ports (R352, R354, R355) -/

/-- The port that ACTIVE gives a queue pair. -/
def portFor (s : State) (i : Nat) : Nat :=
  let a := s.activePorts (s.qpNet i)
  if a.isEmpty then 0xFF else a.getD (i % a.length) 0xFF
/-- A queue pair moves: at once and sending again where its port is not UP, else once it has no request outstanding. -/
def qpMove (s : State) (i : Nat) : State :=
  let p := s.qpPort i
  if s.qpState i ≠ 1 then s
  else if !(decide (p < 8) && s.portUp p) then qpResend (s.setQpFld i 0x29 1 (portFor s i)) i
  else if (s.qp i).out.isEmpty then s.setQpFld i 0x29 1 (portFor s i) else s
def qpsMove (s : State) (net : Nat) : State := forAll (s.qpsOf net) (fun i s => qpMove s i) s
/-- A port in another state: its link state is forgotten, and frames that wait for it are dropped. -/
def ethState (s : State) (p code : Nat) : State := (s.modEth p fun _ => {}).setReg (Obj.ethPState p) code
/-- A port leaves its state for one in which it carries nothing. -/
def ethLeave (s : State) (p code : Nat) : State :=
  if !s.portUp p then ethState s p code
  else
    let net := p / 4
    let s := ptpPortGone ((ethState s p code).bump (Obj.ethPLinkDowns p) 1) p
    if (s.activePorts net).isEmpty then forAll (s.qpsOf net) (fun i s => qpFail s i) (raise s 0x7B02 .degrade (uEth p))
    else qpsMove (raise s 0x7B01 .degrade (uEth p)) net
/-- A port enters UP. -/
def ethEnter (s : State) (p : Nat) : State :=
  qpsMove (raise (s.setReg (Obj.ethPState p) 2) 0x7B03 .note (uEth p)) (p / 4)

end Sys2Proof.Machine
end

