-- ==== Sys2Proof/Machine/Retire.lean ====
section
/-! DEFINITION. Step boundaries of the groups (R54), and the retirement of HBM pseudo-channels (R300, R301). -/

namespace Sys2Proof.Machine

/-! ### Boundaries and holds -/

/-- A group has no step running: it does not exist, or stands between the end of one step and the origin of the next. -/
def betweenSteps (p : Phase) : Bool := p == .boundary || p == .ringWait || p == .idle
/-- Every non-idle group of the device has reached a step boundary. -/
def State.allAtBoundary (s : State) : Bool := betweenSteps s.train.phase && betweenSteps s.roll.phase
/-- Whether a group (1 training, 2 rollout) is at a step boundary; a group that does not exist has nothing to wait for. A
rollout group that has filled its slots and waits for ring room is past its boundary's table and role changes (R241). -/
def State.groupAtBoundary (s : State) (group : Nat) : Bool :=
  match group with
  | 1 => betweenSteps s.train.phase
  | 2 => betweenSteps s.roll.phase && s.roll.phase != .ringWait
  | _ => true
def State.held (s : State) (h : Hold) : Bool := s.holds.contains h
def State.addHold (s : State) (h : Hold) : State := if s.held h then s else (s.withHolds (s.holds ++ [h]))
def State.dropHold (s : State) (h : Hold) : State := (s.withHolds (s.holds.filter (· != h)))
/-- No sequencer starts a new step: the device has stopped, something holds it, or a core that failed is still to be fenced (log 85). -/
def State.noNewStep (s : State) : Bool := s.stopped || !s.holds.isEmpty || !s.mgt.faults.isEmpty

/-! ### Retirement -/

/-- A write of `Obj.memRetire`, checked and applied. -/
def memRetireWrite (v : Nat) (s : State) : Ans :=
    if bitsOf v 10 6 ≠ 0 ∨ bitOf v 7 then Ans.refuse stReserved s
    else
      let die := bitsOf v 8 2
      let way := bitsOf v 0 7
      let no := retireRefused s die way
      let s := retireRequest s die way
      if no then Ans.refuse stState s else Ans.ok s
/-- MEM_RETIRE_WRITE (R300): [9:8] die, [6:0] way. -/
def execMemRetireWrite (q : Req) (v : BitVec 16) (s : State) : Host.Outcome State Fault Refusal :=
  .next (dictWrite s q Obj.memRetire (memRetireWrite v.toNat))

/-- RETIRE_REBUILD_START (R300, R301): every group stands at a step boundary and no checkpoint stop is in force. -/
def execRetireRebuildStart (s : State) : Host.Outcome State Fault Refusal :=
  if s.mem.retire.isNone || s.held .rebuild || s.reg Obj.ckptState = 1 || !s.allAtBoundary || s.stopped then .next s
  else .next ((stopRewind (s.addHold .rebuild)).setReg Obj.memRetireState 2)

/-- The index of a granule among those the retired ways hold below the fold limit (R295), or none. -/
def foldIndex (retired : List Nat) (g : Nat) : Option Nat :=
  if retired.contains (g % 128) && decide (g / 128 < foldLimit retired.length) then
    some (retired.idxOf (g % 128) * foldLimit retired.length + g / 128)
  else none
/-- Die offsets and bytes of what the copy of the rebuild puts into the pool: granule `u` at `256 u` (DESIGN CHOICE, log 26). -/
def poolImage (m : MemState) (die : Nat) (retired : List Nat) : List (Nat × Byte) :=
  m.cells.filterMap fun c =>
    if c.1 / 2 ^ 38 = die then (foldIndex retired (c.1 % 2 ^ 38 / 256)).map fun u => (256 * u + c.1 % 256, c.2) else none
/-- Poison of the copied granules, as words of the pool. -/
def poolPoison (m : MemState) (die : Nat) (retired : List Nat) : List Nat :=
  m.poison.filterMap fun w =>
    if 8 * w.1 / 2 ^ 38 = die then (foldIndex retired (8 * w.1 % 2 ^ 38 / 256)).map fun u => (256 * u + 8 * w.1 % 256) / 8 else none
/-- The memory after the rebuild stop of a die whose retired ways become `retired`: the pool holds the copied granules,
the granules of the new fold band are gone, the others stand at their addresses. `bad` lists 64-bit words of the copied
granules that the copy read as uncorrectable. -/
def rebuilt (m : MemState) (die pool : Nat) (retired bad : List Nat) : MemState :=
  let k := retired.length
  let lim := die * 2 ^ 38 + foldLimit k * 32768
  let m := bad.foldl setPoison m
  let img := poolImage m die retired
  let poi := poolPoison m die retired
  let top := pool + 256 * k * foldLimit k
  let keep (a : Nat) : Bool := (decide (a < pool) || decide (top ≤ a)) && (decide (a < lim) || decide ((die + 1) * 2 ^ 38 ≤ a))
  { m with
    cells := smSetMany memDefault (m.cells.filter fun c => keep c.1) (img.map fun c => (pool + c.1, c.2)),
    poison := smSetMany notPoisoned (m.poison.filter fun w => keep (8 * w.1)) (poi.map fun w => (pool / 8 + w, true)) }

/-- RETIRE_REBUILD_DONE (R301). -/
def execRetireRebuildDone (bad : List Nat) (s : State) : Host.Outcome State Fault Refusal :=
  match s.mem.retire with
  | none => .next s
  | some (die, way) =>
    if !s.held .rebuild then .next s
    else
      let obj := Obj.memRetiredC0 + die % 4
      let s := s.setReg obj (s.reg obj ||| 2 ^ way)
      let copied := bad.filter fun w => decide (8 * w / 2 ^ 38 = die) && (foldIndex (s.retired die) (8 * w % 2 ^ 38 / 256)).isSome
      let s := forAll copied (fun w s => noteUe s (8 * w)) s
      let s := (s.withMem { rebuilt s.mem die (s.reg Obj.memRebuildPool) (s.retired die) copied with retire := none })
      let s := s.mapCores fun c => { c with tlb := [] }
      .next (raise ((s.dropHold .rebuild).setReg Obj.memRetireState 0) 0x6A05 .degrade (uDie die))

/-! ### Micro-batches and layers (R54, R316) -/

/-- MICROBATCH_BOUNDARY (R316): the next micro-batch or segment of the plan begins, and the ledgers restart at zero. The boundary is no
layer boundary of its part: a recompute request waits for the next LAYER_BOUNDARY (R54; DESIGN CHOICE, log 76). -/
def execMicrobatchBoundary (cl : Fin 16) (s : State) : Host.Outcome State Fault Refusal :=
  let c := s.cluster cl
  if s.role cl != 1 || s.train.phase != .running || c.plan.length ≤ c.mb then .next s
  else .next (s.modCluster cl fun c => { clearStash c with mb := c.mb + 1, layer := 0 })

end Sys2Proof.Machine
end

