-- ==== Sys2Proof/Machine/Routing.lean ====
section
/-! DEFINITION. The routing capacity table in force (R335–R337, R339) and the routes it gives (R331–R333). -/

namespace Sys2Proof.Machine

/-! ### Ports and coordinates (R324, R332) -/

def dPort : Nat → RillPort := fun _ => {}
def RillState.port (r : RillState) (p : Nat) : RillPort := smGet dPort r.ports p
def RillState.setPort (r : RillState) (p : Nat) (x : RillPort) : RillState := { r with ports := smSet dPort r.ports p x }
/-- A coordinate's component in a dimension: x [14:10], y [9:5], z [4:0]. -/
def coordIn (dim c : Nat) : Nat := bitsOf c (10 - 5 * dim) 5
/-- A coordinate with a component replaced. -/
def setCoord (dim c v : Nat) : Nat := c - coordIn dim c * 2 ^ (10 - 5 * dim) + v * 2 ^ (10 - 5 * dim)

/-- A torus: its sizes, and this device's coordinate. -/
structure Torus where
  size : Nat → Nat
  self : Nat

/-- The torus of a table (R335). -/
def torusOf (t : TableRec) : Torus := { size := fun d => snapRd t (0x10 + d) 1, self := snapRd t 0x18 2 % 2 ^ 15 }
/-- The port that dimension order takes from `a` toward `b`, or none where they are one (R332): 2 × dimension, plus 1 for
the − port. -/
def hopPort (size : Nat → Nat) (a b : Nat) : Option Nat :=
  ((List.range 3).find? fun d => coordIn d a != coordIn d b).map fun d =>
    let D := max 1 (size d)
    let δ := (coordIn d b + D - coordIn d a % D) % D
    if δ ≤ D - δ then 2 * d else 2 * d + 1
/-- The neighbour of a coordinate on a port. -/
def neighbour (size : Nat → Nat) (a port : Nat) : Nat :=
  let d := port / 2
  let D := max 1 (size d)
  setCoord d a (if port % 2 = 0 then (coordIn d a + 1) % D else (coordIn d a + D - 1) % D)
/-- Whether leaving `a` by a port crosses the wrap link (R331). -/
def wraps (size : Nat → Nat) (a port : Nat) : Bool :=
  let d := port / 2
  if port % 2 = 0 then coordIn d a + 1 == size d else coordIn d a == 0

/-! ### Route sets (R336) -/

/-- The active routing table; its holder is the training group (R35). -/
def State.routing (s : State) : Option TableRec := s.table 7 0 1
/-- The image offset of a route set. -/
def setOffset (t : TableRec) (n : Nat) : Nat := snapRd t (snapRd t 0x20 8 + 8 * n) 8
/-- The image offset of the set in force. -/
def State.routeSet (s : State) (t : TableRec) : Nat := setOffset t (s.reg Obj.rillAltActive)
def membersOf (t : TableRec) (o : Nat) : List Nat :=
  (List.range (snapRd t o 2)).map fun i => snapRd t (snapRd t (o + 8) 8 + 2 * i) 2
/-- The waypoint that a set's override gives a destination. -/
def overrideOf (t : TableRec) (o dest : Nat) : Option Nat :=
  ((List.range (snapRd t (o + 2) 2)).find? fun i => bitsOf (snapRd t (snapRd t (o + 0x10) 8 + 4 * i) 4) 17 15 == dest).map
    fun i => bitsOf (snapRd t (snapRd t (o + 0x10) 8 + 4 * i) 4) 2 15
/-- The slot table entry of a port, beat and slot (R337). -/
def slotEntry (t : TableRec) (o port beat slot : Nat) : Nat :=
  let period := max 1 (snapRd t 0x1A 2)
  snapRd t (snapRd t (o + 0x18) 8 + ((port * period + beat % period) * 19 + slot) * 2) 2
/-- Whether a walk in dimension order from `a` to `b` leaves `self` by `port` before it arrives, on fuel. -/
def walkUses (size : Nat → Nat) (self port b : Nat) : Nat → Nat → Bool
  | 0, _ => false
  | k + 1, a =>
    match hopPort size a b with
    | none => false
    | some p => (a == self && p == port) || walkUses size self port b k (neighbour size a p)
/-- Whether a route between two other members leaves this device by a port. -/
def routeUses (t : TableRec) (o port a b : Nat) : Bool :=
  let T := torusOf t
  let fuel := T.size 0 + T.size 1 + T.size 2
  match overrideOf t o b with
  | some w => walkUses T.size T.self port w fuel a || walkUses T.size T.self port b fuel w
  | none => walkUses T.size T.self port b fuel a
/-- The active route set routes others' traffic through a port (R330). -/
def State.routedThrough (s : State) (port : Nat) : Bool :=
  match s.routing with
  | none => false
  | some t =>
    let o := s.routeSet t
    let ms := (membersOf t o).filter fun c => c != (torusOf t).self
    ms.any fun a => ms.any fun b => a != b && routeUses t o port a b

/-! ### Collective records (R339) -/

/-- The image offset of a collective record. -/
def collOffset (t : TableRec) (k : Nat) : Nat := snapRd t 0x28 8 + 64 * k
def collKind (t : TableRec) (k : Nat) : Nat := snapRd t (collOffset t k) 1
def collDim (t : TableRec) (k : Nat) : Nat := snapRd t (collOffset t k + 1) 1
def collRmode (t : TableRec) (k : Nat) : Nat := snapRd t (collOffset t k + 2) 1
def collTally (t : TableRec) (k : Nat) : Bool := snapRd t (collOffset t k + 3) 1 == 1
def collTensor (t : TableRec) (k : Nat) : Nat := snapRd t (collOffset t k + 4) 4 % 2 ^ 24
def collElems (t : TableRec) (k : Nat) : Nat := snapRd t (collOffset t k + 8) 8
def collCbuf (t : TableRec) (k : Nat) : Nat := snapRd t (collOffset t k + 0x10) 8
def collRbuf (t : TableRec) (k : Nat) : Nat := snapRd t (collOffset t k + 0x18) 8
def collPeer (t : TableRec) (k : Nat) : Nat := snapRd t (collOffset t k + 0x20) 2
/-- This device's rank in a set, or none for a spare. -/
def rankOf (t : TableRec) (o : Nat) : Option Nat :=
  let ms := membersOf t o
  let self := (torusOf t).self
  if ms.contains self then some (ms.idxOf self) else none

end Sys2Proof.Machine
end

