-- ==== Sys2Proof/Machine/Power.lean ====
section
/-! DEFINITION. Power: domains and their transitions (R403–R405), frequency and voltage (R409–R413), the supply throttle
(R398–R400), the power cap and the thermal limits (R415–R417). -/

namespace Sys2Proof.Machine

/-! ### Power state tables (R410, R413) -/

/-- The active power state table of a die, and a field of its measured bytes. -/
def State.pst (s : State) (die : Nat) : Option TableRec := s.table 8 die 0
def pstPoints (t : TableRec) : Nat := snapRd t 6 1
def pstFreq (t : TableRec) (p : Nat) : Nat := snapRd t (0x40 + 16 * p) 2
def pstVmin (t : TableRec) (p : Nat) : Nat := snapRd t (0x42 + 16 * p) 2
def pstVmax (t : TableRec) : Nat := snapRd t 0x10 2
def pstVret (t : TableRec) : Nat := snapRd t 0x20 2
/-- The first point whose FREQ is at least `f`. -/
def pstPoint (t : TableRec) (f : Nat) : Option Nat := (List.range (pstPoints t)).find? fun p => decide (f ≤ pstFreq t p)
/-- vreq(f) (R410). -/
def vreq (t : TableRec) (f : Nat) : Option Nat := (pstPoint t f).map (pstVmin t)
/-- Bias and assist of a point, and of retention, as 6 bytes (R412). -/
def pointBias (t : TableRec) (p : Nat) : Nat := snapRd t (0x44 + 16 * p) 6
def retBias (t : TableRec) : Nat := snapRd t 0x22 6

/-! ### Ceilings and actual values (R399, R400, R411, R412) -/

/-- The supply ceiling: `PWR.DIP_FREQ` while throttled, then the steps of the release. -/
def supplyCeil (s : State) : Nat :=
  if !s.power.throttle then 2000 else if s.reg Obj.pwrSupplyState = 2 then s.reg Obj.pwrDipFreq else s.power.ceil
/-- `PWR.DOM_CEIL`: the smallest ceiling in force on a domain. -/
def domCeil (s : State) (id : Nat) : Nat :=
  let c := min (s.reg (Obj.pwrThermCeil 4)) (s.reg (Obj.pwrThermCeil 5))
  min (min (s.reg Obj.pwrCapCeil) (supplyCeil s)) (if isDvfs id then min c (s.reg (Obj.pwrThermCeil (dieOfDomain id))) else c)
/-- The frequency a domain may run at, by its request and the ceilings. -/
def reqFreq (s : State) (id : Nat) : Nat := s.reg (ofUnit Obj.pwrDomFreqReq (requester id))
def reqVolt (s : State) (id : Nat) : Nat := s.reg (ofUnit Obj.pwrDomVoltReq (requester id))
def freqGoal (s : State) (id : Nat) : Nat := min (reqFreq s id) (domCeil s (requester id)) / 25 * 25
/-- Bias and assist of the point that the requested frequency selects, once the voltage holds it (R412). -/
def refreshBias (s : State) (id : Nat) : State :=
  match (s.pst (dieOfDomain id)).bind fun t => (pstPoint t (reqFreq s id)).map fun p => (t, p) with
  | some (t, p) => if pstVmin t p ≤ s.reg (ofUnit Obj.pwrDomVolt id) then setBias s id (pointBias t p) else s
  | none => s
/-- The actual frequency of a domain: lowered at once, raised only where the actual voltage suffices (R411). -/
def refreshFreq (s : State) (id : Nat) : State :=
  if !s.domOn id then s
  else
    let f := freqGoal s id
    let enough := (((s.pst (dieOfDomain id)).bind fun t => vreq t f).map fun v => decide (v ≤ s.reg (ofUnit Obj.pwrDomVolt id))).getD false
    let s := refreshBias s id
    if f ≤ s.reg (ofUnit Obj.pwrDomFreq id) ∨ enough then s.setReg (ofUnit Obj.pwrDomFreq id) f else s
/-- A DVFS domain and what follows it, after a request. -/
def refreshFollowers (s : State) (id : Nat) : State := forAll (followers id) (fun i s => refreshFreq s i) s
/-- The DVFS domains. -/
def dvfsDomains : List Nat := (List.range 0x110)
/-- The actual frequencies after a ceiling has moved. -/
def refreshAll (s : State) : State := forAll ((List.range 0x120).filter s.domOn) (fun id s => refreshFreq s id) s

/-! ### Refusals of a domain request (R405) -/

/-- A range of physical addresses that lies, in part, on an HBM stack: 128 granules touch every way of a die. -/
def onStack (s : State) (stack a n : Nat) : Bool :=
  (List.range 4).any fun d =>
    let lo := max a (d * 2 ^ 38)
    let hi := min (a + n) ((d + 1) * 2 ^ 38)
    decide (lo < hi) && (List.range (min (ceilDiv (hi - lo) 256) 128)).any fun i =>
      ((s.t0Cell (lo + 256 * i)).map fun p => 4 * p.1 + p.2.1 / 32) == some stack
/-- A range of physical addresses that lies, in part, in a half of T1 or in the range of a CXL port. -/
def onRange (lo len a n : Nat) : Bool := decide (n ≠ 0) && decide (a < lo + len) && decide (lo < a + n)
/-- STRUCT: what a memory domain holds that the device needs. -/
def holdsStruct (s : State) (id : Nat) : Bool :=
  let pools (t : Nat) : List (Nat × Nat) := allClusters.map fun cl =>
    match t with
    | 0 => (s.reg (Obj.siphClT0Pool cl), s.reg (Obj.siphClT0Len cl))
    | 1 => (s.reg (Obj.siphClT1Pool cl), s.reg (Obj.siphClT1Len cl))
    | _ => (s.reg (Obj.siphClT2Pool cl), s.reg (Obj.siphClT2Len cl))
  if 0x120 ≤ id ∧ id < 0x130 then
    ([(s.reg Obj.memTblBase, s.reg Obj.memTblLen), (s.reg Obj.xlatRoot, if s.reg Obj.xlatRoot = 0 then 0 else 2 ^ 21),
      (s.reg Obj.xlatFqBase, 64 * s.reg Obj.xlatFqSize)] ++ pools 0).any fun r => onStack s (id - 0x120) r.1 r.2
  else if id = 0x140 ∨ id = 0x141 then
    let lo := 0x010000000000 + (id - 0x140) * 0x008000000000
    ([(s.reg Obj.memRebuildPool, if s.reg Obj.memRebuildPool = 0 then 0 else 2 ^ 34), (s.reg Obj.ckptT1Base, s.reg Obj.ckptT1Len)] ++
      pools 1).any fun r => onRange lo 0x008000000000 r.1 r.2
  else if id = 0x142 ∨ id = 0x143 then
    (pools 2).any fun r => onRange (0x020000000000 + (id - 0x142) * 2 ^ 40) (2 ^ 40) r.1 r.2
  else false
/-- STOP: a checkpoint stop, drain or restore, or a rebuild stop, keeps the memories and network B on. -/
def stopHolds (s : State) (id : Nat) : Bool :=
  (decide (0x120 ≤ id ∧ id < 0x130) || decide (0x140 ≤ id ∧ id < 0x144) || decide (0x13C ≤ id ∧ id < 0x140)) &&
    (s.reg Obj.ckptState != 0 || s.reg Obj.ckptRestoreState == 1 || s.held .rebuild)
/-- FORWARD: a Rill port that forwarded in the last 100 beats, or through which the active route set routes (R330). -/
def portForwards (s : State) (p : Nat) : Bool :=
  ((s.rill.port p).lastFwd.map fun b => decide (s.beat < b + 100)).getD false || s.routedThrough p
/-- LAST_PORT: an UP port of a network with no other port UP (R370). -/
def lastPort (s : State) (p : Nat) : Bool := s.portUp p && (s.activePorts (p / 4)).length == 1

/-- Refuser ids that hold against entering ON. -/
def refusesOn (s : State) (id : Nat) : List Nat :=
  (if !s.domPresent id then [rfRange] else []) ++
  (match parentOf id with
   | some p => if s.domOn p then [] else [rfParent]
   | none => []) ++
  (if id < 0x100 && s.coreFenced id then [rfFenced] else []) ++ (if s.power.throttle then [rfSupply] else [])
/-- Refuser ids that hold against leaving ON. -/
def refusesOff (s : State) (id : Nat) : List Nat :=
  (if (childrenOf id).any fun c => decide (2 ≤ s.domState c) then [rfChild] else []) ++
  (if isDvfs id && s.role (clusterOfDomain id) != 0 && !(decide (id < 0x100) && s.coreFenced id) then [rfRole] else []) ++
  (if 0x130 ≤ id && id < 0x136 && portForwards s (id - 0x130) then [rfForward] else []) ++
  (if 0x138 ≤ id && id < 0x140 && lastPort s (id - 0x138) then [rfLastPort] else []) ++
  (if holdsStruct s id then [rfStruct] else []) ++ (if stopHolds s id then [rfStop] else [])
/-- The lowest refuser id of a request for state `v`, or none (R404). -/
def domRefusal (s : State) (id v : Nat) : Option Nat :=
  if !isDomain id || id == domAlwaysOn || decide (2 < v) || (v == 1 && !hasRetention id) then some rfRange
  else
    let st := s.domState id
    (if st = dsOn ∧ v ≠ dsOn then refusesOff s id
     else if st ≠ dsOn ∧ (v = dsOn ∨ (v = dsRetention ∧ st = dsOff)) then refusesOn s id
     else []).head?

/-! ### Contents and transitions (R403, R404, R412) -/

/-- The addresses that a memory domain's contents cover. -/
def domHolds (s : State) (id a : Nat) : Bool :=
  if 0x120 ≤ id ∧ id < 0x130 then ((s.t0Cell a).map fun p => 4 * p.1 + p.2.1 / 32) == some (id - 0x120)
  else if id = 0x140 then tierOf a == some 1 && decide (a < 0x018000000000)
  else if id = 0x141 then tierOf a == some 1 && decide (0x018000000000 ≤ a)
  else false
/-- Memory contents lost. -/
def loseMemory (s : State) (id : Nat) : State :=
  (s.withMem { s.mem with cells := s.mem.cells.filter fun c => !domHolds s id c.1,
                               poison := s.mem.poison.filter fun w => !domHolds s id (8 * w.1) })
/-- A Rill port's link forgotten: its state code, lanes and neighbour (R327, R403). -/
def linkGone (s : State) (p code : Nat) : State :=
  let s := (s.withRill { s.rill with ports := smErase s.rill.ports p })
  (((s.setReg (Obj.rillPState p) code).setReg (Obj.rillPLanes p) 0).setReg (Obj.rillPNbr p) 0xFFFF).setReg (Obj.rillPNbrOk p) 0
/-- What a domain loses on reaching OFF. -/
def loseContents (s : State) (id : Nat) : State :=
  if id < 0x100 then s.modCore id blankCore
  else if id < 0x110 then s
  else if id < 0x120 then s.modCluster (id - 0x110) fun c => { c with sram := [] }
  else if id < 0x130 then loseMemory s id
  else if id < 0x136 then linkGone s (id - 0x130) 0
  else if id < 0x140 then ethLeave s (id - 0x138) 0
  else loseMemory s id
/-- What a domain does on reaching ON: the ports enter TRAINING, a paced domain takes its voltage, settings and clock. -/
def enterOn (s : State) (id : Nat) : State :=
  if isPaced id then
    let s := s.setReg (ofUnit Obj.pwrDomVolt id) (reqVolt s id)
    refreshFreq s id
  else if 0x130 ≤ id ∧ id < 0x136 then s.setReg (Obj.rillPState (id - 0x130)) 1
  else if 0x138 ≤ id ∧ id < 0x140 then
    s.setReg (Obj.ethPState (id - 0x138)) (if s.reg (Obj.ethPEnable (id - 0x138)) = 0 then 4 else 1)
  else s
/-- The values of a paced domain that has left ON (R412). -/
def leftOn (s : State) (id v : Nat) : State :=
  if isPaced id then
    if v = dsRetention then
      let t := s.pst (dieOfDomain id)
      let s := (s.setReg (ofUnit Obj.pwrDomFreq id) 0).setReg (ofUnit Obj.pwrDomVolt id) ((t.map pstVret).getD 0)
      setBias s id ((t.map retBias).getD 0)
    else unpowered s id
  else s
/-- A domain in a state at once. -/
def domArrive (s : State) (id v : Nat) : State :=
  let s := s.setDom id v
  if v = dsOn then enterOn s id else if v = dsOff then leftOn (loseContents s id) id v else leftOn s id v

/-- No transition: two states no domain has. -/
def dTrans : Nat → Nat × Nat := fun _ => (9, 9)
/-- A request that has passed its checks: the transition begins (R404). -/
def domStart (s : State) (id v : Nat) : State :=
  let st := s.domState id
  let s := s.setReg (ofUnit Obj.pwrDomReq id) v
  if st = v then s
  else
    let p := s.power
    let s := (s.withPower { p with trans := smSet dTrans p.trans id (st, v) })
    s.setDom id (if st = dsOn ∨ v = dsOff then dsLeaving else dsEntering)
/-- A request checked at once: its refuser, and the state (R404, R405). -/
def domRequest (s : State) (id v : Nat) : Option Nat × State :=
  match domRefusal s id v with
  | some r => (some r, domRefuse s id r)
  | none => (none, domStart s id v)
/-- The transition of a domain: the state it left and the state it goes to. -/
def State.transition (s : State) (id : Nat) : Option (Nat × Nat) :=
  if s.domState id = dsEntering ∨ s.domState id = dsLeaving then
    some (smGet dTrans s.power.trans id)
  else none
/-- The request held during a transition is checked when it ends. -/
def checkHeld (s : State) (id : Nat) : State :=
  let p := s.power
  let held := smGet (fun _ => none) p.held id
  let s := (s.withPower { p with held := smErase p.held id, trans := smErase p.trans id })
  match held with
  | some v => (domRequest s id v).2
  | none => s

/-- A write of `Obj.pwrDomReq`, checked and applied. -/
def domainReqWrite (v : Nat) (s : State) : Ans :=
    let id := s.reg Obj.pwrDomSel
    if (s.transition id).isSome then
      let p := s.power
      Ans.ok (s.withPower { p with held := smSet (fun _ => none) p.held id (some v) })
    else match domRequest s id v with
      | (some r, s) => Ans.refuse (refuserStatus r) s
      | (none, s) => Ans.ok s
/-- The domains that the boot switches on, in its order: memory controllers, HBM PHYs, stacked SRAM, fabrics, cores that are not
fenced, and the ports (R438, R440). -/
def bootWants (s : State) : List Nat :=
  ([0x140, 0x141, 0x142, 0x143] ++ (List.range 16).map domHbm ++ allClusters.map domSram ++ allClusters.map domFabric ++
    ((List.range 256).filter fun n => !s.coreFenced n) ++ (List.range 8).map domEth ++ (List.range 6).map domRill).filter s.domPresent
/-- A domain the boot asks for next: OFF, with its parent ON. -/
def bootReady (s : State) (id : Nat) : Bool := s.domState id == dsOff && ((parentOf id).map s.domOn).getD true
/-- The boot goes on in stage 5 as domains reach ON: those that nothing refuses are requested. -/
def bootNext (s : State) : State :=
  if s.reg Obj.bootStage ≠ 5 then s
  else forAll (bootWants s) (fun id s => if bootReady s id && (domRefusal s id dsOn).isNone then domStart s id dsOn else s) s

/-- DOMAIN_REQ_WRITE (R404): the domain that `PWR.DOM_SEL` names. -/
def execDomainReqWrite (q : Req) (v : BitVec 8) (s : State) : Host.Outcome State Fault Refusal :=
  .next (dictWrite s q Obj.pwrDomReq (domainReqWrite v.toNat))

/-! ### Frequency and voltage (R409–R413) -/

/-- Whether requests of `f` and `v` satisfy R410. -/
def requestsOk (t : TableRec) (f v : Nat) : Bool :=
  ((vreq t f).map fun m => decide (m ≤ v) && decide (v ≤ pstVmax t)).getD false
/-- A DVFS domain under a power state table that has become active (R413): requests that no longer satisfy R410 fall. -/
def pstAdjust (s : State) (t : TableRec) (id : Nat) : State :=
  let f := s.reg (ofUnit Obj.pwrDomFreqReq id)
  let v := s.reg (ofUnit Obj.pwrDomVoltReq id)
  let s :=
    if requestsOk t f v then s
    else
      let fit := (List.range (pstPoints t)).filter fun p => decide (pstVmin t p ≤ v)
      let s := match fit.getLast? with
        | some p => s.setReg (ofUnit Obj.pwrDomFreqReq id) (min f (pstFreq t p))
        | none => (s.setReg (ofUnit Obj.pwrDomFreqReq id) (pstFreq t 0)).setReg (ofUnit Obj.pwrDomVoltReq id) (pstVmin t 0)
      raise s 0x2A12 .note (uDomain id)
  refreshFollowers s id
/-- The DVFS domains of a die; those in transition take a new table when the transition ends (R420). -/
def dvfsOfDie (die : Nat) : List Nat := dvfsDomains.filter fun id => dieOfDomain id == die
def pstActivated (s : State) (die : Nat) : State :=
  match s.pst die with
  | some t => forAll ((dvfsOfDie die).filter fun id => (s.transition id).isNone) (fun id s => pstAdjust s t id) s
  | none => s

/-- A table that became active during a domain's transition applies once it ends (R420). -/
def pstSettle (s : State) (id : Nat) : State :=
  if isDvfs id then
    match s.pst (dieOfDomain id) with
    | some t => pstAdjust s t id
    | none => s
  else s
/-- DOMAIN_TRANSITION_DONE (R403, R404): the domain reaches its new state, and a held request is checked. -/
def execDomainTransitionDone (id : BitVec 9) (s : State) : Host.Outcome State Fault Refusal :=
  match s.transition id.toNat with
  | none => .next s
  | some (_, v) =>
    .next (bootNext (checkHeld (pstSettle (domArrive s id.toNat v) id.toNat) id.toNat))
/-- DOMAIN_TRANSITION_ABORT (R404): a refusal condition holds while the domain is LEAVING from ON. -/
def execDomainTransitionAbort (id : BitVec 9) (s : State) : Host.Outcome State Fault Refusal :=
  match s.transition id.toNat, (refusesOff s id.toNat).head? with
  | some (2, v), some r =>
    if v = dsOn then .next s
    else
      let s := (s.setDom id.toNat dsOn).bump (ofUnit Obj.pwrDomAborted id.toNat) 1
      let s := raise (s.setReg (ofUnit Obj.pwrDomLastRefuser id.toNat) r) 0x2A11 .note (uDomain id.toNat)
      .next (checkHeld (pstSettle s id.toNat) id.toNat)
  | _, _ => .next s

/-- Why a frequency request is refused (R405, R409, R410, R414). -/
def freqRefusal (s : State) (id f : Nat) : Option Nat :=
  if !isDvfs id then some rfRange
  else match s.pst (dieOfDomain id) with
    | none => some rfRange
    | some t =>
      match vreq t f with
      | none => some rfRange
      | some m => if f % 25 ≠ 0 ∨ f < 800 then some rfRange
          else if s.reg (ofUnit Obj.pwrDomVoltReq id) < m then some rfOrder else none
/-- Why a voltage request is refused: below 600 mV or above VMAX no table allows it. -/
def voltRefusal (s : State) (id v : Nat) : Option Nat :=
  if !isDvfs id then some rfRange
  else match s.pst (dieOfDomain id) with
    | none => some rfRange
    | some t =>
      if pstVmax t < v then some rfRange
      else match vreq t (s.reg (ofUnit Obj.pwrDomFreqReq id)) with
        | none => some rfOrder
        | some m => if v < m then some rfOrder else none
/-- A write of `Obj.pwrDomFreqReq`, checked and applied. -/
def freqReqWrite (f : Nat) (s : State) : Ans :=
    let id := s.reg Obj.pwrDomSel
    match freqRefusal s id f with
    | some r => Ans.refuse (refuserStatus r) (domRefuse s id r)
    | none => Ans.ok (refreshFollowers (s.setReg (ofUnit Obj.pwrDomFreqReq id) f) id)
/-- FREQ_REQ_WRITE (R409–R411). -/
def execFreqReqWrite (q : Req) (f : BitVec 16) (s : State) : Host.Outcome State Fault Refusal :=
  .next (dictWrite s q Obj.pwrDomFreqReq (freqReqWrite f.toNat))
/-- A write of `Obj.pwrDomVoltReq`, checked and applied. -/
def voltReqWrite (v : Nat) (s : State) : Ans :=
    let id := s.reg Obj.pwrDomSel
    match voltRefusal s id v with
    | some r => Ans.refuse (refuserStatus r) (domRefuse s id r)
    | none => Ans.ok (s.setReg (ofUnit Obj.pwrDomVoltReq id) v)
/-- VOLT_REQ_WRITE (R409–R411). -/
def execVoltReqWrite (q : Req) (v : BitVec 16) (s : State) : Host.Outcome State Fault Refusal :=
  .next (dictWrite s q Obj.pwrDomVoltReq (voltReqWrite v.toNat))
/-- DVFS_VOLTAGE_REACHED (R411, R412): the voltage stands at its request; it falls only once the actual frequency is at or
below the requested one. -/
def execDvfsVoltageReached (id : BitVec 9) (s : State) : Host.Outcome State Fault Refusal :=
  let n := id.toNat
  let goal := reqVolt s n
  if !isPaced n || !s.domOn n then .next s
  else if goal < s.reg (ofUnit Obj.pwrDomVolt n) ∧ reqFreq s n < s.reg (ofUnit Obj.pwrDomFreq n) then .next s
  else .next (refreshFreq (s.setReg (ofUnit Obj.pwrDomVolt n) goal) n)

/-! ### The supply (R398–R400, R472) -/

/-- The input voltage in range for full service. -/
def inRange (mv : Nat) : Bool := decide (48000 ≤ mv) && decide (mv ≤ 58000)
def noteInput (s : State) (mv : Nat) : State := s.setReg Obj.pwrInputMv mv
/-- SUPPLY_OUT_OF_RANGE (R398). -/
def execSupplyOutOfRange (mv : BitVec 17) (s : State) : Host.Outcome State Fault Refusal :=
  let v := mv.toNat
  if inRange v ∨ v ≤ 46000 ∨ 60000 < v then .next s
  else
    let s := noteInput s v
    if s.reg Obj.pwrSupplyState = 0 then .next (raise (s.setReg Obj.pwrSupplyState 1) 0x2A03 .note uDevice) else .next s
/-- SUPPLY_BACK_IN_RANGE (R398). -/
def execSupplyBackInRange (mv : BitVec 17) (s : State) : Host.Outcome State Fault Refusal :=
  if !inRange mv.toNat then .next s
  else
    let s := noteInput s mv.toNat
    if s.reg Obj.pwrSupplyState = 1 then .next (s.setReg Obj.pwrSupplyState 0) else .next s
/-- SUPPLY_BELOW_46 (R399). -/
def execSupplyBelow46 (mv : BitVec 17) (s : State) : Host.Outcome State Fault Refusal :=
  if 46000 ≤ mv.toNat ∨ mv.toNat ≤ 42000 ∨ !s.running then .next s
  else
    let s := noteInput s mv.toNat
    let s := (s.withPower { s.power with throttle := true, holding := false, ceil := s.reg Obj.pwrDipFreq })
    let s := (s.setReg Obj.pwrSupplyState 2).bump Obj.pwrDipCount 1
    .next (raise (refreshAll s) 0x2A01 .note uDevice)
/-- SUPPLY_ABOVE_47 (R400): the hold starts. -/
def execSupplyAbove47 (mv : BitVec 17) (s : State) : Host.Outcome State Fault Refusal :=
  if mv.toNat ≤ 47000 ∨ !s.power.throttle ∨ s.reg Obj.pwrSupplyState ≠ 2 then .next s
  else .next ((noteInput s mv.toNat).withPower { s.power with holding := true })
/-- SUPPLY_FALL_TO_47V (R400): the hold is broken. -/
def execSupplyFallTo47v (mv : BitVec 17) (s : State) : Host.Outcome State Fault Refusal :=
  if 47000 < mv.toNat ∨ !s.power.holding then .next s
  else .next ((noteInput s mv.toNat).withPower { s.power with holding := false })
/-- The supply ceiling raised by one step of 100 MHz. -/
def ceilStep (s : State) : State := refreshAll (s.withPower { s.power with ceil := min 2000 (s.power.ceil + 100) })
/-- SUPPLY_HOLD_COMPLETE (R400): the release begins with its first step. -/
def execSupplyHoldComplete (s : State) : Host.Outcome State Fault Refusal :=
  if !s.power.holding then .next s
  else
    let s := (s.withPower { s.power with holding := false, ceil := s.reg Obj.pwrDipFreq })
    .next (ceilStep (s.setReg Obj.pwrSupplyState 3))
/-- SUPPLY_RELEASE_STEP (R400): a step of the ceiling, or, after the last one, the end of the throttle. -/
def execSupplyReleaseStep (s : State) : Host.Outcome State Fault Refusal :=
  if s.reg Obj.pwrSupplyState ≠ 3 then .next s
  else if s.power.ceil < 2000 then .next (ceilStep s)
  else
    let s := (s.withPower { s.power with throttle := false })
    let s := s.setReg Obj.pwrSupplyState (if s.reg Obj.pwrInputMv < 48000 then 1 else 0)
    .next (raise (refreshAll s) 0x2A02 .note uDevice)

/-! ### Power cap and temperature (R415–R417) -/

/-- The mean of the newest `n` samples, of those there are (DEDUCED, log 27). -/
def meanOf (xs : List Nat) (n : Nat) : Nat := sumOf (xs.take n) / max 1 (min n xs.length)
/-- One sample of a stepped ceiling: the run it is in (0 none, 1 falling, 2 rising) with the samples since its first
step, the condition, and the period; whether a step is taken now, and the run that goes on. -/
def stepRun (run : Nat × Nat) (cond period : Nat) : Bool × (Nat × Nat) :=
  if cond = 0 then (false, (0, 0))
  else if run.1 ≠ cond then (true, (cond, 0))
  else if run.2 + 1 = period then (true, (cond, 0))
  else (false, (cond, run.2 + 1))
/-- The cap ceiling after a sample. -/
def capStep (s : State) (fallNow riseNow peakNow : Bool) : State :=
  let c := s.reg Obj.pwrCapCeil
  let c1 := if fallNow then max 800 (c - 25) else if riseNow then min 2000 (c + 25) else c
  let c2 := if peakNow then max 800 (c1 - 400) else c1
  let s1 := s.setReg Obj.pwrCapCeil c2
  let s2 := if c = 2000 ∧ c2 < 2000 then raise s1 0x2A20 .note uDevice else s1
  let s3 := if peakNow then raise s2 0x2A22 .note uDevice else s2
  if c < 2000 ∧ c2 = 2000 then raise s3 0x2A21 .note uDevice else s3
/-- POWER_SAMPLE (R415): the input power and voltage are sampled every 10 beats. -/
def execPowerSample (w : BitVec 16) (mv : BitVec 17) (s : State) : Host.Outcome State Fault Refusal :=
  if !s.running then .next s
  else
    let xs := (w.toNat :: s.power.samples).take 1000
    let a10 := meanOf xs 1000
    let a1 := meanOf xs 100
    let cap := s.reg Obj.pwrCapW
    let cond := if cap < a10 then 1 else if a10 + 100 < cap then 2 else 0
    let r := stepRun s.power.capRun cond (if cond = 1 then 10 else 100)
    let peak := decide (4400 < a1)
    let now := peak && !s.power.capPeak
    let s := (noteInput s mv.toNat).setReg Obj.pwrInputW a10
    let s := (s.withPower { s.power with samples := xs, capRun := r.2, capPeak := peak })
    .next (refreshAll (capStep s (r.1 && cond == 1) (r.1 && cond == 2) now))

/-- The last sampled temperature of a die. -/
def tempOf (s : State) (d : Nat) : Int := let w := s.reg (Obj.pwrTemp d); if w < 2 ^ 31 then w else (w : Int) - 2 ^ 32
/-- One die's thermal ceiling after a sample of `t` m°C (R417). -/
def thermDie (s : State) (d : Nat) (t : Int) : State :=
  let lim : Int := 1000 * s.reg Obj.pwrThermThrottleC
  let cond := if lim ≤ t then 1 else if t ≤ lim - 3000 then 2 else 0
  let r := stepRun (smGet (fun _ => (0, 0)) s.power.thermRun d) cond (if cond = 1 then 10 else 100)
  let c := s.reg (Obj.pwrThermCeil d)
  let c1 := if r.1 && cond == 1 then max 800 (c - 25) else if r.1 && cond == 2 then min 2000 (c + 25) else c
  let hot := decide (105000 ≤ t)
  let was := decide (105000 ≤ tempOf s d)
  let s := s.setReg (Obj.pwrTemp d) ((t % 2 ^ 32).toNat)
  let s := s.setReg (Obj.pwrThermCeil d) (if hot then 800 else c1)
  let keep := if cond = 2 then s.power.hot.filter (· != d) else if hot && !s.power.hot.contains d then s.power.hot ++ [d] else s.power.hot
  let s := (s.withPower { s.power with thermRun := smSet (fun _ => (0, 0)) s.power.thermRun d r.2, hot := keep })
  let s := if c = 2000 ∧ (hot ∨ c1 < 2000) then raise s 0x2A30 .note (if d < 4 then uDie d else uEdge d) else s
  if hot && !was then raise s 0x2A31 .note (if d < 4 then uDie d else uEdge d) else s
/-- The thermal ceilings after a sample of every die. -/
def thermAll (s : State) (ts : List Int) : State := refreshAll (forAll ts.zipIdx (fun p s => thermDie s p.2 p.1) s)

end Sys2Proof.Machine
end

