-- ==== Sys2Proof/Machine/Vector.lean ====
section
/-! DEFINITION. Vector and function entries (R139–R142): the nine operations of class 0x05. -/

namespace Sys2Proof.Machine

def vOp (b : Nat) : Nat := fld b 0x00 1
def vRows (b : Nat) : Nat := fld b 0x04 4
def vCols (b : Nat) : Nat := fld b 0x08 4
def vA (b : Nat) : Nat := fld b 0x0C 1
def vB (b : Nat) : Nat := fld b 0x0D 1
/-- ROWMAX and ROWSUM give one output per row. -/
def vReduces (v : Nat) : Bool := v == 0x04 || v == 0x05
def vTwo (v : Nat) : Bool := v == 0x02 || v == 0x03 || v == 0x08 || v == 0x09
/-- Elements of the second input: one per element, or one per row (R141). -/
def vBLen (b : Nat) : Nat := if vOp b = 0x08 ∨ vOp b = 0x09 then vRows b else vRows b * vCols b
/-- The part of the logical tensor the first input stands for: that of the output, whole rows for the row operations. -/
def vPartA (b : Nat) : Part :=
  if vReduces (vOp b) then ⟨vRows b, vCols b, fld b 0x14 4, vCols b, 0⟩
  else ⟨vRows b, vCols b, fld b 0x14 4, fld b 0x18 4, fld b 0x1C 4⟩
def vPartB (b : Nat) : Part := if vOp b = 0x08 ∨ vOp b = 0x09 then ⟨vRows b, 1, fld b 0x14 4, 1, 0⟩ else vPartA b
def vPartOut (b : Nat) : Part :=
  if vReduces (vOp b) then ⟨vRows b, 1, fld b 0x14 4, fld b 0x18 4, 0⟩ else vPartA b

/-- The words of an input and, for a scaled one, of the scale stream linked to its stream (R94, R268). -/
def vIn (s : State) (core sl fmt n : Nat) (p : Part) : List (Nat × Nat) :=
  (sl, s.inWords core sl fmt n) ::
    if isScaled fmt then [(s.linkedSluice core sl, p.scaleWords 32 0)] else []
def vNeeds (s : State) (core : Nat) (c : Cur) : List (Nat × Nat) :=
  let b := c.blk
  vIn s core (vA b) c.re.entry.fmtA (vRows b * vCols b) (vPartA b) ++
    if vTwo (vOp b) then vIn s core (vB b) c.re.entry.fmtB (vBLen b) (vPartB b) else []
/-- What evaluating the function of an entry of VOP 0x01 reads of its table (R40, R138). -/
def vReads (s : State) (core : Nat) (c : Cur) : List (TableRec × Nat × Nat) :=
  if vOp c.blk = 0x01 then s.fnReads 2 core (fld c.blk 0x01 1) else []
/-- The FP32 values of an input (R141): each exact value by RNE, a pair as its hi. The parameter block holds no scale field for a
scaled input: its blocks are of 32 elements, its scope is the tensor, and its scale words come from the stream linked to its stream
(DESIGN CHOICE, log 69). -/
def vRead (s : State) (core sl fmt n : Nat) (p : Part) (ws : Nat → List Nat) : Operand × List Nat :=
  let codes := s.inCodes core sl fmt n (ws sl)
  let o := readPart fmt p 32 codes (ws (s.linkedSluice core sl))
  (o, if fmt = 0x02 then codes.map fun k => (Pair.ofWord k).hi else o.vals.map rne32)
/-- Where a skew of an input lies. -/
def vSkew (s : State) (core sl fmt n : Nat) (p : Part) (q : Nat × Nat) : SkewAt :=
  s.skewIn core sl fmt n (s.linkedSluice core sl) (p.scaleWords 32 0) q

/-- The greatest of a row (R141): NaN if any, +0 above −0. -/
def rowMax (xs : List Nat) : Nat :=
  if xs.any f32IsNan then nanF32
  else match xs with
    | [] => 0
    | x :: r => r.foldl (fun m y => if (f32 m).lt (f32 y) || (f32IsZero m && f32IsZero y && m != 0) then y else m) x
/-- The compensated sum of a row, each element as (x, +0) (R141, R180). -/
def rowSum (xs : List Nat) : Pair × AccFlags :=
  xs.foldl (fun a x => let r := pairAdd a.1 ⟨x, 0⟩; (r.pair, a.2.plus (callFlags a.1 r))) (Pair.zero, {})

/-- The results of a vector operation, each with the sat of its last rounding: `f` on each element and its partner. -/
def vMap (f : Nat → Nat → Nat × Bool) (as bs : List Nat) (perRow cols : Nat) : List (Nat × Bool) :=
  as.zipIdx.map fun p => f p.1 ((bs.drop (if perRow = 1 then p.2 / max 1 cols else p.2)).headD 0)

/-- The clk of a vector entry (R141). -/
def vClk (b : Nat) : Nat :=
  let n := vRows b * vCols b
  match vOp b with
  | 0x01 => 16 + ceilDiv n 64
  | 0x06 | 0x07 => 16 + ceilDiv n 32
  | 0x04 | 0x05 => 16 + ceilDiv (vRows b) 128 * vCols b
  | _ => 16 + ceilDiv n 128

/-- The results of a vector entry: its inputs read, `op` applied, the outputs converted (R141, R142). `op` takes the
rounding of the last operation and the two inputs, and answers the results with the flags of pair additions. -/
def vForm (op : State → Nat → Nat → RMode → List Nat → List Nat → List (Nat × Bool) × AccFlags) (s : State) (core : Nat)
    (c : Cur) (ws : Nat → List Nat) : Formed :=
  let b := c.blk
  let e := c.re.entry
  let tensor := fld b 0x10 3
  let A := vRead s core (vA b) e.fmtA (vRows b * vCols b) (vPartA b) ws
  let B := if vTwo (vOp b) then vRead s core (vB b) e.fmtB (vBLen b) (vPartB b) ws else ({}, [])
  match A.1.skew, B.1.skew with
  | some q, _ => .stop (skewFault s core (vSkew s core (vA b) e.fmtA (vRows b * vCols b) (vPartA b) q))
  | none, some q => .stop (skewFault s core (vSkew s core (vB b) e.fmtB (vBLen b) (vPartB b) q))
  | none, none =>
    let s := noteOperand (noteOperand s core tensor A.1) core tensor B.1
    let fmt := if vTwo (vOp b) then fld b 0x02 1 else e.fmtB
    let r := op s core b (lastOf fmt) A.2 B.2
    let s := noteAcc s core .forward r.2
    let d := deliver s core e.out .forward fmt tensor (rmodeOf (fld b 0x03 1 % 4) .rne) (vPartOut b) r.1
    { st := d.1, outq := d.2.2, clk := vClk b }

/-- A class-0x05 entry of one VOP: an entry of another VOP is not the command's. -/
def vKind (op : State → Nat → Nat → RMode → List Nat → List Nat → List (Nat × Bool) × AccFlags) : EntryKind :=
  { op := 0x05, needs := vNeeds, reads := vReads, form := vForm op }

def vFn (s : State) (core b : Nat) (last : RMode) (as _ : List Nat) : List (Nat × Bool) × AccFlags :=
  let R := (s.fnRecord 2 core (fld b 0x01 1)).getD fun _ => 0
  (as.map fun a => fnEval R a last, {})
def vPoint (f : XNum → XNum → XNum) (_ : State) (_ b : Nat) (last : RMode) (as bs : List Nat) :
    List (Nat × Bool) × AccFlags :=
  (vMap (fun a x => lastF32 last (f (f32 a) (f32 x))) as bs (if vOp b = 0x08 ∨ vOp b = 0x09 then 1 else 0) (vCols b), {})
def vRowMax (_ : State) (_ b : Nat) (_ : RMode) (as _ : List Nat) : List (Nat × Bool) × AccFlags :=
  ((chunksOf (vCols b) as).map fun r => (rowMax r, false), {})
def vRowSum (_ : State) (_ b : Nat) (last : RMode) (as _ : List Nat) : List (Nat × Bool) × AccFlags :=
  let rs := (chunksOf (vCols b) as).map rowSum
  (rs.map fun r => lastF32 last r.1.num, rs.foldl (fun a r => a.plus r.2) {})
def vRecip (_ : State) (_ _ : Nat) (last : RMode) (as _ : List Nat) : List (Nat × Bool) × AccFlags :=
  (as.map fun a => lastF32 last ((XNum.ofNat 1).div (f32 a)), {})
def vRsqrt (_ : State) (_ _ : Nat) (last : RMode) (as _ : List Nat) : List (Nat × Bool) × AccFlags :=
  (as.map fun a => lastF32 last ((XNum.ofNat 1).div (f32 (rne32 (f32 a).sqrt))), {})

/-- Whether the entry a vector command names has its VOP. -/
def vNamed (s : State) (core v : Nat) : Bool :=
  match currentEntry s core 0x05 with
  | some c => vOp c.blk == v
  | none => false
/-- A vector command of one VOP. -/
def runVector (v : Nat) (op : State → Nat → Nat → RMode → List Nat → List Nat → List (Nat × Bool) × AccFlags) (core : Nat)
    (err : EntryErr) (s : State) : Host.Outcome State Fault Refusal :=
  if vNamed s core v then runEntry (vKind op) core err s else .next s

/-- `VECTOR_FN`: VOP 0x01 (R141). -/
def execVectorFn (core : Fin 256) (err : EntryErr) (s : State) : Host.Outcome State Fault Refusal := runVector 0x01 vFn core err s
/-- `VECTOR_ADD`: VOP 0x02. -/
def execVectorAdd (core : Fin 256) (err : EntryErr) (s : State) : Host.Outcome State Fault Refusal :=
  runVector 0x02 (vPoint XNum.add) core err s
/-- `VECTOR_MUL`: VOP 0x03. -/
def execVectorMul (core : Fin 256) (err : EntryErr) (s : State) : Host.Outcome State Fault Refusal :=
  runVector 0x03 (vPoint XNum.mul) core err s
/-- `VECTOR_ROWMAX`: VOP 0x04. -/
def execVectorRowmax (core : Fin 256) (err : EntryErr) (s : State) : Host.Outcome State Fault Refusal :=
  runVector 0x04 vRowMax core err s
/-- `VECTOR_ROWSUM`: VOP 0x05. -/
def execVectorRowsum (core : Fin 256) (err : EntryErr) (s : State) : Host.Outcome State Fault Refusal :=
  runVector 0x05 vRowSum core err s
/-- `VECTOR_RECIP`: VOP 0x06. -/
def execVectorRecip (core : Fin 256) (err : EntryErr) (s : State) : Host.Outcome State Fault Refusal :=
  runVector 0x06 vRecip core err s
/-- `VECTOR_RSQRT`: VOP 0x07. -/
def execVectorRsqrt (core : Fin 256) (err : EntryErr) (s : State) : Host.Outcome State Fault Refusal :=
  runVector 0x07 vRsqrt core err s
/-- `VECTOR_SUBROW`: VOP 0x08. -/
def execVectorSubrow (core : Fin 256) (err : EntryErr) (s : State) : Host.Outcome State Fault Refusal :=
  runVector 0x08 (vPoint XNum.sub) core err s
/-- `VECTOR_MULROW`: VOP 0x09. -/
def execVectorMulrow (core : Fin 256) (err : EntryErr) (s : State) : Host.Outcome State Fault Refusal :=
  runVector 0x09 (vPoint XNum.mul) core err s

end Sys2Proof.Machine
end

