-- ==== Sys2Proof/Machine/Spillway.lean ====
section
/-! DEFINITION. Spillway conversion entries (R102, R119, R159, R160, R163–R165): class 0x06, CONV 0x01 to 0x05. -/

namespace Sys2Proof.Machine

def cConv (b : Nat) : Nat := fld b 0x00 1
def cMerge (b : Nat) : Bool := bitOf (fld b 0x01 1) 1
def cDeriv (b : Nat) : Bool := bitOf (fld b 0x01 1) 0
def cIn (b : Nat) : Nat := fld b 0x0C 1
def cSide (b : Nat) : Nat := fld b 0x12 1
def cElems (b : Nat) : Nat := fld b 0x04 4 * fld b 0x08 4
def cTensor (b : Nat) : Nat := fld b 0x28 3
/-- Whole rows of the logical tensor, from ROW0 (R159). -/
def cPart (b : Nat) : Part := ⟨fld b 0x04 4, fld b 0x08 4, fld b 0x2C 4, fld b 0x08 4, 0⟩
/-- The rounding mode of a conversion (R86): SR for a G target, RNE for the others. -/
def cMode (b target : Nat) : RMode := rmodeOf (fld b 0x02 1 % 4) (if isG target then .sr else .rne)
def cZPart (s : State) (core : Nat) (b : Nat) (ws : Nat → List Nat) : Operand :=
  readPart (fld b 0x11 1) (cPart b) (blockLen (scaleP (fld b 0x50 16)).geom)
    (s.inCodes core (fld b 0x10 1) (fld b 0x11 1) (cElems b) (ws (fld b 0x10 1))) (ws (s.linkedSluice core (fld b 0x10 1)))

/-- The Sluices a conversion reads: its source, scale words, side activation and pre-activation (R159, R160). -/
def cNeeds (s : State) (core : Nat) (c : Cur) : List (Nat × Nat) :=
  let b := c.blk
  let P := scaleP (fld b 0x30 16)
  let lst := s.outliers c.img (fld b 0x18 4)
  match cConv b with
  | 0x04 | 0x05 => []
  | 0x01 =>
    [(cIn b, s.inWords core (cIn b) c.re.entry.fmtA (cElems b)),
     (fld b 0x0D 1, (cPart b).scaleWords (blockLen P.geom) P.scope)] ++
      if cMerge b then [(cSide b, s.inWords core (cSide b) 0x31 (fld b 0x04 4 * lst.length))] else []
  | v =>
    (cIn b, s.inWords core (cIn b) c.re.entry.fmtA (cElems b)) ::
      if v = 0x03 ∧ cDeriv b then
        let Z := scaleP (fld b 0x50 16)
        (fld b 0x10 1, s.inWords core (fld b 0x10 1) (fld b 0x11 1) (cElems b)) ::
          if isScaled (fld b 0x11 1) then
            [(s.linkedSluice core (fld b 0x10 1), (cPart b).scaleWords (blockLen Z.geom) Z.scope)]
          else []
      else []
/-- The pair region of a tile move: ROWS × COLS pairs from REGION (R159, R165; DEDUCED, log 70). -/
def cRegions (_s : State) (_core : Nat) (c : Cur) : List (Nat × Nat) :=
  let b := c.blk
  if cConv b = 0x04 ∨ cConv b = 0x05 then [(fld b 0x1C 4, cElems b)] else []
/-- What a conversion reads of its outlier list and of its derivative record (R40). -/
def cReads (s : State) (core : Nat) (c : Cur) : List (TableRec × Nat × Nat) :=
  let b := c.blk
  match cConv b with
  | 0x01 => if cMerge b then s.outlierReads c.img (fld b 0x18 4) else []
  | 0x02 => s.outlierReads c.img (fld b 0x18 4)
  | 0x03 => if cDeriv b then s.fnReads 3 core (fld b 0x03 1) else []
  | _ => []

/-- The clk of a conversion entry (R159). -/
def cClk (b pairs : Nat) : Nat :=
  match cConv b with
  | 0x02 => 16 + 2 * ceilDiv (cElems b) 128
  | 0x04 | 0x05 => 16 + ceilDiv pairs 128
  | _ => 16 + ceilDiv (cElems b) 128

/-! ### CONV 0x01 (R119, R159, R160) -/

/-- Conversions with the reserved codes among the elements counted as zeroed (R75). -/
def withReserved (convs : List Conv) (rsvs : List Bool) : List Conv :=
  (convs.zip rsvs).map fun p => if p.2 then { p.1 with zeroed := true } else p.1

def conv1Form (s : State) (core : Nat) (c : Cur) (ws : Nat → List Nat) : Formed :=
  let b := c.blk
  let e := c.re.entry
  let P := scaleP (fld b 0x30 16)
  let cols := fld b 0x08 4
  let words := ws (fld b 0x0D 1)
  let o := readPart e.fmtA (cPart b) (blockLen P.geom) (s.inCodes core (cIn b) e.fmtA (cElems b) (ws (cIn b))) words
  match o.skew with
  | some q => .stop (skewFault s core (s.skewIn core (cIn b) e.fmtA (cElems b) (fld b 0x0D 1) words.length q))
  | none =>
    let s := noteOperand s core P.tensor o
    let lst := if cMerge b then s.outliers c.img (fld b 0x18 4) else []
    let side := s.inCodes core (cSide b) 0x31 (fld b 0x04 4 * lst.length) (ws (cSide b))
    let vals := o.vals.zipIdx.map fun v =>
      match lst.findIdx? (· == v.2 % max 1 cols) with
      | some i =>
        (fmtG16.decode ((side.drop (v.2 / max 1 cols * lst.length + i)).headD 0)).mul (f32 ((o.ts.drop v.2).headD 0))
      | none => v.1
    let F := (fmtOf e.fmtB).getD fmtF32
    let mode := cMode b e.fmtB
    let convs := vals.zipIdx.map fun v =>
      convert v.1 F mode ((s.drawArgs core (cTensor b) 1).at mode ((cPart b).index v.2))
    let counted := withReserved convs o.rsvs
    let s := addShare (noteCnt s core .other (cTensor b) e.fmtB (cntAll convs)) (clusterOf core) P.share P.tensor (cntAll counted)
    { st := s
      outq := s.outWords core e.out (fmtBits e.fmtB) (convs.map (·.code)) ++
        s.outLines core (fld b 0x0F 1) (runCounters counted cols (fld b 0x2C 4) cols 0)
      clk := cClk b 0 }

/-! ### CONV 0x02 (R101–R106, R115, R470) -/

/-- Blocks of 32×32 tiles in the order of R98, each row by row, of `rows` × `cols` elements from row `row0`; listed rows are marked
(R115). -/
def tileBlocks (row0 rows cols : Nat) (outliers : List Nat) (vals : List XNum) : List BlockIn :=
  (List.range (rows / 32)).flatMap fun r => (List.range (cols / 32)).map fun t =>
    { idx := (row0 / 32 + r) * (cols / 32) + t, channel := 0,
      els := (List.range 1024).map fun i =>
        let row := 32 * r + i / 32
        let col := 32 * t + i % 32
        { x := (vals.drop (row * cols + col)).headD (.fin false 0 0), idx := (row0 + row) * cols + col,
          outlier := outliers.contains (row0 + row) } }
/-- 1-D blocks along the rows, listed channels marked (R96, R105, R115). -/
def lineBlocks (bl row0 rows cols : Nat) (outliers : List Nat) (vals : List XNum) : List BlockIn :=
  (List.range rows).flatMap fun r => (List.range (ceilDiv cols bl)).map fun j =>
    { idx := (row0 + r) * ceilDiv cols bl + j, channel := row0 + r,
      els := (List.range (min bl (cols - j * bl))).map fun i =>
        { x := (vals.drop (r * cols + j * bl + i)).headD (.fin false 0 0), idx := (row0 + r) * cols + j * bl + i,
          outlier := outliers.contains (j * bl + i) } }

/-- Channel scales packed 16 to a word: the last entry of a weight writes them, after its last tile scale word (R470). -/
def channelWords (ts : List Nat) : List Nat := (chunksOf 16 ts).map (packBits 32)

/-- The scaled output of a quantisation: codes, scale words with the channel scale words of R470, counter words. -/
def quantOut (s : State) (core out scaleSl ctr : Nat) (P : ScaleP) (r : QuantRes) (chTs : List Nat) : List (Nat × SWord) :=
  s.outWords core out (fmtBits P.fmt) (r.blocks.flatMap (·.q.codes)) ++
    s.outLines core scaleSl (scaleWords (P.scope = 1 && P.geom != 3) r.blocks ++ channelWords chTs) ++
    s.outLines core ctr (counterWords r.blocks)

def conv2Form (peers : List (Nat × Scout)) (s : State) (core : Nat) (c : Cur) (ws : Nat → List Nat) : Formed :=
  let b := c.blk
  let e := c.re.entry
  let P := scaleP (fld b 0x40 16)
  let rows := fld b 0x04 4
  let cols := fld b 0x08 4
  let vals := (s.inCodes core (cIn b) e.fmtA (cElems b) (ws (cIn b))).map (plainNum e.fmtA)
  let lst := s.outliers c.img (fld b 0x18 4)
  let tiled := P.geom = 3
  let ins := if tiled then tileBlocks (fld b 0x2C 4) rows cols lst vals
    else lineBlocks (blockLen P.geom) (fld b 0x2C 4) rows cols lst vals
  let F := (fmtOf P.fmt).getD fmtF32
  let column := if tiled ∧ P.scope = 1 then some (fun i => i % cols) else none
  let hist := s.hist core P.slot
  let mb := c.re.plan.mb
  let all := peers ++ s.sharesOf core P.tensor mb
  let r := quantise P F (rmodeOf P.rmode (cMode b P.fmt)) (s.drawArgs core P.tensor 1) hist all column ins
  let chTs := if tiled ∧ P.scope = 1 ∧ !morePartsOf s core c.img P.tensor mb then channelScales P F hist all (fun i => i % cols) cols ins
    else []
  -- the side operand of listed channels, row by row in list order (R115, DEDUCED, log 20)
  let sides := (r.blocks.zip ins).flatMap fun p => (p.2.els.filter (·.outlier)).map fun q => sideConv q.x p.1.ts
  let s := noteQuant s core mb .other P r (cntAll sides)
  { st := s
    outq := quantOut s core e.out (fld b 0x0E 1) (fld b 0x0F 1) P r chTs ++
      (if lst.isEmpty then [] else s.outWords core (cSide b) 16 (sides.map (·.code)))
    clk := cClk b 0
    share := r.toShare P }

/-! ### CONV 0x03 (R156, R159) -/

def conv3Form (s : State) (core : Nat) (c : Cur) (ws : Nat → List Nat) : Formed :=
  let b := c.blk
  let e := c.re.entry
  let codes := s.inCodes core (cIn b) e.fmtA (cElems b) (ws (cIn b))
  let z := if cDeriv b then cZPart s core b ws else {}
  let zs := s.linkedSluice core (fld b 0x10 1)
  match z.skew with
  | some q => .stop (skewFault s core (s.skewIn core (fld b 0x10 1) (fld b 0x11 1) (cElems b) zs (ws zs).length q))
  | none =>
    let s := noteOperand s core (scaleP (fld b 0x50 16)).tensor z
    let lout := fld b 0x16 2
    let sh := gradShift s (fld b 0x14 2) lout
    let s := noteClamp s core sh.2
    let R := (s.fnRecord 3 core (fld b 0x03 1)).getD fun _ => 0
    let vals := codes.zipIdx.map fun p =>
      let P := if e.fmtA = 0x02 then Pair.ofWord p.1 else ⟨rne32 (plainNum e.fmtA p.1), 0⟩
      let d := if cDeriv b then some (fnEval R (rne32 ((z.vals.drop p.2).headD (.fin false 0 0))) .rne).1 else none
      bwdVal P sh.1 d (lastOf e.fmtB)
    let d := deliver s core e.out .other e.fmtB (cTensor b) (cMode b e.fmtB) (cPart b) vals
    let s := noteLayer d.1 core lout d.2.1.length (amaxOf (vals.map fun v => f32 v.1)) (cntAll d.2.1)
    { st := s
      outq := d.2.2 ++ s.outLines core (fld b 0x0F 1) (runCounters d.2.1 (fld b 0x08 4) (fld b 0x2C 4) (fld b 0x08 4) 0)
      clk := cClk b 0 }

/-! ### Gradient tiles (R163–R165) -/

/-- The header of a spill record (R163). -/
def spillHeader (wid count step : Nat) : Nat := wid % 2 ^ 24 + count % 2 ^ 32 * 2 ^ 32 + step % 2 ^ 32 * 2 ^ 64

def spillForm (s : State) (core : Nat) (c : Cur) (_ : Nat → List Nat) : Formed :=
  let b := c.blk
  let base := fld b 0x1C 4
  let s := combineRegion s core base .other
  let cl := clusterOf core
  let n := cElems b
  let a := 64 * fld b 0x24 4
  let s1 := s.sramWr cl a 64 (spillHeader (fld b 0x20 3) n (s.clStep cl))
  let s2 := s1.sramWr cl (a + 64) (8 * n) (packBits 64 (((s.core core).pairs base n).map Pair.toWord))
  let s3 := s2.modCore core fun x => x.modRegion base fun r => { r with pinned := false, slots := 0 }
  { st := s3.bump (Obj.bengSpills core) 1, clk := cClk b n }

/-- A reload: the record is checked against the entry and the step, then each of its pairs is added, the spilled pair first (R165); a pair
that was not NaN and becomes NaN counts (R174). -/
def reloadForm (s : State) (core : Nat) (c : Cur) (_ : Nat → List Nat) : Formed :=
  let b := c.blk
  let base := fld b 0x1C 4
  let cl := clusterOf core
  let a := 64 * fld b 0x24 4
  let wid := fld b 0x20 3
  let n := cElems b
  if s.sramRd cl a 4 != wid || s.sramRd cl (a + 4) 4 != n || s.sramRd cl (a + 8) 4 != s.clStep cl % 2 ^ 32 then
    { st := raise s 0x3D01 .stepAbort (uCore core), clk := cClk b n }
  else
    let s := if 65536 ≤ ((s.core core).region base).slots then closeSegment s core base else s
    let res := (List.range n).map fun i =>
      let p := (s.core core).pair (base + i)
      let r := pairAdd (Pair.ofWord (s.sramRd cl (a + 64 + 8 * i) 8)) p
      (r.pair, callFlags p r)
    let s := s.modCore core fun x => (x.setPairs base (res.map (·.1))).modRegion base fun r =>
      { r with slots := r.slots + 1, len := max r.len n, wid := wid, pinned := true }
    let s := noteAcc s core .other (res.foldl (fun f p => f.plus p.2) {})
    { st := s.bump (Obj.bengReloads core) 1, clk := cClk b n }

/-! ### The commands -/

/-- The class of conversions. -/
def convKind (form : State → Nat → Cur → (Nat → List Nat) → Formed) : EntryKind :=
  { op := 0x06, needs := cNeeds, regions := cRegions, reads := cReads, form := form }
/-- A conversion command names an entry of its CONV. -/
def runConv (v : Nat) (form : State → Nat → Cur → (Nat → List Nat) → Formed) (core : Nat) (err : EntryErr) (s : State) :
    Host.Outcome State Fault Refusal :=
  match currentEntry s core 0x06 with
  | some c =>
    if cConv c.blk = v then runEntry (convKind form) core err s
    else .next s
  | none => .next s

/-- `SPILL_CONV_SCALED_TO_G`: CONV 0x01 (R119, R159). -/
def execSpillConvScaledToG (core : Fin 256) (err : EntryErr) (s : State) : Host.Outcome State Fault Refusal :=
  runConv 0x01 conv1Form core err s
/-- `SPILL_QUANTISE`: CONV 0x02 (R101, R102). `peers` are the statistics of the other shares of the scope. -/
def execSpillQuantise (core : Fin 256) (err : EntryErr) (peers : List (Nat × Scout)) (s : State) :
    Host.Outcome State Fault Refusal := runConv 0x02 (conv2Form peers) core err s
/-- `SPILL_CONV_WIDE`: CONV 0x03 (R159). -/
def execSpillConvWide (core : Fin 256) (err : EntryErr) (s : State) : Host.Outcome State Fault Refusal :=
  runConv 0x03 conv3Form core err s
/-- `GRAD_TILE_SPILL`: CONV 0x04 (R163). -/
def execGradTileSpill (core : Fin 256) (err : EntryErr) (s : State) : Host.Outcome State Fault Refusal :=
  runConv 0x04 spillForm core err s
/-- `GRAD_TILE_RELOAD`: CONV 0x05 (R165). -/
def execGradTileReload (core : Fin 256) (err : EntryErr) (s : State) : Host.Outcome State Fault Refusal :=
  runConv 0x05 reloadForm core err s

end Sys2Proof.Machine
end

