-- ==== Sys2Proof/Machine/Router.lean ====
section
/-! DEFINITION. The router unit (R223–R231): select, combine, scatter and return. -/

namespace Sys2Proof.Machine

def rTopk (b : Nat) : Nat := fld b 0x01 1
def rExperts (b : Nat) : Nat := fld b 0x02 2
def rTokens (b : Nat) : Nat := fld b 0x04 4
def rCap (b : Nat) : Nat := fld b 0x08 2
def rSpillCap (b : Nat) : Nat := if fld b 0x0D 1 = 1 then fld b 0x0A 2 else 0
def rSpillExpert (b : Nat) : Nat := fld b 0x0E 1
def rIn (b i : Nat) : Nat := fld b (0x10 + i) 1
def rOutA (b : Nat) : Nat := fld b 0x14 1
def rOutB (b : Nat) : Nat := fld b 0x15 1
def rXFmt (b : Nat) : Nat := fld b 0x16 1
def rLFmt (b : Nat) : Nat := fld b 0x17 1
def rD (b : Nat) : Nat := fld b 0x18 4
def rTensor (b : Nat) : Nat := fld b 0x24 3
def rRow0 (b : Nat) : Nat := fld b 0x28 4
/-- Slot rows of the experts, and the row of a slot: by expert, then by slot (R224). -/
def rSlots (b : Nat) : Nat := rExperts b * rCap b + rSpillCap b
def rSlotRow (b e slot : Nat) : Nat := e * rCap b + (if rSpillExpert b < e then rSpillCap b else 0) + slot

/-- Elements of a list by descending FP32 value: NaN below −Inf, equal values by lower index (R225). -/
def better (x y : Nat) : Bool := if f32IsNan y then !f32IsNan x else (f32 y).lt (f32 x)
def insertBy (p : Nat × Nat) : List (Nat × Nat) → List (Nat × Nat)
  | [] => [p]
  | q :: qs => if better p.1 q.1 then p :: q :: qs else q :: insertBy p qs
/-- The values of a list with their indices, in that order. -/
def byValue (xs : List Nat) : List (Nat × Nat) := xs.zipIdx.foldl (fun acc p => insertBy p acc) []

/-- `gates` of R225: the exponentials of the indices in `idx`, and S.hi; none where every gate is NaN. -/
def gatesOf (R : Nat → Nat) (l idx : List Nat) : Option (List (Nat × Nat) × Nat) × AccFlags :=
  if l.any fun x => !f32IsFinite x then (none, {})
  else
    let at_ (i : Nat) : Nat := (l.drop i).headD 0
    let mx := idx.foldl (fun m i => if (f32 m).lt (f32 (at_ i)) then at_ i else m) (at_ (idx.headD 0))
    let ps := idx.map fun i => (i, (fnEval R (fsub (at_ i) mx) .rne).1)
    let S := enterAll Pair.zero (ps.map fun p => f32 p.2)
    if validTs S.1.hi then (some (ps, S.1.hi), S.2) else (none, S.2)

/-- The choices of a token: its ranking cut to TOPK, and the gates of each rank. -/
structure TokenRoute where
  sel : List Nat
  gate : List Nat
  finite : Bool
  probs : Option (List (Nat × Nat) × Nat)
  flags : AccFlags
  deriving DecidableEq, Repr

def tokenRoute (R : Nat → Nat) (b : Nat) (l : List Nat) : TokenRoute :=
  let sel := ((byValue l).take (rTopk b)).map (·.2)
  let idx := if fld b 0x0C 1 % 2 = 0 then List.range (rExperts b) else sel
  let g := gatesOf R l idx
  { sel := sel, finite := l.all f32IsFinite, probs := g.1, flags := g.2,
    gate := sel.map fun e => match g.1 with
      | some (ps, S) => fdiv (((ps.find? fun p => p.1 == e).map (·.2)).getD 0) S
      | none => nanF32 }

/-- A choice as R227 records it. -/
structure Choice where
  kind : Nat := 0
  expert : Nat := 0
  slot : Nat := 0
  gate : Nat := 0
  deriving DecidableEq, Repr

def Choice.code (c : Choice) : Nat := c.kind + c.expert * 2 ^ 8 + c.slot * 2 ^ 16 + c.gate * 2 ^ 32
def choiceOf (w : Nat) : Choice := ⟨bitsOf w 0 2, bitsOf w 8 8, bitsOf w 16 16, bitsOf w 32 32⟩

/-- Slot assignment (R225): the choices in rank order, tokens in increasing index within a rank. `cnt` counts the slots
taken of each expert. -/
def assign (b : Nat) (rs : List TokenRoute) : SMap Nat → Nat → List (Nat × Nat) → List ((Nat × Nat) × Choice) × SMap Nat
  | cnt, _, [] => ([], cnt)
  | cnt, spl, (r, t) :: rest =>
    let tr := (rs.drop t).headD ⟨[], [], true, none, {}⟩
    let e := (tr.sel.drop r).headD 0
    let g := (tr.gate.drop r).headD nanF32
    let n := smGet zeroWord cnt e
    if n < rCap b then
      let q := assign b rs (smSet zeroWord cnt e (n + 1)) spl rest
      (((r, t), ⟨1, e, n, g⟩) :: q.1, q.2)
    else if fld b 0x0D 1 = 1 ∧ spl < fld b 0x0A 2 ∧ !tr.sel.contains (rSpillExpert b) then
      let q := assign b rs cnt (spl + 1) rest
      (((r, t), ⟨2, rSpillExpert b, rCap b + spl, g⟩) :: q.1, q.2)
    else
      let q := assign b rs cnt spl rest
      (((r, t), ⟨3, e, 0xFFFF, g⟩) :: q.1, q.2)

/-- The logits of a token row as FP32 words. -/
def logitRows (b : Nat) (codes : List Nat) (fmt : Nat) : List (List Nat) :=
  chunksOf (rExperts b) (codes.map fun k => rne32 (plainNum fmt k))
def rRecord (s : State) (core b : Nat) : Nat → Nat := (s.fnRecord 2 core (fld b 0x0F 1)).getD fun _ => 0

/-- MODE 0 (R225–R228). -/
def selectForm (s : State) (core : Nat) (c : Cur) (ws : Nat → List Nat) : Formed :=
  let b := c.blk
  let cl := clusterOf core
  let fmt := c.re.entry.fmtA
  let rows := logitRows b (s.inCodes core (rIn b 0) fmt (rTokens b * rExperts b) (ws (rIn b 0))) fmt
  let rs := rows.map (tokenRoute (rRecord s core b) b)
  let order := (List.range (rTopk b)).flatMap fun r => (List.range (rTokens b)).map fun t => (r, t)
  let q := assign b rs [] 0 order
  let kindN (k : Nat) : Nat := (q.1.filter fun p => p.2.kind == k).length
  let bad := (rs.filter fun r => !r.finite).length
  let s := noteAcc s core .other (rs.foldl (fun a r => a.plus r.flags) {})
  let s := ((s.bump (Obj.routeRouted cl) (kindN 1)).bump (Obj.routeSpilled cl) (kindN 2)).bump (Obj.routeDropped cl) (kindN 3)
  let s := s.bump (Obj.routeFullExperts cl) ((List.range (rExperts b)).filter fun e => smGet zeroWord q.2 e == rCap b).length
  let s := if bad = 0 then s
    else raiseFirstCl (setHealth (s.bump (Obj.routeNonfinite cl) bad) cl 1) cl 0x3904 .note
  let s := if kindN 3 = 0 then s else raiseFirstCl s cl 0x3902 .note
  let records := (List.range (rTokens b)).map fun t =>
    packBits 64 ((List.range (rTopk b)).map fun r =>
      match q.1.find? fun p => p.1 == (r, t) with
      | some p => p.2.code
      | none => 0)
  let lists := (List.range (rSlots b)).map fun i =>
    match q.1.find? fun p => (p.2.kind == 1 || p.2.kind == 2) && rSlotRow b p.2.expert p.2.slot == i with
    | some p => 2 ^ 31 + p.1.1 * 2 ^ 16 + p.1.2 % 2 ^ 16
    | none => 0
  { st := s, outq := s.outLines core (rOutA b) records ++ s.outWords core (rOutB b) 32 lists,
    clk := 64 + rTokens b * (ceilDiv (rExperts b) 64 + rTopk b) }

/-- The choices of a token from its route record. -/
def choicesOf (b word : Nat) : List Choice := (List.range (rTopk b)).map fun r => choiceOf (bitsOf word (64 * r) 64)
def Choice.live (c : Choice) : Bool := c.kind == 1 || c.kind == 2
/-- Element `j` of the expert row of a choice. -/
def rowElem (b : Nat) (vals : List XNum) (c : Choice) (j : Nat) : XNum :=
  (vals.drop (rSlotRow b c.expert c.slot * rD b + j)).headD (.fin false 0 0)
/-- Terms entered in rank order, for every element of every token. -/
def sumRanks (b : Nat) (recs : List Nat) (vals : List XNum) (gated : Bool) : List (Pair × AccFlags) :=
  recs.flatMap fun word =>
    let cs := (choicesOf b word).filter Choice.live
    (List.range (rD b)).map fun j =>
      enterAll Pair.zero (cs.map fun c =>
        if gated then (f32 c.gate).mul (rowElem b vals c j) else rowElem b vals c j)
def rMode (b : Nat) (dflt : RMode) : RMode := rmodeOf (fld b 0x1C 1 % 4) dflt
def rPart (b : Nat) : Part := ⟨rTokens b, rD b, rRow0 b, rD b, 0⟩

/-- MODE 1 (R229). -/
def combineForm (s : State) (core : Nat) (c : Cur) (ws : Nat → List Nat) : Formed :=
  let b := c.blk
  let vals := (s.inCodes core (rIn b 1) (rXFmt b) (rSlots b * rD b) (ws (rIn b 1))).map (plainNum (rXFmt b))
  let ps := sumRanks b ((ws (rIn b 0)).take (rTokens b)) vals true
  let s := noteAcc s core .other (ps.foldl (fun a p => a.plus p.2) {})
  let fmt := c.re.entry.fmtB
  let d := deliver s core (rOutA b) .other fmt (rTensor b) (rMode b .rne) (rPart b)
    (ps.map fun p => lastF32 (lastOf fmt) p.1.num)
  { st := d.1, outq := d.2.2, clk := 32 + rTokens b * rTopk b * ceilDiv (rD b) 128 }

/-- Exact results converted in a single step and counted, with their layer tally (R196, R229, R230). -/
def deliverExact (s : State) (core fmt b : Nat) (vals : List (XNum × Nat)) : State × List Conv :=
  let F := (fmtOf fmt).getD fmtF32
  let mode := rMode b .sr
  let convs := vals.map fun v => convert v.1 F mode ((s.drawArgs core (rTensor b) 1).at mode v.2)
  let s := noteCnt s core .other (rTensor b) fmt (cntAll convs)
  (noteLayer s core (fld b 0x20 2) convs.length (amaxOf (vals.map (·.1))) (cntAll convs), convs)

/-- MODE 3 (R229): the product by f is converted in a single step, as R229 says of this output, not in the two steps that
R89 gives a pair (DEDUCED, log 70). -/
def returnForm (s : State) (core : Nat) (c : Cur) (ws : Nat → List Nat) : Formed :=
  let b := c.blk
  let fmt := c.re.entry.fmtB
  let vals := (s.inCodes core (rIn b 1) c.re.entry.fmtA (rSlots b * rD b) (ws (rIn b 1))).map (plainNum c.re.entry.fmtA)
  let ps := sumRanks b ((ws (rIn b 0)).take (rTokens b)) vals false
  let sh := gradShift s (fld b 0x1E 2) (fld b 0x20 2)
  let s := noteClamp (noteAcc s core .other (ps.foldl (fun a p => a.plus p.2) {})) core sh.2
  let d := deliverExact s core fmt b (ps.zipIdx.map fun p => (p.1.1.num.mul (f32 sh.1), rRow0 b * rD b + p.2))
  { st := d.1, outq := d.1.outWords core (rOutA b) (fmtBits fmt) (d.2.map (·.code)),
    clk := 32 + rTokens b * rTopk b * ceilDiv (rD b) 128 }

/-- What MODE 2 forms of one token: the rows of its live choices by slot row, the logit gradients, and the flags. -/
structure Scattered where
  rows : List (Nat × List XNum)
  logits : List XNum
  flags : AccFlags
  deriving DecidableEq, Repr

def scatterToken (R : Nat → Nat) (b f : Nat) (word : Nat) (dy x : List XNum) (l : List Nat) : Scattered :=
  let cs := choicesOf b word
  let tr := tokenRoute R b l
  let dgs : List (Pair × AccFlags) := cs.map fun c =>
    if c.live then enterAll Pair.zero ((List.range (rD b)).map fun j => ((dy.drop j).headD (.fin false 0 0)).mul (rowElem b x c j))
    else (Pair.zero, {})
  let C := enterAll Pair.zero ((cs.zip dgs).map fun p => (f32 p.1.gate).mul (f32 p.2.1.hi))
  let logits := (List.range (rExperts b)).map fun i =>
    let r := tr.sel.findIdx? (· == i)
    let dl := if fld b 0x0C 1 % 2 = 1 ∧ r.isNone then 0
      else
        let prob := match r with
          | some r => ((cs.drop r).headD {}).gate
          | none => match tr.probs with
            | some (ps, S) => fdiv (((ps.find? fun p => p.1 == i).map (·.2)).getD 0) S
            | none => nanF32
        let dp := match r with
          | some r => ((dgs.drop r).headD (Pair.zero, {})).1.hi
          | none => 0
        fmul prob (fsub dp C.1.hi)
    (f32 dl).mul (f32 f)
  { rows := (cs.filter Choice.live).map fun c =>
      (rSlotRow b c.expert c.slot, dy.map fun v => ((f32 c.gate).mul v).mul (f32 f))
    logits := logits
    flags := dgs.foldl (fun a p => a.plus p.2) (C.2.plus tr.flags) }

/-- MODE 2 (R230). -/
def scatterForm (s : State) (core : Nat) (c : Cur) (ws : Nat → List Nat) : Formed :=
  let b := c.blk
  let e := c.re.entry
  let D := rD b
  let dys := chunksOf D ((s.inCodes core (rIn b 1) e.fmtA (rTokens b * D) (ws (rIn b 1))).map (plainNum e.fmtA))
  let x := (s.inCodes core (rIn b 2) (rXFmt b) (rSlots b * D) (ws (rIn b 2))).map (plainNum (rXFmt b))
  let ls := logitRows b (s.inCodes core (rIn b 3) (rLFmt b) (rTokens b * rExperts b) (ws (rIn b 3))) (rLFmt b)
  let sh := gradShift s (fld b 0x1E 2) (fld b 0x20 2)
  let R := rRecord s core b
  let ts := ((ws (rIn b 0)).take (rTokens b)).zipIdx.map fun p =>
    scatterToken R b sh.1 p.1 ((dys.drop p.2).headD []) x ((ls.drop p.2).headD [])
  let s := noteClamp (noteAcc s core .other (ts.foldl (fun a t => a.plus t.flags) {})) core sh.2
  let rows := ts.flatMap (·.rows)
  let da := deliverExact s core e.fmtB b (rows.flatMap fun r => r.2.zipIdx.map fun v => (v.1, (rRow0 b + r.1) * D + v.2))
  let db := deliverExact da.1 core e.fmtB b (ts.zipIdx.flatMap fun t =>
    t.1.logits.zipIdx.map fun v => (v.1, (rRow0 b + t.2) * D + v.2))
  let placed := rows.zip (chunksOf D (da.2.map (·.code)))
  let outA := (List.range (rSlots b)).flatMap fun i =>
    match placed.find? fun p => p.1.1 == i with
    | some p => p.2
    | none => List.replicate D 0
  let w := fmtBits e.fmtB
  { st := db.1, outq := db.1.outWords core (rOutA b) w outA ++ db.1.outWords core (rOutB b) w (db.2.map (·.code)),
    clk := 32 + rTokens b * (2 * rTopk b * ceilDiv D 128 + ceilDiv (rExperts b) 64) }

/-- The Sluices a router entry reads (R224). -/
def rNeeds (s : State) (core : Nat) (c : Cur) : List (Nat × Nat) :=
  let b := c.blk
  let a := c.re.entry.fmtA
  let t := rTokens b
  match fld b 0x00 1 with
  | 0 => [(rIn b 0, s.inWords core (rIn b 0) a (t * rExperts b))]
  | 1 => [(rIn b 0, t), (rIn b 1, s.inWords core (rIn b 1) (rXFmt b) (rSlots b * rD b))]
  | 2 => [(rIn b 0, t), (rIn b 1, s.inWords core (rIn b 1) a (t * rD b)),
      (rIn b 2, s.inWords core (rIn b 2) (rXFmt b) (rSlots b * rD b)),
      (rIn b 3, s.inWords core (rIn b 3) (rLFmt b) (t * rExperts b))]
  | _ => [(rIn b 0, t), (rIn b 1, s.inWords core (rIn b 1) a (rSlots b * rD b))]

/-- What a router entry of MODE 0 or 2 reads of the function table (R40, R225, R230). -/
def rReads (s : State) (core : Nat) (c : Cur) : List (TableRec × Nat × Nat) :=
  if fld c.blk 0x00 1 % 2 = 0 then s.fnReads 2 core (fld c.blk 0x0F 1) else []

/-- A unit that serves its cluster's cores one entry at a time (R205, R223) is busy with another core's entry: not with one that waits,
scouted, for the other shares of its scope (R101). -/
def unitBusy (s : State) (core op : Nat) : Bool :=
  (coresOf (clusterOf core)).any fun n => n != core && (s.core n).running.any fun r => r.entry.op == op && (r.formed || !r.scouted)

/-- A command of one MODE of a class whose unit serves a whole cluster. -/
def runUnit (k : EntryKind) (v : Nat) (modeAt : Nat → Nat) (core : Nat) (err : EntryErr) (s : State) :
    Host.Outcome State Fault Refusal :=
  match currentEntry s core k.op with
  | some c =>
    if modeAt c.blk = v then (if c.fresh && unitBusy s core k.op then .next s else runEntry k core err s)
    else .next s
  | none => .next s
/-- The class of router entries. -/
def rKind (form : State → Nat → Cur → (Nat → List Nat) → Formed) : EntryKind :=
  { op := 0x0D, needs := rNeeds, reads := rReads, form := form }
def runRouter (v : Nat) (form : State → Nat → Cur → (Nat → List Nat) → Formed) (core : Nat) (err : EntryErr) (s : State) :
    Host.Outcome State Fault Refusal :=
  runUnit (rKind form) v (fun b => fld b 0x00 1) core err s

/-- `ROUTER_SELECT`: MODE 0 (R225). -/
def execRouterSelect (core : Fin 256) (err : EntryErr) (s : State) : Host.Outcome State Fault Refusal :=
  runRouter 0 selectForm core err s
/-- `ROUTER_COMBINE`: MODE 1 (R229). -/
def execRouterCombine (core : Fin 256) (err : EntryErr) (s : State) : Host.Outcome State Fault Refusal :=
  runRouter 1 combineForm core err s
/-- `ROUTER_SCATTER`: MODE 2 (R230). -/
def execRouterScatter (core : Fin 256) (err : EntryErr) (s : State) : Host.Outcome State Fault Refusal :=
  runRouter 2 scatterForm core err s
/-- `ROUTER_RETURN`: MODE 3 (R229). -/
def execRouterReturn (core : Fin 256) (err : EntryErr) (s : State) : Host.Outcome State Fault Refusal :=
  runRouter 3 returnForm core err s

end Sys2Proof.Machine
end

