-- ==== Sys2Proof/Machine/Sampling.lean ====
section
/-! DEFINITION. The sampling unit (R238, R251–R253) and the LUT unit (R76–R78, R254, R255). -/

namespace Sys2Proof.Machine

/-! ### sample_row (R252) -/

/-- What `sample_row` reads of a sequence: INV_T, TOPP, TOPK, GREEDY. -/
structure SampleP where
  invT : Nat
  topp : Nat
  topk : Nat
  greedy : Bool
  deriving DecidableEq, Repr

/-- What `sample_row` answers: not finite; a token, with its log-probability where the manual states one. -/
inductive Sampled where
  | nonfinite
  | token (t : Nat) (logp : Option Nat)
  deriving DecidableEq, Repr

/-- Running sums of `enter` over FP32 words, each as its hi. -/
def runningHi : Pair → List Nat → List Nat
  | _, [] => []
  | C, p :: ps =>
    let C := (enter C (f32 p)).pair
    C.hi :: runningHi C ps
def sumHi (ps : List Nat) : Nat := (enterAll Pair.zero (ps.map f32)).1.hi
/-- The token of a row: `order` lists its indices by z, `u24` is the draw. -/
def drawToken (p : Nat → Nat) (order : List Nat) (d : SampleP) (V u24 : Nat) : Nat :=
  let n := if d.topk = 0 then V else d.topk
  let ps := (order.take n).map p
  let n := if (f32 d.topp).lt (f32 0x3F800000) then
      let thr := fmul d.topp (sumHi ps)
      match (runningHi Pair.zero ps).findIdx? fun c => (f32 thr).le (f32 c) with
      | some j => j + 1
      | none => n
    else n
  if d.greedy then order.headD 0
  else
    let ps := (order.take n).map p
    let R := fmul (rne32 (.fin false u24 (-24))) (sumHi ps)
    match (runningHi Pair.zero ps).findIdx? fun c => (f32 R).lt (f32 c) with
    | some j => (order.drop j).headD 0
    | none => ((order.take n).getLast?).getD 0

/-- `sample_row` of R252. `target` is the given token of MODE 1. The log-probability is none where the manual states no
value: a sum without an exponent, or a target outside the row (DESIGN CHOICE, log 13). -/
def sampleRow (E L : Nat → Nat) (lnb : Nat) (l : List Nat) (d : SampleP) (u24 : Nat) (target : Option Nat) :
    Sampled × AccFlags :=
  if l.any fun x => !f32IsFinite x then (.nonfinite, {})
  else
    let z := l.map fun x => fmul x d.invT
    if z.any fun x => !f32IsFinite x then (.nonfinite, {})
    else
      let ranked := byValue z
      let mx := ((ranked.head?).map (·.1)).getD 0
      let ps := z.map fun x => (fnEval E (fsub x mx) .rne).1
      let S := enterAll Pair.zero (ps.map f32)
      let at_ (xs : List Nat) (i : Nat) : Nat := (xs.drop i).headD 0
      let t := match target with
        | some t => t
        | none => drawToken (at_ ps) (ranked.map (·.2)) d l.length u24
      let logp := match f32 S.1.hi with
        | .fin false m x =>
          if m = 0 ∨ l.length ≤ t then none
          else
            let e := topExp (.fin false m x)
            let f := rne32 ((XNum.fin false m x).scale (-e))
            let pow2f := rne32 (.fin (decide (e < 0)) e.natAbs 0)
            let ls := fadd (fmul pow2f 0x3F317218) (fnEval L f .rne).1
            some (fsub (fmul (fsub (at_ z t) mx) lnb) ls)
        | _ => none
      (.token t logp, S.2)

/-! ### Sampling entries (R251) -/

/-- Elements of a logit row: VOCAB of the rollout record; in a training image, the innermost run of the logit stream
(DEDUCED, log 19). -/
def sVocab (s : State) (core b : Nat) : Nat :=
  if s.role (clusterOf core) = 2 then s.vocab (clusterOf core)
  else match s.ctxOn core (fld b 0x0C 1) with
    | some (_, d) => d.cnt 0
    | none => 0
def sRows (b : Nat) : Nat := fld b 0x04 4
def sNeeds (s : State) (core : Nat) (c : Cur) : List (Nat × Nat) :=
  let b := c.blk
  [(fld b 0x0C 1, s.inWords core (fld b 0x0C 1) 0x01 (sRows b * sVocab s core b)),
   (fld b 0x0D 1, s.inWords core (fld b 0x0D 1) 0x02 (sRows b))]
def sRecords (s : State) (core : Nat) (kind : Nat) (f : Nat) : Nat → Nat := (s.fnRecord kind core f).getD fun _ => 0
/-- The first row of the group in a step with logits that are not finite (R252). -/
def noteNonfinite (s : State) (core : Nat) : State :=
  let cl := clusterOf core
  let s := setHealth s cl 1
  if s.role cl = 2 then
    (if s.roll.firsts.contains 0x4D05 then s
     else raise (s.withRoll { s.roll with firsts := s.roll.firsts ++ [0x4D05] }) 0x4D05 .note (uCluster cl))
  else
    (if s.train.firsts.contains 0x4D05 then s
     else raise (s.withTrain { s.train with firsts := s.train.firsts ++ [0x4D05] }) 0x4D05 .note (uCluster cl))

/-- A log-probability the manual states, or a free value (DESIGN CHOICE, log 13). -/
def stated (s : State) : Option Nat → Nat × State
  | some v => (v, s)
  | none => let r := s.draw; (r.1 % 2 ^ 32, r.2)

/-- One row of MODE 0: the row map word and the logits (R242, R252). The slot takes its token; a cancelled slot's record
is dropped (R247). -/
def sampleSlot (core b : Nat) (word : Nat) (l : List Nat) (s : State) : State × List SWord :=
  let cl := clusterOf core
  if !(bitOf word 63 && bitOf word 62) then (s, [])
  else
    let n := bitsOf word 32 10
    let x := (s.cluster cl).slot n
    let g := globalSlot cl n
    let draw (i : Nat) : Nat := draw16 s.seed (s.clStep cl % 2 ^ 40) (fld b 0x10 3) i 5
    let u24 := draw (2 * g) * 2 ^ 8 + draw (2 * g + 1) / 2 ^ 8
    let r := sampleRow (sRecords s core 2 (fld b 0x01 1)) (sRecords s core 2 (fld b 0x02 1)) (fld b 0x08 4) l
      ⟨x.invT, x.topp, x.topk, x.greedy⟩ u24 none
    let s := noteAcc s core .other r.2
    match r.1 with
    | .nonfinite => (noteNonfinite (s.modCluster cl fun c => c.modSlot n fun x => { x with nonfinite := true }) core, [])
    | .token t logp =>
      let v := stated s logp
      let s := v.2.modCluster cl fun c => c.modSlot n fun x => { x with token := some (t, v.1) }
      (if x.dropped then s.bump (Obj.strmDrops core) 1 else s,
        [{ data := slotRecord s cl x t v.1, last := true, vb := 32, void := x.dropped }])
def sampleRows (core b : Nat) : List (Nat × List Nat) → State → State × List SWord
  | [], s => (s, [])
  | r :: rs, s =>
    let a := sampleSlot core b r.1 r.2 s
    let q := sampleRows core b rs a.1
    (q.1, a.2 ++ q.2)

/-- The clk of a sampling entry (R253). -/
def sClk (s : State) (core b : Nat) : Nat := 64 + sRows b * (3 * ceilDiv (sVocab s core b) 128 + 64)
/-- The rows of a sampling entry: each 64-bit row word with its logits. -/
def sInput (s : State) (core b : Nat) (ws : Nat → List Nat) : List (Nat × List Nat) :=
  let V := sVocab s core b
  (s.inCodes core (fld b 0x0D 1) 0x02 (sRows b) (ws (fld b 0x0D 1))).zip
    (chunksOf V (s.inCodes core (fld b 0x0C 1) 0x01 (sRows b * V) (ws (fld b 0x0C 1))))

def sampleForm (s : State) (core : Nat) (c : Cur) (ws : Nat → List Nat) : Formed :=
  let b := c.blk
  let out := fld b 0x0E 1
  let r := sampleRows core b (sInput s core b ws) s
  { st := r.1, outq := if out < 16 then r.2.map fun w => (out, w) else [], clk := sClk s core b }

/-- The log-probabilities of MODE 1, one per row; free where the manual states none. -/
def scoreRows (core b : Nat) : List (Nat × List Nat) → State → State × List Nat
  | [], s => (s, [])
  | r :: rs, s =>
    let q := sampleRow (sRecords s core 2 (fld b 0x01 1)) (sRecords s core 2 (fld b 0x02 1)) (fld b 0x08 4) r.2
      ⟨bitsOf r.1 32 32, 0x3F800000, 0, false⟩ 0 (some (bitsOf r.1 0 32))
    let s := noteAcc s core .other q.2
    let v := match q.1 with
      | .nonfinite => stated (noteNonfinite s core) none
      | .token _ logp => stated s logp
    let rest := scoreRows core b rs v.2
    (rest.1, v.1 :: rest.2)
def scoreForm (s : State) (core : Nat) (c : Cur) (ws : Nat → List Nat) : Formed :=
  let b := c.blk
  let r := scoreRows core b (sInput s core b ws) s
  { st := r.1, outq := r.1.outWords core (fld b 0x0E 1) 32 r.2, clk := sClk s core b }

/-- What a sampling entry reads of the function table (R40, R251). -/
def sReads (s : State) (core : Nat) (c : Cur) : List (TableRec × Nat × Nat) :=
  s.fnReads 2 core (fld c.blk 0x01 1) ++ s.fnReads 2 core (fld c.blk 0x02 1)
/-- The class of sampling entries. -/
def sKind (form : State → Nat → Cur → (Nat → List Nat) → Formed) : EntryKind :=
  { op := 0x0F, needs := sNeeds, reads := sReads, form := form }

/-- `SAMPLING_SAMPLE`: MODE 0 (R252). -/
def execSamplingSample (core : Fin 256) (err : EntryErr) (s : State) : Host.Outcome State Fault Refusal :=
  runUnit (sKind sampleForm) 0 (fun b => fld b 0x00 1) core err s
/-- `SAMPLING_SCORE`: MODE 1 (R252). -/
def execSamplingScore (core : Fin 256) (err : EntryErr) (s : State) : Host.Outcome State Fault Refusal :=
  runUnit (sKind scoreForm) 1 (fun b => fld b 0x00 1) core err s

/-! ### LUT products (R254, R255) -/

def lFirst (b : Nat) : Bool := bitOf (fld b 0x03 1) 0
def lFinal (b : Nat) : Bool := bitOf (fld b 0x03 1) 1
def lK0 (b : Nat) : Nat := fld b 0x04 4
def lKLen (b : Nat) : Nat := fld b 0x08 4
def lKTotal (s : State) (core : Nat) (c : Cur) : Nat :=
  let e := lK0 c.blk + lKLen c.blk
  if lFinal c.blk then e
  else chainEnd s c.img 0x14 (fld c.blk 0x14 4) lFinal (fun b => lK0 b + lKLen b) 0x0E e (s.core core).todo
/-- The activation's rows of this entry's reduction indices, in the producer's index space. -/
def lPart (s : State) (core : Nat) (c : Cur) : Part :=
  ⟨fld c.blk 0x00 2, lKLen c.blk, fld c.blk 0x34 4, lKTotal s core c, lK0 c.blk⟩
def lNeeds (s : State) (core : Nat) (c : Cur) : List (Nat × Nat) :=
  let b := c.blk
  let P := scaleP (fld b 0x20 16)
  [(fld b 0x11 1, s.inWords core (fld b 0x11 1) c.re.entry.fmtA (fld b 0x00 2 * lKLen b)),
   (fld b 0x12 1, (lPart s core c).scaleWords (blockLen P.geom) P.scope)]
/-- Entry `i` of codebook record `n` of the active format table (R78). -/
def State.codebook (s : State) (group n i : Nat) : Nat :=
  match s.table 1 0 group with
  | some t => s.tblRd t (0x40 + 128 * n + 0x40 + 4 * i) 4
  | none => 0
/-- What a LUT product reads of the format table and, at its end, of the rescale table (R40, R78, R117). -/
def lReads (s : State) (core : Nat) (c : Cur) : List (TableRec × Nat × Nat) :=
  let b := c.blk
  let first := fld b 0x0E 2
  (match s.table 1 0 (s.role (clusterOf core)) with
    | some t => [(t, 0x40 + 128 * first, 128 * ((fld b 0x02 1 - 1) / max 1 (fld b 0x10 1) + 1))]
    | none => []) ++
  if lFinal b then s.rescaleReads core (fld b 0x0C 2) (fld b 0x02 1) else []
/-- The slot of one reduction index (R255). -/
def lutSlot (a : XNum) (value : Nat) : XNum :=
  if a.isNan then .nan else f32 (rne32 (a.mul (f32 value)))
/-- The activation of a LUT product: each code with its block scale, no tensor scale (R255). -/
def lutActs (fmt : Nat) (p : Part) (bl : Nat) (codes words : List Nat) : List XNum :=
  let sc := seqScales words (dedupRuns (codes.zipIdx.map fun q => p.block bl q.2))
  codes.zipIdx.map fun q =>
    match (sc.find? fun r => r.1 == p.block bl q.2).bind (·.2) with
    | some r => if r.c = 0xFF || !validTs r.ts then .nan else (codeVal fmt q.1).1.scale ((r.c : Int) - 127)
    | none => .nan
/-- The first element of a row that meets no scale, or another scope scale than its row met before in this entry or its chain (R107). -/
def lutSkew (o : Operand) (K : Nat) (met words : List Nat) : Option (Nat × Nat) :=
  match o.skew with
  | some q => some q
  | none =>
    (o.ts.zipIdx.find? fun t =>
      t.1 != (o.ts.drop (t.2 / max 1 K * K)).headD 0 || tsClash [(met.drop (t.2 / max 1 K)).headD 0] [t.1]).map fun t =>
        (t.2, (words.findIdx? fun w => swTs w == t.1).getD 0)

def lutForm (peers : List (Nat × Scout)) (s : State) (core : Nat) (c : Cur) (ws : Nat → List Nat) : Formed :=
  let b := c.blk
  let e := c.re.entry
  let co := s.core core
  let M := fld b 0x00 2
  let N := fld b 0x02 1
  let K := lKLen b
  let acc := fld b 0x14 4
  let P := scaleP (fld b 0x20 16)
  let words := ws (fld b 0x12 1)
  let codes := s.inCodes core (fld b 0x11 1) e.fmtA (M * K) (ws (fld b 0x11 1))
  let p := lPart s core c
  let bl := blockLen P.geom
  let o := readPart e.fmtA p bl codes words
  let met := if lFirst b then [] else (co.region acc).rowTs
  match lutSkew o K met words with
  | some q => .stop (skewFault s core (s.skewIn core (fld b 0x11 1) e.fmtA (M * K) (fld b 0x12 1) words.length q))
  | none =>
    let s := noteOperand s core P.tensor o
    let acts := lutActs e.fmtA p bl codes words
    let w := fmtBits e.fmtB
    let colBytes := 64 * ceilDiv (K * w) 512
    let cb (n : Nat) : Nat := fld b 0x0E 2 + n / max 1 (fld b 0x10 1)
    let cols := (List.range N).map fun n =>
      let bits := co.wRd (64 * fld b 0x18 4 + n * colBytes) colBytes
      (List.range K).map fun k => s.codebook (s.role (clusterOf core)) (cb n) (elemAt bits w k)
    let els := (chunksOf K acts).flatMap fun row => cols.map fun col => (row.zip col).map fun q => lutSlot q.1 q.2
    let s := if lFirst b then startRegion s core acc (M * N) 0 else s
    let s := enterRegion core acc .forward (els.foldl (fun n l => n + l.length) 2) els s
    let s := s.modCore core fun x => x.modRegion acc fun r =>
      { r with rowTs := tsJoin r.rowTs ((chunksOf K o.ts).map fun t => t.headD 0) }
    let clk := 32 + ceilDiv (M * K) 32 + ceilDiv (M * N * K) 4096 + if lFinal b then 16 else 0
    if !lFinal b then { st := s, clk := clk }
    else
      let s := combineRegion s core acc .forward
      let ents := (List.range N).filterMap fun n => s.rescale core (fld b 0x0C 2 + n)
      let last := lastOf (rsFmt (ents.headD 0))
      let vals := ((s.core core).pairs acc (M * N)).zipIdx.map fun q =>
        let x := (ents.drop (q.2 % max 1 N)).headD 0
        fwdOut q.1 ((o.ts.drop (q.2 / max 1 N * K)).headD minNormF32) 0x3F800000 (rsMul x) (rsOff x) last
      { fwdOutput s core c.re.plan.mb e 0 0xFF (fld b 0x30 3) (fld b 0x34 4) (fld b 0x38 4) (fld b 0x3C 4) M N ents vals peers with
        clk := clk }

/-- The class of LUT products. -/
def lKind (peers : List (Nat × Scout)) : EntryKind :=
  { op := 0x0E, needs := lNeeds, regions := fun _ _ c => [(fld c.blk 0x14 4, fld c.blk 0x00 2 * fld c.blk 0x02 1)], reads := lReads,
    store := fun b => (0, [fld b 0x18 4]), form := lutForm peers }
/-- `LUT_PRODUCT` (R255). -/
def execLutProduct (core : Fin 256) (err : EntryErr) (peers : List (Nat × Scout)) (s : State) : Host.Outcome State Fault Refusal :=
  runEntry (lKind peers) core err s

end Sys2Proof.Machine
end

