-- ==== Sys2Proof/Machine/Update.lean ====
section
/-! DEFINITION. The update unit (R205–R208): the optimiser pass, narrow weight copies and side weights. -/

namespace Sys2Proof.Machine

/-! ### The update parameter block (R205) -/

def uMode (b : Nat) : Nat := fld b 0x00 1
def uLayer (b : Nat) : Nat := fld b 0x02 2
def uCount (b : Nat) : Nat := fld b 0x04 4
def uElem0 (b : Nat) : Nat := fld b 0x08 4
def uIn (b : Nat) : Nat := fld b 0x0C 1
def uState (b : Nat) : Nat := fld b 0x0D 1
def uOut (b : Nat) : Nat := fld b 0x0E 1
def uScaleA (b : Nat) : ScaleP := scaleP (fld b 0x20 16)
def uScaleB (b : Nat) : ScaleP := scaleP (fld b 0x30 16)

/-- Whether a layer's moments are FP32 (R191), and the words of its state blocks (R206). -/
def momFp32 (s : State) (l : Nat) : Bool := bitOf (s.layerRec l 0x01 1) 1
def stateWords (s : State) (l : Nat) : Nat := if momFp32 s l then 8 else 6

/-- What an update entry reads of its layer record and its outlier list (R40, R114, R191). -/
def uReads (s : State) (_core : Nat) (c : Cur) : List (TableRec × Nat × Nat) :=
  (match s.table 9 0 1 with
    | some t => [(t, 6, 2), (t, 0x40 + 64 * uLayer c.blk, 64)]
    | none => []) ++ if uMode c.blk = 2 then s.outlierReads c.img (fld c.blk 0x14 4) else []
/-- The Sluices an update entry reads (R205). -/
def uNeeds (s : State) (core : Nat) (c : Cur) : List (Nat × Nat) :=
  let b := c.blk
  let blocks := uCount b / 32 * stateWords s (uLayer b)
  if uMode b = 0 then [(uIn b, s.inWords core (uIn b) 0x02 (uCount b)), (uState b, blocks)] else [(uIn b, blocks)]

/-! ### MODE 0 (R207) -/

/-- An element's state: w, cw, m, v as FP32 words. -/
structure Elem where
  w : Nat
  cw : Nat
  m : Nat
  v : Nat
  deriving DecidableEq, Repr

/-- What `update_elem` reads of the layer record. -/
structure OptP where
  opt : Nat
  comp : Bool
  beta1 : Nat
  beta2 : Nat
  eps : Nat
  wd : Nat
  deriving DecidableEq, Repr

def oneF32 : Nat := 0x3F800000

/-- The moments and the step `d` of `update_elem` before weight decay (R207). -/
def momentStep (r : OptP) (g lr : Nat) (x : Elem) : Nat × Nat × Nat :=
  match r.opt with
  | 1 => (x.m, x.v, fmul lr g)
  | 2 =>
    let m := fma32 r.beta1 x.m g
    (m, x.v, fmul lr m)
  | _ =>
    let m := fma32 r.beta1 x.m (fmul (fsub oneF32 r.beta1) g)
    let v := fma32 r.beta2 x.v (fmul (fsub oneF32 r.beta2) (fmul g g))
    (m, v, fmul lr (fdiv m (fadd (rne32 (f32 v).sqrt) r.eps)))
/-- `update_elem` of R207. -/
def updateElem (r : OptP) (pHi lr : Nat) (k : Int) (x : Elem) : Elem :=
  let g := fmul pHi (pow2F32 (-k))
  let q := momentStep r g lr x
  let d := if f32IsZero r.wd then q.2.2 else fma32 (fmul lr r.wd) x.w q.2.2
  if r.comp then
    let y := fsub x.cw d
    ⟨fadd x.w y, twoSumErr x.w y, q.1, q.2.1⟩
  else ⟨fsub x.w d, 0, q.1, q.2.1⟩

/-- The elements of a state block (R206), given as its bits. -/
def stateElems (fp32 : Bool) (tsM tsV bits : Nat) : List Elem :=
  (List.range 32).map fun i =>
    { w := rne32 (f32 (fld bits (4 * i) 4)), cw := rne32 (f32 (fld bits (0x80 + 4 * i) 4)),
      m := if fp32 then rne32 (f32 (fld bits (0x100 + 4 * i) 4))
        else rne32 (scaledNum 0x30 (fld bits (0x100 + i) 1) (fld bits 0x140 1) tsM),
      v := if fp32 then rne32 (f32 (fld bits (0x180 + 4 * i) 4))
        else rne32 (scaledNum 0x30 (fld bits (0x120 + i) 1) (fld bits 0x141 1) tsV) }
/-- The bits of a state block. -/
def stateBlock (fp32 : Bool) (xs : List Elem) (m v : QBlock) : Nat :=
  let base := packBits 32 (xs.map (·.w)) + packBits 32 (xs.map (·.cw)) * 2 ^ (8 * 0x80)
  if fp32 then base + packBits 32 (xs.map (·.m)) * 2 ^ (8 * 0x100) + packBits 32 (xs.map (·.v)) * 2 ^ (8 * 0x180)
  else base + packBits 8 m.codes * 2 ^ (8 * 0x100) + packBits 8 v.codes * 2 ^ (8 * 0x120) + m.c * 2 ^ (8 * 0x140) +
    v.c * 2 ^ (8 * 0x141)

/-- Blocks of 32 consecutive elements from ELEM0 (R206). -/
def momentBlocks (elem0 : Nat) (xs : List Nat) : List BlockIn :=
  (chunksOf 32 xs).zipIdx.map fun p =>
    { idx := elem0 / 32 + p.2, channel := 0,
      els := p.1.zipIdx.map fun q => { x := f32 q.1, idx := elem0 + 32 * p.2 + q.2 } }
/-- A moment quantised (R207): purpose 0x02, SR by default. -/
def quantMoment (s : State) (core elem0 : Nat) (P : ScaleP) (xs : List Nat) : QuantRes :=
  quantise P ((fmtOf P.fmt).getD fmtG8) (rmodeOf P.rmode .sr) (s.drawArgs core P.tensor 2) (s.hist core P.slot) [] none
    (momentBlocks elem0 xs)

/-- Update flags of this device (R201, R207): NAN, OPT_SAT, SILENT at their bits of R198. -/
def setUpdFlags (s : State) (bits : Nat) : State := (s.withTrain { s.train with updFlags := s.train.updFlags ||| bits })

def optimiserForm (s : State) (core : Nat) (c : Cur) (ws : Nat → List Nat) : Formed :=
  let b := c.blk
  let l := uLayer b
  let n := uCount b
  let fp32 := momFp32 s l
  let PA := uScaleA b
  let PB := uScaleB b
  let r : OptP := ⟨s.layerRec l 0x00 1, bitOf (s.layerRec l 0x01 1) 0, s.layerRec l 0x08 4, s.layerRec l 0x0C 4,
    s.layerRec l 0x10 4, s.layerRec l 0x14 4⟩
  let lr := (s.train.lr.drop (s.layerRec l 0x02 1)).headD 0
  let blocks := (chunksOf (stateWords s l) (ws (uState b))).map (packBits 512)
  let s := noteBadScale s core (if fp32 then 0 else
    sumOf (blocks.map fun x => (if fld x 0x140 1 = 0xFF then 1 else 0) + if fld x 0x141 1 = 0xFF then 1 else 0))
  let old := (blocks.flatMap (stateElems fp32 PA.fixedTs PB.fixedTs)).take n
  let grads := s.inCodes core (uIn b) 0x02 n (ws (uIn b))
  let new := (grads.zip old).map fun p => updateElem r (Pair.ofWord p.1).hi lr (s.gradK l) p.2
  let new := if r.opt = 3 then new else new.map fun x => { x with v := 0 }
  let loud := grads.any fun g => !(Pair.ofWord g).num.isZero
  let s := (s.withTrain { s.train with
    updated := if s.train.updated.contains l then s.train.updated else s.train.updated ++ [l],
    loud := if loud && !s.train.loud.contains l then s.train.loud ++ [l] else s.train.loud })
  let qm := quantMoment s core (uElem0 b) PA (new.map (·.m))
  let qv := quantMoment s core (uElem0 b) PB (new.map (·.v))
  let hasV := r.opt = 3
  let mb := c.re.plan.mb
  let s := if fp32 then s else noteQuant s core mb .other PA qm {}
  let s := if fp32 || !hasV then s else noteQuant s core mb .other PB qv {}
  let nan := new.any fun x => f32IsNan x.w
  let sat := (new.any fun x => f32IsInf x.w) || (!fp32 && (0 < qm.cnt.sat || (hasV && 0 < qv.cnt.sat)))
  let s := setUpdFlags s ((if nan then 1 else 0) ||| (if sat then 2 ^ 13 else 0))
  let vblk (i : Nat) : QBlock := if hasV then (((qv.blocks.drop i).head?).map (·.q)).getD {} else {}
  let out := (chunksOf 32 new).zipIdx.flatMap fun p =>
    wordsOf (stateWords s l) (stateBlock fp32 p.1 ((((qm.blocks.drop p.2).head?).map (·.q)).getD {}) (vblk p.2))
  -- counter words of the first moment's blocks, then of the second's (DESIGN CHOICE, log 69)
  let ctr := if fp32 then [] else counterWords qm.blocks ++ if hasV then counterWords qv.blocks else []
  { st := s, outq := s.outLines core (uOut b) out ++ s.outLines core (fld b 0x10 1) ctr,
    clk := 16 + ceilDiv n (if r.opt = 1 then 32 else 16) }

/-! ### MODES 1 and 2 (R208) -/

/-- The masters of a run of state blocks, exact. -/
def masters (s : State) (l n : Nat) (ws : List Nat) : List XNum :=
  (((chunksOf (stateWords s l) ws).map (packBits 512)).flatMap fun x => (List.range 32).map fun i => f32 (fld x (4 * i) 4)).take n
/-- The entries of every list of a schedule image, with their parameter blocks. -/
def imageEntries (s : State) (t : TableRec) : List (Entry × Nat) :=
  (t.layout.alts ++ t.layout.tail ++ t.layout.obs).flatMap fun a => (List.range a.count).map fun i =>
    let e := s.entryAt t (a.off + 16 * i)
    (e, s.blockAt t e)
/-- The F products of an image that read a weight. -/
def readersOf (s : State) (t : TableRec) (tensor : Nat) : List (Entry × Nat) :=
  (imageEntries s t).filter fun p => p.1.op == 0x01 && (scaleP (fld p.2 0x40 16)).tensor == tensor
/-- The row length of the logical weight tensor (R91, R98, R105): of a square-tiled weight its columns, of a weight in 1-D blocks, whose
rows are its channels, its reduction length; as the F products of the image that read the weight have it, else the innermost run of the
output stream, else the whole entry (DEDUCED, log 21). -/
def uCols (s : State) (core : Nat) (c : Cur) (P : ScaleP) : Nat :=
  let len (p : Entry × Nat) : Nat :=
    if (P.geom == 3) == (p.1.orient == 0) then max (fRowLen p.2) (fCol0 p.2 + fN p.2) else fKStart p.2 + fKLen p.2
  match (readersOf s c.img P.tensor).map len with
  | x :: xs => xs.foldl max x
  | [] =>
    match s.ctxOn core (uOut c.blk) with
    | some (_, d) => max 1 (d.cnt 0)
    | none => max 1 (uCount c.blk)
/-- The listed channels of a weight copy: those of the MODE 2 entry that writes its side rows (R115, R205; DEDUCED, log 21). -/
def copyOutliers (s : State) (c : Cur) (P : ScaleP) : List Nat :=
  ((imageEntries s c.img).findSome? fun p =>
    if p.1.op = 0x0B ∧ uMode p.2 = 2 ∧ (uScaleA p.2).tensor = P.tensor then some (s.outliers c.img (fld p.2 0x14 4)) else none).getD []
/-- The reduction index of element `i` of a weight copy. -/
def uChannel (P : ScaleP) (cols i : Nat) : Nat := if P.geom = 3 then i / max 1 cols else i % max 1 cols
/-- The masters of an entry as blocks of the copy: 32 × 32 tiles of the rows it covers, or consecutive runs along the reduction (R96, R98,
R105); the elements of listed channels are marked (R115). -/
def weightBlocks (P : ScaleP) (elem0 cols : Nat) (outliers : List Nat) (xs : List XNum) : List BlockIn :=
  if P.geom = 3 then tileBlocks (elem0 / max 1 cols) (xs.length / max 1 cols) cols outliers xs
  else
    let bl := blockLen P.geom
    (chunksOf bl xs).zipIdx.map fun p =>
      { idx := elem0 / bl + p.2, channel := (elem0 + bl * p.2) / max 1 cols,
        els := p.1.zipIdx.map fun q =>
          { x := q.1, idx := elem0 + bl * p.2 + q.2, outlier := outliers.contains (uChannel P cols (elem0 + bl * p.2 + q.2)) } }

def narrowForm (peers : List (Nat × Scout)) (s : State) (core : Nat) (c : Cur) (ws : Nat → List Nat) : Formed :=
  let b := c.blk
  let P := uScaleA b
  let n := uCount b
  let mb := c.re.plan.mb
  let cols := uCols s core c P
  let ins := weightBlocks P (uElem0 b) cols (copyOutliers s c P) (masters s (uLayer b) n (ws (uIn b)))
  let F := (fmtOf P.fmt).getD fmtF32
  let col (i : Nat) : Nat := i % max 1 cols
  let byCol := P.geom = 3 ∧ P.scope = 1
  let hist := s.hist core P.slot
  let all := peers ++ s.sharesOf core P.tensor mb
  let r := quantise P F (rmodeOf P.rmode .sr) (s.drawArgs core P.tensor 3) hist all (if byCol then some col else none) ins
  let chTs := if byCol ∧ !morePartsOf s core c.img P.tensor mb then channelScales P F hist all col cols ins else []
  let s := noteQuant s core mb .other P r {}
  { st := s, outq := quantOut s core (uOut b) (fld b 0x0F 1) (fld b 0x10 1) P r chTs, clk := 16 + 2 * ceilDiv n 32,
    share := r.toShare P }

/-- TS of SCALE_A's copy: its FIXED_TS, or the TS of the share record its MODE 1 entry wrote (DEDUCED, log 21). -/
def copyTs (s : State) (core : Nat) (P : ScaleP) : Nat :=
  if P.src = 2 then P.fixedTs else s.sramRd (clusterOf core) (shareBase P.share + 0x18) 4

/-- The side rows of a copy (R115, R208): listed channel by listed channel, each row in increasing output index. Their counter words take
runs of 32 elements along those rows (DEDUCED, log 19). -/
def sideWeightForm (s : State) (core : Nat) (c : Cur) (ws : Nat → List Nat) : Formed :=
  let b := c.blk
  let P := uScaleA b
  let n := uCount b
  let cols := uCols s core c P
  let ts := copyTs s core P
  let mode := rmodeOf P.rmode .sr
  let els := (masters s (uLayer b) n (ws (uIn b))).zipIdx.map fun p => (p.1, uElem0 b + p.2)
  let rows := (s.outliers c.img (fld b 0x14 4)).map fun k => els.filter fun p => uChannel P cols p.2 == k
  let convs := rows.map fun r => r.map fun p =>
    convert (f32 (rto32 (p.1.div (f32 ts)))) fmtG16 mode ((s.drawArgs core P.tensor 3).at mode p.2)
  let cnt := cntAll (convs.flatMap id)
  let s := addShare (noteCnt s core .other P.tensor 0x31 cnt) (clusterOf core) P.share P.tensor cnt
  let len := (convs.map List.length).foldl max 0
  { st := s
    outq := s.outWords core (uOut b) 16 (convs.flatMap fun r => r.map (·.code)) ++
      s.outLines core (fld b 0x10 1) (runCounters (convs.flatMap id) len 0 len 0)
    clk := 16 + ceilDiv n 32 }

/-- An update entry of the step's tail runs only once the health barrier found the step clean (R201). -/
def tailGated (s : State) (core : Nat) : Bool :=
  match currentEntry s core 0x0B with
  | some c => decide ((s.cluster (clusterOf core)).plan.length < c.re.plan.mb) && s.train.phase != .updating
  | none => false
/-- The class of update entries. -/
def uKind (form : State → Nat → Cur → (Nat → List Nat) → Formed) : EntryKind :=
  { op := 0x0B, needs := uNeeds, reads := uReads, form := form }
def runUpdate (v : Nat) (form : State → Nat → Cur → (Nat → List Nat) → Formed) (core : Nat) (err : EntryErr) (s : State) :
    Host.Outcome State Fault Refusal :=
  if tailGated s core then .next s else runUnit (uKind form) v uMode core err s

/-- `UPDATE_OPTIMISER`: MODE 0 (R207). -/
def execUpdateOptimiser (core : Fin 256) (err : EntryErr) (s : State) : Host.Outcome State Fault Refusal :=
  runUpdate 0 optimiserForm core err s
/-- `UPDATE_NARROW_COPY`: MODE 1 (R208). -/
def execUpdateNarrowCopy (core : Fin 256) (err : EntryErr) (peers : List (Nat × Scout)) (s : State) :
    Host.Outcome State Fault Refusal := runUpdate 1 (narrowForm peers) core err s
/-- `UPDATE_SIDE_WEIGHT`: MODE 2 (R208). -/
def execUpdateSideWeight (core : Fin 256) (err : EntryErr) (s : State) : Host.Outcome State Fault Refusal :=
  runUpdate 2 sideWeightForm core err s

end Sys2Proof.Machine
end

