-- ==== Sys2Proof/Machine/Schedule.lean ====
section
/-! DEFINITION. The checks of a schedule image at load (R42–R44, R58, R86, R98, R99, R114, R124, R132, R140, R151, R159,
R162, R165, R172, R182, R195, R205, R223, R243, R250, R251, R254, R270, R340). -/

namespace Sys2Proof.Machine

/-- An entry of an image with its parameter block, and where a plan places it: its part of the plan and its earliest beat in that
part. -/
structure EntV where
  core : Nat
  off : Nat
  part : Nat := 0
  beat : Nat := 0
  e : Entry
  b : Nat
  deriving DecidableEq, Repr

/-- The entries of a list of the image, in part `k` of a plan. -/
def entsOf (rd : Rd) (cl k : Nat) (a : AltList) : List EntV :=
  (List.range a.count).map fun i =>
    let e := entryOf (rd (a.off + 16 * i) 16)
    { core := 16 * cl + a.core % 16, off := a.off + 16 * i, part := k, beat := a.origin + e.earliest, e := e,
      b := rd (64 * e.param) (blockBytes e.op) }

/-! ### Shared fields -/

def maxPairs : Nat := 131072
def named (sl : Nat) : Bool := decide (sl < 16)
def namedOrNone (sl : Nat) : Bool := named sl || sl == 0xFF
def reservedZero (b : Nat) (fs : List (Nat × Nat)) : Bool := fs.all fun f => fld b f.1 f.2 == 0
def rmodeOk (v : Nat) : Bool := decide (v < 3)
/-- A scale parameter field (R84, R86, R99); `weight` allows square tiles (R96). -/
def scaleOk (weight : Bool) (w : Nat) : Bool :=
  let p := scaleP w
  (isForward p.fmt || p.fmt == 0x30) && decide (p.scope < 2) && decide (p.src < 3) && decide (p.rmode < 3) &&
    (weight || p.geom != 3) && bitsOf w 96 3 == 0 && bitsOf w 64 8 == 0 && bitsOf w 0 16 == 0 &&
    (if p.src = 2 then validTs p.fixedTs else p.fixedTs == 0)
/-- A pair region within the accumulator buffer. -/
def regionOk (base len : Nat) : Bool := decide (base + len ≤ maxPairs)
def apart (rs : List (Nat × Nat)) : Bool :=
  allBelow rs.length fun i => allBelow i fun j => !rangesMeet ((rs.drop i).headD (0, 0)) ((rs.drop j).headD (0, 0))
/-- An outlier list at an image offset in 64-byte units (R114). -/
def outliersOk (rd : Rd) (off k : Nat) : Bool :=
  let o := 64 * off
  let n := rd o 1
  let chs := (List.range n).map fun i => rd (o + 8 + 4 * i) 4
  decide (n ≤ 128) && rd (o + 1) 3 == 0 && rising chs && (chs.all fun c => decide (c < rd (o + 4) 4)) && (k == 0 || rd (o + 4) 4 == k)
def srcFmt (f : Nat) : Bool := f == 0x01 || f == 0x02 || isG f
def plainOut (f : Nat) : Bool := f == 0x01 || f == 0x31
/-- A format field of an operand that the entry may lack: 0, or a code of R69 (DEDUCED, log 24). -/
def fmtOrNone (f : Nat) : Bool := f == 0 || knownFmt f
def outlierLen (rd : Rd) (off : Nat) : Nat := rd (64 * off + 4) 4

/-! ### One entry on its own -/

/-- The table last accepted of a kind for a unit: what an image under load is checked against (DEDUCED, log 24). -/
def State.latest (s : State) (kind unit : Nat) : Option TableRec :=
  let ts := s.tables.filter fun t => hKind t.handle == kind && hId t.handle == scopeId (kindScope kind) unit
  (ts.find? fun t => !t.active).orElse fun _ => ts.find? (·.active)

/-- The pair regions that an F product names, whether or not it uses its mirror region (R124). -/
def fNamed (b : Nat) : List (Nat × Nat) :=
  (fAcc b, fM b * fN b) :: fSide b ++ if fMirAcc b = noneRegion then [] else [(fMirAcc b, fM b * fN b)]
/-- A column's direct output rounds under SR: its rescale entry asks for G16 with RMODE 2 (R86, R117, R124). -/
def fRoundsSr (s : State) (x : EntV) : Bool :=
  fFinal x.b && match s.latest 4 (clusterOf x.core) with
    | some t => (List.range (fN x.b)).any fun n =>
        let r := s.tblRd t (0x40 + 16 * (fRsFirst x.b + n)) 16
        decide (fRsFirst x.b + n < s.tblRd t 6 2) && rsFmt r == 0x31 && rsMode r == 2
    | none => false
def fEntryOk (s : State) (x : EntV) : Bool :=
  let b := x.b
  let w := scaleP (fld b 0x40 16)
  let a := scaleP (fld b 0x30 16)
  let out := fld b 0x50 16
  isForward x.e.fmtA && isForward x.e.fmtB && (x.e.orient == 0 || w.geom == 3) && between 1 1024 (fM b) && between 1 128 (fN b) &&
    decide (fld b 3 1 < 64) && decide (fSparse b < 3) && fKStart b % 32 == 0 && fKLen b % min (blockLen a.geom) (blockLen w.geom) == 0 &&
    named (fld b 0x28 1) && named (fld b 0x29 1) && namedOrNone (fld b 0x2A 1) && scaleOk false (fld b 0x30 16) &&
    scaleOk true (fld b 0x40 16) && a.fmt == x.e.fmtA && w.fmt == x.e.fmtB && (out == 0 || scaleOk false out) &&
    (out == 0 || (scaleP out).tensor == fld b 0x64 3) && ((out == 0 && !fRoundsSr s x) || decide (fCol0 b + fN b ≤ fRowLen b)) &&
    reservedZero b [(0x0E, 2), (0x67, 1), (0x74, 12)] && (fNamed b).all (fun r => regionOk r.1 r.2) && apart (fNamed b) &&
    (fSideAcc b == noneRegion || fFinal b) && namedOrNone (fld b 0x2B 1) && namedOrNone (fld b 0x2C 1) &&
    plainOut (fld b 0x2D 1) && plainOut (fld b 0x2E 1) && decide (fld b 0x2F 1 < 64) &&
    (!fMirror b || (fFirst b && fFinal b && fMirAcc b != noneRegion && named (fld b 0x2B 1) && named (fld b 0x2C 1))) &&
    ((fSparse b == 0 && !fBlockmap b) || (w.geom == 3 && x.e.orient == 0))

/-- The pair regions that a backward product names, with its outlier list. -/
def bNamed (rd : Rd) (b : Nat) : List (Nat × Nat) :=
  (if bDx b = noneRegion then [] else [(bDx b, bM b * bKW b)]) ++ (if bDw b = noneRegion then [] else [(bDw b, bXCols b * bNW b)]) ++
    if bSide b = noneRegion then []
    else [(bSide b, bM b * bSideLen ((List.range (rd (64 * fld b 0x30 4) 1)).map fun i => rd (64 * fld b 0x30 4 + 8 + 4 * i) 4) b)]
/-- The scale field of a backward weight: GEOM 3 and SCOPE tensor (R150); an entry of BW alone without a weight may leave it zero. -/
def bWeightField (op w : Nat) : Bool := (op == 0x03 && w == 0) || (scaleOk true w && (scaleP w).geom == 3 && (scaleP w).scope == 0)
def bEntryOk (rd : Rd) (x : EntV) : Bool :=
  let b := x.b
  let op := x.e.op
  let wide := op == 0x02 && between 1 2 (bSparse b)
  let rs := bNamed rd b
  isG x.e.fmtA && (if hasBx op then isForward x.e.fmtB else isG x.e.fmtB && x.e.fmtB == bXFmt b) &&
    x.e.orient == (if hasBx op then 1 else 0) && between 16 1024 (bM b) && bM b % 16 == 0 &&
    (if hasBw op then isG (bXFmt b) && named (fld b 0x39 1) else bXFmt b == 0) && bN0 b % 32 == 0 && bK0 b % 32 == 0 &&
    bNW b % 32 == 0 && between 32 (if wide then 256 else 128) (bNW b) && bKW b % 32 == 0 && between 32 128 (bKW b) &&
    (if bFrozen b then op == 0x04 && between 1 128 (bRank b) else bRank b == 0) &&
    (op != 0x02 || (bDw b == noneRegion && fld b 0x34 4 == 0)) && (op != 0x03 || bDx b == noneRegion) &&
    rs.all (fun r => regionOk r.1 r.2) && apart rs && (!bDeriv b || (bFinal b && named (fld b 0x3A 1))) && named (fld b 0x38 1) &&
    namedOrNone (fld b 0x39 1) && namedOrNone (fld b 0x3A 1) && namedOrNone (fld b 0x3B 1) &&
    (if bDeriv b then srcFmt (bZFmt b) || isForward (bZFmt b) else fmtOrNone (bZFmt b)) && (fld b 0x3D 1 == 0x01 || isG (fld b 0x3D 1)) && rmodeOk (fld b 0x3E 1) &&
    (fld b 0x30 4 == 0 || (hasBx op && bSide b != noneRegion && fld b 0x2C 4 != 0 && outliersOk rd (fld b 0x30 4) (bKTotal b))) &&
    ((bSparse b == 0 && !bMap b) || (scaleP (fld b 0x50 16)).geom == 3) &&
    bWeightField op (fld b 0x50 16) &&
    (if bDeriv b && isScaled (bZFmt b) then scaleOk false (fld b 0x60 16) && (scaleP (fld b 0x60 16)).fmt == bZFmt b
     else fld b 0x60 16 == 0) &&
    reservedZero b [(0x37, 1), (0x47, 1), (0x70, 16)]

def vEntryOk (x : EntV) : Bool :=
  let b := x.b
  let two := [2, 3, 8, 9].contains (fld b 0 1)
  let perRow := [4, 5].contains (fld b 0 1)
  let inOk (f : Nat) : Bool := srcFmt f || isForward f
  between 1 9 (fld b 0 1) && inOk x.e.fmtA && (if two then inOk x.e.fmtB && plainOut (fld b 2 1) && named (fld b 0x0D 1) else plainOut x.e.fmtB && namedOrNone (fld b 0x0D 1)) &&
    (!perRow || (fld b 0x18 4 == 1 && fld b 0x1C 4 == 0)) && rmodeOk (fld b 3 1) && between 1 65535 (fld b 4 4) && between 1 65536 (fld b 8 4) && named (fld b 0x0C 1) &&
    reservedZero b [(0x0E, 2), (0x13, 1), (0x20, 32)]

def cEntryOk (rd : Rd) (x : EntV) : Bool :=
  let b := x.b
  let A := x.e.fmtA
  let B := x.e.fmtB
  let span := 64 * fld b 0x24 4 + 64 + 8 * cElems b
  (match cConv b with
   | 1 => isForward A && isG B && scaleOk false (fld b 0x30 16) && (scaleP (fld b 0x30 16)).fmt == A
   | 2 => srcFmt A && (isForward B || B == 0x30) && scaleOk true (fld b 0x40 16) && (scaleP (fld b 0x40 16)).fmt == B &&
       (scaleP (fld b 0x40 16)).tensor == cTensor b
   | 3 => srcFmt A && (B == 0x01 || isG B)
   | 4 => A == 0x02 && B == 0x02 && decide (span ≤ 0x19E0000)
   | 5 => A == 0x02 && B == 0x02 && decide (span ≤ 0x19E0000)
   | _ => false) &&
    decide (fld b 1 1 < 4) && rmodeOk (fld b 2 1) && between 1 65535 (fld b 4 4) && between 1 65536 (fld b 8 4) &&
    namedOrNone (cIn b) && [0x0D, 0x0E, 0x0F, 0x10, 0x12].all (fun o => namedOrNone (fld b o 1)) &&
    (if cDeriv b then named (fld b 0x10 1) && (srcFmt (fld b 0x11 1) || isForward (fld b 0x11 1)) else fmtOrNone (fld b 0x11 1)) &&
    (!cMerge b || named (cSide b)) && (cConv b == 1 || fld b 0x30 16 == 0) && (cConv b == 2 || fld b 0x40 16 == 0) &&
    (if cDeriv b && isScaled (fld b 0x11 1) then scaleOk false (fld b 0x50 16) && (scaleP (fld b 0x50 16)).fmt == fld b 0x11 1
     else fld b 0x50 16 == 0) &&
    (fld b 0x18 4 == 0 || outliersOk rd (fld b 0x18 4) (fld b 8 4)) &&
    (decide (cConv b < 4) || regionOk (fld b 0x1C 4) (cElems b)) && reservedZero b [(0x13, 1), (0x23, 1), (0x2B, 1), (0x60, 32)]

def routerEntryOk (x : EntV) : Bool :=
  let b := x.b
  let mode := fld b 0 1
  decide (mode < 4) && between 1 8 (rTopk b) && decide (rTopk b ≤ rExperts b) && between 1 256 (rExperts b) &&
    between 1 65536 (rTokens b) && decide (1 ≤ rCap b) && decide (fld b 0x0C 1 < 2) && decide (fld b 0x0D 1 < 2) &&
    (if fld b 0x0D 1 = 0 then fld b 0x0A 2 == 0 else decide (rSpillExpert b < rExperts b)) && named (rOutA b) &&
    namedOrNone (rOutB b) && [0x10, 0x11, 0x12, 0x13].all (fun o => namedOrNone (fld b o 1)) && plainOut (rLFmt b) &&
    (isG (rXFmt b) || rXFmt b == 0x01) && (if mode = 0 then rD b == 0 && x.e.fmtA == rLFmt b
      else between 1 65536 (rD b) && (isG x.e.fmtA || x.e.fmtA == 0x01)) &&
    (match mode with
     | 0 => fmtOrNone x.e.fmtB
     | 1 => plainOut x.e.fmtB
     | _ => plainOut x.e.fmtB || x.e.fmtB == 0x30) &&
    rmodeOk (fld b 0x1C 1) && reservedZero b [(0x1D, 1), (0x22, 2), (0x27, 1), (0x2C, 20)]

def sampleEntryOk (x : EntV) : Bool :=
  let b := x.b
  x.e.fmtA == 0x01 && x.e.fmtB == 0x01 && decide (fld b 0 1 < 2) && between 1 5120 (fld b 4 4) && named (fld b 0x0C 1) && named (fld b 0x0D 1) && named (fld b 0x0E 1) &&
    reservedZero b [(3, 1), (0x0F, 1), (0x13, 1), (0x14, 44)]

def lutEntryOk (x : EntV) : Bool :=
  let b := x.b
  let p := scaleP (fld b 0x20 16)
  x.e.orient == 0 && isForward x.e.fmtA && isCodebook x.e.fmtB && between 1 1024 (fld b 0 2) && between 1 128 (fld b 2 1) && decide (fld b 3 1 < 4) &&
    lK0 b % 32 == 0 && lKLen b % 32 == 0 && lKLen b % blockLen p.geom == 0 && [1, 2, 4, 8, 16, 32, 64, 128].contains (fld b 0x10 1) &&
    named (fld b 0x11 1) && named (fld b 0x12 1) && regionOk (fld b 0x14 4) (fld b 0 2 * fld b 2 1) && scaleOk false (fld b 0x20 16) &&
    p.fmt == x.e.fmtA && reservedZero b [(0x13, 1), (0x1C, 4), (0x33, 1)]

/-- An update entry, with its layer's record in the table an image is checked against (R205). -/
def updateEntryOk (s : State) (rd : Rd) (x : EntV) : Bool :=
  let b := x.b
  let opt := (s.latest 9 0).map fun t => if uLayer b < s.tblRd t 6 2 then s.tblRd t (0x40 + 64 * uLayer b) 1 else 0
  let fp32 := ((s.latest 9 0).map fun t => bitOf (s.tblRd t (0x41 + 64 * uLayer b) 1) 1).getD false
  let moment (w : Nat) : Bool :=
    let p := scaleP w
    scaleOk false w && p.src == 2 && p.geom == 0 && (fp32 || p.fmt == 0x30)
  fmtOrNone x.e.fmtA && fmtOrNone x.e.fmtB && decide (uMode b < 3) && between 1 16777216 (uCount b) && uCount b % 32 == 0 &&
    named (uIn b) && named (uOut b) && namedOrNone (fld b 0x10 1) && (if uMode b = 0 then named (uState b) else uState b == 0xFF) &&
    (if uMode b = 1 then named (fld b 0x0F 1) else fld b 0x0F 1 == 0xFF) &&
    (if uMode b = 2 then outliersOk rd (fld b 0x14 4) 0 else fld b 0x14 4 == 0) && reservedZero b [(1, 1), (0x11, 3), (0x18, 8)] &&
    opt != some 0 &&
    (if uMode b = 0 then moment (fld b 0x20 16) && moment (fld b 0x30 16) else scaleOk true (fld b 0x20 16) && fld b 0x30 16 == 0)

def armEntryOk (s : State) (x : EntV) : Bool :=
  let b := x.b
  let n := fld b 0 1
  match s.latest 5 x.core with
  | none => false
  | some t =>
    let d (i : Nat) : Desc := descFrom (s.tblRd t (0x80 + 128 * i) 128)
    fmtOrNone x.e.fmtA && fmtOrNone x.e.fmtB && decide (n < s.tblRd t 6 2) && between 1 3 (fld b 1 1) && reservedZero b [(2, 6), (0x28, 24)] &&
      (fld b 1 1 != 2 || (d n).persist) && !((List.range (s.tblRd t 6 2)).any fun i => (d i).scaleLink == n)

/-- A reduction entry's range lies within ELEMS of its collective (R340). -/
def reduceEntryOk (s : State) (x : EntV) : Bool :=
  let b := x.b
  match s.latest 7 0 with
  | none => false
  | some t =>
    let c := s.tblRd t 0x28 8 + 64 * fld b 0 1
    let kind := s.tblRd t c 1
    fmtOrNone x.e.fmtA && fmtOrNone x.e.fmtB && decide (fld b 0 1 < s.tblRd t 7 1) && decide (fld b 8 8 + fld b 0x10 8 ≤ s.tblRd t (c + 8) 8) &&
      (kind != 1 || fld b 8 8 % 256 == 0) && (if kind = 2 then regionOk (fld b 4 4) (fld b 0x10 8) else fld b 4 4 == noneRegion) &&
      (if x.e.op = 0x09 ∧ kind ≠ 2 then named (fld b 1 1) else namedOrNone (fld b 1 1)) && reservedZero b [(2, 2), (0x18, 40)]

/-- The conditions on one entry that need no other entry (R44 and the chapters of the units). -/
def entryOk (s : State) (rd : Rd) (x : EntV) : Bool :=
  decide (x.e.earliest ≤ x.e.deadline) && bitsOf (rd x.off 16) 96 7 == 0 &&
    match x.e.op with
    | 0x01 => fEntryOk s x
    | 0x02 | 0x03 | 0x04 => bEntryOk rd x
    | 0x05 => vEntryOk x
    | 0x06 => cEntryOk rd x
    | 0x07 => armEntryOk s x
    | 0x08 => fmtOrNone x.e.fmtA && fmtOrNone x.e.fmtB
    | 0x09 | 0x0A => reduceEntryOk s x
    | 0x0B => updateEntryOk s rd x
    | 0x0C => x.e.fmtA == 0x31 && x.e.fmtB == 0x31 && outliersOk rd (fld x.b 0x0C 4) 0 && decide (0 < rd (64 * fld x.b 0x0C 4) 1) &&
        reservedZero x.b [(3, 1), (0x11, 47)]
    | 0x0D => routerEntryOk x
    | 0x0E => lutEntryOk x
    | 0x0F => sampleEntryOk x
    | _ => false

/-! ### Entries of one core list together -/

/-- The regions an entry names (R162): each accumulator, side, mirror, tile and reduction region. -/
def entRegions (rd : Rd) (x : EntV) : List (Nat × Nat) :=
  match x.e.op with
  | 0x01 => fNamed x.b
  | 0x02 | 0x03 | 0x04 => bNamed rd x.b
  | 0x06 => if cConv x.b = 4 ∨ cConv x.b = 5 then [(fld x.b 0x1C 4, cElems x.b)] else []
  | 0x09 | 0x0A => if fld x.b 4 4 = noneRegion then [] else [(fld x.b 4 4, fld x.b 0x10 8)]
  | 0x0C => [(fld x.b 4 4, fld x.b 0 2 * fld x.b 2 1)]
  | 0x0E => [(fld x.b 0x14 4, fld x.b 0 2 * fld x.b 2 1)]
  | _ => []
def entWid (x : EntV) : Nat := if hasBw x.e.op then fld x.b 0x34 3 else 0
/-- A spill (4) or reload (5) of a weight identity. -/
def isSpill (x : EntV) (conv wid : Nat) : Bool := x.e.op == 0x06 && cConv x.b == conv && fld x.b 0x20 3 == wid
/-- A spill or reload of the DW region of a contribution (R151, R162, R165). -/
def movesDw (x y : EntV) (conv : Nat) : Bool := isSpill y conv (entWid x) && fld y.b 0x1C 4 == bDw x.b

/-- The first reduction index of the chain that an F entry belongs to. -/
def chainStart (earlier : List EntV) (x : EntV) : Nat :=
  if fFirst x.b then fKStart x.b
  else ((earlier.find? fun y => y.e.op == 0x01 && fAcc y.b == fAcc x.b && fFirst y.b).map fun y => fKStart y.b).getD (fKStart x.b)
/-- At the end of a chain its reduction length is a multiple of both operands' block lengths (R96, R98), and the K of the list of its
side product (R114). -/
def chainLenOk (rd : Rd) (earlier : List EntV) (x : EntV) : Bool :=
  let n := fKStart x.b + fKLen x.b - chainStart earlier x
  !fFinal x.b || (n % blockLen (scaleP (fld x.b 0x30 16)).geom == 0 && n % blockLen (scaleP (fld x.b 0x40 16)).geom == 0 &&
    (fSideAcc x.b == noneRegion || ((earlier.find? fun y => y.e.op == 0x0C && fld y.b 4 4 == fSideAcc x.b).map fun y =>
      outlierLen rd (fld y.b 0x0C 4) == n).getD true))

/-- What an entry needs of the earlier ones of its core in the plan, newest first (R124, R151). A contribution of R151 counts from the
last spill of its region on (R164; DEDUCED, log 24). -/
def chainOk (rd : Rd) (earlier : List EntV) (x : EntV) : Bool :=
  match x.e.op with
  | 0x01 => chainLenOk rd earlier x && (fFirst x.b || ((earlier.find? fun y => y.e.op == 0x01 && fAcc y.b == fAcc x.b).map fun y =>
      !fFinal y.b && fKStart x.b == fKStart y.b + fKLen y.b).getD false)
  | 0x0E => lFirst x.b || ((earlier.find? fun y => y.e.op == 0x0E && fld y.b 0x14 4 == fld x.b 0x14 4).map fun y =>
      !lFinal y.b && lK0 x.b == lK0 y.b + lKLen y.b).getD false
  | 0x02 | 0x03 | 0x04 =>
    (!hasBx x.e.op || bFirst x.b || ((earlier.find? fun y => hasBx y.e.op && bDx y.b == bDx x.b).map fun y =>
      !bFinal y.b && bN0 x.b == bN0 y.b + bNW y.b && (fld x.b 0x30 4 == 0 || bSide y.b == bSide x.b)).getD false) &&
    (!hasBw x.e.op || bDwFirst x.b || (earlier.takeWhile fun y => !movesDw x y 4).any fun y =>
      (hasBw y.e.op && entWid y == entWid x && bDw y.b == bDw x.b) || movesDw x y 5)
  | _ => true
/-- While a DW region is pinned, no entry of another weight names a region that overlaps it (R162). -/
def pinOk (rd : Rd) (x : EntV) : List EntV → Bool
  | [] => true
  | y :: ys =>
    if movesDw x y 4 || (y.e.op == 0x09 && fld y.b 4 4 == bDw x.b) then true
    else ((hasBw y.e.op && entWid y == entWid x) || movesDw x y 5 ||
      !((entRegions rd y).any fun r => rangesMeet r (bDw x.b, bXCols x.b * bNW x.b))) && pinOk rd x ys
/-- What an entry asks of the later ones: a side product has its FINAL F entry (R132), a pinned region stays its own. -/
def laterOk (rd : Rd) (lay : SchedLayout) (x : EntV) (later : List EntV) : Bool :=
  match x.e.op with
  | 0x0C => later.any fun y => y.e.op == 0x01 && fFinal y.b && fSideAcc y.b == fld x.b 4 4 &&
      (((((lay.waits.drop (y.core % 16)).headD []).drop y.e.wait).headD ([], [])).2).contains x.e.out &&
      rd (64 * fld x.b 0x0C 4 + 4) 4 == fKStart y.b + fKLen y.b
  | 0x03 | 0x04 => !bDwFirst x.b || pinOk rd x later
  | _ => true
/-- The core's list over a plan: each entry beside the earlier and the later ones. -/
def listOk (rd : Rd) (lay : SchedLayout) (earlier : List EntV) : List EntV → Bool
  | [] => true
  | x :: xs => chainOk rd earlier x && laterOk rd lay x xs && listOk rd lay (x :: earlier) xs

/-- WAIT names only what the plan writes (R44): Sluices that a stream armed by the same list loads or an entry of the plan
names as OUT, and tokens that an entry of the plan names as OUT. -/
def waitOk (s : State) (lay : SchedLayout) (mine plan : List EntV) (x : EntV) : Bool :=
  let w := (((lay.waits.drop (x.core % 16)).headD []).drop x.e.wait).headD ([], [])
  let loads := mine.filterMap fun y =>
    if y.e.op = 0x07 ∧ fld y.b 1 1 ≠ 3 then
      (s.latest 5 y.core).bind fun t =>
        let d := descFrom (s.tblRd t (0x80 + 128 * fld y.b 0 1) 128)
        if d.store then none else some (d.sluice :: if d.scaleLink = 0xFF then [] else [(descFrom (s.tblRd t (0x80 + 128 * d.scaleLink) 128)).sluice])
    else none
  (w.1.all fun q => loads.any (fun l => l.contains q) || plan.any fun y => y.core == x.core && y.e.out == q) &&
    w.2.all fun t => plan.any fun y => y.e.out == t
/-- A reload has its spill earlier in the plan (R165): earlier in its core's list (`mine` is its list), or an entry of another core in an
earlier part, or in the same part with an earlier beat (DEDUCED, log 24). -/
def reloadOk (mine plan : List EntV) (x : EntV) : Bool :=
  let spills (y : EntV) : Bool := isSpill y 4 (fld x.b 0x20 3) && fld y.b 0x24 4 == fld x.b 0x24 4
  x.e.op != 0x06 || cConv x.b != 5 || (mine.takeWhile fun y => y != x).any spills ||
    plan.any fun y => spills y && y.core != x.core && (decide (y.part < x.part) || (y.part == x.part && decide (y.beat < x.beat)))

/-! ### Segments (R181, R182) -/

/-- The slots that an entry enters into each pair of a region: base, pairs, slots (R176–R180). -/
def slotsIn (rd : Rd) (x : EntV) : List (Nat × Nat × Nat) :=
  match x.e.op with
  | 0x01 =>
    let pb := min (blockLen (scaleP (fld x.b 0x30 16)).geom) (blockLen (scaleP (fld x.b 0x40 16)).geom)
    (fAcc x.b, fM x.b * fN x.b, fKLen x.b / pb) :: if fMirror x.b then [(fMirAcc x.b, fM x.b * fN x.b, fKLen x.b)] else []
  | 0x0C => [(fld x.b 4 4, fld x.b 0 2 * fld x.b 2 1, ceilDiv (rd (64 * fld x.b 0x0C 4) 1) 16)]
  | 0x0E => [(fld x.b 0x14 4, fld x.b 0 2 * fld x.b 2 1, lKLen x.b)]
  | 0x02 | 0x03 | 0x04 => (bNamed rd x.b).map fun r => (r.1, r.2, if r.1 = bDw x.b then bM x.b / 16 else bNW x.b / 16)
  | 0x06 => if cConv x.b = 5 then [(fld x.b 0x1C 4, cElems x.b, 1)] else []
  | 0x0A => if fld x.b 4 4 = noneRegion then [] else [(fld x.b 4 4, fld x.b 0x10 8, 1)]
  | _ => []
/-- The entry starts a region anew. -/
def freshIn (x : EntV) (base : Nat) : Bool :=
  match x.e.op with
  | 0x01 => fFirst x.b || base == fMirAcc x.b
  | 0x0C => true
  | 0x0E => lFirst x.b
  | 0x02 | 0x03 | 0x04 => if base = bDw x.b then bDwFirst x.b else bFirst x.b
  | _ => false
/-- The regions that an entry reads at its end, so that their closed segments are combined and freed (R181). -/
def combinedBy (x : EntV) : List Nat :=
  match x.e.op with
  | 0x01 => if fFinal x.b then [fAcc x.b, fMirAcc x.b] else []
  | 0x0E => if lFinal x.b then [fld x.b 0x14 4] else []
  | 0x02 | 0x04 => if bFinal x.b then [bDx x.b, bSide x.b] else []
  | 0x06 => if cConv x.b = 4 then [fld x.b 0x1C 4] else []
  | 0x09 => [fld x.b 4 4]
  | _ => []
/-- Regions in use: base, pairs, slots entered; with the greatest number of pairs closed so far, and whether every region
stays within 254 closed segments. -/
def segStep (rd : Rd) (st : List (Nat × Nat × Nat) × Nat × Bool) (x : EntV) : List (Nat × Nat × Nat) × Nat × Bool :=
  let regs := (slotsIn rd x).foldl (fun rs q =>
    let old := if freshIn x q.1 then 0 else ((rs.find? fun r => r.1 == q.1).map (·.2.2)).getD 0
    (q.1, q.2.1, old + q.2.2) :: rs.filter fun r => r.1 != q.1) st.1
  let segs (r : Nat × Nat × Nat) : Nat := (r.2.2 - 1) / 65536
  let occ := sumOf (regs.map fun r => segs r * r.2.1)
  (regs.filter fun r => !(combinedBy x).contains r.1, max st.2.1 occ, st.2.2 && regs.all fun r => decide (segs r ≤ 254))
/-- Segment store occupancy of a cluster over a plan (R182): the sum of the cores' greatest occupancies, which no order
of their entries exceeds (DEDUCED, log 24). -/
def segmentsOk (rd : Rd) (lists : List (List EntV)) : Bool :=
  let rs := lists.map fun l => l.foldl (segStep rd) ([], 0, true)
  rs.all (fun r => r.2.2) && decide (sumOf (rs.map fun r => r.2.1) ≤ 524288)

/-! ### Directories and plans -/

/-- The micro-batches that a plan can hold, each as its bucket and segments in order (R57, R61): one of each bucket below LAST, and one of
each number of segments of bucket LAST. An unsegmented micro-batch in bucket LAST runs the alternative of segment 0, as the first segment
of a segmented one does: the rules do not say that they are one alternative (DESIGN CHOICE, log 80). -/
def microbatches (rd : Rd) (role : Nat) : List (List (Nat × Nat)) :=
  if role = 1 then
    let h := rd (rd 0x18 8) 8
    let last := bitsOf h 56 4
    (List.range last).map (fun b => [(b, 0)]) ++
      (List.range (bitsOf h 49 7)).map fun n => (List.range (n + 1)).map fun sg => (last, sg)
  else
    let o := rd 0x10 8 + 0x30
    (List.range (((List.range 8).map fun i => rd (o + 2 * i) 2).takeWhile fun b => b != 0).length).map fun b => [(b, 0)]
/-- The buckets and segments that an image has alternatives of (R58, R61, R243), an unsegmented micro-batch of bucket LAST under segment 0
(DESIGN CHOICE, log 80). -/
def bucketKeys (rd : Rd) (role : Nat) : List (Nat × Nat) := (microbatches rd role).flatten.eraseDups
/-- The plans that the conditions over a plan are checked on (DEDUCED, log 24): one micro-batch, or any two in order where a step has more.
Every micro-batch can be the first of a plan and any two can follow each other, so an entry that lacks what it needs, or breaks what an
earlier one asks, does so in one of these. -/
def plansOf (rd : Rd) (role : Nat) : List (List (Nat × Nat)) :=
  let ms := microbatches rd role
  if role = 1 ∧ 1 < rd 8 2 then ms.flatMap fun a => ms.map fun b => a ++ b else ms
/-- The variants of a key: fallback and stash mode (R57). -/
def variantsOf (role f : Nat) : List VarKey :=
  if role = 1 then
    [false, true].flatMap fun rc =>
      [{ fenced := f, recompute := rc }, { fenced := f, xf8 := true, recompute := rc }, { fenced := f, wide := true, recompute := rc }]
  else [{ fenced := f }]
def fencedKeys : List Nat := (List.range 16) ++ [0x1F]
def VarKey.part (v : VarKey) (b : Nat × Nat) : VarKey := { v with bucket := b.1, segment := b.2 }
/-- The keys that an image must hold an alternative of, for every layer (R57, R58, R243). -/
def neededKeys (rd : Rd) (role : Nat) : List VarKey :=
  fencedKeys.flatMap fun f => (bucketKeys rd role).flatMap fun b => (variantsOf role f).map fun v => v.part b
/-- Each alternative points to 16 lists, that of a fenced core empty (R42). -/
def altOk (lay : SchedLayout) (l : Nat) (k : VarKey) : Bool :=
  allBelow 16 fun c => lay.alts.any fun a => a.layer == l && a.key == k && a.core % 16 == c && (k.fenced != c || a.count == 0)
/-- The list of a core over a plan: for each part its layers in order, then the tail. -/
def coreList (rd : Rd) (cl : Nat) (lay : SchedLayout) (v : VarKey) (bs : List (Nat × Nat)) (c : Nat) : List EntV :=
  (bs.zipIdx.flatMap fun p => (List.range (rd 0x0A 2)).flatMap fun l =>
    match lay.alts.find? fun a => a.layer == l && a.key == v.part p.1 && a.core % 16 == c with
    | some a => entsOf rd cl p.2 a
    | none => []) ++
    (lay.tail.filter fun a => a.key.fenced == v.fenced && a.key.wide == v.wide && a.core % 16 == c).flatMap (entsOf rd cl bs.length)
/-- The lists of an observation encoding under one fencing (R260). -/
def obsLists (rd : Rd) (cl : Nat) (lay : SchedLayout) (f : Nat) : List (List EntV) :=
  (List.range 16).map fun c => (lay.obs.filter fun a => a.key.fenced == f && a.core % 16 == c).flatMap (entsOf rd cl 0)
/-- The conditions over the 16 core lists of one plan (R44, R124, R132, R151, R162, R165, R182). -/
def planOk (s : State) (rd : Rd) (lay : SchedLayout) (lists : List (List EntV)) : Bool :=
  let plan := lists.flatten
  lists.all (listOk rd lay []) && segmentsOk rd lists && lists.all fun l => l.all fun x => waitOk s lay l plan x && reloadOk l plan x
/-- Weights read with ORIENT = 1 anywhere in the image have square tiles and one scale (R98, R205). -/
def transposedOk (all : List EntV) : Bool :=
  let weight (x : EntV) : Option ScaleP :=
    if x.e.op = 0x01 then some (scaleP (fld x.b 0x40 16)) else if hasBx x.e.op then some (scaleP (fld x.b 0x50 16)) else none
  let ts := all.filterMap fun x => if x.e.orient = 1 then (weight x).map (·.tensor) else none
  all.all fun x =>
    let p := if x.e.op = 0x0B ∧ uMode x.b = 1 then some (scaleP (fld x.b 0x20 16)) else weight x
    (p.map fun p => !ts.contains p.tensor || (p.geom == 3 && p.scope == 0)).getD true
/-- LP_MATCH asks for training formats and activation scales that no other row changes (R250): of F inputs and outputs, of LUT inputs, of
conversions to or from a scaled format but those to square tiles, which only weights have. -/
def lpMatchOk (all : List EntV) : Bool :=
  let ok (w : Nat) : Bool := let p := scaleP w; w == 0 || p.geom == 3 || !(p.scope == 0 && (p.src == 0 || p.src == 1))
  all.all fun x =>
    match x.e.op with
    | 0x01 => ok (fld x.b 0x30 16) && ok (fld x.b 0x50 16)
    | 0x06 => ok (fld x.b 0x30 16) && ok (fld x.b 0x40 16) && ok (fld x.b 0x50 16)
    | 0x0E => ok (fld x.b 0x20 16)
    | _ => true
/-- A schedule image for a cluster (R42, R44). -/
def scheduleOk (s : State) (cl : Nat) (lay : SchedLayout) (rd : Rd) : Bool :=
  let role := rd 6 1
  let all := (lay.alts ++ lay.tail ++ lay.obs).flatMap (entsOf rd cl 0)
  let rec_ := Rd.at rd (rd 0x10 8)
  rd 0 4 == 0x58445343 && rd 4 2 == 3 && between 1 2 role && rd 7 1 == scopeId 2 cl &&
    (if role = 1 then between 1 4096 (rd 8 2) && bucketsOk rd (rd 0x18 8) else rd 8 2 == 0 && rd 0x18 8 == 0 && rolloutRecOk rec_) &&
    between 1 4096 (rd 0x0A 2) && zeros rd [(0x38, 8)] &&
    (allBelow (rd 0x0A 2) fun l => (neededKeys rd role).all (altOk lay l)) && all.all (entryOk s rd) &&
    (fencedKeys.all fun f => ((variantsOf role f).all fun v => (plansOf rd role).all fun bs =>
      planOk s rd lay ((List.range 16).map (coreList rd cl lay v bs))) && planOk s rd lay (obsLists rd cl lay f)) &&
    transposedOk all && (role != 2 || !bitOf (rec_ 7 1) 0 || (rec_ 6 1 == 0 && lpMatchOk all))

end Sys2Proof.Machine
end

