-- ==== Sys2Proof/Machine/Tables.lean ====
section
/-! DEFINITION. Tables: the check of an image written to `TBL.ACTIVATE` (R37, R38), its acceptance as a shadow table
(R39, R442), and its activation for each group that uses it (R35, R40, R193, R413, R469). -/

namespace Sys2Proof.Machine

/-! ### The check of an image -/

/-- A region's bytes that are not zero, by offset. -/
def regionSnap (m : MemState) (base len : Nat) : SMap Nat :=
  (m.cells.filter fun c => decide (base ≤ c.1) && decide (c.1 < base + len)).map fun c => (c.1 - base, c.2.toNat)
/-- Reading measured bytes, as the readers of image checks do. -/
def snapReader (snap : SMap Nat) : Rd := fun off n => snapRd { snap := snap } off n
/-- The bytes of an image from its start. -/
def imageBytes (rd : Rd) (n : Nat) : List Byte := leBytes n (rd 0 n)
/-- Where an image of a kind says its signature is. -/
def sigOffset (kind : Nat) (rd : Rd) : Nat := if kind = 6 then rd 0x30 8 else rd 8 8
/-- A handle's fields (R36): kind, scope, scope id and a region within the table area. -/
def handleOk (s : State) (h : Nat) : Bool :=
  let k := hKind h
  decide (1 ≤ k) && decide (k ≤ 9) && hScope h == kindScope k && decide (1 ≤ hLength h) &&
    decide (hOffset h * 65536 + hBytes h ≤ s.reg Obj.memTblLen) &&
    match kindScope k with
    | 0 => hId h == 0
    | 1 => decide (hId h < 6)
    | 2 => hId h % 16 == 0
    | _ => true
/-- The structure of an image by its kind (R38). -/
def structureOk (s : State) (h : Nat) (lay : SchedLayout) (rd : Rd) : Bool :=
  match hKind h with
  | 1 => formatOk rd
  | 2 => functionOk 0x58444E46 rd
  | 3 => functionOk 0x58445644 rd
  | 4 => rescaleTableOk rd
  | 5 => streamTableOk rd
  | 6 => scheduleOk s (hId h / 16) lay rd
  | 7 => routingOk rd
  | 8 => powerTableOk (hId h) rd
  | _ => layerTableOk rd
/-- The signature of an image lies in its region and verifies (R37). -/
def imageSigned (rd : Rd) (kind len : Nat) : Bool :=
  let o := sigOffset kind rd
  decide (o + 132 ≤ len) && sigValid Config.lumquerixKey (imageBytes rd o) (leBytes 132 (rd o 132))
/-- Every check of R37. -/
def imageOk (s : State) (h : Nat) (snap : SMap Nat) : Bool :=
  handleOk s h && imageSigned (snapReader snap) (hKind h) (hBytes h) &&
    structureOk s h (if hKind h = 6 then Config.schedLayout snap else {}) (snapReader snap)

/-! ### Acceptance (R37–R39, R442) -/

/-- The cluster whose boundary a table of kinds 0x2 to 0x6 waits for. -/
def handleCluster (h : Nat) : Nat := hId h / 16
/-- The groups a table waits for at acceptance (R35, R469). -/
def tableGroups (s : State) (h : Nat) : List Nat :=
  match hKind h with
  | 1 => [1, 2].filter fun g => !(s.inRole g).isEmpty
  | 7 | 9 => [1].filter fun g => !(s.inRole g).isEmpty
  | 8 => []
  | _ => [s.role (handleCluster h)].filter fun g => g != 0
/-- An image measured: REG_TBL takes its handle and digest (R442). -/
def measureTable (s : State) (h : Nat) (digest : List Byte) : State :=
  (s.withMgt { s.mgt with regTbl := sha512 (s.mgt.regTbl ++ leBytes 8 h ++ digest) })
/-- Two tables of one kind and scope. -/
def sameSlot (a b : Nat) : Bool := hKind a == hKind b && hId a == hId b
/-- An accepted image as shadow table; a waiting one of its kind and scope is replaced. -/
def stageTable (s : State) (h : Nat) (snap : SMap Nat) : State :=
  let rd := snapReader snap
  let digest := sha512 (imageBytes rd (sigOffset (hKind h) rd + 132))
  let rec_ : TableRec := { handle := h, snap := snap, digest := leNat digest, waitGroups := tableGroups s h,
                           layout := if hKind h = 6 then Config.schedLayout snap else {} }
  let waiting := s.tables.any fun t => !t.active && sameSlot t.handle h
  let s := (s.withTables (s.tables.filter (fun t => t.active || !sameSlot t.handle h) ++ [rec_]))
  let s := measureTable s h digest
  if waiting then raise s 0x4A02 .note uMgt else s
/-- An image refused (R38). -/
def refuseTable (s : State) (code : Nat) : State := raise ((s.bump Obj.tblRefused 1).setReg Obj.tblActStatus 3) code .note uMgt

/-- A write of `Obj.tblActivate`, checked and applied. The check and its outcome are one step, so `TBL.ACT_STATUS` never reads 1, checking
(R68; DESIGN CHOICE, log 81). -/
def tblActivateWrite (h : Nat) (s : State) : Ans :=
    if bitsOf h 40 10 ≠ 0 then Ans.refuse stReserved s
    else
      let snap := regionSnap s.mem (s.regionBase h) (hBytes h)
      let s := s.setReg Obj.tblActivate h
      Ans.ok (if imageOk s h snap then (stageTable s h snap).setReg Obj.tblActStatus 2 else refuseTable s 0x4A01)
/-- TBL_ACTIVATE_WRITE (R36–R39): the handle and its image are checked; the outcome shows in `TBL.ACT_STATUS`. -/
def execTblActivateWrite (q : Req) (h : BitVec 64) (s : State) : Host.Outcome State Fault Refusal :=
  .next (dictWrite s q Obj.tblActivate (tblActivateWrite h.toNat))

/-! ### Activation (R35, R40, R469) -/

/-- The groups a table still waits for (R469). One that was accepted while a group used it waits, until its first switch, for every group
that uses it, also one formed since; after that, for those that have not switched. -/
def dueGroups (s : State) (t : TableRec) : List Nat :=
  match hKind t.handle with
  | 1 | 7 | 9 =>
    if t.active then t.waitGroups.filter fun g => !(s.inRole g).isEmpty
    else if t.waitGroups.isEmpty then [] else tableGroups s t.handle
  | 8 => []
  | _ => [s.role (handleCluster t.handle)].filter fun g => g != 0
/-- Whether a table waits at the boundary of a group, or for the next beat (group 0). -/
def tableDue (s : State) (t : TableRec) (g : Nat) : Bool :=
  let d := dueGroups s t
  (!t.active || !t.waitGroups.isEmpty) && (if g = 0 then d.isEmpty && !t.active else d.contains g)
/-- The table a group gives up when it switches. -/
def oldAfter (h g : Nat) (rest : List Nat) (t : TableRec) : Option TableRec :=
  if !t.active || !sameSlot t.handle h then some t
  else
    let readers := if t.oldFor.isEmpty then rest.filter fun x => !t.waitGroups.contains x else t.oldFor.filter (· != g)
    if readers.isEmpty then none else some { t with oldFor := readers }

/-- Every Sluice of a core emptied, a narrow one too (R264). -/
def emptySluices (s : State) (core : Nat) : State := forAll (List.range 16) (fun sl s => emptySlu s core sl) s
/-- The areas of a core's Sluices taken from its stream descriptor table (R264). -/
def setAreas (s : State) (core : Nat) (t : TableRec) : State :=
  forAll (List.range 16) (fun i s =>
    let w := snapRd t (0x40 + 4 * i) 4
    modSlu s core i fun q => { q with base := bitsOf w 16 16, size := bitsOf w 0 16 }) s
/-- Layer values under a new kind 0x9 table (R193): those below both counts stay. -/
def setLayers (s : State) (old : Nat) (t : TableRec) : State :=
  let n := snapRd t 6 2
  let keep := s.layers.filter fun p => decide (p.1 < min old n)
  let init := ((List.range n).filter fun l => decide (old ≤ l)).map fun l =>
    (l, ({ k := sint8 (snapRd t (0x43 + 64 * l) 1) } : Layer))
  (s.withLayers (smSetMany dLayer keep init))
/-- What the sequencers take from a routing table: coordinate, rank, neighbours (R330, R348); collectives start anew. -/
def expectNeighbour (s : State) (t : TableRec) (p : Nat) : Bool :=
  let T := torusOf t
  s.reg (Obj.rillPNbr p) == neighbour T.size T.self p
/-- `RILL.P_NBR_OK` of a port that has learned its neighbour; a mismatch is reported once (R330). -/
def checkNeighbour (s : State) (p : Nat) : State :=
  match s.routing with
  | none => s
  | some t =>
    let up := s.reg (Obj.rillPState p) == 2 || s.reg (Obj.rillPState p) == 3
    if !up then s
    else if expectNeighbour s t p then s.setReg (Obj.rillPNbrOk p) 1
    else raise (s.setReg (Obj.rillPNbrOk p) 0) 0x7A04 .degrade (uRill p)
def refreshRoutes (s : State) : State :=
  match s.routing with
  | none => s
  | some t =>
    let s := if snapRd t 6 1 < s.reg Obj.rillAltActive then s.setReg Obj.rillAltActive 0 else s
    let s := s.setReg Obj.rillCoord (torusOf t).self
    let s := s.setReg Obj.rillRank ((rankOf t (s.routeSet t)).getD 0xFFFF)
    forAll (List.range 6) (fun p s => checkNeighbour s p) s

/-- What follows the first switch to a table, by its kind. -/
def tableEffect (s : State) (h oldLayers : Nat) (t : TableRec) : State :=
  match hKind h with
  | 1 => (s.setReg Obj.tblActiveK1 h).setReg Obj.fmtCbCount (snapRd t 6 2)
  | 5 => setAreas (emptySluices (clearStreams s (hId h)) (hId h)) (hId h) t
  | 6 => refreshEpoch (s.setReg (Obj.schedClImage (handleCluster h)) h)
  | 7 => refreshRoutes ((s.setReg Obj.tblActiveK7 h).withRill { s.rill with colls := [] })
  | 8 => pstActivated s (hId h)
  | 9 => setLayers (s.setReg Obj.tblActiveK9 h) oldLayers t
  | _ => s
/-- A shadow region found to differ from its measurement (R40). -/
def dropShadow (s : State) (t : TableRec) : State :=
  let s := (s.withTables (s.tables.filter (fun x => x.active || x.handle != t.handle)))
  let s := raise (s.bump Obj.tblRefused 1) 0x4A04 .note uMgt
  if s.reg Obj.tblActivate = t.handle then s.setReg Obj.tblActStatus 3 else s
/-- A group switches to a table. -/
def switchTable (s : State) (t : TableRec) (g : Nat) : State :=
  let rest := (dueGroups s t).filter (· != g)
  let first := !t.active
  let oldLayers := s.layerCount
  let new : TableRec := { t with active := true, waitGroups := rest, bad := false }
  let others := (s.tables.filter fun x => x != t).filterMap (oldAfter t.handle g rest)
  let s := (s.withTables (others ++ [new]))
  let s := if first then tableEffect s t.handle oldLayers new else s
  if rest.isEmpty && s.reg Obj.tblActivate == t.handle then s.setReg Obj.tblActStatus 0 else s
/-- A table applied at the boundary of group `g`, or at the next beat (0); during a checkpoint stop it waits (R41,
R395). -/
def tableApply (s : State) (t : TableRec) (g : Nat) : State :=
  if s.held .checkpoint || !s.groupAtBoundary g then s
  else if !t.active && decide (regionSnap s.mem (s.regionBase t.handle) (hBytes t.handle) ≠ t.snap) then dropShadow s t
  else switchTable s t g
/-- TABLE_ACTIVATION_APPLY (R35, R40, R469). -/
def execTableActivationApply (h : BitVec 64) (g : Fin 3) (s : State) : Host.Outcome State Fault Refusal :=
  .next (match s.tables.find? fun t => t.handle == h.toNat && tableDue s t g with
    | none => s
    | some t => tableApply s t g)

end Sys2Proof.Machine
end

