-- ==== Sys2Proof/Machine/Roles.lean ====
section
/-! DEFINITION. Roles of clusters: requests (R64), their conditions (R23, R377, R407), leaving and joining a group (R24,
R65, R67), and the phases of the progress ledger (R388). -/

namespace Sys2Proof.Machine

/-! ### The progress ledger (R388, R389) -/

/-- A transition written to the ledger, unless it is frozen: 0 running, 1 update, 2 commit barrier passed, 3 committed,
4 discarded, 5 checkpoint stop, 6 restoring. -/
def ledgerPhase (s : State) (phase step : Nat) : State :=
  if s.ledger.frozen then s
  else (s.withLedger { s.ledger with phase := phase, step := step, beat := s.beat, bank := s.reg Obj.stepBank })

/-! ### Requests (R64) -/

/-- A role requested. -/
def requestRole (s : State) (cl v : Nat) : State :=
  (s.setReg (Obj.schedClRoleReq cl) v).modCluster cl fun c =>
    { c with roleReq := if v = s.role cl then none else some v, joining := none, deferred := false, reqAt := s.beat }
/-- A write of `(Obj.schedClRoleReq cl)`, checked and applied. -/
def roleReqWrite (cl : Nat) (v : Nat) (s : State) : Ans :=
    if 2 < v then Ans.refuse stRange s else Ans.ok (requestRole s cl v)
/-- ROLE_REQ_WRITE (R64): a later write replaces a pending request; the present role cancels it. -/
def execRoleReqWrite (q : Req) (cl : Fin 16) (v : BitVec 8) (s : State) : Host.Outcome State Fault Refusal :=
  .next (dictWrite s q (Obj.schedClRoleReq cl) (roleReqWrite cl v.toNat))

/-! ### Conditions (R23, R407) -/

/-- The schedule image in force for a cluster, where it is of a role. -/
def roleImage (s : State) (cl r : Nat) : Option TableRec :=
  s.tables.find? fun t => hKind t.handle == 6 && hId t.handle == scopeId 2 cl && t.active && !t.bad && snapRd t 6 1 == r
/-- The domains that a role needs ON. -/
def roleDomains (s : State) (cl : Nat) : List Nat :=
  [domFabric cl, domSram cl] ++ ((coresOf cl).filter fun n => !s.coreFenced n).map domCore
/-- The fields that every rollout image of a device shares (R239): EPOCH_BASE0, EPOCH_BASE1, EPOCH_LEN, VOCAB, DECODE. -/
def sharedFields (t : TableRec) : List Nat :=
  let o := snapRd t 0x10 8
  [snapRd t (o + 0x60) 8, snapRd t (o + 0x68) 8, snapRd t (o + 0x70) 8, snapRd t (o + 0x50) 4, snapRd t (o + 6) 1]
/-- An image for the rollout role that differs from the group's in a shared field. -/
def rolloutMismatch (s : State) (cl : Nat) : Bool :=
  (s.inRole 2).any fun m => m != cl && (roleImage s m 2).map sharedFields != (roleImage s cl 2).map sharedFields
/-- Whether a change to a role is refused (R23, R64, R239, R407, R433). -/
def roleRefused (s : State) (cl r : Nat) : Bool :=
  r != 0 && ((roleImage s cl r).isNone || (r == 2 && rolloutMismatch s cl) || s.reg (Obj.schedClFenced cl) == 0xFE || !(roleDomains s cl).all s.domOn ||
    s.reg Obj.secIdState == 2 || s.stopped)
/-- A table of the cluster, or one that is due at the boundary of group `g`, waits, and comes before the role change (R41). -/
def tablesWait (s : State) (cl g : Nat) : Bool :=
  s.tables.any fun t =>
    (!t.active && decide (2 ≤ hKind t.handle) && decide (hKind t.handle ≤ 6) && handleCluster t.handle == cl) ||
      (g != 0 && [1, 7, 9].contains (hKind t.handle) && tableDue s t g)
/-- A cluster that takes no part in a step now: at its group's step boundary, or idle, from the first beat after the request (R23). -/
def roleBoundary (s : State) (cl : Nat) : Bool :=
  if s.role cl = 0 then decide ((s.cluster cl).reqAt < s.beat) else s.groupAtBoundary (s.role cl)

/-! ### Joining (R24, R67) -/

/-- The step number that a group gives a joiner: the group's own, or, in the beat in which the group is formed, the
largest among its first members. -/
def joinStep (s : State) (cl : Nat) (members : List Nat) (formedAt : Option Nat) : Nat :=
  let own := s.reg (Obj.schedClStep cl)
  let theirs := (members.map fun m => s.reg (Obj.schedClStep m)).foldl max 0
  if members.isEmpty ∨ formedAt = some s.beat then max own theirs else theirs
/-- A cluster with no history of a group's step; slots that ended wait for their records. -/
def joinCluster (c : Cluster) : Cluster :=
  { c with joining := none, roleReq := none, deferred := false, rowMap := [], lengths := [], plan := [] }
/-- A cluster takes its role at its group's boundary. -/
def joinGroup (s : State) (cl r : Nat) : State :=
  let fresh := (s.inRole r).isEmpty
  let ms := if r = 1 then s.train.members else s.roll.members
  let formed := if r = 1 then s.train.formedAt else s.roll.formedAt
  let step := joinStep s cl ms formed
  let s := s.modCluster cl joinCluster
  let s := forAll (insertNum cl ms) (fun m s => s.setReg (Obj.schedClStep m) step) s
  let s := (s.setReg (Obj.schedClRole cl) r).setReg (Obj.schedClRoleReq cl) r
  let s :=
    if r = 1 then
      let g := s.train
      (s.withTrain { g with members := insertNum cl g.members, phase := if fresh then .boundary else g.phase,
                                 formedAt := if fresh then some s.beat else g.formedAt,
                                 earliest := if fresh then s.beat + 1 else g.earliest })
    else
      let g := s.roll
      (s.withRoll { g with members := insertNum cl g.members, phase := if fresh then .boundary else g.phase,
                                formedAt := if fresh then some s.beat else g.formedAt,
                                earliest := if fresh then s.beat + 1 else g.earliest })
  refreshEpoch s

/-- A change refused: the request reads the role in force again (R23). -/
def refuseRole (s : State) (cl : Nat) : State :=
  let s := s.modCluster cl fun c => { c with roleReq := none, joining := none, deferred := false }
  raise (s.setReg (Obj.schedClRoleReq cl) (s.role cl)) 0x4C01 .note (uCluster cl)
/-- A change that meets a checkpoint stop, reported once (R26). -/
def deferRole (s : State) (cl : Nat) : State :=
  if (s.cluster cl).deferred then s
  else raise (s.modCluster cl fun c => { c with deferred := true }) 0x4C02 .note (uCluster cl)
/-- A checked change takes effect: the cluster leaves its role and, where it takes another, waits for that group's
boundary or forms it. The last cluster to leave the rollout group leaves its end records written. -/
def changeRole (s : State) (cl r : Nat) : State :=
  let s := if s.role cl = 0 then s else leaveRole s cl
  let s := if (s.inRole 2).isEmpty then writeEnds s else s
  let s := s.modCluster cl fun c => { c with roleReq := none, deferred := false, joining := if r = 0 then none else some r }
  if r = 0 then s.setReg (Obj.schedClRoleReq cl) 0
  else if s.groupAtBoundary r && !tablesWait s cl r then joinGroup s cl r else s
/-- The pending change of a cluster at its boundary, or, for a cluster that has left its role already, its entry at the
boundary of its new group (R23, R26, R41, R64–R67). -/
def roleApply (s : State) (cl : Nat) : State :=
  let c := s.cluster cl
  match c.roleReq, c.joining with
  | some r, _ =>
    if !roleBoundary s cl || tablesWait s cl (s.role cl) then s
    else if s.held .checkpoint then deferRole s cl
    else if roleRefused s cl r then refuseRole s cl
    else changeRole s cl r
  | none, some r =>
    if s.held .checkpoint || !s.groupAtBoundary r || tablesWait s cl r then s
    else if roleRefused s cl r then refuseRole s cl
    else joinGroup s cl r
  | none, none => s

/-- ROLE_CHANGE_APPLY (R23, R26, R41, R64–R67). -/
def execRoleChangeApply (cl : Fin 16) (s : State) : Host.Outcome State Fault Refusal := .next (roleApply s cl)

end Sys2Proof.Machine
end

