-- ==== Sys2Proof/Machine/Plan.lean ====
section
/-! DEFINITION. The step plan of the training group: buckets and segments (R60–R62), the alternatives it is composed of
(R55–R59), its checks (R79, R117, R140, R158, R190, R192, R254, R315) and what resets at its origin. -/

namespace Sys2Proof.Machine

/-! ### Buckets and segments (R60–R62) -/

def bucketHeader (s : State) (t : TableRec) : Nat := s.tblRd t (s.tblRd t 0x18 8) 8
def bucketLast (s : State) (t : TableRec) : Nat := bitsOf (bucketHeader s t) 56 4
def bucketMaxSeg (s : State) (t : TableRec) : Nat := bitsOf (bucketHeader s t) 49 7
def bucketReserve (s : State) (t : TableRec) : Nat := bitsOf (bucketHeader s t) 28 21
def bucketMaxLen (s : State) (t : TableRec) (b : Nat) : Nat := bitsOf (bucketWord s t b) 40 24
def bucketBudget (s : State) (t : TableRec) (b : Nat) : Nat := bitsOf (bucketWord s t b) 20 20
/-- The smallest bucket that takes a length, or none. -/
def bucketOf (s : State) (t : TableRec) (len : Nat) : Option Nat :=
  (List.range (bucketLast s t + 1)).find? fun b => decide (len ≤ bucketMaxLen s t b)
/-- A length that the plan cannot take (R61). -/
def badLength (s : State) (t : TableRec) (len : Nat) : Bool :=
  len == 0 || ((bucketOf s t len).isNone && decide (bucketMaxSeg s t < ceilDiv len (bucketMaxLen s t (bucketLast s t))))
/-- The segments of a length beyond every bucket. -/
def cutLength (s : State) (t : TableRec) (len : Nat) : List PlanMb :=
  let last := bucketLast s t
  let m := bucketMaxLen s t last
  (List.range (ceilDiv len m)).map fun i => { tokens := min m (len - i * m), bucket := last, segment := i, segmented := true }
/-- Origins laid out from a beat by each part's budget. -/
def layOut (s : State) (t : TableRec) : Nat → List PlanMb → List PlanMb
  | _, [] => []
  | at_, m :: ms => { m with origin := at_ } :: layOut s t (at_ + bucketBudget s t m.bucket) ms
/-- The micro-batches in plan order: unsegmented ones in order of arrival, then the segments. -/
def planMbs (s : State) (t : TableRec) (origin : Nat) (lens : List Nat) : List PlanMb :=
  let whole := lens.filterMap fun l => (bucketOf s t l).map fun b => ({ tokens := l, bucket := b } : PlanMb)
  let cut := (lens.filter fun l => (bucketOf s t l).isNone).flatMap fun l => cutLength s t l
  layOut s t origin (whole ++ cut)
/-- The origin of the step's tail. -/
def tailOrigin (s : State) (t : TableRec) (origin : Nat) (ms : List PlanMb) : Nat :=
  origin + sumOf ((ms.filter fun m => !m.segmented).map fun m => bucketBudget s t m.bucket) +
    if ms.any (·.segmented) then bucketReserve s t else 0

/-! ### Variants (R57, R58, R209) -/

def elemsPerToken (s : State) (l : Nat) : Nat := s.layerRec l 0x1C 4
/-- A layer's fallback mask bit: its hold is nonzero, or it quantises nothing (R209). -/
def maskBit (s : State) (l : Nat) : Bool := elemsPerToken s l == 0 || (s.layer l).hold != 0
/-- The layers that take part in the mass fallback test. -/
def massLayers (s : State) : List Nat := (List.range s.layerCount).filter fun l => elemsPerToken s l != 0
def wideNow (s : State) : Bool := !(massLayers s).isEmpty && (massLayers s).all (maskBit s)
/-- `SCHED.CL_FENCED` as the key of an alternative. -/
def fencedKey (sample : Nat) : Nat := if sample = 0xFF then 0x1F else sample % 16
def listEntries (a : AltList) (origin mb : Nat) : List PlanEntry :=
  (List.range a.count).map fun i => { off := a.off + 16 * i, origin := origin + a.origin, mb := mb, layer := a.layer }
/-- The entries of a core for one part of the plan and one layer. -/
def layerEntries (lay : SchedLayout) (core : Nat) (key : VarKey) (l origin mb : Nat) : List PlanEntry :=
  match lay.alts.find? fun a => a.layer == l && a.key == key && a.core % 16 == core % 16 with
  | some a => listEntries a origin mb
  | none => []
def keyOfPart (s : State) (fenced : Nat) (wide rc : Bool) (m : PlanMb) (l : Nat) : VarKey :=
  { fenced := fenced, xf8 := !wide && maskBit s l, wide := wide, bucket := m.bucket, segment := m.segment, recompute := rc }
/-- The entries of a core for one part of the plan, from a layer on. -/
def partEntries (s : State) (t : TableRec) (core fenced : Nat) (wide rc : Bool) (from_ : Nat) (m : PlanMb) (mb : Nat) :
    List PlanEntry :=
  ((List.range (snapRd t 0x0A 2)).filter fun l => decide (from_ ≤ l)).flatMap fun l =>
    layerEntries t.layout core (keyOfPart s fenced wide rc m l) l m.origin mb
def tailEntries (t : TableRec) (core fenced : Nat) (wide : Bool) (origin mb : Nat) : List PlanEntry :=
  (t.layout.tail.filter fun a => a.key.fenced == fenced && a.key.wide == wide && a.core % 16 == core % 16).flatMap
    fun a => listEntries a origin mb
/-- The list of a core for the whole step. -/
def coreTodo (s : State) (t : TableRec) (core fenced : Nat) (wide : Bool) (ms : List PlanMb) (tail : Nat) : List PlanEntry :=
  (ms.zipIdx.flatMap fun p => partEntries s t core fenced wide false 0 p.1 (p.2 + 1)) ++
    tailEntries t core fenced wide tail (ms.length + 1)

/-! ### Checks of a plan -/

/-- The layers that an entry names (R150, R159, R205). -/
def entryLayers (e : Entry) (b : Nat) : List Nat :=
  (match e.op with
   | 0x02 | 0x03 | 0x04 => [fld b 0x40 2, fld b 0x42 2]
   | 0x06 => if cConv b = 3 then [fld b 0x14 2, fld b 0x16 2] else []
   | 0x0B => [fld b 0x02 2]
   | _ => []).filter (· != 0xFFFF)
/-- A run of rescale entries that leaves the table or mixes output formats (R117). -/
def rescaleBad (s : State) (core first n : Nat) : Bool :=
  let es := (List.range n).map fun i => s.rescale core (first + i)
  es.any (·.isNone) || es.any fun e => (e.map rsFmt) != ((es.headD none).map rsFmt)
def codebookBad (s : State) (group b : Nat) : Bool :=
  let n := max 1 (fld b 0x02 1)
  decide (s.reg Obj.fmtCbCount ≤ fld b 0x0E 2 + (n - 1) / max 1 (fld b 0x10 1)) || (s.table 1 0 group).isNone
def codebookFmtBad (s : State) (group : Nat) (e : Entry) (b : Nat) : Bool :=
  let n := (max 1 (fld b 0x02 1) - 1) / max 1 (fld b 0x10 1)
  match s.table 1 0 group with
  | none => false
  | some t => (List.range (n + 1)).any fun i => s.tblRd t (0x40 + 128 * (fld b 0x0E 2 + i)) 1 != e.fmtB
/-- The function and derivative records that an entry evaluates, each with its table kind. -/
def entryFns (e : Entry) (b : Nat) : List (Nat × Nat) :=
  match e.op with
  | 0x02 | 0x03 | 0x04 => if bDeriv b then [(3, fld b 0x3C 1)] else []
  | 0x05 => if fld b 0x00 1 = 1 then [(2, fld b 0x01 1)] else []
  | 0x06 => if cDeriv b then [(3, fld b 0x03 1)] else []
  | 0x0D => if fld b 0x00 1 = 0 ∨ fld b 0x00 1 = 2 then [(2, fld b 0x0F 1)] else []
  | 0x0F => [(2, fld b 0x01 1), (2, fld b 0x02 1)]
  | _ => []
/-- What is wrong with an entry of a plan at a step boundary, as its event. -/
def entryFault (s : State) (core : Nat) (t : TableRec) (p : PlanEntry) : Option Nat :=
  let e := s.entryAt t p.off
  let b := s.blockAt t e
  let group := s.role (clusterOf core)
  let fn (kind : Nat) : Bool := (entryFns e b).any fun q => q.1 == kind && (s.fnRecord kind core q.2).isNone
  if e.op = 0x0E && codebookBad s group b then some 0x3A05
  else if e.op = 0x0E && codebookFmtBad s group e b then some 0x4D08
  else if e.op = 0x01 && fFinal b && rescaleBad s core (fRsFirst b) (fN b) then some 0x3B03
  else if e.op = 0x0E && lFinal b && rescaleBad s core (fld b 0x0C 2) (fld b 0x02 1) then some 0x3B03
  else if fn 2 then some 0x3C02
  else if fn 3 then some 0x3D02
  else if (entryLayers e b).any fun l => decide (s.layerCount ≤ l) then some 0x3F07
  else none
/-- A barrier of the whole job: the health and the commit barrier. -/
def BarrierRole.job (r : BarrierRole) : Bool := r == .health || r == .commit
/-- The entry of a job barrier (R200). -/
def jobEntry (s : State) (t : TableRec) (p : PlanEntry) : Bool :=
  let e := s.entryAt t p.off
  e.op == 0x08 && ((t.layout.barriers[e.param]?).map (·.role.job)).getD false
/-- What a group in abort keeps of a list: the job barriers it has still to arrive at (R200). -/
def jobEntries (s : State) (t : TableRec) (ps : List PlanEntry) : List PlanEntry := ps.filter (jobEntry s t)
/-- The first fault of a cluster's lists. -/
def planFault (s : State) (cl : Nat) (t : TableRec) (lists : List (List PlanEntry)) : Option Nat :=
  (lists.zipIdx.flatMap fun p => p.1.filterMap (entryFault s (16 * cl + p.2) t)).head?
/-- A step's spill plans against the pools of its cluster (R315). -/
def poolsBad (s : State) (cl : Nat) (t : TableRec) (ms : List PlanMb) : Bool :=
  ms.any fun m =>
    let p := (t, planOffset s t (bitsOf (bucketWord s t m.bucket) 12 8))
    decide (s.reg (Obj.siphClT0Len cl) < planT0Share s p + 2 ^ 28) || decide (s.reg (Obj.siphClT1Len cl) < planT1Share s p) ||
      decide (s.reg (Obj.siphClT2Len cl) < planT2Share s p)

/-! ### What resets at a step origin -/

/-- The objects of a core that count within a step (R110, R147, R170, R187, R236). -/
def coreStepRegs (n : Nat) : List Nat :=
  [Obj.spillBlkSat n, Obj.spillBlkZero n, Obj.spillNanIn n, Obj.spillZeroBlocks n, Obj.fengEntries n, Obj.fengZblkSkipped n,
   Obj.fengWpassSkipped n, Obj.fengSideExtra n, Obj.fengAccWaits n, Obj.bengBxEntries n, Obj.bengBwEntries n, Obj.bengPairs n,
   Obj.bengAdapter n, Obj.bengWtInline n, Obj.bengWpassSkipped n, Obj.bengSideExtra n, Obj.bengSpills n, Obj.bengReloads n,
   Obj.accSatAdds n, Obj.accNanAdds n, Obj.accSegClosed n, Obj.accLongTiles n, Obj.sparsePruneDrops n,
   Obj.sparseAttnClear n]
/-- The objects of a cluster that count within a step (R51, R52, R61, R187, R236, R320). -/
def clusterStepRegs (c : Nat) : List Nat :=
  [Obj.schedClSlips c, Obj.schedClSlipMax c, Obj.schedClNbrSlips c, Obj.accSegStorePeak c,
   Obj.routeEntries c, Obj.routeRouted c, Obj.routeSpilled c, Obj.routeDropped c, Obj.routeFullExperts c, Obj.routeNonfinite c,
   Obj.siphClRedirects c, Obj.siphClRawBytes c, Obj.siphClStoredBytes c, Obj.siphClExpandSat c, Obj.siphClExpandZero c]
/-- The tally area reads as zero at each step origin (R195). -/
def clearTally (m : SMap Nat) : SMap Nat := m.filter fun p => decide (8 * p.1 < 0x19E0000) || decide (0x1C00000 ≤ 8 * p.1)
/-- A core at the origin of a step: its list, its history slots as they stand, nothing in progress. -/
def coreAtOrigin (todo : List PlanEntry) (c : Core) : Core :=
  { c with todo := todo, running := [], tokens := c.tokens.filter (·.2 == 0), accHeld := false, firsts := [], histOrigin := c.hist,
           scouts := [], preempts := 0, noPreempt := false }
def clusterAtOrigin (c : Cluster) : Cluster :=
  { clearStash c with sram := clearTally c.sram, mb := 0, layer := 0, recompute := false, recomputeReq := false, redirected := false,
                      health := 0, firsts := [], since := [], tailOpen := false }
/-- A cluster's counters, flags and lists at the origin of a step. -/
def originReset (s : State) (cl : Nat) (lists : List (List PlanEntry)) : State :=
  let s := s.clearRegs (clusterStepRegs cl)
  let s := forAll lists.zipIdx (fun p s => (s.clearRegs (coreStepRegs (16 * cl + p.2))).modCore (16 * cl + p.2) (coreAtOrigin p.1)) s
  s.modCluster cl clusterAtOrigin

/-! ### Plan building (R55) -/

/-- Whether the training group can build its next plan now. -/
def planReady (s : State) : Bool :=
  s.train.phase == .boundary && !s.train.members.isEmpty && !s.noNewStep && !s.train.stopped && !s.train.skewWait &&
    decide (s.train.earliest ≤ s.beat) && s.train.members.all (fun cl => s.lengthsHeld cl && decide ((s.cluster cl).lengthsAt < s.beat)) &&
    !(s.train.members.any fun cl => ((s.table 6 cl 1).map (·.bad)).getD false) && !anyBad s.layerReads && !(s.tables.any fun t => tableDue s t 1) &&
    s.rill.altReq.isNone && !(s.train.members.any fun cl => (s.cluster cl).roleReq.isSome) && !allClusters.any fun cl => (s.cluster cl).joining == some 1
/-- The host's data position names another step (R190): nothing runs, and the plan waits for a new word. -/
def skewStep (s : State) (lead : Nat) : State :=
  let s := raise s 0x3F06 .stepAbort (uCluster lead)
  let s := forAll s.train.members (fun cl s => s.modCluster cl fun c => { c with health := 0 }) s
  (s.withTrain { s.train with abort := false, skewWait := true })
/-- What stops a plan: an active region that differs from its measurement, or a fault with its event. -/
inductive PlanStop where
  | table (t : TableRec)
  | event (code : Nat)
  deriving DecidableEq, Repr
def stopPlan (s : State) (cl : Nat) (p : PlanStop) : State :=
  match p with
  | .table t => mismatchBy s (uCluster cl) t
  | .event code => raise s code .stepAbort (uCluster cl)
/-- What the plan builder reads of an image's bucket table and of its spill plans, and of the lists it lays out (R40). -/
def bucketReads (s : State) (t : TableRec) : List (TableRec × Nat × Nat) := [(t, 0x18, 8), (t, s.tblRd t 0x18 8, 136)]
def spillReads (s : State) (t : TableRec) (ms : List PlanMb) : List (TableRec × Nat × Nat) :=
  ms.flatMap fun m =>
    let i := bitsOf (bucketWord s t m.bucket) 12 8
    let o := planOffset s t i
    [(t, s.tblRd t 0x18 8 + 256 + 8 * i, 8), (t, o, 0x40 + 32 * s.tblRd t (o + 4) 4)]
def listReads (s : State) (t : TableRec) (lists : List (List PlanEntry)) : List (TableRec × Nat × Nat) :=
  lists.flatten.flatMap fun p => let e := s.entryAt t p.off; [(t, p.off, 16), (t, 64 * e.param, blockBytes e.op)]
/-- The lengths of a cluster's micro-batches, in order of arrival. -/
def stepLengths (s : State) (cl : Nat) : List Nat := (List.range (s.mbPerStep cl)).map fun i => (s.cluster cl).length i
/-- The parts of a cluster's plan, or what stops it (R55, R61). -/
def planParts (s : State) (cl : Nat) (t : TableRec) (origin : Nat) : List PlanMb ⊕ PlanStop :=
  match firstDiffer s (bucketReads s t ++ s.layerReads) with
  | some x => .inr (.table x)
  | none =>
    if (stepLengths s cl).any (badLength s t) then .inr (.event 0x4A20) else .inl (planMbs s t origin (stepLengths s cl))
/-- What stops the lists of a plan. -/
def planCheck (s : State) (cl : Nat) (t : TableRec) (ms : List PlanMb) (lists : List (List PlanEntry)) : Option PlanStop :=
  match firstDiffer s (spillReads s t ms ++ listReads s t lists) with
  | some x => some (.table x)
  | none => if poolsBad s cl t ms then some (.event 0x6A13) else (planFault s cl t lists).map .event
/-- The health bits that the variants in force set (R57, R58, R61, R198). -/
def variantFlags (s : State) (ms : List PlanMb) (sample : Nat) (wide : Bool) : Nat :=
  (if ms.any (·.segmented) then 2 ^ 14 else 0) ||| (if sample = 0xFF then 0 else 2 ^ 15) ||| (if wide then 2 ^ 8 else 0) |||
    if (massLayers s).any (maskBit s) then 2 ^ 7 else 0
/-- A cluster's part of the plan, whose first part begins at the origin; where it cannot be built, nothing of the step runs but the arrivals
at the job barriers (R200). -/
def planCluster (s : State) (origin cl : Nat) (wide : Bool) : State :=
  match s.table 6 cl 1 with
  | none => originReset s cl (List.replicate 16 [])
  | some t =>
    let sample := s.reg (Obj.schedClFenced cl)
    let tails := (List.range 16).map fun c => jobEntries s t (tailEntries t c (fencedKey sample) wide origin 1)
    match planParts s cl t origin with
    | .inr q => stopPlan ((originReset s cl tails).modCluster cl fun c => { c with plan := [], fencedSample := sample }) cl q
    | .inl ms =>
      let tail := tailOrigin s t origin ms
      let lists := (List.range 16).map fun c => coreTodo s t c (fencedKey sample) wide ms tail
      let cut := ((stepLengths s cl).filter fun l => (bucketOf s t l).isNone).length
      let stop := planCheck s cl t ms lists
      let s := originReset s cl (if stop.isSome then tails else lists)
      let s := s.modCluster cl fun c => { c with plan := ms, fencedSample := sample, mb := 1 }
      let s := setHealth (s.bump (Obj.schedClSegmented cl) cut) cl (variantFlags s ms sample wide)
      match stop with
      | some q => stopPlan s cl q
      | none => s
/-- A step-abort of a plan ends the whole group's step: of each list only the arrivals at the job barriers are left (R200). -/
def dropLists (s : State) : State :=
  if !s.train.abort then s
  else forAll s.train.members (fun cl s => forAll (coresOf cl) (fun n s =>
    s.modCore n fun c => { c with todo := ((s.table 6 cl 1).map fun t => jobEntries s t c.todo).getD [] }) s) s
/-- The group at the origin of a step. -/
def groupAtOrigin (s : State) (wide : Bool) : State :=
  ((s.withTrain { s.train with
      phase := .running, origin := s.beat, atOrigin := s.train.members, formedAt := none, mask := s.reg Obj.stepBlockMask,
      lr := (List.range 16).map fun i => s.reg (Obj.stepLr0 + i), bank := s.reg Obj.stepBank, epochBank := s.reg Obj.epochBank,
      abort := false, wide := wide, tally := none, updFlags := 0, held := [],
      loud := [], updated := [], firsts := [], healthWord := 0x0000FFFF00000000 }).withRill { s.rill with colls := [], holdRaised := false, missRaised := false })
/-- The plan built at the step boundary (R55, R57, R190, R388). -/
def planBuild (s : State) (lead : Nat) : State :=
  let step := s.reg (Obj.schedClStep lead)
  if s.reg Obj.stepDataPos % 2 ^ 64 ≠ step then skewStep s lead
  else
    let wide := wideNow s
    let was := s.train.wide
    let s := groupAtOrigin s wide
    let s := forAll s.train.members (fun cl s => planCluster s s.beat cl wide) s
    let s := if wide && !was then raise s 0x3F03 .degrade (uCluster lead) else s
    ledgerPhase (dropLists s) 0 step

/-- TRAINING_PLAN_BUILD (R55). -/
def execTrainingPlanBuild (s : State) : Host.Outcome State Fault Refusal :=
  .next (match s.train.members with
    | lead :: _ => if planReady s then planBuild s lead else s
    | [] => s)

/-! ### Layer boundaries (R54, R316) -/

/-- The rest of a core's step under the recompute alternatives: the layers after the present one of the part in progress,
and every later part. -/
def recomputeTodo (s : State) (t : TableRec) (cl core : Nat) (todo : List PlanEntry) : List PlanEntry :=
  let c := s.cluster cl
  let f := fencedKey c.fencedSample
  let n := c.plan.length
  (todo.filter fun p => decide (p.mb < c.mb) || (p.mb == c.mb && decide (p.layer < c.layer))) ++
    (c.plan.zipIdx.flatMap fun q =>
      if q.2 + 1 < c.mb then []
      else partEntries s t core f s.train.wide true (if q.2 + 1 = c.mb then c.layer else 0) q.1 (q.2 + 1)) ++
    todo.filter fun p => decide (n < p.mb)
/-- LAYER_BOUNDARY: the next layer segment of the part in progress begins; a recompute request takes effect. -/
def execLayerBoundary (cl : Fin 16) (s : State) : Host.Outcome State Fault Refusal :=
  match s.table 6 cl 1 with
  | none => .next s
  | some t =>
    let c := s.cluster cl
    if s.role cl ≠ 1 || s.train.phase != .running || c.mb = 0 || c.plan.length < c.mb || snapRd t 0x0A 2 ≤ c.layer + 1 then .next s
    else
      let s := s.modCluster cl fun c => { c with layer := c.layer + 1 }
      if !c.recomputeReq || c.recompute then .next s
      else
        let s := forAll (coresOf cl) (fun n s => s.modCore n fun x => { x with todo := recomputeTodo s t cl n x.todo }) s
        .next (setHealth (s.modCluster cl fun c => { c with recompute := true }) cl (2 ^ 9))

end Sys2Proof.Machine
end

