-- ==== Sys2Proof/Machine/Barriers.lean ====
section
/-! DEFINITION. Entries that complete (R51), segments that close (R181), and barriers (R52, R200). -/

namespace Sys2Proof.Machine

/-! ### Completion (R51) -/

/-- This device's number among the devices of the job: its rank. -/
def State.rank (s : State) : Nat := s.reg Obj.rillRank
/-- The participants that stand for a cluster: itself, its die, the device (R52). -/
def partsOfCluster (s : State) (cl : Nat) : List Nat := [uCluster cl, uDie (cl / 4), uDevice + s.rank]
/-- One slip more in the account of each participant, with its lateness (R52). -/
def addSince (late : Nat) (parts : List Nat) (c : Cluster) : Cluster :=
  { c with since := parts.foldl (fun m p => let x := smGet (fun _ => (0, 0)) m p; smSet (fun _ => (0, 0)) m p (x.1 + 1, max x.2 late)) c.since }
/-- A slip in a cluster: counted, flagged, and the first of a step reported. -/
def noteSlipFor (s : State) (cl : Nat) (parts : List Nat) (late : Nat) : State :=
  let s := ((s.bump (Obj.schedClSlips cl) 1).raiseTo (Obj.schedClSlipMax cl) late).modCluster cl (addSince late parts)
  raiseFirstCl (setHealth s cl (2 ^ 10)) cl 0x4A10 .note
/-- A slip of a cluster that no core has made: a commit held up (R257). -/
def noteSlip (s : State) (cl late : Nat) : State := noteSlipFor s cl (partsOfCluster s cl) late
/-- The slip of a core's entry, where it is late (R51). -/
def entrySlip (s : State) (core late : Nat) : State :=
  if late = 0 then s else noteSlipFor s (clusterOf core) (uCore core :: partsOfCluster s (clusterOf core)) late
/-- The lateness of a completion in the present beat. -/
def lateness (s : State) (r : RunEntry) : Nat := s.beat - (r.plan.origin + r.entry.deadline)
/-- What a completed entry counts (R147, R170, R236). -/
def countEntry (s : State) (core : Nat) (r : RunEntry) : State :=
  match r.entry.op with
  | 0x01 => s.bump (Obj.fengEntries core) 1
  | 0x02 => s.bump (Obj.bengBxEntries core) 1
  | 0x03 => s.bump (Obj.bengBwEntries core) 1
  | 0x04 =>
    let b := ((s.image core).map fun t => s.blockAt t r.entry).getD 0
    (s.bump (Obj.bengPairs core) 1).bump (Obj.bengAdapter core) (if bFrozen b then 1 else 0)
  | 0x0D => s.bump (Obj.routeEntries (clusterOf core)) 1
  | _ => s
/-- The encoding in progress is complete once none of its entries is left (R260): entries of part 0. -/
def encodingDone (s : State) (cl : Nat) : State :=
  let c := s.cluster cl
  let left := (coresOf cl).any fun n => (s.core n).todo.any (fun p => p.mb == 0) || (s.core n).running.any fun r => r.plan.mb == 0
  if c.encoding.isNone || left then s else s.modCluster cl fun c => { c with encoded := c.encoding, encoding := none }
/-- An entry leaves: its token is committed. -/
def finishEntry (s : State) (core : Nat) (r : RunEntry) : State :=
  let s := s.modCore core fun c =>
    { c with running := c.running.filter (· != r),
             tokens := if 16 ≤ r.entry.out then c.tokens ++ [(r.entry.out, r.plan.mb)] else c.tokens }
  if r.plan.mb = 0 then encodingDone s (clusterOf core) else s
/-- A mirror record takes its slot when its entry completes (R145, R147). -/
def noMirror : Nat → Nat := fun _ => 0
def writeMirror (s : State) (core : Nat) (r : RunEntry) : State :=
  match r.mirror with
  | some q => (s.modCore core fun c => { c with mirror := smSet noMirror c.mirror q.1 q.2 }).bump (Obj.fengMirror core) 1
  | none => s
/-- ENTRY_COMPLETE: the last result of a started entry commits; one that a fault stopped never completes (R107, R146). -/
def execEntryComplete (core : Fin 256) (i : BitVec 8) (s : State) : Host.Outcome State Fault Refusal :=
  match (s.core core).running[i.toNat]? with
  | none => .next s
  | some r =>
    if !r.formed || r.stopped || r.wait.isSome then .next s
    else
      let p := pushOut core (r.outq.length + 1) r.outq s
      if p.1.isEmpty then
        .next (finishEntry (entrySlip (writeMirror (countEntry p.2 core r) core r) core (lateness p.2 r)) core r)
      else .next (p.2.modCore core fun c => { c with running := c.running.map fun x => if x = r then { x with outq := p.1 } else x })

/-- SEGMENT_CLOSE (R181): a region whose count stands at 65,536. -/
def execSegmentClose (core : Fin 256) (base : BitVec 32) (s : State) : Host.Outcome State Fault Refusal :=
  if ((s.core core).regions.any fun r => r.base == base.toNat && decide (65536 ≤ r.slots)) then .next (closeSegment s core base.toNat)
  else .next s

/-! ### Participants (R52) -/

/-- Whether a participant stands for a core of this device. -/
def partCovers (s : State) (part core : Nat) : Bool :=
  let n := part % 2 ^ 24
  match part / 2 ^ 24 with
  | 1 => n == core
  | 2 => n == clusterOf core
  | 3 => n == dieOf core
  | 9 => n == s.rank
  | _ => false
def partLocal (s : State) (part : Nat) : Bool :=
  match part / 2 ^ 24 with
  | 9 => part % 2 ^ 24 == s.rank
  | _ => true
def coversOf (s : State) (part : Nat) : List Nat := (List.range 256).filter fun c => partCovers s part c
/-- The clusters that a participant stands for. -/
def partClusters (s : State) (part : Nat) : List Nat :=
  allClusters.filter fun cl => (coresOf cl).any (partCovers s part)

/-! ### Barriers of the images (R52) -/

/-- A barrier: the group whose images list it, its number there, and what it is. Images of a group that give a number the same role and
participants name one barrier (DEDUCED, log 75). -/
structure Barrier where
  group : Nat
  num : Nat
  desc : BarrierDesc
  deriving DecidableEq, Repr

/-- The schedule images that a group runs, in cluster order. -/
def groupImages (s : State) (g : Nat) : List TableRec := (s.inRole g).filterMap fun cl => s.table 6 cl g
def imageBarrier (g b : Nat) (t : TableRec) : Option Barrier := (t.layout.barriers[b]?).map fun d => ⟨g, b, d⟩
/-- The barriers of a number in force, those of the training group first. -/
def State.barriers (s : State) (b : Nat) : List Barrier :=
  [1, 2].flatMap fun g => ((groupImages s g).filterMap (imageBarrier g b)).eraseDups
/-- The first barrier of a number that meets a condition. -/
def State.barrierWhere (s : State) (b : Nat) (f : Barrier → Bool) : Option Barrier := (s.barriers b).find? f
/-- The barrier that a core's own image gives a number. -/
def ownBarrier (s : State) (core b : Nat) : Option Barrier := (s.image core).bind (imageBarrier (s.role (clusterOf core)) b)
/-- The barrier of a role in a group. -/
def State.barrierOf (s : State) (g : Nat) (role : BarrierRole) : Option Barrier :=
  ((groupImages s g).flatMap fun t =>
    (t.layout.barriers.zipIdx.filter fun p => p.1.role == role).map fun p => (⟨g, p.2, p.1⟩ : Barrier)).head?
/-- An arrival is at this barrier. -/
def Barrier.takes (q : Barrier) (a : Arrival) : Bool := a.barrier == q.num && a.group == q.group && a.parts == q.desc.parts
def isBarrierEntry (s : State) (core b : Nat) (p : PlanEntry) : Bool :=
  match s.image core with
  | some t => let e := s.entryAt t p.off; e.op == 0x08 && e.param == b
  | none => false
/-- A core still has to arrive at a barrier. -/
def coreOwes (s : State) (core : Nat) (q : Barrier) : Bool :=
  ownBarrier s core q.num == some q && (s.core core).todo.any (isBarrierEntry s core q.num)
/-- A core waits at a barrier. -/
def coreWaits (s : State) (core : Nat) (q : Barrier) : Bool :=
  ownBarrier s core q.num == some q && (s.core core).running.any fun r => r.wait == some q.num
def hasArrived (s : State) (q : Barrier) (part : Nat) : Bool := s.arrivals.any fun a => q.takes a && a.part == part
/-- The training group is in abort at a job barrier (R200). -/
def Barrier.passed (s : State) (q : Barrier) : Bool := q.desc.role.job && q.group == 1 && s.train.abort
/-- Every participant has arrived; a group in abort arrives at a job barrier for all its own participants (R200). -/
def allArrived (s : State) (q : Barrier) : Bool :=
  q.desc.parts.all fun p => hasArrived s q p || (q.passed s && partLocal s p)

/-! ### Arrival (R52, R200) -/

/-- Slips and largest lateness of a participant since its last barrier. -/
def partSlips (s : State) (part : Nat) : Nat × Nat :=
  (partClusters s part).foldl (fun a cl =>
    let x := smGet (fun _ => (0, 0)) (s.cluster cl).since part
    (a.1 + x.1, max a.2 x.2)) (0, 0)
/-- The health flags of the clusters of the training group (R198). -/
def groupHealth (s : State) : Nat := s.train.members.foldl (fun h cl => h ||| (s.cluster cl).health) 0
/-- The flags that an arrival carries: at the health barrier GRAD_SAT, where this device's reduction saturated (R198, R341; DEDUCED, log
75); at the commit barrier the update flags (R201), with DUE and HOLD at bits 16 and 17 (R382). -/
def arrivalFlags (s : State) (role : BarrierRole) : Nat :=
  match role with
  | .health => groupHealth s &&& 8
  | .commit =>
    s.train.updFlags ||| (if s.ckpt.due && !s.mgt.restarting then 2 ^ 16 else 0) ||| (if s.reg Obj.ckptState = 2 then 2 ^ 17 else 0)
  | _ => 0
/-- A participant of this device arrives once each of its cores has; one in abort at a job barrier waits for none (R200). -/
def arriveLocal (s : State) (q : Barrier) (deadline part : Nat) : State :=
  let cs := coversOf s part
  if hasArrived s q part || !partLocal s part || (!q.passed s && cs.any fun c => coreOwes s c q) || !cs.any (fun c => coreWaits s c q) then s
  else
    let w := partSlips s part
    let f := arrivalFlags s q.desc.role
    let s := (s.withArrivals (s.arrivals ++
      [{ barrier := q.num, group := q.group, parts := q.desc.parts, part := part, slips := w.1, late := w.2, beat := s.beat, deadline := deadline,
         abort := s.train.abort, flags := f }]))
    let s := forAll (partClusters s part) (fun cl s => s.modCluster cl fun c => { c with since := smErase c.since part }) s
    if part / 2 ^ 24 = 9 then s.emit (.arrival q.num part w.1 w.2 f s.train.abort) else s
/-- A barrier entry leaves the list `rest` follows: it completes late where its arrival is, whatever the others' (R51), and its participants
that have all their cores there arrive. -/
def arriveEntry (s : State) (core : Nat) (t : TableRec) (rest : List PlanEntry) (re : RunEntry) : State :=
  let s := entrySlip (openTail s core re.plan) core (lateness s re)
  let s := s.modCore core fun c =>
    { c with todo := rest, running := c.running ++ [{ re with formed := true, wait := some re.entry.param }] }
  match imageBarrier (s.role (clusterOf core)) re.entry.param t with
  | some q => forAll q.desc.parts (fun p s => arriveLocal s q (re.plan.origin + re.entry.deadline) p) s
  | none => s
/-- A group in abort arrives at its next job barrier at once and passes over what stands before it. -/
def abortArrive (s : State) (core : Nat) (t : TableRec) : State :=
  match (s.core core).todo.dropWhile fun p => !jobEntry s t p with
  | [] => s.modCore core fun c => { c with todo := [] }
  | p :: ps => arriveEntry s core t ps { plan := p, entry := s.entryAt t p.off }
/-- A core's barrier entry starts. -/
def entryArrive (s : State) (core : Nat) : State :=
  match s.image core with
  | none => s
  | some t =>
    if s.role (clusterOf core) = 1 && s.train.abort then abortArrive s core t
    else match currentEntry s core 0x08 with
      | none => s
      | some c =>
        if !c.fresh || c.img.bad || !startsNow s core c then s
        else if s.tblDiffers c.img c.re.plan.off 16 then mismatch s core c.img
        else arriveEntry s core t ((s.core core).todo.drop 1) c.re
/-- A barrier at which a message's participant has still to arrive. -/
def awaits (s : State) (part : Nat) (q : Barrier) : Bool := q.desc.parts.contains part && !partLocal s part && !hasArrived s q part
/-- A message of another participant. -/
def messageArrive (s : State) (b part slips late flags : Nat) (abort : Bool) : State :=
  match s.barrierWhere b (awaits s part) with
  | none => s
  | some q =>
    (s.withArrivals (s.arrivals ++
      [{ barrier := b, group := q.group, parts := q.desc.parts, part := part, slips := slips, late := late, beat := s.beat, abort := abort,
         flags := flags }]))

/-- What the participants of this device carried to a barrier. -/
def ownFlags (s : State) (q : Barrier) : Nat :=
  (s.arrivals.filter fun a => q.takes a && partLocal s a.part).foldl (fun f a => f ||| a.flags) 0

/-- BARRIER_ARRIVE (R52). -/
def execBarrierArrive (src : ArriveSrc) (s : State) : Host.Outcome State Fault Refusal :=
  .next (match src with
    | .entry core => entryArrive s core
    | .message b part slips late flags abort => messageArrive s b.toNat part.toNat slips.toNat late.toNat flags.toNat abort)

/-! ### Completion (R19, R52) -/

/-- The dies that take part in a barrier. -/
def barrierDies (s : State) (q : Barrier) : List Nat :=
  (List.range 4).filter fun d => q.desc.parts.any fun p => (List.range 256).any fun core => partCovers s p core && dieOf core == d
/-- What the slips of the others add for a cluster: each of its participants adds those of every other one. -/
def othersSlips (s : State) (q : Barrier) (cl : Nat) : Nat :=
  let as_ := s.arrivals.filter q.takes
  sumOf ((q.desc.parts.filter fun p => (partClusters s p).contains cl).map fun p => sumOf ((as_.filter fun a => a.part != p).map (·.slips)))
/-- A complete barrier lets its participants go: each adds the slips of the others, and what a die that takes part has written is visible to
the others that do (R19). -/
def releaseBarrier (s : State) (q : Barrier) : State :=
  let s := forAll allClusters (fun cl s => s.bump (Obj.schedClNbrSlips cl) (othersSlips s q cl)) s
  let s := s.withMem (settleWrites s.mem (barrierDies s q))
  let s := forAll ((List.range 256).filter fun core => coreWaits s core q) (fun core s =>
    forAll ((s.core core).running.filter fun r => r.wait == some q.num) (fun r s => finishEntry s core r) s) s
  (s.withArrivals (s.arrivals.filter fun a => !q.takes a))
/-- A barrier that gates no commit and no route set, and is complete. -/
def plainComplete (s : State) (q : Barrier) : Bool :=
  (q.desc.role == .plain || q.desc.role == .shares) && !q.desc.parts.isEmpty && allArrived s q
/-- BARRIER_COMPLETE (R52): the barriers that gate no commit and no route set. -/
def execBarrierComplete (b : BitVec 16) (s : State) : Host.Outcome State Fault Refusal :=
  match s.barrierWhere b.toNat (plainComplete s) with
  | none => .next s
  | some q => .next (releaseBarrier s q)

end Sys2Proof.Machine
end

