-- ==== Sys2Proof/Machine/Drain.lean ====
section
/-! DEFINITION. The drain of a checkpoint to its targets (R385–R387) and the serving of a partner's copy (R394), as far as
the network carries them. -/

namespace Sys2Proof.Machine

/-- Offsets and lengths of an image's parts in 64 KiB units, without its header. -/
def imageUnits (bytes : Nat) : List (Nat × Nat) :=
  (List.range (ceilDiv bytes 65536)).map fun k =>
    let lo := if k = 0 then 0x200 else 65536 * k
    (lo, min bytes (65536 * (k + 1)) - lo)
/-- The offset of a generation's slot. -/
def slotOffset (s : State) (gen : Nat) : Nat := gen % 2 * s.reg Obj.ckptT3SlotLen
/-- A write of image bytes from a physical address. -/
def imageWrite (s : State) (use : RdmaUse) (src dst rkey off n : Nat) : RdmaReq :=
  { use := use, addr := dst + off, rkey := rkey, bytes := leBytes n (memRead s.mem (src + off) n), len := n }
/-- Where a target's image goes: its queue pairs, address and key. -/
structure Dest where
  qps : List Nat
  addr : Nat
  rkey : Nat
def partnerDest (s : State) : Dest :=
  { qps := [s.reg Obj.ckptPartnerQp], addr := s.reg Obj.ckptPartnerAddr + 64 + slotOffset s s.ckpt.draining,
    rkey := s.reg Obj.ckptPartnerRkey }
def storeDest (s : State) : Dest :=
  { qps := storeQps s, addr := s.reg Obj.ckptStoreAddr + slotOffset s s.ckpt.draining, rkey := s.reg Obj.ckptStoreRkey }
def serveDest (s : State) : Dest :=
  { qps := [s.reg Obj.ckptServeQp], addr := s.reg Obj.ckptServeAddr, rkey := s.reg Obj.ckptServeRkey }
/-- Every part of an image from 0x200 upward, over the queue pairs in turn. -/
def sendImage (s : State) (use : RdmaUse) (src bytes : Nat) (d : Dest) : State :=
  forAll (imageUnits bytes).zipIdx (fun p s =>
    qpSend s (d.qps.getD (p.2 % max 1 d.qps.length) 0xFFFF) (imageWrite s use src d.addr d.rkey p.1.1 p.1.2)) s
/-- The header, last. -/
def sendHeader (s : State) (use : RdmaUse) (src : Nat) (d : Dest) (head : Nat) : State :=
  let s := (s.withCkpt { s.ckpt with heads := s.ckpt.heads ++ [head] })
  qpSend s (d.qps.headD 0xFFFF) (imageWrite s use src d.addr d.rkey 0 0x200)
/-- Requests of a use that wait for their acknowledgement. -/
def outstanding (s : State) (use : RdmaUse) : Bool := s.net.qps.any fun q => q.2.out.any fun r => r.use == use
/-- The physical address of the slot a serve sends. -/
def serveSrc (s : State) (k : Nat) : Nat := s.reg Obj.ckptPinBase + 64 + k * s.reg Obj.ckptT3SlotLen

/-- The identity word of the partner arrives: another MAGIC fails the target; the same feed, or an unknown
one, is a placement conflict, and the image goes out all the same (R386, R458). -/
def partnerIdentity (s : State) (data : List Byte) : State :=
  if s.drainOf 1 ≠ 1 then s
  else if leNat (data.take 4) ≠ 0x58445049 then drainFail s 1
  else
    let feed := leNat ((data.drop 4).take 1)
    let clash := decide (feed = s.reg Obj.resFeed ∨ feed = 0xF ∨ s.reg Obj.resFeed = 0xF)
    let s := s.setReg Obj.ckptConflict (if clash then 1 else 0)
    let s := if clash then raise s 0x8A06 .note uDevice else s
    sendImage s (.drain 1) (s.reg Obj.ckptT1Base) s.ckpt.bytes (partnerDest s)
/-- A request of the device has completed: when nothing of an image is outstanding, its header follows (R385, R394). -/
def rdmaDone (s : State) (r : RdmaReq) (data : List Byte) : State :=
  match r.use with
  | .mailbox _ => s
  | .partnerId => partnerIdentity s data
  | .drain t =>
    if s.drainOf t ≠ 1 || outstanding s (.drain t) || s.ckpt.heads.contains t then s
    else sendHeader s (.drain t) (s.reg Obj.ckptT1Base) (if t = 1 then partnerDest s else storeDest s) t
  | .serve =>
    match s.ckpt.serving with
    | none => s
    | some k => if outstanding s .serve || s.ckpt.heads.contains 3 then s else sendHeader s .serve (serveSrc s k) (serveDest s) 3

/-- The partner target starts with a read of the partner's identity word. -/
def startPartner (s : State) : State :=
  let i := s.reg Obj.ckptPartnerQp
  if !decide (i < 2048) || !s.qpValid i || s.reg Obj.ckptPartnerAddr = 0 then s
  else
    let s := setDrain s 1 1
    if s.qpState i ≠ 1 then drainFail s 1
    else qpSend s i { kind := .read, use := .partnerId, addr := s.reg Obj.ckptPartnerAddr, rkey := s.reg Obj.ckptPartnerRkey, len := 64 }
def startStore (s : State) : State :=
  let qs := storeQps s
  if qs.isEmpty || s.reg Obj.ckptStoreAddr = 0 then s
  else
    let s := setDrain s 2 1
    if qs.any fun i => s.qpState i != 1 then drainFail s 2
    else sendImage s (.drain 2) (s.reg Obj.ckptT1Base) s.ckpt.bytes (storeDest s)
/-- The image that a slot of T3 held has no header once its bytes are written over (R385). -/
def dropHeader (s : State) (gen : Nat) : State :=
  s.withMem (memWriteBytes s.mem (s.reg Obj.ckptT3Base + slotOffset s gen) (List.replicate 0x200 0))
/-- The drain begins (R383, R385). -/
def startDrain (s : State) (gen : Nat) : State :=
  let s := s.setReg Obj.ckptDrainState 0
  let s := (s.withCkpt { s.ckpt with draining := gen, heads := s.ckpt.heads.filter (· == 3) })
  let s := if s.reg Obj.ckptT3Base = 0 then s else setDrain (dropHeader s gen) 0 1
  drainEnd ((startStore (startPartner s)).setReg Obj.ckptState 2)

end Sys2Proof.Machine
end

