-- ==== Sys2Proof/Machine/Streams.lean ====
section
/-! DEFINITION. Streams and Sluices (11_streams_and_sluices.md): addresses of the kinds (R266, R267), arming (R268–R273),
rewinds and halts (R276, R277, R285), commands (R278), the Weir (R281–R284) and the memory requests of a stream. -/

namespace Sys2Proof.Machine

/-! ### Addresses (R266, R267) -/

/-- The base in force of a context: the arming's, or the descriptor's; banked kinds take the bank sampled at the step
origin. A plain stream that an arming gives two bases takes that of its frame's half (R260; DESIGN CHOICE, log 73). -/
def streamBase (s : State) (core : Nat) (c : Ctx) (d : Desc) : Nat :=
  let b0 := if c.arm.base0 = 0 then d.base0 else c.arm.base0
  let b1 := if c.arm.base1 = 0 then d.base1 else c.arm.base1
  let pick := fun bank => if (bank == 0) != d.store then b0 else b1
  match d.kind with
  | 0 => if c.arm.base1 ≠ 0 ∧ c.arm.frame % 2 = 1 then c.arm.base1 else b0
  | 1 => pick s.train.bank
  | 2 => pick (if s.role (clusterOf core) = 2 then s.roll.bank else s.train.epochBank)
  | _ => b0
/-- Index `k` of an element position. -/
def Desc.index (d : Desc) (e k : Nat) : Nat := e / max 1 (d.below k) % max 1 (d.cnt k)
/-- A byte address from a base and signed offsets, modulo 2^64. -/
def addrAt (base : Nat) (offs : List Int) : Nat := (((base : Int) + offs.foldl (· + ·) 0) % (2 ^ 64 : Int)).toNat
/-- The bit address of element `e` in nest order (R266). -/
def Desc.elemBit (d : Desc) (base e : Nat) : Nat :=
  8 * addrAt base ((List.range 4).map fun k => (d.index e (k + 1) : Int) * d.str (k + 1)) + d.index e 0 * d.width
/-- The bit address of element `e` of a gathered row (R267, KIND 3). -/
def Desc.gatherBit (d : Desc) (base token e : Nat) : Nat :=
  8 * addrAt base (((token : Int) * d.str 1) :: (List.range 3).map fun k => (d.index e (k + 2) : Int) * d.str (k + 2)) +
    d.index e 0 * d.width

/-- What a part of a word needs from memory, by virtual address: `n` bits from a bit address for the element at `pos`,
constant bits, or a bias. -/
inductive VPiece where
  | mem (pos bit n : Nat)
  | lit (v n : Nat)
  | bias (pos bit : Nat) (first : Bool)
  | key (pos va j : Nat)
  | side (va : Nat) (piece : Piece)
  deriving DecidableEq, Repr
/-- Bits cut where they cross a 64-byte line. -/
def splitLine (pos bit n : Nat) : List VPiece :=
  let room := 512 - bit % 512
  if n ≤ room then [.mem pos bit n] else [.mem pos bit room, .mem pos (bit + room) (n - room)]

/-- The element range of word `k` of a packet: group base, first and one past the last bit within the group. -/
structure WordSpan where
  base : Nat
  lo : Nat
  hi : Nat
  deriving DecidableEq, Repr
def Desc.span (d : Desc) (pkt k : Nat) : WordSpan :=
  let gw := max 1 d.groupWords
  ⟨pkt * d.pktElems + k / gw * d.groupElems, 512 * (k % gw), min (512 * (k % gw + 1)) (d.groupElems * d.width)⟩
/-- The elements of a span with the bits of each that fall in it: element position, first bit, bits. -/
def WordSpan.elems (p : WordSpan) (w : Nat) : List (Nat × Nat × Nat) :=
  if p.hi ≤ p.lo ∨ w = 0 then []
  else
    let a := p.lo / w
    (List.range ((p.hi - 1) / w - a + 1)).map fun j =>
      let lo := max p.lo ((a + j) * w)
      let hi := min p.hi ((a + j + 1) * w)
      (p.base + a + j, lo - (a + j) * w, hi - lo)

/-! ### Translation of a request -/

/-- What a virtual address of a stream resolves to. -/
inductive Resolved where
  | pa (a : Nat)
  | item (i off : Nat)
  | miss
  | fault (f : XFault)
  deriving DecidableEq, Repr
def resolve (s : State) (core tc va : Nat) (write : Bool) : Resolved :=
  if va / 2 ^ 48 ≠ 0 then .fault ⟨4, 0, 0, 0⟩
  else if (s.windowOf va).isSome then
    match windowItem s core tc va write with
    | some (i, o) => .item i o
    | none => .fault ⟨7, 0, 0, 0⟩
  else match tlbFind (s.core core) va write with
    | some e =>
      let a := e.frame + (va - e.va)
      let level := if e.size = 2 ^ 30 then 0 else if e.size = 2 ^ 21 then 1 else 2
      if tc = 2 ∧ tierOf a = some 3 then .fault ⟨3, 0, level, 0⟩
      else if s.present a then .pa a else .fault ⟨5, e.pte, level, 0⟩
    | none => .miss

/-- A request worked out: the flight, or the walk, fault, hold, lost item, uncorrectable metadata or bitmap mismatch that stops it. -/
inductive Plan where
  | go (f : Flight)
  | walkFor (va pos : Nat)
  | fault (va pos : Nat) (f : XFault)
  | hold
  | lost
  | bad (a : Nat)
  | mismatch
  deriving DecidableEq, Repr

/-- The pieces of a load translated in order. -/
def planLoad (s : State) (core tc : Nat) : List VPiece → Flight → Plan
  | [], f => .go f
  | p :: ps, f =>
    match p with
    | .lit v n => planLoad s core tc ps { f with load := f.load ++ [.lit v n] }
    | .mem pos bit n =>
      match resolve s core tc (bit / 8) false with
      | .pa a => planLoad s core tc ps { f with load := f.load ++ [.mem (8 * a + bit % 8) n], vas := f.vas ++ [bit / 8] }
      | .item i o =>
        let x := (s.cluster (clusterOf core)).item i
        if x.lost then .lost
        else if !x.present then .hold
        else planLoad s core tc ps { f with load := f.load ++ [.stash i (8 * o + bit % 8) n], item := some (i, o) }
      | .miss => .walkFor (bit / 8) pos
      | .fault x => .fault (bit / 8) pos x
    | .bias pos bit first =>
      match resolve s core tc (bit / 8) false with
      | .pa a => planLoad s core tc ps { f with load := f.load ++ [.bias (8 * a + bit % 8) first], vas := f.vas ++ [bit / 8] }
      | .fault x => .fault (bit / 8) pos x
      | _ => .walkFor (bit / 8) pos
    | .key pos va j =>
      match resolve s core tc va false with
      | .pa a => planLoad s core tc ps { f with load := f.load ++ [.key a j], vas := f.vas ++ [va] }
      | .fault x => .fault va pos x
      | _ => .walkFor va pos
    | .side va (.side a n none) => planLoad s core tc ps { f with load := f.load ++ [.side a n none], vas := f.vas ++ [va] }
    | .side _ q => planLoad s core tc ps { f with load := f.load ++ [q] }

/-- The raw bytes of an item that is in T0 (R317, R318). -/
def itemBytes (s : State) (cl i : Nat) : List Byte :=
  let x := (s.cluster cl).item i
  if !x.data.isEmpty then x.data
  else match s.spillPlan cl with
    | some p => (restoredBytes (planItem s p.1 p.2 i) x.form (memBytes s.mem x.pa x.stored)).1
    | none => []
/-- A read of `n` bytes of a list, bitmap or metadata beside a word, with the piece that stands for it in the request (R222, R232); or what
stops it. It does not cross a page or an item. -/
def peek (s : State) (core tc va n : Nat) : (Nat × Piece) ⊕ Plan :=
  match resolve s core tc va false with
  | .pa a => .inl (s.memRd a n, .side a n none)
  | .item i o =>
    let x := (s.cluster (clusterOf core)).item i
    if x.lost then .inr .lost
    else if !x.present then .inr .hold
    else if x.data.isEmpty && x.form == 0 then .inl (s.memRd (x.pa + o) n, .side (x.pa + o) n (some i))
    else .inl (leNat (((itemBytes s (clusterOf core) i).drop o).take n), .side 0 0 (some i))
  | .fault x => .inr (.fault va 0 x)
  | .miss => .inr (.walkFor va 0)

/-- The pieces of a gathered word: each element's slot entry says whether its row is a token's (R228); an empty slot draws no credit
(R267). -/
def gatherPieces (s : State) (core : Nat) (d : Desc) (base : Nat) : List (Nat × Nat × Nat) → List VPiece → List VPiece ⊕ Plan
  | [], acc => .inl acc
  | (e, off, n) :: es, acc =>
    match peek s core d.tc (d.aux + 4 * d.index e 1) 4 with
    | .inr (.fault va _ x) => .inr (.fault va e x)
    | .inr (.walkFor va _) => .inr (.walkFor va e)
    | .inr p => .inr p
    | .inl (w, q) =>
      let ps := if bitOf w 31 then .side (d.aux + 4 * d.index e 1) q :: splitLine e (d.gatherBit base (w % 65536) e + off) n else [.lit 0 n]
      gatherPieces s core d base es (acc ++ ps)

/-! ### Bitmaps (R233–R235) -/

def Desc.qb (d : Desc) : Nat := bitsOf d.aux 16 16
def Desc.kb (d : Desc) : Nat := bitsOf d.aux 0 16
/-- Elements and bytes of one bitmap. -/
def Desc.mapElems (d : Desc) : Nat := 1024 * d.qb * d.kb
def Desc.mapBytes (d : Desc) : Nat := 64 + 64 * ceilDiv (d.qb * d.kb) 512
/-- A run of 64-byte lines read by virtual address, with the pieces that stand for them. -/
def peekLines (s : State) (core tc va : Nat) : Nat → (Nat × List VPiece) ⊕ Plan
  | 0 => .inl (0, [])
  | k + 1 =>
    match peek s core tc va 64 with
    | .inr p => .inr p
    | .inl w =>
      match peekLines s core tc (va + 64) k with
      | .inr p => .inr p
      | .inl r => .inl (w.1 + 2 ^ 512 * r.1, .side va w.2 :: r.2)
/-- Whether a bitmap's header and rows agree with the descriptor (R235). -/
def bitmapOk (d : Desc) (w : Nat) : Bool :=
  fld w 0 2 == d.qb && fld w 2 2 == d.kb && fld w 4 4 == bitsOf d.aux 40 24 &&
    (List.range d.qb).all fun q => bitsOf (w / 2 ^ 512) (q * d.kb) d.kb != 0
/-- The pieces of an expanded word, after the check of a bitmap at its first element. -/
def bitmapPieces (s : State) (core : Nat) (d : Desc) (base : Nat) (es : List (Nat × Nat × Nat)) : List VPiece ⊕ Plan :=
  let n := max 1 d.mapElems
  let pieces := es.map fun x =>
    let e := x.1 % n
    let i := e / (32 * max 1 d.kb)
    let j := e % (32 * max 1 d.kb)
    let map := base + x.1 / n * d.mapBytes
    VPiece.bias x.1 (8 * (map + 64) + i / 32 * d.kb + j / 32) (decide (i % 32 = 0) && decide (j % 32 = 0))
  match es.find? fun x => decide (x.1 % n = 0) with
  | none => .inl pieces
  | some x =>
    match peekLines s core d.tc (base + x.1 / n * d.mapBytes) (d.mapBytes / 64) with
    | .inr (.fault va _ f) => .inr (.fault va x.1 f)
    | .inr (.walkFor va _) => .inr (.walkFor va x.1)
    | .inr p => .inr p
    | .inl w => if bitmapOk d w.1 then .inl (w.2 ++ pieces) else .inr .mismatch

/-- What word `k` of packet `pkt` of a load needs. -/
def loadPieces (s : State) (core : Nat) (c : Ctx) (d : Desc) (pkt k : Nat) : List VPiece ⊕ Plan :=
  let base := streamBase s core c d
  let es := (d.span pkt k).elems d.width
  match d.kind with
  | 3 => gatherPieces s core d base es []
  | 4 => bitmapPieces s core d base es
  | 6 =>
    let cols := max 1 (bitsOf d.aux 0 32)
    .inl (es.map fun x => .key x.1 (base + 8 * (x.1 / cols)) (x.1 % cols))
  | _ => .inl (es.flatMap fun x => splitLine x.1 (d.elemBit base x.1 + x.2.1) x.2.2)

/-! ### Stores -/

/-- A write of bits by virtual bit address. -/
structure VPut where
  pos : Nat
  bit : Nat
  n : Nat
  v : Nat
  deriving DecidableEq, Repr
def splitPut (p : VPut) : List VPut :=
  let room := 512 - p.bit % 512
  if p.n ≤ room then [p]
  else [{ p with n := room, v := p.v % 2 ^ room }, { p with bit := p.bit + room, n := p.n - room, v := p.v / 2 ^ room }]

/-- What a word of a store asks for: its writes, the nonzero codes it drops, and the metadata it reads beside. -/
structure StoreWord where
  puts : List VPut := []
  drops : Nat := 0
  sides : List VPiece := []
  deriving DecidableEq, Repr

/-- The codes of an element in the two stored rows of its group, by the group's metadata nibble: under 1:4 the second stored value is
code 0 (R215, R216). -/
def groupRows (nib r code : Nat) : List (Nat × Nat) :=
  (if nib % 4 = r then [(0, code)] else []) ++ (if nib / 4 = r then [(1, if nib % 4 = nib / 4 then 0 else code)] else [])
/-- The writes of the elements of a word of a sparse store: an element named by the tile's metadata goes to its stored
row, others are dropped (R216, R217, R219, DEDUCED, log 22). -/
def sparsePuts (s : State) (core : Nat) (d : Desc) (base : Nat) (code : Nat → Nat) : List Nat → StoreWord → StoreWord ⊕ Plan
  | [], acc => .inl acc
  | e :: es, acc =>
    let p := e / 1024
    let r := e % 1024 / 32
    let n := e % 32
    let nib := r / 4 * 32 + n
    match peek s core d.tc (d.aux + 128 * p + nib / 2) 1 with
    | .inr (.fault va _ x) => .inr (.fault va e x)
    | .inr (.walkFor va _) => .inr (.walkFor va e)
    | .inr q => .inr q
    | .inl b =>
      let puts := (groupRows (bitsOf b.1 (4 * (nib % 2)) 4) (r % 4) (code e)).map fun q =>
        { pos := e, bit := 8 * base + (p * 64 + (2 * (r / 4) + q.1) * 4) * 8 * d.width + n * d.width, n := d.width, v := q.2 : VPut }
      sparsePuts s core d base code es
        { puts := acc.puts ++ puts.flatMap splitPut, drops := acc.drops + (if puts.isEmpty && code e ≠ 0 then 1 else 0),
          sides := acc.sides ++ [.side (d.aux + 128 * p + nib / 2) b.2] }

/-- The code of element `e` in the words of its packet. -/
def packetCode (d : Desc) (words : List SWord) (pkt e : Nat) : Nat :=
  let j := e - pkt * d.pktElems
  let g := j / max 1 d.groupElems
  elemAt (packBits 512 (((words.drop (g * d.groupWords)).take d.groupWords).map (·.data))) d.width (j % max 1 d.groupElems)

/-- What word `k` of a packet of a store asks for. -/
def storePuts (s : State) (core : Nat) (c : Ctx) (d : Desc) (words : List SWord) (k : Nat) : StoreWord ⊕ Plan :=
  let base := streamBase s core c d
  let sp := d.span c.packets k
  let es := sp.elems d.width
  match d.kind with
  | 5 => sparsePuts s core d base (packetCode d words c.packets) ((es.filter fun x => x.2.1 = 0).map (·.1)) {}
  | _ =>
    let w := ((words.drop k).headD {}).data
    .inl { puts := es.flatMap fun x =>
      let at_ := (x.1 - sp.base) * d.width + x.2.1 - sp.lo
      splitPut { pos := x.1, bit := d.elemBit base x.1 + x.2.1, n := x.2.2, v := bitsOf w at_ x.2.2 } }

/-- The writes of a store translated in order; a window takes only the continuation of its item (R313). -/
def planStore (s : State) (core tc : Nat) : List VPut → Flight → Plan
  | [], f => .go f
  | p :: ps, f =>
    match resolve s core tc (p.bit / 8) true with
    | .pa a => planStore s core tc ps { f with puts := f.puts ++ [(8 * a + p.bit % 8, p.n, p.v)], vas := f.vas ++ [p.bit / 8] }
    | .item i o =>
      if stagingFull s (clusterOf core) then .hold
      else planStore s core tc ps { f with puts := f.puts ++ [(8 * o + p.bit % 8, p.n, p.v)], item := some (i, o) }
    | .miss => .walkFor (p.bit / 8) p.pos
    | .fault x =>
      match f.item with
      | some (i, _) =>
        match windowItem s core tc (p.bit / 8) false with
        | some (j, o) =>
          let want := (f.puts.getLast?).map fun q => q.1 + q.2.1
          if j = i && want = some (8 * o + p.bit % 8) then
            planStore s core tc ps { f with puts := f.puts ++ [(8 * o + p.bit % 8, p.n, p.v)] }
          else .fault (p.bit / 8) p.pos x
        | none => .fault (p.bit / 8) p.pos x
      | none => .fault (p.bit / 8) p.pos x

/-! ### The Weir (R281–R284) -/

/-- The budgets that one line at a physical address draws on (R281). -/
def lineDraws (core tc a : Nat) : List Nat :=
  let own := dieOf core
  if tierOf a = some 0 then
    let d := a / 2 ^ 38
    (if d = own then [] else [wFabric own]) ++ [wTotal d, wClass d tc, wCore core]
  else [wFabric own, wCore core]
/-- The lines of a flight: distinct 64-byte lines of memory; a window access is one line of the die's stash pool. -/
def flightLines (s : State) (core : Nat) (f : Flight) : List Nat :=
  let mem := match f.item with
    | some _ => [s.pool (clusterOf core) 0]
    | none => f.puts.map fun p => p.1 / 512 * 64
  let ld := f.load.filterMap fun p =>
    match p with
    | .mem bit _ => some (bit / 512 * 64)
    | .bias bit _ => some (bit / 512 * 64)
    | .key a _ => some (a / 64 * 64)
    | .side a n item => if n ≠ 0 then some (a / 64 * 64) else item.map fun _ => s.pool (clusterOf core) 0
    | _ => none
  (mem ++ ld).eraseDups
def flightDraws (s : State) (core tc : Nat) (f : Flight) : List Nat := (flightLines s core f).flatMap (lineDraws core tc)
/-- The budgets of a die under its clamp (R284). -/
def dieBudgets (s : State) (d pct : Nat) : List (Nat × Nat) :=
  [(wTotal d, s.reg (Obj.weirTotal d) * pct / 100), (wClass d 0, s.reg (Obj.weirClass0 d) * pct / 100),
   (wClass d 1, s.reg (Obj.weirClass1 d) * pct / 100), (wClass d 2, s.reg (Obj.weirClass2 d) * pct / 100),
   (wClass d 3, s.reg (Obj.weirClass3 d) * pct / 100), (wFabric d, s.reg (Obj.weirFabric d) * pct / 100),
   (wCap d, s.reg (Obj.weirCoreCap d) * pct / 100)]
/-- Streams of a die that wait for credit. -/
def creditWaiters (s : State) (d : Nat) : Nat :=
  sumOf ((s.cores.filter fun p => dieOf p.1 == d).map fun p => (p.2.ctxs.filter fun c => c.2.st == .waitCredit).length)
/-- The clamp of a die's Weir: the supply throttle's or that of a die at 105 °C (R284, R399, R417). -/
def clampPct (s : State) (d : Nat) : Nat :=
  if s.power.throttle || s.power.hot.any (fun h => h == d || decide (4 ≤ h)) then s.reg Obj.pwrDipWeirPct else 100
/-- The page mover's words of a beat at 100 GB/s, read and written (R311). -/
def moverDraw (s : State) : State :=
  match s.mem.mover with
  | some (src, dst, _) => sysDraw (sysDraw s src 1562) dst 1562
  | none => s
/-- A new beat at the Weirs: the last beat's figures, the clamp asked for, fresh credits (R282, R284). -/
def weirBeat (s : State) : State :=
  let s := forAll (List.range 4) (fun d s =>
    let s := s.setReg (Obj.weirGranted d) (smGet zeroWord s.weir.used (wTotal d))
    let s := s.bump (Obj.weirWaitBeats d) (creditWaiters s d)
    s.setReg (Obj.weirClampPct d) (clampPct s d)) s
  let b := (List.range 4).flatMap fun d => dieBudgets s d (s.reg (Obj.weirClampPct d))
  moverDraw (s.withWeir { s.weir with used := [], budget := smSetMany zeroWord s.weir.budget b })

/-! ### Halts and rewinds (R276, R277, R285) -/

/-- A data stream's packet rewound with that of its linked scale stream (R268, R276). -/
def rewind (s : State) (core i : Nat) : State :=
  let s := rewindOne s core i
  match s.desc core i with
  | some d => if d.scaleLink ≠ 0xFF && inProgress s core d.scaleLink then rewindOne s core d.scaleLink else s
  | none => s
/-- A halt other than by a translation fault, with its cause (R276). -/
def haltError (s : State) (core i cause : Nat) : State :=
  modCtx (landIssued s core i) core i fun c => { c with st := .haltError, cause := cause }
/-- HALT_CAUSE 3 with its event (R276, R277). -/
def haltUe (s : State) (core i : Nat) : State :=
  raise (haltError s core i 3) 0x5A06 .stepAbort (uCore core) (posOf i (((s.core core).ctx i).packets * ((s.desc core i).map (·.pktElems)).getD 0))

/-- Whether the access of a stream to an address is a write: a sparse store reads its metadata (R219, R267). -/
def Desc.writes (d : Desc) (va : Nat) : Bool :=
  d.store && !(d.kind == 5 && decide (d.aux ≤ va) && decide (va < d.aux + 128 * ceilDiv (d.numPkts * d.pktElems) 1024))
/-- The same of a context. -/
def State.ctxWrites (s : State) (core i va : Nat) : Bool := ((s.desc core i).map fun d => d.writes va).getD false
/-- A translation fault halts the stream, and its record is produced (R285, R304, R307). -/
def haltFault (s : State) (core i va pos : Nat) (x : XFault) : State :=
  let d := s.desc core i
  let store := s.ctxWrites core i va
  let tc := (d.map (·.tc)).getD 0
  let seq := s.mem.faultSeq
  let r := faultRecord seq va pos s.beat (s.clStep (clusterOf core)) core i x.cause ((if store then 1 else 0) + 4 * tc)
    (if x.cause = 3 ∨ x.cause = 7 then 0 else x.pte) x.level
  let s := modCtx s core i fun c => { c with st := .haltFault, cause := 1, faultPos := pos, walk := none, faultSeq := seq, faultRec := r }
  let s := raise (s.bump (Obj.strmFaultHalts core) 1) 0x5A05 .note (uCore core) (posOf i pos)
  let s := if 4 ≤ x.cause then raise s 0x6A01 .stepAbort (uCore core) (posOf i pos) else s
  produceRecord s (dieOf core) seq r

/-- A context and the scale stream linked to it ended together (R268). -/
def disarm (s : State) (core i : Nat) : State :=
  let s := disarmOne s core i
  match s.desc core i with
  | some d => if d.scaleLink = 0xFF then s else disarmOne s core d.scaleLink
  | none => s
/-- The last transfer of an arming completes (R271, R272): a shadow takes effect, a persistent stream is DONE, another is
DISARMED. -/
def armingComplete (s : State) (core i : Nat) (d : Desc) : State :=
  let c := (s.core core).ctx i
  let s := if d.tc = 2 && !d.store then itemsRead s (clusterOf core) c.items else s
  match c.shadow with
  | some a => modCtx s core i fun _ => { st := .running, arm := a }
  | none =>
    if d.persist then modCtx s core i fun c => { c with st := .done }
    else modCtx s core i fun _ => {}
/-- What follows a completed packet: the end of the arming, or of an arming that is being ended. -/
def packetDone (s : State) (core i : Nat) (d : Desc) : State :=
  let c := (s.core core).ctx i
  let s :=
    if d.numPkts ≤ c.packets then armingComplete s core i d
    else if c.ending && (!d.store || ((s.core core).sluice d.sluice).packets.isEmpty) then disarm s core i
    else s
  let c1 := (s.core core).ctx i
  ledgerStream s core i (streamEntry (c.packets * d.pktElems) c.packets c1.st.code d.store false c1.cause)

/-! ### Arming (R268, R270–R272) -/

/-- The arming of the linked scale stream that an arming brings with it (R268, R270). -/
def Arming.scale (a : Arming) : Arming := { base0 := a.sbase0, base1 := a.sbase1, frame := a.frame }
/-- The context linked to a data stream. -/
def State.linkOf (s : State) (core i : Nat) : Option Nat := (s.desc core i).bind fun d => if d.scaleLink = 0xFF then none else some d.scaleLink
/-- An arming takes effect on a context and on its linked scale stream. -/
def armNow (s : State) (core i : Nat) (a : Arming) : State :=
  let s := modCtx s core i fun _ => { st := .running, arm := a }
  match s.linkOf core i with
  | some j => modCtx s core j fun _ => { st := .running, arm := a.scale }
  | none => s
/-- A context is DISARMED, and no other armed stream uses its Sluice. -/
def ctxFree (s : State) (core i : Nat) : Bool :=
  !((s.core core).ctx i).armed &&
    (List.range 48).all fun j => j == i || !((s.core core).ctx j).armed || s.sluOf core j != s.sluOf core i
/-- ACTION 1 on a context, and on its linked one (R268): none where the entry must hold. -/
def armEffect (s : State) (core i : Nat) (a : Arming) : Option State :=
  if ctxFree s core i && (s.linkOf core i).all (ctxFree s core) then some (armNow s core i a) else none
/-- A re-arm of one context of a stream that is armed: at once when DONE or DISARMED, else into the shadow. -/
def rearmOne (s : State) (core i : Nat) (a : Arming) : State :=
  if ((s.core core).ctx i).st == .done || !((s.core core).ctx i).armed then modCtx s core i fun _ => { st := .running, arm := a }
  else modCtx s core i fun c => { c with shadow := some a }
/-- ACTION 2 on a context. -/
def rearmEffect (s : State) (core i : Nat) (a : Arming) : Option State :=
  let c := (s.core core).ctx i
  if !c.armed then armEffect s core i a
  else
    let s := if c.st != .done && c.shadow.isSome then raise (s.bump (Obj.strmOverwrites core) 1) 0x5A01 .note (uCore core) (posOf i 0) else s
    let s := rearmOne s core i a
    some (match s.linkOf core i with
      | some j => rearmOne s core j a.scale
      | none => s)

/-- Whether the writer of a Sluice has a packet in progress, or its stream requests that have not completed. -/
def atBoundary (s : State) (core sl : Nat) : Bool :=
  let q := (s.core core).sluice sl
  q.prog.isEmpty && (match s.ctxOn core sl with
    | some (i, d) => d.store || (((s.core core).ctx i).flight.isEmpty && q.rsv == 0)
    | none => true)
/-- What engines still hold for a Sluice given up. -/
def dropOut (s : State) (core sl : Nat) : State :=
  s.modCore core fun c => { c with running := c.running.map fun r => { r with outq := r.outq.filter fun x => x.1 != sl } }
/-- FLUSH takes effect (R278): committed packets are discarded and the stream disarmed; a halted stream's packet in progress is rewound
first (R287). -/
def flushNow (s : State) (core sl : Nat) : State :=
  let s := s.bump (Obj.strmFlushes core) 1
  match s.ctxOn core sl with
  | some (i, d) =>
    let s := if ((s.core core).ctx i).st == .haltFault && holdsPacket s core i then rewind s core i else s
    let s := emptySlu (disarm (dropOut s core sl) core i) core sl
    if d.scaleLink = 0xFF then s else emptySlu s core (s.sluOf core d.scaleLink)
  | none => emptySlu s core sl
/-- Whether the Sluice is rollout-class (R278). -/
def rolloutClass (s : State) (core sl : Nat) : Bool := ((s.ctxOn core sl).map fun p => p.2.tc == 1).getD false
/-- FLUSH accepted: at once for a halted stream (R287), else at the next packet boundary. -/
def flushAsk (s : State) (core sl : Nat) : State :=
  match s.ctxOn core sl with
  | some (i, _) =>
    if ((s.core core).ctx i).st == .haltFault || ((s.core core).ctx i).st == .haltError then flushNow s core sl
    else modSlu s core sl fun q => { q with flush := true }
  | none => modSlu s core sl fun q => { q with flush := true }
/-- ACTION 3 on a context: FLUSH of a training-class Sluice; a rollout-class arming ends at the next packet boundary (R271). -/
def disarmEffect (s : State) (core i : Nat) (_a : Arming) : Option State :=
  let sl := s.sluOf core i
  if !rolloutClass s core sl then some (flushAsk s core sl)
  else if !((s.core core).ctx i).armed then some s
  else if atBoundary s core sl && (((s.core core).sluice sl).packets.isEmpty || !((s.desc core i).map (·.store)).getD false) then
    some (disarm s core i)
  else some (modCtx s core i fun c => { c with ending := true })

/-- What a context reads of its core's descriptor table: the header's count and its descriptor (R40). -/
def descReads (s : State) (core i : Nat) : List (TableRec × Nat × Nat) :=
  match s.table 5 core (s.role (clusterOf core)) with
  | some t => [(t, 6, 2), (t, 0x80 + 128 * i, 128)]
  | none => []
/-- What the arming of a context reads of it, with the descriptor of its linked scale stream. -/
def armReads (s : State) (core i : Nat) : List (TableRec × Nat × Nat) :=
  descReads s core i ++ (s.linkOf core i).toList.flatMap (descReads s core)
/-- The frame whose buffers an entry's streams name: that of the encoding in progress, else the one observed (R260). -/
def armFrame (s : State) (core mb : Nat) : Nat :=
  let c := s.cluster (clusterOf core)
  if mb = 0 then c.encoding.getD 0 else c.observed.getD 0

/-- An entry of class 0x07 with an action (R50, R270): it completes when the arming is accepted, and holds until then. -/
def armCommand (action core : Nat) (effect : State → Nat → Nat → Arming → Option State) (s : State) :
    Host.Outcome State Fault Refusal :=
  match currentEntry s core 7 with
  | none => .next s
  | some c =>
    let i := fld c.blk 0 1
    if fld c.blk 1 1 ≠ action then .next s
    else if c.img.bad || s.groupHalted core || anyBad (armReads s core i) then .next s
    else match firstDiffer s (ownReads 7 c ++ armReads s core i) with
      | some t => .next (mismatch s core t)
      | none =>
        if !startsNow s core c then .next s
        else
          let a : Arming := { base0 := fld c.blk 8 8, base1 := fld c.blk 0x10 8, sbase0 := fld c.blk 0x18 8, sbase1 := fld c.blk 0x20 8,
                              frame := armFrame s core c.re.plan.mb }
          match effect s core i a with
          | none => .next s
          | some s => .next (s.modCore core fun x => putRunning { x with todo := x.todo.drop 1 } { c.re with formed := true })

/-- STREAM_ARM (R271). -/
def execStreamArm (core : Fin 256) (s : State) : Host.Outcome State Fault Refusal := armCommand 1 core armEffect s
/-- STREAM_REARM (R271, R272). -/
def execStreamRearm (core : Fin 256) (s : State) : Host.Outcome State Fault Refusal := armCommand 2 core rearmEffect s
/-- STREAM_DISARM (R271). -/
def execStreamDisarm (core : Fin 256) (s : State) : Host.Outcome State Fault Refusal := armCommand 3 core disarmEffect s

/-! ### Requests -/

/-- Packets dropped by DROP_REM that stand at the head of a store's queue are passed over; the last of an arming completes it (DESIGN
CHOICE, log 68). -/
def skipDropped (s : State) (core i : Nat) (d : Desc) : State :=
  let q := (s.core core).sluice d.sluice
  let n := (q.packets.takeWhile List.isEmpty).length
  if n = 0 ∨ q.taken ≠ 0 then s
  else
    let s := modSlu s core d.sluice fun q => { q with packets := q.packets.drop n }
    packetDone (modCtx s core i fun c => { c with packets := c.packets + n }) core i d

/-- The uncorrectable bytes that a piece of a request reads. -/
def sideBad (s : State) : Piece → Option Nat
  | .side a n _ => if n ≠ 0 && poisoned s.mem a n then some a else none
  | _ => none
/-- The request of word `k` of a packet of a store, with the nonzero codes it drops; none of it is made while its metadata reads as
uncorrectable (R222). -/
def storePlan (s : State) (core : Nat) (c : Ctx) (d : Desc) (words : List SWord) (k : Nat) : Plan × Nat :=
  match storePuts s core c d words k with
  | .inr x => (x, 0)
  | .inl w =>
    match planLoad s core d.tc w.sides {} with
    | .go f =>
      match f.load.findSome? (sideBad s) with
      | some a => (.bad a, 0)
      | none => (planStore s core d.tc w.puts f, w.drops)
    | p => (p, 0)

/-- What the next request of a load or store would be; none when it has nothing to ask for. -/
def nextPlan (s : State) (core : Nat) (c : Ctx) (d : Desc) : Option (Plan × Nat) :=
  let q := (s.core core).sluice d.sluice
  if d.store then
    match q.packets with
    | [] => none
    | p :: _ =>
      let k := q.taken + c.flight.length
      if p.length ≤ k then none
      else some (storePlan s core c d p k)
  else
    let k := q.prog.length + c.flight.length
    if d.numPkts ≤ c.packets ∨ d.pktWords ≤ k ∨ (k = 0 ∧ (q.flush ∨ c.ending)) then none
    else match loadPieces s core c d c.packets k with
      | .inr x => some (x, 0)
      | .inl ps => some (planLoad s core d.tc ps {}, 0)

/-- A stream may issue requests (R271, R282, R285). -/
def canIssue (s : State) (c : Ctx) : Bool :=
  !s.stopped && c.started && c.walk.isNone && (c.st == .running || c.st == .waitSpace || c.st == .waitCredit)

/-- Another stream of the core that waits for credit, has it now, and goes first (R282). -/
def outranked (s : State) (core i : Nat) (d : Desc) : Bool :=
  (List.range 48).any fun j =>
    let c := (s.core core).ctx j
    j != i && c.st == .waitCredit &&
      match s.desc core j with
      | some e =>
        (decide (d.prio < e.prio) || (d.prio == e.prio && decide (j < i))) &&
          (match nextPlan s core c e with
           | some (.go f, _) => creditLeft s.weir (flightDraws s core e.tc f)
           | _ => false)
      | none => false

/-- The stash items that a request reads or writes. -/
def flightItems (f : Flight) : List Nat :=
  ((f.load.filterMap fun p => match p with
    | .stash i _ _ => some i
    | .side _ _ i => i
    | _ => none) ++ (f.item.map (·.1)).toList).eraseDups
/-- The stash items an arming has read, with those of a request (R317). -/
def noteItems (f : Flight) (items : List Nat) : List Nat := items ++ (flightItems f).filter fun i => !items.contains i
/-- An item in T0 in a stored form, read from there at its first load (R317, R318). -/
def itemPacked (s : State) (cl i : Nat) : Bool :=
  let x := (s.cluster cl).item i
  x.data.isEmpty && x.form != 0
/-- A packed item restored for a load. -/
def openItem (s : State) (cl i : Nat) : State :=
  if !itemPacked s cl i then s
  else match s.spillPlan cl with
    | some p => expandItem s cl i (planItem s p.1 p.2 i)
    | none => s
/-- The packed item of a request that reads as uncorrectable (R317). -/
def packedBad (s : State) (cl : Nat) (f : Flight) : Option Nat :=
  (flightItems f).find? fun i => itemPacked s cl i && poisoned s.mem ((s.cluster cl).item i).pa ((s.cluster cl).item i).stored
/-- A request issued (R282). -/
def issueFlight (s : State) (core i : Nat) (d : Desc) (f : Flight) (drops : Nat) : State :=
  let cl := clusterOf core
  let s := (s.withWeir (drawCredits s.weir (flightDraws s core d.tc f)))
  let s := if d.store then s else modSlu s core d.sluice fun q => { q with rsv := d.pktWords }
  let s := modCtx s core i fun c => { c with st := .running, flight := c.flight ++ [f], items := noteItems f c.items }
  let s := if d.store then s else forAll (flightItems f) (fun n s => openItem s cl n) s
  let s := match f.item with
    | some (n, _) =>
      if d.store then modItem s cl n fun x => { x with asked := x.asked + sumOf (f.puts.map (·.2.1)) / 8 } else s
    | none => s
  let s := if d.store then ledgerFlight s core i else s
  if drops = 0 then s
  else
    let s := s.bump (Obj.sparsePruneDrops core) drops
    raiseFirst s core 0x3903 0 .note (posOf i 0)

/-- A walk that the walker of its die has still to make (R305). -/
def walkLive (s : State) (p : Nat × Nat) : Bool := ((s.core p.1).ctx p.2).walk.isSome
/-- A walk asked for a context: it joins the walks of its die in arrival order (R305). -/
def askWalk (s : State) (core i va pos : Nat) : State :=
  let ws := s.mem.walks.filter fun p => p != (core, i) && walkLive s p
  modCtx (s.withMem { s.mem with walks := ws ++ [(core, i)] }) core i fun c => { c with walk := some (va, pos) }
/-- The walk of a context is one of the up to 16 that the walker of its die has in flight, in arrival order (R305). -/
def walkServed (s : State) (core i : Nat) : Bool :=
  ((s.mem.walks.filter fun p => dieOf p.1 == dieOf core && walkLive s p).take 16).contains (core, i)

/-- What becomes of a request worked out: issued, or the state the stream waits or halts in (R271, R275, R276, R282, R285). -/
def answerPlan (s : State) (core i : Nat) (d : Desc) (p : Plan) (drops : Nat) : State :=
  match p with
  | .walkFor va pos => askWalk s core i va pos
  | .fault va pos x => haltFault s core i va pos x
  | .hold => s
  | .lost => haltUe s core i
  | .bad a => haltUe (noteUe s a) core i
  | .mismatch =>
    let pos := ((s.core core).ctx i).packets * d.pktElems
    raise (haltError (rewind s core i) core i 4) 0x3901 .stepAbort (uCore core) (posOf i pos)
  | .go f =>
    let st := ((s.core core).ctx i).st
    if !creditLeft s.weir (flightDraws s core d.tc f) then modCtx s core i fun c => { c with st := .waitCredit }
    else if st == .waitCredit && outranked s core i d then s
    else match packedBad s (clusterOf core) f with
      | some n => haltUe (loseItem s (clusterOf core) n) core i
      | none => issueFlight s core i d f drops
/-- The next request of a stream (R271, R275, R282, R285); its descriptor must still read as measured (R40). -/
def tryRequest (s : State) (core i : Nat) : State :=
  match s.desc core i with
  | none => s
  | some d =>
    let s := if d.store then skipDropped s core i d else s
    let c := (s.core core).ctx i
    let q := (s.core core).sluice d.sluice
    if !canIssue s c || anyBad (descReads s core i) then s
    else match firstDiffer s (descReads s core i) with
      | some t => mismatch s core t
      | none =>
        if !d.store && q.rsv == 0 && q.prog.isEmpty && decide (c.packets < d.numPkts) && decide (q.room < d.pktWords) then
          modCtx s core i fun c => { c with st := .waitSpace }
        else match nextPlan s core c d with
          | none => s
          | some r => answerPlan s core i d r.1 r.2

/-- STREAM_START (R271): 64 clk after its arming took effect the stream issues its first request, or accepts its first
writer word. -/
def execStreamStart (core : Fin 256) (ctx : Fin 48) (s : State) : Host.Outcome State Fault Refusal :=
  let c := (s.core core).ctx ctx
  if c.st != .running || c.started then .next s
  else .next (tryRequest (modCtx s core ctx fun c => { c with started := true }) core ctx)

/-- STREAM_REQUEST_ISSUE (R282); `ue` says that the packet a store begins to read from staging is
uncorrectable: no word of it is taken (R277). -/
def execStreamRequestIssue (core : Fin 256) (ctx : Fin 48) (ue : Bool) (s : State) : Host.Outcome State Fault Refusal :=
  let c := (s.core core).ctx ctx
  match s.desc core ctx with
  | none => .next s
  | some d =>
    let q := (s.core core).sluice d.sluice
    if ue && d.store && canIssue s c && !q.packets.isEmpty && q.taken + c.flight.length == 0 then .next (haltUe s core ctx)
    else .next (tryRequest s core ctx)

/-! ### Completion of requests -/

/-- A bias of R234: +0 or −Inf. -/
def biasCode (set : Bool) : Nat := if set then 0 else 0xFF800000
/-- What a piece brings: its bits, their width, and the clear bits it expands (R234). -/
structure PieceBits where
  v : Nat := 0
  n : Nat := 0
  clear : Nat := 0
  deriving DecidableEq, Repr
/-- The bits a piece brings, as a unit of the core's die reads memory (R19). -/
def pieceBits (core : Nat) (p : Piece) (s : State) : PieceBits × State :=
  let die := dieOf core
  match p with
  | .mem bit n => let r := dieBits die bit n s; ({ v := r.1, n := n }, r.2)
  | .stash i bit n =>
    let x := (s.cluster (clusterOf core)).item i
    if x.data.isEmpty then ({ v := memBits s.mem (8 * x.pa + bit) n, n := n }, s)
    else ({ v := bitsOf (leNat ((x.data.drop (bit / 8)).take ((bit % 8 + n + 7) / 8))) (bit % 8) n, n := n }, s)
  | .lit v n => ({ v := v, n := n }, s)
  | .bias bit first =>
    let r := dieBits die bit 1 s
    ({ v := biasCode (r.1 == 1), n := 32, clear := if first && r.1 == 0 then 1 else 0 }, r.2)
  | .key a j =>
    let r := dieBits die (8 * a) 64 s
    ({ v := biasCode (!bitOf r.1 63 || decide (j ≤ bitsOf r.1 0 32)), n := 32 }, r.2)
  | .side _ _ _ => ({}, s)
/-- The word that the pieces of a request make up. -/
def joinBits (core : Nat) : List Piece → State → PieceBits × State
  | [], s => ({}, s)
  | p :: ps, s =>
    let a := pieceBits core p s
    let r := joinBits core ps a.2
    ({ v := a.1.v % 2 ^ a.1.n + 2 ^ a.1.n * r.1.v, n := a.1.n + r.1.n, clear := a.1.clear + r.1.clear }, r.2)
/-- The physical bytes a piece reads. -/
def pieceRange (s : State) (cl : Nat) : Piece → Option (Nat × Nat)
  | .mem bit n => some (bit / 8, (bit % 8 + n + 7) / 8)
  | .stash i bit n =>
    let x := (s.cluster cl).item i
    if x.data.isEmpty then some (x.pa + bit / 8, (bit % 8 + n + 7) / 8) else none
  | .bias bit _ => some (bit / 8, 1)
  | .key a _ => some (a, 8)
  | .side a n _ => if n = 0 then none else some (a, n)
  | .lit _ _ => none
/-- The stash item a piece reads. -/
def pieceItem : Piece → Option Nat
  | .stash i _ _ => some i
  | .side _ _ i => i
  | _ => none
/-- The pieces of a request that read memory, with the bytes they read. -/
def flightReads (s : State) (cl : Nat) (f : Flight) : List (Piece × Nat × Nat) :=
  f.load.filterMap fun p => (pieceRange s cl p).map fun r => (p, r)
/-- The first of them that is poisoned, or whose memory is gone since the request was issued (R297, R299, R312). -/
def badRead (s : State) (cl : Nat) (f : Flight) : Option (Piece × Nat × Nat) :=
  (flightReads s cl f).find? fun x => poisoned s.mem x.2.1 x.2.2 || !s.installed x.2.1
/-- A stash item of a request that is lost (R317). -/
def lostItem (s : State) (cl : Nat) (f : Flight) : Option Nat := (f.load.filterMap pieceItem).find? fun i => ((s.cluster cl).item i).lost
/-- Whether the words of a flight read as uncorrectable: what its check bits say, poison, memory that is gone, or a lost item. -/
def flightStat (s : State) (cl : Nat) (st : WordStat) (f : Flight) : Bool × State :=
  if (lostItem s cl f).isSome then (true, s)
  else match badRead s cl f, flightReads s cl f with
    | some x, _ => (true, noteUe s x.2.1)
    | none, r :: _ => readStat s r.2.1 r.2.2 st
    | none, [] => (st == .ue, s)
/-- The stash item that an uncorrectable word of a flight belongs to: it is lost (R317). -/
def ueItem (s : State) (cl : Nat) (f : Flight) : Option Nat :=
  match lostItem s cl f, badRead s cl f with
  | some i, _ => some i
  | none, some x => pieceItem x.1
  | none, none => f.load.head?.bind pieceItem

/-- A load's packet commits with its LAST word (R275). -/
def commitLoad (s : State) (core i : Nat) (d : Desc) : State :=
  let c := (s.core core).ctx i
  let s := s.modCore core fun x =>
    { (x.modSluice d.sluice fun q => { q with packets := q.packets ++ [q.prog], prog := [], rsv := 0, src := some (i, c.arm) }) with
      moved := true, preempts := 0 }
  let s := if c.clears = 0 then s else s.bump (Obj.sparseAttnClear core) c.clears
  packetDone (modCtx s core i fun c => { c with packets := c.packets + 1, refetched := false, clears := 0 }) core i d

/-- MEMORY_READ_COMPLETE (R275, R276): the word of the oldest request of a load arrives. -/
def execMemoryReadComplete (core : Fin 256) (ctx : Fin 48) (st : WordStat) (s : State) : Host.Outcome State Fault Refusal :=
  match s.desc core ctx, ((s.core core).ctx ctx).flight with
  | some d, f :: fs =>
    if d.store then .next s
    else
      let r := flightStat s (clusterOf core) st f
      let lost := ueItem s (clusterOf core) f
      let s := r.2
      if r.1 then
        match lost with
        | some n => .next (haltUe (rewind (loseItem s (clusterOf core) n) core ctx) core ctx)
        | none =>
          let s := rewind s core ctx
          if ((s.core core).ctx ctx).refetched then .next (haltUe s core ctx)
          else .next ((modCtx s core ctx fun c => { c with refetched := true }).bump (Obj.strmRefetches core) 1)
      else
        let w := joinBits core f.load s
        let s := w.2
        let last := decide (((s.core core).sluice d.sluice).prog.length + 1 = d.pktWords)
        let s := modSlu s core d.sluice fun q => { q with prog := q.prog ++ [{ data := w.1.v, last := last }] }
        let s := modCtx s core ctx fun c => { c with flight := fs, clears := c.clears + w.1.clear }
        .next (if last then commitLoad s core ctx d else s)
  | _, _ => .next s

/-- STORE_WRITE_ACK (R272, R275): the memory write of the oldest request of a store is acknowledged. -/
def execStoreWriteAck (core : Fin 256) (ctx : Fin 48) (s : State) : Host.Outcome State Fault Refusal :=
  match s.desc core ctx, ((s.core core).ctx ctx).flight with
  | some d, f :: fs =>
    if !d.store then .next s
    else
      let s := landPuts s core f
      let q := (s.core core).sluice d.sluice
      let r := releaseDone q.packets (q.taken + 1)
      let done := q.packets.length - r.1.length
      let s := s.modCore core fun x =>
        { (x.modSluice d.sluice fun q => { q with packets := r.1, taken := r.2 }) with moved := x.moved || decide (done ≠ 0) }
      let s := modCtx s core ctx fun c => { c with flight := fs, packets := c.packets + done }
      .next (if done = 0 then s else packetDone s core ctx d)
  | _, _ => .next s

/-! ### Walks and resumes (R285, R304, R305) -/

/-- The entries that a walk of a virtual address comes to, from a table of a level. -/
def walkPath (s : State) (va : Nat) : Nat → Nat → Nat → List Nat
  | 0, _, _ => []
  | n + 1, level, table =>
    let at_ := table + 8 * levelIndex level va
    let e := s.memRd at_ 8
    at_ :: if bitOf e 63 && !bitOf e 62 then walkPath s va n (level + 1) (pteAddr e) else []
/-- The entries that a walk has read: those it comes to, up to the one at which it stopped. -/
def walkReads (s : State) (va : Nat) : Walk → List Nat
  | .hit _ at_ => let p := walkPath s va 3 0 (s.reg Obj.xlatRoot); p.takeWhile (· != at_) ++ [at_]
  | .fail f => if f.at_ = 0 then [] else let p := walkPath s va 3 0 (s.reg Obj.xlatRoot); p.takeWhile (· != f.at_) ++ [f.at_]
/-- An entry that a walk has read as uncorrectable, counted (R296, R304). -/
def noteWalk (s : State) : Walk → State
  | .fail x => if x.cause = 6 then noteUe s x.at_ else s
  | .hit _ _ => s
/-- A walk made for a stream of a core (R304, R305): counted by its die, its reads drawn at traffic class SYS. -/
def makeWalk (s : State) (core i va : Nat) (bad : Option Nat) : Walk × State :=
  let w := walk s va (s.ctxWrites core i va) (((s.desc core i).map (·.tc)).getD 0 == 2) bad
  (w, noteWalk (forAll (walkReads s va w) (fun a s => sysDraw s a 1) (s.bump (Obj.xlatWalks (dieOf core)) 1)) w)
/-- A walk done for a context: the translation, or the halt. -/
def finishWalk (s : State) (core i va pos : Nat) (bad : Option Nat) : State :=
  let write := s.ctxWrites core i va
  let r := makeWalk s core i va bad
  let s := modCtx r.2 core i fun c => { c with walk := none }
  match r.1 with
  | .hit e at_ => walkFill s core e at_ write
  | .fail x => haltFault s core i va pos x
/-- TRANSLATION_WALK_COMPLETE (R304, R305): a walk that its die's walker has in flight; `bad` names the level whose entry is read as
uncorrectable. -/
def execTranslationWalkComplete (core : Fin 256) (ctx : Fin 48) (bad : Option (Fin 3)) (s : State) :
    Host.Outcome State Fault Refusal :=
  match ((s.core core).ctx ctx).walk with
  | some (va, pos) => if walkServed s core ctx then .next (finishWalk s core ctx va pos (bad.map (·.val))) else .next s
  | none => .next s

/-- A Sluice command or a resume refused (R278, R285). -/
def refuseCmd (s : State) (core ctx : Nat) : State := raise (s.bump Obj.sluCmdRefused 1) 0x5A04 .note (uCore core) (posOf ctx 0)

/-- A write of `Obj.strmResume`, checked and applied. -/
def strmResumeWrite (s : State) : Ans :=
    let core := bitsOf (s.reg Obj.strmSel) 24 8
    let i := bitsOf (s.reg Obj.strmSel) 0 6
    let c := (s.core core).ctx i
    if c.st != .haltFault then Ans.refuse stState (refuseCmd s core i)
    else
      let va := bitsOf c.faultRec 64 64
      let tc := ((s.desc core i).map (·.tc)).getD 0
      let store := s.ctxWrites core i va
      if va / 2 ^ 48 = 0 && (s.windowOf va).isSome then
        match windowItem s core tc va store with
        | some _ => Ans.ok (modCtx s core i fun c => { c with st := .running, cause := 0 })
        | none => Ans.refuse stState (haltFault (refuseCmd s core i) core i va c.faultPos ⟨7, 0, 0, 0⟩)
      else
        let r := makeWalk s core i va none
        let s := r.2
        match r.1 with
        | .hit e at_ => Ans.ok (modCtx (walkFill s core e at_ store) core i fun c => { c with st := .running, cause := 0 })
        | .fail x => Ans.refuse stState (haltFault (refuseCmd s core i) core i va c.faultPos x)
/-- STRM_RESUME_WRITE (R285, R305, R312): the stream walks again and goes on at its faulting element. -/
def execStrmResumeWrite (q : Req) (v : BitVec 8) (s : State) : Host.Outcome State Fault Refusal :=
  .next (dictAction s q Obj.strmResume v.toNat strmResumeWrite)

/-! ### Sluice commands (R278) -/

/-- Where a Sluice command comes from: a unit of the device, or software through `SLU.CMD`. -/
def sluSelected (s : State) : Nat × Nat := (bitsOf (s.reg Obj.sluSel) 24 8, bitsOf (s.reg Obj.sluSel) 0 4)
/-- A command through `SLU.CMD`: refused unless the cluster is idle and the command is accepted. -/
def sluCommand (ok : State → Nat → Nat → Bool) (effect : State → Nat → Nat → State) (s : State) : Ans :=
  let p := sluSelected s
  if s.role (clusterOf p.1) = 0 && ok s p.1 p.2 then Ans.ok (effect s p.1 p.2)
  else Ans.refuse stState (refuseCmd s p.1 0x3F)
/-- A command of the sequencer or the sampling unit. -/
def unitCommand (s : State) (core sl : Nat) (ok : State → Nat → Nat → Bool) (effect : State → Nat → Nat → State) : State :=
  if ok s core sl then effect s core sl else refuseCmd s core 0x3F

/-- DROP_REM is accepted on a rollout-class store. -/
def dropOk (s : State) (core sl : Nat) : Bool := ((s.ctxOn core sl).map fun p => p.2.tc == 1 && p.2.store).getD false
/-- The words that the running entries still hold for a Sluice, without those of its packet in progress. -/
def dropHead (sl : Nat) (r : RunEntry) : RunEntry :=
  let mine := (r.outq.filter fun x => x.1 == sl).map (·.2)
  let n := (headPacket mine).length
  { r with outq := (r.outq.filter fun x => x.1 != sl) ++ (mine.drop n).map fun w => (sl, w) }
/-- DROP_REM (R278, R287); a dropped packet counts for its arming (DESIGN CHOICE, log 68). -/
def dropRem (s : State) (core sl : Nat) : State :=
  let s := s.bump (Obj.strmDrops core) 1
  match s.ctxOn core sl with
  | some (i, d) =>
    if ((s.core core).ctx i).st == .haltFault then
      let s := landIssued (withdraw s core i) core i
      let s := modSlu s core sl fun q => { q with packets := q.packets.drop 1, taken := 0 }
      let s := modCtx s core i fun c => { c with st := .running, cause := 0, packets := c.packets + 1 }
      packetDone s core i d
    else
      match (s.core core).running.find? fun r => r.outq.any fun x => x.1 == sl with
      | some r =>
        s.modCore core fun c =>
          { (c.modSluice sl fun q => { q with packets := q.packets ++ [[]] }) with
            running := c.running.map fun x => if x == r then dropHead sl x else x }
      | none => s
  | none => s
def flushOk (s : State) (core sl : Nat) : Bool := !rolloutClass s core sl
def resetOk (s : State) (core sl : Nat) : Bool :=
  match s.ctxOn core sl with
  | some (i, _) => ((s.core core).ctx i).st == .haltFault || ((s.core core).ctx i).st == .haltError
  | none => true
/-- RESET (R278). -/
def resetSlu (s : State) (core sl : Nat) : State :=
  match s.ctxOn core sl with
  | some (i, _) => emptySlu (disarm s core i) core sl
  | none => emptySlu s core sl

/-- A write of `SLU.CMD`, checked and applied: 1 DROP_REM, 2 FLUSH, 3 RESET. -/
def sluCmdWrite (v : Nat) (s : State) : Ans :=
  match v with
  | 1 => sluCommand dropOk dropRem s
  | 2 => sluCommand flushOk flushAsk s
  | 3 => sluCommand resetOk resetSlu s
  | _ => Ans.refuse stRange (refuseCmd s (sluSelected s).1 0x3F)
/-- SLUICE_DROP_REM. -/
def execSluiceDropRem (src : CmdSrc) (s : State) : Host.Outcome State Fault Refusal :=
  match src with
  | .unit core sl => .next (unitCommand s core sl dropOk dropRem)
  | .software q => .next (dictWrite s q Obj.sluCmd (sluCommand dropOk dropRem))
/-- SLUICE_FLUSH. -/
def execSluiceFlush (src : CmdSrc) (s : State) : Host.Outcome State Fault Refusal :=
  match src with
  | .unit core sl => .next (unitCommand s core sl flushOk flushAsk)
  | .software q => .next (dictWrite s q Obj.sluCmd (sluCommand flushOk flushAsk))
/-- SLUICE_RESET. -/
def execSluiceReset (src : CmdSrc) (s : State) : Host.Outcome State Fault Refusal :=
  match src with
  | .unit core sl => .next (unitCommand s core sl resetOk resetSlu)
  | .software q => .next (dictWrite s q Obj.sluCmd (sluCommand resetOk resetSlu))
/-- SLUICE_FLUSH_APPLY: an accepted FLUSH at its packet boundary. -/
def execSluiceFlushApply (core : Fin 256) (sl : Fin 16) (s : State) : Host.Outcome State Fault Refusal :=
  if ((s.core core).sluice sl).flush && atBoundary s core sl then .next (flushNow s core sl) else .next s

/-! ### Narrow writing (R279, R280) -/

def refuseNarrow (s : State) (core : Nat) : Ans := Ans.refuse stState (raise s 0x5A0A .note (uCore core))
/-- A write of `Obj.sluNarrowData`, checked and applied. -/
def sluNarrowDataWrite (v : Nat) (s : State) : Ans :=
    let p := sluSelected s
    let z := (s.core p.1).sluice p.2
    let words := ceilDiv z.nbytes.length 64
    if !z.narrow || 16384 ≤ z.nbytes.length || (z.nbytes.length % 64 = 0 && z.room ≤ words) then refuseNarrow s p.1
    else Ans.ok (modSlu s p.1 p.2 fun z => { z with nbytes := z.nbytes ++ leBytes 4 v })
/-- SLU_NARROW_DATA_WRITE. -/
def execSluNarrowDataWrite (q : Req) (v : BitVec 32) (s : State) : Host.Outcome State Fault Refusal :=
  .next (dictWrite s q Obj.sluNarrowData (sluNarrowDataWrite v.toNat))
/-- The words of a narrow packet: the last carries the valid bytes. -/
def narrowPacket (bs : List Byte) : List SWord :=
  let n := ceilDiv bs.length 64
  (wordsOf n (leNat bs)).zipIdx.map fun p =>
    if p.2 + 1 = n then { data := p.1, last := true, vb := bs.length % 64 } else { data := p.1 }
/-- A write of `Obj.sluNarrowClose`, checked and applied. -/
def sluNarrowCloseWrite (v : Nat) (s : State) : Ans :=
    let p := sluSelected s
    let z := (s.core p.1).sluice p.2
    if v = 0 ∨ 4 < v then Ans.refuse stRange s
    else if !z.narrow || z.nbytes.isEmpty then refuseNarrow s p.1
    else Ans.ok (modSlu s p.1 p.2 fun z =>
      { z.commit (narrowPacket (z.nbytes.take (z.nbytes.length - 4 + v))) with nbytes := [] })
/-- SLU_NARROW_CLOSE_WRITE. -/
def execSluNarrowCloseWrite (q : Req) (v : BitVec 8) (s : State) : Host.Outcome State Fault Refusal :=
  .next (dictWrite s q Obj.sluNarrowClose (sluNarrowCloseWrite v.toNat))

/-! ### The deadlock watchdog (R286) -/

/-- The packet an entry holds out for its Sluice does not fit there. -/
def outBlocked (c : Core) (r : RunEntry) : Bool :=
  match r.outq with
  | [] => false
  | (sl, w) :: q => decide ((c.sluice sl).room < (headPacket (w :: (q.takeWhile fun x => x.1 == sl).map (·.2))).length)
/-- A core has a stream waiting for space, or an engine held at a full output Sluice. -/
def spaceWait (c : Core) : Bool := (c.ctxs.any fun p => p.2.st == .waitSpace) || c.running.any (outBlocked c)
/-- The end of a beat for the stalled-beat count of a core. -/
def stallBeat (stop : Bool) (c : Core) : Core :=
  if spaceWait c && !c.moved && !(c.ctxs.any fun p => p.2.st == .haltFault) && !stop then
    { c with stalled := min 256 (c.stalled + 1), moved := false }
  else { c with stalled := 0, moved := false }
/-- The writers that hold a packet: the stream context, its priority, and whether it is a load stream. -/
def holders (s : State) (core : Nat) : List (Nat × Nat × Bool) :=
  (List.range 48).filterMap fun i =>
    match s.desc core i with
    | some d =>
      if !((s.core core).ctx i).armed then none
      else if d.store then
        (if s.heldFor core d.sluice then some (i, d.prio, false) else none)
      else if inProgress s core i then some (i, d.prio, true) else none
    | none => none
/-- The lowest priority, and among equals the highest context. -/
def worst (a b : Nat × Nat × Bool) : Nat × Nat × Bool := if b.2.1 ≤ a.2.1 then b else a
/-- The packet in progress that the watchdog chose rewound, and its stream named; none where nothing holds one (R286; DEDUCED,
log 82). -/
def preempt (s : State) (core : Nat) : State × Nat :=
  match holders s core with
  | [] => (s, 0x3F)
  | h :: hs =>
    let v := hs.foldl worst h
    if v.2.2 then (modCtx (rewind s core v.1) core v.1 fun c => { c with st := .waitSpace }, v.1)
    else (s.bump (Obj.strmRewinds core) 1, v.1)
/-- DEADLOCK_PREEMPT (R286). -/
def execDeadlockPreempt (core : Fin 256) (s : State) : Host.Outcome State Fault Refusal :=
  let c := s.core core
  if c.stalled < 256 || c.noPreempt then .next s
  else
    let p := preempt s core
    let s := raise (p.1.bump (Obj.strmDeadlocks core) 1) 0x5A02 .note (uCore core) (posOf p.2 0)
    let n := c.preempts + 1
    let s := s.modCore core fun c => { c with stalled := 0, preempts := n }
    if n < 4 then .next s
    else .next (raise (s.modCore core fun c => { c with noPreempt := true }) 0x5A03 .stepAbort (uCore core))

end Sys2Proof.Machine
end

