-- ==== Sys2Proof/Machine/Training.lean ====
section
/-! DEFINITION. The tail of a training step: tallies (R195–R197), the health barrier (R201, R209) and barriers that are late (R53), the commit barrier
(R201, R382), commit and discard (R194, R202, R203, R210, R257), and the retry controls (R190, R204). -/

namespace Sys2Proof.Machine

/-! ### Tallies (R108, R195–R197) -/

/-- A layer's tally over the group: FWD_SAT, GAMAX, GSAT, GZERO, GNAN, GELEMS. -/
def layerTally (s : State) (l : Nat) : List Nat :=
  let ms := s.train.members
  let at_ (off : Nat) : List Nat := ms.map fun cl => s.sramRd cl (layerBase l + off) 4
  [satSum (ms.map fun cl => if (s.cluster cl).tailOpen then s.sramRd cl (layerBase l) 4 else fwdSat s cl l), (at_ 4).foldl max 0, satSum (at_ 8), satSum (at_ 0xC), satSum (at_ 0x10), satSum (at_ 0x14)]
/-- The step tally record of this device (R197). -/
def deviceTally (s : State) : List Nat :=
  let ms := s.train.members
  [sumOf (ms.map fun cl => sumOf ((s.cluster cl).plan.map (·.tokens))), ms.foldl (fun h cl => h ||| (s.cluster cl).health) 0,
   min 0xFFFF ((ms.map fun cl => s.reg (Obj.schedClSlipMax cl)).foldl max 0)] ++
    (List.range s.layerCount).flatMap (layerTally s)
/-- Two records combined field by field (R197). -/
def combineField (i a b : Nat) : Nat :=
  if i = 0 then min (a + b) (2 ^ 64 - 1)
  else if i = 1 then a ||| b
  else if i = 2 then max a b
  else if (i - 3) % 6 = 1 then max a b
  else min (a + b) 0xFFFFFFFF
def combineTally (a b : List Nat) : List Nat := (a.zip b).zipIdx.map fun p => combineField p.2 p.1.1 p.1.2
def tallyTokens (t : List Nat) : Nat := t.headD 0
def tallyLayer (t : List Nat) (l i : Nat) : Nat := (t.drop (3 + 6 * l + i)).headD 0
/-- The job's tally: the one that came round the reduction ring, or this device's where no collective carries one. -/
def jobTally (s : State) : List Nat :=
  match s.rill.colls.find? fun p => p.2.tally.isSome with
  | some p => p.2.tally.getD []
  | none => deviceTally s
/-- A collective of the active routing table carries the tally, and its record has not come round. -/
def tallyMissing (s : State) : Bool :=
  match s.routing with
  | none => false
  | some t =>
    (List.range (snapRd t 7 1)).any (fun k => collTally t k) && !s.rill.colls.any fun p => p.2.tally.isSome

/-! ### The health barrier (R198, R201, R209) -/

/-- A layer's forward saturation exceeds its threshold (R209). -/
def overThreshold (s : State) (t : List Nat) (l : Nat) : Bool :=
  elemsPerToken s l != 0 &&
    decide (s.layerRec l 0x18 4 * elemsPerToken s l * tallyTokens t < tallyLayer t l 0 * 2 ^ 24)
/-- The flags that a layer's tally sets: NAN, GRAD_SAT, FWD_SAT. -/
def layerFlags (s : State) (t : List Nat) (l : Nat) : Nat :=
  (if tallyLayer t l 4 = 0 then 0 else 1) ||| (if tallyLayer t l 2 = 0 then 0 else 8) ||| (if overThreshold s t l then 16 else 0)
def mkHealth (slipMax firstBad flags : Nat) : Nat := slipMax * 2 ^ 48 + firstBad * 2 ^ 32 + flags
/-- The flags that the arrivals at a barrier carry. -/
def arrivedFlags (s : State) (q : Barrier) : Nat := (s.arrivals.filter q.takes).foldl (fun f a => f ||| a.flags) 0
/-- The barrier health word (R198) of a job tally; `more` are the flags of its arrivals. -/
def barrierHealth (s : State) (t : List Nat) (abort : Bool) (more : Nat) : Nat :=
  let ls := List.range s.layerCount
  let flags := ls.foldl (fun f l => f ||| layerFlags s t l) ((t.drop 1).headD 0 ||| more ||| if abort then 2 else 0)
  mkHealth ((t.drop 2).headD 0) ((ls.find? fun l => layerFlags s t l != 0).getD 0xFFFF) (flags % 2 ^ 16)
def healthFlags (w : Nat) : Nat := w % 2 ^ 16
/-- Clean under the mask sampled at the plan origin (R199). -/
def cleanWord (s : State) (w : Nat) : Bool := healthFlags w &&& s.train.mask == 0
/-- The holds that the job tally sets or renews; the first such layer of the step is reported (R209). -/
def setHolds (s : State) (t : List Nat) (lead : Nat) : State :=
  let above := (List.range s.layerCount).filter (overThreshold s t)
  let s := forAll above (fun l s => s.modLayer l fun x => { x with hold := s.layerRec l 0x05 1 }) s
  let s := (s.withTrain { s.train with held := above })
  match above with
  | l :: _ => raise s 0x3F04 .note (uCluster lead) l
  | [] => s
/-- The tally objects show the last completed health barrier (R211). -/
def showTally (s : State) (t : List Nat) : State :=
  forAll (List.range s.layerCount) (fun l s => s.modLayer l fun x => { x with fwdSat := tallyLayer t l 0, gamax := tallyLayer t l 1 }) s
/-- The group leaves the health barrier: to the update, or to the discard. -/
def healthDone (s : State) (t : List Nat) (abort : Bool) (more lead : Nat) : State :=
  let w := barrierHealth s t abort more
  let s := setHolds (showTally s t) t lead
  let clean := cleanWord s w
  let s := (s.withTrain { s.train with tally := some t, healthWord := w, phase := if clean then .updating else .discardReady, earliest := s.beat + 1 })
  if clean then ledgerPhase s 1 (s.reg (Obj.schedClStep lead)) else s
def barrierAbort (s : State) (q : Barrier) : Bool := s.train.abort || s.arrivals.any fun a => q.takes a && a.abort
/-- HEALTH_BARRIER_COMPLETE (R201, R209), once the layer records it reads are as measured (R40). -/
def execHealthBarrierComplete (s : State) : Host.Outcome State Fault Refusal :=
  match s.barrierOf 1 .health, s.train.members with
  | some q, lead :: _ =>
    if s.train.phase != .running || !allArrived s q || (tallyMissing s && !barrierAbort s q) then .next s
    else
      let s := checkReads s (uCluster lead) s.layerReads
      .next (healthDone (releaseBarrier s q) (jobTally s) (barrierAbort s q) (arrivedFlags s q) lead)
  | _, _ => .next s

/-! ### The commit barrier (R201, R210, R382) -/

/-- A layer's watchdog threshold (R210). -/
def wdogThresh (s : State) (l : Nat) : Nat :=
  let t := s.layerRec l 0x06 2
  if t = 0xFFFF then s.reg Obj.stepWdogDefault else t
/-- A layer with OPT ≠ 0 all of whose gradients were zero in this step. -/
def silentLayer (s : State) (l : Nat) : Bool := s.layerRec l 0 1 != 0 && s.train.updated.contains l && !s.train.loud.contains l
/-- A layer whose counter reaches its threshold at this step's commit. -/
def wdogAlarm (s : State) (l : Nat) : Bool :=
  silentLayer s l && wdogThresh s l != 0 && (s.layer l).wdog + 1 == wdogThresh s l
def silentFlag (s : State) : Nat := if (List.range s.layerCount).any (wdogAlarm s) then 2 ^ 11 else 0
/-- COMMIT_BARRIER_COMPLETE (R201, R382): the final health word, and what the participants say of checkpoints. -/
def execCommitBarrierComplete (s : State) : Host.Outcome State Fault Refusal :=
  match s.barrierOf 1 .commit, s.train.members with
  | some q, lead :: _ =>
    if s.train.phase != .updating || !allArrived s q then .next s
    else
      let flags := arrivedFlags s q ||| s.train.updFlags ||| silentFlag s ||| (if barrierAbort s q then 2 else 0)
      let w := s.train.healthWord ||| (flags &&& 0x2803)
      let due := bitOf flags 16
      let hold := bitOf flags 17
      let own := bitOf (ownFlags s q) 17
      let s := releaseBarrier s q
      let clean := cleanWord s w
      let s := (s.setReg Obj.stepHealth w)
      let s := ((s.withTrain { s.train with healthWord := w, phase := if clean then .commitReady else .discardReady, earliest := s.beat + 1 }).withCkpt { s.ckpt with stopNext := clean && due && !hold })
      let s := if due && own then raise s 0x8A05 .note uMgt else s
      .next (ledgerPhase s 2 (s.reg (Obj.schedClStep lead)))
  | _, _ => .next s

/-! ### Gradient exponents (R194) -/

/-- floor(log2) of a positive FP32 word. -/
def log2F32 (w : Nat) : Int := if bitsOf w 23 8 = 0 then (Nat.log2 (max 1 (w % 2 ^ 23)) : Int) - 149 else (bitsOf w 23 8 : Int) - 127
def clampK (k : Int) : Int := max (-60) (min 60 k)
/-- New exponents, by a rule of the layer; the first clamp of a step is reported. -/
def setExponents (s : State) (lead : Nat) (f : Nat → Int) : State :=
  let ls := List.range s.layerCount
  let clamped := ls.find? fun l => clampK (f l) != f l
  let s := forAll ls (fun l s => s.modLayer l fun x => { x with k := clampK (f l) }) s
  match clamped with
  | some l => raise s 0x3F08 .note (uCluster lead) l
  | none => s
/-- The exponent of a committed step. -/
def committedK (s : State) (t : List Nat) (l : Nat) : Int :=
  let k := (s.layer l).k
  let a := tallyLayer t l 1
  if a = 0 then k + 1 else k + min (15 - (s.layerRec l 0x04 1 : Int) - log2F32 a) 1

/-! ### Commit (R202, R210, R257) -/

/-- Fallback holds that this step did not set fall by one. -/
def fallHolds (s : State) : State :=
  forAll (List.range s.layerCount) (fun l s => if s.train.held.contains l then s else s.modLayer l fun x => { x with hold := x.hold - 1 }) s
/-- The watchdog counters (R210). -/
def countSilent (s : State) (lead : Nat) : State :=
  forAll (List.range s.layerCount) (fun l s =>
    let alarm := wdogAlarm s l
    let s := s.modLayer l fun x => { x with wdog := if silentLayer s l then min 65535 (x.wdog + 1) else 0 }
    if alarm then raise s 0x3F05 .note (uCluster lead) l else s) s
/-- A publication that falls due: the copy starts, or it is skipped (R257). -/
def publish (s : State) (step : Nat) : State :=
  let every := ((s.table 9 0 1).map fun t => snapRd t 0x10 4).getD 0
  if every = 0 || step % every ≠ 0 then s
  else if (s.inRole 2).isEmpty || s.reg Obj.epochShadow ≠ 0 then raise (s.bump Obj.epochSkipped 1) 0x4D02 .note uMgt
  else (s.withTrain { s.train with publishing := some step })
/-- A core after its step: nothing in progress but an encoding (part 0), which belongs to no step (R49). -/
def coreStepEnd (c : Core) : Core :=
  { c with todo := c.todo.filter (·.mb == 0), running := c.running.filter (·.plan.mb == 0), tokens := c.tokens.filter (·.2 == 0), accHeld := false,
           scouts := [] }
/-- The barriers of a group forgotten. -/
def dropArrivals (s : State) (g : Nat) : State := s.withArrivals (s.arrivals.filter (·.group != g))
/-- What every end of a training step leaves: streams ended, lists empty, barriers forgotten. -/
def stepEnd (s : State) : State :=
  let s := forAll s.train.members (fun cl s =>
    let s := boundaryDisarm s cl
    forAll (coresOf cl) (fun n s => s.modCore n coreStepEnd) s) s
  ((dropArrivals s 1).withTrain { s.train with phase := if s.train.members.isEmpty then .idle else .boundary, earliest := s.beat + 1 })
/-- A commit, in one beat (R202). -/
def commitStep (s : State) (lead : Nat) : State :=
  let step := s.reg (Obj.schedClStep lead)
  let w := s.train.healthWord
  let s := s.setReg Obj.stepBank (1 - s.reg Obj.stepBank % 2)
  let s := forAll s.train.members (fun cl s => s.setReg (Obj.schedClStep cl) (step + 1)) s
  let s := setExponents s lead (committedK s (s.train.tally.getD []))
  let s := countSilent (fallHolds s) lead
  let s := ((s.setReg Obj.stepRetries 0).bump Obj.stepCommits 1).setReg Obj.stepOutcome 1
  let s := publish s (step + 1)
  let s := forAll s.train.members (fun cl s => s.modCluster cl fun c => { c with lengths := [] }) s
  let s := ledgerPhase s 3 step
  let s := stepDone s step w 1
  let s := (s.withCkpt { s.ckpt with dataPos := some (s.reg Obj.stepDataPos) })
  let s := if s.ckpt.stopNext then s.addHold .checkpoint else s
  stepEnd s
/-- STEP_COMMIT: the first beat after a clean commit barrier, once a publication's copy is done (R202, R257). -/
def execStepCommit (s : State) : Host.Outcome State Fault Refusal :=
  match s.train.members with
  | [] => .next s
  | lead :: _ =>
    if s.train.phase != .commitReady || s.train.publishing.isSome || s.beat < s.train.earliest then .next s
    else .next (commitStep s lead)

/-! ### Discard (R203, R204) -/

/-- History slots that the step appended to stand as at its origin (R203). -/
def restoreHist (c : Core) : Core := { coreStepEnd c with hist := c.histOrigin, regions := [] }
/-- A discard (R203). -/
def discardStep (s : State) (lead : Nat) : State :=
  let step := s.reg (Obj.schedClStep lead)
  let w := s.train.healthWord
  let s := if healthFlags w &&& 9 = 0 then s else setExponents s lead fun l => (s.layer l).k - 1
  let s := forAll s.train.members (fun cl s =>
    let s := s.modCluster cl clearStash
    forAll (coresOf cl) (fun n s => s.modCore n restoreHist) s) s
  let s := (((s.bump Obj.stepDiscards 1).bump Obj.stepRetries 1).setReg Obj.stepOutcome 2).setReg Obj.stepHealth w
  let s := raise s 0x3F01 .stepAbort (uCluster lead) w
  let limit := s.reg Obj.stepRetryLimit
  let s := if limit ≠ 0 && s.reg Obj.stepRetries = limit then
      raise (s.withTrain { s.train with stopped := true }) 0x3F02 .degrade (uCluster lead) else s
  let s := ledgerPhase s 4 step
  let s := stepDone s step w 2
  let s := stepEnd s
  (((s.withTrain { s.train with abort := false }).withCkpt { s.ckpt with stopNext := false }).withRill { s.rill with held := [], colls := [] })
/-- The word of a step that no barrier judged. -/
def abortedWord (s : State) : Nat :=
  let t := deviceTally s
  mkHealth ((t.drop 2).headD 0) 0xFFFF (((t.drop 1).headD 0 ||| 2) % 2 ^ 16)
/-- A barrier that does not complete in time raises a step-abort; its position names the lowest participant missing, and
the training group discards its step (R53). -/
def graceOver (s : State) (cl part : Nat) : State :=
  let s := raise s 0x4A11 .stepAbort (uCluster cl) part
  if s.role cl = 1 && (s.train.phase == .running || s.train.phase == .updating) then
    (s.withTrain { s.train with phase := .discardReady, healthWord := abortedWord s, earliest := s.beat + 1 })
  else s
/-- The arrivals at a barrier that have waited longer than the grace beyond the deadline. -/
def overdue (s : State) (q : Barrier) : List Arrival :=
  s.arrivals.filter fun a => q.takes a && partLocal s a.part && decide (max a.beat a.deadline + s.reg Obj.cadBarrierGrace < s.beat)
/-- The participants that a barrier still waits for. -/
def missing (s : State) (q : Barrier) : List Nat := q.desc.parts.filter fun p => !hasArrived s q p
/-- BARRIER_GRACE_EXPIRED (R53): a participant has waited longer than the grace beyond the deadline. -/
def execBarrierGraceExpired (b : BitVec 16) (s : State) : Host.Outcome State Fault Refusal :=
  match s.barrierWhere b.toNat fun q => !(overdue s q).isEmpty && !(missing s q).isEmpty with
  | none => .next s
  | some q =>
    match overdue s q, missing s q with
    | a :: _, p :: ps =>
      match partClusters s a.part with
      | cl :: _ => .next (graceOver s cl (ps.foldl min p))
      | [] => .next s
    | _, _ => .next s
/-- STEP_DISCARD: the first beat after the decision (R203); a step that lost every cluster is discarded too (R56, R369). -/
def execStepDiscard (s : State) : Host.Outcome State Fault Refusal :=
  let lost := s.train.members.isEmpty && !betweenSteps s.train.phase
  if lost then .next (discardStep (s.withTrain { s.train with healthWord := abortedWord s }) (s.train.atOrigin.headD 0))
  else if s.train.phase != .discardReady || s.beat < s.train.earliest then .next s
  else .next (discardStep s (s.train.members.headD 0))

/-! ### Publication (R257) -/

/-- Bytes written at device virtual addresses, page by page; what the page tables do not map is not written. -/
def vaPut (s : State) (va : Nat) (b : Byte) : State :=
  match walk s va true false none with
  | .hit e _ => (s.withMem (memSetByte s.mem (e.frame + (va - e.va)) b))
  | .fail _ => s
/-- A byte at a device virtual address; what the page tables do not map reads as 0. -/
def vaByte (s : State) (va : Nat) : Nat :=
  match walk s va false false none with
  | .hit e _ => (memByte s.mem (e.frame + (va - e.va))).toNat
  | .fail _ => 0
/-- The weight bank that is not active (R256). -/
def shadowBank (s : State) : Nat := if s.reg Obj.epochBank = 0 then s.reg Obj.epochBase1 else s.reg Obj.epochBase0
/-- The store streams of banked state that take what a tail entry of MODE 1 or 2 writes: its codes or side rows, and its scale words. -/
def weightStores (s : State) (core : Nat) (t : TableRec) (p : PlanEntry) : List Nat :=
  let e := s.entryAt t p.off
  let b := s.blockAt t e
  if e.op ≠ 0x0B || uMode b = 0 then []
  else (List.range 48).filter fun i =>
    ((s.desc core i).map fun d => d.store && d.kind == 1 && (d.sluice == uOut b || d.sluice == fld b 0x0F 1)).getD false
/-- The bases that a store's armings in the tail give it, in the bank that is committed now (R267, R270). -/
def storeBases (s : State) (t : TableRec) (tail : List PlanEntry) (i : Nat) (d : Desc) : List Nat :=
  let bank := s.reg Obj.stepBank
  let own := if bank = 0 then d.base0 else d.base1
  (tail.filterMap fun p =>
    let e := s.entryAt t p.off
    let b := s.blockAt t e
    let v := fld b (if bank = 0 then 0x08 else 0x10) 8
    if e.op = 0x07 && fld b 0 1 = i && (fld b 1 1 = 1 || fld b 1 1 = 2) then some (if v = 0 then own else v) else none).eraseDups
/-- The virtual addresses of the bytes of a stream's elements. -/
def streamBytes (d : Desc) (base : Nat) : List Nat :=
  (List.range (d.numPkts * d.pktElems)).flatMap fun e =>
    let bit := d.elemBit base e
    (List.range ((bit % 8 + d.width + 7) / 8)).map fun k => bit / 8 + k
/-- The bytes of the committed narrow weight copies, scale words and side weights of the training group: those of the streams that its
update entries feed (DEDUCED, log 77). -/
def weightBytes (s : State) : List Nat :=
  s.train.members.flatMap fun cl =>
    match s.table 6 cl 1 with
    | none => []
    | some t =>
      (coresOf cl).flatMap fun core =>
        let tail := tailEntries t core (fencedKey (s.cluster cl).fencedSample) s.train.wide 0 0
        ((tail.flatMap (weightStores s core t)).eraseDups).flatMap fun i =>
          match s.desc core i with
          | some d => (storeBases s t tail i d).flatMap (streamBytes d)
          | none => []
/-- A copy that brings every byte of the committed weights into the shadow bank, and nothing else. -/
def copyOk (s : State) (copy : List (BitVec 64 × BitVec 64)) : Bool :=
  let w := weightBytes s
  (w.all fun a => copy.any fun p => p.2.toNat == a) && copy.all fun p => w.contains p.2.toNat && decide (p.1.toNat < s.reg Obj.epochLen)
/-- The bytes copied: each from a committed address to its offset in the shadow bank. -/
def copyWeights (s : State) (copy : List (BitVec 64 × BitVec 64)) : State :=
  forAll copy (fun p s => vaPut s (shadowBank s + p.1.toNat) (BitVec.ofNat 8 (vaByte s p.2.toNat))) s
/-- EPOCH_PUBLISH_COPY_DONE (R257): the streams of the group have copied the committed weights, byte by byte, each to the offset that `copy`
gives it (the manual does not lay a bank out), and the epoch is staged. A rollout group that is gone leaves nothing to copy into. -/
def execEpochPublishCopyDone (copy : List (BitVec 64 × BitVec 64)) (s : State) : Host.Outcome State Fault Refusal :=
  match s.train.publishing with
  | none => .next s
  | some n =>
    let gone := (s.inRole 2).isEmpty
    if !gone && !copyOk s copy then .next s
    else
      let s := if gone then s else (copyWeights s copy).setReg Obj.epochShadow (2 ^ 63 + n)
      let s := (s.withTrain { s.train with publishing := none })
      let late := s.beat - s.train.earliest
      .next (if s.train.phase = .commitReady ∧ 0 < late then forAll s.train.members (fun cl s => noteSlip s cl late) s else s)

/-! ### The host's controls (R190, R204) -/

/-- A write of `Obj.stepDataPos`, checked and applied. -/
def dataPosWrite (v : Nat) (s : State) : Ans :=
    Ans.ok ((s.setReg Obj.stepDataPos v).withTrain { s.train with skewWait := false })
/-- DATA_POS_WRITE (R190). -/
def execDataPosWrite (q : Req) (v : BitVec 128) (s : State) : Host.Outcome State Fault Refusal :=
  .next (dictWrite s q Obj.stepDataPos (dataPosWrite v.toNat))
/-- The step number of the training group, or of the device where it has none. -/
def State.trainStep (s : State) : Nat := s.reg (Obj.schedClStep (s.train.members.headD 0))
/-- A write of `Obj.stepSkip`, checked and applied. -/
def stepSkipWrite (v : Nat) (s : State) : Ans :=
    if !s.train.stopped || s.train.members.isEmpty then Ans.refuse stState s
    else if v ≠ s.trainStep then Ans.refuse stRange s
    else
      let n := s.trainStep + 1
      let s := forAll s.train.members (fun cl s => s.setReg (Obj.schedClStep cl) n) s
      Ans.ok ((s.setReg Obj.stepRetries 0).withTrain { s.train with stopped := false })
/-- STEP_SKIP_WRITE (R204). -/
def execStepSkipWrite (q : Req) (v : BitVec 64) (s : State) : Host.Outcome State Fault Refusal :=
  .next (dictWrite s q Obj.stepSkip (stepSkipWrite v.toNat))
/-- A write of `Obj.stepRetryLimit`, checked and applied. -/
def retryLimitWrite (v : Nat) (s : State) : Ans :=
    let s := s.setReg Obj.stepRetryLimit v
    let go := v = 0 || s.reg Obj.stepRetries < v
    Ans.ok (if go then (s.withTrain { s.train with stopped := false }) else s)
/-- RETRY_LIMIT_WRITE (R204). -/
def execRetryLimitWrite (q : Req) (v : BitVec 8) (s : State) : Host.Outcome State Fault Refusal :=
  .next (dictWrite s q Obj.stepRetryLimit (retryLimitWrite v.toNat))

end Sys2Proof.Machine
end

