-- ==== Sys2Proof/Machine/Roce.lean ====
section
/-! DEFINITION. The RoCE responder (R351, R353, R356–R358): which queue pair takes a request, in what order, what it may
reach, and what refuses it. -/

namespace Sys2Proof.Machine

/-! ### Syndromes of RoCE v2 (PRESUMED, log 30) -/

def synSequence : Nat := 0x60
def synRequest : Nat := 0x61
def synAccess : Nat := 0x62
def synOperation : Nat := 0x63

/-! ### Exposed regions (R358) -/

def State.rgn (s : State) (r : Nat) : Nat := s.reg (ofUnit Obj.roceRgn r)
def rgnVa (v : Nat) : Nat := fld v 0 8
def rgnLen (v : Nat) : Nat := fld v 8 8
def rgnKey (v : Nat) : Nat := fld v 0x10 4
def rgnFlags (v : Nat) : Nat := fld v 0x14 4
def rgnValid (v : Nat) : Bool := bitOf (rgnFlags v) 4
/-- Whether a region serves an access of a network. -/
def rgnServes (v net va n key : Nat) (write : Bool) : Bool :=
  rgnValid v && rgnKey v == key && decide (rgnVa v ≤ va) && decide (va + n ≤ rgnVa v + rgnLen v) &&
    bitOf (rgnFlags v) (if write then 1 else 0) && bitOf (rgnFlags v) (2 + net)
/-- A write into the locked bank: an epoch is staged and waits for its switch (R256). -/
def epochLocked (s : State) (va n : Nat) : Bool :=
  s.reg Obj.epochShadow != 0 && rangesMeet (va, n) (shadowBank s, s.reg Obj.epochLen)
/-- Whether an access is served: its region, its translation, the epoch lock. -/
def accessOk (s : State) (net va n key : Nat) (write : Bool) : Bool :=
  ((List.range 256).any fun r => rgnServes (s.rgn r) net va n key write) && vaOk s va n write && !(write && epochLocked s va n)

/-! ### Answers -/

/-- A NAK that ends the queue pair's operation; the queue pair enters the error state (R356). -/
def opNak (s : State) (i psn syn : Nat) : State := qpFail (roceEmit s (s.qpPort i) (.nak i psn syn)) i
/-- A remote access error: counted, and reported at the first on the queue pair. -/
def accessNak (s : State) (i psn : Nat) : State :=
  let s := s.bump Obj.roceAccessNaks 1
  let s := if (s.qp i).naked then s else raise (s.modQp i fun q => { q with naked := true }) 0x7B04 .note uDevice
  opNak s i psn synAccess
def ackUp (s : State) (i psn : Nat) : State := roceEmit s (s.qpPort i) (.ack i psn)

/-! ### Which queue pair, and in what order (R353, R354, R357) -/

/-- The ready queue pair that a packet names, on the network of the port that it came by. -/
def rxQp (s : State) (h : RoceHdr) : Option Nat :=
  let i := h.qpn.toNat - 0x100
  if 0x100 ≤ h.qpn.toNat ∧ i < 2048 ∧ s.running ∧ s.portUp h.port ∧ s.qpState i = 1 ∧ s.qpNet i = h.port / 4 then some i else none
/-- A marked packet is answered with a congestion notification. -/
def noteEcn (s : State) (i : Nat) (h : RoceHdr) : State := if h.ecn then roceEmit s (s.qpPort i) (.cnp i) else s
/-- Where a packet stands against the expected one: expected, repeated, or after a gap. -/
inductive SeqPos where
  | due | old | gap
  deriving DecidableEq, Repr
def seqPosOf (d : Nat) : SeqPos := if d = 0 then .due else if d < psnMod / 2 then .gap else .old
/-- How far `a` lies after `b`, modulo 2^24. -/
def psnDist (a b : Nat) : Nat := (a + (psnMod - b)) % psnMod
def seqPos (s : State) (i : Nat) (h : RoceHdr) : SeqPos := seqPosOf (psnDist h.psn.toNat (s.qp i).recvPsn)
/-- The packet sequence number before `n`. -/
def psnPrev (n : Nat) : Nat := (n + (psnMod - 1)) % psnMod
/-- The expected sequence number moves past `n` packets. -/
def rxAdvance (s : State) (i n : Nat) : State := s.modQp i fun q => { q with recvPsn := (q.recvPsn + n) % psnMod }
/-- A packet by where it stands. -/
def rxBySeq (s : State) (i : Nat) (h : RoceHdr) (f : Nat → State → State) : State :=
  match seqPos s i h with
  | .due => f i s
  | .old => ackUp s i (psnPrev (s.qp i).recvPsn)
  | .gap => roceEmit s (s.qpPort i) (.nak i (s.qp i).recvPsn synSequence)
/-- A packet that writes, taken in its order: a repeated one is acknowledged again and does nothing, one after a gap is
answered with a sequence NAK. -/
def rxOrdered (s : State) (h : RoceHdr) (f : Nat → State → State) : State :=
  match rxQp s h with
  | none => dropFrame s h.port
  | some i => rxBySeq (noteEcn s i h) i h f

/-! ### RDMA WRITE into a region -/

/-- The bytes of one packet, at their place; the last of the message is acknowledged. -/
def writePacket (s : State) (i psn va left : Nat) (last : Bool) (bytes : List Byte) : State :=
  if left < bytes.length || (last != decide (bytes.length = left)) || (!last && bytes.length != 4096) then opNak s i psn synRequest
  else if !vaOk s va bytes.length true || epochLocked s va bytes.length then accessNak s i psn
  else
    let s := rxAdvance (vaStore s va bytes) i 1
    let s := s.modQp i fun q => { q with wr := if last then none else some (va + bytes.length, left - bytes.length) }
    if last then ackUp s i psn else s
/-- A packet of a WRITE: the first brings the address and is checked for the whole message. -/
def regionWrite (s : State) (i psn : Nat) (first : Option RoceAddr) (last : Bool) (bytes : List Byte) : State :=
  match first, (s.qp i).wr with
  | some a, none =>
    if accessOk s (s.qpNet i) a.va.toNat a.len.toNat a.rkey.toNat true then writePacket s i psn a.va.toNat a.len.toNat last bytes
    else accessNak s i psn
  | none, some w => writePacket s i psn w.1 w.2 last bytes
  | _, _ => opNak s i psn synRequest

/-! ### RDMA READ of a region -/

/-- A read of a region: its data, or a NAK where a word is uncorrectable (R356). -/
def regionRead (s : State) (i psn : Nat) (a : RoceAddr) (ue : Bool) : State :=
  if !accessOk s (s.qpNet i) a.va.toNat a.len.toNat a.rkey.toNat false then accessNak s i psn
  else
    let r := vaLoad s a.va.toNat a.len.toNat
    let bad := vaBad s a.va.toNat a.len.toNat ue
    let s := vaMark s a.va.toNat a.len.toNat
    if ue || r.2 then opNak (forAll bad.toList (fun a s => noteUe s a) s) i psn synOperation else roceEmit s (s.qpPort i) (.data i psn r.1)

end Sys2Proof.Machine
end

