-- ==== Sys2Proof/Machine/Mailbox.lean ====
section
/-! DEFINITION. Mailboxes: the host's page (R363), writing into a channel (R364, R365), taking and doorbells (R366), messages
of the management controller (R365, R367) and length words (R368). -/

namespace Sys2Proof.Machine

/-! ### Channels of the device's own receivers -/

/-- The receiver of a page port: 0 and 1 the management controller, 2 + n the sequencer of cluster n. -/
def portReceiver (j : Nat) : Nat := if j < 2 then epMc else epSeq (j - 2)
def Chan.full (c : Chan) : Bool := decide (8 ≤ (c.w + 2 ^ 32 - c.t) % 2 ^ 32)
/-- The unit that a full channel's event names. -/
def epUnit (ep : Nat) : Nat := if ep = epMc then uMgt else if ep < 0x40 then uCluster (ep - 0x10) else uDevice
/-- A write into a full channel, counted and reported. -/
def fullWrite (s : State) (ep : Nat) : State := raise (s.bump Obj.mbxFullWrites 1) 0xAA01 .note (epUnit ep)
/-- A message placed in its slot; W advances and the receiver's bit is set. -/
def place (s : State) (sender receiver : Nat) (secure : Bool) (bytes : List Byte) : State :=
  let k := chanKey sender receiver secure
  let m := stamp sender secure (s.chan k).w bytes
  ring (s.modChan k fun c => { c with w := (c.w + 1) % 2 ^ 32, msgs := c.msgs ++ [m] }) receiver (msgDbell bytes)

/-! ### The host's page (R363, R365) -/

def mbxRange : Nat := 16 * 4096
/-- Whether a key and address lie in the mailbox pages; a key of 0 disables them. -/
def inMailbox (s : State) (va key : Nat) : Bool :=
  s.reg Obj.mbxRkey != 0 && key == s.reg Obj.mbxRkey && decide (s.reg Obj.mbxVa ≤ va) && decide (va < s.reg Obj.mbxVa + mbxRange)
def State.epSecure (s : State) (e : Nat) : Bool := bitOf (s.reg Obj.secSecureEps) e
/-- The endpoint accepts accesses of a queue pair. -/
def boundTo (s : State) (e i : Nat) : Bool := s.hostExists e && s.reg (Obj.mbxEpQp e) == i
/-- A message type that a port's channel carries. -/
def typeOk (j type : Nat) : Bool := if j < 2 then decide (type < 0x80) else type == 1
/-- A write into PORT[j]. -/
def portWrite (s : State) (i psn e j off : Nat) (bytes : List Byte) : State :=
  if bytes.length ≠ 64 || off ≠ 0 || (j == 1 && !s.epSecure e) || !typeOk j (leNat (bytes.take 1)) then accessNak s i psn
  else if (s.chan (chanKey (epHost e) (portReceiver j) (j == 1))).full then opNak (fullWrite s (portReceiver j)) i psn synOperation
  else ackUp (rxAdvance (place s (epHost e) (portReceiver j) (j == 1) bytes) i 1) i psn
/-- A write of a whole 4-byte field of the page, which has an effect. -/
def fieldWrite (s : State) (i psn : Nat) (bytes : List Byte) (f : Nat → NetState → NetState) : State :=
  if bytes.length ≠ 4 then accessNak s i psn else ackUp (rxAdvance (s.withNet (f (leNat bytes) s.net)) i 1) i psn
def setCons (e j v : Nat) (n : NetState) : NetState := { n with cons := smSet zeroWord n.cons (32 * e + j) v }
def clearDb (e v : Nat) (n : NetState) : NetState :=
  { n with hostPending := smSet zeroWord n.hostPending e (smGet zeroWord n.hostPending e &&& (2 ^ 32 - 1 - v % 2 ^ 32)) }
def setMask (e v : Nat) (n : NetState) : NetState := { n with hostMask := smSet zeroWord n.hostMask e v }
/-- A write into the mailbox pages, at an offset from `MBX.VA`. -/
def mbxWrite (s : State) (i psn off : Nat) (bytes : List Byte) : State :=
  let e := off / 4096
  let o := off % 4096
  if !decide (e < 16) || !boundTo s e i then accessNak s i psn
  else if o < 0x480 then portWrite s i psn e (o / 64) (o % 64) bytes
  else if 0xC00 ≤ o ∧ o < 0xC48 ∧ o % 4 = 0 then fieldWrite s i psn bytes (setCons e ((o - 0xC00) / 4))
  else if o = 0xE04 then fieldWrite s i psn bytes (clearDb e)
  else if o = 0xE08 then fieldWrite s i psn bytes (setMask e)
  else accessNak s i psn
/-- TAKEN[j] of an endpoint. -/
def takenOf (s : State) (e j : Nat) : Nat := (s.chan (chanKey (epHost e) (portReceiver j) (j == 1))).t
/-- A read of the page: TAKEN and DB_PENDING may be read. -/
def mbxRead (s : State) (i psn off n : Nat) : State :=
  let e := off / 4096
  let o := off % 4096
  let taken := (List.range 18).flatMap fun j => leBytes 4 (takenOf s e j)
  if !decide (e < 16) || !boundTo s e i then accessNak s i psn
  else if 0xD00 ≤ o ∧ o + n ≤ 0xD48 then roceEmit s (s.qpPort i) (.data i psn ((taken.drop (o - 0xD00)).take n))
  else if 0xE00 ≤ o ∧ o + n ≤ 0xE04 then roceEmit s (s.qpPort i) (.data i psn (((leBytes 4 (s.dbPending (epHost e))).drop (o - 0xE00)).take n))
  else accessNak s i psn
/-- A write that a host makes at an offset of an endpoint's page, in the order of its queue pair. -/
def pageWrite (s : State) (h : RoceHdr) (key : BitVec 32) (e off : Nat) (bytes : List Byte) : State :=
  rxOrdered (rxFrame s h.port) h fun i s =>
    if (s.qp i).wr.isSome then opNak s i h.psn.toNat synRequest
    else if inMailbox s (s.reg Obj.mbxVa + 4096 * e + off) key.toNat then mbxWrite s i h.psn.toNat (4096 * e + off) bytes
    else accessNak s i h.psn.toNat

/-- MBX_PORT_WRITE (R365): an RDMA WRITE that begins `off` bytes into PORT[j] of an endpoint's page. -/
def execMbxPortWrite (h : RoceHdr) (key : BitVec 32) (e : Fin 16) (j : Fin 18) (off : Fin 64) (bytes : List Byte) (s : State) :
    Host.Outcome State Fault Refusal := .next (pageWrite s h key e (64 * j + off) bytes)
/-- MBX_CONS_WRITE (R363, R367). -/
def execMbxConsWrite (h : RoceHdr) (key : BitVec 32) (e : Fin 16) (j : Fin 18) (v : BitVec 32) (s : State) :
    Host.Outcome State Fault Refusal := .next (pageWrite s h key e (0xC00 + 4 * j) (leBytes 4 v.toNat))
/-- MBX_DB_CLEAR_WRITE (R363). -/
def execMbxDbClearWrite (h : RoceHdr) (key : BitVec 32) (e : Fin 16) (v : BitVec 32) (s : State) : Host.Outcome State Fault Refusal :=
  .next (pageWrite s h key e 0xE04 (leBytes 4 v.toNat))
/-- A mask object written: the management controller is interrupted where it is notified now and was not before. -/
def maskWrite (obj ep v : Nat) (s : State) : Ans :=
  let was := s.notified ep
  let s := s.setReg obj v
  Ans.ok (if ep = epMc && !was && s.notified ep then s.emit .interrupt else s)
/-- MBX_DB_MASK_WRITE (R366). -/
def execMbxDbMaskWrite (m : MaskAt) (v : BitVec 32) (s : State) : Host.Outcome State Fault Refusal :=
  match m with
  | .mc q => .next (dictWrite s q Obj.mbxMcDbMask (maskWrite Obj.mbxMcDbMask epMc v.toNat))
  | .seq q cl => .next (dictWrite s q (Obj.mbxSqDbMask cl) (maskWrite (Obj.mbxSqDbMask cl) (epSeq cl) v.toNat))
  | .host h key e => .next (pageWrite s h key e 0xE08 (leBytes 4 v.toNat))

/-! ### Length words (R368) -/

def msgType (m : List Byte) : Nat := leNat (m.take 1)
/-- Whether a LENGTHS message is taken: a training cluster that awaits the plan of its step, and indices in range. -/
def lengthsOk (s : State) (cl w : Nat) : Bool :=
  let count := fld w 0x12 1
  s.role cl == 1 && betweenSteps s.train.phase && fld w 8 8 == s.reg (Obj.schedClStep cl) && decide (1 ≤ count) && decide (count ≤ 10) &&
    decide (fld w 0x10 2 + count ≤ s.mbPerStep cl)
def takeLengths (s : State) (cl : Nat) (m : List Byte) : State :=
  let w := leNat m
  if lengthsOk s cl w then
    s.modCluster cl fun c =>
      { c with lengthsAt := s.beat, lengths := smSetMany noLength c.lengths ((List.range (fld w 0x12 1)).map fun k => (fld w 0x10 2 + k, fld w (0x14 + 4 * k) 4)) }
  else raise (s.bump Obj.mbxBadLengths 1) 0xAA03 .note (uCluster cl)

/-! ### Taking (R366) -/

/-- Messages of a channel up to the first whose bit is masked. -/
def takable (mask : Nat) (c : Chan) : List (List Byte) := c.msgs.takeWhile fun m => !bitOf mask (msgDbell m)
/-- One channel emptied so far; answers the bits served. -/
def takeChan (s : State) (receiver sender : Nat) (secure : Bool) (served : Nat) (f : List Byte → State → State) : Nat × State :=
  let k := chanKey sender receiver secure
  let ms := takable (s.dbMask receiver) (s.chan k)
  let s := s.modChan k fun c => { c with t := (c.t + ms.length) % 2 ^ 32, msgs := c.msgs.drop ms.length }
  (ms.foldl (fun b m => b ||| 2 ^ msgDbell m) served, forAll ms f s)
/-- Every channel of a receiver, by sender; the bits served are cleared. -/
def takeAll (s : State) (receiver : Nat) (chans : List (Nat × Bool)) (f : List Byte → State → State) : State :=
  let r := chans.foldl (fun (a : Nat × State) k => takeChan a.2 receiver k.1 k.2 a.1 f) (0, s)
  r.2.setPending receiver (r.2.dbPending receiver &&& (2 ^ 32 - 1 - r.1 % 2 ^ 32))
/-- The channels of a sequencer, and of the management controller. -/
def seqChans : List (Nat × Bool) := (epMc, false) :: (List.range 16).map fun e => (epHost e, false)
def mcChans : List (Nat × Bool) := (List.range 16).flatMap fun e => [(epHost e, false), (epHost e, true)]

/-- SEQUENCER_MAILBOX_TAKE (R366, R368): none is taken during a checkpoint stop. Only LENGTHS means something to it. -/
def execSequencerMailboxTake (cl : Fin 16) (s : State) : Host.Outcome State Fault Refusal :=
  if !s.running || !s.notified (epSeq cl) || s.reg Obj.ckptState = 1 then .next s
  else .next (takeAll s (epSeq cl) seqChans fun m s => if msgType m = 1 then takeLengths s cl m else s)
/-- MC_MAILBOX_SERVICE (R366): messages wait during a warm restart. -/
def execMcMailboxService (s : State) : Host.Outcome State Fault Refusal :=
  if !s.running || !s.notified epMc || s.mgt.restarting then .next s else .next (takeAll s epMc mcChans fun _ s => s)

/-- A message of the firmware to a sequencer. -/
def mcToSeq (s : State) (cl : Nat) (bytes : List Byte) : State :=
  if (s.chan (chanKey epMc (epSeq cl) false)).full then fullWrite s (epSeq cl) else place s epMc (epSeq cl) false bytes
/-- A message of the firmware to a host endpoint; without a ready queue pair it goes nowhere. -/
def mcToHost (s : State) (e : Nat) (secure : Bool) (bytes : List Byte) : State :=
  if !s.hostExists e || s.reg Obj.mbxRkey = 0 || s.qpState (s.reg (Obj.mbxEpQp e)) ≠ 1 then s
  else if s.hostFull e epMc secure then fullWrite s (epHost e) else sendHost s e epMc secure bytes
/-- MC_MAILBOX_SEND (R365, R367): to the sequencer of a cluster, or from 16 on to a host endpoint. -/
def execMcMailboxSend (dest : Fin 32) (secure : Bool) (msg : BitVec 512) (s : State) : Host.Outcome State Fault Refusal :=
  if !s.running || s.mgt.restarting then .next s
  else if dest.val < 16 then .next (mcToSeq s dest.val (leBytes 64 msg.toNat))
  else .next (mcToHost s (dest.val - 16) secure (leBytes 64 msg.toNat))

end Sys2Proof.Machine
end

