-- ==== Sys2Proof/Machine/Ethernet.lean ====
section
/-! DEFINITION. Ethernet: port states (R352–R355), what the network layer answers and flow control (R351), RoCE requests and
answers (R351, R354, R356), queue pairs (R357) and exposed regions (R358). -/

namespace Sys2Proof.Machine

/-! ### Port states (R352) -/

/-- A port enters TRAINING. -/
def ethTrain (s : State) (p : Nat) : State := ethState s p 1
/-- A write of `ETH.P_ENABLE`, checked and applied. -/
def ethEnableWrite (p v : Nat) (s : State) : Ans :=
  if v = 1 then
    let s := s.setReg (Obj.ethPEnable p) 1
    Ans.ok (if s.reg (Obj.ethPState p) = 4 then ethTrain s p else s)
  else if v = 0 then
    let s := s.setReg (Obj.ethPEnable p) 0
    Ans.ok (if s.reg (Obj.ethPState p) = 0 then s else ethLeave s p 4)
  else Ans.refuse stRange s
/-- ETH_PORT_ENABLE (R352). -/
def execEthPortEnable (q : Req) (p : Fin 8) (s : State) : Host.Outcome State Fault Refusal :=
  .next (dictWrite s q (Obj.ethPEnable p) (ethEnableWrite p 1))
/-- ETH_PORT_DISABLE (R352). -/
def execEthPortDisable (q : Req) (p : Fin 8) (s : State) : Host.Outcome State Fault Refusal :=
  .next (dictWrite s q (Obj.ethPEnable p) (ethEnableWrite p 0))
/-- LACP runs on a network (R351); in recovery the ports come up without link aggregation (R441). -/
def State.lacp (s : State) (p : Nat) : Bool := s.reg (Obj.ethNLacp (p / 4)) == 1 && s.reg Obj.bootStage != 8
/-- A port in TRAINING whose link is up enters UP, under LACP once its partner is in sync. -/
def tryUp (s : State) (p : Nat) : State :=
  if s.reg (Obj.ethPState p) = 1 ∧ (s.eth p).link ∧ (!s.lacp p ∨ (s.eth p).sync) then ethEnter s p else s
/-- ETH_LINK_UP (R352, R354): `sync` says that the LACP partner is in sync. -/
def execEthLinkUp (p : Fin 8) (sync : Bool) (s : State) : Host.Outcome State Fault Refusal :=
  if s.reg (Obj.ethPState p) ≠ 1 then .next s
  else .next (tryUp (s.modEth p fun e => { e with link := true, sync := sync || e.sync }) p)
/-- ETH_LINK_DOWN (R352, R354, R355): block lock or FEC alignment lost for 50 µs. -/
def execEthLinkDown (p : Fin 8) (s : State) : Host.Outcome State Fault Refusal :=
  if s.portUp p then .next (ethLeave s p 3)
  else if s.reg (Obj.ethPState p) = 1 then .next (s.modEth p fun _ => {})
  else .next s
/-- ETH_TRAINING_TIMEOUT (R352): no link within 5 s. A port with a link waits for its LACP partner. -/
def execEthTrainingTimeout (p : Fin 8) (s : State) : Host.Outcome State Fault Refusal :=
  if s.reg (Obj.ethPState p) = 1 ∧ !(s.eth p).link then .next (ethState s p 3) else .next s
/-- ETH_DOWN_RETRY (R352): a signal is detected. -/
def execEthDownRetry (p : Fin 8) (s : State) : Host.Outcome State Fault Refusal :=
  if s.reg (Obj.ethPState p) = 3 then .next (ethTrain s p) else .next s
/-- LACP_PDU_RX (R351, R352): the partner's state; out of sync takes an UP port to DOWN. -/
def execLacpPduRx (p : Fin 8) (sync : Bool) (s : State) : Host.Outcome State Fault Refusal :=
  if !s.lacp p || !(s.portUp p || (s.reg (Obj.ethPState p) == 1 && (s.eth p).link)) then .next (rxFrame s p)
  else
    let s := (rxFrame s p).modEth p fun e => { e with sync := sync }
    if s.portUp p then (if sync then .next s else .next (ethLeave s p 3)) else .next (tryUp s p)

/-! ### The network layer and flow control (R351) -/

/-- ARP_REQUEST_RX (R351): answered for the network's own IPv4 address. -/
def execArpRequestRx (p : Fin 8) (ip : BitVec 32) (s : State) : Host.Outcome State Fault Refusal :=
  let own := s.reg (Obj.ethNIpv4 (p / 4))
  let s1 := rxFrame s p
  if s.portUp p ∧ own ≠ 0 ∧ own = ip.toNat then .next (txFrame s1 p (.arpReply p own (s.reg (Obj.ethNMac (p / 4))))) else .next s1
/-- NEIGHBOUR_SOLICIT_RX (R351): answered for the network's own IPv6 address. -/
def execNeighbourSolicitRx (p : Fin 8) (ip : BitVec 128) (s : State) : Host.Outcome State Fault Refusal :=
  let own := s.reg (Obj.ethNIpv6 (p / 4))
  let s1 := rxFrame s p
  if s.portUp p ∧ own ≠ 0 ∧ own = ip.toNat then .next (txFrame s1 p (.neighbourAdvert p own (s.reg (Obj.ethNMac (p / 4))))) else .next s1
/-- ICMP_ECHO_RX (R351): an echo request to the network's own address; a fragment is dropped. -/
def execIcmpEchoRx (p : Fin 8) (v6 : Bool) (ip : BitVec 128) (fragment : Bool) (payload : List Byte) (s : State) :
    Host.Outcome State Fault Refusal :=
  let own := s.reg (if v6 then Obj.ethNIpv6 (p / 4) else Obj.ethNIpv4 (p / 4))
  let s1 := rxFrame s p
  if !s.portUp p then .next s
  else if fragment then .next (s1.bump (Obj.ethPDrops p) 1)
  else if own ≠ 0 ∧ own = ip.toNat then .next (txFrame s1 p (.echoReply p payload))
  else .next s1
/-- Beats that a pause of so many quanta of 512 bit times lasts at 800 Gbit/s. -/
def quantaBeats (n : Nat) : Nat := ceilDiv (n * 64) 100000
/-- PFC_FRAME_RX (R351): the RoCE priority of the port pauses, or with 0 quanta resumes. -/
def execPfcFrameRx (p : Fin 8) (enable : BitVec 8) (quanta : BitVec 16) (s : State) : Host.Outcome State Fault Refusal :=
  if !s.portUp p || !bitOf enable.toNat (s.reg (Obj.ethNRocePrio (p / 4))) then .next (rxFrame s p)
  else .next (endPauses ((rxFrame s p).modEth p fun e => { e with pause := s.beat + quantaBeats quanta.toNat }))

/-! ### RoCE requests (R351, R356) -/

/-- ROCE_WRITE_RX (R356): a packet of an RDMA WRITE; the first of a message brings its address. -/
def execRoceWriteRx (h : RoceHdr) (first : Option RoceAddr) (last : Bool) (bytes : List Byte) (s : State) :
    Host.Outcome State Fault Refusal :=
  .next (rxOrdered (rxFrame s h.port) h fun i s =>
    match first with
    | some a =>
      if inMailbox s a.va.toNat a.rkey.toNat && (s.qp i).wr.isNone then
        (if last && a.len.toNat == bytes.length then mbxWrite s i h.psn.toNat (a.va.toNat - s.reg Obj.mbxVa) bytes
         else accessNak s i h.psn.toNat)
      else regionWrite s i h.psn.toNat first last bytes
    | none => regionWrite s i h.psn.toNat none last bytes)
/-- What a READ reaches: the mailbox pages or a region. -/
def readAt (s : State) (i psn : Nat) (a : RoceAddr) (ue : Bool) : State :=
  if (s.qp i).wr.isSome then opNak s i psn synRequest
  else if inMailbox s a.va.toNat a.rkey.toNat then mbxRead s i psn (a.va.toNat - s.reg Obj.mbxVa) a.len.toNat
  else regionRead s i psn a ue
/-- ROCE_READ_RX (R356): a repeated request is served again. `ue` says that a word of the range is uncorrectable. -/
def execRoceReadRx (h : RoceHdr) (a : RoceAddr) (ue : Bool) (s : State) : Host.Outcome State Fault Refusal :=
  let s := rxFrame s h.port
  match rxQp s h with
  | none => .next (dropFrame s h.port)
  | some i =>
    let s := noteEcn s i h
    match seqPos s i h with
    | .due => .next (readAt (rxAdvance s i (packetCount a.len.toNat)) i h.psn.toNat a ue)
    | .old => .next (readAt s i h.psn.toNat a ue)
    | .gap => .next (roceEmit s (s.qpPort i) (.nak i (s.qp i).recvPsn synSequence))

/-! ### Answers to the device's own requests (R351, R354) -/

def RdmaReq.isRead (r : RdmaReq) : Bool := r.kind == .read
/-- The last sequence number of a request. -/
def RdmaReq.lastPsn (r : RdmaReq) : Nat := (r.psn + packetCount r.len - 1) % psnMod
def psnLe (a b : Nat) : Bool := decide (psnDist b a < psnMod / 2)
/-- The oldest `n` requests complete; the last of them with the data of a read. -/
def completeReqs (s : State) (i n : Nat) (data : List Byte) : State :=
  let done := (s.qp i).out.take n
  let s := s.modQp i fun q => { q with out := q.out.drop n, retries := if n = 0 then q.retries else 0 }
  qpMove (forAll done (fun r s => rdmaDone s r data) s) i
/-- Requests that an acknowledgement up to a packet completes; it completes no read. -/
def ackedCount (s : State) (i psn : Nat) : Nat := ((s.qp i).out.takeWhile fun r => !r.isRead && psnLe r.lastPsn psn).length
/-- The place of the read that data answers, where only writes are older. -/
def readPlace (s : State) (i psn len : Nat) : Option Nat :=
  let n := ((s.qp i).out.takeWhile fun r => !r.isRead).length
  match (s.qp i).out[n]? with
  | some r => if r.psn = psn ∧ r.len = len then some n else none
  | none => none
/-- A request sent again, unless its retries are used up. -/
def retryQp (s : State) (i : Nat) : State :=
  if s.reg Obj.roceRetry ≤ (s.qp i).retries then qpFail s i
  else qpResend (s.modQp i fun q => { q with retries := q.retries + 1 }) i
/-- ROCE_RESPONSE_RX (R351, R354). -/
def execRoceResponseRx (i : Fin 2048) (a : RoceAnswer) (s : State) : Host.Outcome State Fault Refusal :=
  if !s.running || s.qpState i ≠ 1 then .next s
  else
    let s := rxFrame s (s.qpPort i)
    match a with
    | .ack psn => .next (completeReqs s i (ackedCount s i psn.toNat) [])
    | .data psn bytes =>
      match readPlace s i psn.toNat bytes.length with
      | some n => .next (completeReqs (completeReqs s i n []) i 1 bytes)
      | none => .next s
    | .nak psn syndrome =>
      if syndrome.toNat = synSequence then
        .next (retryQp (completeReqs s i (ackedCount s i (psnPrev psn.toNat)) []) i)
      else .next (qpFail s i)
/-- ROCE_ACK_TIMEOUT (R351). -/
def execRoceAckTimeout (i : Fin 2048) (s : State) : Host.Outcome State Fault Refusal :=
  if !s.running || s.qpState i ≠ 1 || (s.qp i).out.isEmpty then .next s else .next (retryQp s i)
/-- ROCE_CNP_RX (R351): acted on by rate reduction while `ROCE.ECN` is 1. -/
def execRoceCnpRx (i : Fin 2048) (s : State) : Host.Outcome State Fault Refusal :=
  if !s.running || s.qpState i ≠ 1 then .next s
  else
    let s := rxFrame s (s.qpPort i)
    .next (if s.reg Obj.roceEcn = 1 then s.modQp i fun q => { q with cnps := q.cnps + 1 } else s)

/-! ### Queue pair records (R357) -/

/-- The fields of a record that software writes, with STATE and PORT as they stand. -/
def qpSoft (s : State) (i v : Nat) : Nat := bitsOf v 0 320 + bitsOf (s.qpRec i) 320 16 * 2 ^ 320
/-- Reserved bits of a written record. -/
def qpReserved (v : Nat) : Bool :=
  fld v 3 1 != 0 || bitsOf (fld v 4 4) 3 29 != 0 || fld v 0x1E 2 != 0 || fld v 0x2A 22 != 0
/-- Why a record is refused. -/
def qpRefusal (s : State) (i v : Nat) : Option Nat :=
  let on := bitOf (fld v 4 4) 0
  if qpReserved v then some stReserved
  else if on && s.qpState i == 1 && qpSoft s i v != s.qpRec i then some stState
  else if on && decide (1024 ≤ ((s.qpsOf (bitsOf (fld v 4 4) 1 1)).filter (· != i)).length) then some stState
  else none
/-- A record written: VALID set makes it ready with its first sequence numbers, VALID clear resets it and abandons its
requests. -/
def qpWrite (s : State) (i v : Nat) : State :=
  if bitOf (fld v 4 4) 0 then
    (if s.qpState i = 1 then s
     else
      let s := (s.setReg (ofUnit Obj.roceQp i) (qpSoft s i v)).setQpFld i 0x28 1 1
      let s := s.modQp i fun q => { naked := q.naked, cnps := q.cnps, sendPsn := fld v 0x20 3, recvPsn := fld v 0x24 3 }
      s.setQpFld i 0x29 1 (portFor s i))
  else
    let was := s.qpState i
    let s := ((s.setReg (ofUnit Obj.roceQp i) (qpSoft s i v)).setQpFld i 0x28 1 0).setQpFld i 0x29 1 0xFF
    let s := s.modQp i fun q => { naked := q.naked, cnps := q.cnps }
    if was = 1 then usersFail s i else s
/-- A write of `Obj.roceQp`, checked and applied. -/
def roceQpWrite (v : Nat) (s : State) : Ans :=
    let i := s.reg Obj.roceQpSel
    match qpRefusal s i v with
    | some st => Ans.refuse st s
    | none => Ans.ok (qpWrite s i v)
/-- ROCE_QP_WRITE (R357): the record that `ROCE.QP_SEL` names. -/
def execRoceQpWrite (q : Req) (v : BitVec 512) (s : State) : Host.Outcome State Fault Refusal :=
  .next (dictWrite s q Obj.roceQp (roceQpWrite v.toNat))

/-! ### Exposed regions (R358) -/

/-- What a region may not overlap: the sixteen stash windows and the mailbox range. -/
def keptOut (s : State) : List (Nat × Nat) :=
  (s.reg Obj.mbxVa, mbxRange) :: (List.range 16).map fun n => (s.reg Obj.siphWindowBase + n * 0x001000000000, 2 ^ 36)
/-- A region that breaks the map, overlaps what it may not, or repeats a key. -/
def rgnBad (s : State) (r v : Nat) : Bool :=
  rgnVa v % 65536 != 0 || rgnLen v % 65536 != 0 || decide (rgnLen v < 65536) || decide (2 ^ 42 < rgnLen v) ||
    (keptOut s).any (rangesMeet (rgnVa v, rgnLen v)) || rgnKey v == s.reg Obj.mbxRkey ||
    (List.range 256).any fun k => k != r && rgnValid (s.rgn k) && rgnKey (s.rgn k) == rgnKey v
/-- A write of `Obj.roceRgn`, checked and applied. -/
def roceRgnWrite (v : Nat) (s : State) : Ans :=
    let r := s.reg Obj.roceRgnSel
    if bitsOf (rgnFlags v) 5 27 ≠ 0 ∨ fld v 0x18 8 ≠ 0 then Ans.refuse stReserved s
    else if rgnValid v && rgnBad s r v then Ans.refuse stRange s
    else Ans.ok (s.setReg (ofUnit Obj.roceRgn r) v)
/-- ROCE_RGN_WRITE (R358): the region that `ROCE.RGN_SEL` names. -/
def execRoceRgnWrite (q : Req) (v : BitVec 256) (s : State) : Host.Outcome State Fault Refusal :=
  .next (dictWrite s q Obj.roceRgn (roceRgnWrite v.toNat))

end Sys2Proof.Machine
end

