-- ==== Sys2Proof/Machine/Rollout.lean ====
section
/-! DEFINITION. The rollout group's step: completion, epochs, slots and rows at the boundary (R240–R246, R256–R260), the
origin with its seal segment (R245, R248, R249), discard and cancellation (R247). -/

namespace Sys2Proof.Machine

/-! ### Fields of the rollout record (R238) -/

def State.prefillBudget (s : State) (cl : Nat) : Nat := s.rollField cl 0x10 2
def State.maxCtx (s : State) (cl : Nat) : Nat := s.rollField cl 0x08 4
def State.maxNew (s : State) (cl : Nat) : Nat := s.rollField cl 0x0C 4
def State.stopTokens (s : State) (cl : Nat) : List Nat :=
  ((List.range 4).map fun i => s.rollField cl (0x20 + 4 * i) 4).filter (· != 0xFFFFFFFF)
def State.epochCut (s : State) (cl : Nat) : Bool := bitOf (s.rollField cl 0x07 1) 1
/-- The used context buckets, in tokens. -/
def State.ctxBuckets (s : State) (cl : Nat) : List Nat :=
  (((List.range 8).map fun i => s.rollField cl (0x30 + 2 * i) 2).takeWhile (· != 0)).map (· * 1024)
def modSlot (s : State) (cl n : Nat) (f : Slot → Slot) : State := s.modCluster cl fun c => c.modSlot n f
/-- The slots of a cluster. -/
def State.slotNums (s : State) (cl : Nat) : List Nat := List.range (s.slotsOf cl)
/-- A function over every slot of the group, by increasing global slot. -/
def forSlots (s : State) (f : Nat → Nat → State → State) : State :=
  forAll s.roll.members (fun cl s => forAll (s.slotNums cl) (fun n s => f cl n s) s) s

/-! ### Row 1: completion (R241, R244, R246) -/

/-- The first reason of R244 that holds for a slot after its step, in the order of R246. -/
def endReason (s : State) (cl : Nat) (x : Slot) : Option Nat :=
  let limit := if x.maxNew = 0 then s.maxNew cl else min x.maxNew (s.maxNew cl)
  if (x.token.map fun t => (s.stopTokens cl).contains t.1).getD false then some reStop
  else if limit ≤ x.generated then some reMaxNew
  else if s.maxCtx cl ≤ x.len then some reMaxCtx
  else if x.cancel then some reCancel
  else if x.nonfinite then some reNonfinite
  else none
/-- A slot whose rows were processed: its token record, its length, and whether its sequence ends. -/
def completeSlot (cl n : Nat) (s : State) : State :=
  let x := (s.cluster cl).slot n
  if !x.live || x.rows = 0 then s
  else
    let rec_ := if x.samples && !x.dropped && !x.nonfinite then x.token else none
    let s := match rec_ with
      | some t => (ringPut s (slotRecord s cl x t.1 t.2)).bump (Obj.rollClTokens cl) 1
      | none => s
    let s := if x.st = .prefill then s.bump (Obj.rollClPrefill cl) x.rows else s
    let y : Slot := { x with len := x.len + x.rows, tail := x.tail + x.rows, generated := x.generated + (if rec_.isSome then 1 else 0),
                             st := if x.samples then .decode else x.st, token := rec_ }
    let y := match endReason s cl y with
      | some r => endSlot r y
      | none => y
    modSlot s cl n fun _ => { y with rows := 0, samples := false, token := none, nonfinite := false, dropped := false, sealed := [] }
/-- What every end of a rollout step leaves: streams ended, lists empty but for encodings, barriers forgotten. -/
def rollEnd (f : Core → Core) (s : State) : State :=
  let s := forAll s.roll.members (fun cl s =>
    let s := boundaryDisarm s cl
    forAll (coresOf cl) (fun n s => s.modCore n f) s) s
  dropArrivals s 2
/-- The end of a step that ran: records, lengths, ends; the step number advances. -/
def completeStep (s : State) : State :=
  let s := rollEnd coreStepEnd (forSlots s completeSlot)
  forAll s.roll.members (fun cl s => s.setReg (Obj.schedClStep cl) (s.reg (Obj.schedClStep cl) + 1)) s
/-- Every entry of the step has completed; an encoding's entries (part 0) may run on. -/
def rollDone (s : State) : Bool :=
  s.roll.members.all fun cl => (coresOf cl).all fun n =>
    (s.core n).todo.all (fun p => p.mb == 0) && (s.core n).running.all fun r => r.plan.mb == 0

/-! ### Rows 2 to 5 -/

/-- Row 2: table activations, then role changes (R41). -/
def boundaryTables (s : State) : State :=
  let s := forAll (s.tables.filter fun t => tableDue s t 2) (fun t s => if tableDue s t 2 then tableApply s t 2 else s) s
  forAll (allClusters.filter fun cl => s.role cl == 2 || (s.cluster cl).joining == some 2) (fun cl s => roleApply s cl) s
/-- Row 3: the epoch switch (R258). -/
def switchEpoch (s : State) : State :=
  let id := s.reg Obj.epochShadow
  if id = 0 then s
  else
    let s := s.setReg Obj.epochBank (1 - s.reg Obj.epochBank % 2)
    let s := ((s.setReg Obj.epochActive id).setReg Obj.epochShadow 0).bump Obj.epochSwitches 1
    let s := raise s 0x4D03 .note uMgt
    forSlots s fun cl n s =>
      modSlot s cl n fun x =>
        if !x.live then x
        else if s.epochCut cl then endSlot reEpoch x
        else { x with mixed := x.mixed || decide (0 < x.len) }
/-- Slots that were cancelled end at the boundary, after a discard too. -/
def takeCancels (s : State) : State := forSlots s fun cl n s => modSlot s cl n fun x => if x.cancel then endSlot reCancel x else x
/-- Row 5: tails that hold 32 tokens. -/
def markSeals (s : State) : State := forSlots s fun cl n s => modSlot s cl n fun x => if x.live && x.tail = 32 then { x with sealMark := true } else x

/-! ### Row 6: refill (R245) -/

/-- A prompt descriptor that keeps its ranges. -/
def promptOk (s : State) (cl d : Nat) : Bool :=
  let n := fld d 0x08 4
  let t := fld d 0x18 4
  let p := fld d 0x1C 4
  decide (1 ≤ n) && decide (n + 1 ≤ s.maxCtx cl) && decide (bitsOf t 31 1 = 0) && decide (1 ≤ bitsOf t 23 8) && decide (bitsOf t 23 8 ≤ 254) &&
    decide (0 < p) && decide (p ≤ 0x3F800000) && decide (fld d 0x20 4 ≤ s.vocab cl) && decide (fld d 0x24 1 < 2) && fld d 0x25 27 == 0
def promptSlot (d : Nat) : Slot :=
  { st := .prefill, seqId := fld d 0 8, promptLen := fld d 8 4, maxNew := fld d 0xC 4, tokensVa := fld d 0x10 8, invT := fld d 0x18 4,
    topp := fld d 0x1C 4, topk := fld d 0x20 4, greedy := bitOf (fld d 0x24 1) 0 }
/-- Descriptors waiting in the prompt ring. -/
def promptsWaiting (s : State) : Nat := (s.reg Obj.rollPromptTail + 2 ^ 32 - s.reg Obj.rollPromptHead) % 2 ^ 32
/-- A slot takes the next valid descriptor; the others are consumed with an end record. On fuel: the descriptors waiting. -/
def refillSlot (cl n : Nat) : Nat → State → State
  | 0, s => s
  | k + 1, s =>
    if promptsWaiting s = 0 then s
    else
      let h := s.reg Obj.rollPromptHead
      let d := s.memRd (s.reg Obj.rollPromptRing + 64 * (h % max 1 (s.reg Obj.rollPromptSize))) 64
      let s := s.setReg Obj.rollPromptHead ((h + 1) % 2 ^ 32)
      if promptOk s cl d then modSlot s cl n fun _ => promptSlot d
      else
        let s := (ringPut s (endRecord s cl (fld d 0 8) 0 reInvalid false)).bump (Obj.rollClEnded cl) 1
        refillSlot cl n k (raise s 0x4D06 .note (uCluster cl))
def refill (s : State) : State :=
  forSlots s fun cl n s => if ((s.cluster cl).slot n).st = .empty then refillSlot cl n (promptsWaiting s) s else s

/-! ### Rows 7 and 8: rows and the bucket (R242, R243) -/

def vaRead (s : State) (va : Nat) : Nat → Nat
  | 0 => 0
  | n + 1 => vaByte s va + 256 * vaRead s (va + 1) n
def vaWrite (s : State) (va : Nat) : List Byte → State
  | [] => s
  | b :: bs => vaWrite (vaPut s va b) (va + 1) bs
def rowWord (slot pos : Nat) (sample : Bool) : Nat := 2 ^ 63 + (if sample then 2 ^ 62 else 0) + slot * 2 ^ 32 + pos
/-- `alloc` of R242: the prefill rows of the slots from a list on, with what each slot gets. -/
def prefillRows (c : Cluster) : List Nat → Nat → List Nat × List (Nat × Nat × Bool)
  | [], _ => ([], [])
  | n :: ns, b =>
    let x := c.slot n
    if x.st ≠ .prefill then prefillRows c ns b
    else
      let k := min (min (x.promptLen - x.len) (32 - x.len % 32)) b
      if k = 0 then ([], [])
      else
        let last := x.len + k == x.promptLen
        let rest := prefillRows c ns (b - k)
        ((List.range k).map (fun i => rowWord n (x.len + i) (last && i + 1 == k)) ++ rest.1, (n, k, last) :: rest.2)
/-- Where a cluster's row map stands: BASE0 of each row-map stream of its cores (R265, R242). -/
def rowMapBases (s : State) (cl : Nat) : List Nat :=
  ((coresOf cl).flatMap fun n => (List.range 48).filterMap fun i =>
    match s.desc n i with
    | some d => if d.kind = 6 then some d.base0 else none
    | none => none).eraseDups
/-- The row map written where the cluster's row-map streams read it (DEDUCED, log 25). -/
def writeRowMap (s : State) (cl : Nat) : State :=
  forAll (rowMapBases s cl) (fun b s => vaWrite s b (leBytes (8 * (s.cluster cl).rowMap.length) (packBits 64 (s.cluster cl).rowMap))) s
/-- The rows of a cluster's step and its row map. -/
def allocRows (s : State) (cl : Nat) : State :=
  let c := s.cluster cl
  let slots := s.slotNums cl
  let p := prefillRows c slots (s.prefillBudget cl)
  let dec := slots.map fun n => let x := c.slot n; if x.st = .decode then rowWord n x.len true else 0
  let pad := List.replicate (s.prefillBudget cl - p.1.length) 0
  let s := writeRowMap (s.modCluster cl fun c => { c with rowMap := dec ++ p.1 ++ pad }) cl
  forAll slots (fun n s => modSlot s cl n fun x =>
    match x.st, p.2.find? fun q => q.1 == n with
    | .decode, _ => { x with rows := 1, samples := true }
    | .prefill, some q => { x with rows := q.2.1, samples := q.2.2 }
    | _, _ => { x with rows := 0, samples := false }) s
/-- The index of the smallest bucket that holds every context after the step. -/
def setBucket (s : State) (cl : Nat) : State :=
  let c := s.cluster cl
  let top := ((s.slotNums cl).map fun n => let x := c.slot n; if x.live then x.len + x.rows else 0).foldl max 0
  let bs := s.ctxBuckets cl
  s.setReg (Obj.rollClBucket cl) (bs.idxOf ((bs.find? fun b => decide (top ≤ b)).getD 0))

/-! ### The boundary (R241) -/

/-- Room for two records for every slot of the group. -/
def ringRoom (s : State) : Bool :=
  let used := (s.reg Obj.rollOutHead + 2 ^ 32 - s.reg Obj.rollOutTail) % 2 ^ 32
  decide (used + 2 * sumOf (s.roll.members.map s.slotsOf) ≤ s.reg Obj.rollOutSize)
/-- Row 10: the ring check. Once it succeeds the step may start in the next beat; the first failure of a step is reported. -/
def ringCheck (s : State) : State :=
  if ringRoom s then s.withRoll { s.roll with ringOk := true, earliest := s.beat + 1 }
  else if s.roll.stallRaised then s
  else raise ((s.withRoll { s.roll with stallRaised := true }).bump Obj.rollRingStalls 1) 0x4D04 .note (uCluster (s.roll.members.headD 0))
/-- What the sequencer reads of a rollout image at its boundaries (R40, R238). -/
def rollReads (s : State) (cl : Nat) : List (TableRec × Nat × Nat) :=
  match s.table 6 cl 2 with
  | some t => [(t, 0x10, 8), (t, s.tblRd t 0x10 8, 0x80)]
  | none => []
/-- A rollout image of the group differs from its measurement: until another is active the group starts no step (R40). -/
def rollBad (s : State) : Bool := s.roll.members.any fun cl => anyBad (rollReads s cl)
/-- Rows 3 to 9 over the slots and the row maps. -/
def boundarySlots (s : State) : State :=
  let s := refill (markSeals (writeEnds (switchEpoch s)))
  let s := forAll s.roll.members (fun cl s => refreshLive (setBucket (allocRows s cl) cl) cl) s
  forAll s.roll.members (fun cl s => s.modCluster cl fun c => { c with observed := c.encoded.orElse fun _ => c.observed }) s
/-- Rows 2 to 10; the group then waits for ring room, or for a prompt. Slots that were cancelled end first (R244). -/
def boundaryRows (s : State) : State :=
  let s := boundaryTables (takeCancels s)
  let s := forAll s.roll.members (fun cl s => checkReads s (uCluster cl) (rollReads s cl)) s
  if s.roll.members.isEmpty then s
  else if rollBad s then s.withRoll { s.roll with phase := .boundary, earliest := s.beat + 1 }
  else
    let s := boundarySlots s
    let live := s.roll.members.any fun cl => decide (0 < liveSlots (s.cluster cl))
    let s := (s.withRoll { s.roll with phase := if live then .ringWait else .boundary, earliest := s.beat + 1, stallRaised := false, ringOk := false })
    let s := if live then ringCheck s else s
    if (s.inRole 1).isEmpty && s.ckpt.due && s.reg Obj.ckptState ≠ 2 then s.addHold .checkpoint else s
/-- ROLLOUT_STEP_BOUNDARY (R241): after a step that ran, from row 1; else, from row 2. -/
def execRolloutStepBoundary (s : State) : Host.Outcome State Fault Refusal :=
  if s.roll.members.isEmpty || s.stopped || s.held .checkpoint || s.held .rebuild then .next s
  else match s.roll.phase with
    | .running =>
      if s.roll.abort || !rollDone s then .next s
      else
        let s := completeStep s
        .next (boundaryRows (s.withRoll { s.roll with phase := .boundary }))
    | .boundary => if s.beat < s.roll.earliest then .next s else .next (boundaryRows s)
    | _ => .next s

/-! ### The seal segment (R248, R249) -/

/-- A field of a cluster's KV layout. -/
structure KvShape where
  layers : Nat
  heads : Nat
  hd : Nat
  fmt : Nat
  bk : Nat
  maxCtx : Nat
  kv : Nat
  tail : Nat
def kvShape (s : State) (cl : Nat) : KvShape :=
  { layers := s.rollField cl 0x12 2, heads := s.rollField cl 0x14 1, hd := s.rollField cl 0x16 2, fmt := s.rollField cl 0x15 1,
    bk := blockLen (s.rollField cl 0x18 1), maxCtx := s.maxCtx cl, kv := s.rollField cl 0x40 8, tail := s.rollField cl 0x48 8 }
def KvShape.codeBytes (k : KvShape) : Nat := 4 * k.hd * fmtBits k.fmt
def KvShape.kWords (k : KvShape) : Nat := ceilDiv k.hd k.bk
def KvShape.blockBytes (k : KvShape) : Nat := 2 * k.codeBytes + 64 * (k.kWords + k.hd / 32)
def KvShape.perPage (k : KvShape) : Nat := 65536 / max 1 k.blockBytes
def KvShape.q (k : KvShape) (slot l h : Nat) : Nat := (slot * k.layers + l) * k.heads + h
/-- The address of block `b` of a slot, layer and head (R248). -/
def KvShape.block (k : KvShape) (slot l h b : Nat) : Nat :=
  k.kv + 65536 * (k.q slot l h * ceilDiv k.maxCtx (32 * max 1 k.perPage) + b / max 1 k.perPage) + k.blockBytes * (b % max 1 k.perPage)
def KvShape.tailAt (k : KvShape) (slot l h : Nat) : Nat := k.tail + 64 * k.hd * k.q slot l h
/-- The V write entry of a layer (R249), by the core whose list holds it and its scale field: the last CONV 0x02 entry of the layer that
writes KV_FMT with SRC 2 and GEOM 0. -/
def vEntry (s : State) (cl l fmt : Nat) : Nat × ScaleP :=
  match s.table 6 cl 2 with
  | none => (16 * cl, scaleP 0)
  | some t =>
    let ps := (t.layout.alts.filter fun a => a.layer == l).flatMap fun a => (listEntries a 0 1).filterMap fun p =>
      let e := s.entryAt t p.off
      let P := scaleP (fld (s.blockAt t e) 0x40 16)
      if e.op = 0x06 && cConv (s.blockAt t e) = 2 && e.fmtB = fmt && P.src = 2 && P.geom = 0 then some (16 * cl + a.core % 16, P) else none
    (ps.reverse.head?).getD (16 * cl, { scaleP 0 with fmt := fmt, src := 2, fixedTs := 0x3F800000 })
/-- The blocks of a tail: one of 32 tokens along each channel. An element's index is its place in the logical V tensor of the layer, by
slot, head, channel and token (R91; DEDUCED, log 71). -/
def tailBlocks (k : KvShape) (slot h b bits : Nat) : List BlockIn :=
  (List.range k.hd).map fun ch =>
    { idx := ch, channel := 0, els := (List.range 32).map fun i =>
        { x := fmtG16.decode (elemAt bits 16 (i * k.hd + ch)), idx := ((slot * k.heads + h) * k.hd + ch) * k.maxCtx + 32 * b + i } }
/-- The V scale words of block `b`: word c div 32 of the block has TAG b × HEAD_DIM + c div 32 (R248). -/
def vScaleWords (k : KvShape) (b : Nat) (bs : List BlockRec) : List Nat :=
  ((chunksOf 32 bs).zipIdx).map fun p =>
    scaleWordOf (match p.1 with
      | x :: xs => { x with idx := b * k.hd + p.2 } :: xs
      | [] => [])
/-- A tail quantised into the V half of its block with the counts and records of every quantisation (R100–R110), and cleared. -/
def sealTail (s : State) (cl slot l h b : Nat) : State :=
  let k := kvShape s cl
  let v := vEntry s cl l k.fmt
  let P := v.2
  let ta := k.tailAt slot l h
  let bits := vaRead s ta (64 * k.hd)
  let r := quantise P ((fmtOf k.fmt).getD fmtF32) (rmodeOf P.rmode .rne) (s.drawArgs v.1 P.tensor 1) [] [] none (tailBlocks k slot h b bits)
  let codes := leBytes k.codeBytes (packBits (fmtBits k.fmt) (r.blocks.flatMap (·.q.codes)))
  let sw := vScaleWords k b r.blocks
  let at_ := k.block slot l h b
  let s := vaWrite s (at_ + k.codeBytes) codes
  let s := vaWrite s (at_ + 2 * k.codeBytes + 64 * k.kWords) (leBytes (64 * sw.length) (packBits 512 sw))
  let s := noteQuant s v.1 0 .other P r {}
  let s := modSlot s cl slot fun x => { x with sealed := x.sealed ++ [(ta, bits)] }
  (vaWrite s ta (List.replicate (64 * k.hd) 0)).bump (Obj.rollClSeals cl) 1
/-- The seal segment over the marked tails. -/
def sealSlot (cl n : Nat) (s : State) : State :=
  let x := (s.cluster cl).slot n
  if !x.sealMark then s
  else
    let k := kvShape s cl
    let s := forAll (List.range k.layers) (fun l s => forAll (List.range k.heads) (fun h s => sealTail s cl n l h (x.len / 32 - 1)) s) s
    modSlot s cl n fun x => { x with sealMark := false, tail := 0 }
/-- The tails that a discarded step's seal segment had cleared stand again, marked (R247). -/
def unsealSlot (cl n : Nat) (s : State) : State :=
  let x := (s.cluster cl).slot n
  if x.sealed.isEmpty then s
  else
    let k := kvShape s cl
    let s := forAll x.sealed (fun p s => vaWrite s p.1 (leBytes (64 * k.hd) p.2)) s
    modSlot s cl n fun x => { x with sealMark := true, tail := 32, sealed := [] }

/-! ### The origin (R241 row 10, R245) -/

/-- The entries of a core for a rollout step: its layers in order, then the tail. -/
def rollTodo (s : State) (t : TableRec) (cl core fenced : Nat) : List PlanEntry :=
  let key : VarKey := { fenced := fenced, bucket := s.reg (Obj.rollClBucket cl) }
  ((List.range (snapRd t 0x0A 2)).flatMap fun l => layerEntries t.layout core key l s.beat 1) ++ tailEntries t core fenced false s.beat 1
/-- The lists of a cluster's cores for the step. -/
def rollLists (s : State) (cl : Nat) : List (List PlanEntry) :=
  match s.table 6 cl 2 with
  | some t => (List.range 16).map fun c => rollTodo s t cl c (fencedKey (s.reg (Obj.schedClFenced cl)))
  | none => List.replicate 16 []
/-- What stops a cluster's part of the step at its boundary (R40, R117, R140, R251, R254). -/
def rollStop (s : State) (cl : Nat) : Option PlanStop :=
  (s.table 6 cl 2).bind fun t =>
    match firstDiffer s (listReads s t (rollLists s cl)) with
    | some x => some (.table x)
    | none => (planFault s cl t (rollLists s cl)).map .event
/-- A cluster at the origin of a step: its lists behind what its encodings have left, or, where the step cannot run, only that. -/
def rollCluster (go : Bool) (cl : Nat) (s : State) : State :=
  let core (c : Nat) : Core := s.core (16 * cl + c)
  let full := ((rollLists s cl).zipIdx).map fun p => ((core p.2).todo.filter fun q => q.mb == 0) ++ if go then p.1 else []
  let run := (List.range 16).map fun c => (core c).running.filter fun r => r.plan.mb == 0
  let s := originReset s cl full
  let s := forAll run.zipIdx (fun p s => s.modCore (16 * cl + p.2) fun c => { c with running := p.1 }) s
  s.modCluster cl fun c => { c with fencedSample := s.reg (Obj.schedClFenced cl) }
/-- The origin of a step: the seal segment, unless something stops the step before anything of it runs. -/
def rollOrigin (s : State) : State :=
  let stops := s.roll.members.filterMap fun cl => (rollStop s cl).map fun q => (cl, q)
  let s := (s.withRoll { s.roll with phase := .running, origin := s.beat, formedAt := none, bank := s.reg Obj.epochBank, abort := false, firsts := [] })
  let s := forAll s.roll.members (rollCluster stops.isEmpty) s
  if stops.isEmpty then forSlots s sealSlot else forAll stops (fun q s => stopPlan s q.1 q.2) s
/-- ROLLOUT_STEP_ORIGIN (R245, R249): a held step's ring check, or the step. -/
def execRolloutStepOrigin (s : State) : Host.Outcome State Fault Refusal :=
  if s.roll.phase != .ringWait || s.noNewStep || s.beat < s.roll.earliest then .next s
  else .next (if s.roll.ringOk then rollOrigin s else ringCheck s)

/-! ### Discard and cancellation (R247) -/

/-- A core after a discarded step: the history as at the origin (R103), the regions abandoned (R181), unless an encoding still uses them. -/
def coreDiscard (c : Core) : Core :=
  let e := coreStepEnd c
  { e with hist := c.histOrigin, regions := if e.todo.isEmpty && e.running.isEmpty then [] else c.regions }
/-- An encoding that a fault has stopped ends with the step it stopped, and its frame is lost (R49; DEDUCED, log 71). -/
def dropStoppedEncoding (s : State) (cl : Nat) : State :=
  if !(coresOf cl).any fun n => (s.core n).running.any fun r => r.plan.mb == 0 && r.stopped then s
  else
    let s := forAll (coresOf cl) (fun n s => s.modCore n fun c =>
      { c with todo := c.todo.filter (·.mb != 0), running := c.running.filter (·.plan.mb != 0) }) s
    s.modCluster cl fun c => { c with encoding := none }
/-- A slot whose rows were dropped. -/
def Slot.retry (x : Slot) : Slot := { x with rows := 0, samples := false, token := none, nonfinite := false, dropped := false }
/-- ROLLOUT_STEP_DISCARD: a step-abort of the group (R9, R247). -/
def execRolloutStepDiscard (s : State) : Host.Outcome State Fault Refusal :=
  if s.roll.phase != .running || !s.roll.abort then .next s
  else
    let s := forSlots s fun cl n s => modSlot (unsealSlot cl n s) cl n Slot.retry
    let s := forAll s.roll.members (fun cl s => dropStoppedEncoding s cl) s
    let s := (rollEnd coreDiscard s).bump Obj.rollDiscards 1
    .next (s.withRoll { s.roll with phase := .boundary, earliest := s.beat + 1, abort := false })

/-- The live slot that holds a sequence. -/
def slotOfSeq (s : State) (id : Nat) : Option (Nat × Nat) :=
  (s.roll.members.flatMap fun cl => (s.slotNums cl).map fun n => (cl, n)).find? fun p =>
    let x := (s.cluster p.1).slot p.2
    x.live && x.seqId == id
/-- A record of a sequence that a sampling entry has still to write. -/
def unwritten (id : Nat) (r : RunEntry) : Bool := r.entry.op == 0x0F && r.outq.any fun x => x.2.data % 2 ^ 64 == id && !x.2.void
def voidRecord (id : Nat) (r : RunEntry) : RunEntry :=
  if unwritten id r then { r with outq := r.outq.map fun x => if x.2.data % 2 ^ 64 = id then (x.1, { x.2 with void := true }) else x } else r
/-- The sampling unit of a core drops the packet of a sequence that it has not committed (R278). -/
def dropRecord (s : State) (core id : Nat) : State :=
  (s.modCore core fun c => { c with running := c.running.map (voidRecord id) }).bump (Obj.strmDrops core) 1
/-- A write of `Obj.rollCancel`, checked and applied. -/
def rollCancelWrite (v : Nat) (s : State) : Ans :=
    match slotOfSeq s v with
    | none => Ans.ok (raise s 0x4D07 .note uMgt)
    | some (cl, n) =>
      let waits := (coresOf cl).find? fun c => (s.core c).running.any (unwritten v)
      let drop := s.roll.phase == .running && (((s.cluster cl).slot n).token.isNone || waits.isSome)
      let s := modSlot s cl n fun x => { x with cancel := true, dropped := x.dropped || drop }
      Ans.ok (match waits with
        | some c => dropRecord s c v
        | none => s)
/-- ROLL_CANCEL_WRITE (R247). -/
def execRollCancelWrite (q : Req) (v : BitVec 64) (s : State) : Host.Outcome State Fault Refusal :=
  .next (dictWrite s q Obj.rollCancel (rollCancelWrite v.toNat))

/-! ### Epochs (R256) -/

/-- A write of `Obj.epochReady`, checked and applied. -/
def epochReadyWrite (v : Nat) (s : State) : Ans :=
    let no (st : Nat) : Ans := Ans.refuse st (raise (s.bump Obj.epochRefused 1) 0x4D01 .note uMgt)
    if s.reg Obj.epochShadow ≠ 0 then no stState
    else if v = 0 || bitOf v 63 || v ≤ s.roll.lastHostEpoch then no stRange
    else Ans.ok ((s.setReg Obj.epochShadow v).withRoll { s.roll with lastHostEpoch := v })
/-- EPOCH_READY_WRITE (R256). -/
def execEpochReadyWrite (q : Req) (v : BitVec 64) (s : State) : Host.Outcome State Fault Refusal :=
  .next (dictWrite s q Obj.epochReady (epochReadyWrite v.toNat))

end Sys2Proof.Machine
end

