-- ==== Sys2Proof/Machine/Ring.lean ====
section
/-! DEFINITION. Collectives (R339–R344): the ring reduction with its wire conversions and the tally that travels with it, the
line partial sum, the raw transfer, and the reduction entries. -/

namespace Sys2Proof.Machine

def dColl : Nat → Coll := fun _ => {}
def State.coll (s : State) (k : Nat) : Coll := smGet dColl s.rill.colls k
def State.modColl (s : State) (k : Nat) (f : Coll → Coll) : State :=
  (s.withRill { s.rill with colls := smSet dColl s.rill.colls k (f (s.coll k)) })

/-- What a collective runs on at this device: its table, its number, the ranks of the set in force, and this one's. -/
structure Ring where
  t : TableRec
  k : Nat
  members : List Nat
  me : Nat
def Ring.R (g : Ring) : Nat := g.members.length
def Ring.elems (g : Ring) : Nat := collElems g.t g.k
/-- The ring of a collective; a spare takes part in none. -/
def State.ringOf (s : State) (k : Nat) : Option Ring :=
  s.routing.bind fun t =>
    if snapRd t 7 1 ≤ k then none
    else (rankOf t (s.routeSet t)).map fun me => ⟨t, k, membersOf t (s.routeSet t), me⟩

/-! ### Wire values (R341) -/

structure Wire where
  codes : List Nat
  c : Nat
  zeroed : Nat
/-- `wire_quantise`: the exact accumulators of a block's elements, with their indices in the tensor. -/
def wireQuantise (seed step tensor : Nat) (mode : RMode) (h : Nat) (acc : List (Nat × Pair)) : Wire :=
  let ys := acc.map fun p => (p.1, f32 (rto32 p.2.num))
  let a : XNum := ys.foldl (fun m p => if p.2.isNan then m else m.max p.2.abs) (XNum.fin false 0 0)
  let c : Int := if a.isZero then 127 else match a with
    | .fin _ m e => max (-127) (min 127 (e + (bitLength m : Int) - 1)) + 127
    | _ => 254
  let ws := ys.map fun p =>
    convert (p.2.scale (127 - c)) fmtG16 mode (match mode with
      | .sr => draw16 seed step ((tensor + h) % 2 ^ 24) p.1 4
      | _ => 0)
  { codes := ws.map (·.code), c := c.toNat, zeroed := (ws.filter (·.zeroed)).length }
/-- The pair that a wire code stands for. -/
def wirePair (c code : Nat) : Pair := asPair ((fmtG16.decode code).scale ((c : Int) - 127))

/-! ### Chunks and blocks (R341) -/

def Ring.blocks (g : Ring) : Nat := ceilDiv g.elems 256
def Ring.lo (g : Ring) (j : Nat) : Nat := j * g.blocks / max 1 g.R
def Ring.hi (g : Ring) (j : Nat) : Nat := (j + 1) * g.blocks / max 1 g.R
/-- The chunk that a block belongs to, where the 24-bit index names the block next expected of it. -/
def Ring.chunkOf (g : Ring) (index : Nat) (next : Nat → Nat) : Option Nat :=
  (List.range g.R).find? fun j => decide (next j < g.hi j) && next j % 2 ^ 24 == index
/-- Blocks in a flit that starts at a block of a chunk: two, or the last one. -/
def Ring.inFlit (g : Ring) (j b : Nat) : Nat := min 2 (g.hi j - b)
/-- The elements of a block that the tensor has. -/
def Ring.blockElems (g : Ring) (b : Nat) : List Nat := (List.range 256).filterMap fun i => if 256 * b + i < g.elems then some (256 * b + i) else none
def rangeReady (rs : List (Nat × Nat)) (e : Nat) : Bool := rs.any fun r => decide (r.1 ≤ e) && decide (e < r.1 + r.2)
/-- This rank's contribution to a block is ready. -/
def Ring.ready (g : Ring) (c : Coll) (b : Nat) : Bool := (g.blockElems b).all (rangeReady c.ready)
/-- This rank's contribution to a block. -/
def Ring.contribution (g : Ring) (s : State) (b : Nat) : List (Nat × Pair) :=
  (g.blockElems b).map fun e => (e, Pair.ofWord (vaRead s (collCbuf g.t g.k + 8 * e) 8))
def Ring.quantise (g : Ring) (s : State) (h : Nat) (acc : List (Nat × Pair)) : Wire :=
  wireQuantise (s.reg Obj.rngSeed) (s.trainStep % 2 ^ 40) (collTensor g.t g.k) (rmodeOf (collRmode g.t g.k) .sr) h acc
/-- The codes of a block of a flit. -/
def flitCodes (f : Flit) (i n : Nat) : List Nat := (List.range n).map fun e => bitsOf f.payload (16 * (256 * i + e)) 16
def flitScale (f : Flit) (i : Nat) : Nat := if i = 0 then f.scale0 else f.scale1
def Ring.flit (g : Ring) (b h : Nat) (ws : List Wire) (tally : List Nat) : Flit :=
  { vc := 2, dest := (g.members[(g.me + 1) % g.R]?).getD 0, last := true, src := (torusOf g.t).self, coll := g.k, index := b % 2 ^ 24, hop := h,
    scale0 := (ws.head?.map (·.c)).getD 0, scale1 := ((ws.drop 1).head?.map (·.c)).getD 0,
    payload := packBits 4096 (ws.map fun w => packBits 16 w.codes), tally := tally }
/-- The collective's entry of the progress ledger (R388). -/
def Ring.note (g : Ring) (s : State) : State :=
  let c := s.coll g.k
  ledgerColl s g.k c.done s.trainStep c.lastHop (collKind g.t g.k)
/-- Final codes of a block written to RBUF and counted. -/
def Ring.write (g : Ring) (s : State) (b c : Nat) (codes : List Nat) : State :=
  let es := g.blockElems b
  let s := forAll (es.zip codes) (fun p s => vaWrite s (collRbuf g.t g.k + 8 * p.1) (leBytes 8 (wirePair c p.2).toWord)) s
  g.note (s.modColl g.k fun x => { x with fin := x.fin ++ [(256 * b, es.length)], done := x.done + es.length })
/-- Zeroed elements and additions that returned sat (R341). -/
def noteWire (s : State) (zeroed sat : Nat) : State :=
  let s := s.bump Obj.rillWireZero zeroed
  if sat = 0 then s else setHealth (s.bump Obj.rillRedSat sat) (s.train.members.headD 0) 8
/-- Flits of consecutive blocks of a chunk, final at this rank: written, and passed on to the gather half. -/
def Ring.final (g : Ring) (s : State) (b : Nat) (ws : List Wire) (tally : List Nat) : State :=
  let s := forAll ws.zipIdx (fun p s => g.write s (b + p.2) p.1.c p.1.codes) s
  let s := if tally.isEmpty then s else s.modColl g.k fun x => { x with tally := some tally }
  if g.R ≤ 1 then s else s.modColl g.k fun x => { x with outq := x.outq ++ [g.flit b (g.R - 1) ws tally] }
/-- The tally travels with the first flit of chunk 0 (R342). -/
def Ring.carries (g : Ring) (b : Nat) : Bool := collTally g.t g.k && b == 0

/-! ### The reducing half -/

/-- A flit of this rank's own chunk, at hop 0; with one rank it is final at once. -/
def Ring.inject (g : Ring) (s : State) (b n : Nat) : State :=
  let ws := (List.range n).map fun i => g.quantise s 0 (g.contribution s (b + i))
  let s := noteWire s (sumOf (ws.map (·.zeroed))) 0
  let tally := if g.carries b then deviceTally s else []
  let s := s.modColl g.k fun x => { x with sent := x.sent + n }
  if g.R ≤ 1 then g.final s b ws tally else s.modColl g.k fun x => { x with outq := x.outq ++ [g.flit b 0 ws tally] }
/-- The ready blocks of the own chunk, in order, on fuel. -/
def Ring.pump (g : Ring) : Nat → State → State
  | 0, s => s
  | k + 1, s =>
    let j := (g.me + g.R - 1) % max 1 g.R
    let b := g.lo j + (s.coll g.k).sent
    let n := g.inFlit j b
    if n = 0 || (s.coll g.k).halted || !((List.range n).all fun i => g.ready (s.coll g.k) (b + i)) then s
    else g.pump k (g.inject s b n)
/-- The block a flit's 24-bit index stands for. -/
def Ring.blockAt (g : Ring) (f : Flit) : Nat := ((List.range g.blocks).find? fun b => b % 2 ^ 24 == f.index).getD f.index
/-- Hops that a chunk has made before this rank adds. -/
def Ring.place (g : Ring) (j : Nat) : Nat := (g.me + 2 * g.R - j - 1) % max 1 g.R
/-- This rank adds its contribution to a flit of chunk `j` and sends it on, or finds it final. -/
def Ring.add (g : Ring) (s : State) (j b : Nat) (f : Flit) : State :=
  let p := g.place j
  let n := g.inFlit j b
  let rs := (List.range n).map fun i =>
    (g.contribution s (b + i)).zip (flitCodes f i (g.blockElems (b + i)).length) |>.map fun q =>
      (q.1.1, pairAdd q.1.2 (wirePair (flitScale f i) q.2))
  let ws := rs.map fun r => g.quantise s p (r.map fun q => (q.1, q.2.pair))
  let s := noteWire s (sumOf (ws.map (·.zeroed))) (sumOf (rs.map fun r => (r.filter fun q => q.2.sat).length))
  let tally := if f.tally.isEmpty then [] else combineTally f.tally (deviceTally s)
  let s := g.note (s.modColl g.k fun x => { x with lastHop := if x.lastHop = 0xFF then p else max x.lastHop p })
  if p = g.R - 1 then g.final s b ws tally
  else s.modColl g.k fun x => { x with outq := x.outq ++ [g.flit b p ws tally] }
/-- A flit whose INDEX or HOP is not the one expected halts the collective (R341). -/
def ringSkew (s : State) (k port : Nat) : State :=
  raise (setHealth (s.modColl k fun x => { x with halted := true, inq := [], outq := [] }) (s.train.members.headD 0) 4) 0x7A0A .stepAbort (uRill port)
/-- The buffer of a flit freed (R326). -/
def freeBuf (s : State) (f : Flit) : State :=
  match f.buf with
  | none => s
  | some (p, vc) =>
    let x := s.rill.port p
    (s.withRill (s.rill.setPort p { x with freed := smSet zeroWord x.freed vc (smGet zeroWord x.freed vc + 1) }))
/-- Waiting flits whose contributions are ready now. -/
def Ring.drain (g : Ring) (fs : List Flit) (s : State) : State :=
  forAll fs (fun f s =>
    let b := g.blockAt f
    let j := ((List.range g.R).find? fun j => decide (g.lo j ≤ b) && decide (b < g.hi j)).getD 0
    if (s.coll g.k).halted || !((List.range (g.inFlit j b)).all fun i => g.ready (s.coll g.k) (b + i)) then s
    else
      let s := s.modColl g.k fun x => { x with inq := x.inq.filter (· != f) }
      freeBuf (g.add s j b { f with buf := none }) f) s
/-- A ring flit delivered at this rank (R341). -/
def Ring.receive (g : Ring) (s : State) (port : Nat) (f : Flit) : State :=
  let c := s.coll g.k
  let gather := f.hop + 1 == g.R
  let seen (j : Nat) : Nat := smGet zeroWord c.seen (2 * j + if gather then 1 else 0)
  match g.chunkOf f.index fun j => if (gather && j == g.me) || (!gather && g.place j != f.hop + 1) then g.hi j else g.lo j + seen j with
  | none => freeBuf (ringSkew s g.k port) f
  | some j =>
    let b := g.lo j + seen j
    let n := g.inFlit j b
    let s := s.modColl g.k fun x => { x with seen := smSet zeroWord x.seen (2 * j + if gather then 1 else 0) (seen j + n) }
    if gather then
      let ws := (List.range n).map fun i => ({ codes := flitCodes f i (g.blockElems (b + i)).length, c := flitScale f i, zeroed := 0 } : Wire)
      let s := forAll ws.zipIdx (fun p s => g.write s (b + p.2) p.1.c p.1.codes) s
      let s := if f.tally.isEmpty then s else s.modColl g.k fun x => { x with tally := some f.tally }
      let on := (g.me + 1) % g.R != j
      let s := if on then s.modColl g.k fun x => { x with outq := x.outq ++ [{ f with dest := (g.members[(g.me + 1) % g.R]?).getD 0, src := (torusOf g.t).self, buf := none }] } else s
      freeBuf s f
    else g.drain [f] (s.modColl g.k fun x => { x with inq := x.inq ++ [f] })

/-! ### Line partial sums and raw transfers (R343, R344) -/

/-- The devices of a line, in the order of the direction PEER, with this one's place. -/
def Ring.line (g : Ring) : List Nat :=
  let d := collDim g.t g.k
  let self := (torusOf g.t).self
  let same := g.members.filter fun c => (List.range 3).all fun x => x == d || coordIn x c == coordIn x self
  let up := (List.range 32).flatMap fun v => same.filter fun c => coordIn d c == v
  if collPeer g.t g.k = 1 then up else up.reverse
def Ring.successor (g : Ring) : Option Nat := ((g.line.dropWhile fun c => c != (torusOf g.t).self).drop 1).head?
def Ring.firstOfLine (g : Ring) : Bool := g.line.head? == some (torusOf g.t).self
/-- The flits of a run of pairs: 128 in each. -/
def Ring.pairFlits (g : Ring) (dest elem0 : Nat) (pairs : List Nat) : List Flit :=
  let cs := chunksOf 128 pairs
  cs.zipIdx.map fun p =>
    { vc := 2, dest := dest, last := p.2 + 1 == cs.length, src := (torusOf g.t).self, coll := g.k, index := (elem0 + 128 * p.2) / 256 % 2 ^ 24,
      payload := packBits 64 p.1 }
/-- The flits of a packet of bytes. -/
def Ring.byteFlits (g : Ring) (dest : Nat) (bs : List Byte) : List Flit :=
  let cs := chunksOf 1024 bs
  cs.zipIdx.map fun p =>
    { vc := 2, dest := dest, last := p.2 + 1 == cs.length, src := (torusOf g.t).self, coll := g.k, index := p.2 % 2 ^ 24, payload := leNat p.1 }
/-- A predecessor's pairs: the first and the second half of a 256-element block in turn. -/
def Ring.receiveLine (g : Ring) (s : State) (f : Flit) : State :=
  let n := smGet zeroWord (s.coll g.k).seen f.index
  let e := 256 * f.index + 128 * (n % 2)
  let m := min 128 (g.elems - e)
  let s := vaWrite s (collRbuf g.t g.k + 8 * e) (leBytes (8 * m) f.payload)
  freeBuf (s.modColl g.k fun x => { x with seen := smSet zeroWord x.seen f.index (n + 1), fin := x.fin ++ [(e, m)] }) f
/-- The place of a coordinate, to tell sources apart. -/
def Ring.receiveRaw (g : Ring) (s : State) (f : Flit) : State :=
  let at_ := smGet zeroWord (s.coll g.k).pos f.src
  let m := min 1024 (g.elems - at_)
  let s := vaWrite s (collRbuf g.t g.k + at_) (leBytes m f.payload)
  let s := s.modColl g.k fun x => { x with pos := smSet zeroWord x.pos f.src (at_ + m) }
  let whole := f.last && decide (g.elems ≤ at_ + m)
  freeBuf (if whole then g.note (s.modColl g.k fun x => { x with fin := x.fin ++ [(0, g.elems)], done := g.elems }) else s) f
/-- The draws of a flit of a collective: its 16 words of payload, of FABRIC of the die whose streams move it (R281, R334). -/
def State.collDraws (s : State) (k : Nat) : List Nat := List.replicate 16 (wFabric (s.coll k).die)
/-- A data flit delivered at this device. It draws what the beat has left, and does not wait (DESIGN CHOICE, log 72). -/
def deliverFlit (s : State) (port : Nat) (f : Flit) : State :=
  if s.held .checkpoint then (s.withRill { s.rill with held := s.rill.held ++ [(6, f)] })
  else match s.ringOf f.coll with
    | none => freeBuf s f
    | some g =>
      let s := s.withWeir (drawCredits s.weir (s.collDraws f.coll))
      if (s.coll f.coll).halted then freeBuf s f
      else match collKind g.t g.k with
        | 1 => g.receive s port f
        | 2 => g.receiveLine s f
        | _ => g.receiveRaw s f
/-- Flits that a stop kept from delivery (R347). -/
def deliverHeld (s : State) : State :=
  let mine := s.rill.held.filter fun p => p.1 == 6
  let s := (s.withRill { s.rill with held := s.rill.held.filter fun p => p.1 != 6 })
  forAll mine (fun p s => deliverFlit s ((p.2.buf.map (·.1)).getD 0) p.2) s

/-! ### Reduction entries (R340) -/

def sColl (b : Nat) : Nat := fld b 0 1
def sSluice (b : Nat) : Nat := fld b 1 1
def sRegion (b : Nat) : Nat := fld b 4 4
def sElem0 (b : Nat) : Nat := fld b 8 8
def sCount (b : Nat) : Nat := fld b 0x10 8
def kindOf (s : State) (b : Nat) : Nat := (s.routing.map fun t => collKind t (sColl b)).getD 0
def redRegions (s : State) (_core : Nat) (c : Cur) : List (Nat × Nat) :=
  if kindOf s c.blk = 2 then [(sRegion c.blk, sCount c.blk)] else []
def sendNeeds (s : State) (core : Nat) (c : Cur) : List (Nat × Nat) :=
  match kindOf s c.blk with
  | 1 => [(sSluice c.blk, s.inWords core (sSluice c.blk) 0x02 (sCount c.blk))]
  | 3 => [(sSluice c.blk, ceilDiv (sCount c.blk) 64)]
  | _ => []
/-- A send of the ring still to come from another core of the training group that shares elements with a range (R66). -/
def sendOpen (s : State) (core k elem0 n : Nat) : Bool :=
  (s.train.members.flatMap coresOf).any fun m => m != core &&
    match s.image m with
    | none => false
    | some img =>
      let same (e : Entry) : Bool :=
        let b := s.blockAt img e
        e.op == 0x09 && sColl b == k && rangesMeet (sElem0 b, sCount b) (elem0, n)
      ((s.core m).todo.any fun p => same (s.entryAt img p.off)) || (s.core m).running.any fun r => !r.formed && same r.entry
/-- The contributions of the group's clusters to an element, in ascending order of cluster number, summed by the cluster reduction tree
(R66, R175, R341). -/
def clusterSum (parts : List CollPart) (e : Nat) : Pair × AccFlags :=
  let ps := (List.range 16).flatMap fun cl => (parts.filter fun p => p.cl == cl).filterMap fun p =>
    if p.elem0 ≤ e ∧ e < p.elem0 + p.pairs.length then some (Pair.ofWord ((p.pairs.drop (e - p.elem0)).headD 0)) else none
  match ps with
  | [] => (Pair.zero, {})
  | p :: rest => rest.foldl (fun a q => let r := addPair a.1 q; (r.1, a.2.plus r.2)) (p, {})
/-- The cluster-reduced pairs of a range written to CBUF, and the range ready for the ring (R341). -/
def Ring.reduceRange (g : Ring) (core elem0 n : Nat) (s : State) : State :=
  if (s.coll g.k).ready.contains (elem0, n) then s
  else
    let sums := (List.range n).map fun i => clusterSum (s.coll g.k).parts (elem0 + i)
    let s := noteAcc s core .gradient (sums.foldl (fun a p => a.plus p.2) {})
    let s := vaWrite s (collCbuf g.t g.k + 8 * elem0) (leBytes (8 * n) (packBits 64 (sums.map fun p => p.1.toWord)))
    s.modColl g.k fun x => { x with ready := x.ready ++ [(elem0, n)] }
/-- A cluster's pairs for a range of a ring (KIND 1): once no other send of the group still adds to a range that was sent, the range is
reduced over the clusters, and what can go now goes. -/
def Ring.sendPairs (g : Ring) (s : State) (core elem0 : Nat) (ps : List Nat) : State :=
  let s := s.modColl g.k fun x => { x with parts := x.parts ++ [⟨clusterOf core, elem0, ps⟩] }
  let whole := (s.coll g.k).parts.filter fun p => !sendOpen s core g.k p.elem0 p.pairs.length
  let s := forAll whole (fun p s => g.reduceRange core p.elem0 p.pairs.length s) s
  g.drain (s.coll g.k).inq (g.pump (g.blocks + 1) s)
/-- A send: the range written to CBUF and marked ready, and what can go now (R340). -/
def sendForm (s : State) (core : Nat) (c : Cur) (ws : Nat → List Nat) : Formed :=
  let b := c.blk
  let n := sCount b
  let clk := 16 + ceilDiv n (if kindOf s b = 3 then 1024 else 128)
  match s.ringOf (sColl b) with
  | none => { st := s, clk := clk }
  | some g =>
    let k := sColl b
    let s := s.modColl k fun x => { x with die := dieOf core }
    match kindOf s b with
    | 1 => { st := g.sendPairs s core (sElem0 b) (s.inCodes core (sSluice b) 0x02 n (ws (sSluice b))), clk := clk }
    | 2 =>
      let s := combineRegion s core (sRegion b) .other
      let ps := ((s.core core).pairs (sRegion b) n).map Pair.toWord
      let s := vaWrite s (collCbuf g.t k + 8 * sElem0 b) (leBytes (8 * n) (packBits 64 ps))
      let fs := match g.successor with
        | some d => g.pairFlits d (sElem0 b) ps
        | none => []
      let s := s.modCore core fun x => { x with regions := x.regions.filter fun r => r.base != sRegion b }
      { st := s.modColl k fun x => { x with ready := x.ready ++ [(sElem0 b, n)], outq := x.outq ++ fs }, clk := clk }
    | _ =>
      let bs := leBytes n (packBits 512 (ws (sSluice b)))
      let s := vaWrite s (collCbuf g.t k + sElem0 b) bs
      let fs := g.byteFlits ((g.members[collPeer g.t k]?).getD 0) bs
      { st := s.modColl k fun x => { x with ready := x.ready ++ [(sElem0 b, n)], outq := x.outq ++ fs }, clk := clk }
/-- A receive's range is final; a device with no predecessor on its line waits for nothing. -/
def recvReady (s : State) (_core : Nat) (c : Cur) : Bool :=
  match s.ringOf (sColl c.blk) with
  | none => false
  | some g =>
    (collKind g.t g.k == 2 && g.firstOfLine) ||
      (chunksOf 128 (List.range (sCount c.blk))).all fun es => (es.head?.toList ++ es.getLast?.toList).all fun e => rangeReady (s.coll g.k).fin (sElem0 c.blk + e)
/-- A receive: the range delivered through its Sluice; for KIND 2 each pair is added into the region as one slot. -/
def recvForm (s : State) (core : Nat) (c : Cur) (_ws : Nat → List Nat) : Formed :=
  let b := c.blk
  let n := sCount b
  let out (s : State) (w : Nat) (codes : List Nat) : List (Nat × SWord) := if named (sSluice b) then s.outWords core (sSluice b) w codes else []
  match s.ringOf (sColl b) with
  | none => { st := s }
  | some g =>
    let s := s.modColl g.k fun x => { x with die := dieOf core }
    match collKind g.t g.k with
    | 3 => { st := s, outq := out s 8 ((List.range n).map fun i => vaByte s (collRbuf g.t g.k + sElem0 b + i)), clk := 16 + ceilDiv n 1024 }
    | 2 =>
      if g.firstOfLine then { st := s, clk := 16 }
      else
        let ps := (List.range n).map fun i => Pair.ofWord (vaRead s (collRbuf g.t g.k + 8 * (sElem0 b + i)) 8)
        let rs := ps.zipIdx.map fun p => addPair ((s.core core).pair (sRegion b + p.2)) p.1
        let s := s.modCore core fun x => (x.setPairs (sRegion b) (rs.map (·.1))).modRegion (sRegion b) fun r => { r with slots := r.slots + 1, len := max r.len n }
        let s := noteAcc s core .other (rs.foldl (fun a r => a.plus r.2) {})
        let s := g.note (s.modColl g.k fun x => { x with done := x.done + n })
        { st := s, outq := out s 64 (rs.map fun r => r.1.toWord), clk := 16 + ceilDiv n 128 }
    | _ => { st := s, outq := out s 64 ((List.range n).map fun i => vaRead s (collRbuf g.t g.k + 8 * (sElem0 b + i)) 8), clk := 16 + ceilDiv n 128 }

/-- The classes of reduction entries. -/
def sendKind : EntryKind := { op := 0x09, needs := sendNeeds, regions := redRegions, form := sendForm }
def recvKind : EntryKind := { op := 0x0A, needs := fun _ _ _ => [], regions := redRegions, ready := recvReady, form := recvForm }

/-- `REDUCTION_SEND` (R340). -/
def execReductionSend (core : Fin 256) (err : EntryErr) (s : State) : Host.Outcome State Fault Refusal := runEntry sendKind core err s
/-- `REDUCTION_RECEIVE` (R340). -/
def execReductionReceive (core : Fin 256) (err : EntryErr) (s : State) : Host.Outcome State Fault Refusal := runEntry recvKind core err s

end Sys2Proof.Machine
end

