-- ==== Sys2Proof/Machine/Checkpoint.lean ====
section
/-! DEFINITION. Checkpoints (R378–R387), the progress ledger as it is read (R389, R390), and restore and serve
(R391–R394). -/

namespace Sys2Proof.Machine

/-! ### The manifest and the image's size (R378–R380) -/

def State.manifest (s : State) (i : Nat) : Nat := s.reg (ofUnit Obj.ckptRgn i)
def manFlags (v : Nat) : Nat := fld v 0x18 4
def manLen (v : Nat) : Nat := fld v 0x10 8
/-- The valid entries, in increasing index. -/
def validEntries (s : State) : List Nat := (List.range 256).filter fun i => bitOf (manFlags (s.manifest i)) 0
/-- The base that a stop copies: the bank in force of a BANKED or EPOCH entry. -/
def manBase (s : State) (v : Nat) : Nat :=
  let bank := if bitOf (manFlags v) 1 then s.reg Obj.stepBank else if bitOf (manFlags v) 2 then s.reg Obj.epochBank else 0
  if bank = 0 then fld v 0 8 else fld v 8 8
def up64 (n : Nat) : Nat := ceilDiv n 64 * 64
def up64k (n : Nat) : Nat := ceilDiv n 65536 * 65536
/-- Offsets of the state record's parts: exponents, holds, watchdogs, learning rates, history, fenced map, mirrors, end. -/
def recordOffsets (layers : Nat) : List Nat :=
  let a := up64 layers
  let w := 2 * a + up64 (2 * layers)
  [0, a, 2 * a, w, w + 64, w + 64 + 2 ^ 23, w + 128 + 2 ^ 23, w + 128 + 2 ^ 23 + 2 ^ 20]
def recordAt (layers i : Nat) : Nat := (recordOffsets layers).getD i 0
/-- Where the regions begin. -/
def regionsAt (layers : Nat) : Nat := 65536 + up64k (recordAt layers 7)
/-- BYTES of the present manifest. -/
def manifestBytes (s : State) : Nat :=
  regionsAt s.layerCount + sumOf ((validEntries s).map fun i => up64k (manLen (s.manifest i)))

/-! ### The interval (R381) -/

def mtbf (s : State) : Nat := (s.reg Obj.resMtbfPrior + (s.beat - s.ckpt.since) / 1000000) / (1 + s.ckpt.notices)
/-- The interval in force, in seconds; 0 where none applies. -/
def intervalS (s : State) : Nat :=
  match s.reg Obj.ckptMode with
  | 0 =>
    let bytes := if s.reg Obj.ckptLastBytes = 0 then manifestBytes s else s.reg Obj.ckptLastBytes
    max 10 (min 3600 (isqrt (2 * (20000000000 + bytes) * mtbf s / 1000000000000)))
  | 1 => s.reg Obj.ckptFixedS
  | _ => 0
/-- CKPT_INTERVAL_EXPIRED (R381); none falls due during a warm restart (R446). -/
def execCkptIntervalExpired (s : State) : Host.Outcome State Fault Refusal :=
  if !s.running || s.stopped || s.mgt.restarting || s.reg Obj.ckptMode = 2 || s.beat < s.ckpt.lastEnd + 1000000 * intervalS s then .next s
  else .next (s.withCkpt { s.ckpt with due := true })
/-- A write of `Obj.ckptRequest`, checked and applied. -/
def ckptRequestWrite (s : State) : Ans :=
    Ans.ok (s.withCkpt { s.ckpt with due := true })
/-- CKPT_REQUEST_WRITE (R381). -/
def execCkptRequestWrite (q : Req) (v : BitVec 8) (s : State) : Host.Outcome State Fault Refusal :=
  .next (dictAction s q Obj.ckptRequest v.toNat ckptRequestWrite)
/-- A write of `Obj.resFailNotice`, checked and applied. -/
def resFailNoticeWrite (s : State) : Ans :=
    Ans.ok (s.withCkpt { s.ckpt with notices := s.ckpt.notices + 1 })
/-- RES_FAIL_NOTICE_WRITE (R381). -/
def execResFailNoticeWrite (q : Req) (v : BitVec 8) (s : State) : Host.Outcome State Fault Refusal :=
  .next (dictAction s q Obj.resFailNotice v.toNat resFailNoticeWrite)
/-- A write of `Obj.resMtbfReset`, checked and applied. -/
def resMtbfResetWrite (s : State) : Ans :=
    Ans.ok (s.withCkpt { s.ckpt with notices := 0, since := s.beat })
/-- RES_MTBF_RESET_WRITE (R381). -/
def execResMtbfResetWrite (q : Req) (v : BitVec 8) (s : State) : Host.Outcome State Fault Refusal :=
  .next (dictAction s q Obj.resMtbfReset v.toNat resMtbfResetWrite)

/-! ### The stop (R383, R384) -/

/-- The step number in force: the training group's, or the rollout group's where there is no training group. -/
def stepInForce (s : State) : Nat := s.reg (Obj.schedClStep ((s.train.members ++ s.roll.members).headD 0))
/-- The pages of a range, where each translates to a present page of T0. -/
def t0Pages (s : State) (va len : Nat) : Option (List Nat) :=
  (List.range (ceilDiv len 65536)).foldr (fun i acc =>
    match acc, walk s (va + 65536 * i) false false none with
    | some ps, .hit e _ =>
      let pa := e.frame + (va + 65536 * i - e.va)
      if tierOf pa = some 0 ∧ s.present pa then some (pa :: ps) else none
    | _, _ => none) (some [])
/-- The regions that the manifest names, translated; none where one does not translate (R384). -/
def sampleRegions (s : State) : List Nat → Option (List CkptRegion)
  | [] => some []
  | i :: is =>
    let v := s.manifest i
    match t0Pages s (manBase s v) (manLen v), sampleRegions s is with
    | some ps, some rs => some ({ idx := i, va := manBase s v, len := manLen v, pages := ps } :: rs)
    | _, _ => none
/-! ### The image (R379, R380) -/

/-- `RES.FENCED_MAP`: fenced cores and those absent from the map (R438). -/
def fencedMap (s : State) : Nat := sumOf ((List.range 256).map fun n => if s.coreFenced n then 2 ^ n else 0)
def histBytes (h : List Nat) : List Byte := (List.range 16).flatMap fun i => leBytes 4 (h.getD i 0)
/-- The parts of the state record, each with its offset. -/
def stateRecord (s : State) : List (Nat × List Byte) :=
  let n := s.layerCount
  let ls := List.range n
  [(recordAt n 0, ls.flatMap fun l => leBytes 1 (((s.layer l).k % 256).toNat)),
   (recordAt n 1, ls.flatMap fun l => leBytes 1 (s.layer l).hold),
   (recordAt n 2, ls.flatMap fun l => leBytes 2 (s.layer l).wdog),
   (recordAt n 3, (List.range 16).flatMap fun i => leBytes 4 (s.reg (Obj.stepLr0 + i))),
   (recordAt n 5, leBytes 32 (fencedMap s))] ++
  (s.cores.flatMap fun c => c.2.hist.map fun h => (recordAt n 4 + 64 * (512 * c.1 + h.1), histBytes h.2)) ++
  (s.cores.flatMap fun c => c.2.mirror.map fun m => (recordAt n 6 + 64 * (64 * c.1 + m.1), leBytes 64 m.2))
/-- Memory from an address cleared. -/
def clearRange (m : MemState) (a n : Nat) : MemState :=
  { m with cells := m.cells.filter (fun c => decide (c.1 < a) || decide (a + n ≤ c.1)),
           poison := m.poison.filter fun w => decide (8 * w.1 < a) || decide (a + n ≤ 8 * w.1) }
/-- Pages copied one after another. -/
def copyPages (m : MemState) (dst : Nat) : List Nat → MemState
  | [] => m
  | p :: ps => copyPages (movePage m p dst 65536) (dst + 65536) ps
def copyRegions (m : MemState) (dst : Nat) : List CkptRegion → MemState
  | [] => m
  | r :: rs => copyRegions (copyPages m dst r.pages) (dst + 65536 * r.pages.length) rs
/-- Everything of the image but its header. -/
def writeBody (s : State) (base : Nat) : MemState :=
  let m := clearRange s.mem base s.ckpt.bytes
  let m := (stateRecord s).foldl (fun m p => memWriteBytes m (base + 65536 + p.1) p.2) m
  copyRegions m (base + regionsAt s.layerCount) s.ckpt.regions

/-! ### A stop begins -/

/-- What ends a stop: sequencers start steps again, and flits held for the stop are delivered. -/
def stopOver (s : State) : State :=
  let s := s.dropHold .checkpoint
  deliverHeld (s.withCkpt { s.ckpt with due := false, stopNext := false, lastEnd := s.beat })
/-- The stop begins: the image's body takes the place of the image before it, which has no header from here on (R385); or the stop is
abandoned before anything is written. -/
def beginStop (s : State) : State :=
  let s := stopRewind ((s.addHold .checkpoint).setReg Obj.ckptState 1)
  let s := ledgerPhase (raise s 0x8A01 .note uMgt) 5 (stepInForce s)
  let bytes := manifestBytes s
  match sampleRegions s (validEntries s) with
  | some rs =>
    if bytes ≤ s.reg Obj.ckptT1Len ∧ bytes ≤ s.reg Obj.ckptT3SlotLen then
      let s := s.withCkpt { s.ckpt with origin := s.beat, regions := rs, bytes := bytes }
      s.withMem (writeBody s (s.reg Obj.ckptT1Base))
    else stopOver (raise (s.setReg Obj.ckptState 0) 0x8A03 .note uMgt)
  | none => stopOver (raise (s.setReg Obj.ckptState 0) 0x8A03 .note uMgt)
/-- A stop waits to begin: a commit or a rollout boundary named it, or a device without a group has a checkpoint due. -/
def stopPending (s : State) : Bool :=
  s.held .checkpoint || (s.ckpt.due && s.reg Obj.ckptState != 2 && s.train.members.isEmpty && s.roll.members.isEmpty)
/-- CKPT_STOP_BEGIN (R383, R384): every group stands at its boundary, and no retirement waits or runs (R395). -/
def execCkptStopBegin (s : State) : Host.Outcome State Fault Refusal :=
  if !s.running || s.stopped || !stopPending s || s.reg Obj.ckptState = 1 || !s.allAtBoundary || s.mem.retire.isSome then .next s
  else .next (beginStop s)

/-! ### The end of a stop (R383) -/

def ckptMagic : Nat := 0x5844434B
/-- The header's first 128 bytes. -/
def headerBytes (s : State) (gen : Nat) : List Byte :=
  leBytes 4 ckptMagic ++ leBytes 2 1 ++ leBytes 2 s.ckpt.regions.length ++
    leBytes 4 ((s.routing.map fun t => snapRd t 0x14 4).getD 0) ++ leBytes 2 (s.reg Obj.rillRank) ++ leBytes 2 s.layerCount ++
    leBytes 8 (stepInForce s) ++ leBytes 16 (s.ckpt.dataPos.getD (s.reg Obj.stepDataPos)) ++ leBytes 16 (s.reg Obj.rngSeed) ++ leBytes 8 gen ++
    leBytes 8 s.ckpt.bytes ++ leBytes 8 (s.reg Obj.epochActive) ++ (allClusters.flatMap fun cl => leBytes 1 (s.role cl)) ++
    leBytes 1 (s.reg Obj.resFeed) ++ List.replicate 31 0
/-- DIGEST: the header's first 128 bytes and every byte from 0x200 on. -/
def imageDigest (m : MemState) (base bytes : Nat) (head : List Byte) : List Byte :=
  sha512 (head ++ memBytes m (base + 0x200) (bytes - 0x200))
/-- The header of the image in the T1 area, written last. -/
def writeHeader (s : State) (gen : Nat) (sig : List Byte) : State :=
  let base := s.reg Obj.ckptT1Base
  let h := headerBytes s gen
  s.withMem (memWriteBytes s.mem base (h ++ imageDigest s.mem base s.ckpt.bytes h ++ List.replicate 64 0 ++ sig))
/-- CKPT_STOP_END (R383): `sig` is the identity key's signature of the digest. -/
def execCkptStopEnd (sig : BitVec 1056) (s : State) : Host.Outcome State Fault Refusal :=
  if !s.running || s.stopped || s.reg Obj.ckptState ≠ 1 then .next s
  else
    let gen := s.reg Obj.ckptGen + 1
    let us := s.beat - s.ckpt.origin
    let s := writeHeader s gen (leBytes 132 sig.toNat)
    let s := raise (s.setReg Obj.ckptGen gen) 0x8A02 .note uMgt
    let s := (s.setReg Obj.ckptLastStopUs (min us (2 ^ 32 - 1))).setReg Obj.ckptLastBytes s.ckpt.bytes
    let s := if s.ckpt.bytes < (us - 20000) * 1000000 then raise s 0x8A0A .note uMgt else s
    .next (startDrain (stopOver s) gen)

/-! ### The drain (R385–R387) -/

/-- A generation is secured, once (R386). -/
def secure (s : State) : State :=
  if s.reg Obj.ckptSecuredGen = s.ckpt.draining then s
  else raise (s.setReg Obj.ckptSecuredGen s.ckpt.draining) 0x8A07 .note uMgt
/-- The image copied into the device's own T3 slot. -/
def drainT3 (s : State) : State :=
  (s.withMem (movePage s.mem (s.reg Obj.ckptT1Base) (s.reg Obj.ckptT3Base + slotOffset s s.ckpt.draining) s.ckpt.bytes))
/-- A target has everything: T3 by its copy, another once nothing of it is outstanding and its header was sent. -/
def targetFull (s : State) (t : Nat) : Bool := t == 0 || (s.ckpt.heads.contains t && !outstanding s (.drain t))
/-- CKPT_DRAIN_TARGET_DONE (R385, R386): T3, the partner or the store. -/
def execCkptDrainTargetDone (t : Fin 3) (s : State) : Host.Outcome State Fault Refusal :=
  if !s.running || s.stopped || s.drainOf t ≠ 1 || !targetFull s t then .next s
  else
    let s := setDrain (if t.val = 0 then drainT3 s else s) t 2
    let s := if t.val = 2 ∨ (t.val = 1 ∧ s.reg Obj.ckptConflict = 0) then secure s else s
    .next (drainEnd s)
/-- CKPT_DRAIN_TIMEOUT (R387). -/
def execCkptDrainTimeout (t : Fin 3) (s : State) : Host.Outcome State Fault Refusal :=
  if s.stopped || s.beat < s.ckpt.lastEnd + 1000000 * s.reg Obj.ckptDrainLimitS then .next s else .next (drainFail s t)

/-! ### Restore (R391–R393) -/

/-- An image's place, the room it has there, and its header's fields. -/
structure Image where
  at_ : Nat
  room : Nat
def Image.fld (s : State) (g : Image) (off n : Nat) : Nat := memRead s.mem (g.at_ + off) n
def Image.headed (s : State) (g : Image) : Bool := decide (0 < g.room) && g.fld s 0 4 == ckptMagic && g.fld s 4 2 == 1
def t1Image (s : State) : Image := ⟨s.reg Obj.ckptT1Base, s.reg Obj.ckptT1Len⟩
/-- The complete one of two slots with the higher generation. -/
def bestSlot (s : State) (base : Nat) : Option Nat :=
  let len := s.reg Obj.ckptT3SlotLen
  let ok := [0, 1].filter fun k => (Image.mk (base + k * len) len).headed s
  match ok with
  | [] => none
  | [k] => some k
  | _ => some (if (Image.mk base len).fld s 0x38 8 < (Image.mk (base + len) len).fld s 0x38 8 then 1 else 0)
def t3Image (s : State) : Image :=
  let len := s.reg Obj.ckptT3SlotLen
  match bestSlot s (s.reg Obj.ckptT3Base) with
  | some k => ⟨s.reg Obj.ckptT3Base + k * len, len⟩
  | none => ⟨s.reg Obj.ckptT3Base, 0⟩
/-- DIGEST over the image; a poisoned word, or a size that does not fit, fails it too. -/
def Image.digestOk (s : State) (g : Image) : Bool :=
  let bytes := g.fld s 0x40 8
  decide (0x200 ≤ bytes) && decide (bytes ≤ g.room) && !poisoned s.mem g.at_ bytes &&
    imageDigest s.mem g.at_ bytes (memBytes s.mem g.at_ 0x80) == memBytes s.mem (g.at_ + 0x80) 64
/-- The checks of R392 in order; 0 where all hold. -/
def restoreReason (s : State) (g : Image) : Nat :=
  let pos := g.fld s 0x18 16
  if !g.headed s then 1
  else if !g.digestOk s then 2
  else if s.routing.map (fun t => snapRd t 0x14 4) ≠ some (g.fld s 8 4) then 3
  else if g.fld s 0xC 2 ≠ s.reg Obj.rillRank then 4
  else if g.fld s 0xE 2 ≠ s.layerCount ∨ g.fld s 6 2 ≠ (validEntries s).length ∨ g.fld s 0x40 8 ≠ manifestBytes s then 5
  else if (s.reg Obj.rngSeedSet = 1 ∧ s.reg Obj.rngSeed ≠ g.fld s 0x28 16) ∨ s.reg Obj.stepDataPos ≠ pos ∨
      (pos + 1) % 2 ^ 64 ≠ g.fld s 0x10 8 then 6
  else 0
/-- A restore runs on a device at rest: no cluster has a role, and no stop or other restore runs. -/
def restoreAllowed (s : State) : Bool :=
  !s.stopped && allClusters.all (fun cl => s.role cl == 0) && s.reg Obj.ckptState != 1 && !s.held .checkpoint && s.ckpt.restore.isNone
/-- A restore that is checked, and starts or is refused. -/
def restoreStart (s : State) (g : Image) : Ans :=
  if !restoreAllowed s then Ans.refuse stState s
  else
    let r := restoreReason s g
    if r ≠ 0 then
      let s := (s.setReg Obj.ckptRestoreState 3).setReg Obj.ckptRestoreReason r
      let s := if r = 6 then raise s 0x3F06 .stepAbort uMgt else s
      Ans.ok (raise s 0x8A09 .note uMgt)
    else
      let s := (s.withLedger { s.ledger with frozen := false, fatalDie := 7, streams := [], colls := [] })
      let s := ledgerPhase s 6 (g.fld s 0x10 8)
      Ans.ok (((s.setReg Obj.ckptRestoreState 1).setReg Obj.ckptRestoreReason 0).withCkpt { s.ckpt with restore := some g.at_ })
/-- A write of `Obj.ckptRestore`, checked and applied. -/
def ckptRestoreT1 (s : State) : Ans :=
    restoreStart s (t1Image s)
/-- CKPT_RESTORE_T1 (R392). -/
def execCkptRestoreT1 (q : Req) (s : State) : Host.Outcome State Fault Refusal :=
  .next (dictWrite s q Obj.ckptRestore ckptRestoreT1)
/-- A write of `Obj.ckptRestore`, checked and applied. -/
def ckptRestoreT3 (s : State) : Ans :=
    restoreStart s (t3Image s)
/-- CKPT_RESTORE_T3 (R392). -/
def execCkptRestoreT3 (q : Req) (s : State) : Host.Outcome State Fault Refusal :=
  .next (dictWrite s q Obj.ckptRestore ckptRestoreT3)

/-- Each region written to its BASE0. -/
def restoreRegions (s : State) (at_ : Nat) : List Nat → State
  | [] => s
  | i :: is =>
    let v := s.manifest i
    restoreRegions (vaStore s (fld v 0 8) (memBytes s.mem at_ (manLen v))) (at_ + up64k (manLen v)) is
/-- The entries of a history slot: a record does not tell an empty entry from one of 0, and zeros at the end are taken as empty
(DEDUCED, log 31). -/
def trimHist (h : List Nat) : List Nat := (h.reverse.dropWhile (· == 0)).reverse
/-- The state record's parts put in place. -/
def restoreRecord (s : State) (at_ : Nat) : State :=
  let n := s.layerCount
  let rd (i off size : Nat) : Nat := memRead s.mem (at_ + recordAt n i + off) size
  let s := forAll (List.range n) (fun l s => s.modLayer l fun x =>
    { x with k := sint8 (rd 0 l 1), hold := rd 1 l 1, wdog := rd 2 (2 * l) 2 }) s
  let s := forAll (List.range 16) (fun i s => s.setReg (Obj.stepLr0 + i) (rd 3 (4 * i) 4)) s
  let s := forAll (List.range 256) (fun c s =>
    let hist := smSetMany noHist [] ((List.range 512).map fun k => (k, trimHist ((List.range 16).map fun j => rd 4 (64 * (512 * c + k) + 4 * j) 4)))
    let mirror := smSetMany noMirror [] ((List.range 64).map fun k => (k, rd 6 (64 * (64 * c + k)) 64))
    s.modCore c fun x => { x with hist := hist, histOrigin := hist, mirror := mirror }) s
  let s := s.setReg Obj.resFencedMap (s.reg Obj.resFencedMap ||| rd 5 0 32)
  forAll allClusters (fun cl s => refreshFenced s cl) s
/-- The values of the header put in place, with the roles requested again (R393). -/
def restoreHeader (s : State) (at_ : Nat) : State :=
  let rd (off n : Nat) : Nat := memRead s.mem (at_ + off) n
  let s := ((s.setReg Obj.stepBank 0).setReg Obj.rngSeed (rd 0x28 16)).setReg Obj.stepRetries 0
  let s := s.setReg Obj.ckptGen (rd 0x38 8)
  let s := forAll allClusters (fun cl s => s.setReg (Obj.schedClStep cl) (rd 0x10 8)) s
  let s := if (validEntries s).any fun i => bitOf (manFlags (s.manifest i)) 2 then
      (s.setReg Obj.epochBank 0).setReg Obj.epochActive (rd 0x48 8) else s
  let s := (s.withCkpt { s.ckpt with dataPos := some (rd 0x18 16), notices := s.ckpt.notices + 1, restore := none })
  forAll allClusters (fun cl s => requestRole s cl (min 2 (rd (0x50 + cl) 1))) s
/-- CKPT_RESTORE_DONE (R393). -/
def execCkptRestoreDone (s : State) : Host.Outcome State Fault Refusal :=
  match s.ckpt.restore with
  | none => .next s
  | some at_ =>
    if !s.running || s.stopped then .next s
    else
      let n := s.layerCount
      let s := restoreRegions s (at_ + regionsAt n) (validEntries s)
      let s := restoreHeader (restoreRecord s (at_ + 65536)) at_
      .next (raise (s.setReg Obj.ckptRestoreState 2) 0x8A08 .note uMgt)

/-! ### Serving a partner's copy (R394) -/

/-- A write of `Obj.ckptServe`, checked and applied. -/
def ckptServeWrite (s : State) : Ans :=
    match bestSlot s (s.reg Obj.ckptPinBase + 64) with
    | none => Ans.refuse stState s
    | some k =>
      if s.ckpt.serving.isSome || s.stopped || s.qpState (s.reg Obj.ckptServeQp) ≠ 1 then Ans.refuse stState s
      else
        let s := (s.withCkpt { s.ckpt with serving := some k, heads := s.ckpt.heads.filter (· != 3) })
        Ans.ok (sendImage s .serve (serveSrc s k) (memRead s.mem (serveSrc s k + 0x40) 8) (serveDest s))
/-- CKPT_SERVE_WRITE (R394). -/
def execCkptServeWrite (q : Req) (v : BitVec 8) (s : State) : Host.Outcome State Fault Refusal :=
  .next (dictAction s q Obj.ckptServe v.toNat ckptServeWrite)
/-- CKPT_SERVE_DONE (R394). -/
def execCkptServeDone (s : State) : Host.Outcome State Fault Refusal :=
  if s.ckpt.serving.isNone || !s.ckpt.heads.contains 3 || outstanding s .serve then .next s
  else .next (s.withCkpt { s.ckpt with serving := none, heads := s.ckpt.heads.filter (· != 3) })

/-! ### The ledger as it is read (R389, R390) -/

/-- The header of the ledger. -/
def ledgerHeader (s : State) : List Byte :=
  let l := s.ledger
  let g := if l.frozen then l.gens else (s.reg Obj.ckptGen, s.reg Obj.ckptSecuredGen, s.reg Obj.ckptDrainState)
  leBytes 4 0x58444C47 ++ leBytes 1 ((if l.frozen then 1 else 0) + 2 * l.fatalDie) ++ leBytes 1 l.phase ++ leBytes 1 (if l.frozen then l.bank else s.reg Obj.stepBank) ++
    leBytes 1 0 ++ leBytes 8 l.step ++ leBytes 8 l.beat ++ leBytes 8 g.1 ++ leBytes 8 g.2.1 ++ leBytes 1 g.2.2 ++ List.replicate 23 0
/-- Entry `i` behind the header: 12,288 streams, then 256 collectives. -/
def ledgerEntry (s : State) (i : Nat) : Nat :=
  if i < 12288 then smGet zeroWord s.ledger.streams i else smGet noColl s.ledger.colls (i - 12288)
/-- The 64 bytes that `RES.LEDGER_SEL` selects. -/
def ledgerBlock (s : State) (sel : Nat) : List Byte :=
  if sel = 0 then ledgerHeader s else (List.range 4).flatMap fun j => leBytes 16 (ledgerEntry s (4 * (sel - 1) + j))

end Sys2Proof.Machine
end

