-- ==== Sys2Proof/Machine/Links.lean ====
section
/-! DEFINITION. Rill links: flits received, acknowledged, forwarded and sent in slots (R323–R334, R338), port states
(R327–R330), and route sets (R346). -/

namespace Sys2Proof.Machine

def State.port (s : State) (p : Nat) : RillPort := s.rill.port p
def State.modPort (s : State) (p : Nat) (f : RillPort → RillPort) : State := (s.withRill (s.rill.setPort p (f (s.port p))))
def State.pState (s : State) (p : Nat) : Nat := s.reg (Obj.rillPState p)
/-- UP16 or UP8. -/
def State.linkUp (s : State) (p : Nat) : Bool := s.pState p == 2 || s.pState p == 3
/-- A flit may leave by a port: UP, or held back only by its lane check, with the neighbour that the set expects (R330,
R333, R347). -/
def State.linkUsable (s : State) (p : Nat) : Bool := (s.linkUp p || s.pState p == 4) && s.reg (Obj.rillPNbrOk p) == 1

/-! ### Waiting at an output (R331, R333, R338) -/

/-- The port and virtual channel by which a flit leaves, with its routing word after a waypoint (R331–R333); none where it
is delivered here. `inDim` is the dimension it came along. Control flits stay on best-effort with the dateline bit 0. -/
def routeFlit (t : TableRec) (f : Flit) (inDim : Nat) : Option (Nat × Flit) :=
  let T := torusOf t
  let arrived := f.waypt && f.waypoint == T.self
  let f := if arrived then { f with waypt := false, waypoint := 0, vc := f.vc / 2 * 2 } else f
  (hopPort T.size T.self (if f.waypt then f.waypoint else f.dest)).map fun p =>
    let line := if arrived || p / 2 ≠ inDim then 0 else f.vc % 2
    let line := if wraps T.size T.self p then 1 else line
    (p, { f with vc := if f.kind = 1 then 0 else f.vc / 2 * 2 + line })
/-- A flit held for an unusable port; the first of a step is a step-abort (R333). -/
def holdFlit (s : State) (p : Nat) (f : Flit) : State :=
  let s := (s.withRill { s.rill with held := s.rill.held ++ [(p, f)] })
  let s := s.bump Obj.rillHeldFlits 1
  if s.rill.holdRaised then s
  else raise (s.withRill { s.rill with holdRaised := true }) 0x7A06 .stepAbort (uRill p)
/-- Whether a slot of a port is reserved for scheduled flits. -/
def slotReserved (s : State) (p beat slot : Nat) : Bool :=
  match s.routing with
  | none => false
  | some t => decide (slot < 19) && bitOf (slotEntry t (s.routeSet t) p beat slot) 15
/-- A flit queued at an output; a forwarded scheduled one is due three slots after it left the device before (R338). -/
def queueFlit (s : State) (p slot : Nat) (f : Flit) : State :=
  if !(s.linkUsable p || (f.kind == 1 && (s.linkUp p || s.pState p == 4))) then holdFlit s p f
  else if f.kind = 1 then s.modPort p fun x => { x with ctl := x.ctl ++ [f] }
  else if f.vc / 2 = 0 then s.modPort p fun x => { x with best := x.best ++ [f] }
  else
    let beat := s.beat + (slot + 3) / 20
    let due := (slot + 3) % 20
    let late := !slotReserved s p beat due
    let s := s.modPort p fun x => { x with sched := x.sched ++ [{ flit := f, beat := beat, slot := due, late := late }] }
    if !late then s
    else
      let s := s.bump (Obj.rillPSlotMiss p) 1
      if s.rill.missRaised then s else raise (s.withRill { s.rill with missRaised := true }) 0x7A09 .note (uRill p)

/-! ### Reception (R326, R334) -/

/-- A lane check begins (R329). -/
def laneCheck (s : State) (p : Nat) : State := if s.linkUp p then s.setReg (Obj.rillPState p) 4 else s
/-- What the other end acknowledges: its ACK_SEQ, a NAK, credits. -/
def takeTrailer (s : State) (p : Nat) (ack : Option Nat) (nak : Bool) (credits vc : Nat) : State :=
  let x := s.port p
  let kept := match ack with
    | some a => if x.unacked.any (fun f => f.seq == a) then (x.unacked.dropWhile fun f => f.seq != a).drop 1 else x.unacked
    | none => x.unacked
  let s := s.modPort p fun x =>
    { x with unacked := kept, replay := if nak then kept else x.replay.filter fun f => kept.contains f,
             credits := smSet zeroWord x.credits vc (min 64 (smGet zeroWord x.credits vc + credits)) }
  if nak then s.bump (Obj.rillPReplays p) kept.length else s
/-- A refused flit that was being cut through is ended on its output with a forced CRC error (R334). -/
def cutShort (s : State) (p ue : Nat) (f : Flit) : State :=
  if ue ≠ 0 || f.kind ≠ 0 then s
  else match s.routing.bind fun t => routeFlit t f (p / 2) with
    | some (o, g) => if s.linkUsable o then s.emit (.badFlit o g) else s
    | none => s
/-- A flit refused: counted, answered with NAK; the eighth in succession starts the lane check (R326). -/
def refuseFlit (s : State) (p ue : Nat) (f : Flit) : State :=
  let s := s.bump (Obj.rillPUe p) ue
  let s := s.modPort p fun x => { x with refused := x.refused + 1, nak := true }
  let s := cutShort s p ue f
  if (s.port p).refused = 8 then laneCheck (s.modPort p fun x => { x with refused := 0 }) p else s
/-- A flit in order: delivered, or forwarded. -/
def takeFlit (s : State) (p slot : Nat) (f : Flit) : State :=
  match s.routing with
  | none => freeBuf s f
  | some t =>
    match routeFlit t f (p / 2) with
    | none => if f.kind = 1 then freeBuf s f else deliverFlit s p f
    | some (o, g) =>
      let s := (s.modPort p fun x => { x with lastFwd := some s.beat }).modPort o fun x => { x with lastFwd := some s.beat }
      queueFlit (s.bump (Obj.rillPFwd o) 1) o slot g
/-- RILL_FLIT_RX (R326): a flit with what its words and trailer say; `slot` is the one in which it left the device before. -/
def execRillFlitRx (port : Fin 6) (r : FlitRx) (s : State) : Host.Outcome State Fault Refusal :=
  let p := port.val
  if !s.linkUp p || !s.running then .next s
  else
    let f : Flit := { kind := r.kind.toNat, vc := r.vc.toNat, dest := r.dest.toNat, waypt := r.waypt, waypoint := r.waypoint.toNat, seq := r.seq.toNat,
                      last := r.last, src := r.src.toNat, coll := r.coll.toNat, index := r.index.toNat, scale1 := r.scale1.toNat,
                      scale0 := r.scale0.toNat, hop := r.hop.toNat, payload := r.payload.toNat, tally := r.tally.map (·.toNat),
                      buf := some (p, r.vc.toNat) }
    let s := s.bump (Obj.rillPCe p) r.ce.toNat
    if !r.crcOk || r.ue.toNat ≠ 0 then .next (refuseFlit s p r.ue.toNat f)
    else
      let s := s.modPort p fun x => { x with refused := 0 }
      let s := takeTrailer s p (r.ack.map (·.toNat)) r.nak r.credits.toNat r.creditVc.toNat
      if 2 ≤ f.kind then .next s
      else if f.seq ≠ (s.port p).rxSeq then .next (s.modPort p fun x => { x with nak := x.nak || decide ((f.seq + 4096 - x.rxSeq) % 4096 < 2048) })
      else if f.kind = 0 && s.reg (Obj.rillPNbrOk p) ≠ 1 then .next s
      else .next (takeFlit (s.modPort p fun x => { x with rxSeq := (x.rxSeq + 1) % 4096, heard := true }) p r.slot f)

/-! ### Transmission (R326, R338) -/

def credit (x : RillPort) (vc : Nat) : Nat := smGet zeroWord x.credits vc
/-- The routing word of a flit (R324). -/
def flitH0 (f : Flit) : Nat :=
  f.kind * 2 ^ 62 + f.vc * 2 ^ 60 + f.dest * 2 ^ 45 + bit01 f.waypt 44 + f.waypoint * 2 ^ 29 + f.seq * 2 ^ 17 + bit01 f.last 16 + f.src * 2
/-- The content word of a flit (R325). -/
def flitH1 (f : Flit) : Nat := f.coll * 2 ^ 56 + f.index * 2 ^ 32 + f.scale1 * 2 ^ 24 + f.scale0 * 2 ^ 16 + f.hop * 2 ^ 8
/-- The trailer without its CRC (R325). -/
def flitTail (x : RillPort) (credits vc : Nat) : Nat :=
  (x.rxSeq + 4095) % 4096 * 2 ^ 20 + bit01 x.heard 19 + bit01 x.nak 18 + credits * 2 ^ 10 + vc * 2 ^ 8
/-- A flit put on the link with the trailer of the moment. -/
def putLink (s : State) (p : Nat) (f : Flit) : State :=
  let x := s.port p
  let vc := ((x.freed.find? fun q => q.2 != 0).map (·.1)).getD 0
  let n := min 255 (smGet zeroWord x.freed vc)
  let s := s.modPort p fun x => { x with nak := false, freed := smSet zeroWord x.freed vc (smGet zeroWord x.freed vc - n) }
  s.emit (.flit p { f with buf := none } (flitH0 f) (flitH1 f) (flitTail x n vc))
/-- A new flit sent: it takes a credit and the next SEQ, and is kept until it is acknowledged. -/
def sendFlit (s : State) (p : Nat) (f : Flit) : State :=
  let s := freeBuf s f
  let f := { f with seq := (s.port p).seq, buf := none }
  let s := s.modPort p fun x =>
    { x with seq := (x.seq + 1) % 4096, unacked := x.unacked ++ [f], credits := smSet zeroWord x.credits f.vc (credit x f.vc - 1) }
  putLink s p f
def canSend (s : State) (p vc : Nat) : Bool := decide (0 < credit (s.port p) vc) && decide ((s.port p).unacked.length < 2048)
/-- The next flit of this device for a port, from the collective that the slot names. -/
def ownFlit (s : State) (p : Nat) (t : TableRec) (k : Nat) : Option (Flit × Flit) :=
  match (s.coll k).outq with
  | [] => none
  | f :: _ =>
    let w := overrideOf t (s.routeSet t) f.dest
    let g := match w with
      | some w => { f with waypt := true, waypoint := w }
      | none => f
    match routeFlit t g 9 with
    | some (o, h) => if o = p then some (f, h) else none
    | none => none
/-- The slot table entry of a slot of the present beat; 0 where it has none. -/
def entryOfSlot (s : State) (p slot : Nat) : Nat :=
  match s.routing with
  | some t => if slot < 19 then slotEntry t (s.routeSet t) p s.beat slot else 0
  | none => 0
/-- What a port sends next in a slot. -/
inductive NextFlit where
  | replay (f : Flit)
  | sched (d : DueFlit)
  | own (k : Nat) (f g : Flit)
  | ctl (f : Flit)
  | best (f : Flit)
/-- The input by which a flit came. -/
def flitInput (f : Flit) : Nat := (f.buf.map (·.1)).getD 6
/-- Of the best-effort flits that may go, one of the lowest virtual channel, of the input next in turn (R338). -/
def bestFlit (x : RillPort) (fs : List Flit) : Option Flit :=
  let key (f : Flit) : Nat := 8 * f.vc + (flitInput f + 6 - x.turn % 7) % 7
  match fs with
  | [] => none
  | f :: rest => some (rest.foldl (fun a b => if key b < key a then b else a) f)
/-- The choice of R338: replays, the slot's scheduled flits, this device's own, late ones, control, best-effort. A flit of its own waits
for FABRIC credit (R334); the guard slot carries best-effort and control flits alone. -/
def nextFlit (s : State) (p slot : Nat) : Option NextFlit :=
  let x := s.port p
  let e := entryOfSlot s p slot
  let res := bitOf e 15
  let ok (f : Flit) : Bool := canSend s p f.vc
  let now (d : DueFlit) : Bool := !d.late && res && decide (d.beat * 20 + d.slot ≤ s.beat * 20 + slot) && ok d.flit
  let own := if res && bitOf e 14 && s.linkUsable p && !s.held .checkpoint then s.routing.bind fun t => ownFlit s p t (e % 256) else none
  let own := (own.filter fun q => ok q.2 && creditLeft s.weir (s.collDraws (e % 256))).map fun q => NextFlit.own (e % 256) q.1 q.2
  (x.replay.head?.map NextFlit.replay).orElse fun _ =>
    ((x.sched.find? now).map NextFlit.sched).orElse fun _ =>
      own.orElse fun _ =>
        ((x.sched.find? fun d => d.late && decide (slot < 19) && ok d.flit).map NextFlit.sched).orElse fun _ =>
          ((x.ctl.head?.filter ok).map NextFlit.ctl).orElse fun _ => (bestFlit x (x.best.filter ok)).map NextFlit.best
/-- That flit sent. -/
def sendNext (s : State) (p : Nat) : NextFlit → State
  | .replay f => putLink (s.modPort p fun x => { x with replay := x.replay.drop 1 }) p f
  | .sched d => sendFlit (s.modPort p fun x => { x with sched := x.sched.erase d }) p d.flit
  | .own k f g =>
    sendFlit ((s.withWeir (drawCredits s.weir (s.collDraws k))).modColl k fun c => { c with outq := c.outq.erase f }) p g
  | .ctl f => sendFlit (s.modPort p fun x => { x with ctl := x.ctl.drop 1 }) p f
  | .best f => sendFlit (s.modPort p fun x => { x with best := x.best.erase f, turn := flitInput f }) p f
/-- The flits of a slot, on fuel. -/
def slotFlits (p slot : Nat) : Nat → State → State
  | 0, s => s
  | n + 1, s =>
    match nextFlit s p slot with
    | some f => slotFlits p slot n (sendNext s p f)
    | none => s
/-- A flit with nothing to carry, where an answer or credits wait for one. -/
def idleFlit (s : State) (p : Nat) (before : Nat) : State :=
  let x := s.port p
  if s.outbox.length = before && (x.nak || x.freed.any fun q => q.2 != 0) then putLink s p { kind := 2 } else s
/-- Flits that were held for a port that works again. -/
def releaseHeld (s : State) (p : Nat) : State :=
  let mine := s.rill.held.filter fun q => q.1 == p
  let s := (s.withRill { s.rill with held := s.rill.held.filter fun q => q.1 != p })
  forAll mine (fun q s => queueFlit s p 19 q.2) s
/-- Data flits that wait at a port that has become unusable are held there (R333). -/
def holdQueued (s : State) (p : Nat) : State :=
  let x := s.port p
  forAll (x.sched.map (·.flit) ++ x.best) (fun f s => holdFlit s p f) (s.modPort p fun x => { x with sched := [], best := [] })
/-- This device's own flits of a slot, held where they would leave by an unusable port (R333), on fuel. -/
def holdOwn (p slot : Nat) : Nat → State → State
  | 0, s => s
  | n + 1, s =>
    let e := entryOfSlot s p slot
    if !bitOf e 15 || !bitOf e 14 || s.held .checkpoint then s
    else match s.routing.bind fun t => ownFlit s p t (e % 256) with
      | none => s
      | some q => holdOwn p slot n (holdFlit (s.modColl (e % 256) fun c => { c with outq := c.outq.erase q.1 }) p q.2)
/-- RILL_SLOT (R333, R338): a slot time of a port, 19 flit times. -/
def execRillSlot (port : Fin 6) (slot : Fin 20) (s : State) : Host.Outcome State Fault Refusal :=
  if !s.running then .next s
  else
    let r := if s.linkUsable port then releaseHeld s port else holdOwn port slot 19 (holdQueued s port)
    .next (if s.linkUp port then idleFlit (slotFlits port slot 19 r) port s.outbox.length else r)

/-! ### Port states (R327–R330) -/

def goodLanes (m : Nat) : Nat := ((List.range 18).filter fun i => bitOf m i).length
/-- A port becomes DOWN (R328). -/
def portDown (s : State) (p : Nat) : State :=
  let s := linkGone (s.setReg (Obj.rillPState p) 5) p 5
  raise s 0x7A03 .degrade (uRill p)
def downWithQueues (s : State) (p : Nat) : State :=
  let x := s.port p
  let s := portDown s p
  forAll (x.unacked ++ x.sched.map (·.flit) ++ x.ctl ++ x.best) (fun f s => holdFlit s p f) s
/-- Credits as the receiver's 64 buffers of each virtual channel. -/
def fullCredits : SMap Nat := [(0, 64), (1, 64), (2, 64), (3, 64)]
/-- RILL_TRAINING_DONE (R328): the lanes found good, and the coordinate that the other end gave at Identify. -/
def execRillTrainingDone (port : Fin 6) (good : BitVec 18) (nbr : BitVec 15) (s : State) : Host.Outcome State Fault Refusal :=
  let p := port.val
  let n := goodLanes good.toNat
  if s.pState p ≠ 1 || n < 8 then .next s
  else
    let full := 16 ≤ n
    let s := ((s.setReg (Obj.rillPState p) (if full then 2 else 3)).setReg (Obj.rillPLanes p) (if full then 16 else 8)).setReg
      (Obj.rillPFailed p) (2 ^ 18 - 1 - good.toNat)
    let s := s.setReg (Obj.rillPNbr p) nbr.toNat
    let s := s.modPort p fun _ => { credits := fullCredits }
    let s := checkNeighbour (s.emit (.identify p (s.reg Obj.rillCoord))) p
    .next (if s.linkUsable p then releaseHeld s p else s)
/-- RILL_TRAINING_TIMEOUT (R328). -/
def execRillTrainingTimeout (port : Fin 6) (s : State) : Host.Outcome State Fault Refusal :=
  let p := port.val
  if s.pState p ≠ 1 then .next s
  else
    let n := (s.port p).attempts + 1
    if n < 3 then .next (s.modPort p fun x => { x with attempts := n }) else .next (portDown s p)
/-- RILL_LANE_LOCK_LOSS (R329). -/
def execRillLaneLockLoss (port : Fin 6) (lane : Fin 18) (s : State) : Host.Outcome State Fault Refusal :=
  if bitOf (s.reg (Obj.rillPFailed port)) lane then .next s else .next (laneCheck s port)
/-- RILL_LANE_ERROR_LIMIT (R329): a lane's symbol errors of one second. -/
def execRillLaneErrorLimit (port : Fin 6) (lane : Fin 18) (errors : BitVec 32) (s : State) : Host.Outcome State Fault Refusal :=
  if s.reg (Obj.rillPLaneErrLimit port) < errors.toNat && !bitOf (s.reg (Obj.rillPFailed port)) lane then .next (laneCheck s port) else .next s
/-- RILL_REMAP_DONE (R329): the lanes that the test found good; what was not acknowledged is sent again. -/
def execRillRemapDone (port : Fin 6) (good : BitVec 18) (s : State) : Host.Outcome State Fault Refusal :=
  let p := port.val
  if s.pState p ≠ 4 then .next s
  else
    let n := goodLanes good.toNat
    let s := s.setReg (Obj.rillPFailed p) (2 ^ 18 - 1 - good.toNat)
    if n < 8 then .next (downWithQueues s p)
    else
      let was := s.reg (Obj.rillPLanes p)
      let lanes := if 16 ≤ n then 16 else 8
      let s := (s.setReg (Obj.rillPState p) (if lanes = 16 then 2 else 3)).setReg (Obj.rillPLanes p) lanes
      let s := s.bump (Obj.rillPReplays p) (s.port p).unacked.length
      let s := s.modPort p fun x => { x with replay := x.unacked, refused := 0 }
      .next (if lanes < was then raise s 0x7A02 .degrade (uRill p) else raise s 0x7A01 .note (uRill p))
/-- A write of `(Obj.rillPRetrain port)`, checked and applied. -/
def rillRetrainWrite (port : Nat) (s : State) : Ans :=
    if s.pState port ≠ 5 then Ans.refuse stState s
    else Ans.ok ((s.setReg (Obj.rillPState port) 1).modPort port fun _ => {})
/-- RILL_RETRAIN_WRITE (R327): only a DOWN port trains again. -/
def execRillRetrainWrite (q : Req) (port : Fin 6) (v : BitVec 8) (s : State) : Host.Outcome State Fault Refusal :=
  .next (dictAction s q (Obj.rillPRetrain port) v.toNat (rillRetrainWrite port))

/-! ### Route sets (R346) -/

/-- The barrier that gates a route set: the training group's, or the rollout group's where no image of the former lists one. -/
def routeBarrier (s : State) : Option Barrier := (s.barrierOf 1 .route).orElse fun _ => s.barrierOf 2 .route
/-- The route barrier of a request has begun: this device stands at it, and another participant has arrived (R347; DEDUCED, log 84). -/
def routeBegun (s : State) : Bool :=
  s.rill.altReq.isSome && s.groupAtBoundary 1 && (routeBarrier s).any fun q => s.arrivals.any q.takes
/-- A write of `Obj.rillAltSel`, checked and applied. -/
def rillAltSelWrite (v : Nat) (s : State) : Ans :=
    let sets := (s.routing.map fun t => snapRd t 6 1).getD 0
    let no (st : Nat) : Ans := Ans.refuse st (raise s 0x7A08 .note uDevice)
    if s.held .checkpoint then no stState
    else if s.routing.isNone || sets < v then no stRange
    else if routeBegun s then Ans.ok ((s.setReg Obj.rillAltSel v).withRill { s.rill with altNext := some v })
    else Ans.ok ((s.setReg Obj.rillAltSel v).withRill { s.rill with altReq := some v })
/-- RILL_ALT_SEL_WRITE (R346, R347): a later request replaces it, unless its barrier has begun. -/
def execRillAltSelWrite (q : Req) (v : BitVec 8) (s : State) : Host.Outcome State Fault Refusal :=
  .next (dictWrite s q Obj.rillAltSel (rillAltSelWrite v.toNat))
/-- Every other participant of the route barrier has arrived. -/
def routeReady (s : State) : Bool :=
  match routeBarrier s with
  | none => true
  | some q => q.desc.parts.all fun p => partLocal s p || hasArrived s q p
/-- ROUTE_BARRIER_COMPLETE (R346): before the next step origin. -/
def execRouteBarrierComplete (s : State) : Host.Outcome State Fault Refusal :=
  match s.rill.altReq, routeBarrier s with
  | none, _ => .next s
  | some n, bar =>
    if !s.groupAtBoundary 1 || !routeReady s || s.routing.isNone then .next s
    else
      let s := match bar with
        | some q => releaseBarrier s q
        | none => s
      let s := ((s.setReg Obj.rillAltActive n).withRill { s.rill with altReq := s.rill.altNext, altNext := none })
      .next (raise ((refreshRoutes s).bump Obj.rillRouteGen 1) 0x7A07 .note uDevice)

end Sys2Proof.Machine
end

