-- ==== Sys2Proof/Machine/Resilience.lean ====
section
/-! DEFINITION. Failures: core faults by request and by hang (R375), core tests and unfences (R377), fatal faults (R17,
R373, R388), and the declared capability (R374). -/

namespace Sys2Proof.Machine

/-! ### Core faults (R375) -/

/-- A write of `Obj.resFenceReq`, checked and applied. -/
def resFenceReqWrite (v : Nat) (s : State) : Ans :=
    if 256 ≤ v then Ans.refuse stRange s else Ans.ok (coreFault s v)
/-- RES_FENCE_REQ_WRITE (R375). -/
def execResFenceReqWrite (q : Req) (v : BitVec 16) (s : State) : Host.Outcome State Fault Refusal :=
  .next (dictWrite s q Obj.resFenceReq (resFenceReqWrite v.toNat))
/-- A core's next entry meets the conditions of R50. -/
def headReady (s : State) (core : Nat) : Bool :=
  match (s.core core).todo with
  | [] => false
  | p :: _ =>
    match s.image core with
    | none => false
    | some t =>
      let e := s.entryAt t p.off
      startsNow s core { re := { plan := p, entry := e }, fresh := true, img := t, blk := 0 }
/-- The first beat in which an entry that could start is a hang: `RES.HANG_BEATS` beats after its earliest beat, the first in which it may
start. -/
def hangBeat (s : State) (core : Nat) : Nat :=
  match (s.core core).todo, s.image core with
  | p :: _, some t => p.origin + (s.entryAt t p.off).earliest + s.reg Obj.resHangBeats
  | _, _ => 0
/-- CORE_HANG_TIMEOUT (R375): for `RES.HANG_BEATS` beats the entry could have started and has not. From when its Sluices and tokens were
there is the sender's to say (DESIGN CHOICE, log 85). -/
def execCoreHangTimeout (core : Fin 256) (s : State) : Host.Outcome State Fault Refusal :=
  if !s.running || !headReady s core || decide (s.beat < hangBeat s core) then .next s else .next (coreFault s core)

/-! ### Repair (R377) -/

/-- Whether the selected core may be tested: fenced, of the module, with its cluster's fabric and SRAM ON, the supply in range,
and no test running. -/
def testAllowed (s : State) (core : Nat) : Bool :=
  bitOf (s.reg Obj.resFencedMap) core && s.corePresent core && s.domOn (domFabric (clusterOf core)) && s.domOn (domSram (clusterOf core)) &&
    !s.power.throttle && s.ckpt.testing.isNone && !s.stopped
/-- A write of `Obj.resCoreTest`, checked and applied. -/
def resCoreTestWrite (s : State) : Ans :=
    let core := s.reg Obj.resCoreSel
    if !decide (core < 256) || !testAllowed s core then Ans.refuse stState s
    else
      let s := enterOn (s.setDom (domCore core) dsOn) (domCore core)
      Ans.ok ((s.withCkpt { s.ckpt with testing := some core }).setReg Obj.resTestResult 1)
/-- RES_CORE_TEST_WRITE (R377): the selected core's domain goes ON for its test. -/
def execResCoreTestWrite (q : Req) (v : BitVec 8) (s : State) : Host.Outcome State Fault Refusal :=
  .next (dictAction s q Obj.resCoreTest v.toNat resCoreTestWrite)
/-- CORE_TEST_DONE (R377): the result; the domain goes OFF again. -/
def execCoreTestDone (pass : Bool) (s : State) : Host.Outcome State Fault Refusal :=
  match s.ckpt.testing with
  | none => .next s
  | some core =>
    let passed := s.ckpt.passed.filter (· != core)
    let s := (s.withCkpt { s.ckpt with testing := none, passed := if pass then core :: passed else passed })
    let s := (domArrive s (domCore core) dsOff).setReg Obj.resTestResult (if pass then 2 else 3)
    .next (if pass then s else raise s 0x8A13 .note (uCore core))
/-- An unfence refused (R377, R438). -/
def unfenceRefused (s : State) (core : Nat) : Bool :=
  !decide (core < 256) || !bitOf (s.reg Obj.resFencedMap) core || !s.corePresent core || !s.ckpt.passed.contains core ||
    (s.reg (Obj.schedClFenced (clusterOf core)) == 0xFE && s.role (clusterOf core) != 0)
/-- An unfence takes effect: the flash bit is cleared and the cluster counts its fenced cores again. -/
def unfenceNow (s : State) (cl core : Nat) : State :=
  let s := (s.modCluster cl fun c => { c with unfence := none }).setReg Obj.resFencedMap (s.reg Obj.resFencedMap &&& (2 ^ 256 - 1 - 2 ^ core))
  let s := (s.withCkpt { s.ckpt with passed := s.ckpt.passed.filter (· != core) })
  raise (refreshFenced s cl) 0x8A12 .note (uCore core)
/-- A write of `Obj.resUnfence`, checked and applied. -/
def resUnfenceWrite (s : State) : Ans :=
    let core := s.reg Obj.resCoreSel
    let cl := clusterOf core
    if unfenceRefused s core then Ans.refuse stState (raise s 0x8A13 .note (uCore core))
    else if s.role cl = 0 then Ans.ok (unfenceNow s cl core)
    else Ans.ok (s.modCluster cl fun c => { c with unfence := some core })
/-- RES_UNFENCE_WRITE (R377): at once for a cluster without a role. -/
def execResUnfenceWrite (q : Req) (v : BitVec 8) (s : State) : Host.Outcome State Fault Refusal :=
  .next (dictAction s q Obj.resUnfence v.toNat resUnfenceWrite)
/-- CORE_UNFENCE_APPLY (R377): at the cluster's next step boundary. -/
def execCoreUnfenceApply (cl : Fin 16) (s : State) : Host.Outcome State Fault Refusal :=
  match (s.cluster cl).unfence with
  | none => .next s
  | some core => if s.groupAtBoundary (s.role cl) then .next (unfenceNow s cl core) else .next s

/-! ### Fatal faults (R17, R373, R388) -/

/-- The ledger frozen with the die that failed; a later fault changes nothing in it. -/
def freezeLedger (s : State) (die : Nat) : State :=
  if s.ledger.frozen then s
  else (s.withLedger { s.ledger with frozen := true, fatalDie := die, bank := s.reg Obj.stepBank, gens := (s.reg Obj.ckptGen, s.reg Obj.ckptSecuredGen, s.reg Obj.ckptDrainState) })
/-- The ports of EE: Ethernet 2, 3, 6 and 7, Rill X+, Y+ and Z+ (R20, R350). -/
def portsOfEe (s : State) : State :=
  let s := forAll [2, 3, 6, 7] (fun p s => if s.reg (Obj.ethPState p) = 0 then s else ethLeave s p 3) s
  forAll [0, 2, 4] (fun p s => if s.pState p = 0 ∨ s.pState p = 5 then s else downWithQueues s p) s
/-- FATAL_FAULT (R17): dies 0–3 are C0–C3, 4 is EW, 5 is EE. After one on EW nothing is reachable. -/
def execFatalFault (die : Fin 6) (s : State) : Host.Outcome State Fault Refusal :=
  if !s.running then .next s
  else if die.val = 4 then
    .next (((s.withStopped true).withDead true).withPins { s.pins with fatalLatch := true })
  else
    let s := raise s 0x8A20 .fatal (if die.val < 4 then uDie die else uEdge die)
    let s := freezeLedger (s.withStopped true) die
    .next (if die.val = 5 then portsOfEe s else s)

/-! ### The declared capability (R374) -/

/-- GiB of T0 that are addressable: 2 GiB less for each retired way, and the stacks of the map. -/
def capT0 (s : State) : Nat :=
  sumOf ((List.range 16).map fun k => if s.mapBit 0x20 k then 64 else 0) - 2 * sumOf ((List.range 4).map fun d => (s.retired d).length)
def capCores (s : State) : Nat := ((List.range 256).filter fun n => !s.coreFenced n).length
def capClusters (s : State) : Nat := (allClusters.filter fun cl => s.domPresent (domFabric cl) && s.reg (Obj.schedClFenced cl) != 0xFE).length
def capRillPort (s : State) (p : Nat) : Nat := if s.pState p = 2 ∨ s.pState p = 4 then (if s.reg (Obj.rillPLanes p) = 8 then 1 else 2) else if s.pState p = 3 then 1 else 0
def capRill (s : State) : Nat := sumOf ((List.range 6).map fun p => capRillPort s p * 4 ^ (5 - p))
def capEth (s : State) : Nat := sumOf ((List.range 8).map fun p => if s.portUp p then 2 ^ p else 0)
def capT2 (s : State) : Nat := sumOf ((List.range 2).map fun i => if s.mapBit 0x26 i && !s.mem.lost.contains i then 2 ^ i else 0)
/-- What the map lists, in the same places. -/
def fullT0 (s : State) : Nat := sumOf ((List.range 16).map fun k => if s.mapBit 0x20 k then 64 else 0)
def fullRill (s : State) : Nat := sumOf ((List.range 6).map fun p => if s.mapBit 0x22 p then 2 * 4 ^ (5 - p) else 0)
def fullEth (s : State) : Nat := sumOf ((List.range 8).map fun p => if s.mapBit 0x23 p then 2 ^ p else 0)
def fullT2 (s : State) : Nat := sumOf ((List.range 2).map fun i => if s.mapBit 0x26 i then 2 ^ i else 0)
def capFull (s : State) : Bool :=
  capT0 s == fullT0 s && capCores s == ((List.range 256).filter s.corePresent).length &&
    capClusters s == (allClusters.filter fun cl => s.domPresent (domFabric cl)).length && capRill s == fullRill s && capEth s == fullEth s &&
    capT2 s == fullT2 s
/-- STATE: 0 full, 1 degraded, 2 unavailable. -/
def capState (s : State) : Nat :=
  if s.stopped || s.reg Obj.ckptState == 1 || s.ckpt.restore.isSome || s.held .rebuild then 2 else if capFull s then 0 else 1
/-- `RES.CAP`. -/
def capWord (s : State) : Nat :=
  capT0 s * 2 ^ 48 + capCores s * 2 ^ 39 + capClusters s * 2 ^ 34 + capRill s * 2 ^ 22 + capEth s * 2 ^ 14 + capT2 s * 2 ^ 12 + capState s

end Sys2Proof.Machine
end

