-- ==== Sys2Proof/Machine/Module.lean ====
section
/-! DEFINITION. The module: reset (R401, R460, R461), the boot origin (R401, R457, R458, R472), the power-up sequence (R459), the
straps (R457), cooling (R464), SLEEP and its wake (R408, R418, R419), and the thermal trip (R417). -/

namespace Sys2Proof.Machine

def modPins (s : State) (f : Pins → Pins) : State := (s.withPins (f s.pins))

/-! ### Reset (R401, R425, R460) -/

/-- The T3 writes already issued complete on the hold-up energy (R293, R401). -/
def landT3Flight (s : State) (f : Flight) : State :=
  f.puts.foldl (fun s p => if tierOf (p.1 / 8) = some 3 then (s.withMem (memSetBits s.mem p.1 p.2.1 p.2.2)) else s) s
def landT3 (s : State) : State :=
  forAll (s.cores.flatMap fun c => c.2.ctxs.flatMap fun x => if x.2.flight.any (·.item.isSome) then [] else x.2.flight) (fun f s => landT3Flight s f) s
/-- What a reset leaves of memory: T3, and the expanders until the boot writes them. -/
def keptMemory (m : MemState) : MemState :=
  { cells := m.cells.filter (fun c => decide (0x020000000000 ≤ c.1)), poison := m.poison.filter (fun w => decide (0x020000000000 ≤ 8 * w.1)),
    cxl := m.cxl }
/-- Flash after a reset: a firmware image whose write was cut short is gone (R446, R448). -/
def keptFlash (s : State) : Flash := if s.mgt.flashing.isSome then { s.flash with firmware := [] } else s.flash
/-- Objects that a reset keeps: the persistent ones (R425), the straps held (R457), and what sensors last showed. -/
def keptObjects : List Nat :=
  [Obj.resFencedMap, Obj.memRetiredC0, Obj.memRetiredC1, Obj.memRetiredC2, Obj.memRetiredC3, Obj.bootCount, Obj.secOwnerKey, Obj.secNonce,
   Obj.secMinSvn, Obj.resFeed, Obj.resSlot, Obj.modStrapsLive, Obj.pwrInputMv, Obj.modInletC, Obj.modOutletC, Obj.modFlow] ++
    (List.range 6).map Obj.pwrTemp
/-- The pins in reset: the fatal latch clears (R465, R472). -/
def resetPins (p : Pins) (cause : Nat) : Pins := { p with inReset := true, cause := cause, fatalLatch := false, hotInlet := false, lowFlow := false }
/-- The device reset for a cause of `PWR.RESET_CAUSE`: it stops, every domain is OFF, and it waits for its boot. -/
def deviceReset (s : State) (cause : Nat) : State :=
  let old := landT3 s
  let s := { State.reset with
    pending := old.pending, outbox := old.outbox, fresh := old.fresh, flash := keptFlash old, mem := keptMemory old.mem,
    log := { ready := false }, pins := resetPins old.pins cause }
  let s := forAll keptObjects (fun k s => s.setReg k (old.reg k)) s
  forAll allClusters (fun cl s => refreshFenced s cl) s
/-- The power stage runs or starts. -/
def powered (s : State) : Bool := s.pins.pwrGood || s.pins.softStart
/-- The power stage off. -/
def stageOff (p : Pins) : Pins := { p with pwrGood := false, softStart := false, internalDone := false }
/-- A reset that turns the power stage off. -/
def powerLoss (s : State) (cause : Nat) : State := modPins (deviceReset s cause) stageOff

/-! ### The boot origin (R401, R440, R457, R458, R461, R472) -/

/-- The straps sampled and held. -/
def takeStraps (s : State) (feed slot : Nat) : State :=
  ((s.setReg Obj.resFeed feed).setReg Obj.resSlot slot).setReg Obj.modStrapsLive (feed + 16 * slot)
/-- An input outside its range is reported at boot stage 1. -/
def bootInput (s : State) : State :=
  if inRange (s.reg Obj.pwrInputMv) then s else raise (s.setReg Obj.pwrSupplyState 1) 0x2A03 .note uDevice
/-- Boot stage 1: the log begins, with the cause of a power reset. -/
def beginBoot (s : State) : State :=
  let cause := s.pins.cause
  let s := ((s.withPins { s.pins with inReset := false, pwrGood := true }).withLog {})
  let s := ((s.setReg Obj.bootStage 1).setReg Obj.pwrResetCause cause).setReg Obj.fldPlcaId (s.reg Obj.resSlot + 1)
  let s := if 1 ≤ cause ∧ cause ≤ 3 then raise s 0x2A05 .note uDevice cause else s
  let s := bootInput s
  if s.reg Obj.resFeed = 0xF then raise s 0x2A53 .note uDevice else s
/-- The boot begins once the rails regulate, internal reset has ended and `rst_n` is high. -/
def tryBoot (s : State) : State :=
  if s.pins.inReset && s.pins.pwrGood && s.pins.internalDone && s.pins.rstN then beginBoot s else s

/-! ### Control inputs (R459–R462) -/

/-- J1_MATE (R457, R459): the input monitor supply comes up, and the straps are sampled. -/
def execJ1Mate (feed : BitVec 4) (slot : BitVec 6) (s : State) : Host.Outcome State Fault Refusal :=
  if s.pins.mated && s.pins.monitor then .next s
  else .next (modPins (takeStraps s feed.toNat slot.toNat) fun p => { p with mated := true, monitor := true, thermLatch := false })
/-- J1_BREAK (R453, R462): with the power stage running, a brown-out. -/
def execJ1Break (s : State) : Host.Outcome State Fault Refusal :=
  if !s.pins.mated then .next s
  else .next (modPins (if powered s then powerLoss s 1 else s) fun p => { p with mated := false })
/-- INPUT_BELOW_40V (R455, R461): the input monitor supply goes, and with it a latched thermal trip. -/
def execInputBelow40v (s : State) : Host.Outcome State Fault Refusal :=
  .next (modPins (if powered s then powerLoss s 1 else s) fun p => { p with monitor := false, thermLatch := false })
/-- PWR_EN_RISE (R459, R461): `rested` says that it has been low for at least 100 ms, which clears the trip latch. -/
def execPwrEnRise (rested : Bool) (s : State) : Host.Outcome State Fault Refusal :=
  if s.pins.pwrEn then .next s
  else .next (modPins s fun p => { p with pwrEn := true, needRise := false, thermLatch := p.thermLatch && !rested })
/-- SOFT_START_BEGIN (R459, R461): the input has been in range for 100 ms. -/
def execSoftStartBegin (s : State) : Host.Outcome State Fault Refusal :=
  let p := s.pins
  if p.mated && p.monitor && p.pwrEn && !p.needRise && !p.thermLatch && !p.pwrGood then
    .next (modPins s fun p => { p with softStart := true, inReset := true })
  else .next s
/-- RAILS_IN_REGULATION (R459): `pwr_good` is released. -/
def execRailsInRegulation (s : State) : Host.Outcome State Fault Refusal :=
  if s.pins.softStart then .next (modPins s fun p => { p with softStart := false, pwrGood := true, internalDone := false }) else .next s
/-- INTERNAL_RESET_END (R459, R461): with `rst_n` high, boot stage 1 begins. -/
def execInternalResetEnd (s : State) : Host.Outcome State Fault Refusal :=
  if s.pins.pwrGood && s.pins.inReset && !s.pins.internalDone then .next (tryBoot (modPins s fun p => { p with internalDone := true }))
  else .next s
/-- PWR_EN_FALL (R460, R462): low for 10 µs. -/
def execPwrEnFall (s : State) : Host.Outcome State Fault Refusal :=
  if !s.pins.pwrEn then .next s
  else .next (modPins (if powered s then powerLoss s 0 else s) fun p => { p with pwrEn := false, needRise := true })
/-- RST_N_ASSERT (R460): low for 10 µs; the power stage stays on. -/
def execRstNAssert (s : State) : Host.Outcome State Fault Refusal :=
  if !s.pins.rstN then .next s
  else .next (modPins (if s.pins.pwrGood && !s.pins.inReset then deviceReset s 4 else s) fun p => { p with rstN := false })
/-- RST_N_DEASSERT (R440, R457, R459): the straps are sampled, and the boot begins unless internal reset lasts on. -/
def execRstNDeassert (feed : BitVec 4) (slot : BitVec 6) (s : State) : Host.Outcome State Fault Refusal :=
  if s.pins.rstN then .next s
  else .next (tryBoot (modPins (takeStraps s feed.toNat slot.toNat) fun p => { p with rstN := true }))

/-! ### Brown-out and over-voltage (R401) -/

/-- BROWN_OUT (R401): the input at or below 42.0 V. -/
def execBrownOut (mv : BitVec 17) (s : State) : Host.Outcome State Fault Refusal :=
  if 42000 < mv.toNat ∨ !powered s then .next s else .next (powerLoss (noteInput s mv.toNat) 1)
/-- OVER_VOLTAGE (R401): the input above 60.0 V. -/
def execOverVoltage (mv : BitVec 17) (s : State) : Host.Outcome State Fault Refusal :=
  if mv.toNat ≤ 60000 ∨ !powered s then .next s else .next (powerLoss (noteInput s mv.toNat) 2)

/-! ### Temperatures (R417) -/

/-- The unit of a die, for events. -/
def uAnyDie (d : Nat) : Nat := if d < 4 then uDie d else uEdge d
/-- The thermal trip: latched, the power stage off, and a reset that only `pwr_en` ends. -/
def thermalTrip (s : State) (d : Nat) : State :=
  modPins (powerLoss (raise s 0x2A32 .fatal (uAnyDie d)) 3) fun p => { p with thermLatch := true, needRise := true }
/-- THERMAL_SAMPLE (R417): the temperatures of C0 to C3, EW and EE in a beat, in m°C. -/
def execThermalSample (ts : Vector Int 6) (s : State) : Host.Outcome State Fault Refusal :=
  if !s.running then .next s
  else
    let s := thermAll s ts.toList
    match ts.toList.findIdx? fun t => decide (110000 ≤ t) with
    | some d => .next (thermalTrip s d)
    | none => .next s

/-! ### Straps and cooling (R457, R464) -/

/-- STRAP_CHECK (R457): every second. -/
def execStrapCheck (feed : BitVec 4) (slot : BitVec 6) (s : State) : Host.Outcome State Fault Refusal :=
  let pins := feed.toNat + 16 * slot.toNat
  let changed := decide (pins ≠ s.reg Obj.modStrapsLive) && decide (pins ≠ s.reg Obj.resFeed + 16 * s.reg Obj.resSlot)
  if !s.running then .next s
  else
    let s := s.setReg Obj.modStrapsLive pins
    .next (if changed then raise s 0x2A54 .note uDevice else s)
/-- An event once per excursion. -/
def excursion (s : State) (was now : Bool) (code : Nat) : State := if now && !was then raise s code .note uDevice else s
/-- COOLANT_SAMPLE (R464): inlet and outlet in m°C, flow in mL/min, and the leak trace. -/
def execCoolantSample (inlet outlet : BitVec 32) (flow : BitVec 16) (leak : Bool) (s : State) : Host.Outcome State Fault Refusal :=
  if !s.running then .next s
  else
    let hot := decide (1000 * (s.reg Obj.modCoolLimitC : Int) < inlet.toInt)
    let low := decide (flow.toNat < 2000)
    let wet := s.reg Obj.modLeak == 1
    let p := s.pins
    let s := ((s.setReg Obj.modInletC inlet.toNat).setReg Obj.modOutletC outlet.toNat).setReg Obj.modFlow flow.toNat
    let s := modPins (s.setReg Obj.modLeak (if leak then 1 else 0)) fun p => { p with hotInlet := hot, lowFlow := low }
    let s := excursion (excursion s p.hotInlet hot 0x2A50) p.lowFlow low 0x2A52
    .next (excursion s wet leak 0x2A51)

/-! ### SLEEP and the standby serial port (R408, R418, R419) -/

/-- A write of 1 to `PWR.SLEEP`, checked and applied. -/
def sleepWrite (s : State) : Ans :=
  if allDomains.all fun id => s.domState id == dsOff then Ans.ok (s.withPower { s.power with sleeping := true })
  else Ans.refuse (refuserStatus rfSleep) (domRefuse s domAlwaysOn rfSleep)
/-- SLEEP_WRITE (R408). -/
def execSleepWrite (q : Req) (v : BitVec 8) (s : State) : Host.Outcome State Fault Refusal :=
  .next (dictAction s q Obj.pwrSleep v.toNat sleepWrite)
/-- SSP_ADDRESS_MATCH (R418, R419): an address phase on the standby port; a matching one is acknowledged, also in reset. -/
def execSspAddressMatch (addr : BitVec 7) (s : State) : Host.Outcome State Fault Refusal :=
  if !s.pins.pwrGood || s.dead || addr.toNat ≠ bitsOf (s.reg Obj.pwrSspAddr) 0 7 then .next s
  else
    let s := s.emit .sspAck
    .next (if s.power.sleeping then (s.withPower { s.power with waking := true }) else s)
/-- The domains that `PWR.WAKE_SET` names, in the order of the wake. -/
def wakeDomains (set : Nat) : List Nat :=
  let grp (i : Nat) (ids : List Nat) : List Nat := if bitOf set i then ids else []
  grp 0 ((List.range 4).map fun p => domEth (4 + p)) ++ grp 1 ((List.range 4).map domEth) ++ grp 2 ((List.range 6).map domRill) ++
    grp 3 ((List.range 16).map domHbm) ++ grp 4 [domLpddr 0, domLpddr 1] ++ grp 5 [domCxl 0, domCxl 1]
/-- SSP_WAKE_COMPLETE (R419): at w+20 ms. -/
def execSspWakeComplete (s : State) : Host.Outcome State Fault Refusal :=
  if !s.power.waking then .next s
  else
    let s := (s.withPower { s.power with waking := false, sleeping := false })
    let s := raise (s.bump Obj.pwrWakes 1) 0x2A40 .note (uDomain domAlwaysOn)
    .next (forAll (wakeDomains (s.reg Obj.pwrWakeSet)) (fun id s => (domRequest s id dsOn).2) s)

end Sys2Proof.Machine
end

