-- ==== Sys2Proof/Machine/Security.lean ====
section
/-! DEFINITION. The security engine: measurements (R442), the owner key (R434), signed command blocks (R435), the lowest firmware
version (R447), attestation (R443, R444), debug mode (R445), and staged firmware (R441, R446). -/

namespace Sys2Proof.Machine

/-! ### Measurements (R442) -/

/-- A measurement register extended by a record. -/
def extend (r x : List Byte) : List Byte := sha512 (r ++ x)
def modMgt (s : State) (f : MgtState → MgtState) : State := (s.withMgt (f s.mgt))
def measureFw (s : State) (image : List Byte) : State := modMgt s fun m => { m with regFw := extend m.regFw (sha512 image) }
def measureCfg (s : State) (bytes : List Byte) : State := modMgt s fun m => { m with regCfg := extend m.regCfg (sha512 bytes) }
/-- REG_DBG takes the event code and the beat. -/
def measureDbg (s : State) (code : Nat) : State :=
  modMgt s fun m => { m with regDbg := extend m.regDbg (leBytes 2 code ++ leBytes 8 s.beat) }

/-! ### Debug mode (R445) -/

/-- A write of `DBG.ENTER`, checked and applied. -/
def debugEnter (v : Nat) (s : State) : Ans :=
  if v ≠ 1 then Ans.refuse stRange s
  else
    let s := measureDbg ((s.setReg Obj.dbgMode 1).bump Obj.dbgEntries 1) 0xFA01
    Ans.ok (raise (modMgt s fun m => { m with debugSince := true }) 0xFA01 .note uMgt)
/-- Debug mode left. -/
def debugLeave (s : State) : State :=
  if s.reg Obj.dbgMode = 0 then s else raise (measureDbg (s.setReg Obj.dbgMode 0) 0xFA02) 0xFA02 .note uMgt
/-- A write of `DBG.EXIT`, checked and applied. -/
def debugExit (v : Nat) (s : State) : Ans := if v ≠ 1 then Ans.refuse stRange s else Ans.ok (debugLeave s)
/-- DBG_EXIT (R445). -/
def execDbgExit (q : Req) (v : BitVec 8) (s : State) : Host.Outcome State Fault Refusal :=
  .next (dictWrite s q Obj.dbgExit (debugExit v.toNat))

/-! ### The owner key and the lowest version (R434, R447) -/

/-- The owner key enrolled or changed: measured and reported. -/
def setOwnerKey (s : State) (key : Nat) : State :=
  raise (measureCfg (s.setReg Obj.secOwnerKey key) (leBytes 133 key)) 0x9A02 .note uMgt
/-- A plain write of the owner key: its enrolment, over the field network only (R434, R448). -/
def ownerKeyPlain (p : Path) (key : Nat) (s : State) : Ans :=
  if s.reg Obj.secOwnerKey ≠ 0 then Ans.refuse stAuth s
  else match p with
    | .inband => Ans.refuse stAccess s
    | .field => Ans.ok (setOwnerKey s key)
/-- A signed write of the owner key. -/
def ownerKeySigned (key : Nat) (s : State) : Ans := Ans.ok (setOwnerKey s key)
/-- The key released: REG_CFG takes a key of zeros, and debug mode ends (R434, R442, R448). -/
def ownerRelease (serial : Nat) (s : State) : Ans :=
  if serial ≠ s.reg Obj.idSerial then Ans.refuse stRange s else Ans.ok (debugLeave (setOwnerKey s 0))
/-- A signed write of `SEC.MIN_SVN` (R447). -/
def minSvnWrite (v : Nat) (s : State) : Ans :=
  if v < s.reg Obj.secMinSvn ∨ s.reg Obj.idFwSvn < v then Ans.refuse stRange s else Ans.ok (s.setReg Obj.secMinSvn v)

/-! ### Attestation (R443, R444) -/

/-- A table before another in the report: by handle, active first. -/
def reportLe (a b : TableRec) : Bool := decide (a.handle < b.handle) || (a.handle == b.handle && (a.active || !b.active))
def reportInsert (t : TableRec) : List TableRec → List TableRec
  | [] => [t]
  | u :: us => if reportLe t u then t :: u :: us else u :: reportInsert t us
def reportTables (s : State) : List TableRec := s.tables.foldr reportInsert []
def reportEntry (t : TableRec) : List Byte :=
  leBytes 8 t.handle ++ leBytes 1 (if t.active then 1 else 2) ++ List.replicate 7 0 ++ leBytes 64 t.digest
/-- FLAGS of a report. -/
def reportFlags (s : State) : Nat :=
  bit01 (s.reg Obj.dbgMode == 1) 0 + bit01 s.mgt.debugSince 1 + bit01 (s.reg Obj.secOwnerKey != 0) 2 +
    bit01 (s.reg Obj.secIdState == 1) 3 + bit01 (s.reg Obj.bootRecovery == 1) 4
/-- A report of the present state, without its signature. -/
def reportBody (s : State) (nonce : Nat) : List Byte :=
  let ts := reportTables s
  leBytes 4 0x58444154 ++ leBytes 2 1 ++ leBytes 2 ts.length ++ leBytes 16 (s.reg Obj.idSerial) ++ leBytes 64 nonce ++
    leBytes 4 (s.reg Obj.bootCount) ++ leBytes 4 (reportFlags s) ++ leBytes 4 (s.reg Obj.idFwVersion) ++ leBytes 4 (s.reg Obj.idFwSvn) ++
    leBytes 8 s.beat ++ List.replicate 16 0 ++ s.mgt.regFw ++ s.mgt.regCfg ++ s.mgt.regTbl ++ s.mgt.regDbg ++
    sha512 (leBytes 133 (s.reg Obj.secOwnerKey)) ++ List.replicate 64 0 ++ ts.flatMap reportEntry
/-- A write of `SEC.ATTEST_NONCE`, checked and applied. -/
def attestNonceWrite (nonce : Nat) (s : State) : Ans :=
  let b := reportBody s nonce
  Ans.ok (modMgt ((s.setReg Obj.secAttestState 1).setReg Obj.secAttestLen 0) fun m => { m with building := some b, report := [] })
/-- ATTEST_NONCE_WRITE (R444): the report is built of the state at this instant. -/
def execAttestNonceWrite (q : Req) (nonce : BitVec 512) (s : State) : Host.Outcome State Fault Refusal :=
  .next (dictWrite s q Obj.secAttestNonce (attestNonceWrite nonce.toNat))
/-- ATTEST_REPORT_READY (R444): `sig` is the identity key's signature. -/
def execAttestReportReady (sig : BitVec 1056) (s : State) : Host.Outcome State Fault Refusal :=
  match s.mgt.building with
  | none => .next s
  | some b =>
    let r := b ++ leBytes 132 sig.toNat
    .next (modMgt ((s.setReg Obj.secAttestState 2).setReg Obj.secAttestLen r.length) fun m => { m with building := none, report := r })

/-! ### Firmware images (R441, R446) -/

/-- Whether bytes are a firmware image of the kind asked for, and its signature verifies. -/
def firmwareOk (bytes : List Byte) (recovery : Bool) : Bool :=
  let v := leNat (bytes.take 64)
  let n := bytes.length
  decide (64 + 132 ≤ n) && decide (n ≤ 2 ^ 25) && fld v 0 4 == 0x58444657 && fld v 4 2 == 1 && fld v 6 2 == (if recovery then 1 else 0) &&
    fld v 0x10 4 == n && fld v 0x14 44 == 0 && sigValid Config.firmwareKey (bytes.take (n - 132)) (bytes.drop (n - 132))
def firmwareVersion (bytes : List Byte) : Nat := leNat ((bytes.drop 8).take 4)
def firmwareSvn (bytes : List Byte) : Nat := leNat ((bytes.drop 0xC).take 4)
/-- Bytes staged at a physical address; none where they are not all in tiers that may hold them, or one is poisoned. -/
def stagedBytes (s : State) (tiers : List Nat) (a n : Nat) : List Byte :=
  if tiers.any (fun t => inTier t a n) && s.rangePresent a n && !poisoned s.mem a n then memBytes s.mem a n else []
/-- A flash write runs (R448). -/
def flashBusy (s : State) : Bool :=
  s.reg Obj.cfgState == 1 || s.reg Obj.cfgState == 2 || s.reg Obj.fwState == 4
/-- A write of `FW.VERIFY`, checked and applied. -/
def fwVerify (s : State) : Ans :=
  if [1, 4, 5].contains (s.reg Obj.fwState) then Ans.refuse stBusy s else Ans.ok (s.setReg Obj.fwState 1)
/-- FW_VERIFY (R446). -/
def execFwVerify (q : Req) (v : BitVec 8) (s : State) : Host.Outcome State Fault Refusal :=
  .next (dictAction s q Obj.fwVerify v.toNat fwVerify)
/-- FW_VERIFY_DONE (R441, R446): the staged image is checked. -/
def execFwVerifyDone (s : State) : Host.Outcome State Fault Refusal :=
  if s.reg Obj.fwState ≠ 1 || !s.running then .next s
  else
    let b := stagedBytes s [1] (s.reg Obj.fwStageAddr) (s.reg Obj.fwStageLen)
    if firmwareOk b false && decide (s.reg Obj.secMinSvn ≤ firmwareSvn b) then
      .next (modMgt (s.setReg Obj.fwState 2) fun m => { m with verified := b })
    else .next (raise (s.setReg Obj.fwState 3) 0x1A06 .note uMgt)
/-- A signed write of `FW.COMMIT`: 1 writes flash, 2 restarts warm after it. -/
def fwCommit (v : Nat) (s : State) : Ans :=
  if v ≠ 1 ∧ v ≠ 2 then Ans.refuse stRange s
  else if flashBusy s then Ans.refuse stBusy s
  else if s.reg Obj.fwState ≠ 2 then Ans.refuse stState s
  else Ans.ok (modMgt (s.setReg Obj.fwState 4) fun m => { m with flashing := some (m.verified, v == 2) })
/-- FW_FLASH_DONE (R446). -/
def execFwFlashDone (s : State) : Host.Outcome State Fault Refusal :=
  match s.mgt.flashing with
  | none => .next s
  | some (image, restart) =>
    let s := ((s.withFlash { s.flash with firmware := image }).withMgt { s.mgt with flashing := none, verified := [] })
    .next (s.setReg Obj.fwState (if restart then 5 else 0))
/-- WARM_RESTART_START (R446): it waits for a stop, a drain, a restore and a rebuild stop. -/
def execWarmRestartStart (s : State) : Host.Outcome State Fault Refusal :=
  if !s.running || s.reg Obj.fwState ≠ 5 || s.mgt.restarting || s.reg Obj.ckptState ≠ 0 || s.reg Obj.ckptRestoreState = 1 ||
      s.holds.contains .rebuild then .next s
  else .next ((s.withMgt { s.mgt with restarting := true }).withLog { s.log with holding := true })

/-! ### A staged configuration record (R439) -/

/-- A signed write of `CFG.WRITE`: the record's length. -/
def cfgWrite (len : Nat) (s : State) : Ans :=
  if flashBusy s then Ans.refuse stBusy s
  else
    let b := if len ≤ 65536 then stagedBytes s [0, 1] (s.reg Obj.cfgStageAddr) len else []
    Ans.ok (modMgt (s.setReg Obj.cfgState 1) fun m => { m with record := some b })

end Sys2Proof.Machine
end

