-- ==== Sys2Proof/Machine/Registers.lean ====
section
/-! DEFINITION. The object dictionary as a whole: which objects exist (R423, R426), what a read returns (R424, R431, R443), the
checks and the effect of a write of any object (R424, R425), and signed writes (R435). -/

namespace Sys2Proof.Machine

/-! ### Presence (R423, R426) -/

/-- Whether the unit of an index exists: families of cores, clusters and ports hold objects only for units of the map. -/
def unitThere (s : State) (d : ObjDesc) (index : Nat) : Bool :=
  let n := index - d.lo
  if d.lo = d.hi then true
  else if d.hi - d.lo = 255 then s.corePresent n
  else if d.lo = 0x7100 then s.mapBit 0x22 n
  else if d.lo = 0x7200 then s.mapBit 0x23 n
  else if d.hi - d.lo = 15 && d.lo != 0xA100 then (coresOf n).any s.corePresent
  else true
/-- The description of an object that is present. -/
def objThere (s : State) (key : Nat) : Option ObjDesc :=
  (objDesc key).bind fun d => if unitThere s d (key / 256) then some d else none
/-- The key under which an object's value stands: selected objects stand by their selector. -/
def valueKey (s : State) (key : Nat) : Nat :=
  if key = Obj.logSub then ofUnit key (s.reg Obj.logSubSel)
  else if key = Obj.roceRgn then ofUnit key (s.reg Obj.roceRgnSel)
  else if key = Obj.roceQp then ofUnit key (s.reg Obj.roceQpSel)
  else if key = Obj.ckptRgn then ofUnit key (s.reg Obj.ckptRgnSel)
  else if Obj.pwrDomReq ≤ key ∧ key ≤ Obj.pwrDomCeil then ofUnit key (s.reg Obj.pwrDomSel)
  else key

/-! ### What reads return (R424) -/

/-- The bytes of a log record (R431). -/
def eventBytes (e : Event) : List Byte :=
  leBytes 8 e.seq ++ leBytes 2 e.code ++ leBytes 1 e.sev.code ++ leBytes 1 0 ++ leBytes 4 e.unit ++ leBytes 8 e.beat ++ leBytes 8 e.pos
/-- The record of a number that the ring still holds. -/
def logAt (s : State) (seq : Nat) : Option Event := s.log.ring.find? fun e => e.seq == seq
/-- `LOG.READ`: the selected record and the next; none where the first is not there. -/
def logPair (s : State) : Option (List Byte) :=
  (logAt s (s.reg Obj.logSel)).map fun e => eventBytes e ++ ((logAt s (s.reg Obj.logSel + 1)).map eventBytes).getD (List.replicate 32 0)
/-- `SCHED.CL_VARIANT` (R59). -/
def variantWord (s : State) (cl : Nat) : Nat :=
  let c := s.cluster cl
  let m : PlanMb := if c.mb = 0 then {} else c.plan.getD (c.mb - 1) {}
  let r := s.role cl
  r * 2 ^ 30 + bit01 (r == 1 && s.train.wide) 29 + bit01 c.recompute 28 + fencedKey c.fencedSample * 2 ^ 23 + m.bucket % 16 * 2 ^ 19 +
    (if m.segmented then m.segment % 64 * 2 ^ 13 else 0)
/-- A chunk of 512 bytes, padded with zeros. -/
def chunk512 (bs : List Byte) (i : Nat) : List Byte :=
  let c := (bs.drop (512 * i)).take 512
  c ++ List.replicate (512 - c.length) 0
/-- The certificate that `SEC.CERT_SEL` names. -/
def selectedCert (s : State) : List Byte := s.flash.certs.getD (s.reg Obj.secCertSel / 256) []
/-- Bytes of a tier that are addressable and present. -/
def tierCap (s : State) (t : Nat) : Nat :=
  match t with
  | 0 => capT0 s * 2 ^ 30
  | 1 => sumOf ([0, 1].map fun i => if s.domPresent (domLpddr i) then 2 ^ 39 else 0)
  | 2 => sumOf ([(0, s.mem.cxl.1), (1, s.mem.cxl.2)].map fun p => if s.mapBit 0x26 p.1 && !s.mem.lost.contains p.1 then p.2 else 0)
  | _ => 2 ^ 40
/-- The context and the Sluice that the selectors name. -/
def selectedCtx (s : State) : Ctx := (s.core (bitsOf (s.reg Obj.strmSel) 24 8)).ctx (bitsOf (s.reg Obj.strmSel) 0 6)
def selectedSluice (s : State) : Sluice := (s.core (sluSelected s).1).sluice (sluSelected s).2
/-- `STRM.POS` (R288). -/
def streamPos (s : State) : Nat :=
  let c := selectedCtx s
  ((s.desc (bitsOf (s.reg Obj.strmSel) 24 8) (bitsOf (s.reg Obj.strmSel) 0 6)).map fun d => c.packets * d.pktElems).getD 0
/-- `MOD.ALERT_STATE` (R465, R467). -/
def alertState (s : State) : Nat := bit01 s.log.alert 0 + bit01 (s.reg Obj.modLeak == 1) 1 + bit01 s.pins.fatalLatch 2
/-- `alert_n` is low: under R465, and not in reset. -/
def alertLow (s : State) : Bool := alertState s != 0 && !s.pins.inReset && s.pins.pwrGood
/-- The region of the active power state table of a die. -/
def pstBytes (s : State) (die off n : Nat) : Nat := ((s.pst die).map fun t => snapRd t off n).getD 0
/-- Objects of a selected layer (R211). -/
def layerValue (s : State) (sub : Nat) : Nat :=
  let l := s.layer (s.reg Obj.stepLayerSel)
  match sub with
  | 2 => (l.k % 2 ^ 32).toNat
  | 3 => l.wdog
  | 4 => l.hold
  | 5 => min l.fwdSat (2 ^ 32 - 1)
  | _ => l.gamax
/-- Objects of a selected stream and Sluice (R290). -/
def streamValue (s : State) (sub : Nat) : Nat :=
  let c := selectedCtx s
  match sub with
  | 2 => c.st.code
  | 3 => streamPos s
  | 4 => c.packets
  | 5 => c.cause
  | 6 => c.faultPos
  | _ => if c.shadow.isSome then 1 else 0
/-- Objects of a selected way (R320). -/
def wayValue (s : State) (sub : Nat) : Nat :=
  let pc := s.reg Obj.memPcSel
  match sub with
  | 2 => s.pcCe pc
  | 3 => smGet zeroWord s.mem.pcUe pc
  | _ => smGet zeroWord s.mem.pcOdecc pc
/-- Objects whose value is not a register of its own but follows from the rest of the state. -/
def derived (s : State) (key : Nat) : Option Nat :=
  let index := key / 256
  let sub := key % 256
  if key = Obj.cadCounter then some s.counter
  else if 0x4100 ≤ index ∧ index < 0x4110 ∧ sub = 5 then some (variantWord s (index - 0x4100))
  else if key = Obj.spillHist then
    some (leNat (histBytes (smGet noHist (s.core (bitsOf (s.reg Obj.spillHistSel) 16 8)).hist (bitsOf (s.reg Obj.spillHistSel) 0 9))))
  else if key = Obj.spillMirror then
    some (smGet noMirror (s.core (bitsOf (s.reg Obj.spillMirrorSel) 16 8)).mirror (bitsOf (s.reg Obj.spillMirrorSel) 0 6))
  else if key = Obj.stepFbCount then some ((List.range s.layerCount).filter fun l => (s.layer l).hold != 0).length
  else if index = 0x3C02 ∧ 2 ≤ sub then some (layerValue s sub)
  else if key = Obj.stepFbMask then some (sumOf ((List.range s.layerCount).map fun l => bit01 (maskBit s l) l))
  else if index = 0x5000 ∧ 2 ≤ sub ∧ sub ≤ 8 then some (streamValue s sub)
  else if key = Obj.sluFill then some ((selectedSluice s).packets.length * 2 ^ 16 + (selectedSluice s).used)
  else if key = Obj.sluNarrow then some (if (selectedSluice s).narrow then 1 else 0)
  else if index = 0x6000 ∧ 1 ≤ sub ∧ sub ≤ 4 then some (tierCap s (sub - 1))
  else if index = 0x6002 ∧ (sub = 2 ∨ sub = 3 ∨ sub = 5) then some (wayValue s sub)
  else if 0x6310 ≤ index ∧ index < 0x6320 ∧ sub = 7 then
    let l := (s.cluster (index - 0x6310)).ledger
    some (l.1 + 2 ^ 64 * l.2.1 + 2 ^ 128 * l.2.2)
  else if 0x7200 ≤ index ∧ index < 0x7208 ∧ sub = 9 then
    some (allQps.filter fun i => s.qpValid i && s.qpState i == 1 && s.qpPort i == index - 0x7200).length
  else if (index = 0x7300 ∨ index = 0x7301) ∧ sub = 7 then some (sumOf ((s.activePorts (index - 0x7300)).map fun p => 2 ^ p))
  else if 0xA100 ≤ index ∧ index < 0xA110 ∧ sub = 2 then some (if s.epSecure (index - 0xA100) then 1 else 0)
  else if 0xA300 ≤ index ∧ index < 0xA310 ∧ sub = 3 then some (s.cluster (index - 0xA300)).lengths.length
  else if key = Obj.resCap then some (capWord s)
  else if key = Obj.resFencedMap then some (fencedMap s)
  else if key = Obj.resMtbfObs then some (mtbf s)
  else if key = Obj.ckptIntervalS then some (intervalS s)
  else if key = Obj.resLedger then some (leNat (ledgerBlock s (s.reg Obj.resLedgerSel)))
  else if 0x2020 ≤ index ∧ index < 0x2026 ∧ sub = 3 then some (pstBytes s (index - 0x2020) 0 64)
  else if 0x2020 ≤ index ∧ index < 0x2026 ∧ sub = 4 then
    some (pstBytes s (index - 0x2020) 0x40 (16 * ((s.pst (index - 0x2020)).map pstPoints).getD 0))
  else if key = Obj.pwrDomState then some (s.domState (s.reg Obj.pwrDomSel))
  else if key = Obj.pwrDomCeil then some (domCeil s (s.reg Obj.pwrDomSel))
  else if key = Obj.logHead then some (s.log.next - 1)
  else if key = Obj.secCertLen then some (selectedCert s).length
  else if key = Obj.secCert then some (leNat (chunk512 (selectedCert s) (s.reg Obj.secCertSel % 256)))
  else if key = Obj.secAttest then some (leNat (chunk512 s.mgt.report (s.reg Obj.secAttestSel)))
  else if key = Obj.modAlertState then some (alertState s)
  else none
/-- The value of an object as a READ returns it. -/
def objValue (s : State) (key : Nat) : Nat := (derived s key).getD (s.reg (valueKey s key))

/-! ### Debug reads and the log (R186, R187, R431) -/

/-- A READ of an object (R424). -/
def dictRead (s : State) (q : Req) (obj : Nat) (f : State → Ans) : State := request s q 0x01 obj f
/-- The core and the first of the eight pairs that a value of `DBG.ACC_SEL` names. -/
def accSelected (sel : Nat) : Nat × Nat := (bitsOf sel 24 8, 8 * bitsOf sel 3 14)
/-- A started entry has still to write one of the pairs. -/
def accBusy (s : State) (sel : Nat) : Bool :=
  let p := accSelected sel
  (s.core p.1).running.any fun r => !r.formed && r.regions.any fun g => rangesMeet g (p.2, 8)
/-- A read of the pairs as it is served. -/
def accServe (s : State) (q : Req) (sel : Nat) : State :=
  dictRead s q Obj.dbgAccRead fun s =>
    if s.reg Obj.dbgMode = 0 then Ans.refuse stState s
    else
      let p := accSelected sel
      ⟨stOk, s.bump Obj.dbgReads 1, (List.range 8).flatMap fun i => leBytes 8 (smGet zeroWord (s.core p.1).acc (p.2 + i))⟩
/-- DBG_ACC_READ (R186): served, or held while a started entry has still to write the pairs. -/
def execDbgAccRead (q : Req) (s : State) : Host.Outcome State Fault Refusal :=
  let sel := s.reg Obj.dbgAccSel
  .next (if s.reg Obj.dbgMode = 1 && accBusy s sel then s.withMgt { s.mgt with heldReads := s.mgt.heldReads ++ [(q, sel)] } else accServe s q sel)
/-- The held reads whose pairs are free are served (R186), in the beat that begins (DESIGN CHOICE, log 78). -/
def serveHeld (s : State) : State :=
  let free := s.mgt.heldReads.filter fun p => !accBusy s p.2
  let s := s.withMgt { s.mgt with heldReads := s.mgt.heldReads.filter fun p => accBusy s p.2 }
  forAll free (fun p s => accServe s p.1 p.2) s
/-- DBG_SPILL_READ (R186): the segment store, the top 4 MiB of stacked SRAM, is never readable (R172). -/
def execDbgSpillRead (q : Req) (s : State) : Host.Outcome State Fault Refusal :=
  .next (dictRead s q Obj.dbgSpillRead fun s =>
    let v := s.reg Obj.dbgSpillSel
    if s.reg Obj.dbgMode = 0 then Ans.refuse stState s
    else if 0x70000 ≤ bitsOf v 0 28 then Ans.refuse stRange s
    else ⟨stOk, s.bump Obj.dbgReads 1, leBytes 64 (sramRead (s.cluster (bitsOf v 28 4)).sram (64 * bitsOf v 0 28) 64)⟩)
/-- LOG_READ (R431). -/
def execLogRead (q : Req) (s : State) : Host.Outcome State Fault Refusal :=
  .next (dictRead s q Obj.logRead fun s => match logPair s with
    | some v => ⟨stOk, s, v⟩
    | none => Ans.refuse stRange s)
/-- What a READ of any object answers (R423, R424); the slot count of `DBG.ACC_SLOTS` is that of the region that holds the pair. -/
def readAns (key : Nat) (s : State) : Ans :=
  if key % 256 = 0 then (if objTopSub (key / 256) = 0 then Ans.refuse stNoObject s else ⟨stOk, s, leBytes 1 (objTopSub (key / 256))⟩)
  else match objThere s key with
    | none => Ans.refuse stNoObject s
    | some d =>
      if d.acc = .wo then Ans.refuse stAccess s
      else if key = Obj.logRead then (match logPair s with
        | some v => ⟨stOk, s, v⟩
        | none => Ans.refuse stRange s)
      else if key = Obj.dbgAccSlots then
        let p := accSelected (s.reg Obj.dbgAccSel)
        let r := (s.core p.1).regions.find? fun r => decide (r.base ≤ p.2) && decide (p.2 < r.base + r.len)
        ⟨stOk, s, leBytes 4 ((r.map (·.slots)).getD 0)⟩
      else ⟨stOk, s, leBytes d.size (objValue s key)⟩

/-! ### Checks of a value (R424, R437) -/

def isPow2 (n : Nat) : Bool := decide (n ≠ 0) && 2 ^ Nat.log2 n == n
/-- A value outside the range that an object's table gives. -/
def rangeBad (d : ObjDesc) (v : Nat) : Bool :=
  decide (v < d.rmin) || decide (d.rmax < v) || (if d.align = 0 then !isPow2 v else v % d.align != 0)
/-- A learning rate is finite and not below zero (R211). -/
def rateOk (v : Nat) : Bool := decide (v < 0x7F800000) || v == 0x80000000
/-- Reserved bits and bytes of the records that are written whole (R357, R358, R378, R432). -/
def recordReserved (key v : Nat) : Bool :=
  if key = Obj.logSub then bitsOf (fld v 0x13 1) 3 5 != 0 || fld v 0x14 4 != 0
  else if key = Obj.ckptRgn then bitsOf (fld v 0x18 4) 3 29 != 0 || fld v 0x1C 4 != 0
  else if key = Obj.roceRgn then bitsOf (rgnFlags v) 5 27 != 0 || fld v 0x18 8 != 0
  else if key = Obj.roceQp then qpReserved v
  else false
/-- Values of those records, and others with a rule of their own, that are out of range. -/
def recordRange (key v : Nat) : Bool :=
  let flags := fld v 0x18 4
  if key = Obj.logSub then decide (3 < fld v 0x12 1) || (bitOf (fld v 0x13 1) 2 && !bitOf (fld v 0x13 1) 1)
  else if key = Obj.ckptRgn then
    (bitOf flags 1 && bitOf flags 2) || ((bitOf flags 1 || bitOf flags 2) && fld v 8 8 == 0) ||
      fld v 0 8 % 65536 != 0 || fld v 8 8 % 65536 != 0 || fld v 0x10 8 % 65536 != 0
  else if Obj.stepLr0 ≤ key ∧ key ≤ Obj.stepLr15 then !rateOk v
  else if key = Obj.secCertSel then decide (2 < v / 256)
  else if key = Obj.memRebuildPool then v != 0 && !inTier 1 v (2 ^ 34)
  else if key = Obj.stepBlockMask then v % 8 != 7
  else false
/-- Why a write is refused for its value alone: RESERVED or RANGE. -/
def valueBad (d : ObjDesc) (key v : Nat) : Option Nat :=
  if v &&& d.rsv ≠ 0 ∨ recordReserved key v then some stReserved
  else if rangeBad d v || recordRange key v then some stRange
  else none

/-! ### RWS objects (R261, R279, R320, R371, R396) -/

def noRole (s : State) : Bool := allClusters.all fun cl => s.role cl == 0
/-- Whether the unit that owns an RWS object is stopped. -/
def unitStopped (s : State) (key : Nat) : Bool :=
  let index := key / 256
  if index / 256 = 0x44 then (s.inRole 2).isEmpty
  else if 0x4100 ≤ index ∧ index < 0x4110 then s.role (index - 0x4100) == 0
  else if key = Obj.sluNarrow then
    let p := sluSelected s
    s.role (clusterOf p.1) == 0 && (s.ctxOn p.1 p.2).isNone
  else if 0x6000 ≤ index ∧ index < 0x7000 then noRole s
  else if 0x7200 ≤ index ∧ index < 0x7208 then allQps.all fun i => !(s.qpValid i && s.qpPort i == index - 0x7200)
  else if index = 0x7310 then (s.qpsOf 1).isEmpty
  else if 0x7300 ≤ index ∧ index < 0x7302 then (s.qpsOf (index - 0x7300)).isEmpty
  else if index = 0xA000 then (List.range 16).all fun e => s.reg (Obj.mbxEpQp e) == 0xFFFF
  else if 0xA100 ≤ index ∧ index < 0xA110 then s.reg (Obj.mbxEpQp (index - 0xA100)) == 0xFFFF
  else if 0x8100 ≤ index ∧ index < 0x8200 then s.reg Obj.ckptState == 0 && s.reg Obj.ckptRestoreState != 1
  else true

/-! ### Effects of a write -/

/-- The stash pools, of every cluster and tier (R313). -/
def poolOf (s : State) (cl t : Nat) : Nat × Nat :=
  (s.pool cl t, match t with
    | 0 => s.reg (Obj.siphClT0Len cl)
    | 1 => s.reg (Obj.siphClT1Len cl)
    | _ => s.reg (Obj.siphClT2Len cl))
/-- A pool that names another tier, reaches an absent address or overlaps another pool; an empty one at 0 names none. -/
def poolBad (s : State) (cl t : Nat) : Bool :=
  let p := poolOf s cl t
  !(p == (0, 0) || (inTier t p.1 p.2 && (p.2 == 0 || (s.installed p.1 && s.installed (p.1 + p.2 - 1))))) ||
    allClusters.any fun c => (List.range 3).any fun u => (c != cl || u != t) && (poolOf s c u).2 != 0 && p.2 != 0 && rangesMeet p (poolOf s c u)
def poolWrite (key v : Nat) (s : State) : Ans :=
  let s1 := s.setReg key v
  if poolBad s1 (key / 256 - 0x6310) ((key % 256 - 1) / 2) then Ans.refuse stRange s else Ans.ok s1
/-- RNG_SEED_WRITE (R93, R395): while every cluster is idle, and no stop or restore runs. -/
def rngSeedWrite (v : Nat) (s : State) : Ans :=
  if !noRole s || s.reg Obj.ckptState = 1 || s.reg Obj.ckptRestoreState = 1 then Ans.refuse stState s
  else Ans.ok ((s.setReg Obj.rngSeed v).setReg Obj.rngSeedSet 1)
def execRngSeedWrite (q : Req) (v : BitVec 128) (s : State) : Host.Outcome State Fault Refusal :=
  .next (dictWrite s q Obj.rngSeed (rngSeedWrite v.toNat))
/-- A write of `MOD.ALERT_ACK` (R465): the first condition is cleared. -/
def alertAckWrite (s : State) : Ans := Ans.ok ((s.withLog { s.log with alert := false }).setReg Obj.modAlertSeq 0)
/-- ALERT_ACK_WRITE. -/
def execAlertAckWrite (q : Req) (v : BitVec 8) (s : State) : Host.Outcome State Fault Refusal :=
  .next (dictAction s q Obj.modAlertAck v.toNat alertAckWrite)
/-- The PTP client under another network or domain: it forgets what it heard on ports or in a domain it has left (R359). -/
def ptpNetWrite (key v : Nat) (s : State) : Ans :=
  if s.reg key = v then Ans.ok s
  else Ans.ok (ptpChoose (modPtp (s.setReg key v) fun p => { p with masters := [] }))
def narrowWrite (v : Nat) (s : State) : Ans := Ans.ok (modSlu s (sluSelected s).1 (sluSelected s).2 fun q => { q with narrow := v == 1 })
/-- A class budget lies within the die's TOTAL (R281). -/
def classWrite (key v : Nat) (s : State) : Ans :=
  if s.reg (Obj.weirTotal (key / 256 - 0x5100)) < v then Ans.refuse stRange s else Ans.ok (s.setReg key v)
def actionWrite (f : State → Ans) (v : Nat) (s : State) : Ans := if v = 1 then f s else Ans.refuse stRange s
def restoreWrite (v : Nat) (s : State) : Ans :=
  match v with
  | 1 => ckptRestoreT1 s
  | 2 => ckptRestoreT3 s
  | _ => Ans.refuse stRange s

/-- Objects whose write does more than store the value: single objects. -/
def ownWrites : List (Nat × (Nat → State → Ans)) :=
  [(Obj.tblActivate, tblActivateWrite), (Obj.stepDataPos, dataPosWrite), (Obj.stepSkip, stepSkipWrite), (Obj.stepRetryLimit, retryLimitWrite),
   (Obj.rollCancel, rollCancelWrite), (Obj.epochReady, epochReadyWrite), (Obj.strmResume, actionWrite strmResumeWrite), (Obj.sluCmd, sluCmdWrite),
   (Obj.sluNarrow, narrowWrite), (Obj.sluNarrowData, sluNarrowDataWrite), (Obj.sluNarrowClose, sluNarrowCloseWrite),
   (Obj.memRetire, memRetireWrite), (Obj.xlatInval, xlatInvalWrite), (Obj.xlatFqTail, fqTailWrite), (Obj.xlatFqBase, fqBaseWrite),
   (Obj.xlatFqSize, fqSizeWrite), (Obj.xlatMoveGo, actionWrite pageMoveGo),
   (Obj.rillAltSel, rillAltSelWrite), (Obj.roceQp, roceQpWrite), (Obj.roceRgn, roceRgnWrite), (Obj.mbxMcDbMask, maskWrite Obj.mbxMcDbMask epMc),
   (Obj.resFenceReq, resFenceReqWrite), (Obj.resCoreTest, actionWrite resCoreTestWrite), (Obj.resUnfence, actionWrite resUnfenceWrite)]
def ownWrites2 : List (Nat × (Nat → State → Ans)) :=
  [(Obj.resFailNotice, actionWrite resFailNoticeWrite), (Obj.resMtbfReset, actionWrite resMtbfResetWrite),
   (Obj.ckptRequest, actionWrite ckptRequestWrite), (Obj.ckptServe, actionWrite ckptServeWrite), (Obj.ckptRestore, restoreWrite),
   (Obj.pwrDomReq, domainReqWrite), (Obj.pwrDomFreqReq, freqReqWrite), (Obj.pwrDomVoltReq, voltReqWrite), (Obj.pwrSleep, actionWrite sleepWrite),
   (Obj.pwrDipFreq, fun v s => Ans.ok (refreshAll (s.setReg Obj.pwrDipFreq v))), (Obj.ptpNet, ptpNetWrite Obj.ptpNet),
   (Obj.ptpDomain, ptpNetWrite Obj.ptpDomain), (Obj.rngSeed, rngSeedWrite), (Obj.modAlertAck, actionWrite alertAckWrite),
   (Obj.fwVerify, actionWrite fwVerify), (Obj.fwCommit, fwCommit), (Obj.cfgWrite, cfgWrite), (Obj.secOwnerKey, ownerKeySigned),
   (Obj.secOwnerRelease, ownerRelease), (Obj.secMinSvn, minSvnWrite), (Obj.secAttestNonce, attestNonceWrite), (Obj.dbgEnter, debugEnter),
   (Obj.dbgExit, debugExit)]
/-- The same of the families. -/
def familyWrite (key v : Nat) (s : State) : Option Ans :=
  let index := key / 256
  let sub := key % 256
  if 0x4100 ≤ index ∧ index < 0x4110 ∧ sub = 1 then some (roleReqWrite (index - 0x4100) v s)
  else if 0x5100 ≤ index ∧ index < 0x5104 ∧ 2 ≤ sub ∧ sub ≤ 5 then some (classWrite key v s)
  else if 0x6310 ≤ index ∧ index < 0x6320 ∧ sub ≤ 6 then some (poolWrite key v s)
  else if 0x7100 ≤ index ∧ index < 0x7106 ∧ sub = 0x0C then some (actionWrite (rillRetrainWrite (index - 0x7100)) v s)
  else if 0x7200 ≤ index ∧ index < 0x7208 ∧ sub = 2 then some (ethEnableWrite (index - 0x7200) v s)
  else if 0xA300 ≤ index ∧ index < 0xA310 ∧ sub = 2 then some (maskWrite key (epSeq (index - 0xA300)) v s)
  else none
/-- A value written: what the object's own rule says, else the value stored. -/
def applyWrite (key v : Nat) (s : State) : Ans :=
  match (ownWrites ++ ownWrites2).find? fun p => p.1 == key with
  | some p => p.2 v s
  | none => (familyWrite key v s).getD (Ans.ok (s.setReg (valueKey s key) v))
/-- A write of an object that is present, with a value of its size. -/
def checkedWrite (d : ObjDesc) (key v : Nat) (s : State) : Ans :=
  match valueBad d key v with
  | some st => Ans.refuse st s
  | none => if d.acc = .rws && !unitStopped s key then Ans.refuse stState s else applyWrite key v s

/-! ### Plain and signed writes (R424, R434, R435) -/

/-- Objects that only a signed write changes. -/
def signedOnly : List Nat :=
  [Obj.cfgWrite, Obj.fwCommit, Obj.mgtInbandWrite, Obj.secOwnerRelease, Obj.secMinSvn, Obj.secSecureEps, Obj.dbgEnter]
def readOnly (d : ObjDesc) : Bool := d.acc == .ro || d.acc == .const
/-- A plain write. -/
def plainWrite (p : Path) (key : Nat) (bytes : List Byte) (s : State) : Ans :=
  match objThere s key with
  | none => Ans.refuse (if key % 256 = 0 && objTopSub (key / 256) != 0 then stAccess else stNoObject) s
  | some d =>
    if readOnly d then Ans.refuse stAccess s
    else if signedOnly.contains key then Ans.refuse stAuth s
    else if bytes.length ≠ d.size then Ans.refuse stLength s
    else if key = Obj.secOwnerKey then ownerKeyPlain p (leNat bytes) s
    else checkedWrite d key (leNat bytes) s

/-- Fields of a signed block. -/
def blockFld (b : List Byte) (off n : Nat) : Nat := leNat ((b.drop off).take n)
def blockKey (b : List Byte) : Nat := ob (blockFld b 0 2) (blockFld b 2 1)
def blockVlen (b : List Byte) : Nat := blockFld b 4 2
def pad8 (n : Nat) : Nat := ceilDiv n 8 * 8
/-- Signers that an object accepts: 1 the owner, 2 Lumquerix. -/
def signerOk (key signer : Nat) : Bool :=
  if key = Obj.secOwnerRelease then signer == 2 else if key = Obj.secMinSvn then signer == 1 || signer == 2 else signer == 1
def signerKey (s : State) (signer : Nat) : Nat × Nat :=
  if signer = 2 then Config.lumquerixKey else keyOfBytes (leBytes 133 (s.reg Obj.secOwnerKey))
/-- The four checks, in order. -/
def blockOk (s : State) (b : List Byte) : Bool :=
  let n := 0x20 + pad8 (blockVlen b)
  blockFld b 8 16 == s.reg Obj.idSerial && blockFld b 0x18 8 == s.reg Obj.secNonce && signerOk (blockKey b) (blockFld b 3 1) &&
    sigValid (signerKey s (blockFld b 3 1)) (b.take n) (b.drop n)
/-- A block refused with AUTH. -/
def authFail (s : State) : Ans :=
  let s1 := s.bump Obj.secAuthFails 1
  Ans.refuse stAuth (if s.reg Obj.secAuthFails = 0 then raise s1 0x1A05 .note uMgt else s1)
/-- A signed command block (R435). -/
def signedWrite (b : List Byte) (s : State) : Ans :=
  if b.length < 0x20 ∨ b.length ≠ 0x20 + pad8 (blockVlen b) + 132 then Ans.refuse stMalformed s
  else match objThere s (blockKey b) with
    | none => Ans.refuse stNoObject s
    | some d =>
      if blockVlen b ≠ d.size then Ans.refuse stLength s
      else if !blockOk s b then authFail s
      else
        let s := s.setReg Obj.secNonce (s.reg Obj.secNonce + 1)
        if readOnly d then Ans.refuse stAccess s
        else checkedWrite d (blockKey b) (blockFld b 0x20 d.size) s
/-- A SIGNED_WRITE as a request. -/
def signedRequest (s : State) (q : Req) (b : List Byte) : State := request s q 0x03 (blockKey b) (signedWrite b)
/-- A SIGNED_WRITE that names an object; a block for another is another command's. -/
def signedFor (s : State) (q : Req) (key : Nat) (b : List Byte) : State := if blockKey b = key then signedRequest s q b else s

/-- REGISTER_WRITE (R424, R435): a write of any object, plain or signed. -/
def execRegisterWrite (q : Req) (w : RegWrite) (s : State) : Host.Outcome State Fault Refusal :=
  match w with
  | .plain index sub bytes =>
    let key := ob index.toNat sub.toNat
    .next (dictWrite s q key (plainWrite q.path key bytes))
  | .signed b => .next (signedRequest s q b)
/-- SEC_OWNER_KEY_WRITE (R434): enrolment by a plain write, or a change by a signed one. -/
def execSecOwnerKeyWrite (q : Req) (w : RegWrite) (s : State) : Host.Outcome State Fault Refusal :=
  match w with
  | .plain _ _ bytes => .next (dictWrite s q Obj.secOwnerKey (plainWrite q.path Obj.secOwnerKey bytes))
  | .signed b => .next (signedFor s q Obj.secOwnerKey b)
/-- SEC_OWNER_RELEASE (R434). -/
def execSecOwnerRelease (q : Req) (b : List Byte) (s : State) : Host.Outcome State Fault Refusal := .next (signedFor s q Obj.secOwnerRelease b)
/-- SEC_MIN_SVN_WRITE (R447). -/
def execSecMinSvnWrite (q : Req) (b : List Byte) (s : State) : Host.Outcome State Fault Refusal := .next (signedFor s q Obj.secMinSvn b)
/-- DBG_ENTER (R445). -/
def execDbgEnter (q : Req) (b : List Byte) (s : State) : Host.Outcome State Fault Refusal := .next (signedFor s q Obj.dbgEnter b)
/-- CFG_WRITE (R439). -/
def execCfgWrite (q : Req) (b : List Byte) (s : State) : Host.Outcome State Fault Refusal := .next (signedFor s q Obj.cfgWrite b)
/-- FW_COMMIT_FLASH (R446): a block whose value is 2 is the other command's. -/
def execFwCommitFlash (q : Req) (b : List Byte) (s : State) : Host.Outcome State Fault Refusal :=
  if blockFld b 0x20 1 = 2 then .next s else .next (signedFor s q Obj.fwCommit b)
/-- FW_COMMIT_RESTART (R446). -/
def execFwCommitRestart (q : Req) (b : List Byte) (s : State) : Host.Outcome State Fault Refusal :=
  if blockFld b 0x20 1 = 2 then .next (signedFor s q Obj.fwCommit b) else .next s

end Sys2Proof.Machine
end

