-- ==== Sys2Proof/Machine/Boot.lean ====
section
/-! DEFINITION. The boot and its stages (R433, R440), configuration records (R436–R439), factory power state tables (R414), recovery
(R441), and the end of a warm restart (R446). -/

namespace Sys2Proof.Machine

/-! ### Configuration records (R436, R437) -/

/-- An entry of a record: its object, VLEN and value. -/
structure CfgEntry where
  key : Nat
  vlen : Nat
  value : Nat
  /-- Its reserved fields and its padding are zero. -/
  clean : Bool
  deriving DecidableEq, Repr
/-- The entries of a record; none where they do not fill it exactly. -/
def cfgEntries : Nat → List Byte → Option (List CfgEntry)
  | 0, [] => some []
  | 0, _ :: _ => none
  | n + 1, bs =>
    let vlen := leNat ((bs.drop 4).take 2)
    let size := 8 + pad8 vlen
    if bs.length < size then none
    else
      let e : CfgEntry := { key := blockKey bs, vlen := vlen, value := leNat ((bs.drop 8).take vlen),
                            clean := blockFld bs 3 1 == 0 && blockFld bs 6 2 == 0 && ((bs.drop (8 + vlen)).take (pad8 vlen - vlen)).all (· == 0) }
      (cfgEntries n (bs.drop size)).map (e :: ·)
def cfgSeq (b : List Byte) : Nat := blockFld b 0x18 4
def cfgList (b : List Byte) : Option (List CfgEntry) := cfgEntries (blockFld b 0x1C 2) ((b.drop 0x40).take (b.length - 0x40 - 132))
/-- Whether a record of a kind may set an object. -/
def cfgMaySet (kind key : Nat) (d : ObjDesc) : Bool :=
  ((d.acc == .rw || d.acc == .rws) && key != Obj.secOwnerKey && key != Obj.secMinSvn) ||
    (kind == 1 && (key == Obj.idFieldMac || key == Obj.cfgUnitMap))
/-- An entry that a record may carry: the object, its size and its value. -/
def cfgEntryOk (kind : Nat) (e : CfgEntry) : Bool :=
  match objDesc e.key with
  | none => false
  | some d => e.clean && cfgMaySet kind e.key d && e.vlen == d.size && (valueBad d e.key e.value).isNone
/-- The checks of a record of a kind: 1 factory, 2 owner. -/
def recordPasses (s : State) (kind : Nat) (b : List Byte) : Bool :=
  let n := b.length
  decide (0x40 + 132 ≤ n) && decide (n ≤ 65536) && blockFld b 0 4 == 0x58444346 && blockFld b 4 2 == 1 && blockFld b 6 1 == kind &&
    blockFld b 7 1 == 0 && blockFld b 8 16 == s.reg Obj.idSerial && decide (blockFld b 0x1C 2 ≤ 4096) && blockFld b 0x1E 2 == 0 &&
    blockFld b 0x20 4 == n && blockFld b 0x24 28 == 0 &&
    sigValid (if kind = 1 then Config.lumquerixKey else signerKey s 1) (b.take (n - 132)) (b.drop (n - 132)) &&
    match cfgList b with
    | none => false
    | some es => es.all (cfgEntryOk kind)
/-- The record of two slots with the higher SEQ that passes every check. -/
def bestRecord (s : State) (kind : Nat) (slots : List (List Byte)) : Option (List Byte) :=
  (slots.filter (recordPasses s kind)).foldl (fun best b => match best with
    | none => some b
    | some a => if cfgSeq a < cfgSeq b then some b else some a) none
/-- An entry applied; one refused leaves its object and is reported. -/
def applyEntry (kind : Nat) (s : State) (e : CfgEntry) : State :=
  if kind = 1 ∧ (e.key = Obj.idFieldMac ∨ e.key = Obj.cfgUnitMap) then s.setReg e.key e.value
  else match objThere s e.key with
    | none => raise s 0x1A07 .note uMgt e.key
    | some d =>
      let a := checkedWrite d e.key e.value s
      if a.status = stOk then a.st else raise a.st 0x1A07 .note uMgt e.key
/-- A record applied and measured. -/
def applyRecord (s : State) (kind : Nat) (b : List Byte) : State :=
  let s := ((cfgList b).getD []).foldl (applyEntry kind) s
  let s := s.setReg (if kind = 1 then Obj.cfgFactorySeq else Obj.cfgOwnerSeq) (cfgSeq b)
  measureCfg s b
/-- The owner record applied, ignored, or not there. -/
def applyOwner (s : State) : State :=
  match bestRecord s 2 s.flash.owner with
  | some b => (applyRecord s 2 b).setReg Obj.cfgOwnerOk 1
  | none =>
    if s.flash.owner.all (·.isEmpty) then (s.setReg Obj.cfgOwnerSeq 0).setReg Obj.cfgOwnerOk 0
    else raise ((s.setReg Obj.cfgOwnerSeq 0).setReg Obj.cfgOwnerOk 2) 0x1A03 .note uMgt
/-- Both records applied; none where no factory record passes. -/
def applyRecords (s : State) : Option State :=
  (bestRecord s 1 s.flash.factory).map fun b =>
    let s := applyOwner (applyRecord s 1 b)
    forAll allClusters (fun cl s => refreshFenced s cl) s

/-- A list with its element `i` set, lengthened with empty ones. -/
def setAt (i : Nat) (v : List Byte) : List (List Byte) → List (List Byte)
  | [] => List.replicate i [] ++ [v]
  | x :: xs => if i = 0 then v :: xs else x :: setAt (i - 1) v xs
/-- The slot a new record of a kind goes to: an empty or failing one, else the older. -/
def olderSlot (s : State) (kind : Nat) (slots : List (List Byte)) : Nat :=
  let a := slots.getD 0 []
  let b := slots.getD 1 []
  if !recordPasses s kind a then 0 else if !recordPasses s kind b then 1 else if cfgSeq a < cfgSeq b then 0 else 1
/-- A record written into its older slot. -/
def storeRecord (s : State) (kind : Nat) (b : List Byte) : State :=
  let f := s.flash
  if kind = 1 then (s.withFlash { f with factory := setAt (olderSlot s 1 f.factory) b f.factory })
  else (s.withFlash { f with owner := setAt (olderSlot s 2 f.owner) b f.owner })
/-- CFG_RECORD_DONE (R439): the staged record is checked and written, or refused. -/
def execCfgRecordDone (s : State) : Host.Outcome State Fault Refusal :=
  match s.mgt.record with
  | none => .next s
  | some b =>
    let kind := blockFld b 6 1
    let inForce := s.reg (if kind = 1 then Obj.cfgFactorySeq else Obj.cfgOwnerSeq)
    let s := modMgt s fun m => { m with record := none }
    if (kind = 1 ∨ kind = 2) ∧ recordPasses s kind b ∧ inForce < cfgSeq b then .next ((storeRecord s kind b).setReg Obj.cfgState 3)
    else .next (raise (s.setReg Obj.cfgState 4) 0x1A06 .note uMgt)

/-! ### Factory power state tables (R414) -/

/-- The handle of a die's factory table: kind 0x8, its scope, and no region. -/
def pstHandle (die : Nat) : Nat := 8 * 2 ^ 60 + 1 * 2 ^ 58 + die * 2 ^ 50
/-- The bytes of an image by offset, where not zero. -/
def snapOf (b : List Byte) : SMap Nat := (b.zipIdx.filter fun p => p.1 != 0).map fun p => (p.2, p.1.toNat)
def pstPasses (die : Nat) (b : List Byte) : Bool :=
  imageSigned (snapReader (snapOf b)) 8 b.length && powerTableOk die (snapReader (snapOf b))
/-- A factory table made the active table of its die, and measured. -/
def pstLoad (s : State) (die : Nat) : State :=
  let b := s.flash.pst.getD die []
  let rd := snapReader (snapOf b)
  let digest := sha512 (imageBytes rd (sigOffset 8 rd + 132))
  let h := pstHandle die
  let t : TableRec := { handle := h, active := true, snap := snapOf b, digest := leNat digest }
  let s := measureTable (s.withTables (s.tables.filter (fun x => !sameSlot x.handle h) ++ [t])) h digest
  forAll (dvfsOfDie die) (fun id s => s.setReg (ofUnit Obj.pwrDomVoltReq id) ((vreq t 2000).getD 0)) s

/-! ### Recovery (R441) -/

/-- A port of network B brought up by the boot ROM. -/
def romPort (s : State) (p : Nat) : State :=
  if s.domPresent (domEth p) && s.domState (domEth p) != dsOn then domArrive s (domEth p) dsOn else s
/-- Recovery entered for a reason: 1 firmware signature, 2 factory record, 3 SVN. -/
def enterRecovery (s : State) (reason : Nat) : State :=
  let s := modMgt (s.setReg Obj.bootStage 8) fun m => { m with reason := reason, recovery := [], recPst := 0 }
  let s := raise s 0x1A04 .note uMgt
  forAll [4, 5, 6, 7] (fun p s => romPort s p) (s.setReg Obj.fldState 1)
/-- What a RECOVER_REQ says: serial, ROM version, reason. -/
def recoverValue (s : State) : List Byte := leBytes 16 (s.reg Obj.idSerial) ++ leBytes 4 (s.reg Obj.idRomVersion) ++ leBytes 1 s.mgt.reason
/-- RECOVER_REQ_TIMER (R441): every second, on the network B ports that are UP, until a recovery image runs. -/
def execRecoverReqTimer (s : State) : Host.Outcome State Fault Refusal :=
  if !s.running || s.reg Obj.bootStage ≠ 8 || s.reg Obj.bootRecovery = 1 then .next s
  else .next (forAll (s.activePorts 1) (fun p s => s.emit (.recoverReq p (recoverValue s))) s)
def recoveryBytes : Nat := 2 ^ 25
def dRec : Nat → Byte := fun _ => 0
/-- The bytes of a block in the buffer, from their place. -/
def putBlock (m : SMap Byte) (at_ : Nat) (bs : List Byte) : SMap Byte := smSetMany dRec m (bs.zipIdx.map fun p => (at_ + p.2, p.1))
/-- RECOVERY_BLOCK_RX (R441). -/
def execRecoveryBlockRx (block : BitVec 32) (bytes : List Byte) (s : State) : Host.Outcome State Fault Refusal :=
  let at_ := 1024 * block.toNat
  if !s.running || s.reg Obj.bootStage ≠ 8 then .next s
  else if 1024 < bytes.length then .next (s.emit (.recoverAnswer block.toNat 0x87 stMalformed))
  else if recoveryBytes < at_ + bytes.length then .next (s.emit (.recoverAnswer block.toNat 0x87 stRange))
  else
    let s := modMgt s fun m => { m with recovery := putBlock m.recovery at_ bytes }
    .next (s.emit (.recoverAnswer block.toNat 0x87 stOk))
/-- The image that the buffer holds. -/
def recoveryImage (s : State) (len : Nat) : List Byte := (List.range len).map fun i => smGet dRec s.mgt.recovery i
/-- A recovery image that runs. -/
def runRecovery (s : State) : State := modMgt (s.setReg Obj.bootRecovery 1) fun m => { m with recovery := [] }
/-- What a running recovery image does with an image: a factory record or power state table is written, firmware is written and the
device resets; none where the image fails its checks. -/
def recoveryTake (s : State) (b : List Byte) : Option (State × Bool) :=
  let s1 := modMgt s fun m => { m with recovery := [] }
  if firmwareOk b false ∧ s.reg Obj.secMinSvn ≤ firmwareSvn b then some ((s1.withFlash { s1.flash with firmware := b }), true)
  else if recordPasses s 1 b then some (storeRecord s1 1 b, false)
  else if s.mgt.recPst < 6 ∧ pstPasses s.mgt.recPst b then
    some (modMgt (s1.withFlash { s1.flash with pst := setAt s.mgt.recPst b s1.flash.pst }) fun m => { m with recPst := m.recPst + 1 }, false)
  else none
/-- RECOVER_GO_RX (R441). -/
def execRecoverGoRx (tag len : BitVec 32) (s : State) : Host.Outcome State Fault Refusal :=
  let answer (st : Nat) (s : State) : State := s.emit (.recoverAnswer tag.toNat 0x88 st)
  if !s.running || s.reg Obj.bootStage ≠ 8 then .next s
  else if recoveryBytes < len.toNat then .next (answer stAuth s)
  else
    let b := recoveryImage s len.toNat
    if s.reg Obj.bootRecovery = 0 then
      (if firmwareOk b true then .next (answer stOk (runRecovery s)) else .next (answer stAuth s))
    else match recoveryTake s b with
      | none => .next (answer stAuth s)
      | some (s, reset) => if reset then .next (beginBoot (deviceReset (answer stOk s) 5)) else .next (answer stOk s)

/-! ### The stages (R433, R440) -/

/-- The boot stands at a stage. -/
def atStage (s : State) (n : Nat) : Bool := s.running && s.reg Obj.bootStage == n
/-- BOOT_IDENTITY (R433, R440): `key` is the public key that the boot ROM derives. -/
def execBootIdentity (key : BitVec 1064) (s : State) : Host.Outcome State Fault Refusal :=
  if !atStage s 1 then .next s
  else
    let k := leBytes 133 key.toNat
    let s := modMgt ((s.setReg Obj.bootStage 2).bump Obj.bootCount 1) fun m => { m with identity := k }
    if k = s.flash.deviceKey then .next (s.setReg Obj.secIdState 1)
    else .next (raise (s.setReg Obj.secIdState 2) 0x9A01 .fatal uMgt)
/-- Firmware that runs: its version and SVN shown, and measured. -/
def runFirmware (s : State) (b : List Byte) : State :=
  measureFw ((s.setReg Obj.idFwVersion (firmwareVersion b)).setReg Obj.idFwSvn (firmwareSvn b)) b
/-- BOOT_FIRMWARE (R440, R441). -/
def execBootFirmware (s : State) : Host.Outcome State Fault Refusal :=
  let b := s.flash.firmware
  if !atStage s 2 then .next s
  else if !firmwareOk b false then .next (enterRecovery s 1)
  else if firmwareSvn b < s.reg Obj.secMinSvn then .next (enterRecovery s 3)
  else .next (runFirmware (s.setReg Obj.bootStage 3) b)
/-- The identity word that a partner's area begins with (R385). -/
def identityWord (s : State) : List Byte :=
  leBytes 4 0x58445049 ++ leBytes 1 (s.reg Obj.resFeed) ++ leBytes 1 (s.reg Obj.resSlot) ++ leBytes 2 (s.reg Obj.rillCoord) ++ List.replicate 56 0
def writeIdentity (s : State) : State :=
  let a := s.reg Obj.ckptPinBase
  if inTier 3 a 64 then (s.withMem (clearPoison (memWriteBytes s.mem a (identityWord s)) a 64)) else s
/-- BOOT_CONFIG (R385, R414, R437, R440). -/
def execBootConfig (s : State) : Host.Outcome State Fault Refusal :=
  if !atStage s 3 then .next s
  else match applyRecords s with
    | none => .next (enterRecovery s 2)
    | some s1 =>
      if !(List.range 6).all fun d => pstPasses d (s.flash.pst.getD d []) then .next (enterRecovery s 2)
      else
        let s := forAll (List.range 6) (fun d s => pstLoad s d) (s1.setReg Obj.bootStage 4)
        .next (writeIdentity (s.setReg Obj.fldState 1))
/-- Requests ON for the domains of the boot that stand OFF and whose parent is ON (R404, R440). -/
def requestDomains (s : State) : State :=
  forAll (bootWants s) (fun id s => if bootReady s id then (domRequest s id dsOn).2 else s) s
/-- BOOT_POWER (R440). -/
def execBootPower (s : State) : Host.Outcome State Fault Refusal :=
  if !atStage s 4 then .next s else .next (requestDomains (s.setReg Obj.bootStage 5))
/-- BOOT_POWER_RETRY (R440): every 10 ms while the supply is throttled. -/
def execBootPowerRetry (s : State) : Host.Outcome State Fault Refusal := if !atStage s 5 then .next s else .next (requestDomains s)
/-- BOOT_MEMORY (R440): every domain of the boot is ON; T0, T1 and T2 are written to zero. -/
def execBootMemory (s : State) : Host.Outcome State Fault Refusal :=
  if !atStage s 5 || !(bootWants s).all s.domOn then .next s
  else .next ((s.setReg Obj.bootStage 6).withMem { s.mem with cells := s.mem.cells.filter (fun c => decide (0x040000000000 ≤ c.1)),
                                                                 poison := s.mem.poison.filter fun w => decide (0x040000000000 ≤ 8 * w.1) })
/-- BOOT_READY (R440): `ms` is the time from r+0. -/
def execBootReady (ms : BitVec 32) (s : State) : Host.Outcome State Fault Refusal :=
  if !atStage s 6 then .next s else .next (raise ((s.setReg Obj.bootStage 7).setReg Obj.bootReadyMs ms.toNat) 0x1A01 .note uMgt)

/-! ### The end of a warm restart (R446) -/

/-- Events held while the management controller could not log, in order. -/
def logHeld (s : State) : State := forAll s.log.held (fun e s => logRecord s e) (s.withLog { s.log with held := [], holding := false })
/-- WARM_RESTART_DONE (R446). -/
def execWarmRestartDone (s : State) : Host.Outcome State Fault Refusal :=
  if !s.mgt.restarting then .next s
  else
    let s := logHeld (modMgt s fun m => { m with restarting := false })
    let s := runFirmware s s.flash.firmware
    let s := (applyRecords s).getD s
    .next (fenceWaiting (raise ((s.setReg Obj.fwState 0).bump Obj.bootWarm 1) 0x1A02 .note uMgt))

end Sys2Proof.Machine
end

