-- ==== Sys2Proof/Machine/Cadence.lean ====
section
/-! DEFINITION. The cadence counter: beats (R45), large corrections (R46), holdover (R47), the PTP client (R351, R359,
R360), `pps_in` (R361) and `frame_in` (R49, R260). A time stamp is the counter with the nanoseconds of the beat in
progress, which the command gives. -/

namespace Sys2Proof.Machine

/-! ### Beats (R45, R46) -/

/-- The stamp of something `ns` nanoseconds into the beat. -/
def stampOf (s : State) (ns : Nat) : Nat := s.counter + ns
/-- What a new beat does: the counter, the Weirs' budgets, the count of capped beats, stalled beats, paused priorities. -/
def newBeat (s : State) : State :=
  let stop := s.held .checkpoint
  let s := s.mapCores (stallBeat stop)
  let s := (s.withCounter ((s.counter / 1000 + 1) * 1000 % 2 ^ 64))
  let s := if s.reg Obj.pwrCapCeil < 2000 then s.bump Obj.pwrCapBeats 1 else s
  serveHeld (endPauses (weirBeat s))
/-- BEAT_START (R45): none while the device is in reset or asleep, or the counter stands for a backward correction. -/
def execBeatStart (s : State) : Host.Outcome State Fault Refusal :=
  if !s.running || s.power.sleeping || s.net.ptp.halted || s.reg Obj.bootStage = 0 then .next s else .next (newBeat s)

/-- A large correction has been made: steps may start again (R46). -/
def corrected (s : State) : State :=
  raise (modPtp (s.dropHold .offset) fun p => { p with correction := none, halted := false }) 0x4B02 .note uDevice
/-- CADENCE_SET (R46): every group stands at a step boundary; a forward correction is applied, a backward one stops the
counter. -/
def execCadenceSet (s : State) : Host.Outcome State Fault Refusal :=
  match s.net.ptp.correction with
  | none => .next s
  | some d =>
    if !s.allAtBoundary || s.net.ptp.halted then .next s
    else if 0 ≤ d then .next (corrected (s.withCounter ((s.counter + d.toNat) % 2 ^ 64)))
    else .next (modPtp s fun p => { p with halted := true })
/-- CADENCE_COUNTER_RESUME (R46): PTP time has reached a stopped counter. -/
def execCadenceCounterResume (s : State) : Host.Outcome State Fault Refusal :=
  if s.net.ptp.halted then .next (corrected s) else .next s

/-! ### The PTP client (R351, R359, R360) -/

/-- PTP_ANNOUNCE_RX (R359): what the grandmaster is ranked by, in order of comparison. -/
def execPtpAnnounceRx (port : Fin 8) (domain : BitVec 8) (server : BitVec 64) (rank : List (BitVec 64)) (steps : BitVec 16) (s : State) :
    Host.Outcome State Fault Refusal :=
  let s := rxFrame s port
  if !ptpListens s port || s.reg Obj.ptpDomain ≠ domain.toNat then .next s
  else
    let ports := insertNum port ((ptpMaster s server.toNat).map (·.ports) |>.getD [])
    let m : PtpMaster := { rank := rank.map (·.toNat), steps := steps.toNat, id := server.toNat, ports := ports }
    .next (ptpChoose (modPtp s fun p => { p with masters := p.masters.filter (·.id != m.id) ++ [m] }))

/-- An I32 object. -/
def i32 (x : Int) : Nat := (max (-(2 ^ 31)) (min (2 ^ 31 - 1) x) % 2 ^ 32).toNat
/-- Lock is found or kept (R47, R360). -/
def ptpLock (s : State) : State :=
  if s.net.ptp.good < 16 || s.reg Obj.cadSyncState = 1 then s else (s.setReg Obj.cadSyncState 1).dropHold .holdover
/-- The report of an offset above 40 ns while locked, once until it is back within 20 ns. -/
def ptpOffsetEvent (s : State) (o : Int) : State :=
  if s.reg Obj.cadSyncState = 1 ∧ 40 < o.natAbs ∧ !s.net.ptp.high then raise (modPtp s fun p => { p with high := true }) 0x7C03 .note uDevice
  else if o.natAbs ≤ 20 then modPtp s fun p => { p with high := false } else s
/-- An offset measured: the counter less PTP time. Up to 100 µs the counter is slewed, which changes the length of beats
and no count; beyond, no step starts until it is set (R46). -/
def ptpOffset (s : State) (o : Int) : State :=
  let s := s.setReg Obj.cadOffset (i32 o)
  let s := modPtp s fun p => { p with good := if o.natAbs ≤ 1000 then p.good + 1 else 0 }
  let s := ptpOffsetEvent (ptpLock s) o
  if o.natAbs ≤ 100000 || s.net.ptp.halted then s else modPtp (s.addHold .offset) fun p => { p with correction := some (-o) }
/-- A Sync's origin and receive time, both known. -/
def ptpMeasure (s : State) (t1 t2 : Int) : State :=
  ptpOffset (modPtp s fun p => { p with last := some (t1, t2), waiting := none }) (t2 - t1 - s.net.ptp.delay)
def fromServer (s : State) (port domain server : Nat) : Bool :=
  ptpListens s port && s.reg Obj.ptpDomain == domain && (ptpChosen s).isSome && s.reg Obj.ptpServer == server
/-- PTP_SYNC_RX (R359): a Sync of the chosen server; those of the port in use are measured. -/
def execPtpSyncRx (port : Fin 8) (domain : BitVec 8) (server : BitVec 64) (seq : BitVec 16) (twoStep : Bool) (origin : BitVec 64)
    (ns : Fin 1000) (s : State) : Host.Outcome State Fault Refusal :=
  let s := rxFrame s port
  if !fromServer s port domain.toNat server.toNat then .next s
  else
    let s := modPtp s fun p => { p with lastSync := some s.beat }
    if s.reg Obj.ptpPort ≠ port then .next s
    else if twoStep then .next (modPtp s fun p => { p with waiting := some (seq.toNat, (stampOf s ns : Int)) })
    else .next (ptpMeasure s origin.toNat (stampOf s ns))
/-- PTP_FOLLOW_UP_RX (R351): the origin time of the Sync before. -/
def execPtpFollowUpRx (port : Fin 8) (domain : BitVec 8) (server : BitVec 64) (seq : BitVec 16) (origin : BitVec 64) (s : State) :
    Host.Outcome State Fault Refusal :=
  let s := rxFrame s port
  match s.net.ptp.waiting with
  | none => .next s
  | some (n, t2) =>
    if !fromServer s port domain.toNat server.toNat || s.reg Obj.ptpPort ≠ port || n ≠ seq.toNat then .next s
    else .next (ptpMeasure s origin.toNat t2)
/-- PTP_DELAY_REQ_SEND (R351). -/
def execPtpDelayReqSend (ns : Fin 1000) (s : State) : Host.Outcome State Fault Refusal :=
  if (ptpChosen s).isNone then .next s
  else
    let seq := s.net.ptp.reqSeq
    let s := modPtp s fun p => { p with delayReq := some (seq, (stampOf s ns : Int)), reqSeq := (seq + 1) % 65536 }
    .next (txFrame s (s.reg Obj.ptpPort) (.delayReq (s.reg Obj.ptpPort) seq))
/-- PTP_DELAY_RESP_RX (R351): half the round trip of the last Sync and the request. -/
def execPtpDelayRespRx (port : Fin 8) (domain : BitVec 8) (server : BitVec 64) (seq : BitVec 16) (received : BitVec 64) (s : State) :
    Host.Outcome State Fault Refusal :=
  let s := rxFrame s port
  match s.net.ptp.delayReq, s.net.ptp.last with
  | some (n, t3), some (t1, t2) =>
    if !fromServer s port domain.toNat server.toNat || s.reg Obj.ptpPort ≠ port || n ≠ seq.toNat then .next s
    else .next (modPtp s fun p => { p with delayReq := none, delay := ((t2 - t1) + ((received.toNat : Int) - t3)) / 2 })
  | _, _ => .next s

/-- PTP_LOCK_LOST (R47, R360): no valid Sync for 3 s, or no server. -/
def execPtpLockLost (s : State) : Host.Outcome State Fault Refusal :=
  let old := match s.net.ptp.lastSync with
    | some b => decide (b + 3000000 ≤ s.beat)
    | none => true
  if s.reg Obj.cadSyncState ≠ 1 || !(old || (ptpChosen s).isNone) then .next s
  else .next (raise (modPtp (s.setReg Obj.cadSyncState 2) fun p => { p with good := 0, lostAt := s.beat }) 0x4B01 .note uDevice)
/-- HOLDOVER_EXPIRED (R47). -/
def execHoldoverExpired (s : State) : Host.Outcome State Fault Refusal :=
  if s.reg Obj.cadSyncState ≠ 2 || s.beat ≤ s.net.ptp.lostAt + s.reg Obj.cadHoldoverLimit then .next s
  else .next (raise ((s.setReg Obj.cadSyncState 3).addHold .holdover) 0x4B03 .degrade uDevice)

/-! ### `pps_in` and `frame_in` (R49, R260, R361) -/

/-- The distance of a stamp from the nearest whole second. -/
def ppsError (t : Nat) : Nat := min (t % 1000000000) (1000000000 - t % 1000000000)
/-- PPS_IN_EDGE (R361). -/
def execPpsInEdge (ns : Fin 1000) (s : State) : Host.Outcome State Fault Refusal :=
  if s.running && s.reg Obj.ptpPpsMode = 1 && decide (1000 < ppsError (stampOf s ns)) then .next (raise s 0x7C02 .note uDevice) else .next s

/-- Clusters that encode observations at the frame strobe. -/
def pacedClusters (s : State) : List Nat :=
  (s.inRole 2).filter fun cl => s.reg (Obj.schedClPacing cl) = 1 && s.rollField cl 0x58 8 ≠ 0
/-- An encoding segment starts on a cluster: its origin is the next beat, its entries are part 0. -/
def startEncoding (cl frame : Nat) (s : State) : State :=
  match s.table 6 cl 2 with
  | none => s
  | some t =>
    let f := fencedKey (s.reg (Obj.schedClFenced cl))
    let s := forAll (coresOf cl) (fun n s =>
      let es := (t.layout.obs.filter fun a => a.key.fenced == f && a.core % 16 == n % 16).flatMap fun a => listEntries a (s.beat + 1) 0
      s.modCore n fun c => { c with todo := c.todo ++ es, tokens := c.tokens.filter (·.2 != 0) }) s
    encodingDone (s.modCluster cl fun c => { c with encoding := some frame }) cl
/-- A frame starts its encoding on every paced cluster; one that finds the encoding of the last frame running is dropped, once. -/
def takeFrame (s : State) (frame : Nat) : State :=
  match (pacedClusters s).find? fun cl => (s.cluster cl).encoding.isSome with
  | some cl => raise (s.bump Obj.cadFrameReject 1) 0x4B07 .note (uCluster cl)
  | none => forAll (pacedClusters s) (fun cl s => startEncoding cl frame s) s
/-- FRAME_IN_EDGE (R49). -/
def execFrameInEdge (ns : Fin 1000) (s : State) : Host.Outcome State Fault Refusal :=
  if !s.running || s.reg Obj.bootStage = 0 then .next s
  else if s.reg Obj.cadFrameCount ≠ 0 ∧ s.beat < s.reg Obj.cadFrameLast / 1000 + 4166 then
    .next (raise (s.bump Obj.cadFrameReject 1) 0x4B05 .note uDevice)
  else
    let s := (s.setReg Obj.cadFrameLast (stampOf s ns)).bump Obj.cadFrameCount 1
    let s := modPtp s fun p => { p with frameLate := false }
    .next (takeFrame s (s.reg Obj.cadFrameCount))
/-- FRAME_TIMEOUT (R49): once, until the next accepted edge. -/
def execFrameTimeout (s : State) : Host.Outcome State Fault Refusal :=
  if s.reg Obj.cadFrameCount = 0 || s.net.ptp.frameLate || s.beat ≤ s.reg Obj.cadFrameLast / 1000 + 100000 then .next s
  else .next (raise (modPtp s fun p => { p with frameLate := true }) 0x4B06 .note uDevice)

end Sys2Proof.Machine
end

