-- ==== Sys2Proof/Machine/Dispatch.lean ====
section
/-! DEFINITION. The meaning of each command: one arm per constructor, each one call of its definition. -/

namespace Sys2Proof.Machine

def exec (i : Instr) (s : State) : Host.Outcome State Fault Refusal :=
  match i with
  | .beatStart => Sys2Proof.Machine.execBeatStart s
  | .cadenceSet => Sys2Proof.Machine.execCadenceSet s
  | .ptpSyncRx port domain server seq twoStep origin ns => Sys2Proof.Machine.execPtpSyncRx port domain server seq twoStep origin ns s
  | .ptpAnnounceRx port domain server rank steps => Sys2Proof.Machine.execPtpAnnounceRx port domain server rank steps s
  | .ptpDelayRespRx port domain server seq received => Sys2Proof.Machine.execPtpDelayRespRx port domain server seq received s
  | .ptpLockLost => Sys2Proof.Machine.execPtpLockLost s
  | .holdoverExpired => Sys2Proof.Machine.execHoldoverExpired s
  | .ppsInEdge ns => Sys2Proof.Machine.execPpsInEdge ns s
  | .frameInEdge ns => Sys2Proof.Machine.execFrameInEdge ns s
  | .frameTimeout => Sys2Proof.Machine.execFrameTimeout s
  | .tblActivateWrite q h => Sys2Proof.Machine.execTblActivateWrite q h s
  | .tableActivationApply h g => Sys2Proof.Machine.execTableActivationApply h g s
  | .roleReqWrite q cl v => Sys2Proof.Machine.execRoleReqWrite q cl v s
  | .roleChangeApply cl => Sys2Proof.Machine.execRoleChangeApply cl s
  | .trainingPlanBuild => Sys2Proof.Machine.execTrainingPlanBuild s
  | .microbatchBoundary cl => Sys2Proof.Machine.execMicrobatchBoundary cl s
  | .layerBoundary cl => Sys2Proof.Machine.execLayerBoundary cl s
  | .fProduct core err peers sideWait => Sys2Proof.Machine.execFProduct core err peers sideWait s
  | .outlierSideProduct core err => Sys2Proof.Machine.execOutlierSideProduct core err s
  | .bxProduct core err sideWait => Sys2Proof.Machine.execBxProduct core err sideWait s
  | .bwProduct core err => Sys2Proof.Machine.execBwProduct core err s
  | .bxBwPair core err sideWait => Sys2Proof.Machine.execBxBwPair core err sideWait s
  | .vectorFn core err => Sys2Proof.Machine.execVectorFn core err s
  | .vectorAdd core err => Sys2Proof.Machine.execVectorAdd core err s
  | .vectorMul core err => Sys2Proof.Machine.execVectorMul core err s
  | .vectorRowmax core err => Sys2Proof.Machine.execVectorRowmax core err s
  | .vectorRowsum core err => Sys2Proof.Machine.execVectorRowsum core err s
  | .vectorRecip core err => Sys2Proof.Machine.execVectorRecip core err s
  | .vectorRsqrt core err => Sys2Proof.Machine.execVectorRsqrt core err s
  | .vectorSubrow core err => Sys2Proof.Machine.execVectorSubrow core err s
  | .vectorMulrow core err => Sys2Proof.Machine.execVectorMulrow core err s
  | .spillConvScaledToG core err => Sys2Proof.Machine.execSpillConvScaledToG core err s
  | .spillQuantise core err peers => Sys2Proof.Machine.execSpillQuantise core err peers s
  | .spillConvWide core err => Sys2Proof.Machine.execSpillConvWide core err s
  | .gradTileSpill core err => Sys2Proof.Machine.execGradTileSpill core err s
  | .gradTileReload core err => Sys2Proof.Machine.execGradTileReload core err s
  | .streamArm core => Sys2Proof.Machine.execStreamArm core s
  | .streamRearm core => Sys2Proof.Machine.execStreamRearm core s
  | .streamDisarm core => Sys2Proof.Machine.execStreamDisarm core s
  | .barrierArrive src => Sys2Proof.Machine.execBarrierArrive src s
  | .barrierComplete b => Sys2Proof.Machine.execBarrierComplete b s
  | .barrierGraceExpired b => Sys2Proof.Machine.execBarrierGraceExpired b s
  | .healthBarrierComplete => Sys2Proof.Machine.execHealthBarrierComplete s
  | .commitBarrierComplete => Sys2Proof.Machine.execCommitBarrierComplete s
  | .stepCommit => Sys2Proof.Machine.execStepCommit s
  | .stepDiscard => Sys2Proof.Machine.execStepDiscard s
  | .entryComplete core k => Sys2Proof.Machine.execEntryComplete core k s
  | .segmentClose core base => Sys2Proof.Machine.execSegmentClose core base s
  | .updateOptimiser core err => Sys2Proof.Machine.execUpdateOptimiser core err s
  | .updateNarrowCopy core err peers => Sys2Proof.Machine.execUpdateNarrowCopy core err peers s
  | .updateSideWeight core err => Sys2Proof.Machine.execUpdateSideWeight core err s
  | .routerSelect core err => Sys2Proof.Machine.execRouterSelect core err s
  | .routerCombine core err => Sys2Proof.Machine.execRouterCombine core err s
  | .routerScatter core err => Sys2Proof.Machine.execRouterScatter core err s
  | .routerReturn core err => Sys2Proof.Machine.execRouterReturn core err s
  | .lutProduct core err peers => Sys2Proof.Machine.execLutProduct core err peers s
  | .samplingSample core err => Sys2Proof.Machine.execSamplingSample core err s
  | .samplingScore core err => Sys2Proof.Machine.execSamplingScore core err s
  | .reductionSend core err => Sys2Proof.Machine.execReductionSend core err s
  | .reductionReceive core err => Sys2Proof.Machine.execReductionReceive core err s
  | .rolloutStepBoundary => Sys2Proof.Machine.execRolloutStepBoundary s
  | .rolloutStepOrigin => Sys2Proof.Machine.execRolloutStepOrigin s
  | .rolloutStepDiscard => Sys2Proof.Machine.execRolloutStepDiscard s
  | .rollCancelWrite q v => Sys2Proof.Machine.execRollCancelWrite q v s
  | .epochReadyWrite q v => Sys2Proof.Machine.execEpochReadyWrite q v s
  | .epochPublishCopyDone copy => Sys2Proof.Machine.execEpochPublishCopyDone copy s
  | .streamStart core ctx => Sys2Proof.Machine.execStreamStart core ctx s
  | .streamRequestIssue core ctx ue => Sys2Proof.Machine.execStreamRequestIssue core ctx ue s
  | .memoryReadComplete core ctx st => Sys2Proof.Machine.execMemoryReadComplete core ctx st s
  | .storeWriteAck core ctx => Sys2Proof.Machine.execStoreWriteAck core ctx s
  | .translationWalkComplete core ctx bad => Sys2Proof.Machine.execTranslationWalkComplete core ctx bad s
  | .strmResumeWrite q v => Sys2Proof.Machine.execStrmResumeWrite q v s
  | .fqTailWrite q v => Sys2Proof.Machine.execFqTailWrite q v s
  | .sluiceDropRem src => Sys2Proof.Machine.execSluiceDropRem src s
  | .sluiceFlush src => Sys2Proof.Machine.execSluiceFlush src s
  | .sluiceFlushApply core sl => Sys2Proof.Machine.execSluiceFlushApply core sl s
  | .sluiceReset src => Sys2Proof.Machine.execSluiceReset src s
  | .sluNarrowDataWrite q v => Sys2Proof.Machine.execSluNarrowDataWrite q v s
  | .sluNarrowCloseWrite q v => Sys2Proof.Machine.execSluNarrowCloseWrite q v s
  | .deadlockPreempt core => Sys2Proof.Machine.execDeadlockPreempt core s
  | .memRetireWrite q v => Sys2Proof.Machine.execMemRetireWrite q v s
  | .retireRebuildStart => Sys2Proof.Machine.execRetireRebuildStart s
  | .retireRebuildDone bad => Sys2Proof.Machine.execRetireRebuildDone bad s
  | .scrubWord addr st odecc => Sys2Proof.Machine.execScrubWord addr st odecc s
  | .cxlExpanderLost port => Sys2Proof.Machine.execCxlExpanderLost port s
  | .xlatInvalWrite q v => Sys2Proof.Machine.execXlatInvalWrite q v s
  | .xlatInvalDone => Sys2Proof.Machine.execXlatInvalDone s
  | .pageMoveGo q v => Sys2Proof.Machine.execPageMoveGo q v s
  | .pageMoveDone bad => Sys2Proof.Machine.execPageMoveDone bad s
  | .siphonItemPlace cl ue => Sys2Proof.Machine.execSiphonItemPlace cl ue s
  | .siphonPrefetchStart cl => Sys2Proof.Machine.execSiphonPrefetchStart cl s
  | .rillFlitRx port r => Sys2Proof.Machine.execRillFlitRx port r s
  | .rillSlot port slot => Sys2Proof.Machine.execRillSlot port slot s
  | .rillTrainingDone port good nbr => Sys2Proof.Machine.execRillTrainingDone port good nbr s
  | .rillTrainingTimeout port => Sys2Proof.Machine.execRillTrainingTimeout port s
  | .rillLaneLockLoss port lane => Sys2Proof.Machine.execRillLaneLockLoss port lane s
  | .rillLaneErrorLimit port lane errors => Sys2Proof.Machine.execRillLaneErrorLimit port lane errors s
  | .rillRemapDone port good => Sys2Proof.Machine.execRillRemapDone port good s
  | .rillRetrainWrite q port v => Sys2Proof.Machine.execRillRetrainWrite q port v s
  | .rillAltSelWrite q v => Sys2Proof.Machine.execRillAltSelWrite q v s
  | .routeBarrierComplete => Sys2Proof.Machine.execRouteBarrierComplete s
  | .ethPortEnable q p => Sys2Proof.Machine.execEthPortEnable q p s
  | .ethPortDisable q p => Sys2Proof.Machine.execEthPortDisable q p s
  | .ethLinkUp p sync => Sys2Proof.Machine.execEthLinkUp p sync s
  | .ethLinkDown p => Sys2Proof.Machine.execEthLinkDown p s
  | .ethTrainingTimeout p => Sys2Proof.Machine.execEthTrainingTimeout p s
  | .ethDownRetry p => Sys2Proof.Machine.execEthDownRetry p s
  | .roceWriteRx h first last bytes => Sys2Proof.Machine.execRoceWriteRx h first last bytes s
  | .roceReadRx h a ue => Sys2Proof.Machine.execRoceReadRx h a ue s
  | .roceResponseRx k a => Sys2Proof.Machine.execRoceResponseRx k a s
  | .roceAckTimeout k => Sys2Proof.Machine.execRoceAckTimeout k s
  | .roceCnpRx k => Sys2Proof.Machine.execRoceCnpRx k s
  | .arpRequestRx p ip => Sys2Proof.Machine.execArpRequestRx p ip s
  | .neighbourSolicitRx p ip => Sys2Proof.Machine.execNeighbourSolicitRx p ip s
  | .icmpEchoRx p v6 ip fragment payload => Sys2Proof.Machine.execIcmpEchoRx p v6 ip fragment payload s
  | .lacpPduRx p sync => Sys2Proof.Machine.execLacpPduRx p sync s
  | .roceQpWrite q v => Sys2Proof.Machine.execRoceQpWrite q v s
  | .roceRgnWrite q v => Sys2Proof.Machine.execRoceRgnWrite q v s
  | .mbxPortWrite h key e j off bytes => Sys2Proof.Machine.execMbxPortWrite h key e j off bytes s
  | .mbxConsWrite h key e j v => Sys2Proof.Machine.execMbxConsWrite h key e j v s
  | .mbxDbClearWrite h key e v => Sys2Proof.Machine.execMbxDbClearWrite h key e v s
  | .mbxDbMaskWrite m v => Sys2Proof.Machine.execMbxDbMaskWrite m v s
  | .sequencerMailboxTake cl => Sys2Proof.Machine.execSequencerMailboxTake cl s
  | .mcMailboxService => Sys2Proof.Machine.execMcMailboxService s
  | .mcMailboxSend dest secure msg => Sys2Proof.Machine.execMcMailboxSend dest secure msg s
  | .resFenceReqWrite q v => Sys2Proof.Machine.execResFenceReqWrite q v s
  | .coreHangTimeout core => Sys2Proof.Machine.execCoreHangTimeout core s
  | .resCoreTestWrite q v => Sys2Proof.Machine.execResCoreTestWrite q v s
  | .coreTestDone pass => Sys2Proof.Machine.execCoreTestDone pass s
  | .resUnfenceWrite q v => Sys2Proof.Machine.execResUnfenceWrite q v s
  | .coreUnfenceApply cl => Sys2Proof.Machine.execCoreUnfenceApply cl s
  | .fatalFault die => Sys2Proof.Machine.execFatalFault die s
  | .ckptIntervalExpired => Sys2Proof.Machine.execCkptIntervalExpired s
  | .ckptRequestWrite q v => Sys2Proof.Machine.execCkptRequestWrite q v s
  | .resFailNoticeWrite q v => Sys2Proof.Machine.execResFailNoticeWrite q v s
  | .resMtbfResetWrite q v => Sys2Proof.Machine.execResMtbfResetWrite q v s
  | .ckptStopBegin => Sys2Proof.Machine.execCkptStopBegin s
  | .ckptStopEnd sig => Sys2Proof.Machine.execCkptStopEnd sig s
  | .ckptDrainTargetDone t => Sys2Proof.Machine.execCkptDrainTargetDone t s
  | .ckptDrainTimeout t => Sys2Proof.Machine.execCkptDrainTimeout t s
  | .ckptRestoreT1 q => Sys2Proof.Machine.execCkptRestoreT1 q s
  | .ckptRestoreT3 q => Sys2Proof.Machine.execCkptRestoreT3 q s
  | .ckptRestoreDone => Sys2Proof.Machine.execCkptRestoreDone s
  | .ckptServeWrite q v => Sys2Proof.Machine.execCkptServeWrite q v s
  | .ckptServeDone => Sys2Proof.Machine.execCkptServeDone s
  | .supplyOutOfRange mv => Sys2Proof.Machine.execSupplyOutOfRange mv s
  | .supplyBelow46 mv => Sys2Proof.Machine.execSupplyBelow46 mv s
  | .supplyAbove47 mv => Sys2Proof.Machine.execSupplyAbove47 mv s
  | .supplyHoldComplete => Sys2Proof.Machine.execSupplyHoldComplete s
  | .supplyReleaseStep => Sys2Proof.Machine.execSupplyReleaseStep s
  | .brownOut mv => Sys2Proof.Machine.execBrownOut mv s
  | .overVoltage mv => Sys2Proof.Machine.execOverVoltage mv s
  | .domainReqWrite q v => Sys2Proof.Machine.execDomainReqWrite q v s
  | .domainTransitionDone id => Sys2Proof.Machine.execDomainTransitionDone id s
  | .domainTransitionAbort id => Sys2Proof.Machine.execDomainTransitionAbort id s
  | .freqReqWrite q f => Sys2Proof.Machine.execFreqReqWrite q f s
  | .voltReqWrite q v => Sys2Proof.Machine.execVoltReqWrite q v s
  | .dvfsVoltageReached id => Sys2Proof.Machine.execDvfsVoltageReached id s
  | .sleepWrite q v => Sys2Proof.Machine.execSleepWrite q v s
  | .powerSample w mv => Sys2Proof.Machine.execPowerSample w mv s
  | .thermalSample ts => Sys2Proof.Machine.execThermalSample ts s
  | .sspAddressMatch addr => Sys2Proof.Machine.execSspAddressMatch addr s
  | .sspWakeComplete => Sys2Proof.Machine.execSspWakeComplete s
  | .j1Mate feed slot => Sys2Proof.Machine.execJ1Mate feed slot s
  | .j1Break => Sys2Proof.Machine.execJ1Break s
  | .pwrEnRise rested => Sys2Proof.Machine.execPwrEnRise rested s
  | .softStartBegin => Sys2Proof.Machine.execSoftStartBegin s
  | .railsInRegulation => Sys2Proof.Machine.execRailsInRegulation s
  | .pwrEnFall => Sys2Proof.Machine.execPwrEnFall s
  | .rstNAssert => Sys2Proof.Machine.execRstNAssert s
  | .rstNDeassert feed slot => Sys2Proof.Machine.execRstNDeassert feed slot s
  | .bootIdentity key => Sys2Proof.Machine.execBootIdentity key s
  | .bootFirmware => Sys2Proof.Machine.execBootFirmware s
  | .bootConfig => Sys2Proof.Machine.execBootConfig s
  | .bootPower => Sys2Proof.Machine.execBootPower s
  | .bootPowerRetry => Sys2Proof.Machine.execBootPowerRetry s
  | .bootMemory => Sys2Proof.Machine.execBootMemory s
  | .bootReady ms => Sys2Proof.Machine.execBootReady ms s
  | .recoverReqTimer => Sys2Proof.Machine.execRecoverReqTimer s
  | .recoveryBlockRx block bytes => Sys2Proof.Machine.execRecoveryBlockRx block bytes s
  | .recoverGoRx tag len => Sys2Proof.Machine.execRecoverGoRx tag len s
  | .registerWrite q w => Sys2Proof.Machine.execRegisterWrite q w s
  | .rngSeedWrite q v => Sys2Proof.Machine.execRngSeedWrite q v s
  | .dataPosWrite q v => Sys2Proof.Machine.execDataPosWrite q v s
  | .stepSkipWrite q v => Sys2Proof.Machine.execStepSkipWrite q v s
  | .retryLimitWrite q v => Sys2Proof.Machine.execRetryLimitWrite q v s
  | .dbgAccRead q => Sys2Proof.Machine.execDbgAccRead q s
  | .dbgSpillRead q => Sys2Proof.Machine.execDbgSpillRead q s
  | .logRead q => Sys2Proof.Machine.execLogRead q s
  | .alertAckWrite q v => Sys2Proof.Machine.execAlertAckWrite q v s
  | .secOwnerKeyWrite q w => Sys2Proof.Machine.execSecOwnerKeyWrite q w s
  | .secOwnerRelease q b => Sys2Proof.Machine.execSecOwnerRelease q b s
  | .secMinSvnWrite q b => Sys2Proof.Machine.execSecMinSvnWrite q b s
  | .attestNonceWrite q nonce => Sys2Proof.Machine.execAttestNonceWrite q nonce s
  | .attestReportReady sig => Sys2Proof.Machine.execAttestReportReady sig s
  | .dbgEnter q b => Sys2Proof.Machine.execDbgEnter q b s
  | .dbgExit q v => Sys2Proof.Machine.execDbgExit q v s
  | .cfgWrite q b => Sys2Proof.Machine.execCfgWrite q b s
  | .cfgRecordDone => Sys2Proof.Machine.execCfgRecordDone s
  | .fwVerify q v => Sys2Proof.Machine.execFwVerify q v s
  | .fwVerifyDone => Sys2Proof.Machine.execFwVerifyDone s
  | .fwCommitFlash q b => Sys2Proof.Machine.execFwCommitFlash q b s
  | .fwCommitRestart q b => Sys2Proof.Machine.execFwCommitRestart q b s
  | .fwFlashDone => Sys2Proof.Machine.execFwFlashDone s
  | .warmRestartStart => Sys2Proof.Machine.execWarmRestartStart s
  | .warmRestartDone => Sys2Proof.Machine.execWarmRestartDone s
  | .strapCheck feed slot => Sys2Proof.Machine.execStrapCheck feed slot s
  | .coolantSample inlet outlet flow leak => Sys2Proof.Machine.execCoolantSample inlet outlet flow leak s
  | .ptpFollowUpRx port domain server seq origin => Sys2Proof.Machine.execPtpFollowUpRx port domain server seq origin s
  | .ptpDelayReqSend ns => Sys2Proof.Machine.execPtpDelayReqSend ns s
  | .pfcFrameRx p enable quanta => Sys2Proof.Machine.execPfcFrameRx p enable quanta s
  | .cadenceCounterResume => Sys2Proof.Machine.execCadenceCounterResume s
  | .supplyBackInRange mv => Sys2Proof.Machine.execSupplyBackInRange mv s
  | .supplyFallTo47v mv => Sys2Proof.Machine.execSupplyFallTo47v mv s
  | .internalResetEnd => Sys2Proof.Machine.execInternalResetEnd s
  | .siphonOffloadDone cl ue => Sys2Proof.Machine.execSiphonOffloadDone cl ue s
  | .siphonPrefetchDone cl ue => Sys2Proof.Machine.execSiphonPrefetchDone cl ue s
  | .inputBelow40v => Sys2Proof.Machine.execInputBelow40v s

end Sys2Proof.Machine
end

