-- ==== Sys2Proof/Safety.lean ====
section
/-! DEFINITION. What a safe run keeps: the form of the state (`State.wf`), and what one command can change at most (`Comp`, `Same`). -/

namespace Sys2Proof.Machine

/-! ### The form of the state -/

/-- Every object's stored value fits its size (R423). -/
def State.regsFit (s : State) : Bool := s.regs.all fun p => decide (p.2 < 256 ^ objSize (objPart p.1))

/-- The records of the ring are numbered without a gap, newest first, from one below the next number (R431). -/
def seqFrom : Nat → List Event → Bool
  | _, [] => true
  | n, e :: es => decide (e.seq + 1 = n) && seqFrom (n - 1) es

/-- The event log holds at most 65,536 records in order of their numbers, and at most 1,024 events wait (R431, R446). -/
def LogState.wf (l : LogState) : Bool :=
  decide (l.ring.length ≤ 65536) && decide (l.held.length ≤ 1024) && seqFrom l.next l.ring

/-- The form of the state: every map in its one canonical form, memory too, every object's value within its size, the log in order
and within its capacity, and at most 256 stored responses (R430). -/
def State.wf (s : State) : Bool :=
  smWf regDefault s.regs && s.regsFit && smWf dCore s.cores && smWf dCluster s.clusters && smWf dLayer s.layers && Memory.wf s.mem &&
    s.log.wf && decide (s.mgt.stored.length ≤ 256)

/-! ### What a command changes -/

/-- The parts of the state: its fields, with the objects by pages of 256 indices, and physical memory apart from what else `mem`
holds. -/
inductive Comp where
  | pending | outbox | fresh | counter | tables | arrivals | cores | clusters | train | roll | layers | cells | poison | memory
  | weir | log | mgt | power | pins | rill | net | ckpt | ledger | flash | holds | stopped | dead
  | obj (page : Fin 256)
  deriving DecidableEq, Repr

/-- The page of an object: the high byte of its index. -/
def page (key : Nat) : Nat := key / 65536 % 256

/-- A part of the state reads the same in both states: of memory every byte, of a page every object. -/
def Same : Comp → State → State → Prop
  | .pending, s, t => t.pending = s.pending
  | .outbox, s, t => t.outbox = s.outbox
  | .fresh, s, t => t.fresh = s.fresh
  | .counter, s, t => t.counter = s.counter
  | .tables, s, t => t.tables = s.tables
  | .arrivals, s, t => t.arrivals = s.arrivals
  | .cores, s, t => t.cores = s.cores
  | .clusters, s, t => t.clusters = s.clusters
  | .train, s, t => t.train = s.train
  | .roll, s, t => t.roll = s.roll
  | .layers, s, t => t.layers = s.layers
  | .cells, s, t => ∀ a, memByte t.mem a = memByte s.mem a
  | .poison, s, t => t.mem.poison = s.mem.poison
  | .memory, s, t => { t.mem with cells := [], poison := [] } = { s.mem with cells := [], poison := [] }
  | .weir, s, t => t.weir = s.weir
  | .log, s, t => t.log = s.log
  | .mgt, s, t => t.mgt = s.mgt
  | .power, s, t => t.power = s.power
  | .pins, s, t => t.pins = s.pins
  | .rill, s, t => t.rill = s.rill
  | .net, s, t => t.net = s.net
  | .ckpt, s, t => t.ckpt = s.ckpt
  | .ledger, s, t => t.ledger = s.ledger
  | .flash, s, t => t.flash = s.flash
  | .holds, s, t => t.holds = s.holds
  | .stopped, s, t => t.stopped = s.stopped
  | .dead, s, t => t.dead = s.dead
  | .obj p, s, t => ∀ k, page k = p.val → t.reg k = s.reg k

/-! ### What each command can change -/

/-- Every part of the state. -/
def allComps : List Comp :=
  [.pending, .outbox, .fresh, .counter, .tables, .arrivals, .cores, .clusters, .train, .roll, .layers, .cells, .poison, .memory, .weir,
   .log, .mgt, .power, .pins, .rill, .net, .ckpt, .ledger, .flash, .holds, .stopped, .dead] ++
    (List.range 256).map fun p => .obj (Fin.ofNat 256 p)
/-- All parts of the state but those listed. -/
def allBut (l : List Comp) : List Comp := allComps.filter fun k => !l.contains k
/-- Pages of objects. -/
def objs (ps : List (Fin 256)) : List Comp := ps.map .obj
/-- What reporting an event changes at most: the log and its message, the health and abort flags of its group, the pins. -/
def raises : List Comp := [.outbox, .clusters, .train, .roll, .log, .pins, .obj 0x23]
/-- What answering a request changes at most: the response, the stored responses and the path's counters. -/
def asks : List Comp := [.outbox, .mgt, .obj 0x14]
/-- Physical memory with its tiers. -/
def tiers : List Comp := [.cells, .poison, .memory]
/-- What an entry of a core changes at most whatever its class: its core and cluster with their SRAM, memory, and what the
faults on the way count. -/
def issues : List Comp := raises ++ tiers ++ [.tables, .cores, .mgt, .power, .ledger] ++ objs [0x21, 0x37, 0x41, 0x42, 0x43, 0x44, 0x52, 0x61, 0x80]
/-- The parts of the state that a command can change, whatever the state; it changes no other part, and none the queue. -/
def footprint : Instr → List Comp
  | .beatStart => asks ++ [.counter, .cores, .weir, .net] ++ objs [0x20, 0x51, 0x72, 0xF2]
  | .cadenceSet => raises ++ [.counter, .net, .holds]
  | .ptpSyncRx .. | .ptpFollowUpRx .. => raises ++ [.net, .holds] ++ objs [0x40, 0x72]
  | .ptpAnnounceRx .. => raises ++ [.net] ++ objs [0x72, 0x73]
  | .ptpDelayRespRx .. | .ethTrainingTimeout .. | .ethDownRetry .. | .roceCnpRx .. => [.net] ++ objs [0x72]
  | .ptpLockLost => raises ++ [.net] ++ objs [0x40]
  | .holdoverExpired => raises ++ [.holds] ++ objs [0x40]
  | .ppsInEdge .. | .barrierGraceExpired .. | .strapCheck .. | .coolantSample .. => raises
  | .frameInEdge .. => raises ++ [.cores, .net] ++ objs [0x40]
  | .frameTimeout => raises ++ [.net]
  | .tblActivateWrite .. => raises ++ [.tables, .mgt] ++ objs [0x14, 0x42]
  | .tableActivationApply .. =>
    raises ++ tiers ++ [.tables, .cores, .layers, .power, .rill] ++ objs [0x21, 0x30, 0x41, 0x42, 0x44, 0x61, 0x70, 0x71]
  | .roleReqWrite .. => asks ++ [.clusters] ++ objs [0x41]
  | .roleChangeApply .. => raises ++ tiers ++ [.tables, .cores, .ledger] ++ objs [0x41, 0x42, 0x43, 0x44, 0x52, 0x61]
  | .trainingPlanBuild => raises ++ [.tables, .cores, .rill, .ledger] ++ objs [0x34, 0x37, 0x38, 0x39, 0x3A, 0x3D, 0x3E, 0x41, 0x63]
  | .microbatchBoundary .. => [.clusters]
  | .layerBoundary .. => [.cores, .clusters]
  | .fProduct .. => issues ++ objs [0x30, 0x34, 0x39, 0x3A, 0x3D]
  | .outlierSideProduct .. => issues ++ objs [0x39, 0x3A]
  | .bxProduct .. | .bwProduct .. | .bxBwPair .. => issues ++ objs [0x30, 0x34, 0x38, 0x39, 0x3A, 0x3D]
  | .vectorFn .. | .vectorAdd .. | .vectorMul .. | .vectorRowmax .. | .vectorRowsum .. | .vectorRecip .. | .vectorRsqrt ..
  | .vectorSubrow .. | .vectorMulrow .. | .routerCombine .. => issues ++ objs [0x30, 0x34, 0x39]
  | .spillConvScaledToG .. | .spillQuantise .. | .updateOptimiser .. | .updateNarrowCopy .. | .updateSideWeight .. =>
    issues ++ objs [0x30, 0x34]
  | .spillConvWide .. => issues ++ objs [0x30, 0x34, 0x38]
  | .gradTileSpill .. => issues ++ objs [0x38, 0x39]
  | .gradTileReload .. => issues ++ objs [0x38, 0x39, 0x3A]
  | .streamArm .. => raises ++ [.tables, .cores]
  | .streamRearm .. => raises ++ [.tables, .cores] ++ objs [0x52]
  | .streamDisarm .. => raises ++ tiers ++ [.tables, .cores] ++ objs [0x52, 0x61]
  | .barrierArrive .. => raises ++ [.tables, .arrivals, .cores] ++ objs [0x41]
  | .barrierComplete .. => [.arrivals, .cores, .clusters, .memory] ++ objs [0x41]
  | .healthBarrierComplete => raises ++ [.tables, .arrivals, .cores, .layers, .memory, .ledger] ++ objs [0x41]
  | .commitBarrierComplete => raises ++ [.arrivals, .cores, .memory, .ckpt, .ledger] ++ objs [0x3C, 0x41]
  | .stepCommit =>
    raises ++ tiers ++ [.arrivals, .cores, .layers, .net, .ckpt, .ledger, .holds] ++ objs [0x3C, 0x41, 0x44, 0x52, 0x61, 0x72, 0xA0,
      0xA2, 0xA3]
  | .stepDiscard =>
    raises ++ tiers ++ [.arrivals, .cores, .layers, .rill, .net, .ckpt, .ledger] ++ objs [0x3C, 0x52, 0x61, 0x72, 0xA0, 0xA2, 0xA3]
  | .entryComplete .. => raises ++ [.cores] ++ objs [0x37, 0x38, 0x3E, 0x41]
  | .segmentClose .. => [.cores] ++ objs [0x39, 0x3A]
  | .routerSelect .. => issues ++ objs [0x39, 0x3E]
  | .routerScatter .. | .routerReturn .. => issues ++ objs [0x30, 0x34, 0x38, 0x39]
  | .lutProduct .. => issues ++ objs [0x30, 0x34, 0x39, 0x3A]
  | .samplingSample .. | .samplingScore .. => issues ++ [.fresh] ++ objs [0x39]
  | .reductionSend .. => issues ++ [.rill] ++ objs [0x39, 0x70]
  | .reductionReceive .. => issues ++ [.rill] ++ objs [0x39]
  | .rolloutStepBoundary =>
    raises ++ tiers ++ [.tables, .arrivals, .cores, .layers, .power, .rill, .ledger, .holds] ++ objs [0x21, 0x30, 0x41, 0x42, 0x43,
      0x44, 0x52, 0x61, 0x70, 0x71]
  | .rolloutStepOrigin =>
    raises ++ [.tables, .cores, .cells] ++ objs [0x30, 0x34, 0x37, 0x38, 0x39, 0x3A, 0x3D, 0x3E, 0x41, 0x43, 0x44, 0x63]
  | .rolloutStepDiscard => raises ++ tiers ++ [.arrivals, .cores, .ledger] ++ objs [0x44, 0x52, 0x61]
  | .rollCancelWrite .. => raises ++ [.cores, .mgt] ++ objs [0x14, 0x52]
  | .epochReadyWrite .. => raises ++ [.mgt] ++ objs [0x14, 0x44]
  | .epochPublishCopyDone .. => raises ++ [.cells] ++ objs [0x41, 0x44]
  | .streamStart .. | .streamRequestIssue .. =>
    raises ++ tiers ++ [.tables, .cores, .weir, .ledger] ++ objs [0x3D, 0x52, 0x60, 0x61, 0x63]
  | .memoryReadComplete .. => raises ++ tiers ++ [.fresh, .cores, .ledger] ++ objs [0x3D, 0x52, 0x60, 0x61]
  | .storeWriteAck .. => raises ++ tiers ++ [.cores, .ledger] ++ objs [0x61]
  | .translationWalkComplete .. => raises ++ tiers ++ [.fresh, .cores, .weir] ++ objs [0x52, 0x60, 0x61]
  | .strmResumeWrite .. => raises ++ tiers ++ [.fresh, .cores, .weir, .mgt] ++ objs [0x14, 0x50, 0x52, 0x60, 0x61]
  | .fqTailWrite .. => asks ++ tiers ++ objs [0x61]
  | .sluiceDropRem .. => raises ++ tiers ++ [.cores, .mgt, .ledger] ++ objs [0x14, 0x50, 0x52, 0x61]
  | .sluiceFlush .. => raises ++ tiers ++ [.cores, .mgt] ++ objs [0x14, 0x50, 0x52, 0x61]
  | .sluiceFlushApply .. => raises ++ tiers ++ [.cores] ++ objs [0x52, 0x61]
  | .sluiceReset .. => raises ++ tiers ++ [.cores, .mgt] ++ objs [0x14, 0x50, 0x61]
  | .sluNarrowDataWrite .. | .sluNarrowCloseWrite .. => raises ++ [.cores, .mgt] ++ objs [0x14]
  | .deadlockPreempt .. => raises ++ tiers ++ [.cores] ++ objs [0x52]
  | .memRetireWrite .. => raises ++ [.memory, .mgt] ++ objs [0x14, 0x60]
  | .retireRebuildStart => tiers ++ [.cores, .clusters, .holds] ++ objs [0x52, 0x60]
  | .retireRebuildDone .. => raises ++ tiers ++ [.cores, .holds] ++ objs [0x60]
  | .scrubWord .. => raises ++ [.memory, .weir] ++ objs [0x60]
  | .cxlExpanderLost .. => raises ++ [.memory]
  | .xlatInvalWrite .. => asks ++ [.memory] ++ objs [0x61]
  | .xlatInvalDone => [.cores, .memory] ++ objs [0x61]
  | .pageMoveGo .. => asks ++ [.memory] ++ objs [0x62]
  | .pageMoveDone .. => tiers ++ [.fresh] ++ objs [0x60, 0x62]
  | .siphonItemPlace .. => raises ++ [.tables, .cells, .poison] ++ objs [0x30, 0x60, 0x63]
  | .siphonPrefetchStart .. => raises ++ [.tables]
  | .rillFlitRx .. => raises ++ [.cores, .cells, .weir, .rill, .ledger] ++ objs [0x70, 0x71]
  | .rillSlot .. => raises ++ [.weir, .rill] ++ objs [0x70, 0x71]
  | .rillTrainingDone .. | .rillRemapDone .. => raises ++ [.rill] ++ objs [0x70, 0x71]
  | .rillTrainingTimeout .. => raises ++ [.rill] ++ objs [0x71]
  | .rillLaneLockLoss .. | .rillLaneErrorLimit .. => objs [0x71]
  | .rillRetrainWrite .. => asks ++ [.rill] ++ objs [0x71]
  | .rillAltSelWrite .. => raises ++ [.mgt, .rill] ++ objs [0x14, 0x70]
  | .routeBarrierComplete => raises ++ [.arrivals, .cores, .memory, .rill] ++ objs [0x41, 0x70, 0x71]
  | .ethPortEnable .. | .ethPortDisable .. => raises ++ [.mgt, .net, .ckpt] ++ objs [0x14, 0x72, 0x73, 0x74, 0x81]
  | .ethLinkUp .. => raises ++ [.net] ++ objs [0x72, 0x74]
  | .ethLinkDown .. | .lacpPduRx .. => raises ++ [.net, .ckpt] ++ objs [0x72, 0x73, 0x74, 0x81]
  | .roceWriteRx .. => raises ++ tiers ++ [.net, .ckpt] ++ objs [0x72, 0x74, 0x81, 0xA0, 0xA2, 0xA3]
  | .roceReadRx .. => raises ++ [.cells, .memory, .net, .ckpt] ++ objs [0x60, 0x72, 0x74, 0x81]
  | .roceResponseRx .. | .roceAckTimeout .. => raises ++ [.net, .ckpt] ++ objs [0x72, 0x74, 0x81]
  | .arpRequestRx .. | .neighbourSolicitRx .. | .icmpEchoRx .. => [.outbox] ++ objs [0x72]
  | .roceQpWrite .. => raises ++ [.mgt, .net, .ckpt] ++ objs [0x14, 0x74, 0x81]
  | .roceRgnWrite .. => asks ++ objs [0x74]
  | .mbxPortWrite .. | .mbxConsWrite .. | .mbxDbClearWrite .. => raises ++ [.net, .ckpt] ++ objs [0x72, 0x74, 0x81, 0xA0, 0xA2, 0xA3]
  | .mbxDbMaskWrite .. => raises ++ [.mgt, .net, .ckpt] ++ objs [0x14, 0x72, 0x74, 0x81, 0xA0, 0xA2, 0xA3]
  | .sequencerMailboxTake .. => raises ++ [.net] ++ objs [0xA0, 0xA2, 0xA3]
  | .mcMailboxService => [.net] ++ objs [0xA2, 0xA3]
  | .mcMailboxSend .. => raises ++ [.net] ++ objs [0x72, 0xA0, 0xA2, 0xA3]
  | .resFenceReqWrite .. =>
    raises ++ tiers ++ [.tables, .cores, .mgt, .power, .ledger] ++ objs [0x14, 0x21, 0x41, 0x42, 0x43, 0x44, 0x52, 0x61, 0x80]
  | .coreHangTimeout .. =>
    raises ++ tiers ++ [.tables, .cores, .mgt, .power, .ledger] ++ objs [0x21, 0x41, 0x42, 0x43, 0x44, 0x52, 0x61, 0x80]
  | .resCoreTestWrite .. => asks ++ [.power, .ckpt] ++ objs [0x21, 0x71, 0x72, 0x80]
  | .coreTestDone .. => raises ++ tiers ++ [.cores, .power, .rill, .net, .ckpt] ++ objs [0x21, 0x71, 0x72, 0x73, 0x74, 0x80, 0x81]
  | .resUnfenceWrite .. => raises ++ [.mgt, .ckpt] ++ objs [0x14, 0x41, 0x80]
  | .coreUnfenceApply .. => raises ++ [.ckpt] ++ objs [0x41, 0x80]
  | .fatalFault .. => raises ++ [.rill, .net, .ckpt, .ledger, .stopped, .dead] ++ objs [0x70, 0x71, 0x72, 0x73, 0x74, 0x81]
  | .ckptIntervalExpired | .ckptServeDone => [.ckpt]
  | .ckptRequestWrite .. | .resFailNoticeWrite .. | .resMtbfResetWrite .. => asks ++ [.ckpt]
  | .ckptStopBegin => raises ++ tiers ++ [.cores, .weir, .rill, .ckpt, .ledger, .holds] ++ objs [0x52, 0x70, 0x81]
  | .ckptStopEnd .. => raises ++ [.cores, .cells, .weir, .rill, .net, .ckpt, .ledger, .holds] ++ objs [0x70, 0x72, 0x81]
  | .ckptDrainTargetDone .. => raises ++ [.cells, .poison] ++ objs [0x81]
  | .ckptDrainTimeout .. => raises ++ objs [0x81]
  | .ckptRestoreT1 .. | .ckptRestoreT3 .. => raises ++ [.mgt, .ckpt, .ledger] ++ objs [0x14, 0x81]
  | .ckptRestoreDone => raises ++ tiers ++ [.cores, .layers, .ckpt] ++ objs [0x31, 0x3C, 0x41, 0x44, 0x80, 0x81]
  | .ckptServeWrite .. => asks ++ [.net, .ckpt] ++ objs [0x72]
  | .supplyOutOfRange .. => raises ++ objs [0x20]
  | .supplyBelow46 .. | .supplyReleaseStep | .powerSample .. => raises ++ [.power] ++ objs [0x20, 0x21]
  | .supplyAbove47 .. | .supplyFallTo47v .. => [.power] ++ objs [0x20]
  | .supplyHoldComplete => [.power] ++ objs [0x20, 0x21]
  | .brownOut .. | .overVoltage .. | .j1Break | .pwrEnFall | .rstNAssert | .inputBelow40v => allBut [.pending, .outbox, .fresh]
  | .domainReqWrite .. | .freqReqWrite .. | .sleepWrite .. => raises ++ [.mgt, .power] ++ objs [0x14, 0x21]
  | .domainTransitionDone .. => raises ++ tiers ++ [.cores, .power, .rill, .net, .ckpt] ++ objs [0x21, 0x71, 0x72, 0x73, 0x74, 0x81]
  | .domainTransitionAbort .. | .bootPowerRetry => raises ++ [.power] ++ objs [0x21]
  | .voltReqWrite .. => raises ++ [.mgt] ++ objs [0x14, 0x21]
  | .dvfsVoltageReached .. => [.power] ++ objs [0x21]
  | .thermalSample .. | .recoverGoRx .. => allBut [.pending, .fresh]
  | .sspAddressMatch .. => [.outbox, .power]
  | .sspWakeComplete => raises ++ [.power] ++ objs [0x21, 0x22]
  | .j1Mate .. => [.pins] ++ objs [0x23, 0x80]
  | .pwrEnRise .. | .softStartBegin | .railsInRegulation => [.pins]
  | .rstNDeassert .. => raises ++ objs [0x11, 0x20, 0x73, 0x80]
  | .bootIdentity .. => raises ++ [.mgt] ++ objs [0x11, 0x90]
  | .bootFirmware =>
    raises ++ tiers ++ [.cores, .mgt, .power, .rill, .net, .ckpt] ++ objs [0x10, 0x11, 0x21, 0x71, 0x72, 0x73, 0x74, 0x81]
  | .bootConfig | .registerWrite .. | .secOwnerKeyWrite .. | .secOwnerRelease .. | .secMinSvnWrite .. | .dbgEnter ..
  | .cfgWrite .. | .fwCommitFlash .. | .fwCommitRestart .. | .warmRestartDone =>
    allBut [.pending, .counter, .arrivals, .layers, .flash, .holds, .stopped, .dead]
  | .bootPower => raises ++ [.power] ++ objs [0x11, 0x21]
  | .bootMemory => tiers ++ objs [0x11]
  | .bootReady .. => raises ++ objs [0x11]
  | .recoverReqTimer => [.outbox]
  | .recoveryBlockRx .. => [.outbox, .mgt]
  | .rngSeedWrite .. => asks ++ objs [0x31]
  | .dataPosWrite .. | .retryLimitWrite .. => asks ++ [.train] ++ objs [0x3C]
  | .stepSkipWrite .. => asks ++ [.train] ++ objs [0x3C, 0x41]
  | .dbgAccRead .. | .dbgSpillRead .. => asks ++ objs [0xF2]
  | .logRead .. => asks
  | .alertAckWrite .. => asks ++ [.log] ++ objs [0x23]
  | .attestNonceWrite .. => asks ++ objs [0x90]
  | .attestReportReady .. => [.mgt] ++ objs [0x90]
  | .dbgExit .. => raises ++ [.mgt] ++ objs [0x14, 0xF0]
  | .cfgRecordDone => raises ++ [.mgt, .flash] ++ objs [0x10]
  | .fwVerify .. => asks ++ objs [0x13]
  | .fwVerifyDone => raises ++ [.mgt] ++ objs [0x13]
  | .fwFlashDone => [.mgt, .flash] ++ objs [0x13]
  | .warmRestartStart => [.log, .mgt]
  | .ptpDelayReqSend .. | .pfcFrameRx .. => [.outbox, .net] ++ objs [0x72]
  | .cadenceCounterResume => raises ++ [.net, .holds]
  | .supplyBackInRange .. => objs [0x20]
  | .internalResetEnd => raises ++ objs [0x11, 0x20, 0x73]
  | .siphonOffloadDone .. => raises ++ [.tables, .cells, .poison] ++ objs [0x60]
  | .siphonPrefetchDone .. => raises ++ [.tables, .memory] ++ objs [0x60, 0x63]

/-! ### What a command does -/

/-- The command answers a next state, of which `P` holds. -/
def Leads (c : Instr) (s : State) (P : State → Prop) : Prop := ∃ t, exec c s = .next t ∧ P t

/-- A request of operation `op` on an object reaches the object's handler (R430, R441): its path answers, it repeats no request of the
last 2 s, the queue has room, and recovery does not turn it away. -/
def State.takes (s : State) (q : Req) (op obj : Nat) : Bool :=
  s.serving q.path && (storedFor s q).isNone && decide (q.queued.val ≠ 256) && (recoveryGate s op obj).isNone
/-- A plain WRITE reaches the object's handler: in-band, `MGT.INBAND_WRITE` allows it (R427). -/
def State.takesWrite (s : State) (q : Req) (obj : Nat) : Bool :=
  s.takes q 2 obj && (q.path == .field || decide (s.reg Obj.mgtInbandWrite ≠ 0))
/-- The last message sent answers the request (R428, R429). -/
def Answers (t : State) (q : Req) (op obj status : Nat) (value : List Byte := []) : Prop :=
  t.outbox.getLast? = some (.response q.path q.addr.toNat q.port.toNat q.tag.toNat (op + 0x80) obj status value)
/-- The event is in the log of `t`, where the log of `s` takes records (R431, R446, R472). -/
def Reports (s t : State) (code : Nat) (sev : Sev) (unit : Nat) : Prop :=
  s.log.ready = true → s.log.holding = false → ∃ e ∈ t.log.ring, e.code = code ∧ e.sev = sev ∧ e.unit = unit ∧ e.beat = s.beat

/-- The entry of class `op` that the core starts now (R40, R50): at the head of its list, as it was measured, its conditions met. -/
def State.starts (s : State) (core op : Nat) (c : Cur) : Prop :=
  currentEntry s core op = some c ∧ c.fresh = true ∧ c.img.bad = false ∧ s.groupHalted core = false ∧
    firstDiffer s (ownReads op c) = none ∧ startsNow s core c = true
/-- What the entry reads of active tables beside its own words is as it was measured (R40). -/
def readsHold (k : EntryKind) (s : State) (core : Nat) (c : Cur) : Bool :=
  !anyBad (k.reads s core c) && (firstDiffer s (k.reads s core c)).isNone

/-- The parameter block's operation code is the command's, and the unit that serves the whole cluster is free (R205, R223). -/
def unitTakes (s : State) (core op mode : Nat) (c : Cur) : Bool := fld c.blk 0x00 1 == mode && !unitBusy s core op
/-- Every command that starts an entry of a core, with its class and whether it takes the entry `c` (R43): products, vector and function
operations, conversions, update, router, sampling, LUT and reduction entries. -/
def entryCommands (core : Fin 256) (err : EntryErr) (peers : List (Nat × Scout)) (wait : Nat) :
    List (Instr × EntryKind × (State → Cur → Bool)) :=
  let any : State → Cur → Bool := fun _ _ => true
  let vec (v : Nat) : State → Cur → Bool := fun _ c => vOp c.blk == v
  let cnv (v : Nat) : State → Cur → Bool := fun _ c => cConv c.blk == v
  let upd (v : Nat) : State → Cur → Bool := fun s c => unitTakes s core 0x0B v c && !tailGated s core
  let rtr (v : Nat) : State → Cur → Bool := fun s c => unitTakes s core 0x0D v c
  let smp (v : Nat) : State → Cur → Bool := fun s c => unitTakes s core 0x0F v c
  [(.fProduct core err peers wait, fKind peers wait, any), (.outlierSideProduct core err, sideKind, any),
   (.bxProduct core err wait, bxKind wait, any), (.bwProduct core err, bwKind, any), (.bxBwPair core err wait, pairKind wait, any),
   (.vectorFn core err, vKind vFn, vec 0x01), (.vectorAdd core err, vKind (vPoint XNum.add), vec 0x02),
   (.vectorMul core err, vKind (vPoint XNum.mul), vec 0x03), (.vectorRowmax core err, vKind vRowMax, vec 0x04),
   (.vectorRowsum core err, vKind vRowSum, vec 0x05), (.vectorRecip core err, vKind vRecip, vec 0x06),
   (.vectorRsqrt core err, vKind vRsqrt, vec 0x07), (.vectorSubrow core err, vKind (vPoint XNum.sub), vec 0x08),
   (.vectorMulrow core err, vKind (vPoint XNum.mul), vec 0x09),
   (.spillConvScaledToG core err, convKind conv1Form, cnv 0x01), (.spillQuantise core err peers, convKind (conv2Form peers), cnv 0x02),
   (.spillConvWide core err, convKind conv3Form, cnv 0x03), (.gradTileSpill core err, convKind spillForm, cnv 0x04),
   (.gradTileReload core err, convKind reloadForm, cnv 0x05),
   (.updateOptimiser core err, uKind optimiserForm, upd 0), (.updateNarrowCopy core err peers, uKind (narrowForm peers), upd 1),
   (.updateSideWeight core err, uKind sideWeightForm, upd 2),
   (.routerSelect core err, rKind selectForm, rtr 0), (.routerCombine core err, rKind combineForm, rtr 1),
   (.routerScatter core err, rKind scatterForm, rtr 2), (.routerReturn core err, rKind returnForm, rtr 3),
   (.samplingSample core err, sKind sampleForm, smp 0), (.samplingScore core err, sKind scoreForm, smp 1),
   (.lutProduct core err peers, lKind peers, any), (.reductionSend core err, sendKind, any), (.reductionReceive core err, recvKind, any)]

/-- An entry started: it leaves its core's list, it opens its cluster's tail where it is the first of it (R196), and the Sluices that its WAIT
names beside its operands have filled the weight store (R50, DEDUCED, log 17). -/
def entryOpen (k : EntryKind) (s : State) (core : Nat) (c : Cur) : State :=
  let s := openTail s core c.re.plan
  let named := (k.needs s core c).map (·.1)
  let feeds := (c.img.waitOf core c.re.entry.wait).1.filter fun q => !named.contains q
  loadAll core (k.store c.blk).1 feeds (k.store c.blk).2 (s.modCore core fun x => { x with todo := x.todo.drop 1, accHeld := false })
/-- The operand words it needs from each Sluice. -/
def entryNeeds (k : EntryKind) (s : State) (core : Nat) (c : Cur) : List (Nat × Nat) :=
  (k.needs (entryOpen k s core c) core c).filter fun p => decide (p.1 < 16)
/-- The operand words that its Sluices hold for it, and the state once they are taken (R146). -/
def entryWords (k : EntryKind) (s : State) (core : Nat) (c : Cur) : SMap (List Nat) × State :=
  gather core c.re.got (entryOpen k s core c) (entryNeeds k s core c)
/-- Every operand word is there. -/
def entryFull (k : EntryKind) (s : State) (core : Nat) (c : Cur) : Bool :=
  operandsHeld k (entryOpen k s core c) core c (entryNeeds k s core c) (entryWords k s core c).1
/-- The words taken from a Sluice. -/
def entryIn (k : EntryKind) (s : State) (core : Nat) (c : Cur) (sl : Nat) : List Nat := smGet (fun _ => []) (entryWords k s core c).1 sl
/-- What the entry's class makes of its operand words. -/
def entryResult (k : EntryKind) (s : State) (core : Nat) (c : Cur) : Formed :=
  k.form (entryWords k s core c).2 core
    { c with re := { c.re with got := (entryWords k s core c).1, regions := k.writes (entryOpen k s core c) core c } }
    (entryIn k s core c)
/-- It quantises no share of a scope whose other shares are still to be scouted (R101). -/
def entryAlone (k : EntryKind) (s : State) (core : Nat) (c : Cur) : Bool :=
  (entryResult k s core c).share.all fun q => !sharesOpen (entryWords k s core c).2 core c.img q.1 c.re.plan.mb
/-- Words of a Sluice without those of the records that are dropped when they commit (R278). -/
def kept (ws : List SWord) : List SWord := ws.filter fun w => !w.void
/-- The entry `c` stands among the started ones of `t` with its results formed, its clk and its output words: each Sluice holds what it
held in `u` and then the words for it, in their order, as far as they do not wait with the entry (R275). -/
def FormedIn (t u : State) (core : Nat) (c : Cur) (clk : Nat) (outs : List (Nat × SWord)) : Prop :=
  ∃ r ∈ (t.core core).running, r.plan = c.re.plan ∧ r.entry = c.re.entry ∧ r.formed = true ∧ r.clk = clk ∧
    ∀ sl, kept (((t.core core).sluice sl).packets.flatten ++ (r.outq.filter fun x => x.1 == sl).map (·.2)) =
      kept (((u.core core).sluice sl).packets.flatten ++ (outs.filter fun x => x.1 == sl).map (·.2))

/-- A core fault has been taken (R375): reported by 0x8A10 and 0x8A11, the core fenced, nothing of it left in progress, its domain OFF, and
its cluster's `SCHED.CL_FENCED` where it is the first. -/
def CoreTaken (s t : State) (core : Nat) : Prop :=
  Reports s t 0x8A10 .stepAbort (uCore core) ∧ Reports s t 0x8A11 .degrade (uCore core) ∧ bitOf (t.reg Obj.resFencedMap) core = true ∧
    t.domState (domCore core) = dsOff ∧ t.armedOn core = [] ∧ (∀ sl, ((t.core core).sluice sl).packets = []) ∧
    (s.fencedIn (clusterOf core) = [] → t.reg (Obj.schedClFenced (clusterOf core)) = core % 16)
/-- A core fault during a warm restart (R375, R448): reported by 0x8A10, nothing of the core left in progress, its domain OFF; its fence
waits for the end of the restart, so `RES.FENCED_MAP` is as before. -/
def CoreStopped (s t : State) (core : Nat) : Prop :=
  Reports s t 0x8A10 .stepAbort (uCore core) ∧ t.reg Obj.resFencedMap = s.reg Obj.resFencedMap ∧ t.mgt.faults = s.mgt.faults ++ [core] ∧
    t.domState (domCore core) = dsOff ∧ t.armedOn core = [] ∧ ∀ sl, ((t.core core).sluice sl).packets = []

/-- A reset for a cause of `PWR.RESET_CAUSE` (R401, R425, R460): the device stands in reset with its counter, log, tables, cores and
clusters as `State.reset` has them and every domain OFF; T0 and T1 have lost their contents; the persistent objects are kept. -/
def ResetFor (s t : State) (cause : Nat) : Prop :=
  t.pins.inReset = true ∧ t.pins.cause = cause ∧ t.pins.fatalLatch = false ∧ t.counter = 0 ∧ t.log = { ready := false } ∧ t.tables = [] ∧
    (∀ n, t.core n = {}) ∧ (∀ cl, t.cluster cl = {}) ∧ (∀ id, id ≠ domAlwaysOn → t.domState id = dsOff) ∧
    (∀ a, a < 0x020000000000 → memByte t.mem a = memDefault a) ∧
    ∀ k ∈ [Obj.resFencedMap, Obj.memRetiredC0, Obj.memRetiredC1, Obj.memRetiredC2, Obj.memRetiredC3, Obj.bootCount, Obj.secOwnerKey,
      Obj.secNonce, Obj.secMinSvn], t.reg k = s.reg k

end Sys2Proof.Machine
end

