-- ==== Sys2Proof/Certificates/Slice0/Obligations.lean ====
section
/-! DEFINITION. The statements for the provers. -/

open Sys2Proof Sys2Proof.Machine

/-- The commands of the cadence counter and of `frame_in` and `pps_in` (R45–R47, R49, R361): a beat, a large correction forward and
backward and its end, the loss of lock, the end of holdover, an edge of `pps_in` off its second, an edge of `frame_in` in time and
one that comes sooner, and a frame that does not come. -/
def Obligations.CadenceCommandsComplete : Prop := ∀ s : State,
  (s.running = true → s.power.sleeping = false → s.net.ptp.halted = false → s.reg Obj.bootStage ≠ 0 →
    Leads .beatStart s fun t => t.counter = (s.counter / 1000 + 1) * 1000 % 2 ^ 64 ∧
      t.reg Obj.pwrCapBeats = if s.reg Obj.pwrCapCeil < 2000 then min (s.reg Obj.pwrCapBeats + 1) (2 ^ 64 - 1) else s.reg Obj.pwrCapBeats) ∧
  (∀ d, s.net.ptp.correction = some d → s.allAtBoundary = true → s.net.ptp.halted = false → 0 ≤ d →
    Leads .cadenceSet s fun t => t.counter = (s.counter + d.toNat) % 2 ^ 64 ∧ t.net.ptp.correction = none ∧
      Reports (s.withCounter t.counter) t 0x4B02 .note uDevice) ∧
  (∀ d, s.net.ptp.correction = some d → s.allAtBoundary = true → s.net.ptp.halted = false → d < 0 →
    Leads .cadenceSet s fun t => t.net.ptp.halted = true ∧ t.counter = s.counter) ∧
  (s.net.ptp.halted = true → Leads .cadenceCounterResume s fun t => t.net.ptp.halted = false ∧ t.net.ptp.correction = none ∧
    t.counter = s.counter ∧ Reports s t 0x4B02 .note uDevice) ∧
  (s.reg Obj.cadSyncState = 1 → (∀ b, s.net.ptp.lastSync = some b → b + 3000000 ≤ s.beat) →
    Leads .ptpLockLost s fun t => t.reg Obj.cadSyncState = 2 ∧ t.counter = s.counter ∧ Reports s t 0x4B01 .note uDevice) ∧
  (s.reg Obj.cadSyncState = 2 → s.net.ptp.lostAt + s.reg Obj.cadHoldoverLimit < s.beat →
    Leads .holdoverExpired s fun t => t.reg Obj.cadSyncState = 3 ∧ t.held .holdover = true ∧ Reports s t 0x4B03 .degrade uDevice) ∧
  (∀ ns, s.running = true → s.reg Obj.ptpPpsMode = 1 → 1000 < ppsError (s.counter + ns.val) →
    Leads (.ppsInEdge ns) s fun t => Reports s t 0x7C02 .note uDevice) ∧
  (∀ ns, s.running = true → s.reg Obj.bootStage ≠ 0 → s.reg Obj.cadFrameCount = 0 ∨ s.reg Obj.cadFrameLast / 1000 + 4166 ≤ s.beat →
    Leads (.frameInEdge ns) s fun t => t.reg Obj.cadFrameLast = (s.counter + ns.val) % 2 ^ 64 ∧
      t.reg Obj.cadFrameCount = min (s.reg Obj.cadFrameCount + 1) (256 ^ objSize Obj.cadFrameCount - 1)) ∧
  (∀ ns, s.running = true → s.reg Obj.bootStage ≠ 0 → s.reg Obj.cadFrameCount ≠ 0 → s.beat < s.reg Obj.cadFrameLast / 1000 + 4166 →
    Leads (.frameInEdge ns) s fun t => t.reg Obj.cadFrameLast = s.reg Obj.cadFrameLast ∧ t.reg Obj.cadFrameCount = s.reg Obj.cadFrameCount ∧
      t.reg Obj.cadFrameReject = min (s.reg Obj.cadFrameReject + 1) (256 ^ objSize Obj.cadFrameReject - 1) ∧
      Reports s t 0x4B05 .note uDevice) ∧
  (s.reg Obj.cadFrameCount ≠ 0 → s.net.ptp.frameLate = false → s.reg Obj.cadFrameLast / 1000 + 100000 < s.beat →
    Leads .frameTimeout s fun t => t.net.ptp.frameLate = true ∧ Reports s t 0x4B06 .note uDevice)

/-- The PTP client's commands (R351, R359): an announce heard is kept with its rank, a Sync of the chosen server on the port in use
gives the offset at once or with its Follow_Up, and a Delay_Req and its answer give the path delay. -/
def Obligations.PtpCommandsComplete : Prop := ∀ (s : State) (port : Fin 8) (domain : BitVec 8) (server : BitVec 64) (seq : BitVec 16)
    (origin : BitVec 64) (ns : Fin 1000),
  (∀ rank steps, ptpListens s port.val = true → s.reg Obj.ptpDomain = domain.toNat →
    Leads (.ptpAnnounceRx port domain server rank steps) s fun t =>
      ∃ m ∈ t.net.ptp.masters, m.id = server.toNat ∧ m.rank = rank.map (·.toNat) ∧ m.steps = steps.toNat ∧ port.val ∈ m.ports) ∧
  (fromServer s port.val domain.toNat server.toNat = true → s.reg Obj.ptpPort ≠ port.val → ∀ twoStep,
    Leads (.ptpSyncRx port domain server seq twoStep origin ns) s fun t =>
      t.net.ptp.lastSync = some s.beat ∧ t.net.ptp.last = s.net.ptp.last ∧ t.reg Obj.cadOffset = s.reg Obj.cadOffset) ∧
  (fromServer s port.val domain.toNat server.toNat = true → s.reg Obj.ptpPort = port.val →
    Leads (.ptpSyncRx port domain server seq true origin ns) s fun t =>
      t.net.ptp.lastSync = some s.beat ∧ t.net.ptp.waiting = some (seq.toNat, ((s.counter + ns.val : Nat) : Int)) ∧
      t.reg Obj.cadOffset = s.reg Obj.cadOffset) ∧
  (fromServer s port.val domain.toNat server.toNat = true → s.reg Obj.ptpPort = port.val →
    Leads (.ptpSyncRx port domain server seq false origin ns) s fun t =>
      t.net.ptp.lastSync = some s.beat ∧ t.net.ptp.last = some ((origin.toNat : Int), ((s.counter + ns.val : Nat) : Int)) ∧
      t.reg Obj.cadOffset = i32 (((s.counter + ns.val : Nat) : Int) - origin.toNat - s.net.ptp.delay)) ∧
  (∀ t2 : Int, s.net.ptp.waiting = some (seq.toNat, t2) → fromServer s port.val domain.toNat server.toNat = true →
    s.reg Obj.ptpPort = port.val → Leads (.ptpFollowUpRx port domain server seq origin) s fun t =>
      t.net.ptp.last = some ((origin.toNat : Int), t2) ∧ t.net.ptp.waiting = none ∧
      t.reg Obj.cadOffset = i32 (t2 - origin.toNat - s.net.ptp.delay)) ∧
  ((ptpChosen s).isSome = true → Leads (.ptpDelayReqSend ns) s fun t =>
      t.net.ptp.delayReq = some (s.net.ptp.reqSeq, ((s.counter + ns.val : Nat) : Int)) ∧
      t.net.ptp.reqSeq = (s.net.ptp.reqSeq + 1) % 65536 ∧
      t.outbox.getLast? = some (.delayReq (s.reg Obj.ptpPort) s.net.ptp.reqSeq)) ∧
  (∀ t1 t2 t3 : Int, s.net.ptp.delayReq = some (seq.toNat, t3) → s.net.ptp.last = some (t1, t2) →
    fromServer s port.val domain.toNat server.toNat = true → s.reg Obj.ptpPort = port.val →
    Leads (.ptpDelayRespRx port domain server seq origin) s fun t =>
      t.net.ptp.delayReq = none ∧ t.net.ptp.delay = ((t2 - t1) + ((origin.toNat : Int) - t3)) / 2)

/-- A word read by the scrubber (R296–R298): a corrected one and an uncorrectable one are counted for their tier, and on-die corrections
for their pseudo-channel; an expander lost takes its range away until reset (R299). -/
def Obligations.MemoryTiersComplete : Prop := ∀ s : State,
  (∀ (addr : BitVec 48) (odecc : BitVec 32) (k : Nat), tierOf addr.toNat = some k → k < 3 → s.present addr.toNat = true →
    poisoned s.mem (addr.toNat / 8 * 8) 8 = false →
    Leads (.scrubWord addr .ce odecc) s fun t => t.reg (Obj.memCeT0 + k) = min (s.reg (Obj.memCeT0 + k) + 1) (2 ^ 64 - 1) ∧
      t.reg (Obj.memUeT0 + k) = s.reg (Obj.memUeT0 + k)) ∧
  (∀ (addr : BitVec 48) (st : WordStat) (odecc : BitVec 32) (k : Nat), tierOf addr.toNat = some k → k < 3 → s.present addr.toNat = true →
    (st = .ue ∨ poisoned s.mem (addr.toNat / 8 * 8) 8 = true) →
    Leads (.scrubWord addr st odecc) s fun t => t.reg (Obj.memUeT0 + k) = min (s.reg (Obj.memUeT0 + k) + 1) (2 ^ 64 - 1) ∧
      t.reg (Obj.memCeT0 + k) = s.reg (Obj.memCeT0 + k)) ∧
  (∀ (addr : BitVec 48) (odecc : BitVec 32), tierOf addr.toNat = some 0 → s.present addr.toNat = true →
    poisoned s.mem (addr.toNat / 8 * 8) 8 = false →
    Leads (.scrubWord addr .ok odecc) s fun t => smGet zeroWord t.mem.pcOdecc (s.pcOf addr.toNat) =
        min (smGet zeroWord s.mem.pcOdecc (s.pcOf addr.toNat) + odecc.toNat) (2 ^ 32 - 1) ∧
      ∀ k, t.reg k = s.reg k) ∧
  (∀ port : Fin 2, port.val ∉ s.mem.lost → Leads (.cxlExpanderLost port) s fun t =>
      (∀ a, 0x020000000000 + port.val * 2 ^ 40 ≤ a → a < 0x020000000000 + (port.val + 1) * 2 ^ 40 → t.installed a = false) ∧
      Reports s t 0x6A14 .degrade (uEdge (4 + port.val)))

/-- Retirement of a pseudo-channel (R300, R301): the request accepted and refused, the rebuild's start at a boundary, and its end, after
which the way is among the retired ones and no core holds a translation. -/
def Obligations.RetirementCompletes : Prop := ∀ s : State,
  (∀ (q : Req) (v : BitVec 16), s.takesWrite q Obj.memRetire = true → bitsOf v.toNat 10 6 = 0 → bitOf v.toNat 7 = false →
    retireRefused s (bitsOf v.toNat 8 2) (bitsOf v.toNat 0 7) = false →
    Leads (.memRetireWrite q v) s fun t => t.mem.retire = some (bitsOf v.toNat 8 2, bitsOf v.toNat 0 7) ∧
      t.reg Obj.memRetireState = 1 ∧ Answers t q 2 Obj.memRetire stOk) ∧
  (∀ (q : Req) (v : BitVec 16), s.takesWrite q Obj.memRetire = true → bitsOf v.toNat 10 6 = 0 → bitOf v.toNat 7 = false →
    retireRefused s (bitsOf v.toNat 8 2) (bitsOf v.toNat 0 7) = true →
    Leads (.memRetireWrite q v) s fun t => t.mem.retire = s.mem.retire ∧ t.reg Obj.memRetireState = 3 ∧
      Answers t q 2 Obj.memRetire stState ∧ Reports s t 0x6A06 .note (uDie (bitsOf v.toNat 8 2))) ∧
  (s.mem.retire.isSome = true → s.held .rebuild = false → s.reg Obj.ckptState ≠ 1 → s.allAtBoundary = true → s.stopped = false →
    Leads .retireRebuildStart s fun t => t.held .rebuild = true ∧ t.reg Obj.memRetireState = 2) ∧
  (∀ bad die way, s.mem.retire = some (die, way) → s.held .rebuild = true → way < 128 →
    Leads (.retireRebuildDone bad) s fun t => t.mem.retire = none ∧ way ∈ t.retired die ∧ (∀ w, w ∈ s.retired die → w ∈ t.retired die) ∧
      t.held .rebuild = false ∧ t.reg Obj.memRetireState = 0 ∧ (∀ n, (t.core n).tlb = []) ∧ Reports s t 0x6A05 .degrade (uDie die))

/-- Translations invalidated and pages moved (R306, R311): an invalidation is accepted, and ends once no request in flight uses its
range, with no TLB entry left that meets it; the page mover starts, and ends with its state. -/
def Obligations.TranslationCommandsComplete : Prop := ∀ s : State,
  (∀ (q : Req) (v : BitVec 64), s.takesWrite q Obj.xlatInval = true → bitsOf v.toNat 2 14 = 0 → bitsOf v.toNat 48 16 = 0 → s.mem.inval = none →
    Leads (.xlatInvalWrite q v) s fun t => t.mem.inval = some (invalRange v.toNat) ∧ t.reg Obj.xlatInvalState = 1 ∧
      Answers t q 2 Obj.xlatInval stOk) ∧
  (∀ r, s.mem.inval = some r → inFlight s r = false → Leads .xlatInvalDone s fun t => t.mem.inval = none ∧ t.reg Obj.xlatInvalState = 0 ∧
      (∀ n, ∀ e ∈ (t.core n).tlb, e ∈ (s.core n).tlb ∧ (e.va + e.size ≤ r.1 ∨ r.1 + r.2 ≤ e.va)) ∧
      ∀ n, ∀ e ∈ (s.core n).tlb, (e.va + e.size ≤ r.1 ∨ r.1 + r.2 ≤ e.va) → e ∈ (t.core n).tlb) ∧
  (∀ q : Req, s.takesWrite q Obj.xlatMoveGo = true → moveRefused s = false → Leads (.pageMoveGo q 1) s fun t =>
      t.mem.mover = some (s.reg Obj.xlatMoveSrc, s.reg Obj.xlatMoveDst, s.reg Obj.xlatMoveLen) ∧ t.reg Obj.xlatMoveState = 1 ∧
      Answers t q 2 Obj.xlatMoveGo stOk) ∧
  (∀ src dst len, s.mem.mover = some (src, dst, len) → poisoned s.mem src len = false →
    Leads (.pageMoveDone []) s fun t => t.mem.mover = none ∧ t.reg Obj.xlatMoveState = 2) ∧
  (∀ src dst len bad, s.mem.mover = some (src, dst, len) → poisoned s.mem src len = true → Leads (.pageMoveDone bad) s fun t =>
      t.mem.mover = none ∧ t.reg Obj.xlatMoveState = 3) ∧
  (∀ (q : Req) (v : BitVec 32), s.takesWrite q Obj.xlatFqTail = true → Leads (.fqTailWrite q v) s fun t =>
      t.reg Obj.xlatFqTail = v.toNat ∧ Answers t q 2 Obj.xlatFqTail stOk)

/-- The page mover copies (R311): a move that nothing raced leaves the destination with the source's bytes and every other byte as it
was. -/
def Obligations.PageMoveCopiesBytes : Prop := ∀ (s : State) (src dst len : Nat), s.mem.mover = some (src, dst, len) →
  Memory.wf s.mem = true → s.mem.raced = [] → (src + len ≤ dst ∨ dst + len ≤ src) →
  Leads (.pageMoveDone []) s fun t =>
    (∀ i, i < len → memByte t.mem (dst + i) = memByte s.mem (src + i)) ∧
    ∀ a, a < dst ∨ dst + len ≤ a → memByte t.mem a = memByte s.mem a

/-- The fault ring takes a held record once the tail makes room (R307): its 64 bytes stand at the head's slot, no other byte changes,
and the head moves on. -/
def Obligations.HeldFaultWrittenAtHead : Prop := ∀ (s : State) (q : Req) (v : BitVec 32) (h : HeldFault), s.takesWrite q Obj.xlatFqTail = true →
  s.mem.held = [h] → (s.reg Obj.xlatFqHead + 2 ^ 32 - v.toNat) % 2 ^ 32 < s.reg Obj.xlatFqSize →
  Leads (.fqTailWrite q v) s fun t =>
    let a := s.reg Obj.xlatFqBase + 64 * (s.reg Obj.xlatFqHead % s.reg Obj.xlatFqSize)
    memRead t.mem a 64 = h.record % 2 ^ 512 ∧ (∀ b, b < a ∨ a + 64 ≤ b → memByte t.mem b = memByte s.mem b) ∧
      t.reg Obj.xlatFqHead = (s.reg Obj.xlatFqHead + 1) % 2 ^ 32 ∧ t.reg Obj.xlatFqHeld = 0 ∧ t.mem.held = []

/-- The Siphon's commands (R316, R317): an item read as uncorrectable is lost, an offload and a prefetch take the oldest item that
waits and the next item back in reverse order, and the prefetch starts once every item is placed; nothing moves under a plan that no longer
reads as it was measured (R40). -/
def Obligations.SiphonCommandsComplete : Prop := ∀ (s : State) (cl : Fin 16) (p : TableRec × Nat), s.spillPlan cl.val = some p →
  p.1.bad = false → firstDiffer s (planReads s cl.val p) = none →
  (∀ it i, nextToPlace s cl.val (planItems s p.1 p.2) = some (it, i) → ((s.cluster cl.val).item i).data.length = it.bytes →
    Leads (.siphonItemPlace cl true) s fun t => ((t.cluster cl.val).item i).lost = true ∧ Reports s t 0x6A04 .stepAbort (uCluster cl.val)) ∧
  (∀ it i, (planItems s p.1 p.2).zipIdx.find? (fun q => ((s.cluster cl.val).item q.2).staged) = some (it, i) →
    ((s.cluster cl.val).item i).lost = false → Leads (.siphonOffloadDone cl true) s fun t => ((t.cluster cl.val).item i).lost = true ∧ Reports s t 0x6A04 .stepAbort (uCluster cl.val)) ∧
  (∀ it i, (planItems s p.1 p.2).zipIdx.find? (fun q => ((s.cluster cl.val).item q.2).staged) = some (it, i) →
    Leads (.siphonOffloadDone cl false) s fun t => ((t.cluster cl.val).item i).staged = false ∧
      ((t.cluster cl.val).item i).pa = ((s.cluster cl.val).item i).pa ∧ ∀ j, j ≠ i → (t.cluster cl.val).item j = (s.cluster cl.val).item j) ∧
  (nextToPlace s cl.val (planItems s p.1 p.2) = none → (s.cluster cl.val).prefetch = none →
    Leads (.siphonPrefetchStart cl) s fun t => (t.cluster cl.val).prefetch = some (planItems s p.1 p.2).length) ∧
  (∀ n, (s.cluster cl.val).prefetch = some n →
    (((planItems s p.1 p.2).zipIdx.take n).reverse.find? fun q => let x := (s.cluster cl.val).item q.2
      x.placed && x.tier != 0 && !x.present && !x.staged && !x.lost) = none →
    Leads (.siphonPrefetchDone cl false) s fun t => (t.cluster cl.val).prefetch = some 0) ∧
  (∀ n it i, (s.cluster cl.val).prefetch = some n →
    (((planItems s p.1 p.2).zipIdx.take n).reverse.find? fun q => let x := (s.cluster cl.val).item q.2
      x.placed && x.tier != 0 && !x.present && !x.staged && !x.lost) = some (it, i) →
    storedBad s ((s.cluster cl.val).item i) false = none →
    Leads (.siphonPrefetchDone cl false) s fun t => (t.cluster cl.val).prefetch = some i ∧ ((t.cluster cl.val).item i).present = true ∧
      ((t.cluster cl.val).item i).data = (restoredBytes it ((s.cluster cl.val).item i).form
        (memBytes s.mem ((s.cluster cl.val).item i).pa ((s.cluster cl.val).item i).stored)).1)

/-- An item is placed (R316): by the decisions of R316 over the cluster's ledger, in the tier and form chosen; an item of T0 stands in
its stored form at the pool's next address, every other byte of memory as it was, and one of T1 or T2 waits in staging. -/
def Obligations.SiphonPlacesItems : Prop := ∀ (s : State) (cl : Fin 16) (p : TableRec × Nat) (it : PlanItem) (i : Nat),
  s.spillPlan cl.val = some p → p.1.bad = false → firstDiffer s (planReads s cl.val p) = none → nextToPlace s cl.val (planItems s p.1 p.2) = some (it, i) →
  ((s.cluster cl.val).item i).data.length = it.bytes →
  let raw := ((s.cluster cl.val).item i).data
  let l := (s.cluster cl.val).ledger
  let d := choosePlace it (fun f => (storedBytes s cl.val it f raw).length) l (planT0High s p) (planT1Share s p) (planT2Share s p)
  let bytes := storedBytes s cl.val it d.form raw
  let pa := s.pool cl.val d.tier + ledgerAt l d.tier
  ¬ (d.reserve = true ∧ planT0Share s p < l.1 + bytes.length) →
  Leads (.siphonItemPlace cl false) s fun t =>
    let x := (t.cluster cl.val).item i
    x.placed = true ∧ x.tier = d.tier ∧ x.form = d.form ∧ x.pa = pa ∧ x.stored = bytes.length ∧ (d.tier ≠ 0 → x.staged = true) ∧
    (t.cluster cl.val).ledger = ledgerAdd l d.tier bytes.length ∧
    (d.tier = 0 → ∀ j, j < bytes.length → memByte t.mem (pa + j) = bytes.getD j 0) ∧
    (∀ a, (d.tier ≠ 0 ∨ a < pa ∨ pa + bytes.length ≤ a) → memByte t.mem a = memByte s.mem a)

/-- An item is offloaded (R317): its stored form reaches its address in T1 or T2, every other byte of memory as it was. -/
def Obligations.SiphonOffloadStoresItem : Prop := ∀ (s : State) (cl : Fin 16) (p : TableRec × Nat) (it : PlanItem) (i : Nat),
  s.spillPlan cl.val = some p → p.1.bad = false → firstDiffer s (planReads s cl.val p) = none →
  (planItems s p.1 p.2).zipIdx.find? (fun q => ((s.cluster cl.val).item q.2).staged) = some (it, i) →
  let x := (s.cluster cl.val).item i
  let bytes := storedBytes s cl.val it x.form x.data
  Leads (.siphonOffloadDone cl false) s fun t =>
    (∀ j, j < bytes.length → memByte t.mem (x.pa + j) = bytes.getD j 0) ∧
    ∀ a, a < x.pa ∨ x.pa + bytes.length ≤ a → memByte t.mem a = memByte s.mem a

/-- Power domains (R403–R405): a request that nothing refuses starts the transition, a refused one is counted and reported, one during
a transition waits; a transition ends in its state, and one that a refusal condition meets on the way from ON goes back. -/
def Obligations.DomainCommandsComplete : Prop := ∀ s : State,
  (∀ (q : Req) (v : BitVec 8) (id : Nat), s.takesWrite q Obj.pwrDomReq = true → s.reg Obj.pwrDomSel = id → s.transition id = none →
    domRefusal s id v.toNat = none → s.domState id ≠ v.toNat → Leads (.domainReqWrite q v) s fun t =>
      t.domState id = (if s.domState id = dsOn ∨ v.toNat = dsOff then dsLeaving else dsEntering) ∧
      t.transition id = some (s.domState id, v.toNat) ∧ t.reg (ofUnit Obj.pwrDomReq id) = v.toNat ∧ Answers t q 2 Obj.pwrDomReq stOk) ∧
  (∀ (q : Req) (v : BitVec 8) (id r : Nat), s.takesWrite q Obj.pwrDomReq = true → s.reg Obj.pwrDomSel = id → s.transition id = none →
    domRefusal s id v.toNat = some r → Leads (.domainReqWrite q v) s fun t =>
      t.domState id = s.domState id ∧ t.reg (ofUnit Obj.pwrDomReq id) = s.reg (ofUnit Obj.pwrDomReq id) ∧
      t.reg (ofUnit Obj.pwrDomLastRefuser id) = r ∧
      t.reg (ofUnit Obj.pwrDomRefused id) = min (s.reg (ofUnit Obj.pwrDomRefused id) + 1) (2 ^ 32 - 1) ∧
      Answers t q 2 Obj.pwrDomReq (refuserStatus r) ∧ Reports s t 0x2A10 .note (uDomain id)) ∧
  (∀ (q : Req) (v : BitVec 8) (id : Nat) (x : Nat × Nat), s.takesWrite q Obj.pwrDomReq = true → s.reg Obj.pwrDomSel = id →
    s.transition id = some x → Leads (.domainReqWrite q v) s fun t =>
      smGet (fun _ => none) t.power.held id = some v.toNat ∧ t.domState id = s.domState id ∧ Answers t q 2 Obj.pwrDomReq stOk) ∧
  (∀ (id : BitVec 9) (a v : Nat), s.transition id.toNat = some (a, v) → v ≤ 2 → smGet (fun _ => none) s.power.held id.toNat = none →
    s.reg Obj.bootStage ≠ 5 → Leads (.domainTransitionDone id) s fun t => t.domState id.toNat = v ∧ t.transition id.toNat = none) ∧
  (∀ (id : BitVec 9) (v r : Nat), s.transition id.toNat = some (2, v) → v ≠ 2 → (refusesOff s id.toNat).head? = some r →
    smGet (fun _ => none) s.power.held id.toNat = none → Leads (.domainTransitionAbort id) s fun t =>
      t.domState id.toNat = dsOn ∧ t.reg (ofUnit Obj.pwrDomLastRefuser id.toNat) = r ∧
      t.reg (ofUnit Obj.pwrDomAborted id.toNat) = min (s.reg (ofUnit Obj.pwrDomAborted id.toNat) + 1) (2 ^ 32 - 1) ∧
      Reports s t 0x2A11 .note (uDomain id.toNat))

/-- A memory domain that reaches OFF loses its contents (R403): every byte it holds reads as a byte nothing has written, every other
byte as before. -/
def Obligations.OffLosesMemory : Prop := ∀ (s : State) (id : BitVec 9) (a : Nat),
  s.transition id.toNat = some (a, dsOff) → (0x120 ≤ id.toNat ∧ id.toNat < 0x130) ∨ id.toNat = 0x140 ∨ id.toNat = 0x141 →
  smGet (fun _ => none) s.power.held id.toNat = none → s.reg Obj.bootStage ≠ 5 →
  Leads (.domainTransitionDone id) s fun t => ∀ b,
    memByte t.mem b = if domHolds s id.toNat b = true then memDefault b else memByte s.mem b

/-- Frequency and voltage (R409–R411): a request that the die's table allows is taken, and a lower frequency is in force at once; one that
it does not allow is refused, counted and reported, and the requests stay as they were; a voltage that has settled stands at its request,
with the frequency that it allows; it does not fall while the frequency is still above its request. -/
def Obligations.DvfsCommandsComplete : Prop := ∀ s : State,
  (∀ (q : Req) (f : BitVec 16) (id : Nat), s.takesWrite q Obj.pwrDomFreqReq = true → s.reg Obj.pwrDomSel = id →
    freqRefusal s id f.toNat = none → Leads (.freqReqWrite q f) s fun t =>
      t.reg (ofUnit Obj.pwrDomFreqReq id) = f.toNat ∧ Answers t q 2 Obj.pwrDomFreqReq stOk ∧
      (s.domOn id = true → min f.toNat (domCeil s id) / 25 * 25 ≤ s.reg (ofUnit Obj.pwrDomFreq id) →
        t.reg (ofUnit Obj.pwrDomFreq id) = min f.toNat (domCeil s id) / 25 * 25)) ∧
  (∀ (q : Req) (f : BitVec 16) (id r : Nat), s.takesWrite q Obj.pwrDomFreqReq = true → s.reg Obj.pwrDomSel = id →
    freqRefusal s id f.toNat = some r → Leads (.freqReqWrite q f) s fun t =>
      t.reg (ofUnit Obj.pwrDomFreqReq id) = s.reg (ofUnit Obj.pwrDomFreqReq id) ∧ t.reg (ofUnit Obj.pwrDomLastRefuser id) = r ∧
      t.reg (ofUnit Obj.pwrDomRefused id) = min (s.reg (ofUnit Obj.pwrDomRefused id) + 1) (2 ^ 32 - 1) ∧
      Reports s t 0x2A10 .note (uDomain id) ∧ Answers t q 2 Obj.pwrDomFreqReq (refuserStatus r)) ∧
  (∀ (q : Req) (v : BitVec 16) (id : Nat), s.takesWrite q Obj.pwrDomVoltReq = true → s.reg Obj.pwrDomSel = id →
    voltRefusal s id v.toNat = none → Leads (.voltReqWrite q v) s fun t =>
      t.reg (ofUnit Obj.pwrDomVoltReq id) = v.toNat ∧ Answers t q 2 Obj.pwrDomVoltReq stOk) ∧
  (∀ (q : Req) (v : BitVec 16) (id r : Nat), s.takesWrite q Obj.pwrDomVoltReq = true → s.reg Obj.pwrDomSel = id →
    voltRefusal s id v.toNat = some r → Leads (.voltReqWrite q v) s fun t =>
      t.reg (ofUnit Obj.pwrDomVoltReq id) = s.reg (ofUnit Obj.pwrDomVoltReq id) ∧ t.reg (ofUnit Obj.pwrDomLastRefuser id) = r ∧
      t.reg (ofUnit Obj.pwrDomRefused id) = min (s.reg (ofUnit Obj.pwrDomRefused id) + 1) (2 ^ 32 - 1) ∧
      Reports s t 0x2A10 .note (uDomain id) ∧ Answers t q 2 Obj.pwrDomVoltReq (refuserStatus r)) ∧
  (∀ id : BitVec 9,
    (isPaced id.toNat = true → s.domOn id.toNat = true →
      s.reg (ofUnit Obj.pwrDomVolt id.toNat) ≤ reqVolt s id.toNat ∨
        s.reg (ofUnit Obj.pwrDomFreq id.toNat) ≤ reqFreq s id.toNat →
      Leads (.dvfsVoltageReached id) s fun t =>
        t.reg (ofUnit Obj.pwrDomVolt id.toNat) = reqVolt s id.toNat % 65536 ∧
        (freqGoal s id.toNat ≤ s.reg (ofUnit Obj.pwrDomFreq id.toNat) →
          t.reg (ofUnit Obj.pwrDomFreq id.toNat) = freqGoal s id.toNat % 65536) ∧
        ∀ pt m, s.pst (dieOfDomain id.toNat) = some pt → vreq pt (freqGoal s id.toNat) = some m →
          m ≤ reqVolt s id.toNat % 65536 → t.reg (ofUnit Obj.pwrDomFreq id.toNat) = freqGoal s id.toNat % 65536) ∧
    (isPaced id.toNat = false ∨ s.domOn id.toNat = false ∨
      (reqVolt s id.toNat < s.reg (ofUnit Obj.pwrDomVolt id.toNat) ∧
        reqFreq s id.toNat < s.reg (ofUnit Obj.pwrDomFreq id.toNat)) →
      Leads (.dvfsVoltageReached id) s fun t => t = s))

/-- The supply and the power cap (R398–R400, R415): out of range and back, a dip, its hold, the steps of its release and its end, and
the samples of input power with the falling ceiling and the peak. -/
def Obligations.SupplyCommandsComplete : Prop := ∀ (s : State) (mv : BitVec 17),
  (inRange mv.toNat = false → 46000 < mv.toNat → mv.toNat ≤ 60000 → s.reg Obj.pwrSupplyState = 0 →
    Leads (.supplyOutOfRange mv) s fun t => t.reg Obj.pwrSupplyState = 1 ∧ t.reg Obj.pwrInputMv = mv.toNat ∧
      Reports s t 0x2A03 .note uDevice) ∧
  (inRange mv.toNat = true → s.reg Obj.pwrSupplyState = 1 →
    Leads (.supplyBackInRange mv) s fun t => t.reg Obj.pwrSupplyState = 0 ∧ t.reg Obj.pwrInputMv = mv.toNat) ∧
  (42000 < mv.toNat → mv.toNat < 46000 → s.running = true →
    Leads (.supplyBelow46 mv) s fun t => t.reg Obj.pwrSupplyState = 2 ∧ t.power.throttle = true ∧
      t.reg Obj.pwrDipCount = min (s.reg Obj.pwrDipCount + 1) (2 ^ 32 - 1) ∧ Reports s t 0x2A01 .note uDevice ∧
      ∀ id, id < 0x110 → s.domOn id = true → t.reg (ofUnit Obj.pwrDomFreq id) ≤ s.reg Obj.pwrDipFreq) ∧
  (47000 < mv.toNat → s.power.throttle = true → s.reg Obj.pwrSupplyState = 2 →
    Leads (.supplyAbove47 mv) s fun t => t.power.holding = true ∧ t.power.throttle = true) ∧
  (mv.toNat ≤ 47000 → s.power.holding = true → Leads (.supplyFallTo47v mv) s fun t => t.power.holding = false) ∧
  (s.power.holding = true → Leads .supplyHoldComplete s fun t => t.reg Obj.pwrSupplyState = 3 ∧ t.power.holding = false ∧
      t.power.ceil = min 2000 (s.reg Obj.pwrDipFreq + 100)) ∧
  (s.reg Obj.pwrSupplyState = 3 → s.power.ceil < 2000 → Leads .supplyReleaseStep s fun t =>
      t.power.ceil = min 2000 (s.power.ceil + 100) ∧ t.reg Obj.pwrSupplyState = 3) ∧
  (s.reg Obj.pwrSupplyState = 3 → 2000 ≤ s.power.ceil → Leads .supplyReleaseStep s fun t => t.power.throttle = false ∧
      t.reg Obj.pwrSupplyState = (if s.reg Obj.pwrInputMv < 48000 then 1 else 0) ∧ Reports s t 0x2A02 .note uDevice) ∧
  (∀ w : BitVec 16, s.running = true → Leads (.powerSample w mv) s fun t => t.power.samples = (w.toNat :: s.power.samples).take 1000 ∧
      t.reg Obj.pwrInputW = meanOf ((w.toNat :: s.power.samples).take 1000) 1000 % 2 ^ 32 ∧ t.reg Obj.pwrInputMv = mv.toNat) ∧
  (∀ w : BitVec 16, s.running = true → s.reg Obj.pwrCapCeil ≤ 2000 →
    s.reg Obj.pwrCapW < meanOf ((w.toNat :: s.power.samples).take 1000) 1000 → s.power.capRun.1 ≠ 1 →
    meanOf ((w.toNat :: s.power.samples).take 1000) 100 ≤ 4400 →
    Leads (.powerSample w mv) s fun t => t.reg Obj.pwrCapCeil = max 800 (s.reg Obj.pwrCapCeil - 25)) ∧
  (∀ w : BitVec 16, s.running = true → s.reg Obj.pwrCapCeil ≤ 2000 → s.power.capPeak = false →
    4400 < meanOf ((w.toNat :: s.power.samples).take 1000) 100 →
    Leads (.powerSample w mv) s fun t => t.reg Obj.pwrCapCeil ≤ max 800 (s.reg Obj.pwrCapCeil - 375) ∧ Reports s t 0x2A22 .note uDevice)

/-- Tables, roles and the step plan (R23, R37–R40, R54, R55, R64, R316): an image written is checked and becomes a shadow table or is
refused, and is activated for a group at its boundary; a role is requested, refused, left and joined; a plan is built at the
boundary for the data position of its step, and layers and micro-batches follow one another. -/
def Obligations.StepControlCompletes : Prop := ∀ s : State,
  (∀ (q : Req) (h : BitVec 64), s.takesWrite q Obj.tblActivate = true → bitsOf h.toNat 40 10 = 0 →
    let snap := regionSnap s.mem (s.regionBase h.toNat) (hBytes h.toNat)
    Leads (.tblActivateWrite q h) s fun t => t.reg Obj.tblActivate = h.toNat ∧ Answers t q 2 Obj.tblActivate stOk ∧
      t.reg Obj.tblActStatus = (if imageOk (s.setReg Obj.tblActivate h.toNat) h.toNat snap = true then 2 else 3) ∧
      (imageOk (s.setReg Obj.tblActivate h.toNat) h.toNat snap = true → ∃ r ∈ t.tables, r.handle = h.toNat ∧ r.snap = snap ∧ r.active = false)) ∧
  (∀ (h : BitVec 64) (g : Fin 3) (r : TableRec), s.tables.find? (fun t => t.handle == h.toNat && tableDue s t g.val) = some r →
    s.held .checkpoint = false → s.groupAtBoundary g.val = true →
    r.active = true ∨ regionSnap s.mem (s.regionBase r.handle) (hBytes r.handle) = r.snap →
    Leads (.tableActivationApply h g) s fun t => ∃ n ∈ t.tables, n.handle = h.toNat ∧ n.active = true ∧ n.snap = r.snap ∧
      n.waitGroups = (dueGroups s r).filter (· != g.val)) ∧
  (∀ (h : BitVec 64) (g : Fin 3) (r : TableRec), s.tables.find? (fun t => t.handle == h.toNat && tableDue s t g.val) = some r →
    s.held .checkpoint = false → s.groupAtBoundary g.val = true → r.active = false →
    regionSnap s.mem (s.regionBase r.handle) (hBytes r.handle) ≠ r.snap →
    Leads (.tableActivationApply h g) s fun t => (∀ n ∈ t.tables, n.active = false → n.handle ≠ h.toNat) ∧
      t.reg Obj.tblRefused = min (s.reg Obj.tblRefused + 1) (2 ^ 32 - 1) ∧ Reports s t 0x4A04 .note uMgt) ∧
  (∀ (q : Req) (cl : Fin 16) (v : BitVec 8), s.takesWrite q (Obj.schedClRoleReq cl.val) = true → v.toNat ≤ 2 →
    Leads (.roleReqWrite q cl v) s fun t => t.reg (Obj.schedClRoleReq cl.val) = v.toNat ∧
      (t.cluster cl.val).roleReq = (if v.toNat = s.role cl.val then none else some v.toNat) ∧ t.role cl.val = s.role cl.val ∧
      Answers t q 2 (Obj.schedClRoleReq cl.val) stOk) ∧
  (∀ (cl : Fin 16) (r : Nat), (s.cluster cl.val).roleReq = some r → roleBoundary s cl.val = true → tablesWait s cl.val (s.role cl.val) = false →
    s.held .checkpoint = false → roleRefused s cl.val r = true →
    Leads (.roleChangeApply cl) s fun t => t.role cl.val = s.role cl.val ∧ t.reg (Obj.schedClRoleReq cl.val) = s.role cl.val % 256 ∧
      (t.cluster cl.val).roleReq = none ∧ Reports s t 0x4C01 .note (uCluster cl.val)) ∧
  (∀ (cl : Fin 16), (s.cluster cl.val).roleReq = some 0 → roleBoundary s cl.val = true → tablesWait s cl.val (s.role cl.val) = false →
    s.held .checkpoint = false → s.role cl.val ≠ 0 →
    Leads (.roleChangeApply cl) s fun t => t.role cl.val = 0 ∧ t.reg (Obj.schedClRoleReq cl.val) = 0 ∧
      cl.val ∉ t.train.members ∧ cl.val ∉ t.roll.members) ∧
  (∀ (cl : Fin 16) (r : Nat), (s.cluster cl.val).roleReq = some r → s.role cl.val = 0 → (s.cluster cl.val).reqAt < s.beat → r = 1 ∨ r = 2 →
    tablesWait s cl.val 0 = false → tablesWait s cl.val r = false →
    s.held .checkpoint = false → roleRefused s cl.val r = false → s.groupAtBoundary r = true →
    Leads (.roleChangeApply cl) s fun t => t.role cl.val = r ∧ t.reg (Obj.schedClRoleReq cl.val) = r ∧ (t.cluster cl.val).roleReq = none ∧
      cl.val ∈ (if r = 1 then t.train.members else t.roll.members)) ∧
  (∀ (lead : Nat) (rest : List Nat), s.train.members = lead :: rest → planReady s = true →
    s.reg Obj.stepDataPos % 2 ^ 64 = s.reg (Obj.schedClStep lead) →
    Leads .trainingPlanBuild s fun t => t.train.phase = .running ∧ t.train.origin = s.beat ∧ t.train.atOrigin = s.train.members ∧
      (s.ledger.frozen = false → t.ledger.phase = 0 ∧ t.ledger.step = s.reg (Obj.schedClStep lead))) ∧
  (∀ (lead : Nat) (rest : List Nat), s.train.members = lead :: rest → planReady s = true →
    s.reg Obj.stepDataPos % 2 ^ 64 ≠ s.reg (Obj.schedClStep lead) →
    Leads .trainingPlanBuild s fun t => t.train.phase = s.train.phase ∧ t.train.skewWait = true ∧ t.train.abort = false ∧
      Reports s t 0x3F06 .stepAbort (uCluster lead)) ∧
  (∀ (cl : Fin 16) (r : TableRec), s.table 6 cl.val 1 = some r → s.role cl.val = 1 → s.train.phase = .running →
    (s.cluster cl.val).mb ≠ 0 → (s.cluster cl.val).mb ≤ (s.cluster cl.val).plan.length → (s.cluster cl.val).layer + 1 < snapRd r 0x0A 2 →
    Leads (.layerBoundary cl) s fun t => (t.cluster cl.val).layer = (s.cluster cl.val).layer + 1 ∧
      (t.cluster cl.val).mb = (s.cluster cl.val).mb ∧
      (t.cluster cl.val).recompute = ((s.cluster cl.val).recompute || (s.cluster cl.val).recomputeReq)) ∧
  (∀ cl : Fin 16, s.role cl.val = 1 → s.train.phase = .running → (s.cluster cl.val).mb < (s.cluster cl.val).plan.length →
    Leads (.microbatchBoundary cl) s fun t => (t.cluster cl.val).mb = (s.cluster cl.val).mb + 1 ∧ (t.cluster cl.val).layer = 0 ∧
      (t.cluster cl.val).ledger = (0, 0, 0) ∧ (t.cluster cl.val).stash = [])

/-- The power-up sequence and its control inputs (R457–R461): mating, the rise of `pwr_en`, soft start, regulation, the end of internal
reset, which begins the boot where `rst_n` is high, and the release of `rst_n`, which samples the straps. -/
def Obligations.PowerUpCommandsComplete : Prop := ∀ s : State,
  (∀ feed slot, (s.pins.mated && s.pins.monitor) = false → Leads (.j1Mate feed slot) s fun t => t.pins.mated = true ∧
      t.pins.monitor = true ∧ t.reg Obj.resFeed = feed.toNat ∧ t.reg Obj.resSlot = slot.toNat ∧
      t.reg Obj.modStrapsLive = feed.toNat + 16 * slot.toNat) ∧
  (∀ rested, s.pins.pwrEn = false → Leads (.pwrEnRise rested) s fun t => t.pins.pwrEn = true ∧ t.pins.needRise = false ∧
      t.pins.thermLatch = (s.pins.thermLatch && !rested)) ∧
  (s.pins.mated = true → s.pins.monitor = true → s.pins.pwrEn = true → s.pins.needRise = false → s.pins.thermLatch = false →
    s.pins.pwrGood = false → Leads .softStartBegin s fun t => t.pins.softStart = true ∧ t.pins.inReset = true) ∧
  (s.pins.softStart = true → Leads .railsInRegulation s fun t => t.pins.pwrGood = true ∧ t.pins.softStart = false ∧
      t.pins.internalDone = false) ∧
  (s.pins.pwrGood = true → s.pins.inReset = true → s.pins.internalDone = false → s.pins.rstN = false →
    Leads .internalResetEnd s fun t => t.pins.internalDone = true ∧ t.pins.inReset = true ∧ t.reg Obj.bootStage = s.reg Obj.bootStage) ∧
  (s.pins.pwrGood = true → s.pins.inReset = true → s.pins.internalDone = false → s.pins.rstN = true → s.reg Obj.resSlot ≤ 63 →
    Leads .internalResetEnd s fun t => t.pins.inReset = false ∧ t.reg Obj.bootStage = 1 ∧ t.reg Obj.pwrResetCause = s.pins.cause % 256 ∧
      t.log.ready = true ∧ t.reg Obj.fldPlcaId = s.reg Obj.resSlot + 1) ∧
  (∀ feed slot, s.pins.rstN = false → Leads (.rstNDeassert feed slot) s fun t => t.pins.rstN = true ∧ t.reg Obj.resFeed = feed.toNat ∧
      t.reg Obj.resSlot = slot.toNat ∧ t.reg Obj.modStrapsLive = feed.toNat + 16 * slot.toNat) ∧
  (∀ feed slot, s.pins.rstN = false → s.pins.inReset = true → s.pins.pwrGood = true → s.pins.internalDone = true →
    Leads (.rstNDeassert feed slot) s fun t => t.pins.inReset = false ∧ t.reg Obj.bootStage = 1 ∧
      t.reg Obj.fldPlcaId = slot.toNat + 1)

/-- What resets the device (R401, R417, R453, R455, R460, R461): each cause, with what a reset leaves. -/
def Obligations.ResetCommandsComplete : Prop := ∀ s : State, s.regsFit = true →
  (∀ mv : BitVec 17, mv.toNat ≤ 42000 → powered s = true → Leads (.brownOut mv) s fun t => ResetFor s t 1 ∧ t.pins.pwrGood = false) ∧
  (∀ mv : BitVec 17, 60000 < mv.toNat → powered s = true → Leads (.overVoltage mv) s fun t => ResetFor s t 2 ∧ t.pins.pwrGood = false) ∧
  (s.pins.mated = true → powered s = true → Leads .j1Break s fun t => ResetFor s t 1 ∧ t.pins.mated = false ∧ t.pins.pwrGood = false) ∧
  (s.pins.mated = true → powered s = false → Leads .j1Break s fun t => t.pins.mated = false ∧ t.counter = s.counter) ∧
  (powered s = true → Leads .inputBelow40v s fun t => ResetFor s t 1 ∧ t.pins.monitor = false ∧ t.pins.thermLatch = false) ∧
  (powered s = false → Leads .inputBelow40v s fun t => t.pins.monitor = false ∧ t.pins.thermLatch = false ∧ t.counter = s.counter) ∧
  (s.pins.pwrEn = true → powered s = true → Leads .pwrEnFall s fun t => ResetFor s t 0 ∧ t.pins.pwrEn = false ∧ t.pins.needRise = true ∧
      t.pins.pwrGood = false) ∧
  (s.pins.rstN = true → s.pins.pwrGood = true → s.pins.inReset = false → Leads .rstNAssert s fun t => ResetFor s t 4 ∧
      t.pins.rstN = false ∧ t.pins.pwrGood = true) ∧
  (∀ ts : Vector Int 6, s.running = true → (∃ x ∈ ts.toList, 110000 ≤ x) → Leads (.thermalSample ts) s fun t => ResetFor s t 3 ∧
      t.pins.thermLatch = true ∧ t.pins.needRise = true ∧ t.pins.pwrGood = false)

/-- The module's sensors and SLEEP (R408, R417–R419, R457, R464): a sample of temperatures, of the straps and of the coolant, SLEEP taken
and refused, an address that matches, and a wake complete. -/
def Obligations.ModuleCommandsComplete : Prop := ∀ s : State,
  (∀ ts : Vector Int 6, s.running = true → (∀ x ∈ ts.toList, x < 110000) → Leads (.thermalSample ts) s fun t =>
      ∀ d : Fin 6, t.reg (Obj.pwrTemp d.val) = (ts[d.val] % 2 ^ 32).toNat ∧
        (105000 ≤ ts[d.val] → t.reg (Obj.pwrThermCeil d.val) = 800)) ∧
  (∀ feed slot, s.running = true → Leads (.strapCheck feed slot) s fun t => t.reg Obj.modStrapsLive = feed.toNat + 16 * slot.toNat ∧
      (feed.toNat + 16 * slot.toNat ≠ s.reg Obj.modStrapsLive → feed.toNat + 16 * slot.toNat ≠ s.reg Obj.resFeed + 16 * s.reg Obj.resSlot →
        Reports s t 0x2A54 .note uDevice)) ∧
  (∀ inlet outlet flow leak, s.running = true → Leads (.coolantSample inlet outlet flow leak) s fun t =>
      t.reg Obj.modInletC = inlet.toNat ∧ t.reg Obj.modOutletC = outlet.toNat ∧ t.reg Obj.modFlow = flow.toNat ∧
      t.reg Obj.modLeak = (if leak = true then 1 else 0) ∧
      (1000 * (s.reg Obj.modCoolLimitC : Int) < inlet.toInt → s.pins.hotInlet = false → Reports s t 0x2A50 .note uDevice) ∧
      (flow.toNat < 2000 → s.pins.lowFlow = false → Reports s t 0x2A52 .note uDevice) ∧
      (leak = true → s.reg Obj.modLeak ≠ 1 → Reports s t 0x2A51 .note uDevice)) ∧
  (∀ q : Req, s.takesWrite q Obj.pwrSleep = true → (∀ id ∈ allDomains, s.domState id = dsOff) →
    Leads (.sleepWrite q 1) s fun t => t.power.sleeping = true ∧ Answers t q 2 Obj.pwrSleep stOk) ∧
  (∀ q : Req, s.takesWrite q Obj.pwrSleep = true → (∃ id ∈ allDomains, s.domState id ≠ dsOff) →
    Leads (.sleepWrite q 1) s fun t => t.power.sleeping = s.power.sleeping ∧ Answers t q 2 Obj.pwrSleep stState ∧
      t.reg (ofUnit Obj.pwrDomLastRefuser domAlwaysOn) = rfSleep ∧ Reports s t 0x2A10 .note (uDomain domAlwaysOn)) ∧
  (∀ addr : BitVec 7, s.pins.pwrGood = true → s.dead = false → addr.toNat = bitsOf (s.reg Obj.pwrSspAddr) 0 7 →
    Leads (.sspAddressMatch addr) s fun t => t.outbox = s.outbox ++ [.sspAck] ∧ t.power.waking = (s.power.waking || s.power.sleeping)) ∧
  (s.power.waking = true → Leads .sspWakeComplete s fun t => t.power.waking = false ∧ t.power.sleeping = false ∧
      t.reg Obj.pwrWakes = min (s.reg Obj.pwrWakes + 1) (2 ^ 32 - 1))

/-- The boot's commands (R433, R437, R440, R441): identity, firmware, configuration, power and its retry, memory, and ready, each from its
stage to the next, or to recovery where the firmware or the factory records fail. -/
def Obligations.BootCommandsComplete : Prop := ∀ s : State, s.running = true →
  (∀ key : BitVec 1064, s.reg Obj.bootStage = 1 → Leads (.bootIdentity key) s fun t => t.reg Obj.bootStage = 2 ∧
      t.reg Obj.bootCount = min (s.reg Obj.bootCount + 1) (2 ^ 32 - 1) ∧ t.mgt.identity = leBytes 133 key.toNat ∧
      t.reg Obj.secIdState = (if leBytes 133 key.toNat = s.flash.deviceKey then 1 else 2) ∧
      (leBytes 133 key.toNat ≠ s.flash.deviceKey → t.pins.fatalLatch = true ∧ Reports s t 0x9A01 .fatal uMgt)) ∧
  (s.reg Obj.bootStage = 2 →
    let ok := firmwareOk s.flash.firmware false
    let svn := decide (s.reg Obj.secMinSvn ≤ firmwareSvn s.flash.firmware)
    Leads .bootFirmware s fun t => t.reg Obj.bootStage = (if (ok && svn) = true then 3 else 8) ∧
      ((ok && svn) = true → t.reg Obj.idFwVersion = firmwareVersion s.flash.firmware ∧ t.reg Obj.idFwSvn = firmwareSvn s.flash.firmware ∧
        t.mgt.regFw = sha512 (s.mgt.regFw ++ sha512 s.flash.firmware)) ∧
      ((ok && svn) = false → t.mgt.reason = (if ok = true then 3 else 1) ∧ Reports s t 0x1A04 .note uMgt)) ∧
  (s.reg Obj.bootStage = 3 →
    let ok := (applyRecords s).isSome && (List.range 6).all fun d => pstPasses d (s.flash.pst.getD d [])
    Leads .bootConfig s fun t => t.reg Obj.bootStage = (if ok = true then 4 else 8) ∧ t.reg Obj.fldState = 1 ∧
      (ok = false → t.mgt.reason = 2 ∧ Reports s t 0x1A04 .note uMgt)) ∧
  (s.reg Obj.bootStage = 4 → Leads .bootPower s fun t => t.reg Obj.bootStage = 5 ∧
      ∀ id ∈ bootWants s, bootReady s id = true → domRefusal s id dsOn = none → t.domState id = dsEntering) ∧
  (s.reg Obj.bootStage = 5 → Leads .bootPowerRetry s fun t => t.reg Obj.bootStage = 5 ∧
      ∀ id ∈ bootWants s, bootReady s id = true → domRefusal s id dsOn = none → t.domState id = dsEntering) ∧
  (s.reg Obj.bootStage = 5 → (∀ id ∈ bootWants s, s.domOn id = true) → Leads .bootMemory s fun t => t.reg Obj.bootStage = 6 ∧
      ∀ a, memByte t.mem a = if a < 0x040000000000 then memDefault a else memByte s.mem a) ∧
  (∀ ms : BitVec 32, s.reg Obj.bootStage = 6 → Leads (.bootReady ms) s fun t => t.reg Obj.bootStage = 7 ∧
      t.reg Obj.bootReadyMs = ms.toNat ∧ Reports s t 0x1A01 .note uMgt)

/-- Recovery, a staged record and the end of a warm restart (R439, R441, R446): requests on the ports of network B, blocks of an image,
an image taken or turned away, a record written or refused, and the management controller running its firmware again. -/
def Obligations.RecoveryCommandsComplete : Prop := ∀ s : State,
  (s.running = true → s.reg Obj.bootStage = 8 → s.reg Obj.bootRecovery ≠ 1 → Leads .recoverReqTimer s fun t =>
      t.outbox = s.outbox ++ (s.activePorts 1).map fun p => .recoverReq p (recoverValue s)) ∧
  (∀ (block : BitVec 32) (bytes : List Byte), s.running = true → s.reg Obj.bootStage = 8 → bytes.length ≤ 1024 →
    1024 * block.toNat + bytes.length ≤ recoveryBytes → Leads (.recoveryBlockRx block bytes) s fun t =>
      t.outbox = s.outbox ++ [.recoverAnswer block.toNat 0x87 stOk] ∧
      (∀ i, i < bytes.length → smGet dRec t.mgt.recovery (1024 * block.toNat + i) = bytes.getD i 0) ∧
      ∀ a, a < 1024 * block.toNat ∨ 1024 * block.toNat + bytes.length ≤ a → smGet dRec t.mgt.recovery a = smGet dRec s.mgt.recovery a) ∧
  (∀ tag len : BitVec 32, s.running = true → s.reg Obj.bootStage = 8 → len.toNat ≤ recoveryBytes → s.reg Obj.bootRecovery = 0 →
    Leads (.recoverGoRx tag len) s fun t =>
      t.reg Obj.bootRecovery = (if firmwareOk (recoveryImage s len.toNat) true = true then 1 else 0) ∧
      t.outbox = s.outbox ++ [.recoverAnswer tag.toNat 0x88 (if firmwareOk (recoveryImage s len.toNat) true = true then stOk else stAuth)]) ∧
  (∀ b, s.mgt.record = some b →
    let kind := blockFld b 6 1
    let ok := (kind == 1 || kind == 2) && recordPasses s kind b && decide (s.reg (if kind = 1 then Obj.cfgFactorySeq else Obj.cfgOwnerSeq) < cfgSeq b)
    Leads .cfgRecordDone s fun t => t.mgt.record = none ∧ t.reg Obj.cfgState = (if ok = true then 3 else 4) ∧
      (ok = true → b ∈ (if kind = 1 then t.flash.factory else t.flash.owner)) ∧
      (ok = false → t.flash = s.flash ∧ Reports s t 0x1A06 .note uMgt)) ∧
  (s.mgt.restarting = true → Leads .warmRestartDone s fun t => t.reg Obj.fwState = 0) ∧
  (s.mgt.restarting = true → bestRecord s 1 s.flash.factory = none → Leads .warmRestartDone s fun t => t.mgt.restarting = false ∧ t.log.holding = false ∧
      t.log.held = [] ∧ t.reg Obj.fwState = 0 ∧ t.reg Obj.bootWarm = min (s.reg Obj.bootWarm + 1) (2 ^ 32 - 1) ∧
      t.reg Obj.idFwVersion = firmwareVersion s.flash.firmware ∧ t.mgt.faults = [] ∧
      ∀ core ∈ s.mgt.faults, core < 256 → bitOf (t.reg Obj.resFencedMap) core = true)

/-- A plain write of an object (R424): an ordinary object of its size, in its range and of a stopped unit where it needs one takes the
value; an absent object, one that is read only, one that only a signed write changes, and a value of another length are refused. -/
def Obligations.RegisterWriteCompletes : Prop := ∀ (s : State) (q : Req) (index : BitVec 16) (sub : BitVec 8) (bytes : List Byte),
  let key := ob index.toNat sub.toNat
  s.takesWrite q key = true →
  (∀ d, objThere s key = some d → readOnly d = false → key ∉ signedOnly → bytes.length = d.size → key ≠ Obj.secOwnerKey →
    valueBad d key (leNat bytes) = none → (d.acc ≠ .rws ∨ unitStopped s key = true) →
    ((ownWrites ++ ownWrites2).find? fun p => p.1 == key).isNone = true → (familyWrite key (leNat bytes) s).isNone = true →
    Leads (.registerWrite q (.plain index sub bytes)) s fun t => t.reg (valueKey s key) = leNat bytes ∧ Answers t q 2 key stOk ∧
      ∀ k, k ≠ valueKey s key → k ≠ Obj.mgtRequests → t.reg k = s.reg k) ∧
  (objThere s key = none → sub.toNat ≠ 0 → Leads (.registerWrite q (.plain index sub bytes)) s fun t => Answers t q 2 key stNoObject ∧
      ∀ k, k ≠ Obj.mgtRequests → t.reg k = s.reg k) ∧
  (∀ d, objThere s key = some d → readOnly d = true → Leads (.registerWrite q (.plain index sub bytes)) s fun t =>
      Answers t q 2 key stAccess ∧ ∀ k, k ≠ Obj.mgtRequests → t.reg k = s.reg k) ∧
  (∀ d, objThere s key = some d → readOnly d = false → key ∈ signedOnly → Leads (.registerWrite q (.plain index sub bytes)) s fun t =>
      Answers t q 2 key stAuth ∧ ∀ k, k ≠ Obj.mgtRequests → t.reg k = s.reg k) ∧
  (∀ d, objThere s key = some d → readOnly d = false → key ∉ signedOnly → bytes.length ≠ d.size →
    Leads (.registerWrite q (.plain index sub bytes)) s fun t => Answers t q 2 key stLength ∧
      ∀ k, k ≠ Obj.mgtRequests → t.reg k = s.reg k)

/-- Objects with rules of their own that plain requests reach (R93, R172, R186, R431, R434, R465): the seed while every cluster is idle, the
acknowledgement of an alert, the enrolment of an owner key over the field network, and the debug and log reads: a read of pairs that an
entry still writes is held, and the segment store is never read. -/
def Obligations.DictionaryCommandsComplete : Prop := ∀ (s : State) (q : Req),
  (∀ v : BitVec 128, s.takesWrite q Obj.rngSeed = true → noRole s = true → s.reg Obj.ckptState ≠ 1 → s.reg Obj.ckptRestoreState ≠ 1 →
    Leads (.rngSeedWrite q v) s fun t => t.reg Obj.rngSeed = v.toNat ∧ t.reg Obj.rngSeedSet = 1 ∧ Answers t q 2 Obj.rngSeed stOk) ∧
  (s.takesWrite q Obj.modAlertAck = true → Leads (.alertAckWrite q 1) s fun t => t.log.alert = false ∧ t.reg Obj.modAlertSeq = 0 ∧
      t.log.ring = s.log.ring ∧ Answers t q 2 Obj.modAlertAck stOk) ∧
  (∀ (index : BitVec 16) (sub : BitVec 8) (bytes : List Byte), q.path = .field → s.takesWrite q Obj.secOwnerKey = true →
    s.reg Obj.secOwnerKey = 0 → bytes.length = 133 →
    Leads (.secOwnerKeyWrite q (.plain index sub bytes)) s fun t => t.reg Obj.secOwnerKey = leNat bytes ∧
      t.mgt.regCfg = sha512 (s.mgt.regCfg ++ sha512 (leBytes 133 (leNat bytes))) ∧ Answers t q 2 Obj.secOwnerKey stOk ∧
      Reports s t 0x9A02 .note uMgt) ∧
  (s.takes q 1 Obj.dbgAccRead = true → s.reg Obj.dbgMode = 1 → accBusy s (s.reg Obj.dbgAccSel) = false → Leads (.dbgAccRead q) s fun t =>
      let p := accSelected (s.reg Obj.dbgAccSel)
      Answers t q 1 Obj.dbgAccRead stOk ((List.range 8).flatMap fun i => leBytes 8 (smGet zeroWord (s.core p.1).acc (p.2 + i))) ∧
      t.reg Obj.dbgReads = min (s.reg Obj.dbgReads + 1) (2 ^ 32 - 1)) ∧
  (s.reg Obj.dbgMode = 1 → accBusy s (s.reg Obj.dbgAccSel) = true → Leads (.dbgAccRead q) s fun t => t.outbox = s.outbox ∧
      t.mgt.heldReads = s.mgt.heldReads ++ [(q, s.reg Obj.dbgAccSel)] ∧ t.reg Obj.dbgReads = s.reg Obj.dbgReads) ∧
  (s.takes q 1 Obj.dbgAccRead = true → s.reg Obj.dbgMode = 0 → Leads (.dbgAccRead q) s fun t =>
      Answers t q 1 Obj.dbgAccRead stState ∧ t.reg Obj.dbgReads = s.reg Obj.dbgReads) ∧
  (s.takes q 1 Obj.dbgSpillRead = true → s.reg Obj.dbgMode = 1 → bitsOf (s.reg Obj.dbgSpillSel) 0 28 < 0x70000 →
    Leads (.dbgSpillRead q) s fun t => Answers t q 1 Obj.dbgSpillRead stOk
        (leBytes 64 (sramRead (s.cluster (bitsOf (s.reg Obj.dbgSpillSel) 28 4)).sram (64 * bitsOf (s.reg Obj.dbgSpillSel) 0 28) 64)) ∧
      t.reg Obj.dbgReads = min (s.reg Obj.dbgReads + 1) (2 ^ 32 - 1)) ∧
  (s.takes q 1 Obj.dbgSpillRead = true → s.reg Obj.dbgMode = 1 → 0x70000 ≤ bitsOf (s.reg Obj.dbgSpillSel) 0 28 →
    Leads (.dbgSpillRead q) s fun t => Answers t q 1 Obj.dbgSpillRead stRange ∧ t.reg Obj.dbgReads = s.reg Obj.dbgReads) ∧
  (∀ v, s.takes q 1 Obj.logRead = true → logPair s = some v → Leads (.logRead q) s fun t => Answers t q 1 Obj.logRead stOk v ∧
      t.log = s.log) ∧
  (s.takes q 1 Obj.logRead = true → logPair s = none → Leads (.logRead q) s fun t => Answers t q 1 Obj.logRead stRange ∧ t.log = s.log)

/-- Signed commands (R434, R435, R439, R445–R447): a block whose four checks pass advances the nonce and has its object's effect; one
whose checks fail is answered AUTH and counted, and changes no other object. -/
def Obligations.SignedCommandsComplete : Prop := ∀ (s : State) (q : Req) (b : List Byte) (key : Nat) (d : ObjDesc),
  blockKey b = key → s.takes q 3 key = true → 0x20 ≤ b.length → b.length = 0x20 + pad8 (blockVlen b) + 132 → objThere s key = some d →
  blockVlen b = d.size → valueBad d key (blockFld b 0x20 d.size) = none →
  let v := blockFld b 0x20 d.size
  let done (t : State) (effect : Prop) : Prop := if blockOk s b = true then
      t.reg Obj.secNonce = (s.reg Obj.secNonce + 1) % 2 ^ 64 ∧ Answers t q 3 key stOk ∧ effect
    else Answers t q 3 key stAuth ∧ t.reg Obj.secAuthFails = min (s.reg Obj.secAuthFails + 1) (2 ^ 32 - 1) ∧
      ∀ k, k ∉ [Obj.secAuthFails, Obj.mgtRequests, Obj.modAlertSeq] → t.reg k = s.reg k
  (key = Obj.secOwnerKey → Leads (.secOwnerKeyWrite q (.signed b)) s fun t => done t (t.reg Obj.secOwnerKey = v)) ∧
  (key = Obj.secOwnerRelease → v = s.reg Obj.idSerial → Leads (.secOwnerRelease q b) s fun t =>
      done t (t.reg Obj.secOwnerKey = 0 ∧ t.reg Obj.dbgMode = 0)) ∧
  (key = Obj.secMinSvn → s.reg Obj.secMinSvn ≤ v → v ≤ s.reg Obj.idFwSvn → Leads (.secMinSvnWrite q b) s fun t =>
      done t (t.reg Obj.secMinSvn = v)) ∧
  (key = Obj.dbgEnter → v = 1 → Leads (.dbgEnter q b) s fun t => done t (t.reg Obj.dbgMode = 1 ∧ t.mgt.debugSince = true ∧
      t.reg Obj.dbgEntries = min (s.reg Obj.dbgEntries + 1) (2 ^ 32 - 1))) ∧
  (key = Obj.cfgWrite → flashBusy s = false → Leads (.cfgWrite q b) s fun t => done t (t.reg Obj.cfgState = 1 ∧
      t.mgt.record = some (if v ≤ 65536 then stagedBytes s [0, 1] (s.reg Obj.cfgStageAddr) v else []))) ∧
  (key = Obj.fwCommit → v = 1 → flashBusy s = false → s.reg Obj.fwState = 2 → Leads (.fwCommitFlash q b) s fun t =>
      done t (t.reg Obj.fwState = 4 ∧ t.mgt.flashing = some (s.mgt.verified, false))) ∧
  (key = Obj.fwCommit → v = 2 → flashBusy s = false → s.reg Obj.fwState = 2 → Leads (.fwCommitRestart q b) s fun t =>
      done t (t.reg Obj.fwState = 4 ∧ t.mgt.flashing = some (s.mgt.verified, true)))

/-- The security engine's other commands (R444–R446): debug mode left, a report asked for and ready, a staged image checked, flash
written, and a warm restart begun. -/
def Obligations.SecurityCommandsComplete : Prop := ∀ s : State,
  (∀ q : Req, s.takesWrite q Obj.dbgExit = true → s.reg Obj.dbgMode ≠ 0 → Leads (.dbgExit q 1) s fun t => t.reg Obj.dbgMode = 0 ∧
      t.mgt.regDbg = sha512 (s.mgt.regDbg ++ (leBytes 2 0xFA02 ++ leBytes 8 s.beat)) ∧ Answers t q 2 Obj.dbgExit stOk ∧
      Reports s t 0xFA02 .note uMgt) ∧
  (∀ (q : Req) (nonce : BitVec 512), s.takesWrite q Obj.secAttestNonce = true → Leads (.attestNonceWrite q nonce) s fun t =>
      t.mgt.building = some (reportBody s nonce.toNat) ∧ t.reg Obj.secAttestState = 1 ∧ t.reg Obj.secAttestLen = 0 ∧
      Answers t q 2 Obj.secAttestNonce stOk) ∧
  (∀ (sig : BitVec 1056) (b : List Byte), s.mgt.building = some b → Leads (.attestReportReady sig) s fun t => t.mgt.building = none ∧
      t.mgt.report = b ++ leBytes 132 sig.toNat ∧ t.reg Obj.secAttestState = 2 ∧ t.reg Obj.secAttestLen = (b.length + 132) % 2 ^ 32) ∧
  (∀ q : Req, s.takesWrite q Obj.fwVerify = true → s.reg Obj.fwState ∉ [1, 4, 5] → Leads (.fwVerify q 1) s fun t =>
      t.reg Obj.fwState = 1 ∧ Answers t q 2 Obj.fwVerify stOk) ∧
  (s.reg Obj.fwState = 1 → s.running = true →
    let b := stagedBytes s [1] (s.reg Obj.fwStageAddr) (s.reg Obj.fwStageLen)
    let ok := firmwareOk b false && decide (s.reg Obj.secMinSvn ≤ firmwareSvn b)
    Leads .fwVerifyDone s fun t => t.reg Obj.fwState = (if ok = true then 2 else 3) ∧ (ok = true → t.mgt.verified = b) ∧
      (ok = false → Reports s t 0x1A06 .note uMgt)) ∧
  (∀ image restart, s.mgt.flashing = some (image, restart) → Leads .fwFlashDone s fun t => t.flash.firmware = image ∧
      t.mgt.flashing = none ∧ t.reg Obj.fwState = if restart = true then 5 else 0) ∧
  (s.running = true → s.reg Obj.fwState = 5 → s.mgt.restarting = false → s.reg Obj.ckptState = 0 → s.reg Obj.ckptRestoreState ≠ 1 →
    s.held .rebuild = false → Leads .warmRestartStart s fun t => t.mgt.restarting = true ∧ t.log.holding = true)

/-- A core fault by request or by a hang (R375): the step-abort 0x8A10, the core in `RES.FENCED_MAP`, its streams disarmed and its domain
OFF, `SCHED.CL_FENCED` of a cluster that had no fenced core, and 0x8A11; during a warm restart the core stops and its fence waits (R448);
a core already fenced, or waiting for its fence, has no fault to take; a number past the last core is RANGE; a core whose next entry
cannot start does not hang, nor does one before `RES.HANG_BEATS` beats from its earliest beat. -/
def Obligations.CoreFaultCompletes : Prop := ∀ s : State,
  (∀ (q : Req) (v : BitVec 16), s.takesWrite q Obj.resFenceReq = true → v.toNat < 256 →
    (s.coreFenced v.toNat = false → v.toNat ∉ s.mgt.faults → Leads (.resFenceReqWrite q v) s fun t =>
      CoreTaken s t v.toNat ∧ Answers t q 2 Obj.resFenceReq stOk) ∧
    (s.coreFenced v.toNat = true ∨ v.toNat ∈ s.mgt.faults → Leads (.resFenceReqWrite q v) s fun t =>
      t.reg Obj.resFencedMap = s.reg Obj.resFencedMap ∧ t.log.ring = s.log.ring ∧ t.cores = s.cores ∧ Answers t q 2 Obj.resFenceReq stOk)) ∧
  (∀ (q : Req) (v : BitVec 16), s.takesWrite q Obj.resFenceReq = true → 256 ≤ v.toNat →
    Leads (.resFenceReqWrite q v) s fun t => Answers t q 2 Obj.resFenceReq stRange ∧ t.reg Obj.resFencedMap = s.reg Obj.resFencedMap) ∧
  (∀ core : Fin 256,
    (s.running = true → headReady s core = true → hangBeat s core ≤ s.beat → s.coreFenced core = false → core.val ∉ s.mgt.faults →
      (s.mgt.restarting = false → Leads (.coreHangTimeout core) s fun t => CoreTaken s t core) ∧
      (s.mgt.restarting = true → Leads (.coreHangTimeout core) s fun t => CoreStopped s t core)) ∧
    (s.running = false ∨ headReady s core = false ∨ s.beat < hangBeat s core ∨ s.coreFenced core = true ∨ core.val ∈ s.mgt.faults →
      Leads (.coreHangTimeout core) s fun t => t = s))

/-- A core's test and its unfence (R377): the test's start and its result, after which the domain is OFF; an unfence at once where the
cluster has no role, else at its step boundary; both refused as the rules say. -/
def Obligations.CoreRepairCompletes : Prop := ∀ s : State,
  (∀ q : Req, s.takesWrite q Obj.resCoreTest = true → s.reg Obj.resCoreSel < 256 → testAllowed s (s.reg Obj.resCoreSel) = true →
    Leads (.resCoreTestWrite q 1) s fun t => t.ckpt.testing = some (s.reg Obj.resCoreSel) ∧ t.reg Obj.resTestResult = 1 ∧
      t.domState (domCore (s.reg Obj.resCoreSel)) = dsOn ∧ Answers t q 2 Obj.resCoreTest stOk) ∧
  (∀ q : Req, s.takesWrite q Obj.resCoreTest = true → testAllowed s (s.reg Obj.resCoreSel) = false →
    Leads (.resCoreTestWrite q 1) s fun t => t.ckpt = s.ckpt ∧ t.reg Obj.resTestResult = s.reg Obj.resTestResult ∧
      Answers t q 2 Obj.resCoreTest stState) ∧
  (∀ (pass : Bool) (core : Nat), s.ckpt.testing = some core → core < 256 → Leads (.coreTestDone pass) s fun t =>
      t.ckpt.testing = none ∧ t.reg Obj.resTestResult = (if pass then 2 else 3) ∧ t.domState (domCore core) = dsOff ∧
      (core ∈ t.ckpt.passed ↔ pass = true) ∧ (pass = false → Reports s t 0x8A13 .note (uCore core))) ∧
  (∀ q : Req, s.takesWrite q Obj.resUnfence = true → unfenceRefused s (s.reg Obj.resCoreSel) = false →
    s.role (clusterOf (s.reg Obj.resCoreSel)) = 0 → Leads (.resUnfenceWrite q 1) s fun t =>
      bitOf (t.reg Obj.resFencedMap) (s.reg Obj.resCoreSel) = false ∧ s.reg Obj.resCoreSel ∉ t.ckpt.passed ∧
      Reports s t 0x8A12 .note (uCore (s.reg Obj.resCoreSel)) ∧ Answers t q 2 Obj.resUnfence stOk) ∧
  (∀ q : Req, s.takesWrite q Obj.resUnfence = true → unfenceRefused s (s.reg Obj.resCoreSel) = false →
    s.role (clusterOf (s.reg Obj.resCoreSel)) ≠ 0 → Leads (.resUnfenceWrite q 1) s fun t =>
      (t.cluster (clusterOf (s.reg Obj.resCoreSel))).unfence = some (s.reg Obj.resCoreSel) ∧
      t.reg Obj.resFencedMap = s.reg Obj.resFencedMap ∧ Answers t q 2 Obj.resUnfence stOk) ∧
  (∀ q : Req, s.takesWrite q Obj.resUnfence = true → unfenceRefused s (s.reg Obj.resCoreSel) = true →
    Leads (.resUnfenceWrite q 1) s fun t => t.reg Obj.resFencedMap = s.reg Obj.resFencedMap ∧
      Reports s t 0x8A13 .note (uCore (s.reg Obj.resCoreSel)) ∧ Answers t q 2 Obj.resUnfence stState) ∧
  (∀ (cl : Fin 16) (core : Nat), (s.cluster cl).unfence = some core → core < 256 → s.groupAtBoundary (s.role cl) = true →
    Leads (.coreUnfenceApply cl) s fun t => bitOf (t.reg Obj.resFencedMap) core = false ∧ (t.cluster cl).unfence = none ∧
      core ∉ t.ckpt.passed ∧ Reports s t 0x8A12 .note (uCore core))

/-- A fatal fault (R17, R373, R388): on EW nothing is reachable any more; on another die the machine stops with the ledger frozen, and
where it is a compute die 0x8A20 names it; on EE its Ethernet ports go DOWN. -/
def Obligations.FatalFaultCompletes : Prop := ∀ s : State, s.running = true →
  (Leads (.fatalFault 4) s fun t => t.dead = true ∧ t.stopped = true ∧ t.pins.fatalLatch = true ∧ ∀ p, t.serving p = false) ∧
  (∀ die : Fin 6, die.val < 4 → Leads (.fatalFault die) s fun t => t.stopped = true ∧ t.dead = s.dead ∧ t.ledger.frozen = true ∧
      (s.ledger.frozen = false → t.ledger.fatalDie = die.val ∧ t.ledger.phase = s.ledger.phase ∧ t.ledger.step = s.ledger.step) ∧
      (s.ledger.frozen = true → t.ledger = s.ledger) ∧ t.pins.fatalLatch = true ∧ Reports s t 0x8A20 .fatal (uDie die)) ∧
  (Leads (.fatalFault 5) s fun t => t.stopped = true ∧ t.ledger.frozen = true ∧ (s.ledger.frozen = false → t.ledger.fatalDie = 5) ∧
      t.pins.fatalLatch = true ∧ ∀ p ∈ [2, 3, 6, 7], s.reg (Obj.ethPState p) ≠ 0 → t.reg (Obj.ethPState p) = 3)

/-- When a checkpoint falls due (R381): at the end of its interval, or when software asks; a failure notice is counted, and a reset of
the observed MTBF leaves the prior alone. -/
def Obligations.CheckpointDueCompletes : Prop := ∀ s : State,
  (s.running = true → s.stopped = false → s.mgt.restarting = false → s.reg Obj.ckptMode ≠ 2 →
    s.ckpt.lastEnd + 1000000 * intervalS s ≤ s.beat → Leads .ckptIntervalExpired s fun t => t.ckpt.due = true ∧ ∀ k, t.reg k = s.reg k) ∧
  (∀ q : Req, s.takesWrite q Obj.ckptRequest = true → Leads (.ckptRequestWrite q 1) s fun t => t.ckpt.due = true ∧
      Answers t q 2 Obj.ckptRequest stOk) ∧
  (∀ q : Req, s.takesWrite q Obj.resFailNotice = true → Leads (.resFailNoticeWrite q 1) s fun t => t.ckpt.notices = s.ckpt.notices + 1 ∧
      Answers t q 2 Obj.resFailNotice stOk) ∧
  (∀ q : Req, s.takesWrite q Obj.resMtbfReset = true → Leads (.resMtbfResetWrite q 1) s fun t => t.ckpt.notices = 0 ∧
      mtbf t = s.reg Obj.resMtbfPrior ∧ Answers t q 2 Obj.resMtbfReset stOk)

/-- The checkpoint stop (R383, R384): it begins where every region translates and the image fits, and is abandoned otherwise; its end
gives the image the next generation and starts the drain. -/
def Obligations.CheckpointStopCompletes : Prop := ∀ s : State, s.running = true → s.stopped = false →
  (stopPending s = true → s.reg Obj.ckptState ≠ 1 → s.allAtBoundary = true → s.mem.retire = none →
    (∀ rs, sampleRegions s (validEntries s) = some rs → manifestBytes s ≤ s.reg Obj.ckptT1Len → manifestBytes s ≤ s.reg Obj.ckptT3SlotLen →
      Leads .ckptStopBegin s fun t => t.reg Obj.ckptState = 1 ∧ t.ckpt.regions = rs ∧ t.ckpt.bytes = manifestBytes s ∧
        t.held .checkpoint = true ∧ Reports s t 0x8A01 .note uMgt) ∧
    (sampleRegions s (validEntries s) = none ∨ s.reg Obj.ckptT1Len < manifestBytes s ∨ s.reg Obj.ckptT3SlotLen < manifestBytes s →
      Leads .ckptStopBegin s fun t => t.reg Obj.ckptState = 0 ∧ t.ckpt.due = false ∧ t.held .checkpoint = false ∧
        t.reg Obj.ckptGen = s.reg Obj.ckptGen)) ∧
  (∀ sig : BitVec 1056, s.reg Obj.ckptState = 1 → Leads (.ckptStopEnd sig) s fun t =>
      t.reg Obj.ckptGen = (s.reg Obj.ckptGen + 1) % 2 ^ 64 ∧ t.reg Obj.ckptLastBytes = s.ckpt.bytes % 2 ^ 64 ∧ t.ckpt.due = false ∧
      t.ckpt.lastEnd = s.beat ∧ t.held .checkpoint = false ∧ (t.reg Obj.ckptState = 0 ∨ t.reg Obj.ckptState = 2))

/-- The header is what makes an image (R379, R383): once a stop ends, MAGIC, GENERATION and the image's bytes stand at the head of the T1
area, where the T3 slot that loses its header (R385) does not overlap it. -/
def Obligations.CheckpointHeaderWritten : Prop := ∀ (s : State) (sig : BitVec 1056), s.running = true → s.stopped = false →
  s.reg Obj.ckptState = 1 → s.rill.held = [] → Memory.wf s.mem = true →
  let slot := s.reg Obj.ckptT3Base + slotOffset s (s.reg Obj.ckptGen + 1)
  s.reg Obj.ckptT3Base = 0 ∨ s.reg Obj.ckptT1Base + 0x200 ≤ slot ∨ slot + 0x200 ≤ s.reg Obj.ckptT1Base →
  Leads (.ckptStopEnd sig) s fun t =>
    memRead t.mem (s.reg Obj.ckptT1Base) 4 = 0x5844434B ∧
    memRead t.mem (s.reg Obj.ckptT1Base + 0x38) 8 = (s.reg Obj.ckptGen + 1) % 2 ^ 64 ∧
    memRead t.mem (s.reg Obj.ckptT1Base + 0x40) 8 = s.ckpt.bytes % 2 ^ 64

/-- The drain (R385–R387): a target whose image is whole is done, T3 with the image's bytes; a target that the limit finds running has
failed. -/
def Obligations.CheckpointDrainCompletes : Prop := ∀ s : State, s.stopped = false →
  (∀ t : Fin 3, s.running = true → s.drainOf t = 1 → targetFull s t = true → Leads (.ckptDrainTargetDone t) s fun u => u.drainOf t = 2) ∧
  (∀ a b len, s.running = true → s.drainOf 0 = 1 → s.reg Obj.ckptT1Base = a → s.reg Obj.ckptT3Base + slotOffset s s.ckpt.draining = b →
    s.ckpt.bytes = len → (a + len ≤ b ∨ b + len ≤ a) → Memory.wf s.mem = true → Leads (.ckptDrainTargetDone 0) s fun u =>
      (∀ i, i < len → memByte u.mem (b + i) = memByte s.mem (a + i)) ∧ ∀ x, x < b ∨ b + len ≤ x → memByte u.mem x = memByte s.mem x) ∧
  (∀ t : Fin 3, s.ckpt.lastEnd + 1000000 * s.reg Obj.ckptDrainLimitS ≤ s.beat → s.drainOf t = 1 →
    Leads (.ckptDrainTimeout t) s fun u => u.drainOf t = 3 ∧ Reports s u 0x8A04 .note uDevice)

/-- Restore and serve (R391–R394): a restore starts from the image that passes the six checks, or says which one failed; it is refused
while a cluster has a role; its end puts the header's values in force. A partner's copy is served, and its serving ends. -/
def Obligations.RestoreAndServeComplete : Prop := ∀ (s : State) (q : Req),
  (∀ p ∈ [(Instr.ckptRestoreT1 q, t1Image s), (Instr.ckptRestoreT3 q, t3Image s)], s.takesWrite q Obj.ckptRestore = true →
    (restoreAllowed s = true → restoreReason s p.2 = 0 → Leads p.1 s fun t => t.ckpt.restore = some p.2.at_ ∧ t.reg Obj.ckptRestoreState = 1 ∧
      t.reg Obj.ckptRestoreReason = 0 ∧ Answers t q 2 Obj.ckptRestore stOk) ∧
    (restoreAllowed s = true → restoreReason s p.2 ≠ 0 → Leads p.1 s fun t => t.ckpt.restore = none ∧ t.reg Obj.ckptRestoreState = 3 ∧
      t.reg Obj.ckptRestoreReason = restoreReason s p.2 ∧ Reports s t 0x8A09 .note uMgt ∧ Answers t q 2 Obj.ckptRestore stOk) ∧
    (restoreAllowed s = false → Leads p.1 s fun t => t.ckpt = s.ckpt ∧ t.reg Obj.ckptRestoreState = s.reg Obj.ckptRestoreState ∧
      Answers t q 2 Obj.ckptRestore stState)) ∧
  (∀ a, s.running = true → s.stopped = false → s.ckpt.restore = some a → Leads .ckptRestoreDone s fun t => t.ckpt.restore = none ∧
      t.reg Obj.ckptRestoreState = 2 ∧ Reports s t 0x8A08 .note uMgt ∧ t.reg Obj.stepBank = 0 ∧
      (validEntries s = [] → t.reg Obj.ckptGen = memRead s.mem (a + 0x38) 8 ∧ t.reg Obj.rngSeed = memRead s.mem (a + 0x28) 16)) ∧
  (∀ k, s.takesWrite q Obj.ckptServe = true → bestSlot s (s.reg Obj.ckptPinBase + 64) = some k → s.ckpt.serving = none → s.stopped = false →
    s.qpState (s.reg Obj.ckptServeQp) = 1 → Leads (.ckptServeWrite q 1) s fun t => t.ckpt.serving = some k ∧
      Answers t q 2 Obj.ckptServe stOk) ∧
  (s.takesWrite q Obj.ckptServe = true → bestSlot s (s.reg Obj.ckptPinBase + 64) = none → Leads (.ckptServeWrite q 1) s fun t =>
      t.ckpt.serving = s.ckpt.serving ∧ Answers t q 2 Obj.ckptServe stState) ∧
  (s.ckpt.serving.isSome = true → s.ckpt.heads.contains 3 = true → outstanding s .serve = false → Leads .ckptServeDone s fun t =>
      t.ckpt.serving = none)

/-- Mailboxes (R363–R368): a host's write of a message into a port with room, a full port, its consumer indices, doorbell clears and
masks; what a sequencer and the management controller take; and what the management controller sends. -/
def Obligations.MailboxCommandsComplete : Prop := ∀ s : State,
  (∀ (h : RoceHdr) (key : BitVec 32) (e : Fin 16) (i : Nat), rxQp s h = some i → seqPos s i h = .due → (s.qp i).wr = none →
    s.reg Obj.mbxRkey ≠ 0 → key.toNat = s.reg Obj.mbxRkey → boundTo s e i = true →
    (∀ (j : Fin 18) (bytes : List Byte), bytes.length = 64 → (j.val = 1 → s.epSecure e = true) → typeOk j (leNat (bytes.take 1)) = true →
      let k := chanKey (epHost e) (portReceiver j) (j.val == 1)
      ((s.chan k).full = false → Leads (.mbxPortWrite h key e j 0 bytes) s fun t =>
        t.chan k = { s.chan k with w := ((s.chan k).w + 1) % 2 ^ 32,
                                   msgs := (s.chan k).msgs ++ [stamp (epHost e) (j.val == 1) (s.chan k).w bytes] } ∧
        bitOf (t.dbPending (portReceiver j)) (msgDbell bytes) = true ∧ (t.qp i).recvPsn = ((s.qp i).recvPsn + 1) % 2 ^ 24) ∧
      ((s.chan k).full = true → Leads (.mbxPortWrite h key e j 0 bytes) s fun t => t.chan k = s.chan k ∧
        t.reg Obj.mbxFullWrites = min (s.reg Obj.mbxFullWrites + 1) (2 ^ 32 - 1) ∧ t.qpState i = 2)) ∧
    (∀ (j : Fin 18) (v : BitVec 32), Leads (.mbxConsWrite h key e j v) s fun t => t.consOf e j = v.toNat ∧
      (t.qp i).recvPsn = ((s.qp i).recvPsn + 1) % 2 ^ 24) ∧
    (∀ v : BitVec 32, Leads (.mbxDbClearWrite h key e v) s fun t =>
      t.dbPending (epHost e) = s.dbPending (epHost e) &&& (2 ^ 32 - 1 - v.toNat)) ∧
    (∀ v : BitVec 32, Leads (.mbxDbMaskWrite (.host h key e) v) s fun t => t.dbMask (epHost e) = v.toNat)) ∧
  (∀ (q : Req) (v : BitVec 32), s.takesWrite q Obj.mbxMcDbMask = true → Leads (.mbxDbMaskWrite (.mc q) v) s fun t =>
      t.dbMask epMc = v.toNat ∧ Answers t q 2 Obj.mbxMcDbMask stOk) ∧
  (∀ (q : Req) (cl : Fin 16) (v : BitVec 32), s.takesWrite q (Obj.mbxSqDbMask cl) = true → Leads (.mbxDbMaskWrite (.seq q cl) v) s fun t =>
      t.dbMask (epSeq cl) = v.toNat ∧ Answers t q 2 (Obj.mbxSqDbMask cl) stOk) ∧
  (∀ cl : Fin 16, s.running = true → s.notified (epSeq cl) = true → s.reg Obj.ckptState ≠ 1 →
    Leads (.sequencerMailboxTake cl) s fun t => ∀ c ∈ seqChans, (t.chan (chanKey c.1 (epSeq cl) c.2)).msgs =
      (s.chan (chanKey c.1 (epSeq cl) c.2)).msgs.drop (takable (s.dbMask (epSeq cl)) (s.chan (chanKey c.1 (epSeq cl) c.2))).length) ∧
  (s.running = true → s.notified epMc = true → s.mgt.restarting = false → Leads .mcMailboxService s fun t => ∀ c ∈ mcChans,
      (t.chan (chanKey c.1 epMc c.2)).msgs =
        (s.chan (chanKey c.1 epMc c.2)).msgs.drop (takable (s.dbMask epMc) (s.chan (chanKey c.1 epMc c.2))).length) ∧
  (s.running = true → s.mgt.restarting = false → ∀ (dest : Fin 32) (secure : Bool) (msg : BitVec 512),
    (dest.val < 16 → (s.chan (chanKey epMc (epSeq dest) false)).full = false → Leads (.mcMailboxSend dest secure msg) s fun t =>
      (t.chan (chanKey epMc (epSeq dest) false)).msgs = (s.chan (chanKey epMc (epSeq dest) false)).msgs ++
        [stamp epMc false (s.chan (chanKey epMc (epSeq dest) false)).w (leBytes 64 msg.toNat)] ∧
      bitOf (t.dbPending (epSeq dest)) (msgDbell (leBytes 64 msg.toNat)) = true) ∧
    (dest.val < 16 → (s.chan (chanKey epMc (epSeq dest) false)).full = true → Leads (.mcMailboxSend dest secure msg) s fun t =>
      t.reg Obj.mbxFullWrites = min (s.reg Obj.mbxFullWrites + 1) (2 ^ 32 - 1) ∧ Reports s t 0xAA01 .note (uCluster dest)) ∧
    (16 ≤ dest.val → s.hostExists (dest.val - 16) = true → s.reg Obj.mbxRkey ≠ 0 → s.qpState (s.reg (Obj.mbxEpQp (dest.val - 16))) = 1 →
      s.hostFull (dest.val - 16) epMc secure = false → Leads (.mcMailboxSend dest secure msg) s fun t =>
      bitOf (t.dbPending (epHost (dest.val - 16))) (msgDbell (leBytes 64 msg.toNat)) = true ∧
      (t.qp (s.reg (Obj.mbxEpQp (dest.val - 16)))).out.length = (s.qp (s.reg (Obj.mbxEpQp (dest.val - 16)))).out.length + 1))

/-- The lengths of a step (R368): a LENGTHS message that names the cluster's next step gives its micro-batches their lengths; another is
counted and reported, and gives none. -/
def Obligations.LengthsMessageTaken : Prop := ∀ (s : State) (cl : Fin 16) (e : Fin 16) (m : List Byte), s.running = true →
  s.reg Obj.ckptState ≠ 1 → s.notified (epSeq cl) = true → bitOf (s.dbMask (epSeq cl)) (msgDbell m) = false →
  (s.chan (chanKey (epHost e) (epSeq cl) false)).msgs = [m] → msgType m = 1 →
  (∀ c ∈ seqChans, c.1 ≠ epHost e → (s.chan (chanKey c.1 (epSeq cl) c.2)).msgs = []) →
  (lengthsOk s cl (leNat m) = true → Leads (.sequencerMailboxTake cl) s fun t =>
    (∀ k, k < fld (leNat m) 0x12 1 → (t.cluster cl).length (fld (leNat m) 0x10 2 + k) = fld (leNat m) (0x14 + 4 * k) 4) ∧
    ∀ k, k < fld (leNat m) 0x10 2 ∨ fld (leNat m) 0x10 2 + fld (leNat m) 0x12 1 ≤ k → (t.cluster cl).length k = (s.cluster cl).length k) ∧
  (lengthsOk s cl (leNat m) = false → Leads (.sequencerMailboxTake cl) s fun t => t.clusters = s.clusters ∧
    t.reg Obj.mbxBadLengths = min (s.reg Obj.mbxBadLengths + 1) (2 ^ 32 - 1) ∧ Reports s t 0xAA03 .note (uCluster cl))

/-- The states of an Ethernet port (R352–R355): enabled and disabled by software, UP, DOWN, and back to TRAINING. -/
def Obligations.EthernetPortStatesComplete : Prop := ∀ (s : State) (p : Fin 8),
  (∀ q : Req, s.takesWrite q (Obj.ethPEnable p) = true → Leads (.ethPortEnable q p) s fun t => t.reg (Obj.ethPEnable p) = 1 ∧
      t.reg (Obj.ethPState p) = (if s.reg (Obj.ethPState p) = 4 then 1 else s.reg (Obj.ethPState p)) ∧
      Answers t q 2 (Obj.ethPEnable p) stOk) ∧
  (∀ q : Req, s.takesWrite q (Obj.ethPEnable p) = true → Leads (.ethPortDisable q p) s fun t => t.reg (Obj.ethPEnable p) = 0 ∧
      t.reg (Obj.ethPState p) = (if s.reg (Obj.ethPState p) = 0 then 0 else 4) ∧ Answers t q 2 (Obj.ethPEnable p) stOk) ∧
  (∀ sync, s.reg (Obj.ethPState p) = 1 → (s.lacp p = false ∨ sync = true ∨ (s.eth p).sync = true) → Leads (.ethLinkUp p sync) s fun t =>
      t.reg (Obj.ethPState p) = 2 ∧ (t.eth p).link = true ∧ Reports s t 0x7B03 .note (uEth p)) ∧
  (s.reg (Obj.ethPState p) = 1 → s.lacp p = true → (s.eth p).sync = false → Leads (.ethLinkUp p false) s fun t =>
      t.reg (Obj.ethPState p) = 1 ∧ (t.eth p).link = true) ∧
  (s.portUp p = true → Leads (.ethLinkDown p) s fun t => t.reg (Obj.ethPState p) = 3 ∧
      t.reg (Obj.ethPLinkDowns p) = min (s.reg (Obj.ethPLinkDowns p) + 1) (2 ^ 32 - 1)) ∧
  (s.reg (Obj.ethPState p) = 1 → Leads (.ethLinkDown p) s fun t => t.reg (Obj.ethPState p) = 1 ∧ t.eth p = {}) ∧
  (s.reg (Obj.ethPState p) = 1 → (s.eth p).link = false → Leads (.ethTrainingTimeout p) s fun t => t.reg (Obj.ethPState p) = 3 ∧
      t.eth p = {}) ∧
  ((s.eth p).link = true → Leads (.ethTrainingTimeout p) s fun t => t = s) ∧
  (s.reg (Obj.ethPState p) = 3 → Leads (.ethDownRetry p) s fun t => t.reg (Obj.ethPState p) = 1) ∧
  (s.lacp p = true → s.portUp p = true → Leads (.lacpPduRx p true) s fun t => t.reg (Obj.ethPState p) = 2 ∧ (t.eth p).sync = true) ∧
  (s.lacp p = true → s.portUp p = true → Leads (.lacpPduRx p false) s fun t => t.reg (Obj.ethPState p) = 3) ∧
  (s.lacp p = true → s.reg (Obj.ethPState p) = 1 → (s.eth p).link = true → Leads (.lacpPduRx p true) s fun t =>
      t.reg (Obj.ethPState p) = 2)

/-- What an UP port receives (R351): requests for the network's own address are answered and others are not, fragments are dropped and
counted, and a pause frame pauses the RoCE priority of the port. -/
def Obligations.EthernetFramesComplete : Prop := ∀ (s : State) (p : Fin 8), s.portUp p = true →
  let counted (t : State) : Prop := t.reg (Obj.ethPRxFrames p) = min (s.reg (Obj.ethPRxFrames p) + 1) (2 ^ 64 - 1)
  (∀ ip : BitVec 32, ip ≠ 0 → s.reg (Obj.ethNIpv4 (p.val / 4)) = ip.toNat → Leads (.arpRequestRx p ip) s fun t => counted t ∧
      t.outbox = s.outbox ++ [.arpReply p ip.toNat (s.reg (Obj.ethNMac (p.val / 4)))]) ∧
  (∀ ip : BitVec 32, s.reg (Obj.ethNIpv4 (p.val / 4)) ≠ ip.toNat → Leads (.arpRequestRx p ip) s fun t => counted t ∧
      t.outbox = s.outbox) ∧
  (∀ ip : BitVec 128, ip ≠ 0 → s.reg (Obj.ethNIpv6 (p.val / 4)) = ip.toNat → Leads (.neighbourSolicitRx p ip) s fun t => counted t ∧
      t.outbox = s.outbox ++ [.neighbourAdvert p ip.toNat (s.reg (Obj.ethNMac (p.val / 4)))]) ∧
  (∀ ip : BitVec 128, s.reg (Obj.ethNIpv6 (p.val / 4)) ≠ ip.toNat → Leads (.neighbourSolicitRx p ip) s fun t => counted t ∧
      t.outbox = s.outbox) ∧
  (∀ (v6 : Bool) (ip : BitVec 128) (payload : List Byte), ip ≠ 0 →
    s.reg (if v6 then Obj.ethNIpv6 (p.val / 4) else Obj.ethNIpv4 (p.val / 4)) = ip.toNat →
    Leads (.icmpEchoRx p v6 ip false payload) s fun t => counted t ∧ t.outbox = s.outbox ++ [.echoReply p payload]) ∧
  (∀ v6 ip payload, Leads (.icmpEchoRx p v6 ip true payload) s fun t => counted t ∧ t.outbox = s.outbox ∧
      t.reg (Obj.ethPDrops p) = min (s.reg (Obj.ethPDrops p) + 1) (2 ^ 64 - 1)) ∧
  (∀ (enable : BitVec 8) (quanta : BitVec 16), bitOf enable.toNat (s.reg (Obj.ethNRocePrio (p.val / 4))) = true →
    Leads (.pfcFrameRx p enable quanta) s fun t => (t.eth p).pause = s.beat + quantaBeats quanta.toNat ∧
      (quanta = 0 → (t.eth p).waiting = [])) ∧
  (∀ (enable : BitVec 8) (quanta : BitVec 16), bitOf enable.toNat (s.reg (Obj.ethNRocePrio (p.val / 4))) = false →
    Leads (.pfcFrameRx p enable quanta) s fun t => counted t ∧ t.net = s.net)

/-- Requests of a peer (R353, R354, R356–R358): a WRITE in its order reaches its region, whole or packet by packet; an access outside is
refused and ends the queue pair; a repeated packet changes no memory; a READ is answered with the region's bytes. -/
def Obligations.RoceRequestsComplete : Prop := ∀ (s : State) (h : RoceHdr) (i : Nat), rxQp s h = some i →
  let u := noteEcn (rxFrame s h.port) i h
  (∀ (a : RoceAddr) (bytes : List Byte), seqPos s i h = .due → inMailbox s a.va.toNat a.rkey.toNat = false → (s.qp i).wr = none →
    accessOk u (u.qpNet i) a.va.toNat a.len.toNat a.rkey.toNat true = true →
    (a.len.toNat = bytes.length → Leads (.roceWriteRx h (some a) true bytes) s fun t => t.mem = (vaStore u a.va.toNat bytes).mem ∧
      (t.qp i).recvPsn = ((s.qp i).recvPsn + 1) % 2 ^ 24 ∧ (t.qp i).wr = none ∧ t.qpState i = 1) ∧
    (bytes.length = 4096 → 4096 < a.len.toNat → vaOk u a.va.toNat 4096 true = true → epochLocked u a.va.toNat 4096 = false →
      Leads (.roceWriteRx h (some a) false bytes) s fun t => t.mem = (vaStore u a.va.toNat bytes).mem ∧
        (t.qp i).recvPsn = ((s.qp i).recvPsn + 1) % 2 ^ 24 ∧ (t.qp i).wr = some (a.va.toNat + 4096, a.len.toNat - 4096))) ∧
  (∀ (a : RoceAddr) (last : Bool) (bytes : List Byte), seqPos s i h = .due → inMailbox s a.va.toNat a.rkey.toNat = false →
    (s.qp i).wr = none → accessOk u (u.qpNet i) a.va.toNat a.len.toNat a.rkey.toNat true = false →
    Leads (.roceWriteRx h (some a) last bytes) s fun t => t.mem = s.mem ∧ (t.qp i).recvPsn = (s.qp i).recvPsn ∧ t.qpState i = 2 ∧
      t.reg Obj.roceAccessNaks = min (s.reg Obj.roceAccessNaks + 1) (2 ^ 32 - 1)) ∧
  (∀ (va : Nat) (bytes : List Byte), seqPos s i h = .due → (s.qp i).wr = some (va, bytes.length) → vaOk u va bytes.length true = true →
    epochLocked u va bytes.length = false → Leads (.roceWriteRx h none true bytes) s fun t => t.mem = (vaStore u va bytes).mem ∧
      (t.qp i).recvPsn = ((s.qp i).recvPsn + 1) % 2 ^ 24 ∧ (t.qp i).wr = none) ∧
  (∀ first last bytes, seqPos s i h ≠ .due → Leads (.roceWriteRx h first last bytes) s fun t => t.mem = s.mem ∧ t.qp i = s.qp i) ∧
  (∀ a : RoceAddr, seqPos s i h = .due → inMailbox s a.va.toNat a.rkey.toNat = false → (s.qp i).wr = none →
    let w := rxAdvance u i (packetCount a.len.toNat)
    accessOk w (w.qpNet i) a.va.toNat a.len.toNat a.rkey.toNat false = true → (vaLoad w a.va.toNat a.len.toNat).2 = false →
    s.qpPort i < 8 → (s.eth (s.qpPort i)).pause ≤ s.beat → Leads (.roceReadRx h a false) s fun t =>
      t.outbox.getLast? = some (.data i h.psn.toNat (vaLoad w a.va.toNat a.len.toNat).1) ∧
      (t.qp i).recvPsn = ((s.qp i).recvPsn + packetCount a.len.toNat) % 2 ^ 24) ∧
  (∀ (a : RoceAddr) (ue : Bool), seqPos s i h = .gap → Leads (.roceReadRx h a ue) s fun t => t.mem = s.mem ∧ t.qp i = s.qp i)

/-- Where an RDMA WRITE puts its bytes (R303, R356): within one page whose entry is marked already, they stand at the page's address in
their order, and every other byte of memory is as before. -/
def Obligations.RemoteWriteStoresBytes : Prop := ∀ (s : State) (h : RoceHdr) (i : Nat) (a : RoceAddr) (bytes : List Byte) (e : TlbEntry) (at_ : Nat),
  rxQp s h = some i → seqPos s i h = .due → inMailbox s a.va.toNat a.rkey.toNat = false → (s.qp i).wr = none →
  let u := noteEcn (rxFrame s h.port) i h
  accessOk u (u.qpNet i) a.va.toNat a.len.toNat a.rkey.toNat true = true → a.len.toNat = bytes.length → 0 < bytes.length →
  a.va.toNat % 65536 + bytes.length ≤ 65536 → walk u a.va.toNat true false none = .hit e at_ → markPte u e at_ true = u →
  Leads (.roceWriteRx h (some a) true bytes) s fun t =>
    let pa := e.frame + (a.va.toNat - e.va)
    (∀ k, k < bytes.length → memByte t.mem (pa + k) = bytes.getD k 0) ∧
    ∀ x, x < pa ∨ pa + bytes.length ≤ x → memByte t.mem x = memByte s.mem x

/-- What answers the device's own requests (R351, R354, R357, R358): acknowledged requests are done; a NAK of another kind than a sequence
error, and retries used up, end the queue pair; a sequence NAK or a timeout sends again; records and regions written by software. -/
def Obligations.QueuePairsComplete : Prop := ∀ s : State,
  (∀ (i : Fin 2048) (psn : BitVec 24), s.running = true → s.qpState i = 1 →
    (∀ r ∈ (s.qp i).out.take (ackedCount s i psn.toNat), ∃ e, r.use = .mailbox e) →
    Leads (.roceResponseRx i (.ack psn)) s fun t => (t.qp i).out = (s.qp i).out.drop (ackedCount s i psn.toNat)) ∧
  (∀ (i : Fin 2048) (psn : BitVec 24), s.running = true → s.qpState i = 1 → ∀ syn : BitVec 8, syn.toNat ≠ 0x60 →
    Leads (.roceResponseRx i (.nak psn syn)) s fun t => t.qpState i = 2 ∧ (t.qp i).out = [] ∧
      t.reg Obj.roceErrQps = min (s.reg Obj.roceErrQps + 1) (2 ^ 32 - 1)) ∧
  (∀ i : Fin 2048, s.running = true → s.qpState i = 1 → (s.qp i).out ≠ [] →
    ((s.qp i).retries < s.reg Obj.roceRetry → Leads (.roceAckTimeout i) s fun t => (t.qp i).out = (s.qp i).out ∧
      (t.qp i).retries = (s.qp i).retries + 1 ∧ t.qpState i = 1) ∧
    (s.reg Obj.roceRetry ≤ (s.qp i).retries → Leads (.roceAckTimeout i) s fun t => (t.qp i).out = [] ∧ t.qpState i = 2)) ∧
  (∀ i : Fin 2048, s.running = true → s.qpState i = 1 → s.reg Obj.roceEcn = 1 → Leads (.roceCnpRx i) s fun t =>
      (t.qp i).cnps = (s.qp i).cnps + 1 ∧ (t.qp i).out = (s.qp i).out) ∧
  (∀ (q : Req) (v : BitVec 512) (i : Nat), s.reg Obj.roceQpSel = i → s.takesWrite q Obj.roceQp = true →
    (qpRefusal s i v.toNat = none → bitOf (fld v.toNat 4 4) 0 = true → s.qpState i ≠ 1 → Leads (.roceQpWrite q v) s fun t =>
      t.qpState i = 1 ∧ t.qpValid i = true ∧ (t.qp i).sendPsn = fld v.toNat 0x20 3 ∧ (t.qp i).recvPsn = fld v.toNat 0x24 3 ∧
      (t.qp i).out = [] ∧ Answers t q 2 Obj.roceQp stOk) ∧
    (qpRefusal s i v.toNat = none → bitOf (fld v.toNat 4 4) 0 = false → Leads (.roceQpWrite q v) s fun t =>
      t.qpState i = 0 ∧ t.qpValid i = false ∧ (t.qp i).out = [] ∧ Answers t q 2 Obj.roceQp stOk) ∧
    (∀ st, qpRefusal s i v.toNat = some st → Leads (.roceQpWrite q v) s fun t => t.qpRec i = s.qpRec i ∧ Answers t q 2 Obj.roceQp st)) ∧
  (∀ (q : Req) (v : BitVec 256), s.takesWrite q Obj.roceRgn = true → bitsOf (rgnFlags v.toNat) 5 27 = 0 → fld v.toNat 0x18 8 = 0 →
    ((rgnValid v.toNat && rgnBad s (s.reg Obj.roceRgnSel) v.toNat) = false → Leads (.roceRgnWrite q v) s fun t =>
      t.rgn (s.reg Obj.roceRgnSel) = v.toNat ∧ Answers t q 2 Obj.roceRgn stOk) ∧
    (rgnValid v.toNat = true → rgnBad s (s.reg Obj.roceRgnSel) v.toNat = true → Leads (.roceRgnWrite q v) s fun t =>
      t.rgn (s.reg Obj.roceRgnSel) = s.rgn (s.reg Obj.roceRgnSel) ∧ Answers t q 2 Obj.roceRgn stRange))

/-- Armings (R268–R272): ACTION 1 arms a stream with the linked scale stream, or holds while one of the two is armed or its Sluice in use;
ACTION 2 gives a shadow or arms a stream at rest; ACTION 3 ends an arming; the entry is taken from the core's list. -/
def Obligations.ArmingCommandsComplete : Prop := ∀ (s : State) (core : Fin 256) (c : Cur), s.starts core 7 c →
  let i := fld c.blk 0 1
  anyBad (armReads s core i) = false → firstDiffer s (armReads s core i) = none →
  let a : Arming := { base0 := fld c.blk 8 8, base1 := fld c.blk 0x10 8, sbase0 := fld c.blk 0x18 8, sbase1 := fld c.blk 0x20 8,
                      frame := armFrame s core c.re.plan.mb }
  let x := (s.core core).ctx i
  let sl := s.sluOf core i
  let taken (t : State) : Prop := (t.core core).todo = (s.core core).todo.drop 1
  (fld c.blk 1 1 = 1 →
    (ctxFree s core i = true → s.linkOf core i = none → Leads (.streamArm core) s fun t => taken t ∧
      (t.core core).ctx i = { st := .running, arm := a } ∧ ∀ j, j ≠ i → (t.core core).ctx j = (s.core core).ctx j) ∧
    (∀ j, ctxFree s core i = true → s.linkOf core i = some j → ctxFree s core j = true → j ≠ i → Leads (.streamArm core) s fun t => taken t ∧
      (t.core core).ctx i = { st := .running, arm := a } ∧ (t.core core).ctx j = { st := .running, arm := a.scale }) ∧
    (ctxFree s core i = false ∨ (s.linkOf core i).any (fun j => !ctxFree s core j) = true → Leads (.streamArm core) s fun t => t = s)) ∧
  (fld c.blk 1 1 = 2 → s.linkOf core i = none →
    (x.armed = false → ctxFree s core i = true → Leads (.streamRearm core) s fun t => taken t ∧
      (t.core core).ctx i = { st := .running, arm := a }) ∧
    (x.armed = true → x.st = .done → Leads (.streamRearm core) s fun t => taken t ∧ (t.core core).ctx i = { st := .running, arm := a }) ∧
    (x.armed = true → x.st ≠ .done → Leads (.streamRearm core) s fun t => taken t ∧ (t.core core).ctx i = { x with shadow := some a } ∧
      t.reg (Obj.strmOverwrites core) = (if x.shadow = none then s.reg (Obj.strmOverwrites core)
        else min (s.reg (Obj.strmOverwrites core) + 1) (2 ^ 32 - 1)))) ∧
  (fld c.blk 1 1 = 3 →
    (x.armed = false → rolloutClass s core sl = true → Leads (.streamDisarm core) s fun t => taken t ∧ (t.core core).ctx i = x) ∧
    (s.ctxOn core sl = none → Leads (.streamDisarm core) s fun t => taken t ∧ ((t.core core).sluice sl).flush = true ∧
      (t.core core).ctx i = x) ∧
    (x.armed = true → rolloutClass s core sl = true → atBoundary s core sl = true → ((s.core core).sluice sl).packets = [] →
      Leads (.streamDisarm core) s fun t => taken t ∧ (t.core core).ctx i = {}) ∧
    (x.armed = true → rolloutClass s core sl = false → (s.ctxOn core sl).map (·.1) = some i →
      x.st ≠ .haltFault → x.st ≠ .haltError → Leads (.streamDisarm core) s fun t => taken t ∧
      ((t.core core).sluice sl).flush = true ∧ (t.core core).ctx i = x))

/-- Requests of a stream and what answers them (R271, R275–R277, R282, R285, R304, R305): a request goes out with its credits or the
stream waits; words come in order and a packet commits with its last; an uncorrectable word is read again once, one of a stash item loses the
item and halts the stream (R317); a walk fills the TLB or halts the stream, which software resumes. -/
def Obligations.StreamRequestsComplete : Prop := ∀ (s : State) (core : Fin 256) (ctx : Fin 48) (d : Desc), s.desc core ctx = some d →
  let intact := !anyBad (descReads s core ctx) && (firstDiffer s (descReads s core ctx)).isNone
  let x := (s.core core).ctx ctx
  let q := (s.core core).sluice d.sluice
  (x.st = .running → x.started = false → q.packets.head? ≠ some [] → Leads (.streamStart core ctx) s fun t => ((t.core core).ctx ctx).started = true) ∧
  (d.store = false → canIssue s x = true → intact = true → (q.rsv ≠ 0 ∨ q.prog ≠ [] ∨ d.pktWords ≤ q.room) → ∀ f, nextPlan s core x d = some (.go f, 0) →
    (creditLeft s.weir (flightDraws s core d.tc f) = true → x.st ≠ .waitCredit → packedBad s (clusterOf core) f = none → Leads (.streamRequestIssue core ctx false) s fun t =>
      ((t.core core).ctx ctx).flight = x.flight ++ [f] ∧ ((t.core core).ctx ctx).st = .running ∧
      t.weir = drawCredits s.weir (flightDraws s core d.tc f)) ∧
    (creditLeft s.weir (flightDraws s core d.tc f) = false → Leads (.streamRequestIssue core ctx false) s fun t =>
      (t.core core).ctx ctx = { x with st := .waitCredit } ∧ t.weir = s.weir)) ∧
  (d.store = false → canIssue s x = true → intact = true → q.rsv = 0 → q.prog = [] → x.packets < d.numPkts → q.room < d.pktWords →
    ∀ ue, Leads (.streamRequestIssue core ctx ue) s fun t => (t.core core).ctx ctx = { x with st := .waitSpace } ∧ t.weir = s.weir) ∧
  (∀ f fs st s', d.store = false → x.flight = f :: fs → flightStat s (clusterOf core) st f = (false, s') →
    q.prog.length + 1 ≠ d.pktWords → Leads (.memoryReadComplete core ctx st) s fun t => ((t.core core).ctx ctx).flight = fs ∧
      ((t.core core).sluice d.sluice).prog = q.prog ++ [{ data := (joinBits core f.load s').1.v, last := false }] ∧
      ((t.core core).sluice d.sluice).packets = q.packets) ∧
  (∀ f fs st s', d.store = false → x.flight = f :: fs → flightStat s (clusterOf core) st f = (false, s') →
    q.prog.length + 1 = d.pktWords → x.packets + 1 < d.numPkts → x.ending = false →
    Leads (.memoryReadComplete core ctx st) s fun t => ((t.core core).ctx ctx).packets = x.packets + 1 ∧
      ((t.core core).sluice d.sluice).prog = [] ∧ ((t.core core).sluice d.sluice).rsv = 0 ∧ ((t.core core).sluice d.sluice).packets =
        q.packets ++ [q.prog ++ [{ data := (joinBits core f.load s').1.v, last := true }]]) ∧
  (∀ f fs st s', d.store = false → x.flight = f :: fs → ueItem s (clusterOf core) f = none → flightStat s (clusterOf core) st f = (true, s') →
    (x.refetched = false → Leads (.memoryReadComplete core ctx st) s fun t => ((t.core core).ctx ctx).refetched = true ∧
      ((t.core core).ctx ctx).flight = [] ∧ ((t.core core).sluice d.sluice).prog = [] ∧ ((t.core core).sluice d.sluice).packets = q.packets ∧
      t.reg (Obj.strmRefetches core) = min (s.reg (Obj.strmRefetches core) + 1) (2 ^ 32 - 1)) ∧
    (x.refetched = true → Leads (.memoryReadComplete core ctx st) s fun t => ((t.core core).ctx ctx).st = .haltError ∧
      ((t.core core).ctx ctx).cause = 3)) ∧
  (∀ f fs st s' n, d.store = false → x.flight = f :: fs → ueItem s (clusterOf core) f = some n → flightStat s (clusterOf core) st f = (true, s') →
    Leads (.memoryReadComplete core ctx st) s fun t => ((t.core core).ctx ctx).st = .haltError ∧ ((t.core core).ctx ctx).cause = 3 ∧
      ((t.cluster (clusterOf core)).item n).lost = true) ∧
  (∀ f fs, d.store = true → x.flight = f :: fs → f.item = none →
    releaseDone q.packets (q.taken + 1) = (q.packets, q.taken + 1) → Leads (.storeWriteAck core ctx) s fun t =>
      ((t.core core).ctx ctx).flight = fs ∧ ((t.core core).sluice d.sluice).taken = q.taken + 1 ∧
      ((t.core core).sluice d.sluice).packets = q.packets ∧ t.mem = (landPuts s core f).mem) ∧
  (∀ va pos (bad : Option (Fin 3)) e at_, x.walk = some (va, pos) → walkServed s core ctx = true → walk s va (s.ctxWrites core ctx va) (d.tc == 2) (bad.map (·.val)) = .hit e at_ →
    Leads (.translationWalkComplete core ctx bad) s fun t => ((t.core core).ctx ctx).walk = none ∧ ((t.core core).ctx ctx).st = x.st ∧
      (t.core core).tlb.head? = some { e with pte := markedPte e (s.ctxWrites core ctx va), d := e.d || s.ctxWrites core ctx va } ∧
      t.reg (Obj.xlatWalks (dieOf core)) = min (s.reg (Obj.xlatWalks (dieOf core)) + 1) (2 ^ 64 - 1)) ∧
  (∀ va pos (bad : Option (Fin 3)) y, x.walk = some (va, pos) → walkServed s core ctx = true → walk s va (s.ctxWrites core ctx va) (d.tc == 2) (bad.map (·.val)) = .fail y →
    Leads (.translationWalkComplete core ctx bad) s fun t => ((t.core core).ctx ctx).walk = none ∧
      ((t.core core).ctx ctx).st = .haltFault ∧ ((t.core core).ctx ctx).faultPos = pos ∧ (t.core core).tlb = (s.core core).tlb ∧
      t.reg (Obj.strmFaultHalts core) = min (s.reg (Obj.strmFaultHalts core) + 1) (2 ^ 32 - 1)) ∧
  (∀ r : Req, s.takesWrite r Obj.strmResume = true → s.reg Obj.strmSel = core * 2 ^ 24 + ctx →
    (x.st ≠ .haltFault → Leads (.strmResumeWrite r 1) s fun t => Answers t r 2 Obj.strmResume stState ∧ (t.core core).ctx ctx = x ∧
      t.reg Obj.sluCmdRefused = min (s.reg Obj.sluCmdRefused + 1) (2 ^ 32 - 1)) ∧
    (x.st = .haltFault → (s.windowOf (bitsOf x.faultRec 64 64)).isSome = false →
      (∀ e at_, walk s (bitsOf x.faultRec 64 64) (s.ctxWrites core ctx (bitsOf x.faultRec 64 64)) (d.tc == 2) none = .hit e at_ → Leads (.strmResumeWrite r 1) s fun t =>
        (t.core core).ctx ctx = { x with st := .running, cause := 0 } ∧ Answers t r 2 Obj.strmResume stOk) ∧
      (∀ y, walk s (bitsOf x.faultRec 64 64) (s.ctxWrites core ctx (bitsOf x.faultRec 64 64)) (d.tc == 2) none = .fail y → Leads (.strmResumeWrite r 1) s fun t =>
        ((t.core core).ctx ctx).st = .haltFault ∧ Answers t r 2 Obj.strmResume stState)))

/-- What a store writes (R272, R293): the bytes of a request of whole bytes stand at its address, little-endian, and every other byte
of memory is as before. -/
def Obligations.StoreWritesItsBytes : Prop := ∀ (s : State) (core : Fin 256) (ctx : Fin 48) (d : Desc) (f : Flight) (fs : List Flight)
  (a n v : Nat), s.desc core ctx = some d → d.store = true → ((s.core core).ctx ctx).flight = f :: fs → f.item = none →
  ((s.core core).ctx ctx).ending = false → f.puts = [(8 * a, 8 * n, v)] → Leads (.storeWriteAck core ctx) s fun t =>
    memRead t.mem a n = v % 256 ^ n ∧ ∀ x, x < a ∨ a + n ≤ x → memByte t.mem x = memByte s.mem x

/-- Sluice commands (R276, R278–R280, R286): DROP_REM, FLUSH and RESET by a unit and by software, an accepted FLUSH at its boundary,
narrow writing, and the preemption of a core whose streams stand still. -/
def Obligations.SluiceCommandsComplete : Prop := ∀ (s : State) (core : Fin 256) (sl : Fin 16),
  let q := (s.core core).sluice sl
  (∀ i d, s.ctxOn core sl = some (i, d) → d.tc = 1 → d.store = true → ((s.core core).ctx i).st = .haltFault →
    ((s.core core).ctx i).packets + 1 < d.numPkts → ((s.core core).ctx i).ending = false →
    Leads (.sluiceDropRem (.unit core sl)) s fun t => ((t.core core).sluice sl).packets = q.packets.drop 1 ∧
      ((t.core core).ctx i).st = .running ∧ ((t.core core).ctx i).packets = ((s.core core).ctx i).packets + 1 ∧
      t.reg (Obj.strmDrops core) = min (s.reg (Obj.strmDrops core) + 1) (2 ^ 32 - 1)) ∧
  (dropOk s core sl = false → Leads (.sluiceDropRem (.unit core sl)) s fun t => (t.core core) = s.core core ∧
      t.reg Obj.sluCmdRefused = min (s.reg Obj.sluCmdRefused + 1) (2 ^ 32 - 1) ∧ Reports s t 0x5A04 .note (uCore core)) ∧
  (∀ i d, s.ctxOn core sl = some (i, d) → d.tc ≠ 1 → ((s.core core).ctx i).st ≠ .haltFault → ((s.core core).ctx i).st ≠ .haltError →
    Leads (.sluiceFlush (.unit core sl)) s fun t => ((t.core core).sluice sl) = { q with flush := true }) ∧
  (flushOk s core sl = false → Leads (.sluiceFlush (.unit core sl)) s fun t => (t.core core) = s.core core ∧
      t.reg Obj.sluCmdRefused = min (s.reg Obj.sluCmdRefused + 1) (2 ^ 32 - 1)) ∧
  (q.flush = true → atBoundary s core sl = true → Leads (.sluiceFlushApply core sl) s fun t => ((t.core core).sluice sl).packets = [] ∧
      ((t.core core).sluice sl).flush = false ∧ (∀ i d, s.ctxOn core sl = some (i, d) → (t.core core).ctx i = {}) ∧
      t.reg (Obj.strmFlushes core) = min (s.reg (Obj.strmFlushes core) + 1) (2 ^ 32 - 1)) ∧
  (resetOk s core sl = true → Leads (.sluiceReset (.unit core sl)) s fun t => ((t.core core).sluice sl).packets = [] ∧
      ((t.core core).sluice sl).prog = [] ∧ ∀ i d, s.ctxOn core sl = some (i, d) → (t.core core).ctx i = {}) ∧
  (∀ r : Req, s.takesWrite r Obj.sluCmd = true → sluSelected s = (core.val, sl.val) →
    (s.role (clusterOf core) = 0 → resetOk s core sl = true → Leads (.sluiceReset (.software r)) s fun t =>
      ((t.core core).sluice sl).packets = [] ∧ Answers t r 2 Obj.sluCmd stOk) ∧
    (s.role (clusterOf core) ≠ 0 → ∀ c ∈ [Instr.sluiceReset (.software r), .sluiceFlush (.software r), .sluiceDropRem (.software r)],
      Leads c s fun t => (t.core core) = s.core core ∧ Answers t r 2 Obj.sluCmd stState)) ∧
  (∀ (r : Req) (v : BitVec 32), s.takesWrite r Obj.sluNarrowData = true → sluSelected s = (core.val, sl.val) →
    (q.narrow = true → q.nbytes.length < 16384 → (q.nbytes.length % 64 ≠ 0 ∨ ceilDiv q.nbytes.length 64 < q.room) →
      Leads (.sluNarrowDataWrite r v) s fun t => ((t.core core).sluice sl) = { q with nbytes := q.nbytes ++ leBytes 4 v.toNat } ∧
        Answers t r 2 Obj.sluNarrowData stOk) ∧
    (q.narrow = false → Leads (.sluNarrowDataWrite r v) s fun t => (t.core core) = s.core core ∧ Reports s t 0x5A0A .note (uCore core) ∧
      Answers t r 2 Obj.sluNarrowData stState)) ∧
  (∀ (r : Req) (v : BitVec 8), s.takesWrite r Obj.sluNarrowClose = true → sluSelected s = (core.val, sl.val) → 1 ≤ v.toNat → v.toNat ≤ 4 →
    q.narrow = true → q.nbytes ≠ [] → Leads (.sluNarrowCloseWrite r v) s fun t => ((t.core core).sluice sl).nbytes = [] ∧
      ((t.core core).sluice sl).packets = q.packets ++ [narrowPacket (q.nbytes.take (q.nbytes.length - 4 + v.toNat))] ∧
      Answers t r 2 Obj.sluNarrowClose stOk) ∧
  (256 ≤ (s.core core).stalled → (s.core core).noPreempt = false → ∀ h hs, holders s core = h :: hs →
    let w := hs.foldl worst h
    Leads (.deadlockPreempt core) s fun t => (t.core core).stalled = 0 ∧ (t.core core).preempts = (s.core core).preempts + 1 ∧
      (t.core core).noPreempt = decide (4 ≤ (s.core core).preempts + 1) ∧
      (w.2.2 = true → ((t.core core).ctx w.1).st = .waitSpace) ∧
      t.reg (Obj.strmDeadlocks core) = min (s.reg (Obj.strmDeadlocks core) + 1) (2 ^ 32 - 1)) ∧
  (256 ≤ (s.core core).stalled → (s.core core).noPreempt = false → holders s core = [] → Leads (.deadlockPreempt core) s fun t =>
    (t.core core).stalled = 0 ∧ (t.core core).preempts = (s.core core).preempts + 1 ∧
    t.reg (Obj.strmDeadlocks core) = min (s.reg (Obj.strmDeadlocks core) + 1) (2 ^ 32 - 1))

/-- Entries that complete, segments that close, and barriers (R51, R52, R181): an entry whose results are all in their Sluices leaves
with its token, late or not; a region at 65,536 slots restarts at zero; a core's arrival, late or not, and another participant's message are
kept, and a barrier that all have reached lets its participants go. -/
def Obligations.BarrierCommandsComplete : Prop := ∀ s : State,
  (∀ (core : Fin 256) (i : BitVec 8) (r : RunEntry), (s.core core).running[i.toNat]? = some r → r.formed = true → r.stopped = false →
    r.wait = none →
    (r.outq = [] → Leads (.entryComplete core i) s fun t => r ∉ (t.core core).running ∧
      (t.core core).tokens =
        (if 16 ≤ r.entry.out then (s.core core).tokens ++ [(r.entry.out, r.plan.mb)] else (s.core core).tokens) ∧
      t.reg (Obj.schedClSlips (clusterOf core)) = (if lateness s r = 0 then s.reg (Obj.schedClSlips (clusterOf core))
        else min (s.reg (Obj.schedClSlips (clusterOf core)) + 1) (2 ^ 32 - 1))) ∧
    ((pushOut core (r.outq.length + 1) r.outq s).1 ≠ [] → Leads (.entryComplete core i) s fun t =>
      { r with outq := (pushOut core (r.outq.length + 1) r.outq s).1 } ∈ (t.core core).running ∧
      (t.core core).tokens = (s.core core).tokens)) ∧
  (∀ (core : Fin 256) (base : BitVec 32) (r : Region), (s.core core).regions.find? (fun x => x.base == base.toNat) = some r →
    65536 ≤ r.slots → Leads (.segmentClose core base) s fun t =>
      (t.core core).region base.toNat = { r with slots := 0, segs := r.segs ++ [((s.core core).pairs base.toNat r.len).map Pair.toWord] } ∧
      (∀ k, k < r.len → (t.core core).pair (base.toNat + k) = Pair.zero) ∧
      (∀ k, k < base.toNat ∨ base.toNat + r.len ≤ k → (t.core core).pair k = (s.core core).pair k) ∧
      t.reg (Obj.accSegClosed core) = min (s.reg (Obj.accSegClosed core) + 1) (2 ^ 32 - 1)) ∧
  (∀ (core : Fin 256) (c : Cur) (q : Barrier) (part : Nat), currentEntry s core 8 = some c → c.fresh = true → c.img.bad = false →
    (s.role (clusterOf core) = 1 → s.train.abort = false) → startsNow s core c = true → s.tblDiffers c.img c.re.plan.off 16 = false →
    imageBarrier (s.role (clusterOf core)) c.re.entry.param c.img = some q → q.desc.parts = [part] → partLocal s part = true →
    hasArrived s q part = false → coversOf s part = [core.val] →
    (∀ p ∈ (s.core core).todo.drop 1, isBarrierEntry s core c.re.entry.param p = false) →
    Leads (.barrierArrive (.entry core)) s fun t => (t.core core).todo = (s.core core).todo.drop 1 ∧
      coreWaits t core q = true ∧ hasArrived t q part = true ∧
      t.reg (Obj.schedClSlips (clusterOf core)) = (if lateness s c.re = 0 then s.reg (Obj.schedClSlips (clusterOf core))
        else min (s.reg (Obj.schedClSlips (clusterOf core)) + 1) (2 ^ 32 - 1))) ∧
  (∀ (b : BitVec 16) (part : BitVec 28) (slips late : BitVec 32) (flags : BitVec 18) (abort : Bool) (q : Barrier),
    s.barrierWhere b.toNat (awaits s part.toNat) = some q →
    Leads (.barrierArrive (.message b part slips late flags abort)) s fun t => t.arrivals = s.arrivals ++
      [{ barrier := b.toNat, group := q.group, parts := q.desc.parts, part := part.toNat, slips := slips.toNat, late := late.toNat,
         beat := s.beat, abort := abort, flags := flags.toNat }]) ∧
  (∀ (b : BitVec 16),
    (∀ q, s.barrierWhere b.toNat (plainComplete s) = some q → Leads (.barrierComplete b) s fun t =>
      t.arrivals = s.arrivals.filter (fun a => !q.takes a) ∧ ∀ core, core < 256 → coreWaits t core q = false) ∧
    (s.barrierWhere b.toNat (plainComplete s) = none → Leads (.barrierComplete b) s fun t => t = s))

/-- The tail of a training step (R53, R194, R201–R204, R257): the health barrier decides with the health word, the commit barrier with
what the update adds to it; a commit flips the bank and advances the step, a discard does neither; a barrier past its grace discards;
a publication and the host's controls. -/
def Obligations.StepTailCompletes : Prop := ∀ s : State,
  (∀ q lead rest, s.barrierOf 1 .health = some q → s.train.members = lead :: rest → s.train.phase = .running →
    allArrived s q = true → tallyMissing s = false ∨ barrierAbort s q = true →
    firstDiffer s (s.layerReads.filter fun r => !r.1.bad) = none → Leads .healthBarrierComplete s fun t =>
      let w := barrierHealth (releaseBarrier s q) (jobTally s) (barrierAbort s q) (arrivedFlags s q)
      t.train.healthWord = w ∧ t.train.tally = some (jobTally s) ∧ t.train.earliest = s.beat + 1 ∧
      t.train.phase = (if cleanWord s w then .updating else .discardReady) ∧ t.arrivals = s.arrivals.filter (fun a => !q.takes a)) ∧
  (∀ q lead rest, s.barrierOf 1 .commit = some q → s.train.members = lead :: rest → s.train.phase = .updating →
    allArrived s q = true → Leads .commitBarrierComplete s fun t =>
      let flags := arrivedFlags s q ||| s.train.updFlags ||| silentFlag s ||| (if barrierAbort s q then 2 else 0)
      let w := s.train.healthWord ||| (flags &&& 0x2803)
      t.reg Obj.stepHealth = w % 2 ^ 64 ∧ t.train.healthWord = w ∧ t.train.earliest = s.beat + 1 ∧
      t.train.phase = (if cleanWord s w then .commitReady else .discardReady) ∧
      t.ckpt.stopNext = (cleanWord s w && bitOf flags 16 && !bitOf flags 17) ∧
      (s.ledger.frozen = false → t.ledger.phase = 2 ∧ t.ledger.step = s.reg (Obj.schedClStep lead))) ∧
  (∀ lead rest, s.train.members = lead :: rest → s.train.phase = .commitReady → s.train.publishing = none → s.train.earliest ≤ s.beat →
    Leads .stepCommit s fun t => (∀ cl ∈ s.train.members, t.reg (Obj.schedClStep cl) = (s.reg (Obj.schedClStep lead) + 1) % 2 ^ 64) ∧
      t.reg Obj.stepBank = 1 - s.reg Obj.stepBank % 2 ∧ t.reg Obj.stepCommits = min (s.reg Obj.stepCommits + 1) (2 ^ 64 - 1) ∧
      t.reg Obj.stepRetries = 0 ∧ t.reg Obj.stepOutcome = 1 ∧ t.train.phase = .boundary ∧ t.train.earliest = s.beat + 1 ∧
      t.ckpt.dataPos = some (s.reg Obj.stepDataPos) ∧ t.arrivals = s.arrivals.filter (·.group != 1)) ∧
  (∀ lead rest, s.train.members = lead :: rest → s.train.phase = .discardReady → s.train.earliest ≤ s.beat →
    Leads .stepDiscard s fun t => (∀ cl, t.reg (Obj.schedClStep cl) = s.reg (Obj.schedClStep cl)) ∧ t.reg Obj.stepBank = s.reg Obj.stepBank ∧
      t.reg Obj.stepDiscards = min (s.reg Obj.stepDiscards + 1) (2 ^ 32 - 1) ∧
      t.reg Obj.stepRetries = min (s.reg Obj.stepRetries + 1) 255 ∧ t.reg Obj.stepOutcome = 2 ∧ t.train.phase = .boundary ∧
      t.train.abort = false ∧ t.rill.held = [] ∧ ∀ cl ∈ s.train.members, ∀ n ∈ coresOf cl,
        (t.core n).hist = (s.core n).histOrigin ∧ (t.core n).regions = []) ∧
  (s.train.members = [] → betweenSteps s.train.phase = false → Leads .stepDiscard s fun t => t.train.phase = .idle ∧
      t.reg Obj.stepDiscards = min (s.reg Obj.stepDiscards + 1) (2 ^ 32 - 1) ∧ t.reg Obj.stepOutcome = 2) ∧
  (∀ (b : BitVec 16) q a as p ps cl cls, s.barrierWhere b.toNat (fun x => !(overdue s x).isEmpty && !(missing s x).isEmpty) = some q →
    overdue s q = a :: as → missing s q = p :: ps → partClusters s a.part = cl :: cls →
    Leads (.barrierGraceExpired b) s fun t => Reports s t 0x4A11 .stepAbort (uCluster cl) ∧
      (s.role cl = 1 → s.train.phase = .running ∨ s.train.phase = .updating → t.train.phase = .discardReady ∧ t.train.abort = true)) ∧
  (∀ copy n, s.train.publishing = some n → (s.inRole 2 = [] ∨ copyOk s copy = true → Leads (.epochPublishCopyDone copy) s fun t =>
      t.train.publishing = none ∧ t.mem = (if s.inRole 2 = [] then s.mem else (copyWeights s copy).mem) ∧
      t.reg Obj.epochShadow = (if s.inRole 2 = [] then s.reg Obj.epochShadow else (2 ^ 63 + n) % 2 ^ 64)) ∧
    (s.inRole 2 ≠ [] → copyOk s copy = false → Leads (.epochPublishCopyDone copy) s fun t => t = s)) ∧
  (∀ (q : Req) (v : BitVec 128), s.takesWrite q Obj.stepDataPos = true → Leads (.dataPosWrite q v) s fun t =>
      t.reg Obj.stepDataPos = v.toNat ∧ t.train.skewWait = false ∧ Answers t q 2 Obj.stepDataPos stOk) ∧
  (∀ (q : Req) (v : BitVec 64), s.takesWrite q Obj.stepSkip = true →
    (s.train.stopped = true → s.train.members ≠ [] → v.toNat = s.trainStep → Leads (.stepSkipWrite q v) s fun t =>
      (∀ cl ∈ s.train.members, t.reg (Obj.schedClStep cl) = (s.trainStep + 1) % 2 ^ 64) ∧ t.reg Obj.stepRetries = 0 ∧
      t.train.stopped = false ∧ Answers t q 2 Obj.stepSkip stOk) ∧
    (s.train.stopped = true → s.train.members ≠ [] → v.toNat ≠ s.trainStep → Leads (.stepSkipWrite q v) s fun t =>
      t.train = s.train ∧ Answers t q 2 Obj.stepSkip stRange) ∧
    (s.train.stopped = false → Leads (.stepSkipWrite q v) s fun t => t.train = s.train ∧ Answers t q 2 Obj.stepSkip stState)) ∧
  (∀ (q : Req) (v : BitVec 8), s.takesWrite q Obj.stepRetryLimit = true → Leads (.retryLimitWrite q v) s fun t =>
      t.reg Obj.stepRetryLimit = v.toNat ∧ t.train.stopped = (s.train.stopped && decide (v ≠ 0 ∧ v.toNat ≤ s.reg Obj.stepRetries)) ∧
      Answers t q 2 Obj.stepRetryLimit stOk)

/-- The rollout group's step (R241, R245, R247, R256, R258): its boundary with the epoch switch, its origin with the check of the output
ring, its discard, a cancellation, and an epoch made ready. -/
def Obligations.RolloutCommandsComplete : Prop := ∀ s : State,
  (s.roll.members ≠ [] → s.stopped = false → s.held .checkpoint = false → s.held .rebuild = false →
    (∀ t ∈ s.tables, tableDue s t 2 = false) → (∀ cl ∈ s.roll.members, s.role cl = 2 ∧ cl < 16) →
    (∀ cl, (s.cluster cl).roleReq = none ∧ (s.cluster cl).joining = none) →
    (s.roll.phase = .boundary → s.roll.earliest ≤ s.beat → rollBad s = false →
      (∀ cl ∈ s.roll.members, firstDiffer s (rollReads s cl) = none) → Leads .rolloutStepBoundary s fun t =>
      (t.roll.phase = .ringWait ∧ t.roll.ringOk = ringRoom t ∨ t.roll.phase = .boundary) ∧ t.roll.members = s.roll.members ∧ t.reg Obj.epochShadow = 0 ∧
      t.reg Obj.epochActive = (if s.reg Obj.epochShadow = 0 then s.reg Obj.epochActive else s.reg Obj.epochShadow % 2 ^ 64) ∧
      (s.reg Obj.epochShadow ≠ 0 → t.reg Obj.epochBank = 1 - s.reg Obj.epochBank % 2) ∧
      ∀ cl, t.reg (Obj.schedClStep cl) = s.reg (Obj.schedClStep cl)) ∧
    (s.roll.phase = .running → s.roll.abort = false → rollDone s = true → s.roll.members.Nodup → Leads .rolloutStepBoundary s fun t =>
      (t.roll.phase = .ringWait ∨ t.roll.phase = .boundary) ∧
      ∀ cl ∈ s.roll.members, t.reg (Obj.schedClStep cl) = (s.reg (Obj.schedClStep cl) + 1) % 2 ^ 64)) ∧
  (s.roll.phase = .ringWait → s.noNewStep = false → s.roll.earliest ≤ s.beat →
    (s.roll.ringOk = true → Leads .rolloutStepOrigin s fun t => t.roll.phase = .running ∧ t.roll.origin = s.beat ∧
      t.roll.bank = s.reg Obj.epochBank ∧ t.roll.members = s.roll.members) ∧
    (s.roll.ringOk = false → ringRoom s = true → Leads .rolloutStepOrigin s fun t => t.roll.phase = .ringWait ∧ t.roll.ringOk = true ∧
      t.roll.earliest = s.beat + 1) ∧
    (s.roll.ringOk = false → ringRoom s = false → s.roll.stallRaised = false → Leads .rolloutStepOrigin s fun t => t.roll.phase = .ringWait ∧
      t.roll.stallRaised = true ∧ t.reg Obj.rollRingStalls = min (s.reg Obj.rollRingStalls + 1) (2 ^ 32 - 1) ∧
      Reports s t 0x4D04 .note (uCluster (s.roll.members.headD 0))) ∧
    (s.roll.ringOk = false → ringRoom s = false → s.roll.stallRaised = true → Leads .rolloutStepOrigin s fun t => t = s)) ∧
  (s.roll.phase = .running → s.roll.abort = true → Leads .rolloutStepDiscard s fun t => t.roll.phase = .boundary ∧ t.roll.abort = false ∧
      t.reg Obj.rollDiscards = min (s.reg Obj.rollDiscards + 1) (2 ^ 32 - 1) ∧
      (∀ cl, t.reg (Obj.schedClStep cl) = s.reg (Obj.schedClStep cl)) ∧
      (∀ cl ∈ s.roll.members, ∀ n ∈ coresOf cl, (t.core n).hist = (s.core n).histOrigin) ∧
      ∀ cl ∈ s.roll.members, ∀ n ∈ s.slotNums cl, ((t.cluster cl).slot n).rows = 0 ∧ ((t.cluster cl).slot n).token = none ∧
        ((t.cluster cl).slot n).len = ((s.cluster cl).slot n).len) ∧
  (∀ (q : Req) (v : BitVec 64), s.takesWrite q Obj.rollCancel = true →
    (∀ cl n, slotOfSeq s v.toNat = some (cl, n) → Leads (.rollCancelWrite q v) s fun t => ((t.cluster cl).slot n).cancel = true ∧
      ((t.cluster cl).slot n).st = ((s.cluster cl).slot n).st ∧ Answers t q 2 Obj.rollCancel stOk) ∧
    (slotOfSeq s v.toNat = none → Leads (.rollCancelWrite q v) s fun t => t.clusters = s.clusters ∧ Reports s t 0x4D07 .note uMgt ∧
      Answers t q 2 Obj.rollCancel stOk)) ∧
  (∀ (q : Req) (v : BitVec 64), s.takesWrite q Obj.epochReady = true →
    (s.reg Obj.epochShadow = 0 → v ≠ 0 → bitOf v.toNat 63 = false → s.roll.lastHostEpoch < v.toNat → Leads (.epochReadyWrite q v) s fun t =>
      t.reg Obj.epochShadow = v.toNat ∧ t.roll.lastHostEpoch = v.toNat ∧ Answers t q 2 Obj.epochReady stOk) ∧
    (s.reg Obj.epochShadow = 0 → (v = 0 ∨ bitOf v.toNat 63 = true ∨ v.toNat ≤ s.roll.lastHostEpoch) →
      Leads (.epochReadyWrite q v) s fun t => t.reg Obj.epochShadow = 0 ∧ Reports s t 0x4D01 .note uMgt ∧
        Answers t q 2 Obj.epochReady stRange) ∧
    (s.reg Obj.epochShadow ≠ 0 → Leads (.epochReadyWrite q v) s fun t => t.reg Obj.epochShadow = s.reg Obj.epochShadow ∧
      t.reg Obj.epochRefused = min (s.reg Obj.epochRefused + 1) (2 ^ 32 - 1) ∧ Answers t q 2 Obj.epochReady stState))

/-- Flits (R323–R326, R334, R338): one refused is answered with NAK and leaves the expected number; one in order is taken once; one out
of order is not; a slot sends the flit that comes first, or the answer that waits for one; and a port that is not usable holds the data
flits that wait at it (R333). -/
def Obligations.FlitCommandsComplete : Prop := ∀ (s : State) (p : Fin 6), s.linkUp p = true → s.running = true →
  (∀ r : FlitRx, r.crcOk = false ∨ r.ue.toNat ≠ 0 → (s.port p).refused ≠ 7 → Leads (.rillFlitRx p r) s fun t =>
      (t.port p).nak = true ∧ (t.port p).refused = (s.port p).refused + 1 ∧ (t.port p).rxSeq = (s.port p).rxSeq ∧
      t.reg (Obj.rillPUe p) = min (s.reg (Obj.rillPUe p) + r.ue.toNat) (2 ^ 64 - 1)) ∧
  (∀ r : FlitRx, r.crcOk = false ∨ r.ue.toNat ≠ 0 → (s.port p).refused = 7 → Leads (.rillFlitRx p r) s fun t =>
      (t.port p).nak = true ∧ (t.port p).refused = 0 ∧ t.pState p = 4) ∧
  (∀ r : FlitRx, r.crcOk = true → r.ue.toNat = 0 → 2 ≤ r.kind.toNat ∨ r.seq.toNat ≠ (s.port p).rxSeq → Leads (.rillFlitRx p r) s fun t =>
      (t.port p).rxSeq = (s.port p).rxSeq ∧ (t.port p).refused = 0 ∧ t.rill.colls = s.rill.colls ∧ t.rill.held = s.rill.held) ∧
  (∀ r : FlitRx, r.crcOk = true → r.ue.toNat = 0 → r.kind.toNat = 1 ∨ (r.kind.toNat = 0 ∧ s.reg (Obj.rillPNbrOk p) = 1) →
    r.seq.toNat = (s.port p).rxSeq → Leads (.rillFlitRx p r) s fun t => (t.port p).rxSeq = ((s.port p).rxSeq + 1) % 4096 ∧
      (t.port p).refused = 0) ∧
  (∀ (slot : Fin 20) (f : Flit), (s.port p).replay = [] → (s.port p).sched = [] → (s.port p).ctl = [f] → (s.port p).best = [] →
    (∀ q ∈ s.rill.held, q.1 ≠ p.val) → entryOfSlot s p slot = 0 → canSend s p f.vc = true → Leads (.rillSlot p slot) s fun t => (t.port p).ctl = [] ∧
      (t.port p).seq = ((s.port p).seq + 1) % 4096 ∧
      (t.port p).unacked = (s.port p).unacked ++ [{ f with seq := (s.port p).seq, buf := none }] ∧ t.outbox.length = s.outbox.length + 1) ∧
  (∀ slot : Fin 20, s.linkUsable p = false → entryOfSlot s p slot = 0 → Leads (.rillSlot p slot) s fun t =>
      t.rill.held = s.rill.held ++ ((s.port p).sched.map (·.flit) ++ (s.port p).best).map (fun f => (p.val, f))) ∧
  (∀ slot : Fin 20, s.linkUsable p = true → (∀ q ∈ s.rill.held, q.1 ≠ p.val) → (nextFlit s p slot).isNone = true →
    ((s.port p).nak = true → Leads (.rillSlot p slot) s fun t => (t.port p).nak = false ∧ t.outbox.length = s.outbox.length + 1) ∧
    ((s.port p).nak = false → (s.port p).freed = [] → Leads (.rillSlot p slot) s fun t => t = s))

/-- Port states of Rill and route sets (R327–R330, R346): training ends UP or DOWN, a lane check begins and ends, software trains a DOWN
port again, and a route set is asked for and takes effect; one asked for once the barrier has begun is the next (R347). -/
def Obligations.RillPortsComplete : Prop := ∀ (s : State) (p : Fin 6),
  (∀ (good : BitVec 18) (nbr : BitVec 15), s.pState p = 1 → 8 ≤ goodLanes good.toNat → Leads (.rillTrainingDone p good nbr) s fun t =>
      t.pState p = (if 16 ≤ goodLanes good.toNat then 2 else 3) ∧ t.reg (Obj.rillPLanes p) = (if 16 ≤ goodLanes good.toNat then 16 else 8) ∧
      t.reg (Obj.rillPFailed p) = 2 ^ 18 - 1 - good.toNat ∧ t.reg (Obj.rillPNbr p) = nbr.toNat) ∧
  (s.pState p = 1 → (s.port p).attempts < 2 → Leads (.rillTrainingTimeout p) s fun t => t.pState p = 1 ∧
      (t.port p).attempts = (s.port p).attempts + 1) ∧
  (s.pState p = 1 → 2 ≤ (s.port p).attempts → Leads (.rillTrainingTimeout p) s fun t => t.pState p = 5 ∧ t.reg (Obj.rillPLanes p) = 0 ∧
      Reports s t 0x7A03 .degrade (uRill p)) ∧
  (∀ lane : Fin 18, s.linkUp p = true → bitOf (s.reg (Obj.rillPFailed p)) lane = false →
    (Leads (.rillLaneLockLoss p lane) s fun t => t.pState p = 4) ∧
    (∀ errors : BitVec 32, s.reg (Obj.rillPLaneErrLimit p) < errors.toNat → Leads (.rillLaneErrorLimit p lane errors) s fun t =>
      t.pState p = 4) ∧
    (∀ errors : BitVec 32, errors.toNat ≤ s.reg (Obj.rillPLaneErrLimit p) → Leads (.rillLaneErrorLimit p lane errors) s fun t => t = s)) ∧
  (∀ good : BitVec 18, s.pState p = 4 →
    (goodLanes good.toNat < 8 → Leads (.rillRemapDone p good) s fun t => t.pState p = 5 ∧ t.reg (Obj.rillPLanes p) = 0) ∧
    (8 ≤ goodLanes good.toNat → Leads (.rillRemapDone p good) s fun t => t.pState p = (if 16 ≤ goodLanes good.toNat then 2 else 3) ∧
      (t.port p).replay = (s.port p).unacked ∧ (t.port p).refused = 0 ∧
      (if (if 16 ≤ goodLanes good.toNat then 16 else 8) < s.reg (Obj.rillPLanes p) then Reports s t 0x7A02 .degrade (uRill p)
        else Reports s t 0x7A01 .note (uRill p)))) ∧
  (∀ q : Req, s.takesWrite q (Obj.rillPRetrain p) = true →
    (s.pState p = 5 → Leads (.rillRetrainWrite q p 1) s fun t => t.pState p = 1 ∧ t.port p = {} ∧ Answers t q 2 (Obj.rillPRetrain p) stOk) ∧
    (s.pState p ≠ 5 → Leads (.rillRetrainWrite q p 1) s fun t => t.pState p = s.pState p ∧ Answers t q 2 (Obj.rillPRetrain p) stState)) ∧
  (∀ (q : Req) (v : BitVec 8) (r : TableRec), s.takesWrite q Obj.rillAltSel = true → s.held .checkpoint = false → s.routing = some r →
    (v.toNat ≤ snapRd r 6 1 → routeBegun s = false → Leads (.rillAltSelWrite q v) s fun t => t.reg Obj.rillAltSel = v.toNat ∧
      t.rill.altReq = some v.toNat ∧ t.reg Obj.rillAltActive = s.reg Obj.rillAltActive ∧ Answers t q 2 Obj.rillAltSel stOk) ∧
    (v.toNat ≤ snapRd r 6 1 → routeBegun s = true → Leads (.rillAltSelWrite q v) s fun t => t.reg Obj.rillAltSel = v.toNat ∧
      t.rill.altReq = s.rill.altReq ∧ t.rill.altNext = some v.toNat ∧ t.reg Obj.rillAltActive = s.reg Obj.rillAltActive ∧
      Answers t q 2 Obj.rillAltSel stOk) ∧
    (snapRd r 6 1 < v.toNat → Leads (.rillAltSelWrite q v) s fun t => t.rill = s.rill ∧ Reports s t 0x7A08 .note uDevice ∧
      Answers t q 2 Obj.rillAltSel stRange)) ∧
  (∀ (r : TableRec) (n : Nat), s.rill.altReq = some n → n < 256 → s.routing = some r → n ≤ snapRd r 6 1 → s.groupAtBoundary 1 = true →
    routeReady s = true → Leads .routeBarrierComplete s fun t => t.reg Obj.rillAltActive = n ∧ t.rill.altReq = s.rill.altNext ∧
      t.rill.altNext = none ∧
      t.reg Obj.rillRouteGen = min (s.reg Obj.rillRouteGen + 1) (2 ^ 32 - 1) ∧ Reports s t 0x7A07 .note uDevice)

/-- Every command of an entry (R40, R43, R50, R127, R146, R275): an entry that starts takes what operand words are there; once it has
them all its results are formed, and its output words go to their Sluices in order; before, it waits for the rest; one whose region a
started entry has still to write waits and is counted once; a share of a scope waits, scouted, for the other shares (R101); and an uncorrectable word in the core's own SRAM is a core fault. -/
def Obligations.EntryCommandsComplete : Prop := ∀ (s : State) (core : Fin 256) (peers : List (Nat × Scout)) (wait : Nat) (c : Cur),
  (∀ p ∈ entryCommands core .none peers wait, s.starts core p.2.1.op c → p.2.2 s c = true → readsHold p.2.1 s core c = true →
    (heldForRegion s core (p.2.1.regions s core c) = false → entryFull p.2.1 s core c = true → entryAlone p.2.1 s core c = true →
      Leads p.1 s fun t =>
        let f := entryResult p.2.1 s core c
        FormedIn t f.st core c f.clk f.outq ∧ t.mem = f.st.mem ∧ ∀ k, t.reg k = f.st.reg k) ∧
    (heldForRegion s core (p.2.1.regions s core c) = false → entryFull p.2.1 s core c = true → entryAlone p.2.1 s core c = false →
      c.re.scouted = false → Leads p.1 s fun t => (t.core core).todo = (s.core core).todo.drop 1 ∧ t.mem = s.mem ∧
        (∀ k, t.reg k = s.reg k) ∧ ∃ r ∈ (t.core core).running, r.plan = c.re.plan ∧ r.entry = c.re.entry ∧ r.formed = c.re.formed ∧
          r.scouted = true ∧ r.got = (entryWords p.2.1 s core c).1) ∧
    (heldForRegion s core (p.2.1.regions s core c) = false → entryFull p.2.1 s core c = false → Leads p.1 s fun t =>
      (t.core core).todo = (s.core core).todo.drop 1 ∧ t.mem = s.mem ∧ (∀ k, t.reg k = s.reg k) ∧
      ∃ r ∈ (t.core core).running, r.plan = c.re.plan ∧ r.entry = c.re.entry ∧ r.formed = c.re.formed ∧
        r.got = (entryWords p.2.1 s core c).1) ∧
    (heldForRegion s core (p.2.1.regions s core c) = true → (s.core core).accHeld = false → Leads p.1 s fun t =>
      (t.core core).todo = (s.core core).todo ∧ (t.core core).accHeld = true ∧
      t.reg (Obj.fengAccWaits core) = min (s.reg (Obj.fengAccWaits core) + 1) (2 ^ 32 - 1))) ∧
  (∀ p ∈ entryCommands core .core peers wait, currentEntry s core p.2.1.op = some c → p.2.2 s c = true → s.coreFenced core = false →
    core.val ∉ s.mgt.faults → s.mgt.restarting = false →
    Leads p.1 s fun t => bitOf (t.reg Obj.resFencedMap) core = true ∧ t.domState (domCore core) = dsOff)

/-- What the vector and function operations compute (R140–R142): of FP32 inputs and to FP32, the output words of an entry are its
operation's results in order, whatever the operation, and its clk is that of the rule. -/
def Obligations.VectorResultsDelivered : Prop := ∀ (s : State) (core : Fin 256) (c : Cur),
  ∀ p ∈ [(0x01, Instr.vectorFn core .none, vFn), (0x02, .vectorAdd core .none, vPoint XNum.add), (0x03, .vectorMul core .none, vPoint XNum.mul),
    (0x04, .vectorRowmax core .none, vRowMax), (0x05, .vectorRowsum core .none, vRowSum), (0x06, .vectorRecip core .none, vRecip),
    (0x07, .vectorRsqrt core .none, vRsqrt), (0x08, .vectorSubrow core .none, vPoint XNum.sub), (0x09, .vectorMulrow core .none, vPoint XNum.mul)],
  s.starts core 5 c → vOp c.blk = p.1 → readsHold (vKind p.2.2) s core c = true → entryFull (vKind p.2.2) s core c = true → c.re.entry.fmtA = 1 → c.re.entry.fmtB = 1 →
  (vTwo p.1 = true → fld c.blk 0x02 1 = 1) → c.re.entry.out < 16 → Leads p.2.1 s fun t =>
    let b := c.blk
    let u := (entryWords (vKind p.2.2) s core c).2
    let read (sl n : Nat) : List Nat := (u.inCodes core sl 1 n (entryIn (vKind p.2.2) s core c sl)).map fun x => rne32 (plainNum 1 x)
    let out := (p.2.2 u core b .rne (read (vA b) (vRows b * vCols b)) (if vTwo p.1 then read (vB b) (vBLen b) else [])).1.map (·.1)
    FormedIn t u core c (vClk b) ((packetize ((u.ctxOn core c.re.entry.out).map (·.2)) 32 out).map fun w => (c.re.entry.out, w)) ∧
      t.mem = s.mem

/-- The outlier side product (R132): its region is zeroed, and every element is the sum, in order, of the products of its groups of 16
listed channels. -/
def Obligations.SideProductAccumulates : Prop := ∀ (s : State) (core : Fin 256) (c : Cur), s.starts core 0x0C c →
  readsHold sideKind s core c = true →
  heldForRegion s core (sideKind.regions s core c) = false → entryFull sideKind s core c = true →
  (s.outliers c.img (fld c.blk 0x0C 4)).length ≤ 65536 → Leads (.outlierSideProduct core .none) s fun t =>
    let b := c.blk
    let M := fld b 0 2
    let N := fld b 2 1
    let n := (s.outliers c.img (fld b 0x0C 4)).length
    let u := (entryWords sideKind s core c).2
    let A := packBits 512 (entryIn sideKind s core c (fld b 0x10 1))
    let act (m : Nat) : List XNum := (List.range n).map fun i => fmtG16.decode (elemAt A 16 (m * n + i))
    let wt (j : Nat) : List XNum := (List.range n).map fun i => fmtG16.decode ((u.core core).wRd (64 * fld b 8 4 + 2 * (i * N + j)) 2)
    ∀ m j, m < M → j < N → smGet zeroWord (t.core core).acc (fld b 4 4 + m * N + j) =
      (enterAll Pair.zero (List.zipWith (fun x y => gGroup x y 8 8 0) (groups16 (act m)) (groups16 (wt j)))).1.toWord

/-- Gradient tiles (R163, R165): a spill writes its header and the COUNT pairs of its region into the cluster's SRAM and leaves the pairs; a
reload whose header is that of its weight, count and step adds the pairs back, and any other is reported and adds nothing. -/
def Obligations.GradTilesKept : Prop := ∀ (s : State) (core : Fin 256) (c : Cur), s.starts core 6 c →
  heldForRegion s core (cRegions s core c) = false →
  let b := c.blk
  let base := fld b 0x1C 4
  let n := cElems b
  let r := (s.core core).region base
  let cl := clusterOf core
  let a := 64 * fld b 0x24 4
  let o := openTail s core c.re.plan
  (c.img.waitOf core c.re.entry.wait).1 = [] → r.segs = [] →
  (cConv b = 4 → Leads (.gradTileSpill core .none) s fun t => t.sramRd cl a 64 = spillHeader (fld b 0x20 3) n (s.clStep cl) ∧
    (∀ i, i < n → t.sramRd cl (a + 64 + 8 * i) 8 = ((s.core core).pair (base + i)).toWord) ∧
    (t.core core).acc = (s.core core).acc ∧ ((t.core core).region base).pinned = false ∧
    t.reg (Obj.bengSpills core) = min (s.reg (Obj.bengSpills core) + 1) (2 ^ 32 - 1)) ∧
  (cConv b = 5 → r.slots < 65536 →
    (o.sramRd cl a 4 = fld b 0x20 3 → o.sramRd cl (a + 4) 4 = n → o.sramRd cl (a + 8) 4 = s.clStep cl % 2 ^ 32 →
      Leads (.gradTileReload core .none) s fun t => (∀ i, i < n → smGet zeroWord (t.core core).acc (base + i) =
          (pairAdd (Pair.ofWord (o.sramRd cl (a + 64 + 8 * i) 8)) ((s.core core).pair (base + i))).pair.toWord) ∧
        ((t.core core).region base).pinned = true ∧ ((t.core core).region base).slots = r.slots + 1 ∧
        t.reg (Obj.bengReloads core) = min (s.reg (Obj.bengReloads core) + 1) (2 ^ 32 - 1)) ∧
    (o.sramRd cl a 4 ≠ fld b 0x20 3 ∨ o.sramRd cl (a + 4) 4 ≠ n ∨ o.sramRd cl (a + 8) 4 ≠ s.clStep cl % 2 ^ 32 →
      Leads (.gradTileReload core .none) s fun t => (t.core core).acc = (s.core core).acc ∧ Reports s t 0x3D01 .stepAbort (uCore core)))

/-- A step runs the command at the front of the queue on the state with the queue's rest, whatever the command does (this model's own
queue); on an empty queue the module idles, the model's choice (DESIGN CHOICE, log 32). -/
def Obligations.StepTakesTheFront : Prop :=
  (∀ (c : Instr) (s : State), step (s.withPending (c :: s.pending)) = exec c s) ∧ ∀ s : State, s.pending = [] → step s = .next s

/-- Reset leaves a state in form: memory, objects, cores, clusters, layers, log and stored responses; nothing waits, nothing is sent. -/
def Obligations.ResetInForm : Prop := State.reset.wf = true ∧ State.reset.pending = [] ∧ State.reset.outbox = [] ∧
  State.reset.tables = [] ∧ (∀ cl : Fin 16, State.reset.role cl.val = 0) ∧ ∀ a, memByte State.reset.mem a = memDefault a

/-- Every command, in every state, answers a next state: none faults and none is refused; it leaves the queue as it is and takes back
no message sent. -/
def Obligations.EveryCommandAnswers : Prop := ∀ (c : Instr) (s : State),
  Leads c s fun t => t.pending = s.pending ∧ s.outbox <+: t.outbox

/-- Every step keeps the form of the state: memory and every other map stay in their one canonical form, every object's value fits its
size, the event log stays in order and within its capacity, and at most 256 responses are stored. -/
def Obligations.StateFormKept : Prop := ∀ s t : State, s.wf = true → step s = .next t → t.wf = true

/-- The frame of every command: what it does not name in its footprint reads in the next state as before: each byte of memory, each
object of the pages it does not touch, each core, cluster and layer, the log, the clock, the links and the pins. -/
def Obligations.FrameKept : Prop := ∀ (c : Instr) (s t : State) (k : Comp), exec c s = .next t → k ∉ footprint c → Same k s t

/-- R38 and R39, an image written. Refused: event 0x4A01, `TBL.REFUSED` one up, and the active and the shadow tables as they were.
Accepted while another of its kind and scope waits: it replaces that shadow table, event 0x4A02 says so, and it alone is left to be
activated, for a table that comes into force is, whole, the shadow table of its handle. -/
def Obligations.ImagesRefusedAndReplaced : Prop := ∀ (s : State) (q : Req) (h : BitVec 64), s.takesWrite q Obj.tblActivate = true →
  bitsOf h.toNat 40 10 = 0 →
  let snap := regionSnap s.mem (s.regionBase h.toNat) (hBytes h.toNat)
  let waiting (x : TableRec) : Bool := !x.active && sameSlot x.handle h.toNat
  (imageOk (s.setReg Obj.tblActivate h.toNat) h.toNat snap = false → Leads (.tblActivateWrite q h) s fun t =>
    Reports s t 0x4A01 .note uMgt ∧ t.reg Obj.tblRefused = min (s.reg Obj.tblRefused + 1) (2 ^ 32 - 1) ∧ t.tables = s.tables) ∧
  (imageOk (s.setReg Obj.tblActivate h.toNat) h.toNat snap = true → s.tables.any waiting = true → Leads (.tblActivateWrite q h) s fun t =>
    Reports s t 0x4A02 .note uMgt ∧ (∃ r, t.tables.filter waiting = [r] ∧ r.handle = h.toNat ∧ r.snap = snap) ∧
      (t.tables.filter fun x => !waiting x) = s.tables.filter fun x => !waiting x) ∧
  (∀ (g : Fin 3) (t : State), exec (.tableActivationApply h g) s = .next t → ∀ n ∈ t.tables, n.active = true →
    ∃ m ∈ s.tables, m.handle = n.handle ∧ m.snap = n.snap ∧ (m.active = true ∨ m.handle = h.toNat))

/-- R361, an edge of `pps_in`: with `PTP.PPS_MODE` 1 one more than 1 µs off the nearest whole second of the counter is reported and changes
nothing else, and one within it changes nothing; with 0 the edge is ignored. -/
def Obligations.PpsEdgeCompared : Prop := ∀ (s : State) (ns : Fin 1000),
  (s.running = true → s.reg Obj.ptpPpsMode = 1 → 1000 < ppsError (stampOf s ns) → Leads (.ppsInEdge ns) s fun t =>
    Reports s t 0x7C02 .note uDevice ∧ ∀ k ∉ [Comp.outbox, .log, .obj 0x23], Same k s t) ∧
  (s.reg Obj.ptpPpsMode = 1 → ppsError (stampOf s ns) ≤ 1000 → exec (.ppsInEdge ns) s = .next s) ∧
  (s.reg Obj.ptpPpsMode = 0 → exec (.ppsInEdge ns) s = .next s)

/-- R407, the domains a role needs: the cluster fabric, the stacked SRAM and every unfenced core of the cluster. Where one is not ON, the
change to the training or rollout role is refused with event 0x4C01; where all are ON and the role is not 0, a request for another state
of one of them is refused, and it stays ON. -/
def Obligations.RoleKeepsDomainsOn : Prop := ∀ (s : State) (cl : Fin 16),
  let needs (id : Nat) : Prop := id = domFabric cl.val ∨ id = domSram cl.val ∨
    ∃ n, n < 256 ∧ n / 16 = cl.val ∧ s.coreFenced n = false ∧ id = domCore n
  (∀ r id, (s.cluster cl.val).roleReq = some r → r = 1 ∨ r = 2 → roleBoundary s cl.val = true → tablesWait s cl.val (s.role cl.val) = false →
    s.held .checkpoint = false → needs id → s.domOn id = false →
    Leads (.roleChangeApply cl) s fun t => t.role cl.val = s.role cl.val ∧ (t.cluster cl.val).roleReq = none ∧
      Reports s t 0x4C01 .note (uCluster cl.val)) ∧
  (∀ (q : Req) (v : BitVec 8) id, s.takesWrite q Obj.pwrDomReq = true → s.role cl.val ≠ 0 → (∀ i, needs i → s.domOn i = true) → needs id →
    s.reg Obj.pwrDomSel = id → v.toNat ≠ 2 →
    Leads (.domainReqWrite q v) s fun t => t.domOn id = true ∧
      Answers t q 2 Obj.pwrDomReq (if v.toNat < 2 then stState else stRange))
end

