-- ==== Sys2Proof/Laws/SMap.lean ====
section
/-! SUPPORT. Sparse maps: reading after writing, and the canonical form that every operation keeps. -/

namespace Sys2Proof.Machine

section Get

variable {α : Type} (d : Nat → α)

theorem smGet_erase_self (m : SMap α) (k : Nat) : smGet d (smErase m k) k = d k := by
  induction m with
  | nil => rfl
  | cons p m ih => obtain ⟨j, w⟩ := p; simp only [smErase]; split <;> simp_all [smGet]

theorem smGet_erase_ne (m : SMap α) {k j : Nat} (h : j ≠ k) : smGet d (smErase m k) j = smGet d m j := by
  induction m with
  | nil => rfl
  | cons p m ih =>
    obtain ⟨i, w⟩ := p
    simp only [smErase]
    split <;> simp_all [smGet]
    intro hh; omega

theorem smGet_insert_self (m : SMap α) (k : Nat) (v : α) : smGet d (smInsert m k v) k = v := by
  induction m with
  | nil => simp [smInsert, smGet]
  | cons p m ih =>
    obtain ⟨i, w⟩ := p
    simp only [smInsert]
    split
    · simp_all [smGet]
      intro hh; omega
    · split <;> simp_all [smGet]

theorem smGet_insert_ne (m : SMap α) {k j : Nat} (v : α) (h : j ≠ k) : smGet d (smInsert m k v) j = smGet d m j := by
  induction m with
  | nil => simp [smInsert, smGet]; intro hh; omega
  | cons p m ih =>
    obtain ⟨i, w⟩ := p
    simp only [smInsert]
    split
    · simp_all [smGet]
    · split
      · rename_i hh
        subst hh
        have h2 : ¬ i = j := fun hx => h hx.symm
        simp [smGet, smGet_erase_ne d m h, h2]
      · have := smGet_erase_ne d ((i, w) :: m) h
        simp_all [smGet]
        intro h2; omega

theorem smGet_set [DecidableEq α] (m : SMap α) (k j : Nat) (v : α) :
    smGet d (smSet d m k v) j = if j = k then v else smGet d m j := by
  unfold smSet
  split <;> split
  · simp_all [smGet_erase_self]
  · exact smGet_erase_ne d m ‹_›
  · simp_all [smGet_insert_self]
  · exact smGet_insert_ne d m v ‹_›

end Get

/-! ### The canonical form -/

section Wf

variable {α : Type}

/-- The canonical form, for proofs: keys pairwise rising, and no entry equal to its default. -/
structure Canon (d : Nat → α) (m : SMap α) : Prop where
  rising : m.Pairwise fun p q => p.1 < q.1
  proper : ∀ p ∈ m, p.2 ≠ d p.1

theorem canon_nil (d : Nat → α) : Canon d [] := ⟨.nil, by simp⟩

theorem canon_iff [DecidableEq α] (d : Nat → α) (m : SMap α) : smWf d m = true ↔ Canon d m := by
  induction m with
  | nil => simp [smWf, canon_nil]
  | cons p m ih =>
    obtain ⟨j, v⟩ := p
    cases m with
    | nil => simp [smWf]; exact ⟨fun h => ⟨by simp, by simpa using h⟩, fun h => by simpa using h.proper (j, v)⟩
    | cons q m =>
      obtain ⟨k, w⟩ := q
      simp only [smWf, Bool.and_eq_true, decide_eq_true_eq, ih]
      constructor
      · rintro ⟨⟨hv, hjk⟩, hr, hp⟩
        refine ⟨?_, ?_⟩
        · rw [List.pairwise_cons]
          refine ⟨fun a ha => ?_, hr⟩
          rcases List.mem_cons.1 ha with rfl | ha
          · exact hjk
          · exact Nat.lt_trans hjk ((List.pairwise_cons.1 hr).1 a ha)
        · intro a ha
          rcases List.mem_cons.1 ha with rfl | ha
          · exact hv
          · exact hp a ha
      · rintro ⟨hr, hp⟩
        rw [List.pairwise_cons] at hr
        exact ⟨⟨hp (j, v) (by simp), hr.1 (k, w) (by simp)⟩, hr.2, fun a ha => hp a (by simp [ha])⟩

theorem smErase_subset (m : SMap α) (k : Nat) : (smErase m k).Sublist m := by
  induction m with
  | nil => exact .slnil
  | cons p m ih =>
    obtain ⟨j, w⟩ := p
    simp only [smErase]
    split
    · exact .cons _ ih
    · exact .cons_cons _ ih

theorem not_mem_smErase (m : SMap α) (k : Nat) : ∀ p ∈ smErase m k, p.1 ≠ k := by
  induction m with
  | nil => simp [smErase]
  | cons p m ih =>
    obtain ⟨j, w⟩ := p
    simp only [smErase]
    split
    · exact ih
    · intro q hq
      rcases List.mem_cons.1 hq with rfl | hq
      · assumption
      · exact ih q hq

theorem mem_smInsert {m : SMap α} {k : Nat} {v : α} {p : Nat × α} (h : p ∈ smInsert m k v) : p = (k, v) ∨ p ∈ m := by
  induction m with
  | nil => simpa [smInsert] using h
  | cons q m ih =>
    obtain ⟨j, w⟩ := q
    simp only [smInsert] at h
    split at h
    · rcases List.mem_cons.1 h with rfl | h
      · simp
      · rcases ih h with h | h <;> simp [h]
    · split at h
      all_goals
        rcases List.mem_cons.1 h with rfl | h
        · simp
        · have := (smErase_subset _ _).subset h
          simp_all

theorem Canon.sublist {d : Nat → α} {m n : SMap α} (h : Canon d m) (hs : n.Sublist m) : Canon d n :=
  ⟨h.rising.sublist hs, fun p hp => h.proper p (hs.subset hp)⟩

theorem Canon.filter {d : Nat → α} {m : SMap α} (h : Canon d m) (f : Nat × α → Bool) : Canon d (m.filter f) :=
  h.sublist List.filter_sublist

theorem Canon.erase {d : Nat → α} {m : SMap α} (h : Canon d m) (k : Nat) : Canon d (smErase m k) := h.sublist (smErase_subset m k)

theorem Canon.insert {d : Nat → α} {m : SMap α} (h : Canon d m) {k : Nat} {v : α} (hv : v ≠ d k) : Canon d (smInsert m k v) := by
  induction m with
  | nil => exact ⟨by simp [smInsert], by simpa [smInsert] using hv⟩
  | cons p m ih =>
    obtain ⟨j, w⟩ := p
    have hr := List.pairwise_cons.1 h.rising
    have hm : Canon d m := ⟨hr.2, fun p hp => h.proper p (by simp [hp])⟩
    have hjm : ∀ q ∈ m, j < q.1 := hr.1
    simp only [smInsert]
    split
    · rename_i hjk
      have hi := ih hm
      refine ⟨List.pairwise_cons.2 ⟨fun q hq => ?_, hi.rising⟩, fun q hq => ?_⟩
      · rcases mem_smInsert hq with rfl | hq
        · exact hjk
        · exact hjm q hq
      · rcases List.mem_cons.1 hq with rfl | hq
        · exact h.proper _ (by simp)
        · exact hi.proper q hq
    · split
      · rename_i hjk
        subst hjk
        refine ⟨List.pairwise_cons.2 ⟨fun q hq => hjm q ((smErase_subset _ _).subset hq), (hm.erase j).rising⟩, fun q hq => ?_⟩
        rcases List.mem_cons.1 hq with rfl | hq
        · exact hv
        · exact (hm.erase j).proper q hq
      · rename_i h1 h2
        have he := h.erase k
        refine ⟨List.pairwise_cons.2 ⟨fun q hq => ?_, he.rising⟩, fun q hq => ?_⟩
        · have := (smErase_subset _ _).subset hq
          rcases List.mem_cons.1 this with rfl | hq
          · show k < j; omega
          · have h3 := hjm q hq; show k < q.1; omega
        · rcases List.mem_cons.1 hq with rfl | hq
          · exact hv
          · exact he.proper q hq

theorem Canon.set [DecidableEq α] {d : Nat → α} {m : SMap α} (h : Canon d m) (k : Nat) (v : α) : Canon d (smSet d m k v) := by
  unfold smSet
  split
  · exact h.erase k
  · exact h.insert ‹_›

theorem Canon.setMany [DecidableEq α] {d : Nat → α} {m : SMap α} (h : Canon d m) (xs : List (Nat × α)) :
    Canon d (smSetMany d m xs) := by
  induction xs generalizing m with
  | nil => exact h
  | cons x xs ih => exact ih (h.set x.1 x.2)

theorem mem_smSet [DecidableEq α] {d : Nat → α} {m : SMap α} {k : Nat} {v : α} {p : Nat × α} (h : p ∈ smSet d m k v) :
    p = (k, v) ∨ p ∈ m := by
  unfold smSet at h
  split at h
  · exact .inr ((smErase_subset m k).subset h)
  · exact mem_smInsert h

/-- Two canonical maps that read the same are the same data. -/
theorem Canon.ext {d : Nat → α} {m n : SMap α} (hm : Canon d m) (hn : Canon d n) (h : ∀ k, smGet d m k = smGet d n k) : m = n := by
  have get_of_lt : ∀ {m : SMap α} {k : Nat}, (∀ q ∈ m, k < q.1) → smGet d m k = d k := by
    intro m k h
    induction m with
    | nil => rfl
    | cons q m ih =>
      have h1 : q.1 ≠ k := by have := h q (by simp); omega
      simp only [smGet, if_neg h1]
      exact ih fun p hp => h p (by simp [hp])
  induction m generalizing n with
  | nil =>
    cases n with
    | nil => rfl
    | cons q n =>
      have := h q.1
      simp only [smGet, if_true] at this
      exact absurd this.symm (hn.proper q (by simp))
  | cons p m ih =>
    have hr := List.pairwise_cons.1 hm.rising
    have hm' : Canon d m := ⟨hr.2, fun q hq => hm.proper q (by simp [hq])⟩
    have hp : p.2 ≠ d p.1 := hm.proper p (by simp)
    cases n with
    | nil =>
      have := h p.1
      simp only [smGet, if_true] at this
      exact absurd this hp
    | cons q n =>
      have hr2 := List.pairwise_cons.1 hn.rising
      have hn' : Canon d n := ⟨hr2.2, fun x hx => hn.proper x (by simp [hx])⟩
      have hq : q.2 ≠ d q.1 := hn.proper q (by simp)
      have hk : p.1 = q.1 := by
        rcases Nat.lt_trichotomy p.1 q.1 with hlt | heq | hgt
        · have h1 := h p.1
          rw [get_of_lt (m := q :: n) (k := p.1) (by
            intro x hx
            rcases List.mem_cons.1 hx with rfl | hx
            · exact hlt
            · exact Nat.lt_trans hlt (hr2.1 x hx))] at h1
          simp only [smGet, if_true] at h1
          exact absurd h1 hp
        · exact heq
        · have h1 := h q.1
          rw [get_of_lt (m := p :: m) (k := q.1) (by
            intro x hx
            rcases List.mem_cons.1 hx with rfl | hx
            · exact hgt
            · exact Nat.lt_trans hgt (hr.1 x hx))] at h1
          simp only [smGet, if_true] at h1
          exact absurd h1.symm hq
      have hv : p.2 = q.2 := by
        have h1 := h p.1
        simp only [smGet, if_true, hk] at h1
        exact h1
      have hrest : m = n := by
        refine ih hm' hn' fun k => ?_
        have h1 := h k
        by_cases hpk : p.1 = k
        · subst hpk
          rw [get_of_lt hr.1, hk, get_of_lt hr2.1]
        · have hqk : q.1 ≠ k := by rwa [← hk]
          simpa only [smGet, if_neg hpk, if_neg hqk] using h1
      subst hrest
      rw [Prod.ext hk hv]

end Wf

end Sys2Proof.Machine
end

