-- ==== Sys2Proof/Laws/Moves.lean ====
section
/-! SUPPORT. How lemmas say at once what an operation changes at most, that nothing sent is taken back, and that the form of the state
is kept: `Moves A s t`, where the number `A` has a bit for each part that may change. -/

namespace Sys2Proof.Machine

/-- The bit of a part. -/
def Comp.index : Comp → Nat
  | .pending => 0
  | .outbox => 1
  | .fresh => 2
  | .counter => 3
  | .tables => 4
  | .arrivals => 5
  | .cores => 6
  | .clusters => 7
  | .train => 8
  | .roll => 9
  | .layers => 10
  | .cells => 11
  | .poison => 12
  | .memory => 13
  | .weir => 14
  | .log => 15
  | .mgt => 16
  | .power => 17
  | .pins => 18
  | .rill => 19
  | .net => 20
  | .ckpt => 21
  | .ledger => 22
  | .flash => 23
  | .holds => 24
  | .stopped => 25
  | .dead => 26
  | .obj p => 32 + p.val

/-- The bits of a list of parts. -/
def maskOf : List Comp → Nat
  | [] => 0
  | c :: cs => 2 ^ c.index ||| maskOf cs

/-- Every bit of `B` is one of `A`. -/
abbrev Sub (B A : Nat) : Prop := B ||| A = A

theorem Sub.bit {B A i : Nat} (h : Sub B A) (hi : B.testBit i = true) : A.testBit i = true := by
  rw [← h, Nat.testBit_or, hi, Bool.true_or]
theorem Sub.off {B A i : Nat} (h : Sub B A) (hi : A.testBit i = false) : B.testBit i = false := by
  cases hb : B.testBit i
  · rfl
  · rw [h.bit hb] at hi; cases hi
theorem Sub.trans {A B C : Nat} (h1 : Sub A B) (h2 : Sub B C) : Sub A C := by
  apply Nat.eq_of_testBit_eq
  intro i
  rw [Nat.testBit_or]
  cases ha : A.testBit i
  · simp
  · simp [h2.bit (h1.bit ha)]
theorem Sub.refl (A : Nat) : Sub A A := Nat.or_self A

/-- What an operation changes at most, with what it keeps. -/
structure Moves (A : Nat) (s t : State) : Prop where
  same : ∀ c : Comp, A.testBit c.index = false → Same c s t
  sent : s.outbox <+: t.outbox
  wf : s.wf = true → t.wf = true

theorem Same.refl (c : Comp) (s : State) : Same c s s := by cases c <;> simp [Same]
theorem Same.trans {c : Comp} {s t u : State} (h1 : Same c s t) (h2 : Same c t u) : Same c s u := by
  cases c <;> simp only [Same] at h1 h2 ⊢ <;> first | exact h2.trans h1 | (intro k; exact (h2 k).trans (h1 k)) | (intro k hk; exact (h2 k hk).trans (h1 k hk))

theorem Moves.refl (A : Nat) (s : State) : Moves A s s := ⟨fun c _ => Same.refl c s, List.prefix_refl _, id⟩
theorem Moves.trans {A B : Nat} {s t u : State} (h : Moves A s t) (hB : Sub B A) (h2 : Moves B t u) : Moves A s u :=
  ⟨fun c hc => (h.same c hc).trans (h2.same c (hB.off hc)), h.sent.trans h2.sent, fun hw => h2.wf (h.wf hw)⟩
theorem Moves.mono {A B : Nat} {s t : State} (h : Moves A s t) (hA : Sub A B) : Moves B s t :=
  ⟨fun c hc => h.same c (hA.off hc), h.sent, h.wf⟩

/-! ### The form of the state, as a proposition -/

theorem wf_iff (s : State) : s.wf = true ↔ Canon regDefault s.regs ∧ s.regsFit = true ∧ Canon dCore s.cores ∧ Canon dCluster s.clusters ∧
    Canon dLayer s.layers ∧ (Canon memDefault s.mem.cells ∧ Canon notPoisoned s.mem.poison) ∧ s.log.wf = true ∧ s.mgt.stored.length ≤ 256 := by
  simp [State.wf, Memory.wf, canon_iff, and_assoc]

/-! ### Changes of one part -/

theorem withPending_moves {A : Nat} {s0 s : State} (v) (h : Moves A s0 s) (hA : Sub 1 A) : Moves A s0 (s.withPending v) :=
  h.trans hA ⟨fun c hc => by cases c <;> first | exact rfl | exact fun _ => rfl | exact fun _ _ => rfl | exact absurd hc (by decide),
    List.prefix_refl _, id⟩
theorem withFresh_moves {A : Nat} {s0 s : State} (v) (h : Moves A s0 s) (hA : Sub 4 A) : Moves A s0 (s.withFresh v) :=
  h.trans hA ⟨fun c hc => by cases c <;> first | exact rfl | exact fun _ => rfl | exact fun _ _ => rfl | exact absurd hc (by decide),
    List.prefix_refl _, id⟩
theorem withCounter_moves {A : Nat} {s0 s : State} (v) (h : Moves A s0 s) (hA : Sub 8 A) : Moves A s0 (s.withCounter v) :=
  h.trans hA ⟨fun c hc => by cases c <;> first | exact rfl | exact fun _ => rfl | exact fun _ _ => rfl | exact absurd hc (by decide),
    List.prefix_refl _, id⟩
theorem withTables_moves {A : Nat} {s0 s : State} (v) (h : Moves A s0 s) (hA : Sub 16 A) : Moves A s0 (s.withTables v) :=
  h.trans hA ⟨fun c hc => by cases c <;> first | exact rfl | exact fun _ => rfl | exact fun _ _ => rfl | exact absurd hc (by decide),
    List.prefix_refl _, id⟩
theorem withArrivals_moves {A : Nat} {s0 s : State} (v) (h : Moves A s0 s) (hA : Sub 32 A) : Moves A s0 (s.withArrivals v) :=
  h.trans hA ⟨fun c hc => by cases c <;> first | exact rfl | exact fun _ => rfl | exact fun _ _ => rfl | exact absurd hc (by decide),
    List.prefix_refl _, id⟩
theorem withTrain_moves {A : Nat} {s0 s : State} (v) (h : Moves A s0 s) (hA : Sub 256 A) : Moves A s0 (s.withTrain v) :=
  h.trans hA ⟨fun c hc => by cases c <;> first | exact rfl | exact fun _ => rfl | exact fun _ _ => rfl | exact absurd hc (by decide),
    List.prefix_refl _, id⟩
theorem withRoll_moves {A : Nat} {s0 s : State} (v) (h : Moves A s0 s) (hA : Sub 512 A) : Moves A s0 (s.withRoll v) :=
  h.trans hA ⟨fun c hc => by cases c <;> first | exact rfl | exact fun _ => rfl | exact fun _ _ => rfl | exact absurd hc (by decide),
    List.prefix_refl _, id⟩
theorem withWeir_moves {A : Nat} {s0 s : State} (v) (h : Moves A s0 s) (hA : Sub 16384 A) : Moves A s0 (s.withWeir v) :=
  h.trans hA ⟨fun c hc => by cases c <;> first | exact rfl | exact fun _ => rfl | exact fun _ _ => rfl | exact absurd hc (by decide),
    List.prefix_refl _, id⟩
theorem withPower_moves {A : Nat} {s0 s : State} (v) (h : Moves A s0 s) (hA : Sub 131072 A) : Moves A s0 (s.withPower v) :=
  h.trans hA ⟨fun c hc => by cases c <;> first | exact rfl | exact fun _ => rfl | exact fun _ _ => rfl | exact absurd hc (by decide),
    List.prefix_refl _, id⟩
theorem withPins_moves {A : Nat} {s0 s : State} (v) (h : Moves A s0 s) (hA : Sub 262144 A) : Moves A s0 (s.withPins v) :=
  h.trans hA ⟨fun c hc => by cases c <;> first | exact rfl | exact fun _ => rfl | exact fun _ _ => rfl | exact absurd hc (by decide),
    List.prefix_refl _, id⟩
theorem withRill_moves {A : Nat} {s0 s : State} (v) (h : Moves A s0 s) (hA : Sub 524288 A) : Moves A s0 (s.withRill v) :=
  h.trans hA ⟨fun c hc => by cases c <;> first | exact rfl | exact fun _ => rfl | exact fun _ _ => rfl | exact absurd hc (by decide),
    List.prefix_refl _, id⟩
theorem withNet_moves {A : Nat} {s0 s : State} (v) (h : Moves A s0 s) (hA : Sub 1048576 A) : Moves A s0 (s.withNet v) :=
  h.trans hA ⟨fun c hc => by cases c <;> first | exact rfl | exact fun _ => rfl | exact fun _ _ => rfl | exact absurd hc (by decide),
    List.prefix_refl _, id⟩
theorem withCkpt_moves {A : Nat} {s0 s : State} (v) (h : Moves A s0 s) (hA : Sub 2097152 A) : Moves A s0 (s.withCkpt v) :=
  h.trans hA ⟨fun c hc => by cases c <;> first | exact rfl | exact fun _ => rfl | exact fun _ _ => rfl | exact absurd hc (by decide),
    List.prefix_refl _, id⟩
theorem withLedger_moves {A : Nat} {s0 s : State} (v) (h : Moves A s0 s) (hA : Sub 4194304 A) : Moves A s0 (s.withLedger v) :=
  h.trans hA ⟨fun c hc => by cases c <;> first | exact rfl | exact fun _ => rfl | exact fun _ _ => rfl | exact absurd hc (by decide),
    List.prefix_refl _, id⟩
theorem withFlash_moves {A : Nat} {s0 s : State} (v) (h : Moves A s0 s) (hA : Sub 8388608 A) : Moves A s0 (s.withFlash v) :=
  h.trans hA ⟨fun c hc => by cases c <;> first | exact rfl | exact fun _ => rfl | exact fun _ _ => rfl | exact absurd hc (by decide),
    List.prefix_refl _, id⟩
theorem withHolds_moves {A : Nat} {s0 s : State} (v) (h : Moves A s0 s) (hA : Sub 16777216 A) : Moves A s0 (s.withHolds v) :=
  h.trans hA ⟨fun c hc => by cases c <;> first | exact rfl | exact fun _ => rfl | exact fun _ _ => rfl | exact absurd hc (by decide),
    List.prefix_refl _, id⟩
theorem withStopped_moves {A : Nat} {s0 s : State} (v) (h : Moves A s0 s) (hA : Sub 33554432 A) : Moves A s0 (s.withStopped v) :=
  h.trans hA ⟨fun c hc => by cases c <;> first | exact rfl | exact fun _ => rfl | exact fun _ _ => rfl | exact absurd hc (by decide),
    List.prefix_refl _, id⟩
theorem withDead_moves {A : Nat} {s0 s : State} (v) (h : Moves A s0 s) (hA : Sub 67108864 A) : Moves A s0 (s.withDead v) :=
  h.trans hA ⟨fun c hc => by cases c <;> first | exact rfl | exact fun _ => rfl | exact fun _ _ => rfl | exact absurd hc (by decide),
    List.prefix_refl _, id⟩

/-- A part that the form of the state speaks of: the new value must have its form. -/
theorem withCores_moves {A : Nat} {s0 s : State} {v : SMap Core} (h : Moves A s0 s) (hv : Canon dCore s.cores → Canon dCore v) (hA : Sub 64 A) :
    Moves A s0 (s.withCores v) :=
  h.trans hA ⟨fun c hc => by cases c <;> first | exact rfl | exact fun _ => rfl | exact fun _ _ => rfl | exact absurd hc (by decide),
    List.prefix_refl _, fun hw => by
      obtain ⟨h1, h2, h3, h4, h5, h6, h7, h8⟩ := (wf_iff s).1 hw
      exact (wf_iff _).2 ⟨h1, h2, hv h3, h4, h5, h6, h7, h8⟩⟩
theorem withClusters_moves {A : Nat} {s0 s : State} {v : SMap Cluster} (h : Moves A s0 s) (hv : Canon dCluster s.clusters → Canon dCluster v)
    (hA : Sub 128 A) : Moves A s0 (s.withClusters v) :=
  h.trans hA ⟨fun c hc => by cases c <;> first | exact rfl | exact fun _ => rfl | exact fun _ _ => rfl | exact absurd hc (by decide),
    List.prefix_refl _, fun hw => by
      obtain ⟨h1, h2, h3, h4, h5, h6, h7, h8⟩ := (wf_iff s).1 hw
      exact (wf_iff _).2 ⟨h1, h2, h3, hv h4, h5, h6, h7, h8⟩⟩
theorem withLayers_moves {A : Nat} {s0 s : State} {v : SMap Layer} (h : Moves A s0 s) (hv : Canon dLayer s.layers → Canon dLayer v)
    (hA : Sub 1024 A) : Moves A s0 (s.withLayers v) :=
  h.trans hA ⟨fun c hc => by cases c <;> first | exact rfl | exact fun _ => rfl | exact fun _ _ => rfl | exact absurd hc (by decide),
    List.prefix_refl _, fun hw => by
      obtain ⟨h1, h2, h3, h4, h5, h6, h7, h8⟩ := (wf_iff s).1 hw
      exact (wf_iff _).2 ⟨h1, h2, h3, h4, hv h5, h6, h7, h8⟩⟩
theorem withLog_moves {A : Nat} {s0 s : State} {v : LogState} (h : Moves A s0 s) (hv : s.log.wf = true → v.wf = true)
    (hA : Sub 32768 A) : Moves A s0 (s.withLog v) :=
  h.trans hA ⟨fun c hc => by cases c <;> first | exact rfl | exact fun _ => rfl | exact fun _ _ => rfl | exact absurd hc (by decide),
    List.prefix_refl _, fun hw => by
      obtain ⟨h1, h2, h3, h4, h5, h6, h7, h8⟩ := (wf_iff s).1 hw
      exact (wf_iff _).2 ⟨h1, h2, h3, h4, h5, h6, hv h7, h8⟩⟩
theorem withMgt_moves {A : Nat} {s0 s : State} {v : MgtState} (h : Moves A s0 s) (hv : s.mgt.stored.length ≤ 256 → v.stored.length ≤ 256)
    (hA : Sub 65536 A) : Moves A s0 (s.withMgt v) :=
  h.trans hA ⟨fun c hc => by cases c <;> first | exact rfl | exact fun _ => rfl | exact fun _ _ => rfl | exact absurd hc (by decide),
    List.prefix_refl _, fun hw => by
      obtain ⟨h1, h2, h3, h4, h5, h6, h7, h8⟩ := (wf_iff s).1 hw
      exact (wf_iff _).2 ⟨h1, h2, h3, h4, h5, h6, h7, hv h8⟩⟩
theorem withOutbox_moves {A : Nat} {s0 s : State} (v) (h : Moves A s0 s) (hA : Sub 2 A) :
    Moves A s0 (s.withOutbox (s.outbox ++ v)) :=
  h.trans hA ⟨fun c hc => by cases c <;> first | exact rfl | exact fun _ => rfl | exact fun _ _ => rfl | exact absurd hc (by decide),
    List.prefix_append _ _, id⟩

/-! ### Memory -/

/-- What an operation of memory changes at most, of the bytes and the poison; it keeps the canonical form. -/
structure MMoves (A : Nat) (m n : MemState) : Prop where
  cells : A.testBit 11 = false → ∀ a, memByte n a = memByte m a
  poison : A.testBit 12 = false → n.poison = m.poison
  memory : A.testBit 13 = false → { n with cells := [], poison := [] } = { m with cells := [], poison := [] }
  wf : Canon memDefault m.cells ∧ Canon notPoisoned m.poison → Canon memDefault n.cells ∧ Canon notPoisoned n.poison

theorem MMoves.refl (A : Nat) (m : MemState) : MMoves A m m := ⟨fun _ _ => rfl, fun _ => rfl, fun _ => rfl, id⟩
theorem MMoves.trans {A B : Nat} {m n k : MemState} (h : MMoves A m n) (hB : Sub B A) (h2 : MMoves B n k) : MMoves A m k :=
  ⟨fun hc a => (h2.cells (hB.off hc) a).trans (h.cells hc a), fun hc => (h2.poison (hB.off hc)).trans (h.poison hc),
    fun hc => (h2.memory (hB.off hc)).trans (h.memory hc), fun hw => h2.wf (h.wf hw)⟩

theorem MMoves.rest {A : Nat} {m0 m n : MemState} (h : MMoves A m0 m) (hc : n.cells = m.cells) (hp : n.poison = m.poison) (hA : Sub 8192 A) :
    MMoves A m0 n := MMoves.trans h (Sub.refl A) ⟨fun _ a => by rw [memByte, memByte, hc], fun _ => hp,
      fun h => absurd (hA.bit (by decide : Nat.testBit 8192 13 = true)) (by rw [h]; decide), fun hw => by rw [hc, hp]; exact hw⟩

theorem MMoves.filtered {A : Nat} {m0 m : MemState} (f : Nat × Byte → Bool) (g : Nat × Bool → Bool) (h : MMoves A m0 m)
    (hA : Sub 6144 A) :
    MMoves A m0 { m with cells := m.cells.filter f, poison := m.poison.filter g } :=
  h.trans hA ⟨fun hc => absurd hc (by decide), fun hc => absurd hc (by decide), fun _ => rfl, fun hw => ⟨hw.1.filter _, hw.2.filter _⟩⟩

theorem withMem_moves {A : Nat} {s0 s : State} {m : MemState} (h : Moves A s0 s) (hm : MMoves A s.mem m) : Moves A s0 (s.withMem m) := by
  refine h.trans (Sub.refl A) ⟨fun c hc => ?_, List.prefix_refl _, fun hw => ?_⟩
  · cases c <;> first | exact rfl | exact fun _ => rfl | exact fun _ _ => rfl | exact hm.cells hc | exact hm.poison hc | exact hm.memory hc
  · obtain ⟨h1, h2, h3, h4, h5, h6, h7, h8⟩ := (wf_iff s).1 hw
    exact (wf_iff _).2 ⟨h1, h2, h3, h4, h5, hm.wf h6, h7, h8⟩

/-- A part of memory's state beside its bytes. -/
theorem mem_rest {A : Nat} {m n : MemState} (hc : n.cells = m.cells) (hp : n.poison = m.poison) (hA : Sub 8192 A) : MMoves A m n :=
  ⟨fun _ a => by rw [memByte, memByte, hc], fun _ => hp, fun h => absurd (hA.bit (by decide : Nat.testBit 8192 13 = true)) (by rw [h]; decide),
    fun hw => by rw [hc, hp]; exact hw⟩

theorem memSetByte_moves {A : Nat} {m0 m : MemState} (a : Nat) (b : Byte) (h : MMoves A m0 m) (hA : Sub 2048 A) :
    MMoves A m0 (memSetByte m a b) :=
  h.trans hA ⟨fun hc => absurd hc (by decide), fun _ => rfl, fun _ => rfl, fun hw => ⟨hw.1.set _ _, hw.2⟩⟩
theorem memWriteBytes_moves {A : Nat} {m0 m : MemState} (a : Nat) (bs : List Byte) (h : MMoves A m0 m) (hA : Sub 2048 A) :
    MMoves A m0 (memWriteBytes m a bs) := by
  induction bs generalizing m a with
  | nil => exact h
  | cons b bs ih => exact ih _ (memSetByte_moves a b h hA)
theorem memWrite_moves {A : Nat} {m0 m : MemState} (a n v : Nat) (h : MMoves A m0 m) (hA : Sub 2048 A) :
    MMoves A m0 (memWrite m a n v) := memWriteBytes_moves a _ h hA
theorem clearPoison_moves {A : Nat} {m0 m : MemState} (a n : Nat) (h : MMoves A m0 m) (hA : Sub 4096 A) :
    MMoves A m0 (clearPoison m a n) :=
  h.trans hA ⟨fun _ _ => rfl, fun hc => absurd hc (by decide), fun _ => rfl, fun hw => ⟨hw.1, hw.2.filter _⟩⟩
theorem setPoison_moves {A : Nat} {m0 m : MemState} (w : Nat) (h : MMoves A m0 m) (hA : Sub 4096 A) :
    MMoves A m0 (setPoison m w) :=
  h.trans hA ⟨fun _ _ => rfl, fun hc => absurd hc (by decide), fun _ => rfl, fun hw => ⟨hw.1, hw.2.set w true⟩⟩

/-! ### Objects -/

theorem regsFit_iff (s : State) : s.regsFit = true ↔ ∀ p ∈ s.regs, p.2 < 256 ^ objSize (objPart p.1) := by simp [State.regsFit]

theorem withRegs_moves {A p : Nat} {s0 s : State} {m : SMap Nat} (h : Moves A s0 s) (hA : Sub (2 ^ (32 + p)) A)
    (hr : ∀ k, page k ≠ p → smGet regDefault m k = s.reg k)
    (hw : Canon regDefault s.regs ∧ s.regsFit = true → Canon regDefault m ∧ (s.withRegs m).regsFit = true) :
    Moves A s0 (s.withRegs m) := by
  refine h.trans hA ⟨fun c hc => ?_, List.prefix_refl _, fun hs => ?_⟩
  · cases c <;> first | exact rfl | exact fun _ => rfl | exact fun _ _ => rfl | skip
    rename_i q
    intro k hk
    refine hr k fun hkp => ?_
    rw [hkp] at hk
    subst hk
    simp [Comp.index, Nat.testBit_two_pow_self] at hc
  · obtain ⟨h1, h2, h3, h4, h5, h6, h7, h8⟩ := (wf_iff s).1 hs
    obtain ⟨h1, h2⟩ := hw ⟨h1, h2⟩
    exact (wf_iff _).2 ⟨h1, h2, h3, h4, h5, h6, h7, h8⟩

theorem setReg_moves {A p : Nat} {s0 s : State} (k v : Nat) (hk : page k = p) (h : Moves A s0 s) (hA : Sub (2 ^ (32 + p)) A) :
    Moves A s0 (s.setReg k v) := by
  refine withRegs_moves h hA (fun j hj => ?_) fun hw => ⟨hw.1.set _ _, ?_⟩
  · rw [smGet_set, if_neg (by rintro rfl; exact hj hk)]; rfl
  · have h2 := (regsFit_iff s).1 hw.2
    refine (regsFit_iff _).2 fun q hq => ?_
    rcases mem_smSet hq with rfl | hq
    · exact Nat.mod_lt _ (Nat.pow_pos (by decide))
    · exact h2 q hq
theorem bump_moves {A p : Nat} {s0 s : State} (k v : Nat) (hk : page k = p) (h : Moves A s0 s) (hA : Sub (2 ^ (32 + p)) A) :
    Moves A s0 (s.bump k v) := setReg_moves _ _ hk h hA
theorem raiseTo_moves {A p : Nat} {s0 s : State} (k v : Nat) (hk : page k = p) (h : Moves A s0 s) (hA : Sub (2 ^ (32 + p)) A) :
    Moves A s0 (s.raiseTo k v) := setReg_moves _ _ hk h hA
theorem clearReg_moves {A p : Nat} {s0 s : State} (k : Nat) (hk : page k = p) (h : Moves A s0 s) (hA : Sub (2 ^ (32 + p)) A) :
    Moves A s0 (s.clearReg k) := by
  refine withRegs_moves h hA (fun j hj => ?_) fun hw => ⟨hw.1.erase _, ?_⟩
  · rw [smGet_erase_ne]; · rfl
    rintro rfl; exact hj hk
  · have h2 := (regsFit_iff s).1 hw.2
    exact (regsFit_iff _).2 fun q hq => h2 q ((smErase_subset _ _).subset hq)
theorem clearRegs_moves {A : Nat} {s0 s : State} (ks : List Nat) (h : Moves A s0 s) (hk : ∀ k ∈ ks, Sub (2 ^ (32 + page k)) A) :
    Moves A s0 (s.clearRegs ks) := by
  induction ks generalizing s with
  | nil => exact h
  | cons k ks ih => exact ih (clearReg_moves k rfl h (hk k (by simp))) fun j hj => hk j (by simp [hj])

theorem page_ofUnit {k p : Nat} (u : Nat) (h : page k = p) : page (ofUnit k u) = p := by
  unfold page ofUnit at *; omega

/-! ### Sequences -/

theorem forAll_moves {α : Type} {A : Nat} {s0 s : State} (xs : List α) (f : α → State → State) (h : Moves A s0 s)
    (hf : ∀ x s, Moves A s0 s → Moves A s0 (f x s)) : Moves A s0 (forAll xs f s) := by
  unfold forAll
  induction xs generalizing s with
  | nil => exact h
  | cons x xs ih => exact ih (hf x s h)
/-- The same with what is known of the elements. -/
theorem forAll_moves_mem {α : Type} {A : Nat} {s0 s : State} (xs : List α) (f : α → State → State) (h : Moves A s0 s)
    (hf : ∀ x ∈ xs, ∀ s, Moves A s0 s → Moves A s0 (f x s)) : Moves A s0 (forAll xs f s) := by
  unfold forAll
  induction xs generalizing s with
  | nil => exact h
  | cons x xs ih => exact ih (hf x (by simp) s h) fun y hy => hf y (by simp [hy])
theorem foldl_moves {α : Type} {A : Nat} {s0 s : State} (xs : List α) (f : State → α → State) (h : Moves A s0 s)
    (hf : ∀ x s, Moves A s0 s → Moves A s0 (f s x)) : Moves A s0 (xs.foldl f s) := by
  induction xs generalizing s with
  | nil => exact h
  | cons x xs ih => exact ih (hf x s h)

/-! ### The operations of Machine/Ops.lean -/

theorem setCore_moves {A : Nat} {s0 s : State} (n : Nat) (c : Core) (h : Moves A s0 s) (hA : Sub 64 A) : Moves A s0 (s.setCore n c) :=
  withCores_moves h (fun hc => hc.set n c) hA
theorem modCore_moves {A : Nat} {s0 s : State} (n : Nat) (f : Core → Core) (h : Moves A s0 s) (hA : Sub 64 A) : Moves A s0 (s.modCore n f) :=
  setCore_moves n _ h hA
theorem setCluster_moves {A : Nat} {s0 s : State} (n : Nat) (c : Cluster) (h : Moves A s0 s) (hA : Sub 128 A) : Moves A s0 (s.setCluster n c) :=
  withClusters_moves h (fun hc => hc.set n c) hA
theorem modCluster_moves {A : Nat} {s0 s : State} (n : Nat) (f : Cluster → Cluster) (h : Moves A s0 s) (hA : Sub 128 A) :
    Moves A s0 (s.modCluster n f) := setCluster_moves n _ h hA
theorem modLayer_moves {A : Nat} {s0 s : State} (n : Nat) (f : Layer → Layer) (h : Moves A s0 s) (hA : Sub 1024 A) :
    Moves A s0 (s.modLayer n f) := withLayers_moves h (fun hc => hc.set n _) hA
theorem draw_moves {A : Nat} {s0 s : State} (h : Moves A s0 s) (hA : Sub 4 A) : Moves A s0 s.draw.2 := withFresh_moves _ h hA

theorem seqFrom_take (n k : Nat) (es : List Event) (h : seqFrom n es = true) : seqFrom n (es.take k) = true := by
  induction es generalizing n k with
  | nil => simpa using h
  | cons e es ih =>
    cases k with
    | zero => rfl
    | succ k =>
      simp only [seqFrom, Bool.and_eq_true] at h
      simp only [List.take_succ_cons, seqFrom, Bool.and_eq_true]
      exact ⟨h.1, ih _ _ h.2⟩

theorem logRecord_moves {A : Nat} {s0 s : State} (e : Event) (h : Moves A s0 s) (hA : Sub 147573952589676445698 A) : Moves A s0 (logRecord s e) := by
  unfold logRecord
  dsimp -proj only []
  have h1 : Moves A s0 (s.withLog { s.log with ring := ({ e with seq := s.log.next } :: s.log.ring).take 65536, next := s.log.next + 1 }) := by
    refine withLog_moves h (fun hw => ?_) (Sub.trans (by decide) hA)
    simp only [LogState.wf, Bool.and_eq_true, decide_eq_true_eq] at hw ⊢
    refine ⟨⟨by rw [List.length_take]; omega, hw.1.2⟩, seqFrom_take _ _ _ ?_⟩
    simp [seqFrom, hw.2]
  have h2 := withOutbox_moves (subscribers s { e with seq := s.log.next }) h1 (Sub.trans (by decide) hA)
  split
  · refine setReg_moves _ _ (by decide : page Obj.modAlertSeq = 0x23) ?_ (Sub.trans (by decide) hA)
    exact withLog_moves h2 id (Sub.trans (by decide) hA)
  · exact h2

/-! ### How a term is made -/

theorem ite_moves {A : Nat} {s0 a b : State} {c : Prop} [Decidable c] (h1 : c → Moves A s0 a) (h2 : ¬c → Moves A s0 b) :
    Moves A s0 (if c then a else b) := by split <;> simp_all
theorem ite_mmoves {A : Nat} {s0 a b : MemState} {c : Prop} [Decidable c] (h1 : c → MMoves A s0 a) (h2 : ¬c → MMoves A s0 b) :
    MMoves A s0 (if c then a else b) := by split <;> simp_all
theorem ite_ans {A : Nat} {s0 : State} {a b : Ans} {c : Prop} [Decidable c] (h1 : c → Moves A s0 a.st) (h2 : ¬c → Moves A s0 b.st) :
    Moves A s0 (if c then a else b).st := by split <;> simp_all
theorem ite_fst {A : Nat} {s0 : State} {β : Type} {a b : State × β} {c : Prop} [Decidable c] (h1 : c → Moves A s0 a.1) (h2 : ¬c → Moves A s0 b.1) :
    Moves A s0 (if c then a else b).1 := by split <;> simp_all
theorem ite_snd {A : Nat} {s0 : State} {β : Type} {a b : β × State} {c : Prop} [Decidable c] (h1 : c → Moves A s0 a.2) (h2 : ¬c → Moves A s0 b.2) :
    Moves A s0 (if c then a else b).2 := by split <;> simp_all
theorem snd_moves {A : Nat} {s0 t : State} {β : Type} {p : β × State} {b : β} (h : p = (b, t)) (hm : Moves A s0 p.2) : Moves A s0 t := by
  subst h; exact hm
theorem fst_moves {A : Nat} {s0 t : State} {β : Type} {p : State × β} {b : β} (h : p = (t, b)) (hm : Moves A s0 p.1) : Moves A s0 t := by
  subst h; exact hm

/-- The outcome is a next state that the command moved to. -/
def Runs (A : Nat) (s : State) (o : Host.Outcome State Fault Refusal) : Prop := ∃ t, o = .next t ∧ Moves A s t
theorem ite_runs {A : Nat} {s0 : State} {a b : Host.Outcome State Fault Refusal} {c : Prop} [Decidable c] (h1 : c → Runs A s0 a) (h2 : ¬c → Runs A s0 b) :
    Runs A s0 (if c then a else b) := by split <;> simp_all
theorem Runs.next {A : Nat} {s0 t : State} (h : Moves A s0 t) : Runs A s0 (.next t) := ⟨t, rfl, h⟩

end Sys2Proof.Machine
end

