-- ==== Sys2Proof/Laws/Pages.lean ====
section
/-! SUPPORT. The page of each object. -/

namespace Sys2Proof.Machine

theorem page_cadCounter : page Obj.cadCounter = 64 := rfl
theorem page_cadSyncState : page Obj.cadSyncState = 64 := rfl
theorem page_cadOffset : page Obj.cadOffset = 64 := rfl
theorem page_cadHoldoverLimit : page Obj.cadHoldoverLimit = 64 := rfl
theorem page_cadBarrierGrace : page Obj.cadBarrierGrace = 64 := rfl
theorem page_cadFrameLast : page Obj.cadFrameLast = 64 := rfl
theorem page_cadFrameCount : page Obj.cadFrameCount = 64 := rfl
theorem page_cadFrameReject : page Obj.cadFrameReject = 64 := rfl
theorem page_tblActivate : page Obj.tblActivate = 66 := rfl
theorem page_tblActStatus : page Obj.tblActStatus = 66 := rfl
theorem page_tblRefused : page Obj.tblRefused = 66 := rfl
theorem page_tblActiveK1 : page Obj.tblActiveK1 = 66 := rfl
theorem page_tblActiveK2 : page Obj.tblActiveK2 = 66 := rfl
theorem page_tblActiveK3 : page Obj.tblActiveK3 = 66 := rfl
theorem page_tblActiveK4 : page Obj.tblActiveK4 = 66 := rfl
theorem page_tblActiveK5 : page Obj.tblActiveK5 = 66 := rfl
theorem page_tblActiveK6 : page Obj.tblActiveK6 = 66 := rfl
theorem page_tblActiveK7 : page Obj.tblActiveK7 = 66 := rfl
theorem page_tblActiveK8 : page Obj.tblActiveK8 = 66 := rfl
theorem page_tblActiveK9 : page Obj.tblActiveK9 = 66 := rfl
theorem page_schedClRoleReq (n : Nat) : page (Obj.schedClRoleReq n) = 65 := by unfold page Obj.schedClRoleReq ob; omega
theorem page_schedClRole (n : Nat) : page (Obj.schedClRole n) = 65 := by unfold page Obj.schedClRole ob; omega
theorem page_schedClPacing (n : Nat) : page (Obj.schedClPacing n) = 65 := by unfold page Obj.schedClPacing ob; omega
theorem page_schedClImage (n : Nat) : page (Obj.schedClImage n) = 65 := by unfold page Obj.schedClImage ob; omega
theorem page_schedClVariant (n : Nat) : page (Obj.schedClVariant n) = 65 := by unfold page Obj.schedClVariant ob; omega
theorem page_schedClStep (n : Nat) : page (Obj.schedClStep n) = 65 := by unfold page Obj.schedClStep ob; omega
theorem page_schedClSlips (n : Nat) : page (Obj.schedClSlips n) = 65 := by unfold page Obj.schedClSlips ob; omega
theorem page_schedClSlipMax (n : Nat) : page (Obj.schedClSlipMax n) = 65 := by unfold page Obj.schedClSlipMax ob; omega
theorem page_schedClNbrSlips (n : Nat) : page (Obj.schedClNbrSlips n) = 65 := by unfold page Obj.schedClNbrSlips ob; omega
theorem page_schedClFenced (n : Nat) : page (Obj.schedClFenced n) = 65 := by unfold page Obj.schedClFenced ob; omega
theorem page_schedClSegmented (n : Nat) : page (Obj.schedClSegmented n) = 65 := by unfold page Obj.schedClSegmented ob; omega
theorem page_fmtCbCount : page Obj.fmtCbCount = 48 := rfl
theorem page_fmtRsvReads : page Obj.fmtRsvReads = 48 := rfl
theorem page_fmtNanNarrowed : page Obj.fmtNanNarrowed = 48 := rfl
theorem page_fmtBadScales : page Obj.fmtBadScales = 48 := rfl
theorem page_rngSeed : page Obj.rngSeed = 49 := rfl
theorem page_rngSeedSet : page Obj.rngSeedSet = 49 := rfl
theorem page_spillLastTensor (n : Nat) : page (Obj.spillLastTensor n) = 52 := by unfold page Obj.spillLastTensor ob; omega
theorem page_spillBlkSat (n : Nat) : page (Obj.spillBlkSat n) = 52 := by unfold page Obj.spillBlkSat ob; omega
theorem page_spillBlkZero (n : Nat) : page (Obj.spillBlkZero n) = 52 := by unfold page Obj.spillBlkZero ob; omega
theorem page_spillNanIn (n : Nat) : page (Obj.spillNanIn n) = 52 := by unfold page Obj.spillNanIn ob; omega
theorem page_spillZeroBlocks (n : Nat) : page (Obj.spillZeroBlocks n) = 52 := by unfold page Obj.spillZeroBlocks ob; omega
theorem page_spillSkew (n : Nat) : page (Obj.spillSkew n) = 52 := by unfold page Obj.spillSkew ob; omega
theorem page_spillHistSel : page Obj.spillHistSel = 53 := rfl
theorem page_spillHist : page Obj.spillHist = 53 := rfl
theorem page_fengEntries (n : Nat) : page (Obj.fengEntries n) = 55 := by unfold page Obj.fengEntries ob; omega
theorem page_fengZblkSkipped (n : Nat) : page (Obj.fengZblkSkipped n) = 55 := by unfold page Obj.fengZblkSkipped ob; omega
theorem page_fengWpassSkipped (n : Nat) : page (Obj.fengWpassSkipped n) = 55 := by unfold page Obj.fengWpassSkipped ob; omega
theorem page_fengSideExtra (n : Nat) : page (Obj.fengSideExtra n) = 55 := by unfold page Obj.fengSideExtra ob; omega
theorem page_fengAccWaits (n : Nat) : page (Obj.fengAccWaits n) = 55 := by unfold page Obj.fengAccWaits ob; omega
theorem page_fengMirror (n : Nat) : page (Obj.fengMirror n) = 55 := by unfold page Obj.fengMirror ob; omega
theorem page_spillMirrorSel : page Obj.spillMirrorSel = 54 := rfl
theorem page_spillMirror : page Obj.spillMirror = 54 := rfl
theorem page_bengBxEntries (n : Nat) : page (Obj.bengBxEntries n) = 56 := by unfold page Obj.bengBxEntries ob; omega
theorem page_bengBwEntries (n : Nat) : page (Obj.bengBwEntries n) = 56 := by unfold page Obj.bengBwEntries ob; omega
theorem page_bengPairs (n : Nat) : page (Obj.bengPairs n) = 56 := by unfold page Obj.bengPairs ob; omega
theorem page_bengAdapter (n : Nat) : page (Obj.bengAdapter n) = 56 := by unfold page Obj.bengAdapter ob; omega
theorem page_bengWtInline (n : Nat) : page (Obj.bengWtInline n) = 56 := by unfold page Obj.bengWtInline ob; omega
theorem page_bengWpassSkipped (n : Nat) : page (Obj.bengWpassSkipped n) = 56 := by unfold page Obj.bengWpassSkipped ob; omega
theorem page_bengSideExtra (n : Nat) : page (Obj.bengSideExtra n) = 56 := by unfold page Obj.bengSideExtra ob; omega
theorem page_bengSpills (n : Nat) : page (Obj.bengSpills n) = 56 := by unfold page Obj.bengSpills ob; omega
theorem page_bengReloads (n : Nat) : page (Obj.bengReloads n) = 56 := by unfold page Obj.bengReloads ob; omega
theorem page_bengShiftClamp (n : Nat) : page (Obj.bengShiftClamp n) = 56 := by unfold page Obj.bengShiftClamp ob; omega
theorem page_accSatAdds (n : Nat) : page (Obj.accSatAdds n) = 57 := by unfold page Obj.accSatAdds ob; omega
theorem page_accNanAdds (n : Nat) : page (Obj.accNanAdds n) = 57 := by unfold page Obj.accNanAdds ob; omega
theorem page_accSegClosed (n : Nat) : page (Obj.accSegClosed n) = 57 := by unfold page Obj.accSegClosed ob; omega
theorem page_accLongTiles (n : Nat) : page (Obj.accLongTiles n) = 57 := by unfold page Obj.accLongTiles ob; omega
theorem page_accSegStorePeak (n : Nat) : page (Obj.accSegStorePeak n) = 58 := by unfold page Obj.accSegStorePeak ob; omega
theorem page_dbgAccSel : page Obj.dbgAccSel = 242 := rfl
theorem page_dbgAccRead : page Obj.dbgAccRead = 242 := rfl
theorem page_dbgAccSlots : page Obj.dbgAccSlots = 242 := rfl
theorem page_dbgSpillSel : page Obj.dbgSpillSel = 242 := rfl
theorem page_dbgSpillRead : page Obj.dbgSpillRead = 242 := rfl
theorem page_dbgReads : page Obj.dbgReads = 242 := rfl
theorem page_stepHealth : page Obj.stepHealth = 60 := rfl
theorem page_stepBlockMask : page Obj.stepBlockMask = 60 := rfl
theorem page_stepOutcome : page Obj.stepOutcome = 60 := rfl
theorem page_stepBank : page Obj.stepBank = 60 := rfl
theorem page_stepCommits : page Obj.stepCommits = 60 := rfl
theorem page_stepDiscards : page Obj.stepDiscards = 60 := rfl
theorem page_stepRetryLimit : page Obj.stepRetryLimit = 60 := rfl
theorem page_stepRetries : page Obj.stepRetries = 60 := rfl
theorem page_stepSkip : page Obj.stepSkip = 60 := rfl
theorem page_stepDataPos : page Obj.stepDataPos = 60 := rfl
theorem page_stepWdogDefault : page Obj.stepWdogDefault = 60 := rfl
theorem page_stepFbCount : page Obj.stepFbCount = 60 := rfl
theorem page_stepLr0 : page Obj.stepLr0 = 60 := rfl
theorem page_stepLr1 : page Obj.stepLr1 = 60 := rfl
theorem page_stepLr2 : page Obj.stepLr2 = 60 := rfl
theorem page_stepLr3 : page Obj.stepLr3 = 60 := rfl
theorem page_stepLr4 : page Obj.stepLr4 = 60 := rfl
theorem page_stepLr5 : page Obj.stepLr5 = 60 := rfl
theorem page_stepLr6 : page Obj.stepLr6 = 60 := rfl
theorem page_stepLr7 : page Obj.stepLr7 = 60 := rfl
theorem page_stepLr8 : page Obj.stepLr8 = 60 := rfl
theorem page_stepLr9 : page Obj.stepLr9 = 60 := rfl
theorem page_stepLr10 : page Obj.stepLr10 = 60 := rfl
theorem page_stepLr11 : page Obj.stepLr11 = 60 := rfl
theorem page_stepLr12 : page Obj.stepLr12 = 60 := rfl
theorem page_stepLr13 : page Obj.stepLr13 = 60 := rfl
theorem page_stepLr14 : page Obj.stepLr14 = 60 := rfl
theorem page_stepLr15 : page Obj.stepLr15 = 60 := rfl
theorem page_stepLayerSel : page Obj.stepLayerSel = 60 := rfl
theorem page_stepLayerK : page Obj.stepLayerK = 60 := rfl
theorem page_stepLayerWdog : page Obj.stepLayerWdog = 60 := rfl
theorem page_stepLayerFb : page Obj.stepLayerFb = 60 := rfl
theorem page_stepLayerSat : page Obj.stepLayerSat = 60 := rfl
theorem page_stepLayerGamax : page Obj.stepLayerGamax = 60 := rfl
theorem page_stepFbMask : page Obj.stepFbMask = 60 := rfl
theorem page_sparsePruneDrops (n : Nat) : page (Obj.sparsePruneDrops n) = 61 := by unfold page Obj.sparsePruneDrops ob; omega
theorem page_sparseAttnClear (n : Nat) : page (Obj.sparseAttnClear n) = 61 := by unfold page Obj.sparseAttnClear ob; omega
theorem page_sparseMetaErrors (n : Nat) : page (Obj.sparseMetaErrors n) = 61 := by unfold page Obj.sparseMetaErrors ob; omega
theorem page_routeEntries (n : Nat) : page (Obj.routeEntries n) = 62 := by unfold page Obj.routeEntries ob; omega
theorem page_routeRouted (n : Nat) : page (Obj.routeRouted n) = 62 := by unfold page Obj.routeRouted ob; omega
theorem page_routeSpilled (n : Nat) : page (Obj.routeSpilled n) = 62 := by unfold page Obj.routeSpilled ob; omega
theorem page_routeDropped (n : Nat) : page (Obj.routeDropped n) = 62 := by unfold page Obj.routeDropped ob; omega
theorem page_routeFullExperts (n : Nat) : page (Obj.routeFullExperts n) = 62 := by unfold page Obj.routeFullExperts ob; omega
theorem page_routeNonfinite (n : Nat) : page (Obj.routeNonfinite n) = 62 := by unfold page Obj.routeNonfinite ob; omega
theorem page_rollPromptRing : page Obj.rollPromptRing = 68 := rfl
theorem page_rollPromptSize : page Obj.rollPromptSize = 68 := rfl
theorem page_rollPromptTail : page Obj.rollPromptTail = 68 := rfl
theorem page_rollPromptHead : page Obj.rollPromptHead = 68 := rfl
theorem page_rollOutRing : page Obj.rollOutRing = 68 := rfl
theorem page_rollOutSize : page Obj.rollOutSize = 68 := rfl
theorem page_rollOutHead : page Obj.rollOutHead = 68 := rfl
theorem page_rollOutTail : page Obj.rollOutTail = 68 := rfl
theorem page_rollCancel : page Obj.rollCancel = 68 := rfl
theorem page_rollRingStalls : page Obj.rollRingStalls = 68 := rfl
theorem page_rollDiscards : page Obj.rollDiscards = 68 := rfl
theorem page_epochActive : page Obj.epochActive = 68 := rfl
theorem page_epochReady : page Obj.epochReady = 68 := rfl
theorem page_epochShadow : page Obj.epochShadow = 68 := rfl
theorem page_epochBank : page Obj.epochBank = 68 := rfl
theorem page_epochSwitches : page Obj.epochSwitches = 68 := rfl
theorem page_epochRefused : page Obj.epochRefused = 68 := rfl
theorem page_epochSkipped : page Obj.epochSkipped = 68 := rfl
theorem page_epochBase0 : page Obj.epochBase0 = 68 := rfl
theorem page_epochBase1 : page Obj.epochBase1 = 68 := rfl
theorem page_epochLen : page Obj.epochLen = 68 := rfl
theorem page_rollClLive (n : Nat) : page (Obj.rollClLive n) = 67 := by unfold page Obj.rollClLive ob; omega
theorem page_rollClBucket (n : Nat) : page (Obj.rollClBucket n) = 67 := by unfold page Obj.rollClBucket ob; omega
theorem page_rollClTokens (n : Nat) : page (Obj.rollClTokens n) = 67 := by unfold page Obj.rollClTokens ob; omega
theorem page_rollClEnded (n : Nat) : page (Obj.rollClEnded n) = 67 := by unfold page Obj.rollClEnded ob; omega
theorem page_rollClSeals (n : Nat) : page (Obj.rollClSeals n) = 67 := by unfold page Obj.rollClSeals ob; omega
theorem page_rollClPrefill (n : Nat) : page (Obj.rollClPrefill n) = 67 := by unfold page Obj.rollClPrefill ob; omega
theorem page_strmSel : page Obj.strmSel = 80 := rfl
theorem page_strmState : page Obj.strmState = 80 := rfl
theorem page_strmPos : page Obj.strmPos = 80 := rfl
theorem page_strmPackets : page Obj.strmPackets = 80 := rfl
theorem page_strmHaltCause : page Obj.strmHaltCause = 80 := rfl
theorem page_strmFaultPos : page Obj.strmFaultPos = 80 := rfl
theorem page_strmResume : page Obj.strmResume = 80 := rfl
theorem page_strmShadow : page Obj.strmShadow = 80 := rfl
theorem page_sluSel : page Obj.sluSel = 80 := rfl
theorem page_sluFill : page Obj.sluFill = 80 := rfl
theorem page_sluCmd : page Obj.sluCmd = 80 := rfl
theorem page_sluNarrow : page Obj.sluNarrow = 80 := rfl
theorem page_sluNarrowData : page Obj.sluNarrowData = 80 := rfl
theorem page_sluNarrowClose : page Obj.sluNarrowClose = 80 := rfl
theorem page_sluCmdRefused : page Obj.sluCmdRefused = 80 := rfl
theorem page_weirTotal (n : Nat) : page (Obj.weirTotal n) = 81 := by unfold page Obj.weirTotal ob; omega
theorem page_weirClass0 (n : Nat) : page (Obj.weirClass0 n) = 81 := by unfold page Obj.weirClass0 ob; omega
theorem page_weirClass1 (n : Nat) : page (Obj.weirClass1 n) = 81 := by unfold page Obj.weirClass1 ob; omega
theorem page_weirClass2 (n : Nat) : page (Obj.weirClass2 n) = 81 := by unfold page Obj.weirClass2 ob; omega
theorem page_weirClass3 (n : Nat) : page (Obj.weirClass3 n) = 81 := by unfold page Obj.weirClass3 ob; omega
theorem page_weirFabric (n : Nat) : page (Obj.weirFabric n) = 81 := by unfold page Obj.weirFabric ob; omega
theorem page_weirCoreCap (n : Nat) : page (Obj.weirCoreCap n) = 81 := by unfold page Obj.weirCoreCap ob; omega
theorem page_weirClampPct (n : Nat) : page (Obj.weirClampPct n) = 81 := by unfold page Obj.weirClampPct ob; omega
theorem page_weirGranted (n : Nat) : page (Obj.weirGranted n) = 81 := by unfold page Obj.weirGranted ob; omega
theorem page_weirWaitBeats (n : Nat) : page (Obj.weirWaitBeats n) = 81 := by unfold page Obj.weirWaitBeats ob; omega
theorem page_strmOverwrites (n : Nat) : page (Obj.strmOverwrites n) = 82 := by unfold page Obj.strmOverwrites ob; omega
theorem page_strmRewinds (n : Nat) : page (Obj.strmRewinds n) = 82 := by unfold page Obj.strmRewinds ob; omega
theorem page_strmDrops (n : Nat) : page (Obj.strmDrops n) = 82 := by unfold page Obj.strmDrops ob; omega
theorem page_strmFlushes (n : Nat) : page (Obj.strmFlushes n) = 82 := by unfold page Obj.strmFlushes ob; omega
theorem page_strmDeadlocks (n : Nat) : page (Obj.strmDeadlocks n) = 82 := by unfold page Obj.strmDeadlocks ob; omega
theorem page_strmFaultHalts (n : Nat) : page (Obj.strmFaultHalts n) = 82 := by unfold page Obj.strmFaultHalts ob; omega
theorem page_strmRefetches (n : Nat) : page (Obj.strmRefetches n) = 82 := by unfold page Obj.strmRefetches ob; omega
theorem page_strmBoundaryCuts (n : Nat) : page (Obj.strmBoundaryCuts n) = 82 := by unfold page Obj.strmBoundaryCuts ob; omega
theorem page_memT0Cap : page Obj.memT0Cap = 96 := rfl
theorem page_memT1Cap : page Obj.memT1Cap = 96 := rfl
theorem page_memT2Cap : page Obj.memT2Cap = 96 := rfl
theorem page_memT3Cap : page Obj.memT3Cap = 96 := rfl
theorem page_memTblBase : page Obj.memTblBase = 96 := rfl
theorem page_memTblLen : page Obj.memTblLen = 96 := rfl
theorem page_memCeT0 : page Obj.memCeT0 = 96 := rfl
theorem page_memCeT1 : page Obj.memCeT1 = 96 := rfl
theorem page_memCeT2 : page Obj.memCeT2 = 96 := rfl
theorem page_memCeT3 : page Obj.memCeT3 = 96 := rfl
theorem page_memUeT0 : page Obj.memUeT0 = 96 := rfl
theorem page_memUeT1 : page Obj.memUeT1 = 96 := rfl
theorem page_memUeT2 : page Obj.memUeT2 = 96 := rfl
theorem page_memUeT3 : page Obj.memUeT3 = 96 := rfl
theorem page_memScrubHours : page Obj.memScrubHours = 96 := rfl
theorem page_memPcSel : page Obj.memPcSel = 96 := rfl
theorem page_memPcCe : page Obj.memPcCe = 96 := rfl
theorem page_memPcUe : page Obj.memPcUe = 96 := rfl
theorem page_memPcCeLimit : page Obj.memPcCeLimit = 96 := rfl
theorem page_memHbmOdecc : page Obj.memHbmOdecc = 96 := rfl
theorem page_memRetire : page Obj.memRetire = 96 := rfl
theorem page_memRetiredC0 : page Obj.memRetiredC0 = 96 := rfl
theorem page_memRetiredC1 : page Obj.memRetiredC1 = 96 := rfl
theorem page_memRetiredC2 : page Obj.memRetiredC2 = 96 := rfl
theorem page_memRetiredC3 : page Obj.memRetiredC3 = 96 := rfl
theorem page_memRetireState : page Obj.memRetireState = 96 := rfl
theorem page_memRebuildPool : page Obj.memRebuildPool = 96 := rfl
theorem page_memAutoRetire : page Obj.memAutoRetire = 96 := rfl
theorem page_xlatRoot : page Obj.xlatRoot = 97 := rfl
theorem page_xlatInval : page Obj.xlatInval = 97 := rfl
theorem page_xlatInvalState : page Obj.xlatInvalState = 97 := rfl
theorem page_xlatFqBase : page Obj.xlatFqBase = 97 := rfl
theorem page_xlatFqSize : page Obj.xlatFqSize = 97 := rfl
theorem page_xlatFqHead : page Obj.xlatFqHead = 97 := rfl
theorem page_xlatFqTail : page Obj.xlatFqTail = 97 := rfl
theorem page_xlatFqHeld : page Obj.xlatFqHeld = 97 := rfl
theorem page_xlatFqLost : page Obj.xlatFqLost = 97 := rfl
theorem page_xlatFaults : page Obj.xlatFaults = 97 := rfl
theorem page_xlatWalks (n : Nat) : page (Obj.xlatWalks n) = 97 := by unfold page Obj.xlatWalks ob; omega
theorem page_xlatMoveSrc : page Obj.xlatMoveSrc = 98 := rfl
theorem page_xlatMoveDst : page Obj.xlatMoveDst = 98 := rfl
theorem page_xlatMoveLen : page Obj.xlatMoveLen = 98 := rfl
theorem page_xlatMoveGo : page Obj.xlatMoveGo = 98 := rfl
theorem page_xlatMoveState : page Obj.xlatMoveState = 98 := rfl
theorem page_siphWindowBase : page Obj.siphWindowBase = 99 := rfl
theorem page_siphClT0Pool (n : Nat) : page (Obj.siphClT0Pool n) = 99 := by unfold page Obj.siphClT0Pool ob; omega
theorem page_siphClT1Pool (n : Nat) : page (Obj.siphClT1Pool n) = 99 := by unfold page Obj.siphClT1Pool ob; omega
theorem page_siphClT2Pool (n : Nat) : page (Obj.siphClT2Pool n) = 99 := by unfold page Obj.siphClT2Pool ob; omega
theorem page_siphClT0Len (n : Nat) : page (Obj.siphClT0Len n) = 99 := by unfold page Obj.siphClT0Len ob; omega
theorem page_siphClT1Len (n : Nat) : page (Obj.siphClT1Len n) = 99 := by unfold page Obj.siphClT1Len ob; omega
theorem page_siphClT2Len (n : Nat) : page (Obj.siphClT2Len n) = 99 := by unfold page Obj.siphClT2Len ob; omega
theorem page_siphClLedger (n : Nat) : page (Obj.siphClLedger n) = 99 := by unfold page Obj.siphClLedger ob; omega
theorem page_siphClRedirects (n : Nat) : page (Obj.siphClRedirects n) = 99 := by unfold page Obj.siphClRedirects ob; omega
theorem page_siphClRecomputes (n : Nat) : page (Obj.siphClRecomputes n) = 99 := by unfold page Obj.siphClRecomputes ob; omega
theorem page_siphClRawBytes (n : Nat) : page (Obj.siphClRawBytes n) = 99 := by unfold page Obj.siphClRawBytes ob; omega
theorem page_siphClStoredBytes (n : Nat) : page (Obj.siphClStoredBytes n) = 99 := by unfold page Obj.siphClStoredBytes ob; omega
theorem page_siphClExpandSat (n : Nat) : page (Obj.siphClExpandSat n) = 99 := by unfold page Obj.siphClExpandSat ob; omega
theorem page_siphClExpandZero (n : Nat) : page (Obj.siphClExpandZero n) = 99 := by unfold page Obj.siphClExpandZero ob; omega
theorem page_rillCoord : page Obj.rillCoord = 112 := rfl
theorem page_rillRank : page Obj.rillRank = 112 := rfl
theorem page_rillAltSel : page Obj.rillAltSel = 112 := rfl
theorem page_rillAltActive : page Obj.rillAltActive = 112 := rfl
theorem page_rillRouteGen : page Obj.rillRouteGen = 112 := rfl
theorem page_rillHeldFlits : page Obj.rillHeldFlits = 112 := rfl
theorem page_rillWireZero : page Obj.rillWireZero = 112 := rfl
theorem page_rillRedSat : page Obj.rillRedSat = 112 := rfl
theorem page_rillPState (n : Nat) : page (Obj.rillPState n) = 113 := by unfold page Obj.rillPState ob; omega
theorem page_rillPLanes (n : Nat) : page (Obj.rillPLanes n) = 113 := by unfold page Obj.rillPLanes ob; omega
theorem page_rillPFailed (n : Nat) : page (Obj.rillPFailed n) = 113 := by unfold page Obj.rillPFailed ob; omega
theorem page_rillPNbr (n : Nat) : page (Obj.rillPNbr n) = 113 := by unfold page Obj.rillPNbr ob; omega
theorem page_rillPNbrOk (n : Nat) : page (Obj.rillPNbrOk n) = 113 := by unfold page Obj.rillPNbrOk ob; omega
theorem page_rillPReplays (n : Nat) : page (Obj.rillPReplays n) = 113 := by unfold page Obj.rillPReplays ob; omega
theorem page_rillPCe (n : Nat) : page (Obj.rillPCe n) = 113 := by unfold page Obj.rillPCe ob; omega
theorem page_rillPUe (n : Nat) : page (Obj.rillPUe n) = 113 := by unfold page Obj.rillPUe ob; omega
theorem page_rillPFwd (n : Nat) : page (Obj.rillPFwd n) = 113 := by unfold page Obj.rillPFwd ob; omega
theorem page_rillPSlotMiss (n : Nat) : page (Obj.rillPSlotMiss n) = 113 := by unfold page Obj.rillPSlotMiss ob; omega
theorem page_rillPLaneErrLimit (n : Nat) : page (Obj.rillPLaneErrLimit n) = 113 := by unfold page Obj.rillPLaneErrLimit ob; omega
theorem page_rillPRetrain (n : Nat) : page (Obj.rillPRetrain n) = 113 := by unfold page Obj.rillPRetrain ob; omega
theorem page_ethPState (n : Nat) : page (Obj.ethPState n) = 114 := by unfold page Obj.ethPState ob; omega
theorem page_ethPEnable (n : Nat) : page (Obj.ethPEnable n) = 114 := by unfold page Obj.ethPEnable ob; omega
theorem page_ethPMedia (n : Nat) : page (Obj.ethPMedia n) = 114 := by unfold page Obj.ethPMedia ob; omega
theorem page_ethPFecCorr (n : Nat) : page (Obj.ethPFecCorr n) = 114 := by unfold page Obj.ethPFecCorr ob; omega
theorem page_ethPFecUncorr (n : Nat) : page (Obj.ethPFecUncorr n) = 114 := by unfold page Obj.ethPFecUncorr ob; omega
theorem page_ethPRxFrames (n : Nat) : page (Obj.ethPRxFrames n) = 114 := by unfold page Obj.ethPRxFrames ob; omega
theorem page_ethPTxFrames (n : Nat) : page (Obj.ethPTxFrames n) = 114 := by unfold page Obj.ethPTxFrames ob; omega
theorem page_ethPDrops (n : Nat) : page (Obj.ethPDrops n) = 114 := by unfold page Obj.ethPDrops ob; omega
theorem page_ethPQps (n : Nat) : page (Obj.ethPQps n) = 114 := by unfold page Obj.ethPQps ob; omega
theorem page_ethPLinkDowns (n : Nat) : page (Obj.ethPLinkDowns n) = 114 := by unfold page Obj.ethPLinkDowns ob; omega
theorem page_ethNMac (n : Nat) : page (Obj.ethNMac n) = 115 := by unfold page Obj.ethNMac ob; omega
theorem page_ethNIpv4 (n : Nat) : page (Obj.ethNIpv4 n) = 115 := by unfold page Obj.ethNIpv4 ob; omega
theorem page_ethNIpv6 (n : Nat) : page (Obj.ethNIpv6 n) = 115 := by unfold page Obj.ethNIpv6 ob; omega
theorem page_ethNVlan (n : Nat) : page (Obj.ethNVlan n) = 115 := by unfold page Obj.ethNVlan ob; omega
theorem page_ethNRocePrio (n : Nat) : page (Obj.ethNRocePrio n) = 115 := by unfold page Obj.ethNRocePrio ob; omega
theorem page_ethNMtu (n : Nat) : page (Obj.ethNMtu n) = 115 := by unfold page Obj.ethNMtu ob; omega
theorem page_ethNPortsUp (n : Nat) : page (Obj.ethNPortsUp n) = 115 := by unfold page Obj.ethNPortsUp ob; omega
theorem page_ethNLacp (n : Nat) : page (Obj.ethNLacp n) = 115 := by unfold page Obj.ethNLacp ob; omega
theorem page_ethBmgtUdp : page Obj.ethBmgtUdp = 115 := rfl
theorem page_ptpNet : page Obj.ptpNet = 115 := rfl
theorem page_ptpDomain : page Obj.ptpDomain = 115 := rfl
theorem page_ptpPpsMode : page Obj.ptpPpsMode = 115 := rfl
theorem page_ptpServer : page Obj.ptpServer = 115 := rfl
theorem page_ptpPort : page Obj.ptpPort = 115 := rfl
theorem page_roceQpMax : page Obj.roceQpMax = 116 := rfl
theorem page_roceTimeout : page Obj.roceTimeout = 116 := rfl
theorem page_roceRetry : page Obj.roceRetry = 116 := rfl
theorem page_roceEcn : page Obj.roceEcn = 116 := rfl
theorem page_roceErrQps : page Obj.roceErrQps = 116 := rfl
theorem page_roceAccessNaks : page Obj.roceAccessNaks = 116 := rfl
theorem page_roceRgnSel : page Obj.roceRgnSel = 116 := rfl
theorem page_roceRgn : page Obj.roceRgn = 116 := rfl
theorem page_roceQpSel : page Obj.roceQpSel = 116 := rfl
theorem page_roceQp : page Obj.roceQp = 116 := rfl
theorem page_mbxVa : page Obj.mbxVa = 160 := rfl
theorem page_mbxRkey : page Obj.mbxRkey = 160 := rfl
theorem page_mbxNotifyMask : page Obj.mbxNotifyMask = 160 := rfl
theorem page_mbxNotifyDb : page Obj.mbxNotifyDb = 160 := rfl
theorem page_mbxFullWrites : page Obj.mbxFullWrites = 160 := rfl
theorem page_mbxDropped : page Obj.mbxDropped = 160 := rfl
theorem page_mbxBadLengths : page Obj.mbxBadLengths = 160 := rfl
theorem page_mbxEpQp (n : Nat) : page (Obj.mbxEpQp n) = 161 := by unfold page Obj.mbxEpQp ob; omega
theorem page_mbxEpSecure (n : Nat) : page (Obj.mbxEpSecure n) = 161 := by unfold page Obj.mbxEpSecure ob; omega
theorem page_mbxEpHostAddr (n : Nat) : page (Obj.mbxEpHostAddr n) = 161 := by unfold page Obj.mbxEpHostAddr ob; omega
theorem page_mbxEpHostRkey (n : Nat) : page (Obj.mbxEpHostRkey n) = 161 := by unfold page Obj.mbxEpHostRkey ob; omega
theorem page_mbxMcDbPending : page Obj.mbxMcDbPending = 162 := rfl
theorem page_mbxMcDbMask : page Obj.mbxMcDbMask = 162 := rfl
theorem page_mbxSqDbPending (n : Nat) : page (Obj.mbxSqDbPending n) = 163 := by unfold page Obj.mbxSqDbPending ob; omega
theorem page_mbxSqDbMask (n : Nat) : page (Obj.mbxSqDbMask n) = 163 := by unfold page Obj.mbxSqDbMask ob; omega
theorem page_mbxSqLenHeld (n : Nat) : page (Obj.mbxSqLenHeld n) = 163 := by unfold page Obj.mbxSqLenHeld ob; omega
theorem page_resCap : page Obj.resCap = 128 := rfl
theorem page_resFeed : page Obj.resFeed = 128 := rfl
theorem page_resSlot : page Obj.resSlot = 128 := rfl
theorem page_resFenceReq : page Obj.resFenceReq = 128 := rfl
theorem page_resCoreSel : page Obj.resCoreSel = 128 := rfl
theorem page_resCoreTest : page Obj.resCoreTest = 128 := rfl
theorem page_resTestResult : page Obj.resTestResult = 128 := rfl
theorem page_resUnfence : page Obj.resUnfence = 128 := rfl
theorem page_resFencedMap : page Obj.resFencedMap = 128 := rfl
theorem page_resHangBeats : page Obj.resHangBeats = 128 := rfl
theorem page_resFailNotice : page Obj.resFailNotice = 128 := rfl
theorem page_resMtbfPrior : page Obj.resMtbfPrior = 128 := rfl
theorem page_resMtbfObs : page Obj.resMtbfObs = 128 := rfl
theorem page_resMtbfReset : page Obj.resMtbfReset = 128 := rfl
theorem page_ckptMode : page Obj.ckptMode = 129 := rfl
theorem page_ckptFixedS : page Obj.ckptFixedS = 129 := rfl
theorem page_ckptRequest : page Obj.ckptRequest = 129 := rfl
theorem page_ckptIntervalS : page Obj.ckptIntervalS = 129 := rfl
theorem page_ckptGen : page Obj.ckptGen = 129 := rfl
theorem page_ckptSecuredGen : page Obj.ckptSecuredGen = 129 := rfl
theorem page_ckptState : page Obj.ckptState = 129 := rfl
theorem page_ckptLastStopUs : page Obj.ckptLastStopUs = 129 := rfl
theorem page_ckptLastBytes : page Obj.ckptLastBytes = 129 := rfl
theorem page_ckptConflict : page Obj.ckptConflict = 129 := rfl
theorem page_ckptDrainLimitS : page Obj.ckptDrainLimitS = 129 := rfl
theorem page_ckptDrainState : page Obj.ckptDrainState = 129 := rfl
theorem page_ckptT1Base : page Obj.ckptT1Base = 129 := rfl
theorem page_ckptT1Len : page Obj.ckptT1Len = 129 := rfl
theorem page_ckptT3Base : page Obj.ckptT3Base = 129 := rfl
theorem page_ckptT3SlotLen : page Obj.ckptT3SlotLen = 129 := rfl
theorem page_ckptPinBase : page Obj.ckptPinBase = 129 := rfl
theorem page_ckptPartnerQp : page Obj.ckptPartnerQp = 129 := rfl
theorem page_ckptPartnerAddr : page Obj.ckptPartnerAddr = 129 := rfl
theorem page_ckptPartnerRkey : page Obj.ckptPartnerRkey = 129 := rfl
theorem page_ckptStoreQp : page Obj.ckptStoreQp = 129 := rfl
theorem page_ckptStoreAddr : page Obj.ckptStoreAddr = 129 := rfl
theorem page_ckptStoreRkey : page Obj.ckptStoreRkey = 129 := rfl
theorem page_ckptServe : page Obj.ckptServe = 129 := rfl
theorem page_ckptServeQp : page Obj.ckptServeQp = 129 := rfl
theorem page_ckptServeAddr : page Obj.ckptServeAddr = 129 := rfl
theorem page_ckptServeRkey : page Obj.ckptServeRkey = 129 := rfl
theorem page_ckptRgnSel : page Obj.ckptRgnSel = 129 := rfl
theorem page_ckptRgn : page Obj.ckptRgn = 129 := rfl
theorem page_ckptRestore : page Obj.ckptRestore = 129 := rfl
theorem page_ckptRestoreState : page Obj.ckptRestoreState = 129 := rfl
theorem page_ckptRestoreReason : page Obj.ckptRestoreReason = 129 := rfl
theorem page_resLedgerSel : page Obj.resLedgerSel = 130 := rfl
theorem page_resLedger : page Obj.resLedger = 130 := rfl
theorem page_pwrInputMv : page Obj.pwrInputMv = 32 := rfl
theorem page_pwrInputW : page Obj.pwrInputW = 32 := rfl
theorem page_pwrSupplyState : page Obj.pwrSupplyState = 32 := rfl
theorem page_pwrDipFreq : page Obj.pwrDipFreq = 32 := rfl
theorem page_pwrDipWeirPct : page Obj.pwrDipWeirPct = 32 := rfl
theorem page_pwrDipCount : page Obj.pwrDipCount = 32 := rfl
theorem page_pwrResetCause : page Obj.pwrResetCause = 32 := rfl
theorem page_pwrCapW : page Obj.pwrCapW = 32 := rfl
theorem page_pwrCapCeil : page Obj.pwrCapCeil = 32 := rfl
theorem page_pwrCapBeats : page Obj.pwrCapBeats = 32 := rfl
theorem page_pwrThermThrottleC : page Obj.pwrThermThrottleC = 32 := rfl
theorem page_pwrTemp (n : Nat) : page (Obj.pwrTemp n) = 32 := by unfold page Obj.pwrTemp ob; omega
theorem page_pwrThermCeil (n : Nat) : page (Obj.pwrThermCeil n) = 32 := by unfold page Obj.pwrThermCeil ob; omega
theorem page_pwrPstHdr (n : Nat) : page (Obj.pwrPstHdr n) = 32 := by unfold page Obj.pwrPstHdr ob; omega
theorem page_pwrPstPoints (n : Nat) : page (Obj.pwrPstPoints n) = 32 := by unfold page Obj.pwrPstPoints ob; omega
theorem page_pwrDomSel : page Obj.pwrDomSel = 33 := rfl
theorem page_pwrDomReq : page Obj.pwrDomReq = 33 := rfl
theorem page_pwrDomState : page Obj.pwrDomState = 33 := rfl
theorem page_pwrDomFreqReq : page Obj.pwrDomFreqReq = 33 := rfl
theorem page_pwrDomVoltReq : page Obj.pwrDomVoltReq = 33 := rfl
theorem page_pwrDomFreq : page Obj.pwrDomFreq = 33 := rfl
theorem page_pwrDomVolt : page Obj.pwrDomVolt = 33 := rfl
theorem page_pwrDomRefused : page Obj.pwrDomRefused = 33 := rfl
theorem page_pwrDomAborted : page Obj.pwrDomAborted = 33 := rfl
theorem page_pwrDomLastRefuser : page Obj.pwrDomLastRefuser = 33 := rfl
theorem page_pwrDomCeil : page Obj.pwrDomCeil = 33 := rfl
theorem page_pwrSspAddr : page Obj.pwrSspAddr = 34 := rfl
theorem page_pwrWakeSet : page Obj.pwrWakeSet = 34 := rfl
theorem page_pwrSleep : page Obj.pwrSleep = 34 := rfl
theorem page_pwrWakes : page Obj.pwrWakes = 34 := rfl
theorem page_idPart : page Obj.idPart = 16 := rfl
theorem page_idSerial : page Obj.idSerial = 16 := rfl
theorem page_idRomVersion : page Obj.idRomVersion = 16 := rfl
theorem page_idFwVersion : page Obj.idFwVersion = 16 := rfl
theorem page_idFwSvn : page Obj.idFwSvn = 16 := rfl
theorem page_idFieldMac : page Obj.idFieldMac = 16 := rfl
theorem page_cfgUnitMap : page Obj.cfgUnitMap = 16 := rfl
theorem page_cfgStageAddr : page Obj.cfgStageAddr = 16 := rfl
theorem page_cfgWrite : page Obj.cfgWrite = 16 := rfl
theorem page_cfgState : page Obj.cfgState = 16 := rfl
theorem page_cfgFactorySeq : page Obj.cfgFactorySeq = 16 := rfl
theorem page_cfgOwnerSeq : page Obj.cfgOwnerSeq = 16 := rfl
theorem page_cfgOwnerOk : page Obj.cfgOwnerOk = 16 := rfl
theorem page_bootStage : page Obj.bootStage = 17 := rfl
theorem page_bootCount : page Obj.bootCount = 17 := rfl
theorem page_bootRecovery : page Obj.bootRecovery = 17 := rfl
theorem page_bootReadyMs : page Obj.bootReadyMs = 17 := rfl
theorem page_bootWarm : page Obj.bootWarm = 17 := rfl
theorem page_logHead : page Obj.logHead = 18 := rfl
theorem page_logSel : page Obj.logSel = 18 := rfl
theorem page_logRead : page Obj.logRead = 18 := rfl
theorem page_logSubSel : page Obj.logSubSel = 18 := rfl
theorem page_logSub : page Obj.logSub = 18 := rfl
theorem page_fwStageAddr : page Obj.fwStageAddr = 19 := rfl
theorem page_fwStageLen : page Obj.fwStageLen = 19 := rfl
theorem page_fwVerify : page Obj.fwVerify = 19 := rfl
theorem page_fwState : page Obj.fwState = 19 := rfl
theorem page_fwCommit : page Obj.fwCommit = 19 := rfl
theorem page_mgtInbandWrite : page Obj.mgtInbandWrite = 20 := rfl
theorem page_mgtBadFrames : page Obj.mgtBadFrames = 20 := rfl
theorem page_mgtRequests : page Obj.mgtRequests = 20 := rfl
theorem page_fldPlcaEn : page Obj.fldPlcaEn = 115 := rfl
theorem page_fldPlcaId : page Obj.fldPlcaId = 115 := rfl
theorem page_fldState : page Obj.fldState = 115 := rfl
theorem page_secIdState : page Obj.secIdState = 144 := rfl
theorem page_secCertSel : page Obj.secCertSel = 144 := rfl
theorem page_secCertLen : page Obj.secCertLen = 144 := rfl
theorem page_secCert : page Obj.secCert = 144 := rfl
theorem page_secOwnerKey : page Obj.secOwnerKey = 144 := rfl
theorem page_secOwnerRelease : page Obj.secOwnerRelease = 144 := rfl
theorem page_secNonce : page Obj.secNonce = 144 := rfl
theorem page_secMinSvn : page Obj.secMinSvn = 144 := rfl
theorem page_secSecureEps : page Obj.secSecureEps = 144 := rfl
theorem page_secAuthFails : page Obj.secAuthFails = 144 := rfl
theorem page_secAttestNonce : page Obj.secAttestNonce = 144 := rfl
theorem page_secAttestState : page Obj.secAttestState = 144 := rfl
theorem page_secAttestLen : page Obj.secAttestLen = 144 := rfl
theorem page_secAttestSel : page Obj.secAttestSel = 144 := rfl
theorem page_secAttest : page Obj.secAttest = 144 := rfl
theorem page_dbgMode : page Obj.dbgMode = 240 := rfl
theorem page_dbgEnter : page Obj.dbgEnter = 240 := rfl
theorem page_dbgExit : page Obj.dbgExit = 240 := rfl
theorem page_dbgEntries : page Obj.dbgEntries = 240 := rfl
theorem page_modStrapsLive : page Obj.modStrapsLive = 35 := rfl
theorem page_modInletC : page Obj.modInletC = 35 := rfl
theorem page_modOutletC : page Obj.modOutletC = 35 := rfl
theorem page_modFlow : page Obj.modFlow = 35 := rfl
theorem page_modLeak : page Obj.modLeak = 35 := rfl
theorem page_modCoolLimitC : page Obj.modCoolLimitC = 35 := rfl
theorem page_modAlertSev : page Obj.modAlertSev = 35 := rfl
theorem page_modAlertState : page Obj.modAlertState = 35 := rfl
theorem page_modAlertAck : page Obj.modAlertAck = 35 := rfl
theorem page_modAlertSeq : page Obj.modAlertSeq = 35 := rfl
theorem page_memCeT0_add (t : Nat) : page (Obj.memCeT0 + t % 4) = 96 := by unfold page Obj.memCeT0 ob; omega
theorem page_memUeT0_add (t : Nat) : page (Obj.memUeT0 + t % 4) = 96 := by unfold page Obj.memUeT0 ob; omega
theorem page_memRetiredC0_add (t : Nat) : page (Obj.memRetiredC0 + t % 4) = 96 := by unfold page Obj.memRetiredC0 ob; omega

end Sys2Proof.Machine
end

