-- ==== Sys2Proof/Laws/Ops.lean ====
section
/-! SUPPORT. What the operations of Machine/Ops.lean change at most, each one's lemma. -/

namespace Sys2Proof.Machine

theorem abortGroup_moves {A : Nat} {s0 : State} (s : State) (cl : Nat) (hM : Moves A s0 s) (hA : Sub 896 A) : Moves A s0 (abortGroup s cl) := by
  unfold abortGroup
  try dsimp -proj only []
  repeat' first
    | with_reducible exact ‹Moves _ _ _›
    | with_reducible exact Sub.trans (by decide) hA
    | with_reducible apply modCluster_moves
    | with_reducible apply withTrain_moves
    | with_reducible apply withRoll_moves
    | with_reducible refine Runs.next ?_
    | with_reducible refine ite_moves (fun _ => ?_) (fun _ => ?_)
    | split

theorem abortDevice_moves {A : Nat} {s0 : State} (s : State) (hM : Moves A s0 s) (hA : Sub 896 A) : Moves A s0 (abortDevice s) := by
  unfold abortDevice
  try dsimp -proj only []
  repeat' first
    | with_reducible exact ‹Moves _ _ _›
    | with_reducible exact Sub.trans (by decide) hA
    | with_reducible apply abortGroup_moves
    | with_reducible refine Runs.next ?_
    | with_reducible refine ite_moves (fun _ => ?_) (fun _ => ?_)
    | split

theorem sevEffect_moves {A : Nat} {s0 : State} (s : State) (sev : Sev) (unit : Nat) (hM : Moves A s0 s) (hA : Sub 263040 A) : Moves A s0 (sevEffect s sev unit) := by
  unfold sevEffect
  try dsimp -proj only []
  repeat' first
    | with_reducible exact ‹Moves _ _ _›
    | with_reducible exact Sub.trans (by decide) hA
    | with_reducible apply abortGroup_moves
    | with_reducible apply abortDevice_moves
    | with_reducible apply withPins_moves
    | with_reducible refine Runs.next ?_
    | with_reducible refine ite_moves (fun _ => ?_) (fun _ => ?_)
    | split

theorem raise_moves {A : Nat} {s0 : State} (s : State) (code : Nat) (sev : Sev) (unit : Nat) (pos : Nat) (h : Moves A s0 s) (hA : Sub 147573952589676708738 A) : Moves A s0 (raise s code sev unit pos) := by
  unfold raise
  dsimp -proj only []
  have h1 := sevEffect_moves s sev unit h (Sub.trans (by decide) hA)
  split
  · exact h1
  · split
    · split
      · rename_i hl
        refine withLog_moves h1 (fun hw => ?_) (Sub.trans (by decide) hA)
        simp only [LogState.wf, Bool.and_eq_true, decide_eq_true_eq] at hw ⊢
        exact ⟨⟨hw.1.1, by rw [List.length_append]; simp; omega⟩, hw.2⟩
      · exact h1
    · exact logRecord_moves _ h1 (Sub.trans (by decide) hA)

theorem raiseFirst_moves {A : Nat} {s0 : State} (s : State) (core : Nat) (code : Nat) (tensor : Nat) (sev : Sev) (pos : Nat) (hM : Moves A s0 s) (hA : Sub 147573952589676708802 A) : Moves A s0 (raiseFirst s core code tensor sev pos) := by
  unfold raiseFirst
  try dsimp -proj only []
  repeat' first
    | with_reducible exact ‹Moves _ _ _›
    | with_reducible exact Sub.trans (by decide) hA
    | with_reducible apply raise_moves
    | with_reducible apply modCore_moves
    | with_reducible refine Runs.next ?_
    | with_reducible refine ite_moves (fun _ => ?_) (fun _ => ?_)
    | split

theorem raiseFirstCl_moves {A : Nat} {s0 : State} (s : State) (cl : Nat) (code : Nat) (sev : Sev) (pos : Nat) (hM : Moves A s0 s) (hA : Sub 147573952589676708738 A) : Moves A s0 (raiseFirstCl s cl code sev pos) := by
  unfold raiseFirstCl
  try dsimp -proj only []
  repeat' first
    | with_reducible exact ‹Moves _ _ _›
    | with_reducible exact Sub.trans (by decide) hA
    | with_reducible apply raise_moves
    | with_reducible apply modCluster_moves
    | with_reducible refine Runs.next ?_
    | with_reducible refine ite_moves (fun _ => ?_) (fun _ => ?_)
    | split

theorem setHealth_moves {A : Nat} {s0 : State} (s : State) (cl : Nat) (bits : Nat) (hM : Moves A s0 s) (hA : Sub 128 A) : Moves A s0 (setHealth s cl bits) := by
  unfold setHealth
  try dsimp -proj only []
  repeat' first
    | with_reducible exact ‹Moves _ _ _›
    | with_reducible exact Sub.trans (by decide) hA
    | with_reducible apply modCluster_moves
    | with_reducible refine Runs.next ?_
    | with_reducible refine ite_moves (fun _ => ?_) (fun _ => ?_)
    | split

theorem State_memWr_moves {A : Nat} {s0 : State} (s : State) (a : Nat) (n : Nat) (v : Nat) (hM : Moves A s0 s) (hA : Sub 6144 A) : Moves A s0 (State.memWr s a n v) := by
  unfold State.memWr
  try dsimp -proj only []
  repeat' first
    | with_reducible exact ‹Moves _ _ _›
    | with_reducible exact ‹MMoves _ _ _›
    | with_reducible exact Sub.trans (by decide) hA
    | with_reducible refine withMem_moves ?_ ?_
    | with_reducible apply clearPoison_moves
    | with_reducible apply memWrite_moves
    | refine MMoves.filtered _ _ ?_ ?_
    | with_reducible exact MMoves.refl _ _
    | exact mem_rest rfl rfl (Sub.trans (by decide) hA)
    | with_reducible refine Runs.next ?_
    | with_reducible refine ite_moves (fun _ => ?_) (fun _ => ?_)
    | split

end Sys2Proof.Machine
end

