-- ==== Sys2Proof/Laws/Dictionary.lean ====
section
/-! SUPPORT. What the operations of Machine/Dictionary.lean change at most, each one's lemma. -/

namespace Sys2Proof.Machine

theorem Ans_ok_moves {A : Nat} {s0 : State} (s : State) (hM : Moves A s0 s) (hA : Sub 0 A) : Moves A s0 (Ans.ok s).st := by
  unfold Ans.ok
  try dsimp -proj only []
  repeat' first
    | with_reducible exact ‹Moves _ _ _›
    | with_reducible exact Sub.trans (by decide) hA
    | with_reducible refine Runs.next ?_
    | with_reducible refine ite_ans (fun _ => ?_) (fun _ => ?_)
    | with_reducible refine ite_moves (fun _ => ?_) (fun _ => ?_)
    | split
    | dsimp only []

theorem Ans_refuse_moves {A : Nat} {s0 : State} (status : Nat) (s : State) (hM : Moves A s0 s) (hA : Sub 0 A) : Moves A s0 (Ans.refuse status s).st := by
  unfold Ans.refuse
  try dsimp -proj only []
  repeat' first
    | with_reducible exact ‹Moves _ _ _›
    | with_reducible exact Sub.trans (by decide) hA
    | with_reducible refine Runs.next ?_
    | with_reducible refine ite_ans (fun _ => ?_) (fun _ => ?_)
    | with_reducible refine ite_moves (fun _ => ?_) (fun _ => ?_)
    | split
    | dsimp only []

theorem State_emit_moves {A : Nat} {s0 : State} (s : State) (o : Out) (hM : Moves A s0 s) (hA : Sub 2 A) : Moves A s0 (State.emit s o) := by
  unfold State.emit
  try dsimp -proj only []
  repeat' first
    | with_reducible exact ‹Moves _ _ _›
    | with_reducible exact Sub.trans (by decide) hA
    | with_reducible apply withOutbox_moves
    | with_reducible refine Runs.next ?_
    | with_reducible refine ite_moves (fun _ => ?_) (fun _ => ?_)
    | split

theorem answered_moves {A : Nat} {s0 : State} (beat : Nat) (q : Req) (op obj : Nat) (a : Ans) (h : Moves A s0 a.st) (hA : Sub 4503599627436034 A) :
    Moves A s0 (answered beat q op obj a) := by
  refine State_emit_moves _ _ (bump_moves _ _ page_mgtRequests (withMgt_moves h (fun _ => ?_) (Sub.trans (by decide) hA)) (Sub.trans (by decide) hA)) (Sub.trans (by decide) hA)
  simp only [List.length_take]
  omega

theorem request_moves {A : Nat} {s0 : State} (s : State) (q : Req) (op obj : Nat) (f : State → Ans) (h : Moves A s0 s)
    (hf : ∀ s, Moves A s0 s → Moves A s0 (f s).st) (hA : Sub 4503599627436034 A) : Moves A s0 (request s q op obj f) := by
  unfold request
  split
  · exact h
  · split
    · exact State_emit_moves _ _ h (Sub.trans (by decide) hA)
    · split
      · exact State_emit_moves _ _ h (Sub.trans (by decide) hA)
      · refine answered_moves _ _ _ _ _ ?_ hA
        split
        · exact h
        · exact hf s h

theorem dictWrite_moves {A : Nat} {s0 : State} (s : State) (q : Req) (obj : Nat) (f : State → Ans) (h : Moves A s0 s)
    (hf : ∀ s, Moves A s0 s → Moves A s0 (f s).st) (hA : Sub 4503599627436034 A) : Moves A s0 (dictWrite s q obj f) := by
  refine request_moves _ _ _ _ _ h (fun s hs => ?_) hA
  split
  · exact hs
  · exact hf s hs

theorem dictAction_moves {A : Nat} {s0 : State} (s : State) (q : Req) (obj v : Nat) (f : State → Ans) (h : Moves A s0 s)
    (hf : ∀ s, Moves A s0 s → Moves A s0 (f s).st) (hA : Sub 4503599627436034 A) : Moves A s0 (dictAction s q obj v f) := by
  refine dictWrite_moves _ _ _ _ h (fun s hs => ?_) hA
  split
  · exact hf s hs
  · exact hs

end Sys2Proof.Machine
end

