-- ==== Sys2Proof/Laws/Sizes.lean ====
section
/-! SUPPORT. The size of each object in bytes. -/

namespace Sys2Proof.Machine

@[simp] theorem size_cadSyncState : objSize (objPart Obj.cadSyncState) = 1 := rfl
@[simp] theorem size_cadOffset : objSize (objPart Obj.cadOffset) = 4 := rfl
@[simp] theorem size_cadHoldoverLimit : objSize (objPart Obj.cadHoldoverLimit) = 4 := rfl
@[simp] theorem size_cadFrameLast : objSize (objPart Obj.cadFrameLast) = 8 := rfl
@[simp] theorem size_cadFrameCount : objSize (objPart Obj.cadFrameCount) = 4 := rfl
@[simp] theorem size_cadFrameReject : objSize (objPart Obj.cadFrameReject) = 4 := rfl
@[simp] theorem size_tblActivate : objSize (objPart Obj.tblActivate) = 8 := rfl
@[simp] theorem size_tblActStatus : objSize (objPart Obj.tblActStatus) = 1 := rfl
@[simp] theorem size_tblRefused : objSize (objPart Obj.tblRefused) = 4 := rfl
@[simp] theorem size_schedClRoleReq (n : Nat) : objSize (objPart (Obj.schedClRoleReq n)) = 1 :=
  (by decide : ∀ m : Fin 16, objSize (objPart (ob (0x4100 + m.val) 0x01)) = 1) ⟨n % 16, Nat.mod_lt _ (by decide)⟩
@[simp] theorem size_schedClStep (n : Nat) : objSize (objPart (Obj.schedClStep n)) = 8 :=
  (by decide : ∀ m : Fin 16, objSize (objPart (ob (0x4100 + m.val) 0x06)) = 8) ⟨n % 16, Nat.mod_lt _ (by decide)⟩
@[simp] theorem size_schedClSlips (n : Nat) : objSize (objPart (Obj.schedClSlips n)) = 4 :=
  (by decide : ∀ m : Fin 16, objSize (objPart (ob (0x4100 + m.val) 0x07)) = 4) ⟨n % 16, Nat.mod_lt _ (by decide)⟩
@[simp] theorem size_rngSeed : objSize (objPart Obj.rngSeed) = 16 := rfl
@[simp] theorem size_rngSeedSet : objSize (objPart Obj.rngSeedSet) = 1 := rfl
@[simp] theorem size_dbgAccSel : objSize (objPart Obj.dbgAccSel) = 4 := rfl
@[simp] theorem size_dbgAccRead : objSize (objPart Obj.dbgAccRead) = 64 := rfl
@[simp] theorem size_dbgSpillSel : objSize (objPart Obj.dbgSpillSel) = 4 := rfl
@[simp] theorem size_dbgSpillRead : objSize (objPart Obj.dbgSpillRead) = 64 := rfl
@[simp] theorem size_dbgReads : objSize (objPart Obj.dbgReads) = 4 := rfl
@[simp] theorem size_stepHealth : objSize (objPart Obj.stepHealth) = 8 := rfl
@[simp] theorem size_stepOutcome : objSize (objPart Obj.stepOutcome) = 1 := rfl
@[simp] theorem size_stepBank : objSize (objPart Obj.stepBank) = 1 := rfl
@[simp] theorem size_stepCommits : objSize (objPart Obj.stepCommits) = 8 := rfl
@[simp] theorem size_stepDiscards : objSize (objPart Obj.stepDiscards) = 4 := rfl
@[simp] theorem size_stepRetryLimit : objSize (objPart Obj.stepRetryLimit) = 1 := rfl
@[simp] theorem size_stepRetries : objSize (objPart Obj.stepRetries) = 1 := rfl
@[simp] theorem size_stepSkip : objSize (objPart Obj.stepSkip) = 8 := rfl
@[simp] theorem size_stepDataPos : objSize (objPart Obj.stepDataPos) = 16 := rfl
@[simp] theorem size_rollCancel : objSize (objPart Obj.rollCancel) = 8 := rfl
@[simp] theorem size_rollRingStalls : objSize (objPart Obj.rollRingStalls) = 4 := rfl
@[simp] theorem size_rollDiscards : objSize (objPart Obj.rollDiscards) = 4 := rfl
@[simp] theorem size_epochActive : objSize (objPart Obj.epochActive) = 8 := rfl
@[simp] theorem size_epochReady : objSize (objPart Obj.epochReady) = 8 := rfl
@[simp] theorem size_epochShadow : objSize (objPart Obj.epochShadow) = 8 := rfl
@[simp] theorem size_epochBank : objSize (objPart Obj.epochBank) = 1 := rfl
@[simp] theorem size_epochRefused : objSize (objPart Obj.epochRefused) = 4 := rfl
@[simp] theorem size_strmSel : objSize (objPart Obj.strmSel) = 4 := rfl
@[simp] theorem size_strmResume : objSize (objPart Obj.strmResume) = 1 := rfl
@[simp] theorem size_sluCmd : objSize (objPart Obj.sluCmd) = 1 := rfl
@[simp] theorem size_sluNarrowData : objSize (objPart Obj.sluNarrowData) = 4 := rfl
@[simp] theorem size_sluNarrowClose : objSize (objPart Obj.sluNarrowClose) = 1 := rfl
@[simp] theorem size_sluCmdRefused : objSize (objPart Obj.sluCmdRefused) = 4 := rfl
@[simp] theorem size_memCeT0 : objSize (objPart Obj.memCeT0) = 8 := rfl
@[simp] theorem size_memUeT0 : objSize (objPart Obj.memUeT0) = 8 := rfl
@[simp] theorem size_memRetire : objSize (objPart Obj.memRetire) = 2 := rfl
@[simp] theorem size_memRetireState : objSize (objPart Obj.memRetireState) = 1 := rfl
@[simp] theorem size_xlatInval : objSize (objPart Obj.xlatInval) = 8 := rfl
@[simp] theorem size_xlatInvalState : objSize (objPart Obj.xlatInvalState) = 1 := rfl
@[simp] theorem size_xlatFqBase : objSize (objPart Obj.xlatFqBase) = 8 := rfl
@[simp] theorem size_xlatFqSize : objSize (objPart Obj.xlatFqSize) = 4 := rfl
@[simp] theorem size_xlatFqHead : objSize (objPart Obj.xlatFqHead) = 4 := rfl
@[simp] theorem size_xlatFqTail : objSize (objPart Obj.xlatFqTail) = 4 := rfl
@[simp] theorem size_xlatFqHeld : objSize (objPart Obj.xlatFqHeld) = 4 := rfl
@[simp] theorem size_xlatWalks (n : Nat) : objSize (objPart (Obj.xlatWalks n)) = 8 :=
  (by decide : ∀ m : Fin 4, objSize (objPart (ob (0x6110 + m.val) 0x01)) = 8) ⟨n % 4, Nat.mod_lt _ (by decide)⟩
@[simp] theorem size_xlatMoveSrc : objSize (objPart Obj.xlatMoveSrc) = 8 := rfl
@[simp] theorem size_xlatMoveDst : objSize (objPart Obj.xlatMoveDst) = 8 := rfl
@[simp] theorem size_xlatMoveLen : objSize (objPart Obj.xlatMoveLen) = 4 := rfl
@[simp] theorem size_xlatMoveGo : objSize (objPart Obj.xlatMoveGo) = 1 := rfl
@[simp] theorem size_xlatMoveState : objSize (objPart Obj.xlatMoveState) = 1 := rfl
@[simp] theorem size_rillAltSel : objSize (objPart Obj.rillAltSel) = 1 := rfl
@[simp] theorem size_rillAltActive : objSize (objPart Obj.rillAltActive) = 1 := rfl
@[simp] theorem size_rillRouteGen : objSize (objPart Obj.rillRouteGen) = 4 := rfl
@[simp] theorem size_rillPLanes (n : Nat) : objSize (objPart (Obj.rillPLanes n)) = 1 :=
  (by decide : ∀ m : Fin 6, objSize (objPart (ob (0x7100 + m.val) 0x02)) = 1) ⟨n % 6, Nat.mod_lt _ (by decide)⟩
@[simp] theorem size_rillPFailed (n : Nat) : objSize (objPart (Obj.rillPFailed n)) = 4 :=
  (by decide : ∀ m : Fin 6, objSize (objPart (ob (0x7100 + m.val) 0x03)) = 4) ⟨n % 6, Nat.mod_lt _ (by decide)⟩
@[simp] theorem size_rillPNbr (n : Nat) : objSize (objPart (Obj.rillPNbr n)) = 2 :=
  (by decide : ∀ m : Fin 6, objSize (objPart (ob (0x7100 + m.val) 0x04)) = 2) ⟨n % 6, Nat.mod_lt _ (by decide)⟩
@[simp] theorem size_rillPNbrOk (n : Nat) : objSize (objPart (Obj.rillPNbrOk n)) = 1 :=
  (by decide : ∀ m : Fin 6, objSize (objPart (ob (0x7100 + m.val) 0x05)) = 1) ⟨n % 6, Nat.mod_lt _ (by decide)⟩
@[simp] theorem size_rillPUe (n : Nat) : objSize (objPart (Obj.rillPUe n)) = 8 :=
  (by decide : ∀ m : Fin 6, objSize (objPart (ob (0x7100 + m.val) 0x08)) = 8) ⟨n % 6, Nat.mod_lt _ (by decide)⟩
@[simp] theorem size_rillPLaneErrLimit (n : Nat) : objSize (objPart (Obj.rillPLaneErrLimit n)) = 4 :=
  (by decide : ∀ m : Fin 6, objSize (objPart (ob (0x7100 + m.val) 0x0B)) = 4) ⟨n % 6, Nat.mod_lt _ (by decide)⟩
@[simp] theorem size_rillPRetrain (n : Nat) : objSize (objPart (Obj.rillPRetrain n)) = 1 :=
  (by decide : ∀ m : Fin 6, objSize (objPart (ob (0x7100 + m.val) 0x0C)) = 1) ⟨n % 6, Nat.mod_lt _ (by decide)⟩
@[simp] theorem size_ethPState (n : Nat) : objSize (objPart (Obj.ethPState n)) = 1 :=
  (by decide : ∀ m : Fin 8, objSize (objPart (ob (0x7200 + m.val) 0x01)) = 1) ⟨n % 8, Nat.mod_lt _ (by decide)⟩
@[simp] theorem size_ethPEnable (n : Nat) : objSize (objPart (Obj.ethPEnable n)) = 1 :=
  (by decide : ∀ m : Fin 8, objSize (objPart (ob (0x7200 + m.val) 0x02)) = 1) ⟨n % 8, Nat.mod_lt _ (by decide)⟩
@[simp] theorem size_ethPRxFrames (n : Nat) : objSize (objPart (Obj.ethPRxFrames n)) = 8 :=
  (by decide : ∀ m : Fin 8, objSize (objPart (ob (0x7200 + m.val) 0x06)) = 8) ⟨n % 8, Nat.mod_lt _ (by decide)⟩
@[simp] theorem size_ethPDrops (n : Nat) : objSize (objPart (Obj.ethPDrops n)) = 8 :=
  (by decide : ∀ m : Fin 8, objSize (objPart (ob (0x7200 + m.val) 0x08)) = 8) ⟨n % 8, Nat.mod_lt _ (by decide)⟩
@[simp] theorem size_ethPLinkDowns (n : Nat) : objSize (objPart (Obj.ethPLinkDowns n)) = 4 :=
  (by decide : ∀ m : Fin 8, objSize (objPart (ob (0x7200 + m.val) 0x0A)) = 4) ⟨n % 8, Nat.mod_lt _ (by decide)⟩
@[simp] theorem size_ethNMac (n : Nat) : objSize (objPart (Obj.ethNMac n)) = 6 :=
  (by decide : ∀ m : Fin 2, objSize (objPart (ob (0x7300 + m.val) 0x01)) = 6) ⟨n % 2, Nat.mod_lt _ (by decide)⟩
@[simp] theorem size_ethNIpv4 (n : Nat) : objSize (objPart (Obj.ethNIpv4 n)) = 4 :=
  (by decide : ∀ m : Fin 2, objSize (objPart (ob (0x7300 + m.val) 0x02)) = 4) ⟨n % 2, Nat.mod_lt _ (by decide)⟩
@[simp] theorem size_ethNIpv6 (n : Nat) : objSize (objPart (Obj.ethNIpv6 n)) = 16 :=
  (by decide : ∀ m : Fin 2, objSize (objPart (ob (0x7300 + m.val) 0x03)) = 16) ⟨n % 2, Nat.mod_lt _ (by decide)⟩
@[simp] theorem size_ethNRocePrio (n : Nat) : objSize (objPart (Obj.ethNRocePrio n)) = 1 :=
  (by decide : ∀ m : Fin 2, objSize (objPart (ob (0x7300 + m.val) 0x05)) = 1) ⟨n % 2, Nat.mod_lt _ (by decide)⟩
@[simp] theorem size_ptpDomain : objSize (objPart Obj.ptpDomain) = 1 := rfl
@[simp] theorem size_ptpPpsMode : objSize (objPart Obj.ptpPpsMode) = 1 := rfl
@[simp] theorem size_ptpPort : objSize (objPart Obj.ptpPort) = 1 := rfl
@[simp] theorem size_roceRetry : objSize (objPart Obj.roceRetry) = 1 := rfl
@[simp] theorem size_roceEcn : objSize (objPart Obj.roceEcn) = 1 := rfl
@[simp] theorem size_roceErrQps : objSize (objPart Obj.roceErrQps) = 4 := rfl
@[simp] theorem size_roceAccessNaks : objSize (objPart Obj.roceAccessNaks) = 4 := rfl
@[simp] theorem size_roceRgnSel : objSize (objPart Obj.roceRgnSel) = 2 := rfl
@[simp] theorem size_roceRgn : objSize (objPart Obj.roceRgn) = 32 := rfl
@[simp] theorem size_roceQpSel : objSize (objPart Obj.roceQpSel) = 2 := rfl
@[simp] theorem size_roceQp : objSize (objPart Obj.roceQp) = 64 := rfl
@[simp] theorem size_mbxRkey : objSize (objPart Obj.mbxRkey) = 4 := rfl
@[simp] theorem size_mbxFullWrites : objSize (objPart Obj.mbxFullWrites) = 4 := rfl
@[simp] theorem size_mbxBadLengths : objSize (objPart Obj.mbxBadLengths) = 4 := rfl
@[simp] theorem size_mbxEpQp (n : Nat) : objSize (objPart (Obj.mbxEpQp n)) = 2 :=
  (by decide : ∀ m : Fin 16, objSize (objPart (ob (0xA100 + m.val) 0x01)) = 2) ⟨n % 16, Nat.mod_lt _ (by decide)⟩
@[simp] theorem size_mbxMcDbMask : objSize (objPart Obj.mbxMcDbMask) = 4 := rfl
@[simp] theorem size_mbxSqDbMask (n : Nat) : objSize (objPart (Obj.mbxSqDbMask n)) = 4 :=
  (by decide : ∀ m : Fin 16, objSize (objPart (ob (0xA300 + m.val) 0x02)) = 4) ⟨n % 16, Nat.mod_lt _ (by decide)⟩
@[simp] theorem size_resFeed : objSize (objPart Obj.resFeed) = 1 := rfl
@[simp] theorem size_resSlot : objSize (objPart Obj.resSlot) = 1 := rfl
@[simp] theorem size_resFenceReq : objSize (objPart Obj.resFenceReq) = 2 := rfl
@[simp] theorem size_resCoreSel : objSize (objPart Obj.resCoreSel) = 2 := rfl
@[simp] theorem size_resCoreTest : objSize (objPart Obj.resCoreTest) = 1 := rfl
@[simp] theorem size_resTestResult : objSize (objPart Obj.resTestResult) = 1 := rfl
@[simp] theorem size_resUnfence : objSize (objPart Obj.resUnfence) = 1 := rfl
@[simp] theorem size_resFencedMap : objSize (objPart Obj.resFencedMap) = 32 := rfl
@[simp] theorem size_resFailNotice : objSize (objPart Obj.resFailNotice) = 1 := rfl
@[simp] theorem size_resMtbfPrior : objSize (objPart Obj.resMtbfPrior) = 4 := rfl
@[simp] theorem size_resMtbfReset : objSize (objPart Obj.resMtbfReset) = 1 := rfl
@[simp] theorem size_ckptMode : objSize (objPart Obj.ckptMode) = 1 := rfl
@[simp] theorem size_ckptRequest : objSize (objPart Obj.ckptRequest) = 1 := rfl
@[simp] theorem size_ckptGen : objSize (objPart Obj.ckptGen) = 8 := rfl
@[simp] theorem size_ckptState : objSize (objPart Obj.ckptState) = 1 := rfl
@[simp] theorem size_ckptLastBytes : objSize (objPart Obj.ckptLastBytes) = 8 := rfl
@[simp] theorem size_ckptDrainLimitS : objSize (objPart Obj.ckptDrainLimitS) = 4 := rfl
@[simp] theorem size_ckptT1Base : objSize (objPart Obj.ckptT1Base) = 8 := rfl
@[simp] theorem size_ckptT1Len : objSize (objPart Obj.ckptT1Len) = 8 := rfl
@[simp] theorem size_ckptT3Base : objSize (objPart Obj.ckptT3Base) = 8 := rfl
@[simp] theorem size_ckptT3SlotLen : objSize (objPart Obj.ckptT3SlotLen) = 8 := rfl
@[simp] theorem size_ckptPinBase : objSize (objPart Obj.ckptPinBase) = 8 := rfl
@[simp] theorem size_ckptServe : objSize (objPart Obj.ckptServe) = 1 := rfl
@[simp] theorem size_ckptServeQp : objSize (objPart Obj.ckptServeQp) = 2 := rfl
@[simp] theorem size_ckptRestore : objSize (objPart Obj.ckptRestore) = 1 := rfl
@[simp] theorem size_ckptRestoreState : objSize (objPart Obj.ckptRestoreState) = 1 := rfl
@[simp] theorem size_ckptRestoreReason : objSize (objPart Obj.ckptRestoreReason) = 1 := rfl
@[simp] theorem size_pwrInputMv : objSize (objPart Obj.pwrInputMv) = 4 := rfl
@[simp] theorem size_pwrInputW : objSize (objPart Obj.pwrInputW) = 4 := rfl
@[simp] theorem size_pwrSupplyState : objSize (objPart Obj.pwrSupplyState) = 1 := rfl
@[simp] theorem size_pwrDipFreq : objSize (objPart Obj.pwrDipFreq) = 2 := rfl
@[simp] theorem size_pwrDipCount : objSize (objPart Obj.pwrDipCount) = 4 := rfl
@[simp] theorem size_pwrResetCause : objSize (objPart Obj.pwrResetCause) = 1 := rfl
@[simp] theorem size_pwrCapW : objSize (objPart Obj.pwrCapW) = 2 := rfl
@[simp] theorem size_pwrCapCeil : objSize (objPart Obj.pwrCapCeil) = 2 := rfl
@[simp] theorem size_pwrCapBeats : objSize (objPart Obj.pwrCapBeats) = 8 := rfl
@[simp] theorem size_pwrTemp (n : Nat) : objSize (objPart (Obj.pwrTemp n)) = 4 :=
  (by decide : ∀ m : Fin 6, objSize (objPart (ob (0x2020 + m.val) 0x01)) = 4) ⟨n % 6, Nat.mod_lt _ (by decide)⟩
@[simp] theorem size_pwrThermCeil (n : Nat) : objSize (objPart (Obj.pwrThermCeil n)) = 2 :=
  (by decide : ∀ m : Fin 6, objSize (objPart (ob (0x2020 + m.val) 0x02)) = 2) ⟨n % 6, Nat.mod_lt _ (by decide)⟩
@[simp] theorem size_pwrDomSel : objSize (objPart Obj.pwrDomSel) = 2 := rfl
@[simp] theorem size_pwrDomReq : objSize (objPart Obj.pwrDomReq) = 1 := rfl
@[simp] theorem size_pwrDomFreqReq : objSize (objPart Obj.pwrDomFreqReq) = 2 := rfl
@[simp] theorem size_pwrDomVoltReq : objSize (objPart Obj.pwrDomVoltReq) = 2 := rfl
@[simp] theorem size_pwrDomFreq : objSize (objPart Obj.pwrDomFreq) = 2 := rfl
@[simp] theorem size_pwrDomVolt : objSize (objPart Obj.pwrDomVolt) = 2 := rfl
@[simp] theorem size_pwrDomRefused : objSize (objPart Obj.pwrDomRefused) = 4 := rfl
@[simp] theorem size_pwrDomAborted : objSize (objPart Obj.pwrDomAborted) = 4 := rfl
@[simp] theorem size_pwrDomLastRefuser : objSize (objPart Obj.pwrDomLastRefuser) = 1 := rfl
@[simp] theorem size_pwrSspAddr : objSize (objPart Obj.pwrSspAddr) = 1 := rfl
@[simp] theorem size_pwrSleep : objSize (objPart Obj.pwrSleep) = 1 := rfl
@[simp] theorem size_pwrWakes : objSize (objPart Obj.pwrWakes) = 4 := rfl
@[simp] theorem size_idSerial : objSize (objPart Obj.idSerial) = 16 := rfl
@[simp] theorem size_idFwVersion : objSize (objPart Obj.idFwVersion) = 4 := rfl
@[simp] theorem size_idFwSvn : objSize (objPart Obj.idFwSvn) = 4 := rfl
@[simp] theorem size_cfgStageAddr : objSize (objPart Obj.cfgStageAddr) = 8 := rfl
@[simp] theorem size_cfgWrite : objSize (objPart Obj.cfgWrite) = 4 := rfl
@[simp] theorem size_cfgState : objSize (objPart Obj.cfgState) = 1 := rfl
@[simp] theorem size_cfgFactorySeq : objSize (objPart Obj.cfgFactorySeq) = 4 := rfl
@[simp] theorem size_cfgOwnerSeq : objSize (objPart Obj.cfgOwnerSeq) = 4 := rfl
@[simp] theorem size_bootStage : objSize (objPart Obj.bootStage) = 1 := rfl
@[simp] theorem size_bootCount : objSize (objPart Obj.bootCount) = 4 := rfl
@[simp] theorem size_bootRecovery : objSize (objPart Obj.bootRecovery) = 1 := rfl
@[simp] theorem size_bootReadyMs : objSize (objPart Obj.bootReadyMs) = 4 := rfl
@[simp] theorem size_bootWarm : objSize (objPart Obj.bootWarm) = 4 := rfl
@[simp] theorem size_logRead : objSize (objPart Obj.logRead) = 64 := rfl
@[simp] theorem size_fwStageAddr : objSize (objPart Obj.fwStageAddr) = 8 := rfl
@[simp] theorem size_fwStageLen : objSize (objPart Obj.fwStageLen) = 4 := rfl
@[simp] theorem size_fwVerify : objSize (objPart Obj.fwVerify) = 1 := rfl
@[simp] theorem size_fwState : objSize (objPart Obj.fwState) = 1 := rfl
@[simp] theorem size_fwCommit : objSize (objPart Obj.fwCommit) = 1 := rfl
@[simp] theorem size_mgtRequests : objSize (objPart Obj.mgtRequests) = 8 := rfl
@[simp] theorem size_fldPlcaId : objSize (objPart Obj.fldPlcaId) = 1 := rfl
@[simp] theorem size_fldState : objSize (objPart Obj.fldState) = 1 := rfl
@[simp] theorem size_secIdState : objSize (objPart Obj.secIdState) = 1 := rfl
@[simp] theorem size_secOwnerKey : objSize (objPart Obj.secOwnerKey) = 133 := rfl
@[simp] theorem size_secOwnerRelease : objSize (objPart Obj.secOwnerRelease) = 16 := rfl
@[simp] theorem size_secNonce : objSize (objPart Obj.secNonce) = 8 := rfl
@[simp] theorem size_secMinSvn : objSize (objPart Obj.secMinSvn) = 4 := rfl
@[simp] theorem size_secAuthFails : objSize (objPart Obj.secAuthFails) = 4 := rfl
@[simp] theorem size_secAttestNonce : objSize (objPart Obj.secAttestNonce) = 64 := rfl
@[simp] theorem size_secAttestState : objSize (objPart Obj.secAttestState) = 1 := rfl
@[simp] theorem size_secAttestLen : objSize (objPart Obj.secAttestLen) = 4 := rfl
@[simp] theorem size_dbgMode : objSize (objPart Obj.dbgMode) = 1 := rfl
@[simp] theorem size_dbgEnter : objSize (objPart Obj.dbgEnter) = 1 := rfl
@[simp] theorem size_dbgExit : objSize (objPart Obj.dbgExit) = 1 := rfl
@[simp] theorem size_dbgEntries : objSize (objPart Obj.dbgEntries) = 4 := rfl
@[simp] theorem size_modStrapsLive : objSize (objPart Obj.modStrapsLive) = 2 := rfl
@[simp] theorem size_modInletC : objSize (objPart Obj.modInletC) = 4 := rfl
@[simp] theorem size_modOutletC : objSize (objPart Obj.modOutletC) = 4 := rfl
@[simp] theorem size_modFlow : objSize (objPart Obj.modFlow) = 2 := rfl
@[simp] theorem size_modLeak : objSize (objPart Obj.modLeak) = 1 := rfl
@[simp] theorem size_modCoolLimitC : objSize (objPart Obj.modCoolLimitC) = 1 := rfl
@[simp] theorem size_modAlertAck : objSize (objPart Obj.modAlertAck) = 1 := rfl
@[simp] theorem size_modAlertSeq : objSize (objPart Obj.modAlertSeq) = 8 := rfl

end Sys2Proof.Machine
end

