-- ==== Sys2Proof/Laws/State.lean ====
section
/-! SUPPORT. What each part of the state reads after each update of a part. -/

namespace Sys2Proof.Machine

/-! ### `withPending` -/

@[simp] theorem withPending_pending (s : State) (v : List Instr) : (s.withPending v).pending = v := rfl
@[simp] theorem withPending_outbox (s : State) (v : List Instr) : (s.withPending v).outbox = s.outbox := rfl
@[simp] theorem withPending_fresh (s : State) (v : List Instr) : (s.withPending v).fresh = s.fresh := rfl
@[simp] theorem withPending_regs (s : State) (v : List Instr) : (s.withPending v).regs = s.regs := rfl
@[simp] theorem withPending_counter (s : State) (v : List Instr) : (s.withPending v).counter = s.counter := rfl
@[simp] theorem withPending_tables (s : State) (v : List Instr) : (s.withPending v).tables = s.tables := rfl
@[simp] theorem withPending_arrivals (s : State) (v : List Instr) : (s.withPending v).arrivals = s.arrivals := rfl
@[simp] theorem withPending_cores (s : State) (v : List Instr) : (s.withPending v).cores = s.cores := rfl
@[simp] theorem withPending_clusters (s : State) (v : List Instr) : (s.withPending v).clusters = s.clusters := rfl
@[simp] theorem withPending_train (s : State) (v : List Instr) : (s.withPending v).train = s.train := rfl
@[simp] theorem withPending_roll (s : State) (v : List Instr) : (s.withPending v).roll = s.roll := rfl
@[simp] theorem withPending_layers (s : State) (v : List Instr) : (s.withPending v).layers = s.layers := rfl
@[simp] theorem withPending_mem (s : State) (v : List Instr) : (s.withPending v).mem = s.mem := rfl
@[simp] theorem withPending_weir (s : State) (v : List Instr) : (s.withPending v).weir = s.weir := rfl
@[simp] theorem withPending_log (s : State) (v : List Instr) : (s.withPending v).log = s.log := rfl
@[simp] theorem withPending_mgt (s : State) (v : List Instr) : (s.withPending v).mgt = s.mgt := rfl
@[simp] theorem withPending_power (s : State) (v : List Instr) : (s.withPending v).power = s.power := rfl
@[simp] theorem withPending_pins (s : State) (v : List Instr) : (s.withPending v).pins = s.pins := rfl
@[simp] theorem withPending_rill (s : State) (v : List Instr) : (s.withPending v).rill = s.rill := rfl
@[simp] theorem withPending_net (s : State) (v : List Instr) : (s.withPending v).net = s.net := rfl
@[simp] theorem withPending_ckpt (s : State) (v : List Instr) : (s.withPending v).ckpt = s.ckpt := rfl
@[simp] theorem withPending_ledger (s : State) (v : List Instr) : (s.withPending v).ledger = s.ledger := rfl
@[simp] theorem withPending_flash (s : State) (v : List Instr) : (s.withPending v).flash = s.flash := rfl
@[simp] theorem withPending_holds (s : State) (v : List Instr) : (s.withPending v).holds = s.holds := rfl
@[simp] theorem withPending_stopped (s : State) (v : List Instr) : (s.withPending v).stopped = s.stopped := rfl
@[simp] theorem withPending_dead (s : State) (v : List Instr) : (s.withPending v).dead = s.dead := rfl
@[simp] theorem withPending_reg (s : State) (v : List Instr) (k : Nat) : (s.withPending v).reg k = s.reg k := rfl
@[simp] theorem withPending_core (s : State) (v : List Instr) (k : Nat) : (s.withPending v).core k = s.core k := rfl
@[simp] theorem withPending_cluster (s : State) (v : List Instr) (k : Nat) : (s.withPending v).cluster k = s.cluster k := rfl
@[simp] theorem withPending_layer (s : State) (v : List Instr) (k : Nat) : (s.withPending v).layer k = s.layer k := rfl

/-! ### `withOutbox` -/

@[simp] theorem withOutbox_pending (s : State) (v : List Out) : (s.withOutbox v).pending = s.pending := rfl
@[simp] theorem withOutbox_outbox (s : State) (v : List Out) : (s.withOutbox v).outbox = v := rfl
@[simp] theorem withOutbox_fresh (s : State) (v : List Out) : (s.withOutbox v).fresh = s.fresh := rfl
@[simp] theorem withOutbox_regs (s : State) (v : List Out) : (s.withOutbox v).regs = s.regs := rfl
@[simp] theorem withOutbox_counter (s : State) (v : List Out) : (s.withOutbox v).counter = s.counter := rfl
@[simp] theorem withOutbox_tables (s : State) (v : List Out) : (s.withOutbox v).tables = s.tables := rfl
@[simp] theorem withOutbox_arrivals (s : State) (v : List Out) : (s.withOutbox v).arrivals = s.arrivals := rfl
@[simp] theorem withOutbox_cores (s : State) (v : List Out) : (s.withOutbox v).cores = s.cores := rfl
@[simp] theorem withOutbox_clusters (s : State) (v : List Out) : (s.withOutbox v).clusters = s.clusters := rfl
@[simp] theorem withOutbox_train (s : State) (v : List Out) : (s.withOutbox v).train = s.train := rfl
@[simp] theorem withOutbox_roll (s : State) (v : List Out) : (s.withOutbox v).roll = s.roll := rfl
@[simp] theorem withOutbox_layers (s : State) (v : List Out) : (s.withOutbox v).layers = s.layers := rfl
@[simp] theorem withOutbox_mem (s : State) (v : List Out) : (s.withOutbox v).mem = s.mem := rfl
@[simp] theorem withOutbox_weir (s : State) (v : List Out) : (s.withOutbox v).weir = s.weir := rfl
@[simp] theorem withOutbox_log (s : State) (v : List Out) : (s.withOutbox v).log = s.log := rfl
@[simp] theorem withOutbox_mgt (s : State) (v : List Out) : (s.withOutbox v).mgt = s.mgt := rfl
@[simp] theorem withOutbox_power (s : State) (v : List Out) : (s.withOutbox v).power = s.power := rfl
@[simp] theorem withOutbox_pins (s : State) (v : List Out) : (s.withOutbox v).pins = s.pins := rfl
@[simp] theorem withOutbox_rill (s : State) (v : List Out) : (s.withOutbox v).rill = s.rill := rfl
@[simp] theorem withOutbox_net (s : State) (v : List Out) : (s.withOutbox v).net = s.net := rfl
@[simp] theorem withOutbox_ckpt (s : State) (v : List Out) : (s.withOutbox v).ckpt = s.ckpt := rfl
@[simp] theorem withOutbox_ledger (s : State) (v : List Out) : (s.withOutbox v).ledger = s.ledger := rfl
@[simp] theorem withOutbox_flash (s : State) (v : List Out) : (s.withOutbox v).flash = s.flash := rfl
@[simp] theorem withOutbox_holds (s : State) (v : List Out) : (s.withOutbox v).holds = s.holds := rfl
@[simp] theorem withOutbox_stopped (s : State) (v : List Out) : (s.withOutbox v).stopped = s.stopped := rfl
@[simp] theorem withOutbox_dead (s : State) (v : List Out) : (s.withOutbox v).dead = s.dead := rfl
@[simp] theorem withOutbox_reg (s : State) (v : List Out) (k : Nat) : (s.withOutbox v).reg k = s.reg k := rfl
@[simp] theorem withOutbox_core (s : State) (v : List Out) (k : Nat) : (s.withOutbox v).core k = s.core k := rfl
@[simp] theorem withOutbox_cluster (s : State) (v : List Out) (k : Nat) : (s.withOutbox v).cluster k = s.cluster k := rfl
@[simp] theorem withOutbox_layer (s : State) (v : List Out) (k : Nat) : (s.withOutbox v).layer k = s.layer k := rfl

/-! ### `withFresh` -/

@[simp] theorem withFresh_pending (s : State) (v : Nat) : (s.withFresh v).pending = s.pending := rfl
@[simp] theorem withFresh_outbox (s : State) (v : Nat) : (s.withFresh v).outbox = s.outbox := rfl
@[simp] theorem withFresh_fresh (s : State) (v : Nat) : (s.withFresh v).fresh = v := rfl
@[simp] theorem withFresh_regs (s : State) (v : Nat) : (s.withFresh v).regs = s.regs := rfl
@[simp] theorem withFresh_counter (s : State) (v : Nat) : (s.withFresh v).counter = s.counter := rfl
@[simp] theorem withFresh_tables (s : State) (v : Nat) : (s.withFresh v).tables = s.tables := rfl
@[simp] theorem withFresh_arrivals (s : State) (v : Nat) : (s.withFresh v).arrivals = s.arrivals := rfl
@[simp] theorem withFresh_cores (s : State) (v : Nat) : (s.withFresh v).cores = s.cores := rfl
@[simp] theorem withFresh_clusters (s : State) (v : Nat) : (s.withFresh v).clusters = s.clusters := rfl
@[simp] theorem withFresh_train (s : State) (v : Nat) : (s.withFresh v).train = s.train := rfl
@[simp] theorem withFresh_roll (s : State) (v : Nat) : (s.withFresh v).roll = s.roll := rfl
@[simp] theorem withFresh_layers (s : State) (v : Nat) : (s.withFresh v).layers = s.layers := rfl
@[simp] theorem withFresh_mem (s : State) (v : Nat) : (s.withFresh v).mem = s.mem := rfl
@[simp] theorem withFresh_weir (s : State) (v : Nat) : (s.withFresh v).weir = s.weir := rfl
@[simp] theorem withFresh_log (s : State) (v : Nat) : (s.withFresh v).log = s.log := rfl
@[simp] theorem withFresh_mgt (s : State) (v : Nat) : (s.withFresh v).mgt = s.mgt := rfl
@[simp] theorem withFresh_power (s : State) (v : Nat) : (s.withFresh v).power = s.power := rfl
@[simp] theorem withFresh_pins (s : State) (v : Nat) : (s.withFresh v).pins = s.pins := rfl
@[simp] theorem withFresh_rill (s : State) (v : Nat) : (s.withFresh v).rill = s.rill := rfl
@[simp] theorem withFresh_net (s : State) (v : Nat) : (s.withFresh v).net = s.net := rfl
@[simp] theorem withFresh_ckpt (s : State) (v : Nat) : (s.withFresh v).ckpt = s.ckpt := rfl
@[simp] theorem withFresh_ledger (s : State) (v : Nat) : (s.withFresh v).ledger = s.ledger := rfl
@[simp] theorem withFresh_flash (s : State) (v : Nat) : (s.withFresh v).flash = s.flash := rfl
@[simp] theorem withFresh_holds (s : State) (v : Nat) : (s.withFresh v).holds = s.holds := rfl
@[simp] theorem withFresh_stopped (s : State) (v : Nat) : (s.withFresh v).stopped = s.stopped := rfl
@[simp] theorem withFresh_dead (s : State) (v : Nat) : (s.withFresh v).dead = s.dead := rfl
@[simp] theorem withFresh_reg (s : State) (v : Nat) (k : Nat) : (s.withFresh v).reg k = s.reg k := rfl
@[simp] theorem withFresh_core (s : State) (v : Nat) (k : Nat) : (s.withFresh v).core k = s.core k := rfl
@[simp] theorem withFresh_cluster (s : State) (v : Nat) (k : Nat) : (s.withFresh v).cluster k = s.cluster k := rfl
@[simp] theorem withFresh_layer (s : State) (v : Nat) (k : Nat) : (s.withFresh v).layer k = s.layer k := rfl

/-! ### `withRegs` -/

@[simp] theorem withRegs_pending (s : State) (v : SMap Nat) : (s.withRegs v).pending = s.pending := rfl
@[simp] theorem withRegs_outbox (s : State) (v : SMap Nat) : (s.withRegs v).outbox = s.outbox := rfl
@[simp] theorem withRegs_fresh (s : State) (v : SMap Nat) : (s.withRegs v).fresh = s.fresh := rfl
@[simp] theorem withRegs_regs (s : State) (v : SMap Nat) : (s.withRegs v).regs = v := rfl
@[simp] theorem withRegs_counter (s : State) (v : SMap Nat) : (s.withRegs v).counter = s.counter := rfl
@[simp] theorem withRegs_tables (s : State) (v : SMap Nat) : (s.withRegs v).tables = s.tables := rfl
@[simp] theorem withRegs_arrivals (s : State) (v : SMap Nat) : (s.withRegs v).arrivals = s.arrivals := rfl
@[simp] theorem withRegs_cores (s : State) (v : SMap Nat) : (s.withRegs v).cores = s.cores := rfl
@[simp] theorem withRegs_clusters (s : State) (v : SMap Nat) : (s.withRegs v).clusters = s.clusters := rfl
@[simp] theorem withRegs_train (s : State) (v : SMap Nat) : (s.withRegs v).train = s.train := rfl
@[simp] theorem withRegs_roll (s : State) (v : SMap Nat) : (s.withRegs v).roll = s.roll := rfl
@[simp] theorem withRegs_layers (s : State) (v : SMap Nat) : (s.withRegs v).layers = s.layers := rfl
@[simp] theorem withRegs_mem (s : State) (v : SMap Nat) : (s.withRegs v).mem = s.mem := rfl
@[simp] theorem withRegs_weir (s : State) (v : SMap Nat) : (s.withRegs v).weir = s.weir := rfl
@[simp] theorem withRegs_log (s : State) (v : SMap Nat) : (s.withRegs v).log = s.log := rfl
@[simp] theorem withRegs_mgt (s : State) (v : SMap Nat) : (s.withRegs v).mgt = s.mgt := rfl
@[simp] theorem withRegs_power (s : State) (v : SMap Nat) : (s.withRegs v).power = s.power := rfl
@[simp] theorem withRegs_pins (s : State) (v : SMap Nat) : (s.withRegs v).pins = s.pins := rfl
@[simp] theorem withRegs_rill (s : State) (v : SMap Nat) : (s.withRegs v).rill = s.rill := rfl
@[simp] theorem withRegs_net (s : State) (v : SMap Nat) : (s.withRegs v).net = s.net := rfl
@[simp] theorem withRegs_ckpt (s : State) (v : SMap Nat) : (s.withRegs v).ckpt = s.ckpt := rfl
@[simp] theorem withRegs_ledger (s : State) (v : SMap Nat) : (s.withRegs v).ledger = s.ledger := rfl
@[simp] theorem withRegs_flash (s : State) (v : SMap Nat) : (s.withRegs v).flash = s.flash := rfl
@[simp] theorem withRegs_holds (s : State) (v : SMap Nat) : (s.withRegs v).holds = s.holds := rfl
@[simp] theorem withRegs_stopped (s : State) (v : SMap Nat) : (s.withRegs v).stopped = s.stopped := rfl
@[simp] theorem withRegs_dead (s : State) (v : SMap Nat) : (s.withRegs v).dead = s.dead := rfl
@[simp] theorem withRegs_core (s : State) (v : SMap Nat) (k : Nat) : (s.withRegs v).core k = s.core k := rfl
@[simp] theorem withRegs_cluster (s : State) (v : SMap Nat) (k : Nat) : (s.withRegs v).cluster k = s.cluster k := rfl
@[simp] theorem withRegs_layer (s : State) (v : SMap Nat) (k : Nat) : (s.withRegs v).layer k = s.layer k := rfl

/-! ### `withCounter` -/

@[simp] theorem withCounter_pending (s : State) (v : Nat) : (s.withCounter v).pending = s.pending := rfl
@[simp] theorem withCounter_outbox (s : State) (v : Nat) : (s.withCounter v).outbox = s.outbox := rfl
@[simp] theorem withCounter_fresh (s : State) (v : Nat) : (s.withCounter v).fresh = s.fresh := rfl
@[simp] theorem withCounter_regs (s : State) (v : Nat) : (s.withCounter v).regs = s.regs := rfl
@[simp] theorem withCounter_counter (s : State) (v : Nat) : (s.withCounter v).counter = v := rfl
@[simp] theorem withCounter_tables (s : State) (v : Nat) : (s.withCounter v).tables = s.tables := rfl
@[simp] theorem withCounter_arrivals (s : State) (v : Nat) : (s.withCounter v).arrivals = s.arrivals := rfl
@[simp] theorem withCounter_cores (s : State) (v : Nat) : (s.withCounter v).cores = s.cores := rfl
@[simp] theorem withCounter_clusters (s : State) (v : Nat) : (s.withCounter v).clusters = s.clusters := rfl
@[simp] theorem withCounter_train (s : State) (v : Nat) : (s.withCounter v).train = s.train := rfl
@[simp] theorem withCounter_roll (s : State) (v : Nat) : (s.withCounter v).roll = s.roll := rfl
@[simp] theorem withCounter_layers (s : State) (v : Nat) : (s.withCounter v).layers = s.layers := rfl
@[simp] theorem withCounter_mem (s : State) (v : Nat) : (s.withCounter v).mem = s.mem := rfl
@[simp] theorem withCounter_weir (s : State) (v : Nat) : (s.withCounter v).weir = s.weir := rfl
@[simp] theorem withCounter_log (s : State) (v : Nat) : (s.withCounter v).log = s.log := rfl
@[simp] theorem withCounter_mgt (s : State) (v : Nat) : (s.withCounter v).mgt = s.mgt := rfl
@[simp] theorem withCounter_power (s : State) (v : Nat) : (s.withCounter v).power = s.power := rfl
@[simp] theorem withCounter_pins (s : State) (v : Nat) : (s.withCounter v).pins = s.pins := rfl
@[simp] theorem withCounter_rill (s : State) (v : Nat) : (s.withCounter v).rill = s.rill := rfl
@[simp] theorem withCounter_net (s : State) (v : Nat) : (s.withCounter v).net = s.net := rfl
@[simp] theorem withCounter_ckpt (s : State) (v : Nat) : (s.withCounter v).ckpt = s.ckpt := rfl
@[simp] theorem withCounter_ledger (s : State) (v : Nat) : (s.withCounter v).ledger = s.ledger := rfl
@[simp] theorem withCounter_flash (s : State) (v : Nat) : (s.withCounter v).flash = s.flash := rfl
@[simp] theorem withCounter_holds (s : State) (v : Nat) : (s.withCounter v).holds = s.holds := rfl
@[simp] theorem withCounter_stopped (s : State) (v : Nat) : (s.withCounter v).stopped = s.stopped := rfl
@[simp] theorem withCounter_dead (s : State) (v : Nat) : (s.withCounter v).dead = s.dead := rfl
@[simp] theorem withCounter_reg (s : State) (v : Nat) (k : Nat) : (s.withCounter v).reg k = s.reg k := rfl
@[simp] theorem withCounter_core (s : State) (v : Nat) (k : Nat) : (s.withCounter v).core k = s.core k := rfl
@[simp] theorem withCounter_cluster (s : State) (v : Nat) (k : Nat) : (s.withCounter v).cluster k = s.cluster k := rfl
@[simp] theorem withCounter_layer (s : State) (v : Nat) (k : Nat) : (s.withCounter v).layer k = s.layer k := rfl

/-! ### `withTables` -/

@[simp] theorem withTables_pending (s : State) (v : List TableRec) : (s.withTables v).pending = s.pending := rfl
@[simp] theorem withTables_outbox (s : State) (v : List TableRec) : (s.withTables v).outbox = s.outbox := rfl
@[simp] theorem withTables_fresh (s : State) (v : List TableRec) : (s.withTables v).fresh = s.fresh := rfl
@[simp] theorem withTables_regs (s : State) (v : List TableRec) : (s.withTables v).regs = s.regs := rfl
@[simp] theorem withTables_counter (s : State) (v : List TableRec) : (s.withTables v).counter = s.counter := rfl
@[simp] theorem withTables_tables (s : State) (v : List TableRec) : (s.withTables v).tables = v := rfl
@[simp] theorem withTables_arrivals (s : State) (v : List TableRec) : (s.withTables v).arrivals = s.arrivals := rfl
@[simp] theorem withTables_cores (s : State) (v : List TableRec) : (s.withTables v).cores = s.cores := rfl
@[simp] theorem withTables_clusters (s : State) (v : List TableRec) : (s.withTables v).clusters = s.clusters := rfl
@[simp] theorem withTables_train (s : State) (v : List TableRec) : (s.withTables v).train = s.train := rfl
@[simp] theorem withTables_roll (s : State) (v : List TableRec) : (s.withTables v).roll = s.roll := rfl
@[simp] theorem withTables_layers (s : State) (v : List TableRec) : (s.withTables v).layers = s.layers := rfl
@[simp] theorem withTables_mem (s : State) (v : List TableRec) : (s.withTables v).mem = s.mem := rfl
@[simp] theorem withTables_weir (s : State) (v : List TableRec) : (s.withTables v).weir = s.weir := rfl
@[simp] theorem withTables_log (s : State) (v : List TableRec) : (s.withTables v).log = s.log := rfl
@[simp] theorem withTables_mgt (s : State) (v : List TableRec) : (s.withTables v).mgt = s.mgt := rfl
@[simp] theorem withTables_power (s : State) (v : List TableRec) : (s.withTables v).power = s.power := rfl
@[simp] theorem withTables_pins (s : State) (v : List TableRec) : (s.withTables v).pins = s.pins := rfl
@[simp] theorem withTables_rill (s : State) (v : List TableRec) : (s.withTables v).rill = s.rill := rfl
@[simp] theorem withTables_net (s : State) (v : List TableRec) : (s.withTables v).net = s.net := rfl
@[simp] theorem withTables_ckpt (s : State) (v : List TableRec) : (s.withTables v).ckpt = s.ckpt := rfl
@[simp] theorem withTables_ledger (s : State) (v : List TableRec) : (s.withTables v).ledger = s.ledger := rfl
@[simp] theorem withTables_flash (s : State) (v : List TableRec) : (s.withTables v).flash = s.flash := rfl
@[simp] theorem withTables_holds (s : State) (v : List TableRec) : (s.withTables v).holds = s.holds := rfl
@[simp] theorem withTables_stopped (s : State) (v : List TableRec) : (s.withTables v).stopped = s.stopped := rfl
@[simp] theorem withTables_dead (s : State) (v : List TableRec) : (s.withTables v).dead = s.dead := rfl
@[simp] theorem withTables_reg (s : State) (v : List TableRec) (k : Nat) : (s.withTables v).reg k = s.reg k := rfl
@[simp] theorem withTables_core (s : State) (v : List TableRec) (k : Nat) : (s.withTables v).core k = s.core k := rfl
@[simp] theorem withTables_cluster (s : State) (v : List TableRec) (k : Nat) : (s.withTables v).cluster k = s.cluster k := rfl
@[simp] theorem withTables_layer (s : State) (v : List TableRec) (k : Nat) : (s.withTables v).layer k = s.layer k := rfl

/-! ### `withArrivals` -/

@[simp] theorem withArrivals_pending (s : State) (v : List Arrival) : (s.withArrivals v).pending = s.pending := rfl
@[simp] theorem withArrivals_outbox (s : State) (v : List Arrival) : (s.withArrivals v).outbox = s.outbox := rfl
@[simp] theorem withArrivals_fresh (s : State) (v : List Arrival) : (s.withArrivals v).fresh = s.fresh := rfl
@[simp] theorem withArrivals_regs (s : State) (v : List Arrival) : (s.withArrivals v).regs = s.regs := rfl
@[simp] theorem withArrivals_counter (s : State) (v : List Arrival) : (s.withArrivals v).counter = s.counter := rfl
@[simp] theorem withArrivals_tables (s : State) (v : List Arrival) : (s.withArrivals v).tables = s.tables := rfl
@[simp] theorem withArrivals_arrivals (s : State) (v : List Arrival) : (s.withArrivals v).arrivals = v := rfl
@[simp] theorem withArrivals_cores (s : State) (v : List Arrival) : (s.withArrivals v).cores = s.cores := rfl
@[simp] theorem withArrivals_clusters (s : State) (v : List Arrival) : (s.withArrivals v).clusters = s.clusters := rfl
@[simp] theorem withArrivals_train (s : State) (v : List Arrival) : (s.withArrivals v).train = s.train := rfl
@[simp] theorem withArrivals_roll (s : State) (v : List Arrival) : (s.withArrivals v).roll = s.roll := rfl
@[simp] theorem withArrivals_layers (s : State) (v : List Arrival) : (s.withArrivals v).layers = s.layers := rfl
@[simp] theorem withArrivals_mem (s : State) (v : List Arrival) : (s.withArrivals v).mem = s.mem := rfl
@[simp] theorem withArrivals_weir (s : State) (v : List Arrival) : (s.withArrivals v).weir = s.weir := rfl
@[simp] theorem withArrivals_log (s : State) (v : List Arrival) : (s.withArrivals v).log = s.log := rfl
@[simp] theorem withArrivals_mgt (s : State) (v : List Arrival) : (s.withArrivals v).mgt = s.mgt := rfl
@[simp] theorem withArrivals_power (s : State) (v : List Arrival) : (s.withArrivals v).power = s.power := rfl
@[simp] theorem withArrivals_pins (s : State) (v : List Arrival) : (s.withArrivals v).pins = s.pins := rfl
@[simp] theorem withArrivals_rill (s : State) (v : List Arrival) : (s.withArrivals v).rill = s.rill := rfl
@[simp] theorem withArrivals_net (s : State) (v : List Arrival) : (s.withArrivals v).net = s.net := rfl
@[simp] theorem withArrivals_ckpt (s : State) (v : List Arrival) : (s.withArrivals v).ckpt = s.ckpt := rfl
@[simp] theorem withArrivals_ledger (s : State) (v : List Arrival) : (s.withArrivals v).ledger = s.ledger := rfl
@[simp] theorem withArrivals_flash (s : State) (v : List Arrival) : (s.withArrivals v).flash = s.flash := rfl
@[simp] theorem withArrivals_holds (s : State) (v : List Arrival) : (s.withArrivals v).holds = s.holds := rfl
@[simp] theorem withArrivals_stopped (s : State) (v : List Arrival) : (s.withArrivals v).stopped = s.stopped := rfl
@[simp] theorem withArrivals_dead (s : State) (v : List Arrival) : (s.withArrivals v).dead = s.dead := rfl
@[simp] theorem withArrivals_reg (s : State) (v : List Arrival) (k : Nat) : (s.withArrivals v).reg k = s.reg k := rfl
@[simp] theorem withArrivals_core (s : State) (v : List Arrival) (k : Nat) : (s.withArrivals v).core k = s.core k := rfl
@[simp] theorem withArrivals_cluster (s : State) (v : List Arrival) (k : Nat) : (s.withArrivals v).cluster k = s.cluster k := rfl
@[simp] theorem withArrivals_layer (s : State) (v : List Arrival) (k : Nat) : (s.withArrivals v).layer k = s.layer k := rfl

/-! ### `withCores` -/

@[simp] theorem withCores_pending (s : State) (v : SMap Core) : (s.withCores v).pending = s.pending := rfl
@[simp] theorem withCores_outbox (s : State) (v : SMap Core) : (s.withCores v).outbox = s.outbox := rfl
@[simp] theorem withCores_fresh (s : State) (v : SMap Core) : (s.withCores v).fresh = s.fresh := rfl
@[simp] theorem withCores_regs (s : State) (v : SMap Core) : (s.withCores v).regs = s.regs := rfl
@[simp] theorem withCores_counter (s : State) (v : SMap Core) : (s.withCores v).counter = s.counter := rfl
@[simp] theorem withCores_tables (s : State) (v : SMap Core) : (s.withCores v).tables = s.tables := rfl
@[simp] theorem withCores_arrivals (s : State) (v : SMap Core) : (s.withCores v).arrivals = s.arrivals := rfl
@[simp] theorem withCores_cores (s : State) (v : SMap Core) : (s.withCores v).cores = v := rfl
@[simp] theorem withCores_clusters (s : State) (v : SMap Core) : (s.withCores v).clusters = s.clusters := rfl
@[simp] theorem withCores_train (s : State) (v : SMap Core) : (s.withCores v).train = s.train := rfl
@[simp] theorem withCores_roll (s : State) (v : SMap Core) : (s.withCores v).roll = s.roll := rfl
@[simp] theorem withCores_layers (s : State) (v : SMap Core) : (s.withCores v).layers = s.layers := rfl
@[simp] theorem withCores_mem (s : State) (v : SMap Core) : (s.withCores v).mem = s.mem := rfl
@[simp] theorem withCores_weir (s : State) (v : SMap Core) : (s.withCores v).weir = s.weir := rfl
@[simp] theorem withCores_log (s : State) (v : SMap Core) : (s.withCores v).log = s.log := rfl
@[simp] theorem withCores_mgt (s : State) (v : SMap Core) : (s.withCores v).mgt = s.mgt := rfl
@[simp] theorem withCores_power (s : State) (v : SMap Core) : (s.withCores v).power = s.power := rfl
@[simp] theorem withCores_pins (s : State) (v : SMap Core) : (s.withCores v).pins = s.pins := rfl
@[simp] theorem withCores_rill (s : State) (v : SMap Core) : (s.withCores v).rill = s.rill := rfl
@[simp] theorem withCores_net (s : State) (v : SMap Core) : (s.withCores v).net = s.net := rfl
@[simp] theorem withCores_ckpt (s : State) (v : SMap Core) : (s.withCores v).ckpt = s.ckpt := rfl
@[simp] theorem withCores_ledger (s : State) (v : SMap Core) : (s.withCores v).ledger = s.ledger := rfl
@[simp] theorem withCores_flash (s : State) (v : SMap Core) : (s.withCores v).flash = s.flash := rfl
@[simp] theorem withCores_holds (s : State) (v : SMap Core) : (s.withCores v).holds = s.holds := rfl
@[simp] theorem withCores_stopped (s : State) (v : SMap Core) : (s.withCores v).stopped = s.stopped := rfl
@[simp] theorem withCores_dead (s : State) (v : SMap Core) : (s.withCores v).dead = s.dead := rfl
@[simp] theorem withCores_reg (s : State) (v : SMap Core) (k : Nat) : (s.withCores v).reg k = s.reg k := rfl
@[simp] theorem withCores_cluster (s : State) (v : SMap Core) (k : Nat) : (s.withCores v).cluster k = s.cluster k := rfl
@[simp] theorem withCores_layer (s : State) (v : SMap Core) (k : Nat) : (s.withCores v).layer k = s.layer k := rfl

/-! ### `withClusters` -/

@[simp] theorem withClusters_pending (s : State) (v : SMap Cluster) : (s.withClusters v).pending = s.pending := rfl
@[simp] theorem withClusters_outbox (s : State) (v : SMap Cluster) : (s.withClusters v).outbox = s.outbox := rfl
@[simp] theorem withClusters_fresh (s : State) (v : SMap Cluster) : (s.withClusters v).fresh = s.fresh := rfl
@[simp] theorem withClusters_regs (s : State) (v : SMap Cluster) : (s.withClusters v).regs = s.regs := rfl
@[simp] theorem withClusters_counter (s : State) (v : SMap Cluster) : (s.withClusters v).counter = s.counter := rfl
@[simp] theorem withClusters_tables (s : State) (v : SMap Cluster) : (s.withClusters v).tables = s.tables := rfl
@[simp] theorem withClusters_arrivals (s : State) (v : SMap Cluster) : (s.withClusters v).arrivals = s.arrivals := rfl
@[simp] theorem withClusters_cores (s : State) (v : SMap Cluster) : (s.withClusters v).cores = s.cores := rfl
@[simp] theorem withClusters_clusters (s : State) (v : SMap Cluster) : (s.withClusters v).clusters = v := rfl
@[simp] theorem withClusters_train (s : State) (v : SMap Cluster) : (s.withClusters v).train = s.train := rfl
@[simp] theorem withClusters_roll (s : State) (v : SMap Cluster) : (s.withClusters v).roll = s.roll := rfl
@[simp] theorem withClusters_layers (s : State) (v : SMap Cluster) : (s.withClusters v).layers = s.layers := rfl
@[simp] theorem withClusters_mem (s : State) (v : SMap Cluster) : (s.withClusters v).mem = s.mem := rfl
@[simp] theorem withClusters_weir (s : State) (v : SMap Cluster) : (s.withClusters v).weir = s.weir := rfl
@[simp] theorem withClusters_log (s : State) (v : SMap Cluster) : (s.withClusters v).log = s.log := rfl
@[simp] theorem withClusters_mgt (s : State) (v : SMap Cluster) : (s.withClusters v).mgt = s.mgt := rfl
@[simp] theorem withClusters_power (s : State) (v : SMap Cluster) : (s.withClusters v).power = s.power := rfl
@[simp] theorem withClusters_pins (s : State) (v : SMap Cluster) : (s.withClusters v).pins = s.pins := rfl
@[simp] theorem withClusters_rill (s : State) (v : SMap Cluster) : (s.withClusters v).rill = s.rill := rfl
@[simp] theorem withClusters_net (s : State) (v : SMap Cluster) : (s.withClusters v).net = s.net := rfl
@[simp] theorem withClusters_ckpt (s : State) (v : SMap Cluster) : (s.withClusters v).ckpt = s.ckpt := rfl
@[simp] theorem withClusters_ledger (s : State) (v : SMap Cluster) : (s.withClusters v).ledger = s.ledger := rfl
@[simp] theorem withClusters_flash (s : State) (v : SMap Cluster) : (s.withClusters v).flash = s.flash := rfl
@[simp] theorem withClusters_holds (s : State) (v : SMap Cluster) : (s.withClusters v).holds = s.holds := rfl
@[simp] theorem withClusters_stopped (s : State) (v : SMap Cluster) : (s.withClusters v).stopped = s.stopped := rfl
@[simp] theorem withClusters_dead (s : State) (v : SMap Cluster) : (s.withClusters v).dead = s.dead := rfl
@[simp] theorem withClusters_reg (s : State) (v : SMap Cluster) (k : Nat) : (s.withClusters v).reg k = s.reg k := rfl
@[simp] theorem withClusters_core (s : State) (v : SMap Cluster) (k : Nat) : (s.withClusters v).core k = s.core k := rfl
@[simp] theorem withClusters_layer (s : State) (v : SMap Cluster) (k : Nat) : (s.withClusters v).layer k = s.layer k := rfl

/-! ### `withTrain` -/

@[simp] theorem withTrain_pending (s : State) (v : TrainGroup) : (s.withTrain v).pending = s.pending := rfl
@[simp] theorem withTrain_outbox (s : State) (v : TrainGroup) : (s.withTrain v).outbox = s.outbox := rfl
@[simp] theorem withTrain_fresh (s : State) (v : TrainGroup) : (s.withTrain v).fresh = s.fresh := rfl
@[simp] theorem withTrain_regs (s : State) (v : TrainGroup) : (s.withTrain v).regs = s.regs := rfl
@[simp] theorem withTrain_counter (s : State) (v : TrainGroup) : (s.withTrain v).counter = s.counter := rfl
@[simp] theorem withTrain_tables (s : State) (v : TrainGroup) : (s.withTrain v).tables = s.tables := rfl
@[simp] theorem withTrain_arrivals (s : State) (v : TrainGroup) : (s.withTrain v).arrivals = s.arrivals := rfl
@[simp] theorem withTrain_cores (s : State) (v : TrainGroup) : (s.withTrain v).cores = s.cores := rfl
@[simp] theorem withTrain_clusters (s : State) (v : TrainGroup) : (s.withTrain v).clusters = s.clusters := rfl
@[simp] theorem withTrain_train (s : State) (v : TrainGroup) : (s.withTrain v).train = v := rfl
@[simp] theorem withTrain_roll (s : State) (v : TrainGroup) : (s.withTrain v).roll = s.roll := rfl
@[simp] theorem withTrain_layers (s : State) (v : TrainGroup) : (s.withTrain v).layers = s.layers := rfl
@[simp] theorem withTrain_mem (s : State) (v : TrainGroup) : (s.withTrain v).mem = s.mem := rfl
@[simp] theorem withTrain_weir (s : State) (v : TrainGroup) : (s.withTrain v).weir = s.weir := rfl
@[simp] theorem withTrain_log (s : State) (v : TrainGroup) : (s.withTrain v).log = s.log := rfl
@[simp] theorem withTrain_mgt (s : State) (v : TrainGroup) : (s.withTrain v).mgt = s.mgt := rfl
@[simp] theorem withTrain_power (s : State) (v : TrainGroup) : (s.withTrain v).power = s.power := rfl
@[simp] theorem withTrain_pins (s : State) (v : TrainGroup) : (s.withTrain v).pins = s.pins := rfl
@[simp] theorem withTrain_rill (s : State) (v : TrainGroup) : (s.withTrain v).rill = s.rill := rfl
@[simp] theorem withTrain_net (s : State) (v : TrainGroup) : (s.withTrain v).net = s.net := rfl
@[simp] theorem withTrain_ckpt (s : State) (v : TrainGroup) : (s.withTrain v).ckpt = s.ckpt := rfl
@[simp] theorem withTrain_ledger (s : State) (v : TrainGroup) : (s.withTrain v).ledger = s.ledger := rfl
@[simp] theorem withTrain_flash (s : State) (v : TrainGroup) : (s.withTrain v).flash = s.flash := rfl
@[simp] theorem withTrain_holds (s : State) (v : TrainGroup) : (s.withTrain v).holds = s.holds := rfl
@[simp] theorem withTrain_stopped (s : State) (v : TrainGroup) : (s.withTrain v).stopped = s.stopped := rfl
@[simp] theorem withTrain_dead (s : State) (v : TrainGroup) : (s.withTrain v).dead = s.dead := rfl
@[simp] theorem withTrain_reg (s : State) (v : TrainGroup) (k : Nat) : (s.withTrain v).reg k = s.reg k := rfl
@[simp] theorem withTrain_core (s : State) (v : TrainGroup) (k : Nat) : (s.withTrain v).core k = s.core k := rfl
@[simp] theorem withTrain_cluster (s : State) (v : TrainGroup) (k : Nat) : (s.withTrain v).cluster k = s.cluster k := rfl
@[simp] theorem withTrain_layer (s : State) (v : TrainGroup) (k : Nat) : (s.withTrain v).layer k = s.layer k := rfl

/-! ### `withRoll` -/

@[simp] theorem withRoll_pending (s : State) (v : RollGroup) : (s.withRoll v).pending = s.pending := rfl
@[simp] theorem withRoll_outbox (s : State) (v : RollGroup) : (s.withRoll v).outbox = s.outbox := rfl
@[simp] theorem withRoll_fresh (s : State) (v : RollGroup) : (s.withRoll v).fresh = s.fresh := rfl
@[simp] theorem withRoll_regs (s : State) (v : RollGroup) : (s.withRoll v).regs = s.regs := rfl
@[simp] theorem withRoll_counter (s : State) (v : RollGroup) : (s.withRoll v).counter = s.counter := rfl
@[simp] theorem withRoll_tables (s : State) (v : RollGroup) : (s.withRoll v).tables = s.tables := rfl
@[simp] theorem withRoll_arrivals (s : State) (v : RollGroup) : (s.withRoll v).arrivals = s.arrivals := rfl
@[simp] theorem withRoll_cores (s : State) (v : RollGroup) : (s.withRoll v).cores = s.cores := rfl
@[simp] theorem withRoll_clusters (s : State) (v : RollGroup) : (s.withRoll v).clusters = s.clusters := rfl
@[simp] theorem withRoll_train (s : State) (v : RollGroup) : (s.withRoll v).train = s.train := rfl
@[simp] theorem withRoll_roll (s : State) (v : RollGroup) : (s.withRoll v).roll = v := rfl
@[simp] theorem withRoll_layers (s : State) (v : RollGroup) : (s.withRoll v).layers = s.layers := rfl
@[simp] theorem withRoll_mem (s : State) (v : RollGroup) : (s.withRoll v).mem = s.mem := rfl
@[simp] theorem withRoll_weir (s : State) (v : RollGroup) : (s.withRoll v).weir = s.weir := rfl
@[simp] theorem withRoll_log (s : State) (v : RollGroup) : (s.withRoll v).log = s.log := rfl
@[simp] theorem withRoll_mgt (s : State) (v : RollGroup) : (s.withRoll v).mgt = s.mgt := rfl
@[simp] theorem withRoll_power (s : State) (v : RollGroup) : (s.withRoll v).power = s.power := rfl
@[simp] theorem withRoll_pins (s : State) (v : RollGroup) : (s.withRoll v).pins = s.pins := rfl
@[simp] theorem withRoll_rill (s : State) (v : RollGroup) : (s.withRoll v).rill = s.rill := rfl
@[simp] theorem withRoll_net (s : State) (v : RollGroup) : (s.withRoll v).net = s.net := rfl
@[simp] theorem withRoll_ckpt (s : State) (v : RollGroup) : (s.withRoll v).ckpt = s.ckpt := rfl
@[simp] theorem withRoll_ledger (s : State) (v : RollGroup) : (s.withRoll v).ledger = s.ledger := rfl
@[simp] theorem withRoll_flash (s : State) (v : RollGroup) : (s.withRoll v).flash = s.flash := rfl
@[simp] theorem withRoll_holds (s : State) (v : RollGroup) : (s.withRoll v).holds = s.holds := rfl
@[simp] theorem withRoll_stopped (s : State) (v : RollGroup) : (s.withRoll v).stopped = s.stopped := rfl
@[simp] theorem withRoll_dead (s : State) (v : RollGroup) : (s.withRoll v).dead = s.dead := rfl
@[simp] theorem withRoll_reg (s : State) (v : RollGroup) (k : Nat) : (s.withRoll v).reg k = s.reg k := rfl
@[simp] theorem withRoll_core (s : State) (v : RollGroup) (k : Nat) : (s.withRoll v).core k = s.core k := rfl
@[simp] theorem withRoll_cluster (s : State) (v : RollGroup) (k : Nat) : (s.withRoll v).cluster k = s.cluster k := rfl
@[simp] theorem withRoll_layer (s : State) (v : RollGroup) (k : Nat) : (s.withRoll v).layer k = s.layer k := rfl

/-! ### `withLayers` -/

@[simp] theorem withLayers_pending (s : State) (v : SMap Layer) : (s.withLayers v).pending = s.pending := rfl
@[simp] theorem withLayers_outbox (s : State) (v : SMap Layer) : (s.withLayers v).outbox = s.outbox := rfl
@[simp] theorem withLayers_fresh (s : State) (v : SMap Layer) : (s.withLayers v).fresh = s.fresh := rfl
@[simp] theorem withLayers_regs (s : State) (v : SMap Layer) : (s.withLayers v).regs = s.regs := rfl
@[simp] theorem withLayers_counter (s : State) (v : SMap Layer) : (s.withLayers v).counter = s.counter := rfl
@[simp] theorem withLayers_tables (s : State) (v : SMap Layer) : (s.withLayers v).tables = s.tables := rfl
@[simp] theorem withLayers_arrivals (s : State) (v : SMap Layer) : (s.withLayers v).arrivals = s.arrivals := rfl
@[simp] theorem withLayers_cores (s : State) (v : SMap Layer) : (s.withLayers v).cores = s.cores := rfl
@[simp] theorem withLayers_clusters (s : State) (v : SMap Layer) : (s.withLayers v).clusters = s.clusters := rfl
@[simp] theorem withLayers_train (s : State) (v : SMap Layer) : (s.withLayers v).train = s.train := rfl
@[simp] theorem withLayers_roll (s : State) (v : SMap Layer) : (s.withLayers v).roll = s.roll := rfl
@[simp] theorem withLayers_layers (s : State) (v : SMap Layer) : (s.withLayers v).layers = v := rfl
@[simp] theorem withLayers_mem (s : State) (v : SMap Layer) : (s.withLayers v).mem = s.mem := rfl
@[simp] theorem withLayers_weir (s : State) (v : SMap Layer) : (s.withLayers v).weir = s.weir := rfl
@[simp] theorem withLayers_log (s : State) (v : SMap Layer) : (s.withLayers v).log = s.log := rfl
@[simp] theorem withLayers_mgt (s : State) (v : SMap Layer) : (s.withLayers v).mgt = s.mgt := rfl
@[simp] theorem withLayers_power (s : State) (v : SMap Layer) : (s.withLayers v).power = s.power := rfl
@[simp] theorem withLayers_pins (s : State) (v : SMap Layer) : (s.withLayers v).pins = s.pins := rfl
@[simp] theorem withLayers_rill (s : State) (v : SMap Layer) : (s.withLayers v).rill = s.rill := rfl
@[simp] theorem withLayers_net (s : State) (v : SMap Layer) : (s.withLayers v).net = s.net := rfl
@[simp] theorem withLayers_ckpt (s : State) (v : SMap Layer) : (s.withLayers v).ckpt = s.ckpt := rfl
@[simp] theorem withLayers_ledger (s : State) (v : SMap Layer) : (s.withLayers v).ledger = s.ledger := rfl
@[simp] theorem withLayers_flash (s : State) (v : SMap Layer) : (s.withLayers v).flash = s.flash := rfl
@[simp] theorem withLayers_holds (s : State) (v : SMap Layer) : (s.withLayers v).holds = s.holds := rfl
@[simp] theorem withLayers_stopped (s : State) (v : SMap Layer) : (s.withLayers v).stopped = s.stopped := rfl
@[simp] theorem withLayers_dead (s : State) (v : SMap Layer) : (s.withLayers v).dead = s.dead := rfl
@[simp] theorem withLayers_reg (s : State) (v : SMap Layer) (k : Nat) : (s.withLayers v).reg k = s.reg k := rfl
@[simp] theorem withLayers_core (s : State) (v : SMap Layer) (k : Nat) : (s.withLayers v).core k = s.core k := rfl
@[simp] theorem withLayers_cluster (s : State) (v : SMap Layer) (k : Nat) : (s.withLayers v).cluster k = s.cluster k := rfl

/-! ### `withMem` -/

@[simp] theorem withMem_pending (s : State) (v : MemState) : (s.withMem v).pending = s.pending := rfl
@[simp] theorem withMem_outbox (s : State) (v : MemState) : (s.withMem v).outbox = s.outbox := rfl
@[simp] theorem withMem_fresh (s : State) (v : MemState) : (s.withMem v).fresh = s.fresh := rfl
@[simp] theorem withMem_regs (s : State) (v : MemState) : (s.withMem v).regs = s.regs := rfl
@[simp] theorem withMem_counter (s : State) (v : MemState) : (s.withMem v).counter = s.counter := rfl
@[simp] theorem withMem_tables (s : State) (v : MemState) : (s.withMem v).tables = s.tables := rfl
@[simp] theorem withMem_arrivals (s : State) (v : MemState) : (s.withMem v).arrivals = s.arrivals := rfl
@[simp] theorem withMem_cores (s : State) (v : MemState) : (s.withMem v).cores = s.cores := rfl
@[simp] theorem withMem_clusters (s : State) (v : MemState) : (s.withMem v).clusters = s.clusters := rfl
@[simp] theorem withMem_train (s : State) (v : MemState) : (s.withMem v).train = s.train := rfl
@[simp] theorem withMem_roll (s : State) (v : MemState) : (s.withMem v).roll = s.roll := rfl
@[simp] theorem withMem_layers (s : State) (v : MemState) : (s.withMem v).layers = s.layers := rfl
@[simp] theorem withMem_mem (s : State) (v : MemState) : (s.withMem v).mem = v := rfl
@[simp] theorem withMem_weir (s : State) (v : MemState) : (s.withMem v).weir = s.weir := rfl
@[simp] theorem withMem_log (s : State) (v : MemState) : (s.withMem v).log = s.log := rfl
@[simp] theorem withMem_mgt (s : State) (v : MemState) : (s.withMem v).mgt = s.mgt := rfl
@[simp] theorem withMem_power (s : State) (v : MemState) : (s.withMem v).power = s.power := rfl
@[simp] theorem withMem_pins (s : State) (v : MemState) : (s.withMem v).pins = s.pins := rfl
@[simp] theorem withMem_rill (s : State) (v : MemState) : (s.withMem v).rill = s.rill := rfl
@[simp] theorem withMem_net (s : State) (v : MemState) : (s.withMem v).net = s.net := rfl
@[simp] theorem withMem_ckpt (s : State) (v : MemState) : (s.withMem v).ckpt = s.ckpt := rfl
@[simp] theorem withMem_ledger (s : State) (v : MemState) : (s.withMem v).ledger = s.ledger := rfl
@[simp] theorem withMem_flash (s : State) (v : MemState) : (s.withMem v).flash = s.flash := rfl
@[simp] theorem withMem_holds (s : State) (v : MemState) : (s.withMem v).holds = s.holds := rfl
@[simp] theorem withMem_stopped (s : State) (v : MemState) : (s.withMem v).stopped = s.stopped := rfl
@[simp] theorem withMem_dead (s : State) (v : MemState) : (s.withMem v).dead = s.dead := rfl
@[simp] theorem withMem_reg (s : State) (v : MemState) (k : Nat) : (s.withMem v).reg k = s.reg k := rfl
@[simp] theorem withMem_core (s : State) (v : MemState) (k : Nat) : (s.withMem v).core k = s.core k := rfl
@[simp] theorem withMem_cluster (s : State) (v : MemState) (k : Nat) : (s.withMem v).cluster k = s.cluster k := rfl
@[simp] theorem withMem_layer (s : State) (v : MemState) (k : Nat) : (s.withMem v).layer k = s.layer k := rfl

/-! ### `withWeir` -/

@[simp] theorem withWeir_pending (s : State) (v : WeirState) : (s.withWeir v).pending = s.pending := rfl
@[simp] theorem withWeir_outbox (s : State) (v : WeirState) : (s.withWeir v).outbox = s.outbox := rfl
@[simp] theorem withWeir_fresh (s : State) (v : WeirState) : (s.withWeir v).fresh = s.fresh := rfl
@[simp] theorem withWeir_regs (s : State) (v : WeirState) : (s.withWeir v).regs = s.regs := rfl
@[simp] theorem withWeir_counter (s : State) (v : WeirState) : (s.withWeir v).counter = s.counter := rfl
@[simp] theorem withWeir_tables (s : State) (v : WeirState) : (s.withWeir v).tables = s.tables := rfl
@[simp] theorem withWeir_arrivals (s : State) (v : WeirState) : (s.withWeir v).arrivals = s.arrivals := rfl
@[simp] theorem withWeir_cores (s : State) (v : WeirState) : (s.withWeir v).cores = s.cores := rfl
@[simp] theorem withWeir_clusters (s : State) (v : WeirState) : (s.withWeir v).clusters = s.clusters := rfl
@[simp] theorem withWeir_train (s : State) (v : WeirState) : (s.withWeir v).train = s.train := rfl
@[simp] theorem withWeir_roll (s : State) (v : WeirState) : (s.withWeir v).roll = s.roll := rfl
@[simp] theorem withWeir_layers (s : State) (v : WeirState) : (s.withWeir v).layers = s.layers := rfl
@[simp] theorem withWeir_mem (s : State) (v : WeirState) : (s.withWeir v).mem = s.mem := rfl
@[simp] theorem withWeir_weir (s : State) (v : WeirState) : (s.withWeir v).weir = v := rfl
@[simp] theorem withWeir_log (s : State) (v : WeirState) : (s.withWeir v).log = s.log := rfl
@[simp] theorem withWeir_mgt (s : State) (v : WeirState) : (s.withWeir v).mgt = s.mgt := rfl
@[simp] theorem withWeir_power (s : State) (v : WeirState) : (s.withWeir v).power = s.power := rfl
@[simp] theorem withWeir_pins (s : State) (v : WeirState) : (s.withWeir v).pins = s.pins := rfl
@[simp] theorem withWeir_rill (s : State) (v : WeirState) : (s.withWeir v).rill = s.rill := rfl
@[simp] theorem withWeir_net (s : State) (v : WeirState) : (s.withWeir v).net = s.net := rfl
@[simp] theorem withWeir_ckpt (s : State) (v : WeirState) : (s.withWeir v).ckpt = s.ckpt := rfl
@[simp] theorem withWeir_ledger (s : State) (v : WeirState) : (s.withWeir v).ledger = s.ledger := rfl
@[simp] theorem withWeir_flash (s : State) (v : WeirState) : (s.withWeir v).flash = s.flash := rfl
@[simp] theorem withWeir_holds (s : State) (v : WeirState) : (s.withWeir v).holds = s.holds := rfl
@[simp] theorem withWeir_stopped (s : State) (v : WeirState) : (s.withWeir v).stopped = s.stopped := rfl
@[simp] theorem withWeir_dead (s : State) (v : WeirState) : (s.withWeir v).dead = s.dead := rfl
@[simp] theorem withWeir_reg (s : State) (v : WeirState) (k : Nat) : (s.withWeir v).reg k = s.reg k := rfl
@[simp] theorem withWeir_core (s : State) (v : WeirState) (k : Nat) : (s.withWeir v).core k = s.core k := rfl
@[simp] theorem withWeir_cluster (s : State) (v : WeirState) (k : Nat) : (s.withWeir v).cluster k = s.cluster k := rfl
@[simp] theorem withWeir_layer (s : State) (v : WeirState) (k : Nat) : (s.withWeir v).layer k = s.layer k := rfl

/-! ### `withLog` -/

@[simp] theorem withLog_pending (s : State) (v : LogState) : (s.withLog v).pending = s.pending := rfl
@[simp] theorem withLog_outbox (s : State) (v : LogState) : (s.withLog v).outbox = s.outbox := rfl
@[simp] theorem withLog_fresh (s : State) (v : LogState) : (s.withLog v).fresh = s.fresh := rfl
@[simp] theorem withLog_regs (s : State) (v : LogState) : (s.withLog v).regs = s.regs := rfl
@[simp] theorem withLog_counter (s : State) (v : LogState) : (s.withLog v).counter = s.counter := rfl
@[simp] theorem withLog_tables (s : State) (v : LogState) : (s.withLog v).tables = s.tables := rfl
@[simp] theorem withLog_arrivals (s : State) (v : LogState) : (s.withLog v).arrivals = s.arrivals := rfl
@[simp] theorem withLog_cores (s : State) (v : LogState) : (s.withLog v).cores = s.cores := rfl
@[simp] theorem withLog_clusters (s : State) (v : LogState) : (s.withLog v).clusters = s.clusters := rfl
@[simp] theorem withLog_train (s : State) (v : LogState) : (s.withLog v).train = s.train := rfl
@[simp] theorem withLog_roll (s : State) (v : LogState) : (s.withLog v).roll = s.roll := rfl
@[simp] theorem withLog_layers (s : State) (v : LogState) : (s.withLog v).layers = s.layers := rfl
@[simp] theorem withLog_mem (s : State) (v : LogState) : (s.withLog v).mem = s.mem := rfl
@[simp] theorem withLog_weir (s : State) (v : LogState) : (s.withLog v).weir = s.weir := rfl
@[simp] theorem withLog_log (s : State) (v : LogState) : (s.withLog v).log = v := rfl
@[simp] theorem withLog_mgt (s : State) (v : LogState) : (s.withLog v).mgt = s.mgt := rfl
@[simp] theorem withLog_power (s : State) (v : LogState) : (s.withLog v).power = s.power := rfl
@[simp] theorem withLog_pins (s : State) (v : LogState) : (s.withLog v).pins = s.pins := rfl
@[simp] theorem withLog_rill (s : State) (v : LogState) : (s.withLog v).rill = s.rill := rfl
@[simp] theorem withLog_net (s : State) (v : LogState) : (s.withLog v).net = s.net := rfl
@[simp] theorem withLog_ckpt (s : State) (v : LogState) : (s.withLog v).ckpt = s.ckpt := rfl
@[simp] theorem withLog_ledger (s : State) (v : LogState) : (s.withLog v).ledger = s.ledger := rfl
@[simp] theorem withLog_flash (s : State) (v : LogState) : (s.withLog v).flash = s.flash := rfl
@[simp] theorem withLog_holds (s : State) (v : LogState) : (s.withLog v).holds = s.holds := rfl
@[simp] theorem withLog_stopped (s : State) (v : LogState) : (s.withLog v).stopped = s.stopped := rfl
@[simp] theorem withLog_dead (s : State) (v : LogState) : (s.withLog v).dead = s.dead := rfl
@[simp] theorem withLog_reg (s : State) (v : LogState) (k : Nat) : (s.withLog v).reg k = s.reg k := rfl
@[simp] theorem withLog_core (s : State) (v : LogState) (k : Nat) : (s.withLog v).core k = s.core k := rfl
@[simp] theorem withLog_cluster (s : State) (v : LogState) (k : Nat) : (s.withLog v).cluster k = s.cluster k := rfl
@[simp] theorem withLog_layer (s : State) (v : LogState) (k : Nat) : (s.withLog v).layer k = s.layer k := rfl

/-! ### `withMgt` -/

@[simp] theorem withMgt_pending (s : State) (v : MgtState) : (s.withMgt v).pending = s.pending := rfl
@[simp] theorem withMgt_outbox (s : State) (v : MgtState) : (s.withMgt v).outbox = s.outbox := rfl
@[simp] theorem withMgt_fresh (s : State) (v : MgtState) : (s.withMgt v).fresh = s.fresh := rfl
@[simp] theorem withMgt_regs (s : State) (v : MgtState) : (s.withMgt v).regs = s.regs := rfl
@[simp] theorem withMgt_counter (s : State) (v : MgtState) : (s.withMgt v).counter = s.counter := rfl
@[simp] theorem withMgt_tables (s : State) (v : MgtState) : (s.withMgt v).tables = s.tables := rfl
@[simp] theorem withMgt_arrivals (s : State) (v : MgtState) : (s.withMgt v).arrivals = s.arrivals := rfl
@[simp] theorem withMgt_cores (s : State) (v : MgtState) : (s.withMgt v).cores = s.cores := rfl
@[simp] theorem withMgt_clusters (s : State) (v : MgtState) : (s.withMgt v).clusters = s.clusters := rfl
@[simp] theorem withMgt_train (s : State) (v : MgtState) : (s.withMgt v).train = s.train := rfl
@[simp] theorem withMgt_roll (s : State) (v : MgtState) : (s.withMgt v).roll = s.roll := rfl
@[simp] theorem withMgt_layers (s : State) (v : MgtState) : (s.withMgt v).layers = s.layers := rfl
@[simp] theorem withMgt_mem (s : State) (v : MgtState) : (s.withMgt v).mem = s.mem := rfl
@[simp] theorem withMgt_weir (s : State) (v : MgtState) : (s.withMgt v).weir = s.weir := rfl
@[simp] theorem withMgt_log (s : State) (v : MgtState) : (s.withMgt v).log = s.log := rfl
@[simp] theorem withMgt_mgt (s : State) (v : MgtState) : (s.withMgt v).mgt = v := rfl
@[simp] theorem withMgt_power (s : State) (v : MgtState) : (s.withMgt v).power = s.power := rfl
@[simp] theorem withMgt_pins (s : State) (v : MgtState) : (s.withMgt v).pins = s.pins := rfl
@[simp] theorem withMgt_rill (s : State) (v : MgtState) : (s.withMgt v).rill = s.rill := rfl
@[simp] theorem withMgt_net (s : State) (v : MgtState) : (s.withMgt v).net = s.net := rfl
@[simp] theorem withMgt_ckpt (s : State) (v : MgtState) : (s.withMgt v).ckpt = s.ckpt := rfl
@[simp] theorem withMgt_ledger (s : State) (v : MgtState) : (s.withMgt v).ledger = s.ledger := rfl
@[simp] theorem withMgt_flash (s : State) (v : MgtState) : (s.withMgt v).flash = s.flash := rfl
@[simp] theorem withMgt_holds (s : State) (v : MgtState) : (s.withMgt v).holds = s.holds := rfl
@[simp] theorem withMgt_stopped (s : State) (v : MgtState) : (s.withMgt v).stopped = s.stopped := rfl
@[simp] theorem withMgt_dead (s : State) (v : MgtState) : (s.withMgt v).dead = s.dead := rfl
@[simp] theorem withMgt_reg (s : State) (v : MgtState) (k : Nat) : (s.withMgt v).reg k = s.reg k := rfl
@[simp] theorem withMgt_core (s : State) (v : MgtState) (k : Nat) : (s.withMgt v).core k = s.core k := rfl
@[simp] theorem withMgt_cluster (s : State) (v : MgtState) (k : Nat) : (s.withMgt v).cluster k = s.cluster k := rfl
@[simp] theorem withMgt_layer (s : State) (v : MgtState) (k : Nat) : (s.withMgt v).layer k = s.layer k := rfl

/-! ### `withPower` -/

@[simp] theorem withPower_pending (s : State) (v : PowerState) : (s.withPower v).pending = s.pending := rfl
@[simp] theorem withPower_outbox (s : State) (v : PowerState) : (s.withPower v).outbox = s.outbox := rfl
@[simp] theorem withPower_fresh (s : State) (v : PowerState) : (s.withPower v).fresh = s.fresh := rfl
@[simp] theorem withPower_regs (s : State) (v : PowerState) : (s.withPower v).regs = s.regs := rfl
@[simp] theorem withPower_counter (s : State) (v : PowerState) : (s.withPower v).counter = s.counter := rfl
@[simp] theorem withPower_tables (s : State) (v : PowerState) : (s.withPower v).tables = s.tables := rfl
@[simp] theorem withPower_arrivals (s : State) (v : PowerState) : (s.withPower v).arrivals = s.arrivals := rfl
@[simp] theorem withPower_cores (s : State) (v : PowerState) : (s.withPower v).cores = s.cores := rfl
@[simp] theorem withPower_clusters (s : State) (v : PowerState) : (s.withPower v).clusters = s.clusters := rfl
@[simp] theorem withPower_train (s : State) (v : PowerState) : (s.withPower v).train = s.train := rfl
@[simp] theorem withPower_roll (s : State) (v : PowerState) : (s.withPower v).roll = s.roll := rfl
@[simp] theorem withPower_layers (s : State) (v : PowerState) : (s.withPower v).layers = s.layers := rfl
@[simp] theorem withPower_mem (s : State) (v : PowerState) : (s.withPower v).mem = s.mem := rfl
@[simp] theorem withPower_weir (s : State) (v : PowerState) : (s.withPower v).weir = s.weir := rfl
@[simp] theorem withPower_log (s : State) (v : PowerState) : (s.withPower v).log = s.log := rfl
@[simp] theorem withPower_mgt (s : State) (v : PowerState) : (s.withPower v).mgt = s.mgt := rfl
@[simp] theorem withPower_power (s : State) (v : PowerState) : (s.withPower v).power = v := rfl
@[simp] theorem withPower_pins (s : State) (v : PowerState) : (s.withPower v).pins = s.pins := rfl
@[simp] theorem withPower_rill (s : State) (v : PowerState) : (s.withPower v).rill = s.rill := rfl
@[simp] theorem withPower_net (s : State) (v : PowerState) : (s.withPower v).net = s.net := rfl
@[simp] theorem withPower_ckpt (s : State) (v : PowerState) : (s.withPower v).ckpt = s.ckpt := rfl
@[simp] theorem withPower_ledger (s : State) (v : PowerState) : (s.withPower v).ledger = s.ledger := rfl
@[simp] theorem withPower_flash (s : State) (v : PowerState) : (s.withPower v).flash = s.flash := rfl
@[simp] theorem withPower_holds (s : State) (v : PowerState) : (s.withPower v).holds = s.holds := rfl
@[simp] theorem withPower_stopped (s : State) (v : PowerState) : (s.withPower v).stopped = s.stopped := rfl
@[simp] theorem withPower_dead (s : State) (v : PowerState) : (s.withPower v).dead = s.dead := rfl
@[simp] theorem withPower_reg (s : State) (v : PowerState) (k : Nat) : (s.withPower v).reg k = s.reg k := rfl
@[simp] theorem withPower_core (s : State) (v : PowerState) (k : Nat) : (s.withPower v).core k = s.core k := rfl
@[simp] theorem withPower_cluster (s : State) (v : PowerState) (k : Nat) : (s.withPower v).cluster k = s.cluster k := rfl
@[simp] theorem withPower_layer (s : State) (v : PowerState) (k : Nat) : (s.withPower v).layer k = s.layer k := rfl

/-! ### `withPins` -/

@[simp] theorem withPins_pending (s : State) (v : Pins) : (s.withPins v).pending = s.pending := rfl
@[simp] theorem withPins_outbox (s : State) (v : Pins) : (s.withPins v).outbox = s.outbox := rfl
@[simp] theorem withPins_fresh (s : State) (v : Pins) : (s.withPins v).fresh = s.fresh := rfl
@[simp] theorem withPins_regs (s : State) (v : Pins) : (s.withPins v).regs = s.regs := rfl
@[simp] theorem withPins_counter (s : State) (v : Pins) : (s.withPins v).counter = s.counter := rfl
@[simp] theorem withPins_tables (s : State) (v : Pins) : (s.withPins v).tables = s.tables := rfl
@[simp] theorem withPins_arrivals (s : State) (v : Pins) : (s.withPins v).arrivals = s.arrivals := rfl
@[simp] theorem withPins_cores (s : State) (v : Pins) : (s.withPins v).cores = s.cores := rfl
@[simp] theorem withPins_clusters (s : State) (v : Pins) : (s.withPins v).clusters = s.clusters := rfl
@[simp] theorem withPins_train (s : State) (v : Pins) : (s.withPins v).train = s.train := rfl
@[simp] theorem withPins_roll (s : State) (v : Pins) : (s.withPins v).roll = s.roll := rfl
@[simp] theorem withPins_layers (s : State) (v : Pins) : (s.withPins v).layers = s.layers := rfl
@[simp] theorem withPins_mem (s : State) (v : Pins) : (s.withPins v).mem = s.mem := rfl
@[simp] theorem withPins_weir (s : State) (v : Pins) : (s.withPins v).weir = s.weir := rfl
@[simp] theorem withPins_log (s : State) (v : Pins) : (s.withPins v).log = s.log := rfl
@[simp] theorem withPins_mgt (s : State) (v : Pins) : (s.withPins v).mgt = s.mgt := rfl
@[simp] theorem withPins_power (s : State) (v : Pins) : (s.withPins v).power = s.power := rfl
@[simp] theorem withPins_pins (s : State) (v : Pins) : (s.withPins v).pins = v := rfl
@[simp] theorem withPins_rill (s : State) (v : Pins) : (s.withPins v).rill = s.rill := rfl
@[simp] theorem withPins_net (s : State) (v : Pins) : (s.withPins v).net = s.net := rfl
@[simp] theorem withPins_ckpt (s : State) (v : Pins) : (s.withPins v).ckpt = s.ckpt := rfl
@[simp] theorem withPins_ledger (s : State) (v : Pins) : (s.withPins v).ledger = s.ledger := rfl
@[simp] theorem withPins_flash (s : State) (v : Pins) : (s.withPins v).flash = s.flash := rfl
@[simp] theorem withPins_holds (s : State) (v : Pins) : (s.withPins v).holds = s.holds := rfl
@[simp] theorem withPins_stopped (s : State) (v : Pins) : (s.withPins v).stopped = s.stopped := rfl
@[simp] theorem withPins_dead (s : State) (v : Pins) : (s.withPins v).dead = s.dead := rfl
@[simp] theorem withPins_reg (s : State) (v : Pins) (k : Nat) : (s.withPins v).reg k = s.reg k := rfl
@[simp] theorem withPins_core (s : State) (v : Pins) (k : Nat) : (s.withPins v).core k = s.core k := rfl
@[simp] theorem withPins_cluster (s : State) (v : Pins) (k : Nat) : (s.withPins v).cluster k = s.cluster k := rfl
@[simp] theorem withPins_layer (s : State) (v : Pins) (k : Nat) : (s.withPins v).layer k = s.layer k := rfl

/-! ### `withRill` -/

@[simp] theorem withRill_pending (s : State) (v : RillState) : (s.withRill v).pending = s.pending := rfl
@[simp] theorem withRill_outbox (s : State) (v : RillState) : (s.withRill v).outbox = s.outbox := rfl
@[simp] theorem withRill_fresh (s : State) (v : RillState) : (s.withRill v).fresh = s.fresh := rfl
@[simp] theorem withRill_regs (s : State) (v : RillState) : (s.withRill v).regs = s.regs := rfl
@[simp] theorem withRill_counter (s : State) (v : RillState) : (s.withRill v).counter = s.counter := rfl
@[simp] theorem withRill_tables (s : State) (v : RillState) : (s.withRill v).tables = s.tables := rfl
@[simp] theorem withRill_arrivals (s : State) (v : RillState) : (s.withRill v).arrivals = s.arrivals := rfl
@[simp] theorem withRill_cores (s : State) (v : RillState) : (s.withRill v).cores = s.cores := rfl
@[simp] theorem withRill_clusters (s : State) (v : RillState) : (s.withRill v).clusters = s.clusters := rfl
@[simp] theorem withRill_train (s : State) (v : RillState) : (s.withRill v).train = s.train := rfl
@[simp] theorem withRill_roll (s : State) (v : RillState) : (s.withRill v).roll = s.roll := rfl
@[simp] theorem withRill_layers (s : State) (v : RillState) : (s.withRill v).layers = s.layers := rfl
@[simp] theorem withRill_mem (s : State) (v : RillState) : (s.withRill v).mem = s.mem := rfl
@[simp] theorem withRill_weir (s : State) (v : RillState) : (s.withRill v).weir = s.weir := rfl
@[simp] theorem withRill_log (s : State) (v : RillState) : (s.withRill v).log = s.log := rfl
@[simp] theorem withRill_mgt (s : State) (v : RillState) : (s.withRill v).mgt = s.mgt := rfl
@[simp] theorem withRill_power (s : State) (v : RillState) : (s.withRill v).power = s.power := rfl
@[simp] theorem withRill_pins (s : State) (v : RillState) : (s.withRill v).pins = s.pins := rfl
@[simp] theorem withRill_rill (s : State) (v : RillState) : (s.withRill v).rill = v := rfl
@[simp] theorem withRill_net (s : State) (v : RillState) : (s.withRill v).net = s.net := rfl
@[simp] theorem withRill_ckpt (s : State) (v : RillState) : (s.withRill v).ckpt = s.ckpt := rfl
@[simp] theorem withRill_ledger (s : State) (v : RillState) : (s.withRill v).ledger = s.ledger := rfl
@[simp] theorem withRill_flash (s : State) (v : RillState) : (s.withRill v).flash = s.flash := rfl
@[simp] theorem withRill_holds (s : State) (v : RillState) : (s.withRill v).holds = s.holds := rfl
@[simp] theorem withRill_stopped (s : State) (v : RillState) : (s.withRill v).stopped = s.stopped := rfl
@[simp] theorem withRill_dead (s : State) (v : RillState) : (s.withRill v).dead = s.dead := rfl
@[simp] theorem withRill_reg (s : State) (v : RillState) (k : Nat) : (s.withRill v).reg k = s.reg k := rfl
@[simp] theorem withRill_core (s : State) (v : RillState) (k : Nat) : (s.withRill v).core k = s.core k := rfl
@[simp] theorem withRill_cluster (s : State) (v : RillState) (k : Nat) : (s.withRill v).cluster k = s.cluster k := rfl
@[simp] theorem withRill_layer (s : State) (v : RillState) (k : Nat) : (s.withRill v).layer k = s.layer k := rfl

/-! ### `withNet` -/

@[simp] theorem withNet_pending (s : State) (v : NetState) : (s.withNet v).pending = s.pending := rfl
@[simp] theorem withNet_outbox (s : State) (v : NetState) : (s.withNet v).outbox = s.outbox := rfl
@[simp] theorem withNet_fresh (s : State) (v : NetState) : (s.withNet v).fresh = s.fresh := rfl
@[simp] theorem withNet_regs (s : State) (v : NetState) : (s.withNet v).regs = s.regs := rfl
@[simp] theorem withNet_counter (s : State) (v : NetState) : (s.withNet v).counter = s.counter := rfl
@[simp] theorem withNet_tables (s : State) (v : NetState) : (s.withNet v).tables = s.tables := rfl
@[simp] theorem withNet_arrivals (s : State) (v : NetState) : (s.withNet v).arrivals = s.arrivals := rfl
@[simp] theorem withNet_cores (s : State) (v : NetState) : (s.withNet v).cores = s.cores := rfl
@[simp] theorem withNet_clusters (s : State) (v : NetState) : (s.withNet v).clusters = s.clusters := rfl
@[simp] theorem withNet_train (s : State) (v : NetState) : (s.withNet v).train = s.train := rfl
@[simp] theorem withNet_roll (s : State) (v : NetState) : (s.withNet v).roll = s.roll := rfl
@[simp] theorem withNet_layers (s : State) (v : NetState) : (s.withNet v).layers = s.layers := rfl
@[simp] theorem withNet_mem (s : State) (v : NetState) : (s.withNet v).mem = s.mem := rfl
@[simp] theorem withNet_weir (s : State) (v : NetState) : (s.withNet v).weir = s.weir := rfl
@[simp] theorem withNet_log (s : State) (v : NetState) : (s.withNet v).log = s.log := rfl
@[simp] theorem withNet_mgt (s : State) (v : NetState) : (s.withNet v).mgt = s.mgt := rfl
@[simp] theorem withNet_power (s : State) (v : NetState) : (s.withNet v).power = s.power := rfl
@[simp] theorem withNet_pins (s : State) (v : NetState) : (s.withNet v).pins = s.pins := rfl
@[simp] theorem withNet_rill (s : State) (v : NetState) : (s.withNet v).rill = s.rill := rfl
@[simp] theorem withNet_net (s : State) (v : NetState) : (s.withNet v).net = v := rfl
@[simp] theorem withNet_ckpt (s : State) (v : NetState) : (s.withNet v).ckpt = s.ckpt := rfl
@[simp] theorem withNet_ledger (s : State) (v : NetState) : (s.withNet v).ledger = s.ledger := rfl
@[simp] theorem withNet_flash (s : State) (v : NetState) : (s.withNet v).flash = s.flash := rfl
@[simp] theorem withNet_holds (s : State) (v : NetState) : (s.withNet v).holds = s.holds := rfl
@[simp] theorem withNet_stopped (s : State) (v : NetState) : (s.withNet v).stopped = s.stopped := rfl
@[simp] theorem withNet_dead (s : State) (v : NetState) : (s.withNet v).dead = s.dead := rfl
@[simp] theorem withNet_reg (s : State) (v : NetState) (k : Nat) : (s.withNet v).reg k = s.reg k := rfl
@[simp] theorem withNet_core (s : State) (v : NetState) (k : Nat) : (s.withNet v).core k = s.core k := rfl
@[simp] theorem withNet_cluster (s : State) (v : NetState) (k : Nat) : (s.withNet v).cluster k = s.cluster k := rfl
@[simp] theorem withNet_layer (s : State) (v : NetState) (k : Nat) : (s.withNet v).layer k = s.layer k := rfl

/-! ### `withCkpt` -/

@[simp] theorem withCkpt_pending (s : State) (v : CkptState) : (s.withCkpt v).pending = s.pending := rfl
@[simp] theorem withCkpt_outbox (s : State) (v : CkptState) : (s.withCkpt v).outbox = s.outbox := rfl
@[simp] theorem withCkpt_fresh (s : State) (v : CkptState) : (s.withCkpt v).fresh = s.fresh := rfl
@[simp] theorem withCkpt_regs (s : State) (v : CkptState) : (s.withCkpt v).regs = s.regs := rfl
@[simp] theorem withCkpt_counter (s : State) (v : CkptState) : (s.withCkpt v).counter = s.counter := rfl
@[simp] theorem withCkpt_tables (s : State) (v : CkptState) : (s.withCkpt v).tables = s.tables := rfl
@[simp] theorem withCkpt_arrivals (s : State) (v : CkptState) : (s.withCkpt v).arrivals = s.arrivals := rfl
@[simp] theorem withCkpt_cores (s : State) (v : CkptState) : (s.withCkpt v).cores = s.cores := rfl
@[simp] theorem withCkpt_clusters (s : State) (v : CkptState) : (s.withCkpt v).clusters = s.clusters := rfl
@[simp] theorem withCkpt_train (s : State) (v : CkptState) : (s.withCkpt v).train = s.train := rfl
@[simp] theorem withCkpt_roll (s : State) (v : CkptState) : (s.withCkpt v).roll = s.roll := rfl
@[simp] theorem withCkpt_layers (s : State) (v : CkptState) : (s.withCkpt v).layers = s.layers := rfl
@[simp] theorem withCkpt_mem (s : State) (v : CkptState) : (s.withCkpt v).mem = s.mem := rfl
@[simp] theorem withCkpt_weir (s : State) (v : CkptState) : (s.withCkpt v).weir = s.weir := rfl
@[simp] theorem withCkpt_log (s : State) (v : CkptState) : (s.withCkpt v).log = s.log := rfl
@[simp] theorem withCkpt_mgt (s : State) (v : CkptState) : (s.withCkpt v).mgt = s.mgt := rfl
@[simp] theorem withCkpt_power (s : State) (v : CkptState) : (s.withCkpt v).power = s.power := rfl
@[simp] theorem withCkpt_pins (s : State) (v : CkptState) : (s.withCkpt v).pins = s.pins := rfl
@[simp] theorem withCkpt_rill (s : State) (v : CkptState) : (s.withCkpt v).rill = s.rill := rfl
@[simp] theorem withCkpt_net (s : State) (v : CkptState) : (s.withCkpt v).net = s.net := rfl
@[simp] theorem withCkpt_ckpt (s : State) (v : CkptState) : (s.withCkpt v).ckpt = v := rfl
@[simp] theorem withCkpt_ledger (s : State) (v : CkptState) : (s.withCkpt v).ledger = s.ledger := rfl
@[simp] theorem withCkpt_flash (s : State) (v : CkptState) : (s.withCkpt v).flash = s.flash := rfl
@[simp] theorem withCkpt_holds (s : State) (v : CkptState) : (s.withCkpt v).holds = s.holds := rfl
@[simp] theorem withCkpt_stopped (s : State) (v : CkptState) : (s.withCkpt v).stopped = s.stopped := rfl
@[simp] theorem withCkpt_dead (s : State) (v : CkptState) : (s.withCkpt v).dead = s.dead := rfl
@[simp] theorem withCkpt_reg (s : State) (v : CkptState) (k : Nat) : (s.withCkpt v).reg k = s.reg k := rfl
@[simp] theorem withCkpt_core (s : State) (v : CkptState) (k : Nat) : (s.withCkpt v).core k = s.core k := rfl
@[simp] theorem withCkpt_cluster (s : State) (v : CkptState) (k : Nat) : (s.withCkpt v).cluster k = s.cluster k := rfl
@[simp] theorem withCkpt_layer (s : State) (v : CkptState) (k : Nat) : (s.withCkpt v).layer k = s.layer k := rfl

/-! ### `withLedger` -/

@[simp] theorem withLedger_pending (s : State) (v : Ledger) : (s.withLedger v).pending = s.pending := rfl
@[simp] theorem withLedger_outbox (s : State) (v : Ledger) : (s.withLedger v).outbox = s.outbox := rfl
@[simp] theorem withLedger_fresh (s : State) (v : Ledger) : (s.withLedger v).fresh = s.fresh := rfl
@[simp] theorem withLedger_regs (s : State) (v : Ledger) : (s.withLedger v).regs = s.regs := rfl
@[simp] theorem withLedger_counter (s : State) (v : Ledger) : (s.withLedger v).counter = s.counter := rfl
@[simp] theorem withLedger_tables (s : State) (v : Ledger) : (s.withLedger v).tables = s.tables := rfl
@[simp] theorem withLedger_arrivals (s : State) (v : Ledger) : (s.withLedger v).arrivals = s.arrivals := rfl
@[simp] theorem withLedger_cores (s : State) (v : Ledger) : (s.withLedger v).cores = s.cores := rfl
@[simp] theorem withLedger_clusters (s : State) (v : Ledger) : (s.withLedger v).clusters = s.clusters := rfl
@[simp] theorem withLedger_train (s : State) (v : Ledger) : (s.withLedger v).train = s.train := rfl
@[simp] theorem withLedger_roll (s : State) (v : Ledger) : (s.withLedger v).roll = s.roll := rfl
@[simp] theorem withLedger_layers (s : State) (v : Ledger) : (s.withLedger v).layers = s.layers := rfl
@[simp] theorem withLedger_mem (s : State) (v : Ledger) : (s.withLedger v).mem = s.mem := rfl
@[simp] theorem withLedger_weir (s : State) (v : Ledger) : (s.withLedger v).weir = s.weir := rfl
@[simp] theorem withLedger_log (s : State) (v : Ledger) : (s.withLedger v).log = s.log := rfl
@[simp] theorem withLedger_mgt (s : State) (v : Ledger) : (s.withLedger v).mgt = s.mgt := rfl
@[simp] theorem withLedger_power (s : State) (v : Ledger) : (s.withLedger v).power = s.power := rfl
@[simp] theorem withLedger_pins (s : State) (v : Ledger) : (s.withLedger v).pins = s.pins := rfl
@[simp] theorem withLedger_rill (s : State) (v : Ledger) : (s.withLedger v).rill = s.rill := rfl
@[simp] theorem withLedger_net (s : State) (v : Ledger) : (s.withLedger v).net = s.net := rfl
@[simp] theorem withLedger_ckpt (s : State) (v : Ledger) : (s.withLedger v).ckpt = s.ckpt := rfl
@[simp] theorem withLedger_ledger (s : State) (v : Ledger) : (s.withLedger v).ledger = v := rfl
@[simp] theorem withLedger_flash (s : State) (v : Ledger) : (s.withLedger v).flash = s.flash := rfl
@[simp] theorem withLedger_holds (s : State) (v : Ledger) : (s.withLedger v).holds = s.holds := rfl
@[simp] theorem withLedger_stopped (s : State) (v : Ledger) : (s.withLedger v).stopped = s.stopped := rfl
@[simp] theorem withLedger_dead (s : State) (v : Ledger) : (s.withLedger v).dead = s.dead := rfl
@[simp] theorem withLedger_reg (s : State) (v : Ledger) (k : Nat) : (s.withLedger v).reg k = s.reg k := rfl
@[simp] theorem withLedger_core (s : State) (v : Ledger) (k : Nat) : (s.withLedger v).core k = s.core k := rfl
@[simp] theorem withLedger_cluster (s : State) (v : Ledger) (k : Nat) : (s.withLedger v).cluster k = s.cluster k := rfl
@[simp] theorem withLedger_layer (s : State) (v : Ledger) (k : Nat) : (s.withLedger v).layer k = s.layer k := rfl

/-! ### `withFlash` -/

@[simp] theorem withFlash_pending (s : State) (v : Flash) : (s.withFlash v).pending = s.pending := rfl
@[simp] theorem withFlash_outbox (s : State) (v : Flash) : (s.withFlash v).outbox = s.outbox := rfl
@[simp] theorem withFlash_fresh (s : State) (v : Flash) : (s.withFlash v).fresh = s.fresh := rfl
@[simp] theorem withFlash_regs (s : State) (v : Flash) : (s.withFlash v).regs = s.regs := rfl
@[simp] theorem withFlash_counter (s : State) (v : Flash) : (s.withFlash v).counter = s.counter := rfl
@[simp] theorem withFlash_tables (s : State) (v : Flash) : (s.withFlash v).tables = s.tables := rfl
@[simp] theorem withFlash_arrivals (s : State) (v : Flash) : (s.withFlash v).arrivals = s.arrivals := rfl
@[simp] theorem withFlash_cores (s : State) (v : Flash) : (s.withFlash v).cores = s.cores := rfl
@[simp] theorem withFlash_clusters (s : State) (v : Flash) : (s.withFlash v).clusters = s.clusters := rfl
@[simp] theorem withFlash_train (s : State) (v : Flash) : (s.withFlash v).train = s.train := rfl
@[simp] theorem withFlash_roll (s : State) (v : Flash) : (s.withFlash v).roll = s.roll := rfl
@[simp] theorem withFlash_layers (s : State) (v : Flash) : (s.withFlash v).layers = s.layers := rfl
@[simp] theorem withFlash_mem (s : State) (v : Flash) : (s.withFlash v).mem = s.mem := rfl
@[simp] theorem withFlash_weir (s : State) (v : Flash) : (s.withFlash v).weir = s.weir := rfl
@[simp] theorem withFlash_log (s : State) (v : Flash) : (s.withFlash v).log = s.log := rfl
@[simp] theorem withFlash_mgt (s : State) (v : Flash) : (s.withFlash v).mgt = s.mgt := rfl
@[simp] theorem withFlash_power (s : State) (v : Flash) : (s.withFlash v).power = s.power := rfl
@[simp] theorem withFlash_pins (s : State) (v : Flash) : (s.withFlash v).pins = s.pins := rfl
@[simp] theorem withFlash_rill (s : State) (v : Flash) : (s.withFlash v).rill = s.rill := rfl
@[simp] theorem withFlash_net (s : State) (v : Flash) : (s.withFlash v).net = s.net := rfl
@[simp] theorem withFlash_ckpt (s : State) (v : Flash) : (s.withFlash v).ckpt = s.ckpt := rfl
@[simp] theorem withFlash_ledger (s : State) (v : Flash) : (s.withFlash v).ledger = s.ledger := rfl
@[simp] theorem withFlash_flash (s : State) (v : Flash) : (s.withFlash v).flash = v := rfl
@[simp] theorem withFlash_holds (s : State) (v : Flash) : (s.withFlash v).holds = s.holds := rfl
@[simp] theorem withFlash_stopped (s : State) (v : Flash) : (s.withFlash v).stopped = s.stopped := rfl
@[simp] theorem withFlash_dead (s : State) (v : Flash) : (s.withFlash v).dead = s.dead := rfl
@[simp] theorem withFlash_reg (s : State) (v : Flash) (k : Nat) : (s.withFlash v).reg k = s.reg k := rfl
@[simp] theorem withFlash_core (s : State) (v : Flash) (k : Nat) : (s.withFlash v).core k = s.core k := rfl
@[simp] theorem withFlash_cluster (s : State) (v : Flash) (k : Nat) : (s.withFlash v).cluster k = s.cluster k := rfl
@[simp] theorem withFlash_layer (s : State) (v : Flash) (k : Nat) : (s.withFlash v).layer k = s.layer k := rfl

/-! ### `withHolds` -/

@[simp] theorem withHolds_pending (s : State) (v : List Hold) : (s.withHolds v).pending = s.pending := rfl
@[simp] theorem withHolds_outbox (s : State) (v : List Hold) : (s.withHolds v).outbox = s.outbox := rfl
@[simp] theorem withHolds_fresh (s : State) (v : List Hold) : (s.withHolds v).fresh = s.fresh := rfl
@[simp] theorem withHolds_regs (s : State) (v : List Hold) : (s.withHolds v).regs = s.regs := rfl
@[simp] theorem withHolds_counter (s : State) (v : List Hold) : (s.withHolds v).counter = s.counter := rfl
@[simp] theorem withHolds_tables (s : State) (v : List Hold) : (s.withHolds v).tables = s.tables := rfl
@[simp] theorem withHolds_arrivals (s : State) (v : List Hold) : (s.withHolds v).arrivals = s.arrivals := rfl
@[simp] theorem withHolds_cores (s : State) (v : List Hold) : (s.withHolds v).cores = s.cores := rfl
@[simp] theorem withHolds_clusters (s : State) (v : List Hold) : (s.withHolds v).clusters = s.clusters := rfl
@[simp] theorem withHolds_train (s : State) (v : List Hold) : (s.withHolds v).train = s.train := rfl
@[simp] theorem withHolds_roll (s : State) (v : List Hold) : (s.withHolds v).roll = s.roll := rfl
@[simp] theorem withHolds_layers (s : State) (v : List Hold) : (s.withHolds v).layers = s.layers := rfl
@[simp] theorem withHolds_mem (s : State) (v : List Hold) : (s.withHolds v).mem = s.mem := rfl
@[simp] theorem withHolds_weir (s : State) (v : List Hold) : (s.withHolds v).weir = s.weir := rfl
@[simp] theorem withHolds_log (s : State) (v : List Hold) : (s.withHolds v).log = s.log := rfl
@[simp] theorem withHolds_mgt (s : State) (v : List Hold) : (s.withHolds v).mgt = s.mgt := rfl
@[simp] theorem withHolds_power (s : State) (v : List Hold) : (s.withHolds v).power = s.power := rfl
@[simp] theorem withHolds_pins (s : State) (v : List Hold) : (s.withHolds v).pins = s.pins := rfl
@[simp] theorem withHolds_rill (s : State) (v : List Hold) : (s.withHolds v).rill = s.rill := rfl
@[simp] theorem withHolds_net (s : State) (v : List Hold) : (s.withHolds v).net = s.net := rfl
@[simp] theorem withHolds_ckpt (s : State) (v : List Hold) : (s.withHolds v).ckpt = s.ckpt := rfl
@[simp] theorem withHolds_ledger (s : State) (v : List Hold) : (s.withHolds v).ledger = s.ledger := rfl
@[simp] theorem withHolds_flash (s : State) (v : List Hold) : (s.withHolds v).flash = s.flash := rfl
@[simp] theorem withHolds_holds (s : State) (v : List Hold) : (s.withHolds v).holds = v := rfl
@[simp] theorem withHolds_stopped (s : State) (v : List Hold) : (s.withHolds v).stopped = s.stopped := rfl
@[simp] theorem withHolds_dead (s : State) (v : List Hold) : (s.withHolds v).dead = s.dead := rfl
@[simp] theorem withHolds_reg (s : State) (v : List Hold) (k : Nat) : (s.withHolds v).reg k = s.reg k := rfl
@[simp] theorem withHolds_core (s : State) (v : List Hold) (k : Nat) : (s.withHolds v).core k = s.core k := rfl
@[simp] theorem withHolds_cluster (s : State) (v : List Hold) (k : Nat) : (s.withHolds v).cluster k = s.cluster k := rfl
@[simp] theorem withHolds_layer (s : State) (v : List Hold) (k : Nat) : (s.withHolds v).layer k = s.layer k := rfl

/-! ### `withStopped` -/

@[simp] theorem withStopped_pending (s : State) (v : Bool) : (s.withStopped v).pending = s.pending := rfl
@[simp] theorem withStopped_outbox (s : State) (v : Bool) : (s.withStopped v).outbox = s.outbox := rfl
@[simp] theorem withStopped_fresh (s : State) (v : Bool) : (s.withStopped v).fresh = s.fresh := rfl
@[simp] theorem withStopped_regs (s : State) (v : Bool) : (s.withStopped v).regs = s.regs := rfl
@[simp] theorem withStopped_counter (s : State) (v : Bool) : (s.withStopped v).counter = s.counter := rfl
@[simp] theorem withStopped_tables (s : State) (v : Bool) : (s.withStopped v).tables = s.tables := rfl
@[simp] theorem withStopped_arrivals (s : State) (v : Bool) : (s.withStopped v).arrivals = s.arrivals := rfl
@[simp] theorem withStopped_cores (s : State) (v : Bool) : (s.withStopped v).cores = s.cores := rfl
@[simp] theorem withStopped_clusters (s : State) (v : Bool) : (s.withStopped v).clusters = s.clusters := rfl
@[simp] theorem withStopped_train (s : State) (v : Bool) : (s.withStopped v).train = s.train := rfl
@[simp] theorem withStopped_roll (s : State) (v : Bool) : (s.withStopped v).roll = s.roll := rfl
@[simp] theorem withStopped_layers (s : State) (v : Bool) : (s.withStopped v).layers = s.layers := rfl
@[simp] theorem withStopped_mem (s : State) (v : Bool) : (s.withStopped v).mem = s.mem := rfl
@[simp] theorem withStopped_weir (s : State) (v : Bool) : (s.withStopped v).weir = s.weir := rfl
@[simp] theorem withStopped_log (s : State) (v : Bool) : (s.withStopped v).log = s.log := rfl
@[simp] theorem withStopped_mgt (s : State) (v : Bool) : (s.withStopped v).mgt = s.mgt := rfl
@[simp] theorem withStopped_power (s : State) (v : Bool) : (s.withStopped v).power = s.power := rfl
@[simp] theorem withStopped_pins (s : State) (v : Bool) : (s.withStopped v).pins = s.pins := rfl
@[simp] theorem withStopped_rill (s : State) (v : Bool) : (s.withStopped v).rill = s.rill := rfl
@[simp] theorem withStopped_net (s : State) (v : Bool) : (s.withStopped v).net = s.net := rfl
@[simp] theorem withStopped_ckpt (s : State) (v : Bool) : (s.withStopped v).ckpt = s.ckpt := rfl
@[simp] theorem withStopped_ledger (s : State) (v : Bool) : (s.withStopped v).ledger = s.ledger := rfl
@[simp] theorem withStopped_flash (s : State) (v : Bool) : (s.withStopped v).flash = s.flash := rfl
@[simp] theorem withStopped_holds (s : State) (v : Bool) : (s.withStopped v).holds = s.holds := rfl
@[simp] theorem withStopped_stopped (s : State) (v : Bool) : (s.withStopped v).stopped = v := rfl
@[simp] theorem withStopped_dead (s : State) (v : Bool) : (s.withStopped v).dead = s.dead := rfl
@[simp] theorem withStopped_reg (s : State) (v : Bool) (k : Nat) : (s.withStopped v).reg k = s.reg k := rfl
@[simp] theorem withStopped_core (s : State) (v : Bool) (k : Nat) : (s.withStopped v).core k = s.core k := rfl
@[simp] theorem withStopped_cluster (s : State) (v : Bool) (k : Nat) : (s.withStopped v).cluster k = s.cluster k := rfl
@[simp] theorem withStopped_layer (s : State) (v : Bool) (k : Nat) : (s.withStopped v).layer k = s.layer k := rfl

/-! ### `withDead` -/

@[simp] theorem withDead_pending (s : State) (v : Bool) : (s.withDead v).pending = s.pending := rfl
@[simp] theorem withDead_outbox (s : State) (v : Bool) : (s.withDead v).outbox = s.outbox := rfl
@[simp] theorem withDead_fresh (s : State) (v : Bool) : (s.withDead v).fresh = s.fresh := rfl
@[simp] theorem withDead_regs (s : State) (v : Bool) : (s.withDead v).regs = s.regs := rfl
@[simp] theorem withDead_counter (s : State) (v : Bool) : (s.withDead v).counter = s.counter := rfl
@[simp] theorem withDead_tables (s : State) (v : Bool) : (s.withDead v).tables = s.tables := rfl
@[simp] theorem withDead_arrivals (s : State) (v : Bool) : (s.withDead v).arrivals = s.arrivals := rfl
@[simp] theorem withDead_cores (s : State) (v : Bool) : (s.withDead v).cores = s.cores := rfl
@[simp] theorem withDead_clusters (s : State) (v : Bool) : (s.withDead v).clusters = s.clusters := rfl
@[simp] theorem withDead_train (s : State) (v : Bool) : (s.withDead v).train = s.train := rfl
@[simp] theorem withDead_roll (s : State) (v : Bool) : (s.withDead v).roll = s.roll := rfl
@[simp] theorem withDead_layers (s : State) (v : Bool) : (s.withDead v).layers = s.layers := rfl
@[simp] theorem withDead_mem (s : State) (v : Bool) : (s.withDead v).mem = s.mem := rfl
@[simp] theorem withDead_weir (s : State) (v : Bool) : (s.withDead v).weir = s.weir := rfl
@[simp] theorem withDead_log (s : State) (v : Bool) : (s.withDead v).log = s.log := rfl
@[simp] theorem withDead_mgt (s : State) (v : Bool) : (s.withDead v).mgt = s.mgt := rfl
@[simp] theorem withDead_power (s : State) (v : Bool) : (s.withDead v).power = s.power := rfl
@[simp] theorem withDead_pins (s : State) (v : Bool) : (s.withDead v).pins = s.pins := rfl
@[simp] theorem withDead_rill (s : State) (v : Bool) : (s.withDead v).rill = s.rill := rfl
@[simp] theorem withDead_net (s : State) (v : Bool) : (s.withDead v).net = s.net := rfl
@[simp] theorem withDead_ckpt (s : State) (v : Bool) : (s.withDead v).ckpt = s.ckpt := rfl
@[simp] theorem withDead_ledger (s : State) (v : Bool) : (s.withDead v).ledger = s.ledger := rfl
@[simp] theorem withDead_flash (s : State) (v : Bool) : (s.withDead v).flash = s.flash := rfl
@[simp] theorem withDead_holds (s : State) (v : Bool) : (s.withDead v).holds = s.holds := rfl
@[simp] theorem withDead_stopped (s : State) (v : Bool) : (s.withDead v).stopped = s.stopped := rfl
@[simp] theorem withDead_dead (s : State) (v : Bool) : (s.withDead v).dead = v := rfl
@[simp] theorem withDead_reg (s : State) (v : Bool) (k : Nat) : (s.withDead v).reg k = s.reg k := rfl
@[simp] theorem withDead_core (s : State) (v : Bool) (k : Nat) : (s.withDead v).core k = s.core k := rfl
@[simp] theorem withDead_cluster (s : State) (v : Bool) (k : Nat) : (s.withDead v).cluster k = s.cluster k := rfl
@[simp] theorem withDead_layer (s : State) (v : Bool) (k : Nat) : (s.withDead v).layer k = s.layer k := rfl

/-! ### `setReg` -/

@[simp] theorem setReg_pending (s : State) (k v : Nat) : (s.setReg k v).pending = s.pending := rfl
@[simp] theorem setReg_outbox (s : State) (k v : Nat) : (s.setReg k v).outbox = s.outbox := rfl
@[simp] theorem setReg_fresh (s : State) (k v : Nat) : (s.setReg k v).fresh = s.fresh := rfl
@[simp] theorem setReg_counter (s : State) (k v : Nat) : (s.setReg k v).counter = s.counter := rfl
@[simp] theorem setReg_tables (s : State) (k v : Nat) : (s.setReg k v).tables = s.tables := rfl
@[simp] theorem setReg_arrivals (s : State) (k v : Nat) : (s.setReg k v).arrivals = s.arrivals := rfl
@[simp] theorem setReg_cores (s : State) (k v : Nat) : (s.setReg k v).cores = s.cores := rfl
@[simp] theorem setReg_clusters (s : State) (k v : Nat) : (s.setReg k v).clusters = s.clusters := rfl
@[simp] theorem setReg_train (s : State) (k v : Nat) : (s.setReg k v).train = s.train := rfl
@[simp] theorem setReg_roll (s : State) (k v : Nat) : (s.setReg k v).roll = s.roll := rfl
@[simp] theorem setReg_layers (s : State) (k v : Nat) : (s.setReg k v).layers = s.layers := rfl
@[simp] theorem setReg_mem (s : State) (k v : Nat) : (s.setReg k v).mem = s.mem := rfl
@[simp] theorem setReg_weir (s : State) (k v : Nat) : (s.setReg k v).weir = s.weir := rfl
@[simp] theorem setReg_log (s : State) (k v : Nat) : (s.setReg k v).log = s.log := rfl
@[simp] theorem setReg_mgt (s : State) (k v : Nat) : (s.setReg k v).mgt = s.mgt := rfl
@[simp] theorem setReg_power (s : State) (k v : Nat) : (s.setReg k v).power = s.power := rfl
@[simp] theorem setReg_pins (s : State) (k v : Nat) : (s.setReg k v).pins = s.pins := rfl
@[simp] theorem setReg_rill (s : State) (k v : Nat) : (s.setReg k v).rill = s.rill := rfl
@[simp] theorem setReg_net (s : State) (k v : Nat) : (s.setReg k v).net = s.net := rfl
@[simp] theorem setReg_ckpt (s : State) (k v : Nat) : (s.setReg k v).ckpt = s.ckpt := rfl
@[simp] theorem setReg_ledger (s : State) (k v : Nat) : (s.setReg k v).ledger = s.ledger := rfl
@[simp] theorem setReg_flash (s : State) (k v : Nat) : (s.setReg k v).flash = s.flash := rfl
@[simp] theorem setReg_holds (s : State) (k v : Nat) : (s.setReg k v).holds = s.holds := rfl
@[simp] theorem setReg_stopped (s : State) (k v : Nat) : (s.setReg k v).stopped = s.stopped := rfl
@[simp] theorem setReg_dead (s : State) (k v : Nat) : (s.setReg k v).dead = s.dead := rfl
@[simp] theorem setReg_core (s : State) (k v : Nat) (j : Nat) : (s.setReg k v).core j = s.core j := rfl
@[simp] theorem setReg_cluster (s : State) (k v : Nat) (j : Nat) : (s.setReg k v).cluster j = s.cluster j := rfl
@[simp] theorem setReg_layer (s : State) (k v : Nat) (j : Nat) : (s.setReg k v).layer j = s.layer j := rfl
@[simp] theorem setReg_reg (s : State) (k v j : Nat) :
    (s.setReg k v).reg j = if j = k then v % 256 ^ objSize (objPart k) else s.reg j := smGet_set _ _ _ _ _

/-! ### `bump` -/

@[simp] theorem bump_pending (s : State) (k n : Nat) : (s.bump k n).pending = s.pending := rfl
@[simp] theorem bump_outbox (s : State) (k n : Nat) : (s.bump k n).outbox = s.outbox := rfl
@[simp] theorem bump_fresh (s : State) (k n : Nat) : (s.bump k n).fresh = s.fresh := rfl
@[simp] theorem bump_counter (s : State) (k n : Nat) : (s.bump k n).counter = s.counter := rfl
@[simp] theorem bump_tables (s : State) (k n : Nat) : (s.bump k n).tables = s.tables := rfl
@[simp] theorem bump_arrivals (s : State) (k n : Nat) : (s.bump k n).arrivals = s.arrivals := rfl
@[simp] theorem bump_cores (s : State) (k n : Nat) : (s.bump k n).cores = s.cores := rfl
@[simp] theorem bump_clusters (s : State) (k n : Nat) : (s.bump k n).clusters = s.clusters := rfl
@[simp] theorem bump_train (s : State) (k n : Nat) : (s.bump k n).train = s.train := rfl
@[simp] theorem bump_roll (s : State) (k n : Nat) : (s.bump k n).roll = s.roll := rfl
@[simp] theorem bump_layers (s : State) (k n : Nat) : (s.bump k n).layers = s.layers := rfl
@[simp] theorem bump_mem (s : State) (k n : Nat) : (s.bump k n).mem = s.mem := rfl
@[simp] theorem bump_weir (s : State) (k n : Nat) : (s.bump k n).weir = s.weir := rfl
@[simp] theorem bump_log (s : State) (k n : Nat) : (s.bump k n).log = s.log := rfl
@[simp] theorem bump_mgt (s : State) (k n : Nat) : (s.bump k n).mgt = s.mgt := rfl
@[simp] theorem bump_power (s : State) (k n : Nat) : (s.bump k n).power = s.power := rfl
@[simp] theorem bump_pins (s : State) (k n : Nat) : (s.bump k n).pins = s.pins := rfl
@[simp] theorem bump_rill (s : State) (k n : Nat) : (s.bump k n).rill = s.rill := rfl
@[simp] theorem bump_net (s : State) (k n : Nat) : (s.bump k n).net = s.net := rfl
@[simp] theorem bump_ckpt (s : State) (k n : Nat) : (s.bump k n).ckpt = s.ckpt := rfl
@[simp] theorem bump_ledger (s : State) (k n : Nat) : (s.bump k n).ledger = s.ledger := rfl
@[simp] theorem bump_flash (s : State) (k n : Nat) : (s.bump k n).flash = s.flash := rfl
@[simp] theorem bump_holds (s : State) (k n : Nat) : (s.bump k n).holds = s.holds := rfl
@[simp] theorem bump_stopped (s : State) (k n : Nat) : (s.bump k n).stopped = s.stopped := rfl
@[simp] theorem bump_dead (s : State) (k n : Nat) : (s.bump k n).dead = s.dead := rfl
@[simp] theorem bump_core (s : State) (k n : Nat) (j : Nat) : (s.bump k n).core j = s.core j := rfl
@[simp] theorem bump_cluster (s : State) (k n : Nat) (j : Nat) : (s.bump k n).cluster j = s.cluster j := rfl
@[simp] theorem bump_layer (s : State) (k n : Nat) (j : Nat) : (s.bump k n).layer j = s.layer j := rfl
@[simp] theorem bump_reg (s : State) (k n j : Nat) :
    (s.bump k n).reg j = if j = k then min (s.reg k + n) (256 ^ objSize (objPart k) - 1) else s.reg j := by
  have h : 0 < 256 ^ objSize (objPart k) := Nat.pow_pos (by decide)
  rw [State.bump, setReg_reg]
  split
  · exact Nat.mod_eq_of_lt (by omega)
  · rfl

/-! ### `clearReg` -/

@[simp] theorem clearReg_pending (s : State) (k : Nat) : (s.clearReg k).pending = s.pending := rfl
@[simp] theorem clearReg_outbox (s : State) (k : Nat) : (s.clearReg k).outbox = s.outbox := rfl
@[simp] theorem clearReg_fresh (s : State) (k : Nat) : (s.clearReg k).fresh = s.fresh := rfl
@[simp] theorem clearReg_counter (s : State) (k : Nat) : (s.clearReg k).counter = s.counter := rfl
@[simp] theorem clearReg_tables (s : State) (k : Nat) : (s.clearReg k).tables = s.tables := rfl
@[simp] theorem clearReg_arrivals (s : State) (k : Nat) : (s.clearReg k).arrivals = s.arrivals := rfl
@[simp] theorem clearReg_cores (s : State) (k : Nat) : (s.clearReg k).cores = s.cores := rfl
@[simp] theorem clearReg_clusters (s : State) (k : Nat) : (s.clearReg k).clusters = s.clusters := rfl
@[simp] theorem clearReg_train (s : State) (k : Nat) : (s.clearReg k).train = s.train := rfl
@[simp] theorem clearReg_roll (s : State) (k : Nat) : (s.clearReg k).roll = s.roll := rfl
@[simp] theorem clearReg_layers (s : State) (k : Nat) : (s.clearReg k).layers = s.layers := rfl
@[simp] theorem clearReg_mem (s : State) (k : Nat) : (s.clearReg k).mem = s.mem := rfl
@[simp] theorem clearReg_weir (s : State) (k : Nat) : (s.clearReg k).weir = s.weir := rfl
@[simp] theorem clearReg_log (s : State) (k : Nat) : (s.clearReg k).log = s.log := rfl
@[simp] theorem clearReg_mgt (s : State) (k : Nat) : (s.clearReg k).mgt = s.mgt := rfl
@[simp] theorem clearReg_power (s : State) (k : Nat) : (s.clearReg k).power = s.power := rfl
@[simp] theorem clearReg_pins (s : State) (k : Nat) : (s.clearReg k).pins = s.pins := rfl
@[simp] theorem clearReg_rill (s : State) (k : Nat) : (s.clearReg k).rill = s.rill := rfl
@[simp] theorem clearReg_net (s : State) (k : Nat) : (s.clearReg k).net = s.net := rfl
@[simp] theorem clearReg_ckpt (s : State) (k : Nat) : (s.clearReg k).ckpt = s.ckpt := rfl
@[simp] theorem clearReg_ledger (s : State) (k : Nat) : (s.clearReg k).ledger = s.ledger := rfl
@[simp] theorem clearReg_flash (s : State) (k : Nat) : (s.clearReg k).flash = s.flash := rfl
@[simp] theorem clearReg_holds (s : State) (k : Nat) : (s.clearReg k).holds = s.holds := rfl
@[simp] theorem clearReg_stopped (s : State) (k : Nat) : (s.clearReg k).stopped = s.stopped := rfl
@[simp] theorem clearReg_dead (s : State) (k : Nat) : (s.clearReg k).dead = s.dead := rfl
@[simp] theorem clearReg_core (s : State) (k : Nat) (j : Nat) : (s.clearReg k).core j = s.core j := rfl
@[simp] theorem clearReg_cluster (s : State) (k : Nat) (j : Nat) : (s.clearReg k).cluster j = s.cluster j := rfl
@[simp] theorem clearReg_layer (s : State) (k : Nat) (j : Nat) : (s.clearReg k).layer j = s.layer j := rfl
@[simp] theorem clearReg_reg (s : State) (k j : Nat) : (s.clearReg k).reg j = if j = k then regDefault k else s.reg j := by
  unfold State.reg State.clearReg
  split
  · next h => rw [h]; exact smGet_erase_self _ _ _
  · next h => exact smGet_erase_ne _ _ h

/-! ### `modCore` -/

@[simp] theorem modCore_pending (s : State) (n : Nat) (f : Core → Core) : (s.modCore n f).pending = s.pending := rfl
@[simp] theorem modCore_outbox (s : State) (n : Nat) (f : Core → Core) : (s.modCore n f).outbox = s.outbox := rfl
@[simp] theorem modCore_fresh (s : State) (n : Nat) (f : Core → Core) : (s.modCore n f).fresh = s.fresh := rfl
@[simp] theorem modCore_regs (s : State) (n : Nat) (f : Core → Core) : (s.modCore n f).regs = s.regs := rfl
@[simp] theorem modCore_counter (s : State) (n : Nat) (f : Core → Core) : (s.modCore n f).counter = s.counter := rfl
@[simp] theorem modCore_tables (s : State) (n : Nat) (f : Core → Core) : (s.modCore n f).tables = s.tables := rfl
@[simp] theorem modCore_arrivals (s : State) (n : Nat) (f : Core → Core) : (s.modCore n f).arrivals = s.arrivals := rfl
@[simp] theorem modCore_clusters (s : State) (n : Nat) (f : Core → Core) : (s.modCore n f).clusters = s.clusters := rfl
@[simp] theorem modCore_train (s : State) (n : Nat) (f : Core → Core) : (s.modCore n f).train = s.train := rfl
@[simp] theorem modCore_roll (s : State) (n : Nat) (f : Core → Core) : (s.modCore n f).roll = s.roll := rfl
@[simp] theorem modCore_layers (s : State) (n : Nat) (f : Core → Core) : (s.modCore n f).layers = s.layers := rfl
@[simp] theorem modCore_mem (s : State) (n : Nat) (f : Core → Core) : (s.modCore n f).mem = s.mem := rfl
@[simp] theorem modCore_weir (s : State) (n : Nat) (f : Core → Core) : (s.modCore n f).weir = s.weir := rfl
@[simp] theorem modCore_log (s : State) (n : Nat) (f : Core → Core) : (s.modCore n f).log = s.log := rfl
@[simp] theorem modCore_mgt (s : State) (n : Nat) (f : Core → Core) : (s.modCore n f).mgt = s.mgt := rfl
@[simp] theorem modCore_power (s : State) (n : Nat) (f : Core → Core) : (s.modCore n f).power = s.power := rfl
@[simp] theorem modCore_pins (s : State) (n : Nat) (f : Core → Core) : (s.modCore n f).pins = s.pins := rfl
@[simp] theorem modCore_rill (s : State) (n : Nat) (f : Core → Core) : (s.modCore n f).rill = s.rill := rfl
@[simp] theorem modCore_net (s : State) (n : Nat) (f : Core → Core) : (s.modCore n f).net = s.net := rfl
@[simp] theorem modCore_ckpt (s : State) (n : Nat) (f : Core → Core) : (s.modCore n f).ckpt = s.ckpt := rfl
@[simp] theorem modCore_ledger (s : State) (n : Nat) (f : Core → Core) : (s.modCore n f).ledger = s.ledger := rfl
@[simp] theorem modCore_flash (s : State) (n : Nat) (f : Core → Core) : (s.modCore n f).flash = s.flash := rfl
@[simp] theorem modCore_holds (s : State) (n : Nat) (f : Core → Core) : (s.modCore n f).holds = s.holds := rfl
@[simp] theorem modCore_stopped (s : State) (n : Nat) (f : Core → Core) : (s.modCore n f).stopped = s.stopped := rfl
@[simp] theorem modCore_dead (s : State) (n : Nat) (f : Core → Core) : (s.modCore n f).dead = s.dead := rfl
@[simp] theorem modCore_reg (s : State) (n : Nat) (f : Core → Core) (j : Nat) : (s.modCore n f).reg j = s.reg j := rfl
@[simp] theorem modCore_cluster (s : State) (n : Nat) (f : Core → Core) (j : Nat) : (s.modCore n f).cluster j = s.cluster j := rfl
@[simp] theorem modCore_layer (s : State) (n : Nat) (f : Core → Core) (j : Nat) : (s.modCore n f).layer j = s.layer j := rfl
@[simp] theorem modCore_core (s : State) (n : Nat) (f : Core → Core) (j : Nat) :
    (s.modCore n f).core j = if j = n then f (s.core n) else s.core j := smGet_set _ _ _ _ _

/-! ### `modCluster` -/

@[simp] theorem modCluster_pending (s : State) (n : Nat) (f : Cluster → Cluster) : (s.modCluster n f).pending = s.pending := rfl
@[simp] theorem modCluster_outbox (s : State) (n : Nat) (f : Cluster → Cluster) : (s.modCluster n f).outbox = s.outbox := rfl
@[simp] theorem modCluster_fresh (s : State) (n : Nat) (f : Cluster → Cluster) : (s.modCluster n f).fresh = s.fresh := rfl
@[simp] theorem modCluster_regs (s : State) (n : Nat) (f : Cluster → Cluster) : (s.modCluster n f).regs = s.regs := rfl
@[simp] theorem modCluster_counter (s : State) (n : Nat) (f : Cluster → Cluster) : (s.modCluster n f).counter = s.counter := rfl
@[simp] theorem modCluster_tables (s : State) (n : Nat) (f : Cluster → Cluster) : (s.modCluster n f).tables = s.tables := rfl
@[simp] theorem modCluster_arrivals (s : State) (n : Nat) (f : Cluster → Cluster) : (s.modCluster n f).arrivals = s.arrivals := rfl
@[simp] theorem modCluster_cores (s : State) (n : Nat) (f : Cluster → Cluster) : (s.modCluster n f).cores = s.cores := rfl
@[simp] theorem modCluster_train (s : State) (n : Nat) (f : Cluster → Cluster) : (s.modCluster n f).train = s.train := rfl
@[simp] theorem modCluster_roll (s : State) (n : Nat) (f : Cluster → Cluster) : (s.modCluster n f).roll = s.roll := rfl
@[simp] theorem modCluster_layers (s : State) (n : Nat) (f : Cluster → Cluster) : (s.modCluster n f).layers = s.layers := rfl
@[simp] theorem modCluster_mem (s : State) (n : Nat) (f : Cluster → Cluster) : (s.modCluster n f).mem = s.mem := rfl
@[simp] theorem modCluster_weir (s : State) (n : Nat) (f : Cluster → Cluster) : (s.modCluster n f).weir = s.weir := rfl
@[simp] theorem modCluster_log (s : State) (n : Nat) (f : Cluster → Cluster) : (s.modCluster n f).log = s.log := rfl
@[simp] theorem modCluster_mgt (s : State) (n : Nat) (f : Cluster → Cluster) : (s.modCluster n f).mgt = s.mgt := rfl
@[simp] theorem modCluster_power (s : State) (n : Nat) (f : Cluster → Cluster) : (s.modCluster n f).power = s.power := rfl
@[simp] theorem modCluster_pins (s : State) (n : Nat) (f : Cluster → Cluster) : (s.modCluster n f).pins = s.pins := rfl
@[simp] theorem modCluster_rill (s : State) (n : Nat) (f : Cluster → Cluster) : (s.modCluster n f).rill = s.rill := rfl
@[simp] theorem modCluster_net (s : State) (n : Nat) (f : Cluster → Cluster) : (s.modCluster n f).net = s.net := rfl
@[simp] theorem modCluster_ckpt (s : State) (n : Nat) (f : Cluster → Cluster) : (s.modCluster n f).ckpt = s.ckpt := rfl
@[simp] theorem modCluster_ledger (s : State) (n : Nat) (f : Cluster → Cluster) : (s.modCluster n f).ledger = s.ledger := rfl
@[simp] theorem modCluster_flash (s : State) (n : Nat) (f : Cluster → Cluster) : (s.modCluster n f).flash = s.flash := rfl
@[simp] theorem modCluster_holds (s : State) (n : Nat) (f : Cluster → Cluster) : (s.modCluster n f).holds = s.holds := rfl
@[simp] theorem modCluster_stopped (s : State) (n : Nat) (f : Cluster → Cluster) : (s.modCluster n f).stopped = s.stopped := rfl
@[simp] theorem modCluster_dead (s : State) (n : Nat) (f : Cluster → Cluster) : (s.modCluster n f).dead = s.dead := rfl
@[simp] theorem modCluster_reg (s : State) (n : Nat) (f : Cluster → Cluster) (j : Nat) : (s.modCluster n f).reg j = s.reg j := rfl
@[simp] theorem modCluster_core (s : State) (n : Nat) (f : Cluster → Cluster) (j : Nat) : (s.modCluster n f).core j = s.core j := rfl
@[simp] theorem modCluster_layer (s : State) (n : Nat) (f : Cluster → Cluster) (j : Nat) : (s.modCluster n f).layer j = s.layer j := rfl
@[simp] theorem modCluster_cluster (s : State) (n : Nat) (f : Cluster → Cluster) (j : Nat) :
    (s.modCluster n f).cluster j = if j = n then f (s.cluster n) else s.cluster j := smGet_set _ _ _ _ _

/-! ### `modLayer` -/

@[simp] theorem modLayer_pending (s : State) (n : Nat) (f : Layer → Layer) : (s.modLayer n f).pending = s.pending := rfl
@[simp] theorem modLayer_outbox (s : State) (n : Nat) (f : Layer → Layer) : (s.modLayer n f).outbox = s.outbox := rfl
@[simp] theorem modLayer_fresh (s : State) (n : Nat) (f : Layer → Layer) : (s.modLayer n f).fresh = s.fresh := rfl
@[simp] theorem modLayer_regs (s : State) (n : Nat) (f : Layer → Layer) : (s.modLayer n f).regs = s.regs := rfl
@[simp] theorem modLayer_counter (s : State) (n : Nat) (f : Layer → Layer) : (s.modLayer n f).counter = s.counter := rfl
@[simp] theorem modLayer_tables (s : State) (n : Nat) (f : Layer → Layer) : (s.modLayer n f).tables = s.tables := rfl
@[simp] theorem modLayer_arrivals (s : State) (n : Nat) (f : Layer → Layer) : (s.modLayer n f).arrivals = s.arrivals := rfl
@[simp] theorem modLayer_cores (s : State) (n : Nat) (f : Layer → Layer) : (s.modLayer n f).cores = s.cores := rfl
@[simp] theorem modLayer_clusters (s : State) (n : Nat) (f : Layer → Layer) : (s.modLayer n f).clusters = s.clusters := rfl
@[simp] theorem modLayer_train (s : State) (n : Nat) (f : Layer → Layer) : (s.modLayer n f).train = s.train := rfl
@[simp] theorem modLayer_roll (s : State) (n : Nat) (f : Layer → Layer) : (s.modLayer n f).roll = s.roll := rfl
@[simp] theorem modLayer_mem (s : State) (n : Nat) (f : Layer → Layer) : (s.modLayer n f).mem = s.mem := rfl
@[simp] theorem modLayer_weir (s : State) (n : Nat) (f : Layer → Layer) : (s.modLayer n f).weir = s.weir := rfl
@[simp] theorem modLayer_log (s : State) (n : Nat) (f : Layer → Layer) : (s.modLayer n f).log = s.log := rfl
@[simp] theorem modLayer_mgt (s : State) (n : Nat) (f : Layer → Layer) : (s.modLayer n f).mgt = s.mgt := rfl
@[simp] theorem modLayer_power (s : State) (n : Nat) (f : Layer → Layer) : (s.modLayer n f).power = s.power := rfl
@[simp] theorem modLayer_pins (s : State) (n : Nat) (f : Layer → Layer) : (s.modLayer n f).pins = s.pins := rfl
@[simp] theorem modLayer_rill (s : State) (n : Nat) (f : Layer → Layer) : (s.modLayer n f).rill = s.rill := rfl
@[simp] theorem modLayer_net (s : State) (n : Nat) (f : Layer → Layer) : (s.modLayer n f).net = s.net := rfl
@[simp] theorem modLayer_ckpt (s : State) (n : Nat) (f : Layer → Layer) : (s.modLayer n f).ckpt = s.ckpt := rfl
@[simp] theorem modLayer_ledger (s : State) (n : Nat) (f : Layer → Layer) : (s.modLayer n f).ledger = s.ledger := rfl
@[simp] theorem modLayer_flash (s : State) (n : Nat) (f : Layer → Layer) : (s.modLayer n f).flash = s.flash := rfl
@[simp] theorem modLayer_holds (s : State) (n : Nat) (f : Layer → Layer) : (s.modLayer n f).holds = s.holds := rfl
@[simp] theorem modLayer_stopped (s : State) (n : Nat) (f : Layer → Layer) : (s.modLayer n f).stopped = s.stopped := rfl
@[simp] theorem modLayer_dead (s : State) (n : Nat) (f : Layer → Layer) : (s.modLayer n f).dead = s.dead := rfl
@[simp] theorem modLayer_reg (s : State) (n : Nat) (f : Layer → Layer) (j : Nat) : (s.modLayer n f).reg j = s.reg j := rfl
@[simp] theorem modLayer_core (s : State) (n : Nat) (f : Layer → Layer) (j : Nat) : (s.modLayer n f).core j = s.core j := rfl
@[simp] theorem modLayer_cluster (s : State) (n : Nat) (f : Layer → Layer) (j : Nat) : (s.modLayer n f).cluster j = s.cluster j := rfl
@[simp] theorem modLayer_layer (s : State) (n : Nat) (f : Layer → Layer) (j : Nat) :
    (s.modLayer n f).layer j = if j = n then f (s.layer n) else s.layer j := smGet_set _ _ _ _ _

/-! ### `emit` -/

@[simp] theorem emit_pending (s : State) (m : Out) : (s.emit m).pending = s.pending := rfl
@[simp] theorem emit_fresh (s : State) (m : Out) : (s.emit m).fresh = s.fresh := rfl
@[simp] theorem emit_regs (s : State) (m : Out) : (s.emit m).regs = s.regs := rfl
@[simp] theorem emit_counter (s : State) (m : Out) : (s.emit m).counter = s.counter := rfl
@[simp] theorem emit_tables (s : State) (m : Out) : (s.emit m).tables = s.tables := rfl
@[simp] theorem emit_arrivals (s : State) (m : Out) : (s.emit m).arrivals = s.arrivals := rfl
@[simp] theorem emit_cores (s : State) (m : Out) : (s.emit m).cores = s.cores := rfl
@[simp] theorem emit_clusters (s : State) (m : Out) : (s.emit m).clusters = s.clusters := rfl
@[simp] theorem emit_train (s : State) (m : Out) : (s.emit m).train = s.train := rfl
@[simp] theorem emit_roll (s : State) (m : Out) : (s.emit m).roll = s.roll := rfl
@[simp] theorem emit_layers (s : State) (m : Out) : (s.emit m).layers = s.layers := rfl
@[simp] theorem emit_mem (s : State) (m : Out) : (s.emit m).mem = s.mem := rfl
@[simp] theorem emit_weir (s : State) (m : Out) : (s.emit m).weir = s.weir := rfl
@[simp] theorem emit_log (s : State) (m : Out) : (s.emit m).log = s.log := rfl
@[simp] theorem emit_mgt (s : State) (m : Out) : (s.emit m).mgt = s.mgt := rfl
@[simp] theorem emit_power (s : State) (m : Out) : (s.emit m).power = s.power := rfl
@[simp] theorem emit_pins (s : State) (m : Out) : (s.emit m).pins = s.pins := rfl
@[simp] theorem emit_rill (s : State) (m : Out) : (s.emit m).rill = s.rill := rfl
@[simp] theorem emit_net (s : State) (m : Out) : (s.emit m).net = s.net := rfl
@[simp] theorem emit_ckpt (s : State) (m : Out) : (s.emit m).ckpt = s.ckpt := rfl
@[simp] theorem emit_ledger (s : State) (m : Out) : (s.emit m).ledger = s.ledger := rfl
@[simp] theorem emit_flash (s : State) (m : Out) : (s.emit m).flash = s.flash := rfl
@[simp] theorem emit_holds (s : State) (m : Out) : (s.emit m).holds = s.holds := rfl
@[simp] theorem emit_stopped (s : State) (m : Out) : (s.emit m).stopped = s.stopped := rfl
@[simp] theorem emit_dead (s : State) (m : Out) : (s.emit m).dead = s.dead := rfl
@[simp] theorem emit_reg (s : State) (m : Out) (j : Nat) : (s.emit m).reg j = s.reg j := rfl
@[simp] theorem emit_core (s : State) (m : Out) (j : Nat) : (s.emit m).core j = s.core j := rfl
@[simp] theorem emit_cluster (s : State) (m : Out) (j : Nat) : (s.emit m).cluster j = s.cluster j := rfl
@[simp] theorem emit_layer (s : State) (m : Out) (j : Nat) : (s.emit m).layer j = s.layer j := rfl
@[simp] theorem emit_outbox (s : State) (m : Out) : (s.emit m).outbox = s.outbox ++ [m] := rfl

/-! ### `memWr` -/

@[simp] theorem memWr_pending (s : State) (a n v : Nat) : (s.memWr a n v).pending = s.pending := rfl
@[simp] theorem memWr_outbox (s : State) (a n v : Nat) : (s.memWr a n v).outbox = s.outbox := rfl
@[simp] theorem memWr_fresh (s : State) (a n v : Nat) : (s.memWr a n v).fresh = s.fresh := rfl
@[simp] theorem memWr_regs (s : State) (a n v : Nat) : (s.memWr a n v).regs = s.regs := rfl
@[simp] theorem memWr_counter (s : State) (a n v : Nat) : (s.memWr a n v).counter = s.counter := rfl
@[simp] theorem memWr_tables (s : State) (a n v : Nat) : (s.memWr a n v).tables = s.tables := rfl
@[simp] theorem memWr_arrivals (s : State) (a n v : Nat) : (s.memWr a n v).arrivals = s.arrivals := rfl
@[simp] theorem memWr_cores (s : State) (a n v : Nat) : (s.memWr a n v).cores = s.cores := rfl
@[simp] theorem memWr_clusters (s : State) (a n v : Nat) : (s.memWr a n v).clusters = s.clusters := rfl
@[simp] theorem memWr_train (s : State) (a n v : Nat) : (s.memWr a n v).train = s.train := rfl
@[simp] theorem memWr_roll (s : State) (a n v : Nat) : (s.memWr a n v).roll = s.roll := rfl
@[simp] theorem memWr_layers (s : State) (a n v : Nat) : (s.memWr a n v).layers = s.layers := rfl
@[simp] theorem memWr_weir (s : State) (a n v : Nat) : (s.memWr a n v).weir = s.weir := rfl
@[simp] theorem memWr_log (s : State) (a n v : Nat) : (s.memWr a n v).log = s.log := rfl
@[simp] theorem memWr_mgt (s : State) (a n v : Nat) : (s.memWr a n v).mgt = s.mgt := rfl
@[simp] theorem memWr_power (s : State) (a n v : Nat) : (s.memWr a n v).power = s.power := rfl
@[simp] theorem memWr_pins (s : State) (a n v : Nat) : (s.memWr a n v).pins = s.pins := rfl
@[simp] theorem memWr_rill (s : State) (a n v : Nat) : (s.memWr a n v).rill = s.rill := rfl
@[simp] theorem memWr_net (s : State) (a n v : Nat) : (s.memWr a n v).net = s.net := rfl
@[simp] theorem memWr_ckpt (s : State) (a n v : Nat) : (s.memWr a n v).ckpt = s.ckpt := rfl
@[simp] theorem memWr_ledger (s : State) (a n v : Nat) : (s.memWr a n v).ledger = s.ledger := rfl
@[simp] theorem memWr_flash (s : State) (a n v : Nat) : (s.memWr a n v).flash = s.flash := rfl
@[simp] theorem memWr_holds (s : State) (a n v : Nat) : (s.memWr a n v).holds = s.holds := rfl
@[simp] theorem memWr_stopped (s : State) (a n v : Nat) : (s.memWr a n v).stopped = s.stopped := rfl
@[simp] theorem memWr_dead (s : State) (a n v : Nat) : (s.memWr a n v).dead = s.dead := rfl
@[simp] theorem memWr_reg (s : State) (a n v : Nat) (j : Nat) : (s.memWr a n v).reg j = s.reg j := rfl
@[simp] theorem memWr_core (s : State) (a n v : Nat) (j : Nat) : (s.memWr a n v).core j = s.core j := rfl
@[simp] theorem memWr_cluster (s : State) (a n v : Nat) (j : Nat) : (s.memWr a n v).cluster j = s.cluster j := rfl
@[simp] theorem memWr_layer (s : State) (a n v : Nat) (j : Nat) : (s.memWr a n v).layer j = s.layer j := rfl
@[simp] theorem memWr_mem (s : State) (a n v : Nat) : (s.memWr a n v).mem = clearPoison (memWrite s.mem a n v) a n := rfl

/-! ### `draw_snd` -/

@[simp] theorem draw_snd_pending (s : State)  : (s.draw.2).pending = s.pending := rfl
@[simp] theorem draw_snd_outbox (s : State)  : (s.draw.2).outbox = s.outbox := rfl
@[simp] theorem draw_snd_regs (s : State)  : (s.draw.2).regs = s.regs := rfl
@[simp] theorem draw_snd_counter (s : State)  : (s.draw.2).counter = s.counter := rfl
@[simp] theorem draw_snd_tables (s : State)  : (s.draw.2).tables = s.tables := rfl
@[simp] theorem draw_snd_arrivals (s : State)  : (s.draw.2).arrivals = s.arrivals := rfl
@[simp] theorem draw_snd_cores (s : State)  : (s.draw.2).cores = s.cores := rfl
@[simp] theorem draw_snd_clusters (s : State)  : (s.draw.2).clusters = s.clusters := rfl
@[simp] theorem draw_snd_train (s : State)  : (s.draw.2).train = s.train := rfl
@[simp] theorem draw_snd_roll (s : State)  : (s.draw.2).roll = s.roll := rfl
@[simp] theorem draw_snd_layers (s : State)  : (s.draw.2).layers = s.layers := rfl
@[simp] theorem draw_snd_mem (s : State)  : (s.draw.2).mem = s.mem := rfl
@[simp] theorem draw_snd_weir (s : State)  : (s.draw.2).weir = s.weir := rfl
@[simp] theorem draw_snd_log (s : State)  : (s.draw.2).log = s.log := rfl
@[simp] theorem draw_snd_mgt (s : State)  : (s.draw.2).mgt = s.mgt := rfl
@[simp] theorem draw_snd_power (s : State)  : (s.draw.2).power = s.power := rfl
@[simp] theorem draw_snd_pins (s : State)  : (s.draw.2).pins = s.pins := rfl
@[simp] theorem draw_snd_rill (s : State)  : (s.draw.2).rill = s.rill := rfl
@[simp] theorem draw_snd_net (s : State)  : (s.draw.2).net = s.net := rfl
@[simp] theorem draw_snd_ckpt (s : State)  : (s.draw.2).ckpt = s.ckpt := rfl
@[simp] theorem draw_snd_ledger (s : State)  : (s.draw.2).ledger = s.ledger := rfl
@[simp] theorem draw_snd_flash (s : State)  : (s.draw.2).flash = s.flash := rfl
@[simp] theorem draw_snd_holds (s : State)  : (s.draw.2).holds = s.holds := rfl
@[simp] theorem draw_snd_stopped (s : State)  : (s.draw.2).stopped = s.stopped := rfl
@[simp] theorem draw_snd_dead (s : State)  : (s.draw.2).dead = s.dead := rfl
@[simp] theorem draw_snd_reg (s : State)  (j : Nat) : (s.draw.2).reg j = s.reg j := rfl
@[simp] theorem draw_snd_core (s : State)  (j : Nat) : (s.draw.2).core j = s.core j := rfl
@[simp] theorem draw_snd_cluster (s : State)  (j : Nat) : (s.draw.2).cluster j = s.cluster j := rfl
@[simp] theorem draw_snd_layer (s : State)  (j : Nat) : (s.draw.2).layer j = s.layer j := rfl
@[simp] theorem draw_fst (s : State) : s.draw.1 = Config.freeValue s.fresh := rfl
@[simp] theorem draw_snd_fresh (s : State) : s.draw.2.fresh = s.fresh + 1 := rfl

end Sys2Proof.Machine
end

