-- ==== Sys2Proof/Laws/Facts.lean ====
section
/-! SUPPORT. What reporting an event and answering a request leave as they were, and what they leave behind. -/

namespace Sys2Proof.Machine

/-- An object of another page is not among what an operation changes. -/
theorem Moves.reg {A : Nat} {s t : State} (h : Moves A s t) (k : Nat) (hA : A.testBit (32 + page k) = false) : t.reg k = s.reg k :=
  h.same (.obj ⟨page k, Nat.mod_lt _ (by decide)⟩) hA k rfl

/-! ### Events -/

theorem raise_keeps (s : State) (code : Nat) (sev : Sev) (unit pos : Nat) : Moves 147573952589676708738 s (raise s code sev unit pos) :=
  raise_moves s code sev unit pos (Moves.refl _ s) (Sub.refl _)

@[simp] theorem raise_pending (s : State) (code : Nat) (sev : Sev) (unit pos : Nat) : (raise s code sev unit pos).pending = s.pending :=
  (raise_keeps s code sev unit pos).same .pending rfl
@[simp] theorem raise_fresh (s : State) (code : Nat) (sev : Sev) (unit pos : Nat) : (raise s code sev unit pos).fresh = s.fresh :=
  (raise_keeps s code sev unit pos).same .fresh rfl
@[simp] theorem raise_counter (s : State) (code : Nat) (sev : Sev) (unit pos : Nat) : (raise s code sev unit pos).counter = s.counter :=
  (raise_keeps s code sev unit pos).same .counter rfl
@[simp] theorem raise_tables (s : State) (code : Nat) (sev : Sev) (unit pos : Nat) : (raise s code sev unit pos).tables = s.tables :=
  (raise_keeps s code sev unit pos).same .tables rfl
@[simp] theorem raise_arrivals (s : State) (code : Nat) (sev : Sev) (unit pos : Nat) : (raise s code sev unit pos).arrivals = s.arrivals :=
  (raise_keeps s code sev unit pos).same .arrivals rfl
@[simp] theorem raise_cores (s : State) (code : Nat) (sev : Sev) (unit pos : Nat) : (raise s code sev unit pos).cores = s.cores :=
  (raise_keeps s code sev unit pos).same .cores rfl
@[simp] theorem raise_layers (s : State) (code : Nat) (sev : Sev) (unit pos : Nat) : (raise s code sev unit pos).layers = s.layers :=
  (raise_keeps s code sev unit pos).same .layers rfl
@[simp] theorem raise_weir (s : State) (code : Nat) (sev : Sev) (unit pos : Nat) : (raise s code sev unit pos).weir = s.weir :=
  (raise_keeps s code sev unit pos).same .weir rfl
@[simp] theorem raise_mgt (s : State) (code : Nat) (sev : Sev) (unit pos : Nat) : (raise s code sev unit pos).mgt = s.mgt :=
  (raise_keeps s code sev unit pos).same .mgt rfl
@[simp] theorem raise_power (s : State) (code : Nat) (sev : Sev) (unit pos : Nat) : (raise s code sev unit pos).power = s.power :=
  (raise_keeps s code sev unit pos).same .power rfl
@[simp] theorem raise_rill (s : State) (code : Nat) (sev : Sev) (unit pos : Nat) : (raise s code sev unit pos).rill = s.rill :=
  (raise_keeps s code sev unit pos).same .rill rfl
@[simp] theorem raise_net (s : State) (code : Nat) (sev : Sev) (unit pos : Nat) : (raise s code sev unit pos).net = s.net :=
  (raise_keeps s code sev unit pos).same .net rfl
@[simp] theorem raise_ckpt (s : State) (code : Nat) (sev : Sev) (unit pos : Nat) : (raise s code sev unit pos).ckpt = s.ckpt :=
  (raise_keeps s code sev unit pos).same .ckpt rfl
@[simp] theorem raise_ledger (s : State) (code : Nat) (sev : Sev) (unit pos : Nat) : (raise s code sev unit pos).ledger = s.ledger :=
  (raise_keeps s code sev unit pos).same .ledger rfl
@[simp] theorem raise_flash (s : State) (code : Nat) (sev : Sev) (unit pos : Nat) : (raise s code sev unit pos).flash = s.flash :=
  (raise_keeps s code sev unit pos).same .flash rfl
@[simp] theorem raise_holds (s : State) (code : Nat) (sev : Sev) (unit pos : Nat) : (raise s code sev unit pos).holds = s.holds :=
  (raise_keeps s code sev unit pos).same .holds rfl
@[simp] theorem raise_stopped (s : State) (code : Nat) (sev : Sev) (unit pos : Nat) : (raise s code sev unit pos).stopped = s.stopped :=
  (raise_keeps s code sev unit pos).same .stopped rfl
@[simp] theorem raise_dead (s : State) (code : Nat) (sev : Sev) (unit pos : Nat) : (raise s code sev unit pos).dead = s.dead :=
  (raise_keeps s code sev unit pos).same .dead rfl
@[simp] theorem raise_reg (s : State) (code : Nat) (sev : Sev) (unit pos k : Nat) (hk : page k ≠ 0x23) :
    (raise s code sev unit pos).reg k = s.reg k := by
  refine (raise_keeps s code sev unit pos).reg k ?_
  rw [show (147573952589676708738 : Nat) = 295810 ||| 2 ^ 67 by decide, Nat.testBit_or, Nat.testBit_two_pow,
    Nat.testBit_lt_two_pow (Nat.lt_of_lt_of_le (by decide : 295810 < 2 ^ 32) (Nat.pow_le_pow_right (by decide) (Nat.le_add_right 32 _)))]
  simpa using fun h : 67 = 32 + page k => hk (by omega)
@[simp] theorem raise_core (s : State) (code : Nat) (sev : Sev) (unit pos n : Nat) : (raise s code sev unit pos).core n = s.core n := by
  unfold State.core; rw [raise_cores]
@[simp] theorem raise_layer (s : State) (code : Nat) (sev : Sev) (unit pos n : Nat) : (raise s code sev unit pos).layer n = s.layer n := by
  unfold State.layer; rw [raise_layers]
@[simp] theorem raise_mem (s : State) (code : Nat) (sev : Sev) (unit pos : Nat) : (raise s code sev unit pos).mem = s.mem := by
  have ha : ∀ (s : State) (cl : Nat), (abortGroup s cl).mem = s.mem := fun s cl => by unfold abortGroup; split <;> rfl
  have hd : (abortDevice s).mem = s.mem := by unfold abortDevice; split <;> first | exact ha _ _ | rfl
  have h : (sevEffect s sev unit).mem = s.mem := by
    unfold sevEffect
    split
    · split
      · exact ha _ _
      · split
        · exact ha _ _
        · exact hd
    · rfl
    · rfl
  unfold raise logRecord
  dsimp only []
  repeat' split
  all_goals exact h

theorem logRecord_ring (s : State) (e : Event) :
    (logRecord s e).log.ring = ({ e with seq := s.log.next } :: s.log.ring).take 65536 := by
  unfold logRecord
  dsimp only []
  split <;> rfl
@[simp] theorem sevEffect_log (s : State) (sev : Sev) (unit : Nat) : (sevEffect s sev unit).log = s.log :=
  (sevEffect_moves s sev unit (Moves.refl _ s) (Sub.refl _)).same .log rfl
@[simp] theorem sevEffect_counter (s : State) (sev : Sev) (unit : Nat) : (sevEffect s sev unit).counter = s.counter :=
  (sevEffect_moves s sev unit (Moves.refl _ s) (Sub.refl _)).same .counter rfl
@[simp] theorem sevEffect_beat (s : State) (sev : Sev) (unit : Nat) : (sevEffect s sev unit).beat = s.beat := by
  unfold State.beat; rw [sevEffect_counter]
theorem Reports.of_same {s s' t : State} {code unit : Nat} {sev : Sev} (h : Reports s' t code sev unit) (hl : s'.log = s.log)
    (hc : s'.counter = s.counter) : Reports s t code sev unit := fun h1 h2 => by
  obtain ⟨e, he, h3, h4, h5, h6⟩ := h (by rw [hl, h1]) (by rw [hl, h2])
  exact ⟨e, he, h3, h4, h5, by rw [h6]; unfold State.beat; rw [hc]⟩
theorem Reports.then {s t t' : State} {code unit : Nat} {sev : Sev} (h : Reports s t code sev unit) (hl : t'.log = t.log) :
    Reports s t' code sev unit := fun h1 h2 => by rw [hl]; exact h h1 h2
theorem raise_reports (s : State) (code : Nat) (sev : Sev) (unit pos : Nat) : Reports s (raise s code sev unit pos) code sev unit := by
  intro h1 h2
  unfold raise
  simp only [sevEffect_log, h1, h2, Bool.not_true, Bool.false_eq_true, if_false, logRecord_ring]
  exact ⟨_, List.mem_cons_self, rfl, rfl, rfl, sevEffect_beat s sev unit⟩

end Sys2Proof.Machine
end

