-- ==== Sys2Proof/Laws/Answers.lean ====
section
/-! SUPPORT. What a request does once it is taken (R430): the handler's state, with the response counted, stored and sent; and what a
write of an object leaves in the objects. -/

namespace Sys2Proof.Machine

/-- A taken request is answered with what its handler makes of the state. -/
theorem request_takes {s : State} {q : Req} {op obj : Nat} (f : State → Ans) (h : s.takes q op obj = true) :
    request s q op obj f = answered s.beat q op obj (f s) := by
  simp only [State.takes, Bool.and_eq_true, decide_eq_true_eq] at h
  obtain ⟨⟨⟨h1, h2⟩, h3⟩, h4⟩ := h
  unfold request
  rw [if_neg (by simp [h1])]
  cases hs : storedFor s q with
  | some r => rw [hs] at h2; simp at h2
  | none =>
    dsimp only []
    rw [if_neg h3]
    cases hr : recoveryGate s op obj with
    | some r => rw [hr] at h4; simp at h4
    | none => rfl
/-- A taken write reaches its handler. -/
theorem dictWrite_takes {s : State} {q : Req} {obj : Nat} (f : State → Ans) (h : s.takesWrite q obj = true) :
    dictWrite s q obj f = answered s.beat q 2 obj (f s) := by
  simp only [State.takesWrite, Bool.and_eq_true, Bool.or_eq_true, decide_eq_true_eq] at h
  unfold dictWrite
  rw [request_takes _ h.1]
  congr 1
  rw [if_neg]
  rcases h.2 with h2 | h2
  · simp at h2; simp [h2]
  · simp [h2]
/-- A taken action reaches its handler where 1 is written, and is out of range otherwise. -/
theorem dictAction_takes {s : State} {q : Req} {obj v : Nat} (f : State → Ans) (h : s.takesWrite q obj = true) :
    dictAction s q obj v f = answered s.beat q 2 obj (if v = 1 then f s else Ans.refuse stRange s) := dictWrite_takes _ h

theorem answered_answers (b : Nat) (q : Req) (op obj : Nat) (a : Ans) : Answers (answered b q op obj a) q op obj a.status a.value := by
  simp [Answers, answered, State.emit]
theorem answered_reg (b : Nat) (q : Req) (op obj : Nat) (a : Ans) {k : Nat} (h : k ≠ Obj.mgtRequests) :
    (answered b q op obj a).reg k = a.st.reg k := by
  simp [answered, State.emit, h]
/-- Answering changes the message box, the stored responses and the count of requests; the rest is the handler's. -/
theorem answered_same (b : Nat) (q : Req) (op obj : Nat) (a : Ans) (c : Comp) (h : c ∉ [Comp.outbox, .mgt, .obj 0x14]) :
    Same c a.st (answered b q op obj a) := by
  cases c with
  | obj p =>
    intro k hk
    apply answered_reg
    rintro rfl
    apply h
    simp only [List.mem_cons, Comp.obj.injEq, reduceCtorEq, List.not_mem_nil, or_false, false_or]
    exact Fin.ext hk.symm
  | outbox => simp at h
  | mgt => simp at h
  | cells => intro _; rfl
  | _ => rfl

end Sys2Proof.Machine
end

