-- ==== Sys2Proof/Laws/Operands.lean ====
section
/-! SUPPORT. What the operations of Machine/Operands.lean change at most, each one's lemma. -/

namespace Sys2Proof.Machine

theorem pushOut_moves {A : Nat} {s0 : State} (core n : Nat) (q : List (Nat × SWord)) (s : State) (hM : Moves A s0 s) (hA : Sub 64 A) : Moves A s0 (pushOut core n q s).2 := by
  induction n generalizing q s with
  | zero => exact hM
  | succ n ih =>
    cases q with
    | nil => exact hM
    | cons x q =>
      unfold pushOut
      dsimp -proj only []
      split
      · exact ih _ _ (modCore_moves _ _ hM (Sub.trans (by decide) hA))
      · exact hM

theorem mismatchBy_moves {A : Nat} {s0 : State} (s : State) (unit : Nat) (t : TableRec) (hM : Moves A s0 s) (hA : Sub 147573952589676708754 A) : Moves A s0 (mismatchBy s unit t) := by
  unfold mismatchBy
  try dsimp -proj only []
  repeat' first
    | with_reducible exact ‹Moves _ _ _›
    | with_reducible exact Sub.trans (by decide) hA
    | with_reducible apply raise_moves
    | with_reducible apply withTables_moves
    | with_reducible refine Runs.next ?_
    | with_reducible refine ite_moves (fun _ => ?_) (fun _ => ?_)
    | split

theorem mismatch_moves {A : Nat} {s0 : State} (s : State) (core : Nat) (t : TableRec) (hM : Moves A s0 s) (hA : Sub 147573952589676708754 A) : Moves A s0 (mismatch s core t) := by
  unfold mismatch
  try dsimp -proj only []
  repeat' first
    | with_reducible exact ‹Moves _ _ _›
    | with_reducible exact Sub.trans (by decide) hA
    | with_reducible apply mismatchBy_moves
    | with_reducible refine Runs.next ?_
    | with_reducible refine ite_moves (fun _ => ?_) (fun _ => ?_)
    | split

theorem checkReads_moves {A : Nat} {s0 : State} (s : State) (unit : Nat) (reads : List (TableRec × Nat × Nat)) (hM : Moves A s0 s) (hA : Sub 147573952589676708754 A) : Moves A s0 (checkReads s unit reads) := by
  unfold checkReads
  try dsimp -proj only []
  repeat' first
    | with_reducible exact ‹Moves _ _ _›
    | with_reducible exact Sub.trans (by decide) hA
    | with_reducible apply mismatchBy_moves
    | with_reducible refine Runs.next ?_
    | with_reducible refine ite_moves (fun _ => ?_) (fun _ => ?_)
    | split

end Sys2Proof.Machine
end

