-- ==== Sys2Proof/Laws/Ledger.lean ====
section
/-! SUPPORT. What the operations of Machine/Ledger.lean change at most, each one's lemma. -/

namespace Sys2Proof.Machine

theorem ledgerStream_moves {A : Nat} {s0 : State} (s : State) (core : Nat) (i : Nat) (v : Nat) (hM : Moves A s0 s) (hA : Sub 4194304 A) : Moves A s0 (ledgerStream s core i v) := by
  unfold ledgerStream
  try dsimp -proj only []
  repeat' first
    | with_reducible exact ‹Moves _ _ _›
    | with_reducible exact Sub.trans (by decide) hA
    | with_reducible apply withLedger_moves
    | with_reducible refine Runs.next ?_
    | with_reducible refine ite_moves (fun _ => ?_) (fun _ => ?_)
    | split

theorem ledgerFlight_moves {A : Nat} {s0 : State} (s : State) (core : Nat) (i : Nat) (hM : Moves A s0 s) (hA : Sub 4194304 A) : Moves A s0 (ledgerFlight s core i) := by
  unfold ledgerFlight
  try dsimp -proj only []
  repeat' first
    | with_reducible exact ‹Moves _ _ _›
    | with_reducible exact Sub.trans (by decide) hA
    | with_reducible apply ledgerStream_moves
    | with_reducible refine Runs.next ?_
    | with_reducible refine ite_moves (fun _ => ?_) (fun _ => ?_)
    | split

theorem ledgerColl_moves {A : Nat} {s0 : State} (s : State) (k : Nat) (done : Nat) (step : Nat) (hop : Nat) (kind : Nat) (hM : Moves A s0 s) (hA : Sub 4194304 A) : Moves A s0 (ledgerColl s k done step hop kind) := by
  unfold ledgerColl
  try dsimp -proj only []
  repeat' first
    | with_reducible exact ‹Moves _ _ _›
    | with_reducible exact Sub.trans (by decide) hA
    | with_reducible apply withLedger_moves
    | with_reducible apply step_moves
    | with_reducible refine Runs.next ?_
    | with_reducible refine ite_moves (fun _ => ?_) (fun _ => ?_)
    | split

end Sys2Proof.Machine
end

