-- ==== Sys2Proof/Laws/Domains.lean ====
section
/-! SUPPORT. What the operations of Machine/Domains.lean change at most, each one's lemma. -/

namespace Sys2Proof.Machine

theorem State_setDom_moves {A : Nat} {s0 : State} (s : State) (id : Nat) (v : Nat) (hM : Moves A s0 s) (hA : Sub 36893488147419103232 A) : Moves A s0 (State.setDom s id v) := by
  unfold State.setDom
  try dsimp -proj only []
  repeat' first
    | with_reducible exact ‹Moves _ _ _›
    | with_reducible exact Sub.trans (by decide) hA
    | with_reducible apply setReg_moves
    | with_reducible exact page_pwrDomState
    | with_reducible exact page_ofUnit _ page_pwrDomState
    | with_reducible refine Runs.next ?_
    | with_reducible refine ite_moves (fun _ => ?_) (fun _ => ?_)
    | split

theorem domRefuse_moves {A : Nat} {s0 : State} (s : State) (id : Nat) (refuser : Nat) (hM : Moves A s0 s) (hA : Sub 184467440737095811970 A) : Moves A s0 (domRefuse s id refuser) := by
  unfold domRefuse
  try dsimp -proj only []
  repeat' first
    | with_reducible exact ‹Moves _ _ _›
    | with_reducible exact Sub.trans (by decide) hA
    | with_reducible apply raise_moves
    | with_reducible apply bump_moves
    | with_reducible apply setReg_moves
    | with_reducible exact page_pwrDomRefused
    | with_reducible exact page_ofUnit _ page_pwrDomRefused
    | with_reducible exact page_pwrDomLastRefuser
    | with_reducible exact page_ofUnit _ page_pwrDomLastRefuser
    | with_reducible refine Runs.next ?_
    | with_reducible refine ite_moves (fun _ => ?_) (fun _ => ?_)
    | split

theorem refreshFenced_moves {A : Nat} {s0 : State} (s : State) (cl : Nat) (hM : Moves A s0 s) (hA : Sub 158456325028528675187087900672 A) : Moves A s0 (refreshFenced s cl) := by
  unfold refreshFenced
  try dsimp -proj only []
  repeat' first
    | with_reducible exact ‹Moves _ _ _›
    | with_reducible exact Sub.trans (by decide) hA
    | with_reducible apply setReg_moves
    | with_reducible exact page_schedClFenced _
    | with_reducible refine Runs.next ?_
    | with_reducible refine ite_moves (fun _ => ?_) (fun _ => ?_)
    | split

theorem setBias_moves {A : Nat} {s0 : State} (s : State) (id : Nat) (v : Nat) (hM : Moves A s0 s) (hA : Sub 131072 A) : Moves A s0 (setBias s id v) := by
  unfold setBias
  try dsimp -proj only []
  repeat' first
    | with_reducible exact ‹Moves _ _ _›
    | with_reducible exact Sub.trans (by decide) hA
    | with_reducible apply withPower_moves
    | with_reducible refine Runs.next ?_
    | with_reducible refine ite_moves (fun _ => ?_) (fun _ => ?_)
    | split

theorem unpowered_moves {A : Nat} {s0 : State} (s : State) (id : Nat) (hM : Moves A s0 s) (hA : Sub 36893488147419234304 A) : Moves A s0 (unpowered s id) := by
  unfold unpowered
  try dsimp -proj only []
  repeat' first
    | with_reducible exact ‹Moves _ _ _›
    | with_reducible exact Sub.trans (by decide) hA
    | with_reducible apply setBias_moves
    | with_reducible apply setReg_moves
    | with_reducible exact page_pwrDomFreq
    | with_reducible exact page_ofUnit _ page_pwrDomFreq
    | with_reducible exact page_pwrDomVolt
    | with_reducible exact page_ofUnit _ page_pwrDomVolt
    | with_reducible refine Runs.next ?_
    | with_reducible refine ite_moves (fun _ => ?_) (fun _ => ?_)
    | split

theorem coreOff_moves {A : Nat} {s0 : State} (s : State) (n : Nat) (hM : Moves A s0 s) (hA : Sub 36893488147419234368 A) : Moves A s0 (coreOff s n) := by
  unfold coreOff
  try dsimp -proj only []
  repeat' first
    | with_reducible exact ‹Moves _ _ _›
    | with_reducible exact Sub.trans (by decide) hA
    | with_reducible apply unpowered_moves
    | with_reducible apply modCore_moves
    | with_reducible apply State_setDom_moves
    | with_reducible refine Runs.next ?_
    | with_reducible refine ite_moves (fun _ => ?_) (fun _ => ?_)
    | split

end Sys2Proof.Machine
end

