-- ==== Sys2Proof/Laws/Memory.lean ====
section
/-! SUPPORT. What the operations of Machine/Memory.lean change at most, each one's lemma. -/

namespace Sys2Proof.Machine

theorem sysDraw_moves {A : Nat} {s0 : State} (s : State) (a : Nat) (n : Nat) (hM : Moves A s0 s) (hA : Sub 16384 A) : Moves A s0 (sysDraw s a n) := by
  unfold sysDraw
  try dsimp -proj only []
  repeat' first
    | with_reducible exact ‹Moves _ _ _›
    | with_reducible exact Sub.trans (by decide) hA
    | with_reducible apply withWeir_moves
    | with_reducible refine Runs.next ?_
    | with_reducible refine ite_moves (fun _ => ?_) (fun _ => ?_)
    | split

theorem retireRequest_moves {A : Nat} {s0 : State} (s : State) (die : Nat) (way : Nat) (hM : Moves A s0 s) (hA : Sub 340282366920938463610948560021444928386 A) : Moves A s0 (retireRequest s die way) := by
  unfold retireRequest
  try dsimp -proj only []
  repeat' first
    | with_reducible exact ‹Moves _ _ _›
    | with_reducible exact ‹MMoves _ _ _›
    | with_reducible exact Sub.trans (by decide) hA
    | with_reducible apply raise_moves
    | with_reducible apply setReg_moves
    | with_reducible refine withMem_moves ?_ ?_
    | refine MMoves.filtered _ _ ?_ ?_
    | with_reducible exact MMoves.refl _ _
    | exact mem_rest rfl rfl (Sub.trans (by decide) hA)
    | with_reducible exact page_memRetireState
    | with_reducible refine Runs.next ?_
    | with_reducible refine ite_moves (fun _ => ?_) (fun _ => ?_)
    | split

theorem noteCe_moves {A : Nat} {s0 : State} (s : State) (a : Nat) (hM : Moves A s0 s) (hA : Sub 340282366920938463610948560021444928386 A) : Moves A s0 (noteCe s a) := by
  unfold noteCe
  try dsimp -proj only []
  repeat' first
    | with_reducible exact ‹Moves _ _ _›
    | with_reducible exact ‹MMoves _ _ _›
    | with_reducible exact Sub.trans (by decide) hA
    | with_reducible apply bump_moves
    | with_reducible refine withMem_moves ?_ ?_
    | with_reducible apply raise_moves
    | with_reducible apply retireRequest_moves
    | refine MMoves.filtered _ _ ?_ ?_
    | with_reducible exact MMoves.refl _ _
    | exact mem_rest rfl rfl (Sub.trans (by decide) hA)
    | exact page_memCeT0_add _
    | with_reducible exact page_memCeT0
    | with_reducible exact page_memPcCeLimit
    | with_reducible exact page_memAutoRetire
    | with_reducible refine Runs.next ?_
    | with_reducible refine ite_moves (fun _ => ?_) (fun _ => ?_)
    | split

theorem noteUe_moves {A : Nat} {s0 : State} (s : State) (a : Nat) (hM : Moves A s0 s) (hA : Sub 340282366920938463463374607431768219648 A) : Moves A s0 (noteUe s a) := by
  unfold noteUe
  try dsimp -proj only []
  repeat' first
    | with_reducible exact ‹Moves _ _ _›
    | with_reducible exact ‹MMoves _ _ _›
    | with_reducible exact Sub.trans (by decide) hA
    | with_reducible apply bump_moves
    | with_reducible refine withMem_moves ?_ ?_
    | refine MMoves.filtered _ _ ?_ ?_
    | with_reducible exact MMoves.refl _ _
    | exact mem_rest rfl rfl (Sub.trans (by decide) hA)
    | exact page_memUeT0_add _
    | with_reducible exact page_memUeT0
    | with_reducible refine Runs.next ?_
    | with_reducible refine ite_moves (fun _ => ?_) (fun _ => ?_)
    | split

theorem readStat_moves {A : Nat} {s0 : State} (s : State) (a n : Nat) (st : WordStat) (hM : Moves A s0 s) (hA : Sub 340282366920938463610948560021444928386 A) : Moves A s0 (readStat s a n st).2 := by
  unfold readStat
  split
  · exact noteUe_moves _ _ hM (Sub.trans (by decide) hA)
  · split
    · exact noteCe_moves _ _ hM (Sub.trans (by decide) hA)
    · exact hM

theorem fqWrite_moves {A : Nat} {s0 : State} (s : State) (r : Nat) (hM : Moves A s0 s) (hA : Sub 680564733841876926926749214863536429056 A) : Moves A s0 (fqWrite s r) := by
  unfold fqWrite
  try dsimp -proj only []
  repeat' first
    | with_reducible exact ‹Moves _ _ _›
    | with_reducible exact Sub.trans (by decide) hA
    | with_reducible apply State_memWr_moves
    | with_reducible apply setReg_moves
    | with_reducible exact page_xlatFqHead
    | with_reducible exact page_xlatFqBase
    | with_reducible exact page_xlatFqSize
    | with_reducible refine Runs.next ?_
    | with_reducible refine ite_moves (fun _ => ?_) (fun _ => ?_)
    | split

theorem produceRecord_moves {A : Nat} {s0 : State} (s : State) (die : Nat) (seq : Nat) (r : Nat) (hM : Moves A s0 s) (hA : Sub 680564733841876927074323167453213145986 A) : Moves A s0 (produceRecord s die seq r) := by
  unfold produceRecord
  try dsimp -proj only []
  repeat' first
    | with_reducible exact ‹Moves _ _ _›
    | with_reducible exact ‹MMoves _ _ _›
    | with_reducible exact Sub.trans (by decide) hA
    | with_reducible refine withMem_moves ?_ ?_
    | with_reducible apply bump_moves
    | with_reducible apply fqWrite_moves
    | with_reducible apply raise_moves
    | refine MMoves.filtered _ _ ?_ ?_
    | with_reducible exact MMoves.refl _ _
    | exact mem_rest rfl rfl (Sub.trans (by decide) hA)
    | with_reducible exact page_xlatFaults
    | with_reducible exact page_xlatFqBase
    | with_reducible exact page_xlatFqLost
    | with_reducible exact page_xlatFqHeld
    | with_reducible refine Runs.next ?_
    | with_reducible refine ite_moves (fun _ => ?_) (fun _ => ?_)
    | split

theorem fqDrain_moves {A : Nat} {s0 : State} (hs : List HeldFault) (s : State) (hM : Moves A s0 s) (hA : Sub 680564733841876926926749214863536437248 A) : Moves A s0 (fqDrain hs s) := by
  induction hs generalizing s with
  | nil => exact hM
  | cons h hs ih =>
    unfold fqDrain
    split
    · exact hM
    · refine ih _ (setReg_moves _ _ page_xlatFqHeld (withMem_moves (fqWrite_moves _ _ hM (Sub.trans (by decide) hA)) ?_) (Sub.trans (by decide) hA))
      exact mem_rest rfl rfl (Sub.trans (by decide) hA)

theorem fqTailWrite_moves {A : Nat} {s0 : State} (v : Nat) (s : State) (hM : Moves A s0 s) (hA : Sub 680564733841876926926749214863536437248 A) : Moves A s0 (fqTailWrite v s).st := by
  unfold fqTailWrite
  try dsimp -proj only []
  repeat' first
    | with_reducible exact ‹Moves _ _ _›
    | with_reducible exact Sub.trans (by decide) hA
    | with_reducible apply setReg_moves
    | with_reducible apply Ans_ok_moves
    | with_reducible apply fqDrain_moves
    | with_reducible exact page_xlatFqTail
    | with_reducible refine Runs.next ?_
    | with_reducible refine ite_ans (fun _ => ?_) (fun _ => ?_)
    | with_reducible refine ite_moves (fun _ => ?_) (fun _ => ?_)
    | split
    | dsimp only []

theorem fqBaseWrite_moves {A : Nat} {s0 : State} (v : Nat) (s : State) (hM : Moves A s0 s) (hA : Sub 680564733841876926926749214863536437248 A) : Moves A s0 (fqBaseWrite v s).st := by
  unfold fqBaseWrite
  try dsimp -proj only []
  repeat' first
    | with_reducible exact ‹Moves _ _ _›
    | with_reducible exact ‹MMoves _ _ _›
    | with_reducible exact Sub.trans (by decide) hA
    | with_reducible apply setReg_moves
    | with_reducible apply Ans_ok_moves
    | with_reducible apply fqDrain_moves
    | with_reducible refine withMem_moves ?_ ?_
    | with_reducible apply bump_moves
    | refine MMoves.filtered _ _ ?_ ?_
    | with_reducible exact MMoves.refl _ _
    | exact mem_rest rfl rfl (Sub.trans (by decide) hA)
    | with_reducible exact page_xlatFqBase
    | with_reducible exact page_xlatFqLost
    | with_reducible exact page_xlatFqHeld
    | with_reducible refine Runs.next ?_
    | with_reducible refine ite_ans (fun _ => ?_) (fun _ => ?_)
    | with_reducible refine ite_moves (fun _ => ?_) (fun _ => ?_)
    | split
    | dsimp only []

theorem fqSizeWrite_moves {A : Nat} {s0 : State} (v : Nat) (s : State) (hM : Moves A s0 s) (hA : Sub 680564733841876926926749214863536437248 A) : Moves A s0 (fqSizeWrite v s).st := by
  unfold fqSizeWrite
  try dsimp -proj only []
  repeat' first
    | with_reducible exact ‹Moves _ _ _›
    | with_reducible exact Sub.trans (by decide) hA
    | with_reducible apply setReg_moves
    | with_reducible apply Ans_ok_moves
    | with_reducible apply fqDrain_moves
    | with_reducible exact page_xlatFqSize
    | with_reducible refine Runs.next ?_
    | with_reducible refine ite_ans (fun _ => ?_) (fun _ => ?_)
    | with_reducible refine ite_moves (fun _ => ?_) (fun _ => ?_)
    | split
    | dsimp only []

theorem withdraw_moves {A : Nat} {s0 : State} (s : State) (core : Nat) (ctx : Nat) (hM : Moves A s0 s) (hA : Sub 680564733841876927074323167453213145986 A) : Moves A s0 (withdraw s core ctx) := by
  unfold withdraw
  try dsimp -proj only []
  repeat' first
    | with_reducible exact ‹Moves _ _ _›
    | with_reducible exact ‹MMoves _ _ _›
    | with_reducible exact Sub.trans (by decide) hA
    | with_reducible apply haltFault_moves
    | with_reducible refine withMem_moves ?_ ?_
    | with_reducible apply setReg_moves
    | with_reducible apply produceRecord_moves
    | refine MMoves.filtered _ _ ?_ ?_
    | with_reducible exact MMoves.refl _ _
    | exact mem_rest rfl rfl (Sub.trans (by decide) hA)
    | with_reducible exact page_xlatFqHeld
    | with_reducible refine Runs.next ?_
    | with_reducible refine ite_moves (fun _ => ?_) (fun _ => ?_)
    | split

theorem tlbFill_moves {A : Nat} {s0 : State} (s : State) (core : Nat) (e : TlbEntry) (hM : Moves A s0 s) (hA : Sub 68 A) : Moves A s0 (tlbFill s core e) := by
  unfold tlbFill
  try dsimp -proj only []
  repeat' first
    | with_reducible exact ‹Moves _ _ _›
    | with_reducible exact Sub.trans (by decide) hA
    | with_reducible apply modCore_moves
    | with_reducible apply draw_moves
    | with_reducible refine Runs.next ?_
    | refine snd_moves (by assumption) ?_
    | refine fst_moves (by assumption) ?_
    | with_reducible refine ite_moves (fun _ => ?_) (fun _ => ?_)
    | split

theorem markPte_moves {A : Nat} {s0 : State} (s : State) (e : TlbEntry) (at_ : Nat) (write : Bool) (hM : Moves A s0 s) (hA : Sub 2048 A) : Moves A s0 (markPte s e at_ write) := by
  unfold markPte
  try dsimp -proj only []
  repeat' first
    | with_reducible exact ‹Moves _ _ _›
    | with_reducible exact ‹MMoves _ _ _›
    | with_reducible exact Sub.trans (by decide) hA
    | with_reducible refine withMem_moves ?_ ?_
    | with_reducible apply memWrite_moves
    | refine MMoves.filtered _ _ ?_ ?_
    | with_reducible exact MMoves.refl _ _
    | exact mem_rest rfl rfl (Sub.trans (by decide) hA)
    | with_reducible refine Runs.next ?_
    | with_reducible refine ite_moves (fun _ => ?_) (fun _ => ?_)
    | split

theorem walkFill_moves {A : Nat} {s0 : State} (s : State) (core : Nat) (e : TlbEntry) (at_ : Nat) (write : Bool) (hM : Moves A s0 s) (hA : Sub 2116 A) : Moves A s0 (walkFill s core e at_ write) := by
  unfold walkFill
  try dsimp -proj only []
  repeat' first
    | with_reducible exact ‹Moves _ _ _›
    | with_reducible exact Sub.trans (by decide) hA
    | with_reducible apply tlbFill_moves
    | with_reducible apply markPte_moves
    | with_reducible refine Runs.next ?_
    | with_reducible refine ite_moves (fun _ => ?_) (fun _ => ?_)
    | split

theorem seenByAll_moves {A : Nat} {m0 : MemState} (m : MemState) (a n : Nat) (hM : MMoves A m0 m) (hA : Sub 8192 A) : MMoves A m0 (seenByAll m a n) :=
  hM.rest rfl rfl (Sub.trans (by decide) hA)

theorem vaStore_moves {A : Nat} {s0 : State} (s : State) (va : Nat) (bytes : List Byte) (hM : Moves A s0 s) (hA : Sub 14336 A) : Moves A s0 (vaStore s va bytes) := by
  unfold vaStore
  try dsimp -proj only []
  repeat' first
    | with_reducible exact ‹Moves _ _ _›
    | with_reducible exact ‹MMoves _ _ _›
    | with_reducible exact Sub.trans (by decide) hA
    | with_reducible refine forAll_moves _ _ ?_ fun _ _ _ => ?_
    | with_reducible apply markPte_moves
    | with_reducible refine withMem_moves ?_ ?_
    | with_reducible apply clearPoison_moves
    | with_reducible apply seenByAll_moves
    | with_reducible apply memWriteBytes_moves
    | refine MMoves.filtered _ _ ?_ ?_
    | with_reducible exact MMoves.refl _ _
    | exact mem_rest rfl rfl (Sub.trans (by decide) hA)
    | with_reducible refine Runs.next ?_
    | with_reducible refine ite_moves (fun _ => ?_) (fun _ => ?_)
    | split

theorem vaMark_moves {A : Nat} {s0 : State} (s : State) (va : Nat) (n : Nat) (hM : Moves A s0 s) (hA : Sub 2048 A) : Moves A s0 (vaMark s va n) := by
  unfold vaMark
  try dsimp -proj only []
  repeat' first
    | with_reducible exact ‹Moves _ _ _›
    | with_reducible exact Sub.trans (by decide) hA
    | with_reducible refine forAll_moves _ _ ?_ fun _ _ _ => ?_
    | with_reducible apply markPte_moves
    | with_reducible refine Runs.next ?_
    | with_reducible refine ite_moves (fun _ => ?_) (fun _ => ?_)
    | split

theorem xlatInvalWrite_moves {A : Nat} {s0 : State} (v : Nat) (s : State) (hM : Moves A s0 s) (hA : Sub 680564733841876926926749214863536431104 A) : Moves A s0 (xlatInvalWrite v s).st := by
  unfold xlatInvalWrite
  try dsimp -proj only []
  repeat' first
    | with_reducible exact ‹Moves _ _ _›
    | with_reducible exact ‹MMoves _ _ _›
    | with_reducible exact Sub.trans (by decide) hA
    | with_reducible apply Ans_refuse_moves
    | with_reducible apply Ans_ok_moves
    | with_reducible refine withMem_moves ?_ ?_
    | with_reducible apply setReg_moves
    | refine MMoves.filtered _ _ ?_ ?_
    | with_reducible exact MMoves.refl _ _
    | exact mem_rest rfl rfl (Sub.trans (by decide) hA)
    | with_reducible exact page_xlatInvalState
    | with_reducible refine Runs.next ?_
    | with_reducible refine ite_ans (fun _ => ?_) (fun _ => ?_)
    | with_reducible refine ite_moves (fun _ => ?_) (fun _ => ?_)
    | split
    | dsimp only []

theorem State_mapCores_moves {A : Nat} {s0 : State} (s : State) (f : Core → Core) (hM : Moves A s0 s) (hA : Sub 64 A) : Moves A s0 (State.mapCores s f) := by
  unfold State.mapCores
  try dsimp -proj only []
  repeat' first
    | with_reducible exact ‹Moves _ _ _›
    | with_reducible exact Sub.trans (by decide) hA
    | with_reducible apply modCore_moves
    | with_reducible refine foldl_moves _ _ ?_ fun _ _ _ => ?_
    | with_reducible refine Runs.next ?_
    | with_reducible refine ite_moves (fun _ => ?_) (fun _ => ?_)
    | split

theorem settleWrites_moves {A : Nat} {m0 : MemState} (m : MemState) (dies : List Nat) (hM : MMoves A m0 m) (hA : Sub 8192 A) : MMoves A m0 (settleWrites m dies) :=
  hM.rest rfl rfl (Sub.trans (by decide) hA)

theorem dieWrite_moves {A : Nat} {m0 : MemState} (m : MemState) (die a : Nat) (b : Byte) (hM : MMoves A m0 m) (hA : Sub 10240 A) : MMoves A m0 (dieWrite m die a b) :=
  (memSetByte_moves a b hM (Sub.trans (by decide) hA)).rest rfl rfl (Sub.trans (by decide) hA)

theorem dieRead_moves {A : Nat} {s0 : State} (die a : Nat) (us : List Unseen) (v : Nat) (s : State) (hM : Moves A s0 s) (hA : Sub 4 A) :
    Moves A s0 (dieRead die a us v s).2 := by
  induction us generalizing v s with
  | nil => exact hM
  | cons u us ih =>
    unfold dieRead
    split
    · exact ih v s hM
    · split
      · exact hM
      · dsimp only []
        split
        · exact draw_moves hM (Sub.trans (by decide) hA)
        · exact ih _ _ (draw_moves hM (Sub.trans (by decide) hA))

theorem dieBytes_moves {A : Nat} {s0 : State} (die a n : Nat) (s : State) (hM : Moves A s0 s) (hA : Sub 4 A) : Moves A s0 (dieBytes die a n s).2 := by
  induction n generalizing a s with
  | zero => exact hM
  | succ n ih => exact ih _ _ (dieRead_moves _ _ _ _ _ hM (Sub.trans (by decide) hA))

theorem dieBits_moves {A : Nat} {s0 : State} (die bit n : Nat) (s : State) (hM : Moves A s0 s) (hA : Sub 4 A) : Moves A s0 (dieBits die bit n s).2 :=
  dieBytes_moves _ _ _ _ hM (Sub.trans (by decide) hA)

theorem dieWriteBytes_moves {A : Nat} {m0 : MemState} (die a n v : Nat) (m : MemState) (hM : MMoves A m0 m) (hA : Sub 10240 A) :
    MMoves A m0 (dieWriteBytes die a n v m) := by
  induction n generalizing a v m with
  | zero => exact hM
  | succ n ih => exact ih _ _ _ (dieWrite_moves _ _ _ _ hM (Sub.trans (by decide) hA))

theorem memSetBits_moves {A : Nat} {m0 : MemState} (m : MemState) (bit : Nat) (n : Nat) (v : Nat) (hM : MMoves A m0 m) (hA : Sub 2048 A) : MMoves A m0 (memSetBits m bit n v) := by
  unfold memSetBits
  try dsimp -proj only []
  repeat' first
    | with_reducible exact ‹Moves _ _ _›
    | with_reducible exact ‹MMoves _ _ _›
    | with_reducible exact Sub.trans (by decide) hA
    | with_reducible apply memWrite_moves
    | refine MMoves.filtered _ _ ?_ ?_
    | with_reducible exact MMoves.refl _ _
    | exact mem_rest rfl rfl (Sub.trans (by decide) hA)
    | with_reducible refine Runs.next ?_
    | with_reducible refine ite_mmoves (fun _ => ?_) (fun _ => ?_)
    | split
    | dsimp only []

theorem dieSetBits_moves {A : Nat} {m0 : MemState} (die : Nat) (m : MemState) (bit n v : Nat) (hM : MMoves A m0 m) (hA : Sub 10240 A) :
    MMoves A m0 (dieSetBits die m bit n v) := dieWriteBytes_moves _ _ _ _ _ hM (Sub.trans (by decide) hA)

theorem movePage_moves {A : Nat} {m0 : MemState} (m : MemState) (src dst len : Nat) (hM : MMoves A m0 m) (hA : Sub 6144 A) : MMoves A m0 (movePage m src dst len) :=
  hM.trans hA ⟨fun hc => absurd hc (by decide), fun hc => absurd hc (by decide), fun _ => rfl,
    fun hw => ⟨(hw.1.filter _).setMany _, (hw.2.filter _).setMany _⟩⟩

theorem pageMoveGo_moves {A : Nat} {s0 : State} (s : State) (hM : Moves A s0 s) (hA : Sub 1361129467683753853853498429727072854016 A) : Moves A s0 (pageMoveGo s).st := by
  unfold pageMoveGo
  try dsimp -proj only []
  repeat' first
    | with_reducible exact ‹Moves _ _ _›
    | with_reducible exact ‹MMoves _ _ _›
    | with_reducible exact Sub.trans (by decide) hA
    | with_reducible apply Ans_refuse_moves
    | with_reducible apply setReg_moves
    | with_reducible apply Ans_ok_moves
    | with_reducible refine withMem_moves ?_ ?_
    | refine MMoves.filtered _ _ ?_ ?_
    | with_reducible exact MMoves.refl _ _
    | exact mem_rest rfl rfl (Sub.trans (by decide) hA)
    | with_reducible exact page_xlatMoveState
    | with_reducible exact page_xlatMoveSrc
    | with_reducible exact page_xlatMoveDst
    | with_reducible exact page_xlatMoveLen
    | with_reducible refine Runs.next ?_
    | with_reducible refine ite_ans (fun _ => ?_) (fun _ => ?_)
    | with_reducible refine ite_moves (fun _ => ?_) (fun _ => ?_)
    | split
    | dsimp only []

theorem freeBytes_moves {A : Nat} {s0 : State} (a n : Nat) (s : State) (hM : Moves A s0 s) (hA : Sub 2052 A) : Moves A s0 (freeBytes a n s) := by
  induction n generalizing a s with
  | zero => exact hM
  | succ n ih =>
    exact ih _ _ (withMem_moves (draw_moves hM (Sub.trans (by decide) hA)) (memSetByte_moves _ _ (MMoves.refl _ _) (Sub.trans (by decide) hA)))

end Sys2Proof.Machine
end

