-- ==== Sys2Proof/Laws/Flags.lean ====
section
/-! SUPPORT. What the operations of Machine/Flags.lean change at most, each one's lemma. -/

namespace Sys2Proof.Machine

theorem tileFlags_moves {A : Nat} {s0 : State} (s : State) (core : Nat) (cls : TileClass) (sat : Bool) (nan : Bool) (hM : Moves A s0 s) (hA : Sub 128 A) : Moves A s0 (tileFlags s core cls sat nan) := by
  unfold tileFlags
  try dsimp -proj only []
  repeat' first
    | with_reducible exact ‹Moves _ _ _›
    | with_reducible exact Sub.trans (by decide) hA
    | with_reducible apply setHealth_moves
    | with_reducible refine Runs.next ?_
    | with_reducible refine ite_moves (fun _ => ?_) (fun _ => ?_)
    | split

theorem noteReserved_moves {A : Nat} {s0 : State} (s : State) (core : Nat) (tensor : Nat) (n : Nat) (hM : Moves A s0 s) (hA : Sub 20551886507401285646713794 A) : Moves A s0 (noteReserved s core tensor n) := by
  unfold noteReserved
  try dsimp -proj only []
  repeat' first
    | with_reducible exact ‹Moves _ _ _›
    | with_reducible exact Sub.trans (by decide) hA
    | with_reducible apply bump_moves
    | with_reducible apply raiseFirst_moves
    | with_reducible apply setHealth_moves
    | with_reducible exact page_fmtRsvReads
    | with_reducible exact page_spillBlkZero _
    | with_reducible refine Runs.next ?_
    | with_reducible refine ite_moves (fun _ => ?_) (fun _ => ?_)
    | split

theorem noteNarrowed_moves {A : Nat} {s0 : State} (s : State) (core : Nat) (tensor : Nat) (fmt : Nat) (n : Nat) (hM : Moves A s0 s) (hA : Sub 1209073393567218851414978 A) : Moves A s0 (noteNarrowed s core tensor fmt n) := by
  unfold noteNarrowed
  try dsimp -proj only []
  repeat' first
    | with_reducible exact ‹Moves _ _ _›
    | with_reducible exact Sub.trans (by decide) hA
    | with_reducible apply raiseFirst_moves
    | with_reducible apply bump_moves
    | with_reducible exact page_fmtNanNarrowed
    | with_reducible refine Runs.next ?_
    | with_reducible refine ite_moves (fun _ => ?_) (fun _ => ?_)
    | split

theorem noteCnt_moves {A : Nat} {s0 : State} (s : State) (core : Nat) (cls : TileClass) (tensor : Nat) (fmt : Nat) (c : Cnt) (hM : Moves A s0 s) (hA : Sub 20551886507401285646713794 A) : Moves A s0 (noteCnt s core cls tensor fmt c) := by
  unfold noteCnt
  try dsimp -proj only []
  repeat' first
    | with_reducible exact ‹Moves _ _ _›
    | with_reducible exact Sub.trans (by decide) hA
    | with_reducible apply bump_moves
    | with_reducible apply noteNarrowed_moves
    | with_reducible apply tileFlags_moves
    | with_reducible apply noteReserved_moves
    | with_reducible exact page_spillBlkSat _
    | with_reducible exact page_spillBlkZero _
    | with_reducible exact page_spillNanIn _
    | with_reducible exact page_spillZeroBlocks _
    | with_reducible refine Runs.next ?_
    | with_reducible refine ite_moves (fun _ => ?_) (fun _ => ?_)
    | split

theorem noteAcc_moves {A : Nat} {s0 : State} (s : State) (core : Nat) (cls : TileClass) (f : AccFlags) (hM : Moves A s0 s) (hA : Sub 618970167216642727126270914 A) : Moves A s0 (noteAcc s core cls f) := by
  unfold noteAcc
  try dsimp -proj only []
  repeat' first
    | with_reducible exact ‹Moves _ _ _›
    | with_reducible exact Sub.trans (by decide) hA
    | with_reducible apply tileFlags_moves
    | with_reducible apply raiseFirst_moves
    | with_reducible apply bump_moves
    | with_reducible exact page_accSatAdds _
    | with_reducible exact page_accNanAdds _
    | with_reducible refine Runs.next ?_
    | with_reducible refine ite_moves (fun _ => ?_) (fun _ => ?_)
    | split

theorem noteBadScale_moves {A : Nat} {s0 : State} (s : State) (core : Nat) (n : Nat) (hM : Moves A s0 s) (hA : Sub 1209073393567218851414914 A) : Moves A s0 (noteBadScale s core n) := by
  unfold noteBadScale
  try dsimp -proj only []
  repeat' first
    | with_reducible exact ‹Moves _ _ _›
    | with_reducible exact Sub.trans (by decide) hA
    | with_reducible refine forAll_moves _ _ ?_ fun _ _ _ => ?_
    | with_reducible apply raise_moves
    | with_reducible apply tileFlags_moves
    | with_reducible apply bump_moves
    | with_reducible exact page_fmtBadScales
    | with_reducible refine Runs.next ?_
    | with_reducible refine ite_moves (fun _ => ?_) (fun _ => ?_)
    | split

theorem noteBadTs_moves {A : Nat} {s0 : State} (s : State) (core : Nat) (n : Nat) (hM : Moves A s0 s) (hA : Sub 1209073393567218851414914 A) : Moves A s0 (noteBadTs s core n) := by
  unfold noteBadTs
  try dsimp -proj only []
  repeat' first
    | with_reducible exact ‹Moves _ _ _›
    | with_reducible exact Sub.trans (by decide) hA
    | with_reducible refine forAll_moves _ _ ?_ fun _ _ _ => ?_
    | with_reducible apply raise_moves
    | with_reducible apply bump_moves
    | with_reducible exact page_fmtBadScales
    | with_reducible refine Runs.next ?_
    | with_reducible refine ite_moves (fun _ => ?_) (fun _ => ?_)
    | split

theorem State_sramWr_moves {A : Nat} {s0 : State} (s : State) (cl : Nat) (a : Nat) (n : Nat) (v : Nat) (hM : Moves A s0 s) (hA : Sub 128 A) : Moves A s0 (State.sramWr s cl a n v) := by
  unfold State.sramWr
  try dsimp -proj only []
  repeat' first
    | with_reducible exact ‹Moves _ _ _›
    | with_reducible exact Sub.trans (by decide) hA
    | with_reducible apply modCluster_moves
    | with_reducible refine Runs.next ?_
    | with_reducible refine ite_moves (fun _ => ?_) (fun _ => ?_)
    | split

theorem State_sramBump_moves {A : Nat} {s0 : State} (s : State) (cl : Nat) (a : Nat) (size : Nat) (n : Nat) (hM : Moves A s0 s) (hA : Sub 128 A) : Moves A s0 (State.sramBump s cl a size n) := by
  unfold State.sramBump
  try dsimp -proj only []
  repeat' first
    | with_reducible exact ‹Moves _ _ _›
    | with_reducible exact Sub.trans (by decide) hA
    | with_reducible apply State_sramWr_moves
    | with_reducible refine Runs.next ?_
    | with_reducible refine ite_moves (fun _ => ?_) (fun _ => ?_)
    | split

theorem openShare_moves {A : Nat} {s0 : State} (s : State) (cl : Nat) (idx : Nat) (tensor : Nat) (hM : Moves A s0 s) (hA : Sub 128 A) : Moves A s0 (openShare s cl idx tensor) := by
  unfold openShare
  try dsimp -proj only []
  repeat' first
    | with_reducible exact ‹Moves _ _ _›
    | with_reducible exact Sub.trans (by decide) hA
    | with_reducible apply State_sramWr_moves
    | with_reducible refine Runs.next ?_
    | with_reducible refine ite_moves (fun _ => ?_) (fun _ => ?_)
    | split

theorem addShare_moves {A : Nat} {s0 : State} (s : State) (cl : Nat) (idx : Nat) (tensor : Nat) (c : Cnt) (hM : Moves A s0 s) (hA : Sub 128 A) : Moves A s0 (addShare s cl idx tensor c) := by
  unfold addShare
  try dsimp -proj only []
  repeat' first
    | with_reducible exact ‹Moves _ _ _›
    | with_reducible exact Sub.trans (by decide) hA
    | with_reducible apply openShare_moves
    | with_reducible apply State_sramBump_moves
    | with_reducible refine Runs.next ?_
    | with_reducible refine ite_moves (fun _ => ?_) (fun _ => ?_)
    | split

theorem scopeShare_moves {A : Nat} {s0 : State} (s : State) (cl : Nat) (idx : Nat) (tensor : Nat) (c : Cnt) (amax : Nat) (ts : Nat) (hM : Moves A s0 s) (hA : Sub 128 A) : Moves A s0 (scopeShare s cl idx tensor c amax ts) := by
  unfold scopeShare
  try dsimp -proj only []
  repeat' first
    | with_reducible exact ‹Moves _ _ _›
    | with_reducible exact Sub.trans (by decide) hA
    | with_reducible apply addShare_moves
    | with_reducible apply State_sramBump_moves
    | with_reducible apply State_sramWr_moves
    | with_reducible refine Runs.next ?_
    | with_reducible refine ite_moves (fun _ => ?_) (fun _ => ?_)
    | split

theorem writeShare_moves {A : Nat} {s0 : State} (s : State) (core : Nat) (idx : Nat) (tensor : Nat) (c : Cnt) (amax : Nat) (ts : Nat) (hM : Moves A s0 s) (hA : Sub 19342813113834066795298944 A) : Moves A s0 (writeShare s core idx tensor c amax ts) := by
  unfold writeShare
  try dsimp -proj only []
  repeat' first
    | with_reducible exact ‹Moves _ _ _›
    | with_reducible exact Sub.trans (by decide) hA
    | with_reducible apply scopeShare_moves
    | with_reducible apply setReg_moves
    | with_reducible exact page_spillLastTensor _
    | with_reducible refine Runs.next ?_
    | with_reducible refine ite_moves (fun _ => ?_) (fun _ => ?_)
    | split

theorem noteLayer_moves {A : Nat} {s0 : State} (s : State) (core : Nat) (layer : Nat) (n : Nat) (amax : Nat) (c : Cnt) (hM : Moves A s0 s) (hA : Sub 128 A) : Moves A s0 (noteLayer s core layer n amax c) := by
  unfold noteLayer
  try dsimp -proj only []
  repeat' first
    | with_reducible exact ‹Moves _ _ _›
    | with_reducible exact Sub.trans (by decide) hA
    | with_reducible apply State_sramWr_moves
    | with_reducible apply State_sramBump_moves
    | with_reducible refine Runs.next ?_
    | with_reducible refine ite_moves (fun _ => ?_) (fun _ => ?_)
    | split

end Sys2Proof.Machine
end

