-- ==== Sys2Proof/Laws/Quantise.lean ====
section
/-! SUPPORT. What the operations of Machine/Quantise.lean change at most, each one's lemma. -/

namespace Sys2Proof.Machine

theorem appendHist_moves {A : Nat} {s0 : State} (s : State) (core : Nat) (slot : Nat) (amax : Nat) (hM : Moves A s0 s) (hA : Sub 64 A) : Moves A s0 (appendHist s core slot amax) := by
  unfold appendHist
  try dsimp -proj only []
  repeat' first
    | with_reducible exact ‹Moves _ _ _›
    | with_reducible exact Sub.trans (by decide) hA
    | with_reducible apply modCore_moves
    | with_reducible refine Runs.next ?_
    | with_reducible refine ite_moves (fun _ => ?_) (fun _ => ?_)
    | split

theorem rollbackHist_moves {A : Nat} {s0 : State} (s : State) (core : Nat) (hM : Moves A s0 s) (hA : Sub 64 A) : Moves A s0 (rollbackHist s core) := by
  unfold rollbackHist
  try dsimp -proj only []
  repeat' first
    | with_reducible exact ‹Moves _ _ _›
    | with_reducible exact Sub.trans (by decide) hA
    | with_reducible apply modCore_moves
    | with_reducible refine Runs.next ?_
    | with_reducible refine ite_moves (fun _ => ?_) (fun _ => ?_)
    | split

theorem noteShare_moves {A : Nat} {s0 : State} (s : State) (core : Nat) (tensor : Nat) (mb : Nat) (done : Bool) (shares : List (Nat × Scout)) (hM : Moves A s0 s) (hA : Sub 64 A) : Moves A s0 (noteShare s core tensor mb done shares) := by
  unfold noteShare
  try dsimp -proj only []
  repeat' first
    | with_reducible exact ‹Moves _ _ _›
    | with_reducible exact Sub.trans (by decide) hA
    | with_reducible apply modCore_moves
    | with_reducible refine foldl_moves _ _ ?_ fun _ _ _ => ?_
    | with_reducible refine Runs.next ?_
    | with_reducible refine ite_moves (fun _ => ?_) (fun _ => ?_)
    | split

theorem raiseHist_moves {A : Nat} {s0 : State} (s : State) (core : Nat) (slot : Nat) (amax : Nat) (hM : Moves A s0 s) (hA : Sub 64 A) : Moves A s0 (raiseHist s core slot amax) := by
  unfold raiseHist
  try dsimp -proj only []
  repeat' first
    | with_reducible exact ‹Moves _ _ _›
    | with_reducible exact Sub.trans (by decide) hA
    | with_reducible apply modCore_moves
    | with_reducible refine Runs.next ?_
    | with_reducible refine ite_moves (fun _ => ?_) (fun _ => ?_)
    | split

theorem noteHist_moves {A : Nat} {s0 : State} (s : State) (core : Nat) (mb : Nat) (P : ScaleP) (amaxs : List Nat) (hM : Moves A s0 s) (hA : Sub 64 A) : Moves A s0 (noteHist s core mb P amaxs) := by
  unfold noteHist
  try dsimp -proj only []
  repeat' first
    | with_reducible exact ‹Moves _ _ _›
    | with_reducible exact Sub.trans (by decide) hA
    | with_reducible refine forAll_moves _ _ ?_ fun _ _ _ => ?_
    | with_reducible apply raiseHist_moves
    | with_reducible apply appendHist_moves
    | with_reducible refine Runs.next ?_
    | with_reducible refine ite_moves (fun _ => ?_) (fun _ => ?_)
    | split

theorem noteQuant_moves {A : Nat} {s0 : State} (s : State) (core : Nat) (mb : Nat) (cls : TileClass) (P : ScaleP) (r : QuantRes) (extra : Cnt) (hM : Moves A s0 s) (hA : Sub 20551886507401285646713794 A) : Moves A s0 (noteQuant s core mb cls P r extra) := by
  unfold noteQuant
  try dsimp -proj only []
  repeat' first
    | with_reducible exact ‹Moves _ _ _›
    | with_reducible exact Sub.trans (by decide) hA
    | with_reducible apply raise_moves
    | with_reducible apply noteCnt_moves
    | with_reducible apply writeShare_moves
    | with_reducible apply noteShare_moves
    | with_reducible apply noteHist_moves
    | with_reducible refine Runs.next ?_
    | with_reducible refine ite_moves (fun _ => ?_) (fun _ => ?_)
    | split

end Sys2Proof.Machine
end

