-- ==== Sys2Proof/Laws/Siphon.lean ====
section
/-! SUPPORT. What the operations of Machine/Siphon.lean change at most, each one's lemma. -/

namespace Sys2Proof.Machine

theorem modItem_moves {A : Nat} {s0 : State} (s : State) (cl : Nat) (i : Nat) (f : StashItem → StashItem) (hM : Moves A s0 s) (hA : Sub 128 A) : Moves A s0 (modItem s cl i f) := by
  unfold modItem
  try dsimp -proj only []
  repeat' first
    | with_reducible exact ‹Moves _ _ _›
    | with_reducible exact Sub.trans (by decide) hA
    | with_reducible apply modCluster_moves
    | with_reducible refine Runs.next ?_
    | with_reducible refine ite_moves (fun _ => ?_) (fun _ => ?_)
    | split

theorem loseItem_moves {A : Nat} {s0 : State} (s : State) (cl : Nat) (i : Nat) (hM : Moves A s0 s) (hA : Sub 147573952589676708738 A) : Moves A s0 (loseItem s cl i) := by
  unfold loseItem
  try dsimp -proj only []
  repeat' first
    | with_reducible exact ‹Moves _ _ _›
    | with_reducible exact Sub.trans (by decide) hA
    | with_reducible apply raise_moves
    | with_reducible apply modItem_moves
    | with_reducible refine Runs.next ?_
    | with_reducible refine ite_moves (fun _ => ?_) (fun _ => ?_)
    | split

theorem landPuts_moves {A : Nat} {s0 : State} (s : State) (core : Nat) (f : Flight) (hM : Moves A s0 s) (hA : Sub 14464 A) : Moves A s0 (landPuts s core f) := by
  unfold landPuts
  split
  · exact modItem_moves _ _ _ _ hM (Sub.trans (by decide) hA)
  · refine foldl_moves _ _ hM fun p s hs => withMem_moves hs ?_
    exact MMoves.rest (clearPoison_moves _ _ (dieSetBits_moves _ _ _ _ _ (MMoves.refl _ _) (Sub.trans (by decide) hA)) (Sub.trans (by decide) hA)) rfl rfl (Sub.trans (by decide) hA)

theorem expandItem_moves {A : Nat} {s0 : State} (s : State) (cl : Nat) (i : Nat) (it : PlanItem) (hM : Moves A s0 s) (hA : Sub 2722258935367507707706996859454145691776 A) : Moves A s0 (expandItem s cl i it) := by
  unfold expandItem
  try dsimp -proj only []
  repeat' first
    | with_reducible exact ‹Moves _ _ _›
    | with_reducible exact Sub.trans (by decide) hA
    | with_reducible apply modItem_moves
    | with_reducible apply bump_moves
    | with_reducible exact page_siphClExpandSat _
    | with_reducible exact page_siphClExpandZero _
    | with_reducible refine Runs.next ?_
    | with_reducible refine ite_moves (fun _ => ?_) (fun _ => ?_)
    | split

theorem requestRecompute_moves {A : Nat} {s0 : State} (s : State) (cl : Nat) (hM : Moves A s0 s) (hA : Sub 2722258935367507707854570812043822400386 A) : Moves A s0 (requestRecompute s cl) := by
  unfold requestRecompute
  try dsimp -proj only []
  repeat' first
    | with_reducible exact ‹Moves _ _ _›
    | with_reducible exact Sub.trans (by decide) hA
    | with_reducible apply raise_moves
    | with_reducible apply modCluster_moves
    | with_reducible apply bump_moves
    | with_reducible exact page_siphClRecomputes _
    | with_reducible refine Runs.next ?_
    | with_reducible refine ite_moves (fun _ => ?_) (fun _ => ?_)
    | split

theorem narrowedBySiphon_moves {A : Nat} {s0 : State} (s : State) (cl : Nat) (tensor : Nat) (n : Nat) (hM : Moves A s0 s) (hA : Sub 1209073393567218851414914 A) : Moves A s0 (narrowedBySiphon s cl tensor n) := by
  unfold narrowedBySiphon
  try dsimp -proj only []
  repeat' first
    | with_reducible exact ‹Moves _ _ _›
    | with_reducible exact Sub.trans (by decide) hA
    | with_reducible apply bump_moves
    | with_reducible apply raise_moves
    | with_reducible apply modCluster_moves
    | with_reducible exact page_fmtNanNarrowed
    | with_reducible refine Runs.next ?_
    | with_reducible refine ite_moves (fun _ => ?_) (fun _ => ?_)
    | split

theorem lossyShare_moves {A : Nat} {s0 : State} (s : State) (cl : Nat) (it : PlanItem) (form : Nat) (raw : List Byte) (hM : Moves A s0 s) (hA : Sub 1209073393567218851414914 A) : Moves A s0 (lossyShare s cl it form raw) := by
  unfold lossyShare
  try dsimp -proj only []
  repeat' first
    | with_reducible exact ‹Moves _ _ _›
    | with_reducible exact Sub.trans (by decide) hA
    | with_reducible apply narrowedBySiphon_moves
    | with_reducible apply scopeShare_moves
    | with_reducible refine Runs.next ?_
    | with_reducible refine ite_moves (fun _ => ?_) (fun _ => ?_)
    | split

theorem placeItem_moves {A : Nat} {s0 : State} (s : State) (cl : Nat) (i : Nat) (it : PlanItem) (p : TableRec × Nat) (hM : Moves A s0 s) (hA : Sub 2722258935367508916780390426672997112706 A) : Moves A s0 (placeItem s cl i it p) := by
  unfold placeItem
  try dsimp -proj only []
  repeat' first
    | with_reducible exact ‹Moves _ _ _›
    | with_reducible exact ‹MMoves _ _ _›
    | with_reducible exact Sub.trans (by decide) hA
    | with_reducible apply raise_moves
    | with_reducible apply modCluster_moves
    | with_reducible apply requestRecompute_moves
    | with_reducible apply lossyShare_moves
    | with_reducible apply modItem_moves
    | with_reducible refine withMem_moves ?_ ?_
    | with_reducible apply clearPoison_moves
    | with_reducible apply memWriteBytes_moves
    | with_reducible apply bump_moves
    | refine MMoves.filtered _ _ ?_ ?_
    | with_reducible exact MMoves.refl _ _
    | exact mem_rest rfl rfl (Sub.trans (by decide) hA)
    | with_reducible exact page_siphClRedirects _
    | with_reducible exact page_siphClRawBytes _
    | with_reducible exact page_siphClStoredBytes _
    | with_reducible refine Runs.next ?_
    | with_reducible refine ite_moves (fun _ => ?_) (fun _ => ?_)
    | split

theorem siphonCommand_moves {A : Nat} {s0 : State} (cl : Nat) (f : TableRec × Nat → State → State) (s : State) (hM : Moves A s0 s)
    (hf : ∀ p s, Moves A s0 s → Moves A s0 (f p s)) (hA : Sub 147573952589676708754 A) : Runs A s0 (siphonCommand cl f s) := by
  unfold siphonCommand
  split
  · exact Runs.next hM
  · refine ite_runs (fun _ => Runs.next hM) (fun _ => ?_)
    split
    · exact Runs.next (mismatchBy_moves _ _ _ hM (Sub.trans (by decide) hA))
    · exact Runs.next (hf _ _ hM)

theorem loseStaged_moves {A : Nat} {s0 : State} (s : State) (cl : Nat) (i : Nat) (hM : Moves A s0 s) (hA : Sub 340282366920938463610948560021444920194 A) : Moves A s0 (loseStaged s cl i) := by
  unfold loseStaged
  try dsimp -proj only []
  repeat' first
    | with_reducible exact ‹Moves _ _ _›
    | with_reducible exact Sub.trans (by decide) hA
    | with_reducible apply loseItem_moves
    | with_reducible apply bump_moves
    | with_reducible exact page_memUeT0
    | with_reducible refine Runs.next ?_
    | with_reducible refine ite_moves (fun _ => ?_) (fun _ => ?_)
    | split

theorem placeNext_moves {A : Nat} {s0 : State} (cl : Nat) (ue : Bool) (p : TableRec × Nat) (s : State) (hM : Moves A s0 s) (hA : Sub 3062541302288447380243765034104765324162 A) : Moves A s0 (placeNext cl ue p s) := by
  unfold placeNext
  try dsimp -proj only []
  repeat' first
    | with_reducible exact ‹Moves _ _ _›
    | with_reducible exact Sub.trans (by decide) hA
    | with_reducible apply loseStaged_moves
    | with_reducible apply placeItem_moves
    | with_reducible refine Runs.next ?_
    | with_reducible refine ite_moves (fun _ => ?_) (fun _ => ?_)
    | split

theorem offloadNext_moves {A : Nat} {s0 : State} (cl : Nat) (ue : Bool) (p : TableRec × Nat) (s : State) (hM : Moves A s0 s) (hA : Sub 340282366920938463610948560021444926338 A) : Moves A s0 (offloadNext cl ue p s) := by
  unfold offloadNext
  try dsimp -proj only []
  repeat' first
    | with_reducible exact ‹Moves _ _ _›
    | with_reducible exact ‹MMoves _ _ _›
    | with_reducible exact Sub.trans (by decide) hA
    | with_reducible apply loseStaged_moves
    | with_reducible refine withMem_moves ?_ ?_
    | with_reducible apply clearPoison_moves
    | with_reducible apply memWriteBytes_moves
    | with_reducible apply modItem_moves
    | refine MMoves.filtered _ _ ?_ ?_
    | with_reducible exact MMoves.refl _ _
    | exact mem_rest rfl rfl (Sub.trans (by decide) hA)
    | with_reducible refine Runs.next ?_
    | with_reducible refine ite_moves (fun _ => ?_) (fun _ => ?_)
    | split

theorem prefetchStart_moves {A : Nat} {s0 : State} (cl : Nat) (p : TableRec × Nat) (s : State) (hM : Moves A s0 s) (hA : Sub 128 A) : Moves A s0 (prefetchStart cl p s) := by
  unfold prefetchStart
  try dsimp -proj only []
  repeat' first
    | with_reducible exact ‹Moves _ _ _›
    | with_reducible exact Sub.trans (by decide) hA
    | with_reducible apply modCluster_moves
    | with_reducible refine Runs.next ?_
    | with_reducible refine ite_moves (fun _ => ?_) (fun _ => ?_)
    | split

theorem prefetchNext_moves {A : Nat} {s0 : State} (cl : Nat) (ue : Bool) (p : TableRec × Nat) (s : State) (hM : Moves A s0 s) (hA : Sub 3062541302288446171317945419475590620034 A) : Moves A s0 (prefetchNext cl ue p s) := by
  unfold prefetchNext
  try dsimp -proj only []
  repeat' first
    | with_reducible exact ‹Moves _ _ _›
    | with_reducible exact Sub.trans (by decide) hA
    | with_reducible apply modCluster_moves
    | with_reducible apply loseItem_moves
    | with_reducible apply noteUe_moves
    | with_reducible apply expandItem_moves
    | with_reducible refine Runs.next ?_
    | with_reducible refine ite_moves (fun _ => ?_) (fun _ => ?_)
    | split

theorem itemsRead_moves {A : Nat} {s0 : State} (s : State) (cl : Nat) (items : List Nat) (hM : Moves A s0 s) (hA : Sub 128 A) : Moves A s0 (itemsRead s cl items) := by
  unfold itemsRead
  try dsimp -proj only []
  repeat' first
    | with_reducible exact ‹Moves _ _ _›
    | with_reducible exact Sub.trans (by decide) hA
    | with_reducible refine forAll_moves _ _ ?_ fun _ _ _ => ?_
    | with_reducible apply modItem_moves
    | with_reducible refine Runs.next ?_
    | with_reducible refine ite_moves (fun _ => ?_) (fun _ => ?_)
    | split

end Sys2Proof.Machine
end

