-- ==== Sys2Proof/Laws/Slots.lean ====
section
/-! SUPPORT. What the operations of Machine/Slots.lean change at most, each one's lemma. -/

namespace Sys2Proof.Machine

theorem ringPut_moves {A : Nat} {s0 : State} (s : State) (r : Nat) (hM : Moves A s0 s) (hA : Sub 1267650600228229401496703211520 A) : Moves A s0 (ringPut s r) := by
  unfold ringPut
  try dsimp -proj only []
  repeat' first
    | with_reducible exact ‹Moves _ _ _›
    | with_reducible exact Sub.trans (by decide) hA
    | with_reducible apply State_memWr_moves
    | with_reducible apply setReg_moves
    | with_reducible exact page_rollOutHead
    | with_reducible exact page_rollOutRing
    | with_reducible exact page_rollOutSize
    | with_reducible refine Runs.next ?_
    | with_reducible refine ite_moves (fun _ => ?_) (fun _ => ?_)
    | split

theorem refreshLive_moves {A : Nat} {s0 : State} (s : State) (cl : Nat) (hM : Moves A s0 s) (hA : Sub 633825300114114700748351602688 A) : Moves A s0 (refreshLive s cl) := by
  unfold refreshLive
  try dsimp -proj only []
  repeat' first
    | with_reducible exact ‹Moves _ _ _›
    | with_reducible exact Sub.trans (by decide) hA
    | with_reducible apply setReg_moves
    | with_reducible exact page_rollClLive _
    | with_reducible refine Runs.next ?_
    | with_reducible refine ite_moves (fun _ => ?_) (fun _ => ?_)
    | split

theorem writeEndsOf_moves {A : Nat} {s0 : State} (s : State) (cl : Nat) (hM : Moves A s0 s) (hA : Sub 1901475900342344102245054814336 A) : Moves A s0 (writeEndsOf s cl) := by
  unfold writeEndsOf
  try dsimp -proj only []
  repeat' first
    | with_reducible exact ‹Moves _ _ _›
    | with_reducible exact Sub.trans (by decide) hA
    | with_reducible refine forAll_moves _ _ ?_ fun _ _ _ => ?_
    | with_reducible apply ringPut_moves
    | with_reducible apply bump_moves
    | with_reducible apply modCluster_moves
    | with_reducible apply refreshLive_moves
    | with_reducible exact page_rollClEnded _
    | with_reducible refine Runs.next ?_
    | with_reducible refine ite_moves (fun _ => ?_) (fun _ => ?_)
    | split

theorem writeEnds_moves {A : Nat} {s0 : State} (s : State) (hM : Moves A s0 s) (hA : Sub 1901475900342344102245054814336 A) : Moves A s0 (writeEnds s) := by
  unfold writeEnds
  try dsimp -proj only []
  repeat' first
    | with_reducible exact ‹Moves _ _ _›
    | with_reducible exact Sub.trans (by decide) hA
    | with_reducible refine forAll_moves _ _ ?_ fun _ _ _ => ?_
    | with_reducible apply writeEndsOf_moves
    | with_reducible refine Runs.next ?_
    | with_reducible refine ite_moves (fun _ => ?_) (fun _ => ?_)
    | split

end Sys2Proof.Machine
end

