-- ==== Sys2Proof/Laws/CoreFault.lean ====
section
/-! SUPPORT. What the operations of Machine/CoreFault.lean change at most, each one's lemma. -/

namespace Sys2Proof.Machine

theorem modCtx_moves {A : Nat} {s0 : State} (s : State) (core : Nat) (i : Nat) (f : Ctx → Ctx) (hM : Moves A s0 s) (hA : Sub 64 A) : Moves A s0 (modCtx s core i f) := by
  unfold modCtx
  try dsimp -proj only []
  repeat' first
    | with_reducible exact ‹Moves _ _ _›
    | with_reducible exact Sub.trans (by decide) hA
    | with_reducible apply modCore_moves
    | with_reducible refine Runs.next ?_
    | with_reducible refine ite_moves (fun _ => ?_) (fun _ => ?_)
    | split

theorem modSlu_moves {A : Nat} {s0 : State} (s : State) (core : Nat) (sl : Nat) (f : Sluice → Sluice) (hM : Moves A s0 s) (hA : Sub 64 A) : Moves A s0 (modSlu s core sl f) := by
  unfold modSlu
  try dsimp -proj only []
  repeat' first
    | with_reducible exact ‹Moves _ _ _›
    | with_reducible exact Sub.trans (by decide) hA
    | with_reducible apply modCore_moves
    | with_reducible refine Runs.next ?_
    | with_reducible refine ite_moves (fun _ => ?_) (fun _ => ?_)
    | split

theorem landIssued_moves {A : Nat} {s0 : State} (s : State) (core : Nat) (i : Nat) (hM : Moves A s0 s) (hA : Sub 14528 A) : Moves A s0 (landIssued s core i) := by
  unfold landIssued
  try dsimp -proj only []
  repeat' first
    | with_reducible exact ‹Moves _ _ _›
    | with_reducible exact Sub.trans (by decide) hA
    | with_reducible apply modCtx_moves
    | with_reducible refine forAll_moves _ _ ?_ fun _ _ _ => ?_
    | with_reducible apply landPuts_moves
    | with_reducible refine Runs.next ?_
    | with_reducible refine ite_moves (fun _ => ?_) (fun _ => ?_)
    | split

theorem rewindOne_moves {A : Nat} {s0 : State} (s : State) (core : Nat) (i : Nat) (hM : Moves A s0 s) (hA : Sub 20769187434139310514121985316894912 A) : Moves A s0 (rewindOne s core i) := by
  unfold rewindOne
  try dsimp -proj only []
  repeat' first
    | with_reducible exact ‹Moves _ _ _›
    | with_reducible exact Sub.trans (by decide) hA
    | with_reducible apply modCtx_moves
    | with_reducible apply landIssued_moves
    | with_reducible apply modSlu_moves
    | with_reducible apply bump_moves
    | with_reducible exact page_strmRewinds _
    | with_reducible refine Runs.next ?_
    | with_reducible refine ite_moves (fun _ => ?_) (fun _ => ?_)
    | split

theorem disarmOne_moves {A : Nat} {s0 : State} (s : State) (core : Nat) (i : Nat) (hM : Moves A s0 s) (hA : Sub 680564733841876927074323167453213146050 A) : Moves A s0 (disarmOne s core i) := by
  unfold disarmOne
  try dsimp -proj only []
  repeat' first
    | with_reducible exact ‹Moves _ _ _›
    | with_reducible exact Sub.trans (by decide) hA
    | with_reducible apply landIssued_moves
    | with_reducible apply withdraw_moves
    | with_reducible apply modSlu_moves
    | with_reducible apply modCtx_moves
    | with_reducible refine Runs.next ?_
    | with_reducible refine ite_moves (fun _ => ?_) (fun _ => ?_)
    | split

theorem emptySlu_moves {A : Nat} {s0 : State} (s : State) (core : Nat) (sl : Nat) (hM : Moves A s0 s) (hA : Sub 64 A) : Moves A s0 (emptySlu s core sl) := by
  unfold emptySlu
  try dsimp -proj only []
  repeat' first
    | with_reducible exact ‹Moves _ _ _›
    | with_reducible exact Sub.trans (by decide) hA
    | with_reducible apply modSlu_moves
    | with_reducible refine Runs.next ?_
    | with_reducible refine ite_moves (fun _ => ?_) (fun _ => ?_)
    | split

theorem clearStreams_moves {A : Nat} {s0 : State} (s : State) (core : Nat) (hM : Moves A s0 s) (hA : Sub 680564733841876927074323167453213146050 A) : Moves A s0 (clearStreams s core) := by
  unfold clearStreams
  try dsimp -proj only []
  repeat' first
    | with_reducible exact ‹Moves _ _ _›
    | with_reducible exact Sub.trans (by decide) hA
    | with_reducible refine forAll_moves _ _ ?_ fun _ _ _ => ?_
    | with_reducible apply disarmOne_moves
    | with_reducible apply emptySlu_moves
    | with_reducible refine Runs.next ?_
    | with_reducible refine ite_moves (fun _ => ?_) (fun _ => ?_)
    | split

theorem cutArming_moves {A : Nat} {s0 : State} (s : State) (core : Nat) (i : Nat) (hM : Moves A s0 s) (hA : Sub 20769187434139310514121985321074688 A) : Moves A s0 (cutArming s core i) := by
  unfold cutArming
  try dsimp -proj only []
  repeat' first
    | with_reducible exact ‹Moves _ _ _›
    | with_reducible exact Sub.trans (by decide) hA
    | with_reducible apply bump_moves
    | with_reducible apply ledgerStream_moves
    | with_reducible exact page_strmBoundaryCuts _
    | with_reducible refine Runs.next ?_
    | with_reducible refine ite_moves (fun _ => ?_) (fun _ => ?_)
    | split

theorem boundaryDisarm_moves {A : Nat} {s0 : State} (s : State) (cl : Nat) (hM : Moves A s0 s) (hA : Sub 680585503029311066384837289438534220738 A) : Moves A s0 (boundaryDisarm s cl) := by
  unfold boundaryDisarm
  try dsimp -proj only []
  repeat' first
    | with_reducible exact ‹Moves _ _ _›
    | with_reducible exact Sub.trans (by decide) hA
    | with_reducible refine forAll_moves _ _ ?_ fun _ _ _ => ?_
    | with_reducible apply clearStreams_moves
    | with_reducible apply cutArming_moves
    | with_reducible apply bump_moves
    | with_reducible exact page_strmFlushes _
    | with_reducible refine Runs.next ?_
    | with_reducible refine ite_moves (fun _ => ?_) (fun _ => ?_)
    | split

theorem rewindHeld_moves {A : Nat} {s0 : State} (s : State) (core : Nat) (hM : Moves A s0 s) (hA : Sub 20769187434139310514121985316894912 A) : Moves A s0 (rewindHeld s core) := by
  unfold rewindHeld
  try dsimp -proj only []
  repeat' first
    | with_reducible exact ‹Moves _ _ _›
    | with_reducible exact Sub.trans (by decide) hA
    | with_reducible refine forAll_moves _ _ ?_ fun _ _ _ => ?_
    | with_reducible apply rewindOne_moves
    | with_reducible refine Runs.next ?_
    | with_reducible refine ite_moves (fun _ => ?_) (fun _ => ?_)
    | split

theorem stopRewind_moves {A : Nat} {s0 : State} (s : State) (hM : Moves A s0 s) (hA : Sub 20769187434139310514121985316894912 A) : Moves A s0 (stopRewind s) := by
  unfold stopRewind
  try dsimp -proj only []
  repeat' first
    | with_reducible exact ‹Moves _ _ _›
    | with_reducible exact Sub.trans (by decide) hA
    | with_reducible refine forAll_moves _ _ ?_ fun _ _ _ => ?_
    | with_reducible apply rewindHeld_moves
    | with_reducible refine Runs.next ?_
    | with_reducible refine ite_moves (fun _ => ?_) (fun _ => ?_)
    | split

theorem fenceStreams_moves {A : Nat} {s0 : State} (s : State) (core : Nat) (hM : Moves A s0 s) (hA : Sub 680585503029311066384837289438530026434 A) : Moves A s0 (fenceStreams s core) := by
  unfold fenceStreams
  try dsimp -proj only []
  repeat' first
    | with_reducible exact ‹Moves _ _ _›
    | with_reducible exact Sub.trans (by decide) hA
    | with_reducible apply clearStreams_moves
    | with_reducible apply rewindHeld_moves
    | with_reducible refine Runs.next ?_
    | with_reducible refine ite_moves (fun _ => ?_) (fun _ => ?_)
    | split

theorem refreshEpoch_moves {A : Nat} {s0 : State} (s : State) (hM : Moves A s0 s) (hA : Sub 1267650600228229401496703205376 A) : Moves A s0 (refreshEpoch s) := by
  unfold refreshEpoch
  split
  · exact setReg_moves _ _ page_epochLen (setReg_moves _ _ page_epochBase1 (setReg_moves _ _ page_epochBase0 hM hA) hA) hA
  · exact clearReg_moves _ page_epochLen (clearReg_moves _ page_epochBase1 (clearReg_moves _ page_epochBase0 hM hA) hA) hA

theorem releaseTables_moves {A : Nat} {s0 : State} (s : State) (g : Nat) (hM : Moves A s0 s) (hA : Sub 316912650057057350374175801360 A) : Moves A s0 (releaseTables s g) := by
  unfold releaseTables
  try dsimp -proj only []
  repeat' first
    | with_reducible exact ‹Moves _ _ _›
    | with_reducible exact Sub.trans (by decide) hA
    | with_reducible apply withTables_moves
    | with_reducible apply setReg_moves
    | with_reducible exact page_tblActivate
    | with_reducible exact page_tblActStatus
    | with_reducible refine Runs.next ?_
    | with_reducible refine ite_moves (fun _ => ?_) (fun _ => ?_)
    | split

theorem leaveRole_moves {A : Nat} {s0 : State} (s : State) (cl : Nat) (hM : Moves A s0 s) (hA : Sub 680585504772330641698652716496501128146 A) : Moves A s0 (leaveRole s cl) := by
  unfold leaveRole
  try dsimp -proj only []
  repeat' first
    | with_reducible exact ‹Moves _ _ _›
    | with_reducible exact Sub.trans (by decide) hA
    | with_reducible apply boundaryDisarm_moves
    | with_reducible refine forAll_moves _ _ ?_ fun _ _ _ => ?_
    | with_reducible apply modCore_moves
    | with_reducible apply modCluster_moves
    | with_reducible apply withTrain_moves
    | with_reducible apply withRoll_moves
    | with_reducible apply setReg_moves
    | with_reducible apply refreshEpoch_moves
    | with_reducible apply releaseTables_moves
    | with_reducible exact page_schedClRole _
    | with_reducible refine Runs.next ?_
    | with_reducible refine ite_moves (fun _ => ?_) (fun _ => ?_)
    | split

theorem dropHeld_moves {A : Nat} {s0 : State} (s : State) (id : Nat) (hM : Moves A s0 s) (hA : Sub 184467440737095943042 A) : Moves A s0 (dropHeld s id) := by
  unfold dropHeld
  try dsimp -proj only []
  repeat' first
    | with_reducible exact ‹Moves _ _ _›
    | with_reducible exact Sub.trans (by decide) hA
    | with_reducible apply withPower_moves
    | with_reducible apply domRefuse_moves
    | with_reducible refine Runs.next ?_
    | with_reducible refine ite_moves (fun _ => ?_) (fun _ => ?_)
    | split

theorem clusterOut_moves {A : Nat} {s0 : State} (s : State) (cl : Nat) (hM : Moves A s0 s) (hA : Sub 680585505406155941812767417244852730834 A) : Moves A s0 (clusterOut s cl) := by
  unfold clusterOut
  try dsimp -proj only []
  repeat' first
    | with_reducible exact ‹Moves _ _ _›
    | with_reducible exact Sub.trans (by decide) hA
    | with_reducible apply writeEndsOf_moves
    | with_reducible apply leaveRole_moves
    | with_reducible apply raise_moves
    | with_reducible apply setReg_moves
    | with_reducible exact page_schedClRoleReq _
    | with_reducible refine Runs.next ?_
    | with_reducible refine ite_moves (fun _ => ?_) (fun _ => ?_)
    | split

theorem faultStop_moves {A : Nat} {s0 : State} (s : State) (core : Nat) (hM : Moves A s0 s) (hA : Sub 680585503029311066421730777585949260738 A) : Moves A s0 (faultStop s core) := by
  unfold faultStop
  try dsimp -proj only []
  repeat' first
    | with_reducible exact ‹Moves _ _ _›
    | with_reducible exact Sub.trans (by decide) hA
    | with_reducible apply raise_moves
    | with_reducible apply fenceStreams_moves
    | with_reducible apply coreOff_moves
    | with_reducible apply dropHeld_moves
    | with_reducible refine Runs.next ?_
    | with_reducible refine ite_moves (fun _ => ?_) (fun _ => ?_)
    | split

theorem faultFence_moves {A : Nat} {s0 : State} (s : State) (core : Nat) (hM : Moves A s0 s) (hA : Sub 1461501638011488423609840774529050436900785273810 A) : Moves A s0 (faultFence s core) := by
  unfold faultFence
  try dsimp -proj only []
  repeat' first
    | with_reducible exact ‹Moves _ _ _›
    | with_reducible exact Sub.trans (by decide) hA
    | with_reducible apply setReg_moves
    | with_reducible apply refreshFenced_moves
    | with_reducible apply clusterOut_moves
    | with_reducible apply raise_moves
    | with_reducible exact page_resFencedMap
    | with_reducible refine Runs.next ?_
    | with_reducible refine ite_moves (fun _ => ?_) (fun _ => ?_)
    | split

theorem coreFault_moves {A : Nat} {s0 : State} (s : State) (core : Nat) (hM : Moves A s0 s) (hA : Sub 1461501638011488423609840774565943925048204573650 A) : Moves A s0 (coreFault s core) := by
  unfold coreFault
  try dsimp -proj only []
  repeat' first
    | with_reducible exact ‹Moves _ _ _›
    | with_reducible exact Sub.trans (by decide) hA
    | with_reducible apply faultStop_moves
    | with_reducible refine withMgt_moves ?_ (fun h => ?_) ?_
    | with_reducible apply faultFence_moves
    | with_reducible refine Runs.next ?_
    | with_reducible refine ite_moves (fun _ => ?_) (fun _ => ?_)
    | split
    | exact h

theorem fenceWaiting_moves {A : Nat} {s0 : State} (s : State) (hM : Moves A s0 s) (hA : Sub 1461501638011488423609840774529050436900785339346 A) : Moves A s0 (fenceWaiting s) := by
  unfold fenceWaiting
  try dsimp -proj only []
  repeat' first
    | with_reducible exact ‹Moves _ _ _›
    | with_reducible exact Sub.trans (by decide) hA
    | with_reducible refine forAll_moves _ _ ?_ fun _ _ _ => ?_
    | with_reducible apply faultFence_moves
    | with_reducible refine withMgt_moves ?_ (fun h => ?_) ?_
    | with_reducible refine Runs.next ?_
    | with_reducible refine ite_moves (fun _ => ?_) (fun _ => ?_)
    | split
    | exact h

end Sys2Proof.Machine
end

