-- ==== Sys2Proof/Laws/Entries.lean ====
section
/-! SUPPORT. What the operations of Machine/Entries.lean change at most, each one's lemma. -/

namespace Sys2Proof.Machine

theorem ite_formed {A : Nat} {s0 : State} {a b : Formed} {c : Prop} [Decidable c] (h1 : c → Moves A s0 a.st) (h2 : ¬c → Moves A s0 b.st) :
    Moves A s0 (if c then a else b).st := by split <;> simp_all

/-- An entry kind's forming moves within `A`. -/
def EntryKind.Moves (A : Nat) (k : EntryKind) : Prop :=
  ∀ (s0 s : State) (core : Nat) (c : Cur) (ws : Nat → List Nat), Machine.Moves A s0 s → Machine.Moves A s0 (k.form s core c ws).st


theorem stop_moves {A : Nat} {s0 s : State} (h : Moves A s0 s) : Moves A s0 (Formed.stop s).st := h

theorem startRegion_moves {A : Nat} {s0 : State} (s : State) (core : Nat) (base : Nat) (len : Nat) (wid : Nat) (hM : Moves A s0 s) (hA : Sub 64 A) : Moves A s0 (startRegion s core base len wid) := by
  unfold startRegion
  try dsimp -proj only []
  repeat' first
    | with_reducible exact ‹Moves _ _ _›
    | with_reducible exact Sub.trans (by decide) hA
    | with_reducible apply modCore_moves
    | with_reducible refine Runs.next ?_
    | with_reducible refine ite_moves (fun _ => ?_) (fun _ => ?_)
    | split

theorem closeSegment_moves {A : Nat} {s0 : State} (s : State) (core : Nat) (base : Nat) (hM : Moves A s0 s) (hA : Sub 1856910058928070412348686400 A) : Moves A s0 (closeSegment s core base) := by
  unfold closeSegment
  try dsimp -proj only []
  repeat' first
    | with_reducible exact ‹Moves _ _ _›
    | with_reducible exact Sub.trans (by decide) hA
    | with_reducible apply modCore_moves
    | with_reducible apply bump_moves
    | with_reducible apply raiseTo_moves
    | with_reducible exact page_accSegClosed _
    | with_reducible exact page_accSegStorePeak _
    | with_reducible refine Runs.next ?_
    | with_reducible refine ite_moves (fun _ => ?_) (fun _ => ?_)
    | split

theorem combineRegion_moves {A : Nat} {s0 : State} (s : State) (core : Nat) (base : Nat) (cls : TileClass) (hM : Moves A s0 s) (hA : Sub 618970167216642727126270914 A) : Moves A s0 (combineRegion s core base cls) := by
  unfold combineRegion
  try dsimp -proj only []
  repeat' first
    | with_reducible exact ‹Moves _ _ _›
    | with_reducible exact Sub.trans (by decide) hA
    | with_reducible apply modCore_moves
    | with_reducible apply noteAcc_moves
    | with_reducible apply setHealth_moves
    | with_reducible apply bump_moves
    | with_reducible apply raiseFirstCl_moves
    | with_reducible refine foldl_moves _ _ ?_ fun _ _ _ => ?_
    | with_reducible exact page_accLongTiles _
    | with_reducible refine Runs.next ?_
    | with_reducible refine ite_moves (fun _ => ?_) (fun _ => ?_)
    | split

theorem enterRegion_moves {A : Nat} {s0 : State} (core base : Nat) (cls : TileClass) (n : Nat) (els : List (List XNum)) (s : State) (hM : Moves A s0 s) (hA : Sub 1856910206502023002025395138 A) :
    Moves A s0 (enterRegion core base cls n els s) := by
  induction n generalizing els s with
  | zero => exact hM
  | succ n ih =>
    unfold enterRegion
    dsimp -proj only []
    split
    · exact hM
    · split
      · exact ih _ _ (closeSegment_moves _ _ _ hM (Sub.trans (by decide) hA))
      · exact ih _ _ (noteAcc_moves _ _ _ _ (modCore_moves _ _ hM (Sub.trans (by decide) hA)) (Sub.trans (by decide) hA))

theorem loadStore_moves {A : Nat} {s0 : State} (s : State) (core : Nat) (sl : Nat) (dest : Nat) (hM : Moves A s0 s) (hA : Sub 64 A) : Moves A s0 (loadStore s core sl dest) := by
  unfold loadStore
  try dsimp -proj only []
  repeat' first
    | with_reducible exact ‹Moves _ _ _›
    | with_reducible exact Sub.trans (by decide) hA
    | with_reducible apply modCore_moves
    | with_reducible refine Runs.next ?_
    | with_reducible refine ite_moves (fun _ => ?_) (fun _ => ?_)
    | split

theorem loadAll_moves {A : Nat} {s0 : State} (core scaleDest : Nat) (sls ds : List Nat) (s : State) (hM : Moves A s0 s) (hA : Sub 64 A) :
    Moves A s0 (loadAll core scaleDest sls ds s) := by
  induction sls generalizing ds s with
  | nil => exact hM
  | cons sl sls ih =>
    unfold loadAll
    split
    · exact ih _ _ (loadStore_moves _ _ _ _ hM (Sub.trans (by decide) hA))
    · split
      · exact ih _ _ (loadStore_moves _ _ _ _ hM (Sub.trans (by decide) hA))
      · exact hM

theorem refetchFrom_moves {A : Nat} {s0 : State} (s : State) (core : Nat) (sl : Nat) (l : LoadSrc) (k : Nat) (hM : Moves A s0 s) (hA : Sub 64 A) : Moves A s0 (refetchFrom s core sl l k) := by
  unfold refetchFrom
  try dsimp -proj only []
  repeat' first
    | with_reducible exact ‹Moves _ _ _›
    | with_reducible exact Sub.trans (by decide) hA
    | with_reducible apply modCore_moves
    | with_reducible apply haltFault_moves
    | with_reducible apply haltError_moves
    | with_reducible refine Runs.next ?_
    | with_reducible refine ite_moves (fun _ => ?_) (fun _ => ?_)
    | split

theorem stagedUe_moves {A : Nat} {s0 : State} (s : State) (core : Nat) (sl : Nat) (hM : Moves A s0 s) (hA : Sub 20769187434139458088074574993589186 A) : Moves A s0 (stagedUe s core sl) := by
  unfold stagedUe
  try dsimp -proj only []
  repeat' first
    | with_reducible exact ‹Moves _ _ _›
    | with_reducible exact Sub.trans (by decide) hA
    | with_reducible apply raise_moves
    | with_reducible apply refetchFrom_moves
    | with_reducible apply bump_moves
    | with_reducible exact page_strmRefetches _
    | with_reducible refine Runs.next ?_
    | with_reducible refine ite_moves (fun _ => ?_) (fun _ => ?_)
    | split

theorem writerUe_moves {A : Nat} {s0 : State} (s : State) (core : Nat) (sl : Nat) (hM : Moves A s0 s) (hA : Sub 20769187434139458088074574993589186 A) : Moves A s0 (writerUe s core sl) := by
  unfold writerUe
  try dsimp -proj only []
  repeat' first
    | with_reducible exact ‹Moves _ _ _›
    | with_reducible exact Sub.trans (by decide) hA
    | with_reducible apply haltError_moves
    | with_reducible apply modCore_moves
    | with_reducible apply bump_moves
    | with_reducible apply raise_moves
    | with_reducible exact page_strmRewinds _
    | with_reducible refine Runs.next ?_
    | with_reducible refine ite_moves (fun _ => ?_) (fun _ => ?_)
    | split

theorem gather_moves {A : Nat} {s0 : State} (core : Nat) (got : SMap (List Nat)) (s : State) (ps : List (Nat × Nat)) (hM : Moves A s0 s) (hA : Sub 64 A) :
    Moves A s0 (gather core got s ps).2 := by
  induction ps generalizing got s with
  | nil => exact hM
  | cons p ps ih =>
    unfold gather
    dsimp -proj only []
    refine ih _ _ ?_
    split
    · exact hM
    · exact modCore_moves _ _ hM (Sub.trans (by decide) hA)

theorem Formed_stop_moves {A : Nat} {s0 : State} (s : State) (hM : Moves A s0 s) (hA : Sub 0 A) : Moves A s0 (Formed.stop s).st := by
  unfold Formed.stop
  try dsimp -proj only []
  repeat' first
    | with_reducible exact ‹Moves _ _ _›
    | with_reducible exact Sub.trans (by decide) hA
    | with_reducible refine Runs.next ?_
    | with_reducible refine ite_moves (fun _ => ?_) (fun _ => ?_)
    | with_reducible refine ite_moves (fun _ => ?_) (fun _ => ?_)
    | with_reducible refine stop_moves ?_
    | with_reducible refine ite_formed (fun _ => ?_) (fun _ => ?_)
    | split
    | dsimp -zeta only []

theorem putFormed_moves {A : Nat} {s0 : State} (s : State) (core : Nat) (re : RunEntry) (bad : Option Nat) (f : Formed) (hM : Moves A s0 s) (hA : Sub 20769187434139458088074574993589186 A) : Moves A s0 (putFormed s core re bad f) := by
  unfold putFormed
  try dsimp -proj only []
  repeat' first
    | with_reducible exact ‹Moves _ _ _›
    | with_reducible exact Sub.trans (by decide) hA
    | with_reducible apply writerUe_moves
    | with_reducible apply pushOut_moves
    | with_reducible apply modCore_moves
    | with_reducible refine Runs.next ?_
    | refine snd_moves (by assumption) ?_
    | refine fst_moves (by assumption) ?_
    | with_reducible refine ite_moves (fun _ => ?_) (fun _ => ?_)
    | split

theorem proceed_moves {A : Nat} {s0 : State} (k : EntryKind) (s : State) (core : Nat) (c : Cur) (bad : Option Nat) (hM : Moves A s0 s) (hk : k.Moves A)
    (hA : Sub 20769187434139458088074574993589186 A) : Moves A s0 (proceed k s core c bad) := by
  unfold proceed
  dsimp -proj only []
  have hg := fun ps => gather_moves core c.re.got s ps hM (Sub.trans (by decide) hA)
  have hp : ∀ re f, Moves A s0 f.st → Moves A s0 (putFormed f.st core re bad f) := fun re f h => putFormed_moves _ _ _ _ _ h (Sub.trans (by decide) hA)
  refine ite_moves (fun _ => ?_) (fun _ => modCore_moves _ _ (hg _) (Sub.trans (by decide) hA))
  split
  · refine ite_moves (fun _ => modCore_moves _ _ (ite_moves (fun _ => hg _) (fun _ => noteShare_moves _ _ _ _ _ _ (hg _) (Sub.trans (by decide) hA)))
      (Sub.trans (by decide) hA)) (fun _ => hp _ _ (hk _ _ _ _ _ (hg _)))
  · exact hp _ _ (hk _ _ _ _ _ (hg _))

theorem openTail_moves {A : Nat} {s0 : State} (s : State) (core : Nat) (p : PlanEntry) (hM : Moves A s0 s) (hA : Sub 128 A) : Moves A s0 (openTail s core p) := by
  unfold openTail
  try dsimp -proj only []
  repeat' first
    | with_reducible exact ‹Moves _ _ _›
    | with_reducible exact Sub.trans (by decide) hA
    | with_reducible refine forAll_moves _ _ ?_ fun _ _ _ => ?_
    | with_reducible apply State_sramWr_moves
    | with_reducible apply modCluster_moves
    | with_reducible refine Runs.next ?_
    | with_reducible refine ite_moves (fun _ => ?_) (fun _ => ?_)
    | split

theorem startEntry_moves {A : Nat} {s0 : State} (k : EntryKind) (s : State) (core : Nat) (c : Cur) (bad : Option Nat) (hM : Moves A s0 s) (hk : k.Moves A)
    (hA : Sub 20769187434139458088074574993589186 A) : Moves A s0 (startEntry k s core c bad) := by
  unfold startEntry
  exact proceed_moves _ _ _ _ _ (loadAll_moves _ _ _ _ _ (modCore_moves _ _ (openTail_moves _ _ _ hM (Sub.trans (by decide) hA)) (Sub.trans (by decide) hA))
    (Sub.trans (by decide) hA)) hk (Sub.trans (by decide) hA)

theorem holdOrStart_moves {A : Nat} {s0 : State} (k : EntryKind) (s : State) (core : Nat) (c : Cur) (bad : Option Nat) (hM : Moves A s0 s) (hk : k.Moves A)
    (hA : Sub 20769187588881962998747109355979714 A) : Moves A s0 (holdOrStart k s core c bad) := by
  unfold holdOrStart
  exact ite_moves (fun _ => ite_moves (fun _ => hM) fun _ => bump_moves _ _ (page_fengAccWaits _) (modCore_moves _ _ hM (Sub.trans (by decide) hA)) (Sub.trans (by decide) hA))
    fun _ => startEntry_moves _ _ _ _ _ hM hk (Sub.trans (by decide) hA)

theorem freshEntry_moves {A : Nat} {s0 : State} (k : EntryKind) (s : State) (core : Nat) (c : Cur) (bad : Option Nat) (hM : Moves A s0 s) (hk : k.Moves A)
    (hA : Sub 20769187588881962998747109355979730 A) : Moves A s0 (freshEntry k s core c bad) := by
  unfold freshEntry
  split
  · exact mismatch_moves _ _ _ hM (Sub.trans (by decide) hA)
  · refine ite_moves (fun _ => hM) fun _ => ?_
    split
    · exact mismatch_moves _ _ _ hM (Sub.trans (by decide) hA)
    · exact holdOrStart_moves _ _ _ _ _ hM hk (Sub.trans (by decide) hA)

theorem runEntry_moves {A : Nat} {s0 : State} (k : EntryKind) (core : Nat) (err : EntryErr) (s : State) (hM : Moves A s0 s) (hk : k.Moves A) (hA : Sub 1461501638011488423609995517070854597582566964178 A) :
    Runs A s0 (runEntry k core err s) := by
  unfold runEntry
  split
  · exact Runs.next hM
  · split
    · exact Runs.next (coreFault_moves _ _ hM (Sub.trans (by decide) hA))
    · exact Runs.next (stagedUe_moves _ _ _ hM (Sub.trans (by decide) hA))
    · exact ite_runs (fun _ => Runs.next hM) fun _ => ite_runs (fun _ => Runs.next (freshEntry_moves _ _ _ _ _ hM hk (Sub.trans (by decide) hA)))
        fun _ => Runs.next (proceed_moves _ _ _ _ _ hM hk (Sub.trans (by decide) hA))

theorem rewindRead_moves {A : Nat} {s0 : State} (s : State) (core : Nat) (sl : Nat) (back : Nat) (hM : Moves A s0 s) (hA : Sub 20769187434139310514121985316880448 A) : Moves A s0 (rewindRead s core sl back) := by
  unfold rewindRead
  try dsimp -proj only []
  repeat' first
    | with_reducible exact ‹Moves _ _ _›
    | with_reducible exact Sub.trans (by decide) hA
    | with_reducible apply refetchFrom_moves
    | with_reducible apply bump_moves
    | with_reducible exact page_strmRewinds _
    | with_reducible refine Runs.next ?_
    | with_reducible refine ite_moves (fun _ => ?_) (fun _ => ?_)
    | split

theorem skewFault_moves {A : Nat} {s0 : State} (s : State) (core : Nat) (k : SkewAt) (hM : Moves A s0 s) (hA : Sub 20769187453482271201908641788888002 A) : Moves A s0 (skewFault s core k) := by
  unfold skewFault
  try dsimp -proj only []
  repeat' first
    | with_reducible exact ‹Moves _ _ _›
    | with_reducible exact Sub.trans (by decide) hA
    | with_reducible apply rewindRead_moves
    | with_reducible apply modCore_moves
    | with_reducible apply haltError_moves
    | with_reducible apply setHealth_moves
    | with_reducible apply bump_moves
    | with_reducible apply raise_moves
    | with_reducible exact page_spillSkew _
    | with_reducible refine Runs.next ?_
    | with_reducible refine ite_moves (fun _ => ?_) (fun _ => ?_)
    | split

end Sys2Proof.Machine
end

