-- ==== Sys2Proof/Laws/Reading.lean ====
section
/-! SUPPORT. What the operations of Machine/Reading.lean change at most, each one's lemma. -/

namespace Sys2Proof.Machine

theorem noteOperand_moves {A : Nat} {s0 : State} (s : State) (core : Nat) (tensor : Nat) (o : Operand) (hM : Moves A s0 s) (hA : Sub 20551886507401285646713794 A) : Moves A s0 (noteOperand s core tensor o) := by
  unfold noteOperand
  try dsimp -proj only []
  repeat' first
    | with_reducible exact ‹Moves _ _ _›
    | with_reducible exact Sub.trans (by decide) hA
    | with_reducible apply noteReserved_moves
    | with_reducible apply noteBadTs_moves
    | with_reducible apply noteBadScale_moves
    | with_reducible refine Runs.next ?_
    | with_reducible refine ite_moves (fun _ => ?_) (fun _ => ?_)
    | split

theorem deliver_moves {A : Nat} {s0 : State} (s : State) (core out : Nat) (cls : TileClass) (fmt tensor : Nat) (mode : RMode) (p : Part) (vals : List (Nat × Bool))
    (hM : Moves A s0 s) (hA : Sub 20551886507401285646713794 A) : Moves A s0 (deliver s core out cls fmt tensor mode p vals).1 :=
  noteCnt_moves _ _ _ _ _ _ hM hA

end Sys2Proof.Machine
end

