-- ==== Sys2Proof/Laws/Forward.lean ====
section
/-! SUPPORT. What the operations of Machine/Forward.lean change at most, each one's lemma. -/

namespace Sys2Proof.Machine

theorem fwdOutput_moves {A : Nat} {s0 : State} (s : State) (core : Nat) (mb : Nat) (entry : Entry) (outScale : Nat) (ctr : Nat) (tensor : Nat) (row0 : Nat) (rowLen : Nat) (col0 : Nat) (m : Nat) (n : Nat) (ents : List Nat) (vals : List (Nat × Bool)) (peers : List (Nat × Scout)) (hM : Moves A s0 s) (hA : Sub 20551886507401285646713794 A) : Moves A s0 (fwdOutput s core mb entry outScale ctr tensor row0 rowLen col0 m n ents vals peers).st := by
  unfold fwdOutput
  try dsimp -proj only []
  repeat' first
    | with_reducible exact ‹Moves _ _ _›
    | with_reducible exact Sub.trans (by decide) hA
    | with_reducible apply noteQuant_moves
    | with_reducible apply noteCnt_moves
    | with_reducible refine Runs.next ?_
    | with_reducible refine ite_moves (fun _ => ?_) (fun _ => ?_)
    | with_reducible refine ite_moves (fun _ => ?_) (fun _ => ?_)
    | with_reducible refine stop_moves ?_
    | with_reducible refine ite_formed (fun _ => ?_) (fun _ => ?_)
    | split
    | dsimp -zeta only []

theorem noteFOperands_moves {A : Nat} {s0 : State} (s : State) (core : Nat) (c : Cur) (o : FOperands) (scales : List Nat) (hM : Moves A s0 s) (hA : Sub 175294391418073820009104322 A) : Moves A s0 (noteFOperands s core c o scales) := by
  unfold noteFOperands
  try dsimp -proj only []
  repeat' first
    | with_reducible exact ‹Moves _ _ _›
    | with_reducible exact Sub.trans (by decide) hA
    | with_reducible apply noteBadScale_moves
    | with_reducible apply noteBadTs_moves
    | with_reducible apply noteReserved_moves
    | with_reducible apply bump_moves
    | with_reducible exact page_fengZblkSkipped _
    | with_reducible exact page_fengWpassSkipped _
    | with_reducible refine Runs.next ?_
    | with_reducible refine ite_moves (fun _ => ?_) (fun _ => ?_)
    | split

theorem mirrorPass_moves {A : Nat} {s0 : State} (s : State) (core : Nat) (b : Nat) (ws : Nat → List Nat) (hM : Moves A s0 s) (hA : Sub 1856910206502023002025395138 A) : Moves A s0 (mirrorPass s core b ws) := by
  unfold mirrorPass
  try dsimp -proj only []
  repeat' first
    | with_reducible exact ‹Moves _ _ _›
    | with_reducible exact Sub.trans (by decide) hA
    | with_reducible apply startRegion_moves
    | with_reducible apply enterRegion_moves
    | with_reducible apply combineRegion_moves
    | with_reducible refine foldl_moves _ _ ?_ fun _ _ _ => ?_
    | with_reducible refine Runs.next ?_
    | with_reducible refine ite_moves (fun _ => ?_) (fun _ => ?_)
    | split

theorem fFinish_moves {A : Nat} {s0 : State} (peers : List (Nat × Scout)) (sideWait : Nat) (s : State) (core : Nat) (c : Cur) (ws : Nat → List Nat) (tsA : List Nat) (tsW : List Nat) (hM : Moves A s0 s) (hA : Sub 2032204450346144232357790658 A) : Moves A s0 (fFinish peers sideWait s core c ws tsA tsW).st := by
  unfold fFinish
  try dsimp -proj only []
  repeat' first
    | with_reducible exact ‹Moves _ _ _›
    | with_reducible exact Sub.trans (by decide) hA
    | with_reducible apply combineRegion_moves
    | with_reducible apply noteAcc_moves
    | with_reducible apply raiseFirst_moves
    | with_reducible apply bump_moves
    | with_reducible apply mirrorPass_moves
    | with_reducible apply fwdOutput_moves
    | with_reducible refine foldl_moves _ _ ?_ fun _ _ _ => ?_
    | with_reducible exact page_fengSideExtra _
    | with_reducible refine Runs.next ?_
    | with_reducible refine ite_moves (fun _ => ?_) (fun _ => ?_)
    | with_reducible refine ite_moves (fun _ => ?_) (fun _ => ?_)
    | with_reducible refine stop_moves ?_
    | with_reducible refine ite_formed (fun _ => ?_) (fun _ => ?_)
    | split
    | dsimp -zeta only []

theorem fForm_moves {A : Nat} {s0 : State} (peers : List (Nat × Scout)) (sideWait : Nat) (s : State) (core : Nat) (c : Cur) (ws : Nat → List Nat) (hM : Moves A s0 s) (hA : Sub 20769199369864075143308416867664834 A) : Moves A s0 (fForm peers sideWait s core c ws).st := by
  unfold fForm
  try dsimp -proj only []
  repeat' first
    | with_reducible exact ‹Moves _ _ _›
    | with_reducible exact Sub.trans (by decide) hA
    | with_reducible refine forAll_moves _ _ ?_ fun _ _ _ => ?_
    | with_reducible apply raise_moves
    | with_reducible apply bump_moves
    | with_reducible apply skewFault_moves
    | with_reducible apply noteFOperands_moves
    | with_reducible apply startRegion_moves
    | with_reducible apply enterRegion_moves
    | with_reducible apply modCore_moves
    | with_reducible apply fFinish_moves
    | with_reducible refine foldl_moves _ _ ?_ fun _ _ _ => ?_
    | with_reducible exact page_sparseMetaErrors _
    | with_reducible refine Runs.next ?_
    | with_reducible refine ite_moves (fun _ => ?_) (fun _ => ?_)
    | with_reducible refine ite_moves (fun _ => ?_) (fun _ => ?_)
    | with_reducible refine stop_moves ?_
    | with_reducible refine ite_formed (fun _ => ?_) (fun _ => ?_)
    | split
    | dsimp -zeta only []

theorem fKind_moves {A : Nat} (peers : List (Nat × Scout)) (sideWait : Nat) (hA : Sub 20769199369864075143308416867664834 A) : (fKind peers sideWait).Moves A :=
  fun _ _ _ _ ws h => fForm_moves _ _ _ _ _ ws h (Sub.trans (by decide) hA)

theorem sideForm_moves {A : Nat} {s0 : State} (s : State) (core : Nat) (c : Cur) (ws : Nat → List Nat) (hM : Moves A s0 s) (hA : Sub 1856910206502023002025395138 A) : Moves A s0 (sideForm s core c ws).st := by
  unfold sideForm
  try dsimp -proj only []
  repeat' first
    | with_reducible exact ‹Moves _ _ _›
    | with_reducible exact Sub.trans (by decide) hA
    | with_reducible apply startRegion_moves
    | with_reducible apply enterRegion_moves
    | with_reducible refine foldl_moves _ _ ?_ fun _ _ _ => ?_
    | with_reducible refine Runs.next ?_
    | with_reducible refine ite_moves (fun _ => ?_) (fun _ => ?_)
    | with_reducible refine ite_moves (fun _ => ?_) (fun _ => ?_)
    | with_reducible refine stop_moves ?_
    | with_reducible refine ite_formed (fun _ => ?_) (fun _ => ?_)
    | split
    | dsimp -zeta only []

theorem sideKind_moves {A : Nat} (hA : Sub 1856910206502023002025395138 A) : (sideKind).Moves A :=
  fun _ _ _ _ ws h => sideForm_moves _ _ _ ws h (Sub.trans (by decide) hA)

end Sys2Proof.Machine
end

