-- ==== Sys2Proof/Laws/Backward.lean ====
section
/-! SUPPORT. What the operations of Machine/Backward.lean change at most, each one's lemma. -/

namespace Sys2Proof.Machine

theorem noteGroups_moves {A : Nat} {s0 : State} (s : State) (core : Nat) (els : List (List XNum)) (hM : Moves A s0 s) (hA : Sub 128 A) : Moves A s0 (noteGroups s core els) := by
  unfold noteGroups
  try dsimp -proj only []
  repeat' first
    | with_reducible exact ‹Moves _ _ _›
    | with_reducible exact Sub.trans (by decide) hA
    | with_reducible apply tileFlags_moves
    | with_reducible refine Runs.next ?_
    | with_reducible refine ite_moves (fun _ => ?_) (fun _ => ?_)
    | split

theorem formRegion_moves {A : Nat} {s0 : State} (s : State) (core : Nat) (base : Nat) (fst : Bool) (wid : Nat) (els : List (List XNum)) (hM : Moves A s0 s) (hA : Sub 1856910206502023002025395138 A) : Moves A s0 (formRegion s core base fst wid els) := by
  unfold formRegion
  try dsimp -proj only []
  repeat' first
    | with_reducible exact ‹Moves _ _ _›
    | with_reducible exact Sub.trans (by decide) hA
    | with_reducible apply startRegion_moves
    | with_reducible apply enterRegion_moves
    | with_reducible apply noteGroups_moves
    | with_reducible refine foldl_moves _ _ ?_ fun _ _ _ => ?_
    | with_reducible refine Runs.next ?_
    | with_reducible refine ite_moves (fun _ => ?_) (fun _ => ?_)
    | split

theorem noteClamp_moves {A : Nat} {s0 : State} (s : State) (core : Nat) (clamped : Bool) (hM : Moves A s0 s) (hA : Sub 309485157395297658401489858 A) : Moves A s0 (noteClamp s core clamped) := by
  unfold noteClamp
  try dsimp -proj only []
  repeat' first
    | with_reducible exact ‹Moves _ _ _›
    | with_reducible exact Sub.trans (by decide) hA
    | with_reducible apply raiseFirst_moves
    | with_reducible apply bump_moves
    | with_reducible exact page_bengShiftClamp _
    | with_reducible refine Runs.next ?_
    | with_reducible refine ite_moves (fun _ => ?_) (fun _ => ?_)
    | split

theorem bOutput_moves {A : Nat} {s0 : State} (s : State) (core : Nat) (c : Cur) (tsW : Nat) (side : List Nat) (sideWait : Nat) (ws : Nat → List Nat) (hM : Moves A s0 s) (hA : Sub 20769188383146226485558477137937346 A) : Moves A s0 (bOutput s core c tsW side sideWait ws).st := by
  unfold bOutput
  try dsimp -proj only []
  repeat' first
    | with_reducible exact ‹Moves _ _ _›
    | with_reducible exact Sub.trans (by decide) hA
    | with_reducible apply combineRegion_moves
    | with_reducible apply noteAcc_moves
    | with_reducible apply raiseFirst_moves
    | with_reducible apply bump_moves
    | with_reducible apply noteClamp_moves
    | with_reducible apply skewFault_moves
    | with_reducible refine forAll_moves _ _ ?_ fun _ _ _ => ?_
    | with_reducible apply noteOperand_moves
    | with_reducible apply noteCnt_moves
    | with_reducible apply noteLayer_moves
    | with_reducible refine foldl_moves _ _ ?_ fun _ _ _ => ?_
    | with_reducible exact page_bengSideExtra _
    | with_reducible refine Runs.next ?_
    | with_reducible refine ite_moves (fun _ => ?_) (fun _ => ?_)
    | with_reducible refine ite_moves (fun _ => ?_) (fun _ => ?_)
    | with_reducible refine stop_moves ?_
    | with_reducible refine ite_formed (fun _ => ?_) (fun _ => ?_)
    | split
    | dsimp -zeta only []

theorem bxGroups_moves {A : Nat} {s0 : State} (s : State) (core : Nat) (c : Cur) (dy : List (List XNum)) (skipped : Bool) (hM : Moves A s0 s) (hA : Sub 2186946955256816766720181186 A) : Moves A s0 (bxGroups s core c dy skipped) := by
  unfold bxGroups
  try dsimp -proj only []
  repeat' first
    | with_reducible exact ‹Moves _ _ _›
    | with_reducible exact Sub.trans (by decide) hA
    | with_reducible apply noteBadScale_moves
    | with_reducible apply noteBadTs_moves
    | with_reducible apply bump_moves
    | with_reducible apply noteReserved_moves
    | with_reducible apply formRegion_moves
    | with_reducible apply modCore_moves
    | with_reducible exact page_bengWtInline _
    | with_reducible exact page_bengWpassSkipped _
    | with_reducible refine Runs.next ?_
    | with_reducible refine ite_moves (fun _ => ?_) (fun _ => ?_)
    | split

theorem bwGroups_moves {A : Nat} {s0 : State} (s : State) (core : Nat) (c : Cur) (dy : List (List XNum)) (ws : Nat → List Nat) (hM : Moves A s0 s) (hA : Sub 1856910206502023002025395138 A) : Moves A s0 (bwGroups s core c dy ws) := by
  unfold bwGroups
  try dsimp -proj only []
  repeat' first
    | with_reducible exact ‹Moves _ _ _›
    | with_reducible exact Sub.trans (by decide) hA
    | with_reducible apply formRegion_moves
    | with_reducible refine Runs.next ?_
    | with_reducible refine ite_moves (fun _ => ?_) (fun _ => ?_)
    | split

theorem bForm_moves {A : Nat} {s0 : State} (sideWait : Nat) (s : State) (core : Nat) (c : Cur) (ws : Nat → List Nat) (hM : Moves A s0 s) (hA : Sub 20769199524606580053980951230055362 A) : Moves A s0 (bForm sideWait s core c ws).st := by
  unfold bForm
  try dsimp -proj only []
  repeat' first
    | with_reducible exact ‹Moves _ _ _›
    | with_reducible exact Sub.trans (by decide) hA
    | with_reducible apply raise_moves
    | with_reducible apply bump_moves
    | with_reducible apply skewFault_moves
    | with_reducible apply bxGroups_moves
    | with_reducible apply bwGroups_moves
    | with_reducible apply bOutput_moves
    | with_reducible exact page_sparseMetaErrors _
    | with_reducible refine Runs.next ?_
    | with_reducible refine ite_moves (fun _ => ?_) (fun _ => ?_)
    | with_reducible refine ite_moves (fun _ => ?_) (fun _ => ?_)
    | with_reducible refine stop_moves ?_
    | with_reducible refine ite_formed (fun _ => ?_) (fun _ => ?_)
    | split
    | dsimp -zeta only []

theorem bxKind_moves {A : Nat} (sideWait : Nat) (hA : Sub 20769199524606580053980951230055362 A) : (bxKind sideWait).Moves A :=
  fun _ _ _ _ ws h => bForm_moves _ _ _ _ ws h (Sub.trans (by decide) hA)

theorem bwKind_moves {A : Nat} (hA : Sub 20769199524606580053980951230055362 A) : (bwKind).Moves A :=
  fun _ _ _ _ ws h => bForm_moves _ _ _ _ ws h (Sub.trans (by decide) hA)

theorem pairKind_moves {A : Nat} (sideWait : Nat) (hA : Sub 20769199524606580053980951230055362 A) : (pairKind sideWait).Moves A :=
  fun _ _ _ _ ws h => bForm_moves _ _ _ _ ws h (Sub.trans (by decide) hA)

end Sys2Proof.Machine
end

