-- ==== Sys2Proof/Laws/Net.lean ====
section
/-! SUPPORT. What the operations of Machine/Net.lean change at most, each one's lemma. -/

namespace Sys2Proof.Machine

theorem State_setQpFld_moves {A : Nat} {s0 : State} (s : State) (i : Nat) (off : Nat) (size : Nat) (v : Nat) (hM : Moves A s0 s) (hA : Sub 356811923176489970264571492362373784095686656 A) : Moves A s0 (State.setQpFld s i off size v) := by
  unfold State.setQpFld
  try dsimp -proj only []
  repeat' first
    | with_reducible exact ‹Moves _ _ _›
    | with_reducible exact Sub.trans (by decide) hA
    | with_reducible apply setReg_moves
    | with_reducible exact page_roceQp
    | with_reducible exact page_ofUnit _ page_roceQp
    | with_reducible refine Runs.next ?_
    | with_reducible refine ite_moves (fun _ => ?_) (fun _ => ?_)
    | split

theorem State_modQp_moves {A : Nat} {s0 : State} (s : State) (i : Nat) (f : Qp → Qp) (hM : Moves A s0 s) (hA : Sub 1048576 A) : Moves A s0 (State.modQp s i f) := by
  unfold State.modQp
  try dsimp -proj only []
  repeat' first
    | with_reducible exact ‹Moves _ _ _›
    | with_reducible exact Sub.trans (by decide) hA
    | with_reducible apply withNet_moves
    | with_reducible refine Runs.next ?_
    | with_reducible refine ite_moves (fun _ => ?_) (fun _ => ?_)
    | split

theorem State_modEth_moves {A : Nat} {s0 : State} (s : State) (p : Nat) (f : EthPort → EthPort) (hM : Moves A s0 s) (hA : Sub 1048576 A) : Moves A s0 (State.modEth s p f) := by
  unfold State.modEth
  try dsimp -proj only []
  repeat' first
    | with_reducible exact ‹Moves _ _ _›
    | with_reducible exact Sub.trans (by decide) hA
    | with_reducible apply withNet_moves
    | with_reducible refine Runs.next ?_
    | with_reducible refine ite_moves (fun _ => ?_) (fun _ => ?_)
    | split

theorem rxFrame_moves {A : Nat} {s0 : State} (s : State) (p : Nat) (hM : Moves A s0 s) (hA : Sub 89202980794122492566142873090593446023921664 A) : Moves A s0 (rxFrame s p) := by
  unfold rxFrame
  try dsimp -proj only []
  repeat' first
    | with_reducible exact ‹Moves _ _ _›
    | with_reducible exact Sub.trans (by decide) hA
    | with_reducible apply bump_moves
    | with_reducible exact page_ethPRxFrames _
    | with_reducible refine Runs.next ?_
    | with_reducible refine ite_moves (fun _ => ?_) (fun _ => ?_)
    | split

theorem dropFrame_moves {A : Nat} {s0 : State} (s : State) (p : Nat) (hM : Moves A s0 s) (hA : Sub 89202980794122492566142873090593446023921664 A) : Moves A s0 (dropFrame s p) := by
  unfold dropFrame
  try dsimp -proj only []
  repeat' first
    | with_reducible exact ‹Moves _ _ _›
    | with_reducible exact Sub.trans (by decide) hA
    | with_reducible apply bump_moves
    | with_reducible exact page_ethPDrops _
    | with_reducible refine Runs.next ?_
    | with_reducible refine ite_moves (fun _ => ?_) (fun _ => ?_)
    | split

theorem txFrame_moves {A : Nat} {s0 : State} (s : State) (p : Nat) (o : Out) (hM : Moves A s0 s) (hA : Sub 89202980794122492566142873090593446023921666 A) : Moves A s0 (txFrame s p o) := by
  unfold txFrame
  try dsimp -proj only []
  repeat' first
    | with_reducible exact ‹Moves _ _ _›
    | with_reducible exact Sub.trans (by decide) hA
    | with_reducible apply bump_moves
    | with_reducible apply State_emit_moves
    | with_reducible exact page_ethPTxFrames _
    | with_reducible refine Runs.next ?_
    | with_reducible refine ite_moves (fun _ => ?_) (fun _ => ?_)
    | split

theorem roceEmit_moves {A : Nat} {s0 : State} (s : State) (port : Nat) (o : Out) (hM : Moves A s0 s) (hA : Sub 89202980794122492566142873090593446024970242 A) : Moves A s0 (roceEmit s port o) := by
  unfold roceEmit
  try dsimp -proj only []
  repeat' first
    | with_reducible exact ‹Moves _ _ _›
    | with_reducible exact Sub.trans (by decide) hA
    | with_reducible apply State_modEth_moves
    | with_reducible apply txFrame_moves
    | with_reducible refine Runs.next ?_
    | with_reducible refine ite_moves (fun _ => ?_) (fun _ => ?_)
    | split

theorem endPauses_moves {A : Nat} {s0 : State} (s : State) (hM : Moves A s0 s) (hA : Sub 89202980794122492566142873090593446024970242 A) : Moves A s0 (endPauses s) := by
  unfold endPauses
  try dsimp -proj only []
  repeat' first
    | with_reducible exact ‹Moves _ _ _›
    | with_reducible exact Sub.trans (by decide) hA
    | with_reducible refine forAll_moves _ _ ?_ fun _ _ _ => ?_
    | with_reducible apply txFrame_moves
    | with_reducible apply State_modEth_moves
    | with_reducible refine Runs.next ?_
    | with_reducible refine ite_moves (fun _ => ?_) (fun _ => ?_)
    | split

theorem qpSend_moves {A : Nat} {s0 : State} (s : State) (i : Nat) (r : RdmaReq) (hM : Moves A s0 s) (hA : Sub 89202980794122492566142873090593446024970242 A) : Moves A s0 (qpSend s i r) := by
  unfold qpSend
  try dsimp -proj only []
  repeat' first
    | with_reducible exact ‹Moves _ _ _›
    | with_reducible exact Sub.trans (by decide) hA
    | with_reducible apply State_modQp_moves
    | with_reducible apply roceEmit_moves
    | with_reducible refine Runs.next ?_
    | with_reducible refine ite_moves (fun _ => ?_) (fun _ => ?_)
    | split

theorem qpResend_moves {A : Nat} {s0 : State} (s : State) (i : Nat) (hM : Moves A s0 s) (hA : Sub 89202980794122492566142873090593446024970242 A) : Moves A s0 (qpResend s i) := by
  unfold qpResend
  try dsimp -proj only []
  repeat' first
    | with_reducible exact ‹Moves _ _ _›
    | with_reducible exact Sub.trans (by decide) hA
    | with_reducible refine forAll_moves _ _ ?_ fun _ _ _ => ?_
    | with_reducible apply roceEmit_moves
    | with_reducible refine Runs.next ?_
    | with_reducible refine ite_moves (fun _ => ?_) (fun _ => ?_)
    | split

theorem qpError_moves {A : Nat} {s0 : State} (s : State) (i : Nat) (hM : Moves A s0 s) (hA : Sub 356811923176489970264571639936326373773443970 A) : Moves A s0 (qpError s i) := by
  unfold qpError
  try dsimp -proj only []
  repeat' first
    | with_reducible exact ‹Moves _ _ _›
    | with_reducible exact Sub.trans (by decide) hA
    | with_reducible apply State_setQpFld_moves
    | with_reducible apply State_modQp_moves
    | with_reducible apply raise_moves
    | with_reducible apply bump_moves
    | with_reducible exact page_roceErrQps
    | with_reducible refine Runs.next ?_
    | with_reducible refine ite_moves (fun _ => ?_) (fun _ => ?_)
    | split

theorem State_modChan_moves {A : Nat} {s0 : State} (s : State) (k : Nat) (f : Chan → Chan) (hM : Moves A s0 s) (hA : Sub 1048576 A) : Moves A s0 (State.modChan s k f) := by
  unfold State.modChan
  try dsimp -proj only []
  repeat' first
    | with_reducible exact ‹Moves _ _ _›
    | with_reducible exact Sub.trans (by decide) hA
    | with_reducible apply withNet_moves
    | with_reducible refine Runs.next ?_
    | with_reducible refine ite_moves (fun _ => ?_) (fun _ => ?_)
    | split

theorem State_setPending_moves {A : Nat} {s0 : State} (s : State) (ep : Nat) (v : Nat) (hM : Moves A s0 s) (hA : Sub 75325220824640169166029473078491996993228265333568415203328 A) : Moves A s0 (State.setPending s ep v) := by
  unfold State.setPending
  try dsimp -proj only []
  repeat' first
    | with_reducible exact ‹Moves _ _ _›
    | with_reducible exact Sub.trans (by decide) hA
    | with_reducible apply setReg_moves
    | with_reducible apply withNet_moves
    | with_reducible exact page_mbxMcDbPending
    | with_reducible exact page_mbxSqDbPending _
    | with_reducible refine Runs.next ?_
    | with_reducible refine ite_moves (fun _ => ?_) (fun _ => ?_)
    | split

theorem ring_moves {A : Nat} {s0 : State} (s : State) (ep : Nat) (bit : Nat) (hM : Moves A s0 s) (hA : Sub 75325220824640169166029473078491996993228265333568415203330 A) : Moves A s0 (ring s ep bit) := by
  unfold ring
  try dsimp -proj only []
  repeat' first
    | with_reducible exact ‹Moves _ _ _›
    | with_reducible exact Sub.trans (by decide) hA
    | with_reducible apply State_setPending_moves
    | with_reducible apply State_emit_moves
    | with_reducible refine Runs.next ?_
    | with_reducible refine ite_moves (fun _ => ?_) (fun _ => ?_)
    | split

theorem sendHost_moves {A : Nat} {s0 : State} (s : State) (e : Nat) (sender : Nat) (secure : Bool) (bytes : List Byte) (hM : Moves A s0 s) (hA : Sub 75325220824640258369010267200984563136101355927014439124994 A) : Moves A s0 (sendHost s e sender secure bytes) := by
  unfold sendHost
  try dsimp -proj only []
  repeat' first
    | with_reducible exact ‹Moves _ _ _›
    | with_reducible exact Sub.trans (by decide) hA
    | with_reducible apply secure_moves
    | with_reducible apply State_modChan_moves
    | with_reducible apply qpSend_moves
    | with_reducible apply ring_moves
    | with_reducible exact page_mbxEpHostAddr _
    | with_reducible exact page_mbxEpHostRkey _
    | with_reducible exact page_mbxEpQp _
    | with_reducible refine Runs.next ?_
    | with_reducible refine ite_moves (fun _ => ?_) (fun _ => ?_)
    | split

theorem seqSend_moves {A : Nat} {s0 : State} (s : State) (cl : Nat) (e : Nat) (bytes : List Byte) (hM : Moves A s0 s) (hA : Sub 81602322560026939132846056624192229552351285324068150346626 A) : Moves A s0 (seqSend s cl e bytes) := by
  unfold seqSend
  try dsimp -proj only []
  repeat' first
    | with_reducible exact ‹Moves _ _ _›
    | with_reducible exact Sub.trans (by decide) hA
    | with_reducible apply raise_moves
    | with_reducible apply bump_moves
    | with_reducible apply sendHost_moves
    | with_reducible exact page_mbxRkey
    | with_reducible exact page_mbxEpQp _
    | with_reducible exact page_mbxDropped
    | with_reducible refine Runs.next ?_
    | with_reducible refine ite_moves (fun _ => ?_) (fun _ => ?_)
    | split

theorem stepDone_moves {A : Nat} {s0 : State} (s : State) (step : Nat) (health : Nat) (outcome : Nat) (hM : Moves A s0 s) (hA : Sub 81602322560026939132846056624192229552351285324068150346626 A) : Moves A s0 (stepDone s step health outcome) := by
  unfold stepDone
  try dsimp -proj only []
  repeat' first
    | with_reducible exact ‹Moves _ _ _›
    | with_reducible exact Sub.trans (by decide) hA
    | with_reducible apply step_moves
    | with_reducible refine forAll_moves _ _ ?_ fun _ _ _ => ?_
    | with_reducible apply seqSend_moves
    | with_reducible exact page_mbxNotifyDb
    | with_reducible exact page_mbxNotifyMask
    | with_reducible refine Runs.next ?_
    | with_reducible refine ite_moves (fun _ => ?_) (fun _ => ?_)
    | split

end Sys2Proof.Machine
end

