-- ==== Sys2Proof/Laws/Ports.lean ====
section
/-! SUPPORT. What the operations of Machine/Ports.lean change at most, each one's lemma. -/

namespace Sys2Proof.Machine

theorem modPtp_moves {A : Nat} {s0 : State} (s : State) (f : PtpState → PtpState) (hM : Moves A s0 s) (hA : Sub 1048576 A) : Moves A s0 (modPtp s f) := by
  unfold modPtp
  try dsimp -proj only []
  repeat' first
    | with_reducible exact ‹Moves _ _ _›
    | with_reducible exact Sub.trans (by decide) hA
    | with_reducible apply withNet_moves
    | with_reducible refine Runs.next ?_
    | with_reducible refine ite_moves (fun _ => ?_) (fun _ => ?_)
    | split

theorem ptpChoose_moves {A : Nat} {s0 : State} (s : State) (hM : Moves A s0 s) (hA : Sub 178405961588244985132285893755139481725600642 A) : Moves A s0 (ptpChoose s) := by
  unfold ptpChoose
  try dsimp -proj only []
  repeat' first
    | with_reducible exact ‹Moves _ _ _›
    | with_reducible exact Sub.trans (by decide) hA
    | with_reducible apply setReg_moves
    | with_reducible apply modPtp_moves
    | with_reducible apply raise_moves
    | with_reducible refine foldl_moves _ _ ?_ fun _ _ _ => ?_
    | with_reducible exact page_ptpServer
    | with_reducible exact page_ptpPort
    | with_reducible refine Runs.next ?_
    | with_reducible refine ite_moves (fun _ => ?_) (fun _ => ?_)
    | split

theorem ptpPortGone_moves {A : Nat} {s0 : State} (s : State) (port : Nat) (hM : Moves A s0 s) (hA : Sub 178405961588244985132285893755139481725600642 A) : Moves A s0 (ptpPortGone s port) := by
  unfold ptpPortGone
  try dsimp -proj only []
  repeat' first
    | with_reducible exact ‹Moves _ _ _›
    | with_reducible exact Sub.trans (by decide) hA
    | with_reducible apply ptpChoose_moves
    | with_reducible apply modPtp_moves
    | with_reducible refine Runs.next ?_
    | with_reducible refine ite_moves (fun _ => ?_) (fun _ => ?_)
    | split

theorem setDrain_moves {A : Nat} {s0 : State} (s : State) (t : Nat) (v : Nat) (hM : Moves A s0 s) (hA : Sub 2923003274661805836407369665432566039311865085952 A) : Moves A s0 (setDrain s t v) := by
  unfold setDrain
  try dsimp -proj only []
  repeat' first
    | with_reducible exact ‹Moves _ _ _›
    | with_reducible exact Sub.trans (by decide) hA
    | with_reducible apply setReg_moves
    | with_reducible exact page_ckptDrainState
    | with_reducible refine Runs.next ?_
    | with_reducible refine ite_moves (fun _ => ?_) (fun _ => ?_)
    | split

theorem drainEnd_moves {A : Nat} {s0 : State} (s : State) (hM : Moves A s0 s) (hA : Sub 2923003274661805836407369665432566039311865085952 A) : Moves A s0 (drainEnd s) := by
  unfold drainEnd
  try dsimp -proj only []
  repeat' first
    | with_reducible exact ‹Moves _ _ _›
    | with_reducible exact Sub.trans (by decide) hA
    | with_reducible apply setReg_moves
    | with_reducible exact page_ckptState
    | with_reducible refine Runs.next ?_
    | with_reducible refine ite_moves (fun _ => ?_) (fun _ => ?_)
    | split

theorem drainFail_moves {A : Nat} {s0 : State} (s : State) (t : Nat) (hM : Moves A s0 s) (hA : Sub 2923003274661805836407369665580139991901541794690 A) : Moves A s0 (drainFail s t) := by
  unfold drainFail
  try dsimp -proj only []
  repeat' first
    | with_reducible exact ‹Moves _ _ _›
    | with_reducible exact Sub.trans (by decide) hA
    | with_reducible apply drainEnd_moves
    | with_reducible apply raise_moves
    | with_reducible apply setDrain_moves
    | with_reducible refine Runs.next ?_
    | with_reducible refine ite_moves (fun _ => ?_) (fun _ => ?_)
    | split

theorem usersFail_moves {A : Nat} {s0 : State} (s : State) (i : Nat) (hM : Moves A s0 s) (hA : Sub 2923003274661805836407369665580139991901543891842 A) : Moves A s0 (usersFail s i) := by
  unfold usersFail
  try dsimp -proj only []
  repeat' first
    | with_reducible exact ‹Moves _ _ _›
    | with_reducible exact Sub.trans (by decide) hA
    | with_reducible apply drainFail_moves
    | with_reducible apply withCkpt_moves
    | with_reducible exact page_ckptPartnerQp
    | with_reducible exact page_ckptServeQp
    | with_reducible refine Runs.next ?_
    | with_reducible refine ite_moves (fun _ => ?_) (fun _ => ?_)
    | split

theorem qpFail_moves {A : Nat} {s0 : State} (s : State) (i : Nat) (hM : Moves A s0 s) (hA : Sub 2923360086584982326377634237072502365685640627074 A) : Moves A s0 (qpFail s i) := by
  unfold qpFail
  try dsimp -proj only []
  repeat' first
    | with_reducible exact ‹Moves _ _ _›
    | with_reducible exact Sub.trans (by decide) hA
    | with_reducible apply usersFail_moves
    | with_reducible apply qpError_moves
    | with_reducible refine Runs.next ?_
    | with_reducible refine ite_moves (fun _ => ?_) (fun _ => ?_)
    | split

theorem qpMove_moves {A : Nat} {s0 : State} (s : State) (i : Nat) (hM : Moves A s0 s) (hA : Sub 446014903970612462830714365452967230120656898 A) : Moves A s0 (qpMove s i) := by
  unfold qpMove
  try dsimp -proj only []
  repeat' first
    | with_reducible exact ‹Moves _ _ _›
    | with_reducible exact Sub.trans (by decide) hA
    | with_reducible apply qpResend_moves
    | with_reducible apply State_setQpFld_moves
    | with_reducible refine Runs.next ?_
    | with_reducible refine ite_moves (fun _ => ?_) (fun _ => ?_)
    | split

theorem qpsMove_moves {A : Nat} {s0 : State} (s : State) (net : Nat) (hM : Moves A s0 s) (hA : Sub 446014903970612462830714365452967230120656898 A) : Moves A s0 (qpsMove s net) := by
  unfold qpsMove
  try dsimp -proj only []
  repeat' first
    | with_reducible exact ‹Moves _ _ _›
    | with_reducible exact Sub.trans (by decide) hA
    | with_reducible refine forAll_moves _ _ ?_ fun _ _ _ => ?_
    | with_reducible apply qpMove_moves
    | with_reducible refine Runs.next ?_
    | with_reducible refine ite_moves (fun _ => ?_) (fun _ => ?_)
    | split

theorem ethState_moves {A : Nat} {s0 : State} (s : State) (p : Nat) (code : Nat) (hM : Moves A s0 s) (hA : Sub 89202980794122492566142873090593446024970240 A) : Moves A s0 (ethState s p code) := by
  unfold ethState
  try dsimp -proj only []
  repeat' first
    | with_reducible exact ‹Moves _ _ _›
    | with_reducible exact Sub.trans (by decide) hA
    | with_reducible apply State_modEth_moves
    | with_reducible apply setReg_moves
    | with_reducible exact page_ethPState _
    | with_reducible refine Runs.next ?_
    | with_reducible refine ite_moves (fun _ => ?_) (fun _ => ?_)
    | split

theorem ethLeave_moves {A : Nat} {s0 : State} (s : State) (p : Nat) (code : Nat) (hM : Moves A s0 s) (hA : Sub 2923627695527364693855332665691774146023712392066 A) : Moves A s0 (ethLeave s p code) := by
  unfold ethLeave
  try dsimp -proj only []
  repeat' first
    | with_reducible exact ‹Moves _ _ _›
    | with_reducible exact Sub.trans (by decide) hA
    | with_reducible apply ethState_moves
    | with_reducible apply ptpPortGone_moves
    | with_reducible apply bump_moves
    | with_reducible refine forAll_moves _ _ ?_ fun _ _ _ => ?_
    | with_reducible apply qpFail_moves
    | with_reducible apply raise_moves
    | with_reducible apply qpsMove_moves
    | with_reducible exact page_ethPLinkDowns _
    | with_reducible refine Runs.next ?_
    | with_reducible refine ite_moves (fun _ => ?_) (fun _ => ?_)
    | split

theorem ethEnter_moves {A : Nat} {s0 : State} (s : State) (p : Nat) (hM : Moves A s0 s) (hA : Sub 446014903970612462830714513026919819797365634 A) : Moves A s0 (ethEnter s p) := by
  unfold ethEnter
  try dsimp -proj only []
  repeat' first
    | with_reducible exact ‹Moves _ _ _›
    | with_reducible exact Sub.trans (by decide) hA
    | with_reducible apply qpsMove_moves
    | with_reducible apply raise_moves
    | with_reducible apply setReg_moves
    | with_reducible exact page_ethPState _
    | with_reducible refine Runs.next ?_
    | with_reducible refine ite_moves (fun _ => ?_) (fun _ => ?_)
    | split

end Sys2Proof.Machine
end

