-- ==== Sys2Proof/Laws/Retire.lean ====
section
/-! SUPPORT. What the operations of Machine/Retire.lean change at most, each one's lemma. -/

namespace Sys2Proof.Machine

theorem State_addHold_moves {A : Nat} {s0 : State} (s : State) (h : Hold) (hM : Moves A s0 s) (hA : Sub 16777216 A) : Moves A s0 (State.addHold s h) := by
  unfold State.addHold
  try dsimp -proj only []
  repeat' first
    | with_reducible exact ‹Moves _ _ _›
    | with_reducible exact Sub.trans (by decide) hA
    | with_reducible apply withHolds_moves
    | with_reducible refine Runs.next ?_
    | with_reducible refine ite_moves (fun _ => ?_) (fun _ => ?_)
    | split

theorem State_dropHold_moves {A : Nat} {s0 : State} (s : State) (h : Hold) (hM : Moves A s0 s) (hA : Sub 16777216 A) : Moves A s0 (State.dropHold s h) := by
  unfold State.dropHold
  try dsimp -proj only []
  repeat' first
    | with_reducible exact ‹Moves _ _ _›
    | with_reducible exact Sub.trans (by decide) hA
    | with_reducible apply withHolds_moves
    | with_reducible refine Runs.next ?_
    | with_reducible refine ite_moves (fun _ => ?_) (fun _ => ?_)
    | split

theorem memRetireWrite_moves {A : Nat} {s0 : State} (v : Nat) (s : State) (hM : Moves A s0 s) (hA : Sub 340282366920938463610948560021444928386 A) : Moves A s0 (memRetireWrite v s).st := by
  unfold memRetireWrite
  try dsimp -proj only []
  repeat' first
    | with_reducible exact ‹Moves _ _ _›
    | with_reducible exact Sub.trans (by decide) hA
    | with_reducible apply Ans_refuse_moves
    | with_reducible apply retireRequest_moves
    | with_reducible apply Ans_ok_moves
    | with_reducible refine Runs.next ?_
    | with_reducible refine ite_ans (fun _ => ?_) (fun _ => ?_)
    | with_reducible refine ite_moves (fun _ => ?_) (fun _ => ?_)
    | split
    | dsimp only []

theorem rebuilt_moves {A : Nat} {m0 : MemState} (m : MemState) (die pool : Nat) (retired bad : List Nat) (hM : MMoves A m0 m) (hA : Sub 6144 A) :
    MMoves A m0 (rebuilt m die pool retired bad) := by
  have h1 : ∀ m : MemState, MMoves A m0 m → MMoves A m0 (bad.foldl setPoison m) := by
    clear hM
    induction bad with
    | nil => exact fun m h => h
    | cons b bs ih => exact fun m h => ih _ (setPoison_moves _ h (Sub.trans (by decide) hA))
  exact (h1 m hM).trans hA ⟨fun hc => absurd hc (by decide), fun hc => absurd hc (by decide), fun _ => rfl,
    fun hw => ⟨(hw.1.filter _).setMany _, (hw.2.filter _).setMany _⟩⟩

end Sys2Proof.Machine
end

