-- ==== Sys2Proof/Laws/Power.lean ====
section
/-! SUPPORT. What the operations of Machine/Power.lean change at most, each one's lemma. -/

namespace Sys2Proof.Machine

theorem refreshBias_moves {A : Nat} {s0 : State} (s : State) (id : Nat) (hM : Moves A s0 s) (hA : Sub 131072 A) : Moves A s0 (refreshBias s id) := by
  unfold refreshBias
  try dsimp -proj only []
  repeat' first
    | with_reducible exact ‹Moves _ _ _›
    | with_reducible exact Sub.trans (by decide) hA
    | with_reducible apply setBias_moves
    | with_reducible exact page_pwrDomVolt
    | with_reducible exact page_ofUnit _ page_pwrDomVolt
    | with_reducible refine Runs.next ?_
    | with_reducible refine ite_moves (fun _ => ?_) (fun _ => ?_)
    | split

theorem refreshFreq_moves {A : Nat} {s0 : State} (s : State) (id : Nat) (hM : Moves A s0 s) (hA : Sub 36893488147419234304 A) : Moves A s0 (refreshFreq s id) := by
  unfold refreshFreq
  try dsimp -proj only []
  repeat' first
    | with_reducible exact ‹Moves _ _ _›
    | with_reducible exact Sub.trans (by decide) hA
    | with_reducible apply refreshBias_moves
    | with_reducible apply setReg_moves
    | with_reducible exact page_pwrDomVolt
    | with_reducible exact page_ofUnit _ page_pwrDomVolt
    | with_reducible exact page_pwrDomFreq
    | with_reducible exact page_ofUnit _ page_pwrDomFreq
    | with_reducible refine Runs.next ?_
    | with_reducible refine ite_moves (fun _ => ?_) (fun _ => ?_)
    | split

theorem refreshFollowers_moves {A : Nat} {s0 : State} (s : State) (id : Nat) (hM : Moves A s0 s) (hA : Sub 36893488147419234304 A) : Moves A s0 (refreshFollowers s id) := by
  unfold refreshFollowers
  try dsimp -proj only []
  repeat' first
    | with_reducible exact ‹Moves _ _ _›
    | with_reducible exact Sub.trans (by decide) hA
    | with_reducible refine forAll_moves _ _ ?_ fun _ _ _ => ?_
    | with_reducible apply refreshFreq_moves
    | with_reducible refine Runs.next ?_
    | with_reducible refine ite_moves (fun _ => ?_) (fun _ => ?_)
    | split

theorem refreshAll_moves {A : Nat} {s0 : State} (s : State) (hM : Moves A s0 s) (hA : Sub 36893488147419234304 A) : Moves A s0 (refreshAll s) := by
  unfold refreshAll
  try dsimp -proj only []
  repeat' first
    | with_reducible exact ‹Moves _ _ _›
    | with_reducible exact Sub.trans (by decide) hA
    | with_reducible refine forAll_moves _ _ ?_ fun _ _ _ => ?_
    | with_reducible apply refreshFreq_moves
    | with_reducible refine Runs.next ?_
    | with_reducible refine ite_moves (fun _ => ?_) (fun _ => ?_)
    | split

theorem loseMemory_moves {A : Nat} {s0 : State} (s : State) (id : Nat) (hM : Moves A s0 s) (hA : Sub 14336 A) : Moves A s0 (loseMemory s id) := by
  unfold loseMemory
  try dsimp -proj only []
  repeat' first
    | with_reducible exact ‹Moves _ _ _›
    | with_reducible exact ‹MMoves _ _ _›
    | with_reducible exact Sub.trans (by decide) hA
    | with_reducible refine withMem_moves ?_ ?_
    | refine MMoves.filtered _ _ ?_ ?_
    | with_reducible exact MMoves.refl _ _
    | exact mem_rest rfl rfl (Sub.trans (by decide) hA)
    | with_reducible refine Runs.next ?_
    | with_reducible refine ite_moves (fun _ => ?_) (fun _ => ?_)
    | split

theorem linkGone_moves {A : Nat} {s0 : State} (s : State) (p : Nat) (code : Nat) (hM : Moves A s0 s) (hA : Sub 44601490397061246283071436545296723012485120 A) : Moves A s0 (linkGone s p code) := by
  unfold linkGone
  try dsimp -proj only []
  repeat' first
    | with_reducible exact ‹Moves _ _ _›
    | with_reducible exact Sub.trans (by decide) hA
    | with_reducible apply withRill_moves
    | with_reducible apply setReg_moves
    | with_reducible exact page_rillPState _
    | with_reducible exact page_rillPLanes _
    | with_reducible exact page_rillPNbr _
    | with_reducible exact page_rillPNbrOk _
    | with_reducible refine Runs.next ?_
    | with_reducible refine ite_moves (fun _ => ?_) (fun _ => ?_)
    | split

theorem loseContents_moves {A : Nat} {s0 : State} (s : State) (id : Nat) (hM : Moves A s0 s) (hA : Sub 2923672297017761755101615737128319442746724891586 A) : Moves A s0 (loseContents s id) := by
  unfold loseContents
  try dsimp -proj only []
  repeat' first
    | with_reducible exact ‹Moves _ _ _›
    | with_reducible exact Sub.trans (by decide) hA
    | with_reducible apply modCore_moves
    | with_reducible apply modCluster_moves
    | with_reducible apply loseMemory_moves
    | with_reducible apply linkGone_moves
    | with_reducible apply ethLeave_moves
    | with_reducible refine Runs.next ?_
    | with_reducible refine ite_moves (fun _ => ?_) (fun _ => ?_)
    | split

theorem enterOn_moves {A : Nat} {s0 : State} (s : State) (id : Nat) (hM : Moves A s0 s) (hA : Sub 133804471191183738849214346529378316455116800 A) : Moves A s0 (enterOn s id) := by
  unfold enterOn
  try dsimp -proj only []
  repeat' first
    | with_reducible exact ‹Moves _ _ _›
    | with_reducible exact Sub.trans (by decide) hA
    | with_reducible apply setReg_moves
    | with_reducible apply refreshFreq_moves
    | with_reducible exact page_pwrDomVolt
    | with_reducible exact page_ofUnit _ page_pwrDomVolt
    | with_reducible exact page_rillPState _
    | with_reducible exact page_ethPState _
    | with_reducible exact page_ethPEnable _
    | with_reducible refine Runs.next ?_
    | with_reducible refine ite_moves (fun _ => ?_) (fun _ => ?_)
    | split

theorem leftOn_moves {A : Nat} {s0 : State} (s : State) (id : Nat) (v : Nat) (hM : Moves A s0 s) (hA : Sub 36893488147419234304 A) : Moves A s0 (leftOn s id v) := by
  unfold leftOn
  try dsimp -proj only []
  repeat' first
    | with_reducible exact ‹Moves _ _ _›
    | with_reducible exact Sub.trans (by decide) hA
    | with_reducible apply setReg_moves
    | with_reducible apply setBias_moves
    | with_reducible apply unpowered_moves
    | with_reducible exact page_pwrDomFreq
    | with_reducible exact page_ofUnit _ page_pwrDomFreq
    | with_reducible exact page_pwrDomVolt
    | with_reducible exact page_ofUnit _ page_pwrDomVolt
    | with_reducible refine Runs.next ?_
    | with_reducible refine ite_moves (fun _ => ?_) (fun _ => ?_)
    | split

theorem domArrive_moves {A : Nat} {s0 : State} (s : State) (id : Nat) (v : Nat) (hM : Moves A s0 s) (hA : Sub 2923672297017761755101615737165212930894144125890 A) : Moves A s0 (domArrive s id v) := by
  unfold domArrive
  try dsimp -proj only []
  repeat' first
    | with_reducible exact ‹Moves _ _ _›
    | with_reducible exact Sub.trans (by decide) hA
    | with_reducible apply State_setDom_moves
    | with_reducible apply enterOn_moves
    | with_reducible apply leftOn_moves
    | with_reducible apply loseContents_moves
    | with_reducible refine Runs.next ?_
    | with_reducible refine ite_moves (fun _ => ?_) (fun _ => ?_)
    | split

theorem domStart_moves {A : Nat} {s0 : State} (s : State) (id : Nat) (v : Nat) (hM : Moves A s0 s) (hA : Sub 36893488147419234304 A) : Moves A s0 (domStart s id v) := by
  unfold domStart
  try dsimp -proj only []
  repeat' first
    | with_reducible exact ‹Moves _ _ _›
    | with_reducible exact Sub.trans (by decide) hA
    | with_reducible apply setReg_moves
    | with_reducible apply withPower_moves
    | with_reducible apply State_setDom_moves
    | with_reducible exact page_pwrDomReq
    | with_reducible exact page_ofUnit _ page_pwrDomReq
    | with_reducible refine Runs.next ?_
    | with_reducible refine ite_moves (fun _ => ?_) (fun _ => ?_)
    | split

theorem domRequest_moves {A : Nat} {s0 : State} (s : State) (id v : Nat) (hM : Moves A s0 s) (hA : Sub 184467440737095943042 A) : Moves A s0 (domRequest s id v).2 := by
  unfold domRequest
  split
  · exact domRefuse_moves _ _ _ hM (Sub.trans (by decide) hA)
  · exact domStart_moves _ _ _ hM (Sub.trans (by decide) hA)

theorem checkHeld_moves {A : Nat} {s0 : State} (s : State) (id : Nat) (hM : Moves A s0 s) (hA : Sub 184467440737095943042 A) : Moves A s0 (checkHeld s id) := by
  unfold checkHeld
  try dsimp -proj only []
  repeat' first
    | with_reducible exact ‹Moves _ _ _›
    | with_reducible exact Sub.trans (by decide) hA
    | with_reducible apply withPower_moves
    | with_reducible apply domRequest_moves
    | with_reducible refine Runs.next ?_
    | refine snd_moves (by assumption) ?_
    | refine fst_moves (by assumption) ?_
    | with_reducible refine ite_moves (fun _ => ?_) (fun _ => ?_)
    | split

theorem domainReqWrite_moves {A : Nat} {s0 : State} (v : Nat) (s : State) (hM : Moves A s0 s) (hA : Sub 184467440737095943042 A) : Moves A s0 (domainReqWrite v s).st := by
  unfold domainReqWrite
  try dsimp -proj only []
  repeat' first
    | with_reducible exact ‹Moves _ _ _›
    | with_reducible exact Sub.trans (by decide) hA
    | with_reducible apply Ans_ok_moves
    | with_reducible apply withPower_moves
    | with_reducible apply domRequest_moves
    | with_reducible apply Ans_refuse_moves
    | with_reducible exact page_pwrDomSel
    | with_reducible refine Runs.next ?_
    | refine snd_moves (by assumption) ?_
    | refine fst_moves (by assumption) ?_
    | with_reducible refine ite_ans (fun _ => ?_) (fun _ => ?_)
    | with_reducible refine ite_moves (fun _ => ?_) (fun _ => ?_)
    | split
    | dsimp only []

theorem bootNext_moves {A : Nat} {s0 : State} (s : State) (hM : Moves A s0 s) (hA : Sub 36893488147419234304 A) : Moves A s0 (bootNext s) := by
  unfold bootNext
  try dsimp -proj only []
  repeat' first
    | with_reducible exact ‹Moves _ _ _›
    | with_reducible exact Sub.trans (by decide) hA
    | with_reducible refine forAll_moves _ _ ?_ fun _ _ _ => ?_
    | with_reducible apply domStart_moves
    | with_reducible exact page_bootStage
    | with_reducible refine Runs.next ?_
    | with_reducible refine ite_moves (fun _ => ?_) (fun _ => ?_)
    | split

theorem pstAdjust_moves {A : Nat} {s0 : State} (s : State) (t : TableRec) (id : Nat) (hM : Moves A s0 s) (hA : Sub 184467440737095943042 A) : Moves A s0 (pstAdjust s t id) := by
  unfold pstAdjust
  try dsimp -proj only []
  repeat' first
    | with_reducible exact ‹Moves _ _ _›
    | with_reducible exact Sub.trans (by decide) hA
    | with_reducible apply setReg_moves
    | with_reducible apply raise_moves
    | with_reducible apply refreshFollowers_moves
    | with_reducible exact page_pwrDomFreqReq
    | with_reducible exact page_ofUnit _ page_pwrDomFreqReq
    | with_reducible exact page_pwrDomVoltReq
    | with_reducible exact page_ofUnit _ page_pwrDomVoltReq
    | with_reducible refine Runs.next ?_
    | with_reducible refine ite_moves (fun _ => ?_) (fun _ => ?_)
    | split

theorem pstActivated_moves {A : Nat} {s0 : State} (s : State) (die : Nat) (hM : Moves A s0 s) (hA : Sub 184467440737095943042 A) : Moves A s0 (pstActivated s die) := by
  unfold pstActivated
  try dsimp -proj only []
  repeat' first
    | with_reducible exact ‹Moves _ _ _›
    | with_reducible exact Sub.trans (by decide) hA
    | with_reducible refine forAll_moves _ _ ?_ fun _ _ _ => ?_
    | with_reducible apply pstAdjust_moves
    | with_reducible refine Runs.next ?_
    | with_reducible refine ite_moves (fun _ => ?_) (fun _ => ?_)
    | split

theorem pstSettle_moves {A : Nat} {s0 : State} (s : State) (id : Nat) (hM : Moves A s0 s) (hA : Sub 184467440737095943042 A) : Moves A s0 (pstSettle s id) := by
  unfold pstSettle
  try dsimp -proj only []
  repeat' first
    | with_reducible exact ‹Moves _ _ _›
    | with_reducible exact Sub.trans (by decide) hA
    | with_reducible apply pstAdjust_moves
    | with_reducible refine Runs.next ?_
    | with_reducible refine ite_moves (fun _ => ?_) (fun _ => ?_)
    | split

theorem freqReqWrite_moves {A : Nat} {s0 : State} (f : Nat) (s : State) (hM : Moves A s0 s) (hA : Sub 184467440737095943042 A) : Moves A s0 (freqReqWrite f s).st := by
  unfold freqReqWrite
  try dsimp -proj only []
  repeat' first
    | with_reducible exact ‹Moves _ _ _›
    | with_reducible exact Sub.trans (by decide) hA
    | with_reducible apply Ans_refuse_moves
    | with_reducible apply domRefuse_moves
    | with_reducible apply Ans_ok_moves
    | with_reducible apply refreshFollowers_moves
    | with_reducible apply setReg_moves
    | with_reducible exact page_pwrDomSel
    | with_reducible exact page_ofUnit _ page_pwrDomSel
    | with_reducible exact page_pwrDomFreqReq
    | with_reducible exact page_ofUnit _ page_pwrDomFreqReq
    | with_reducible refine Runs.next ?_
    | with_reducible refine ite_ans (fun _ => ?_) (fun _ => ?_)
    | with_reducible refine ite_moves (fun _ => ?_) (fun _ => ?_)
    | split
    | dsimp only []

theorem voltReqWrite_moves {A : Nat} {s0 : State} (v : Nat) (s : State) (hM : Moves A s0 s) (hA : Sub 184467440737095811970 A) : Moves A s0 (voltReqWrite v s).st := by
  unfold voltReqWrite
  try dsimp -proj only []
  repeat' first
    | with_reducible exact ‹Moves _ _ _›
    | with_reducible exact Sub.trans (by decide) hA
    | with_reducible apply Ans_refuse_moves
    | with_reducible apply domRefuse_moves
    | with_reducible apply Ans_ok_moves
    | with_reducible apply setReg_moves
    | with_reducible exact page_pwrDomSel
    | with_reducible exact page_ofUnit _ page_pwrDomSel
    | with_reducible exact page_pwrDomVoltReq
    | with_reducible exact page_ofUnit _ page_pwrDomVoltReq
    | with_reducible refine Runs.next ?_
    | with_reducible refine ite_ans (fun _ => ?_) (fun _ => ?_)
    | with_reducible refine ite_moves (fun _ => ?_) (fun _ => ?_)
    | split
    | dsimp only []

theorem noteInput_moves {A : Nat} {s0 : State} (s : State) (mv : Nat) (hM : Moves A s0 s) (hA : Sub 18446744073709551616 A) : Moves A s0 (noteInput s mv) := by
  unfold noteInput
  try dsimp -proj only []
  repeat' first
    | with_reducible exact ‹Moves _ _ _›
    | with_reducible exact Sub.trans (by decide) hA
    | with_reducible apply setReg_moves
    | with_reducible exact page_pwrInputMv
    | with_reducible refine Runs.next ?_
    | with_reducible refine ite_moves (fun _ => ?_) (fun _ => ?_)
    | split

theorem ceilStep_moves {A : Nat} {s0 : State} (s : State) (hM : Moves A s0 s) (hA : Sub 36893488147419234304 A) : Moves A s0 (ceilStep s) := by
  unfold ceilStep
  try dsimp -proj only []
  repeat' first
    | with_reducible exact ‹Moves _ _ _›
    | with_reducible exact Sub.trans (by decide) hA
    | with_reducible apply refreshAll_moves
    | with_reducible apply withPower_moves
    | with_reducible refine Runs.next ?_
    | with_reducible refine ite_moves (fun _ => ?_) (fun _ => ?_)
    | split

theorem capStep_moves {A : Nat} {s0 : State} (s : State) (fallNow : Bool) (riseNow : Bool) (peakNow : Bool) (hM : Moves A s0 s) (hA : Sub 166020696663386260354 A) : Moves A s0 (capStep s fallNow riseNow peakNow) := by
  unfold capStep
  try dsimp -proj only []
  repeat' first
    | with_reducible exact ‹Moves _ _ _›
    | with_reducible exact Sub.trans (by decide) hA
    | with_reducible apply setReg_moves
    | with_reducible apply raise_moves
    | with_reducible exact page_pwrCapCeil
    | with_reducible refine Runs.next ?_
    | with_reducible refine ite_moves (fun _ => ?_) (fun _ => ?_)
    | split

theorem thermDie_moves {A : Nat} {s0 : State} (s : State) (d : Nat) (t : Int) (hM : Moves A s0 s) (hA : Sub 166020696663386391426 A) : Moves A s0 (thermDie s d t) := by
  unfold thermDie
  try dsimp -proj only []
  repeat' first
    | with_reducible exact ‹Moves _ _ _›
    | with_reducible exact Sub.trans (by decide) hA
    | with_reducible apply setReg_moves
    | with_reducible apply withPower_moves
    | with_reducible apply raise_moves
    | with_reducible exact page_pwrThermThrottleC
    | with_reducible exact page_pwrThermCeil _
    | with_reducible exact page_pwrTemp _
    | with_reducible refine Runs.next ?_
    | with_reducible refine ite_moves (fun _ => ?_) (fun _ => ?_)
    | split

theorem thermAll_moves {A : Nat} {s0 : State} (s : State) (ts : List Int) (hM : Moves A s0 s) (hA : Sub 202914184810805494658 A) : Moves A s0 (thermAll s ts) := by
  unfold thermAll
  try dsimp -proj only []
  repeat' first
    | with_reducible exact ‹Moves _ _ _›
    | with_reducible exact Sub.trans (by decide) hA
    | with_reducible apply refreshAll_moves
    | with_reducible refine forAll_moves _ _ ?_ fun _ _ _ => ?_
    | with_reducible apply thermDie_moves
    | with_reducible refine Runs.next ?_
    | with_reducible refine ite_moves (fun _ => ?_) (fun _ => ?_)
    | split

end Sys2Proof.Machine
end

