-- ==== Sys2Proof/Laws/Vector.lean ====
section
/-! SUPPORT. What the operations of Machine/Vector.lean change at most, each one's lemma. -/

namespace Sys2Proof.Machine

theorem vForm_moves {A : Nat} {s0 : State} (op : State → Nat → Nat → RMode → List Nat → List Nat → List (Nat × Bool) × AccFlags) (s : State) (core : Nat) (c : Cur) (ws : Nat → List Nat) (hM : Moves A s0 s) (hA : Sub 20769188073661216664213408413156290 A) : Moves A s0 (vForm op s core c ws).st := by
  unfold vForm
  try dsimp -proj only []
  repeat' first
    | with_reducible exact ‹Moves _ _ _›
    | with_reducible exact Sub.trans (by decide) hA
    | with_reducible apply skewFault_moves
    | with_reducible apply noteOperand_moves
    | with_reducible apply noteAcc_moves
    | with_reducible apply deliver_moves
    | with_reducible refine Runs.next ?_
    | refine snd_moves (by assumption) ?_
    | refine fst_moves (by assumption) ?_
    | with_reducible refine ite_moves (fun _ => ?_) (fun _ => ?_)
    | with_reducible refine ite_moves (fun _ => ?_) (fun _ => ?_)
    | with_reducible refine stop_moves ?_
    | with_reducible refine ite_formed (fun _ => ?_) (fun _ => ?_)
    | split
    | dsimp -zeta only []

theorem vKind_moves {A : Nat} (op : State → Nat → Nat → RMode → List Nat → List Nat → List (Nat × Bool) × AccFlags) (hA : Sub 20769188073661216664213408413156290 A) : (vKind op).Moves A :=
  fun _ _ _ _ ws h => vForm_moves _ _ _ _ ws h (Sub.trans (by decide) hA)

theorem runVector_moves {A : Nat} {s0 : State} (v : Nat) (op : State → Nat → Nat → RMode → List Nat → List Nat → List (Nat × Bool) × AccFlags) (core : Nat)
    (err : EntryErr) (s : State) (hM : Moves A s0 s) (hA : Sub 1461501638011488423610635038829430736415986531282 A) : Runs A s0 (runVector v op core err s) := by
  unfold runVector
  refine ite_runs (fun _ => ?_) (fun _ => Runs.next hM)
  exact runEntry_moves _ _ _ _ hM (vKind_moves _ (Sub.trans (by decide) hA)) (Sub.trans (by decide) hA)

end Sys2Proof.Machine
end

