-- ==== Sys2Proof/Laws/Spillway.lean ====
section
/-! SUPPORT. What the operations of Machine/Spillway.lean change at most, each one's lemma. -/

namespace Sys2Proof.Machine

theorem conv1Form_moves {A : Nat} {s0 : State} (s : State) (core : Nat) (c : Cur) (ws : Nat → List Nat) (hM : Moves A s0 s) (hA : Sub 20769187454691197021523270963594178 A) : Moves A s0 (conv1Form s core c ws).st := by
  unfold conv1Form
  try dsimp -proj only []
  repeat' first
    | with_reducible exact ‹Moves _ _ _›
    | with_reducible exact Sub.trans (by decide) hA
    | with_reducible apply skewFault_moves
    | with_reducible apply noteOperand_moves
    | with_reducible apply addShare_moves
    | with_reducible apply noteCnt_moves
    | with_reducible refine Runs.next ?_
    | with_reducible refine ite_moves (fun _ => ?_) (fun _ => ?_)
    | with_reducible refine ite_moves (fun _ => ?_) (fun _ => ?_)
    | with_reducible refine stop_moves ?_
    | with_reducible refine ite_formed (fun _ => ?_) (fun _ => ?_)
    | split
    | dsimp -zeta only []

theorem conv2Form_moves {A : Nat} {s0 : State} (peers : List (Nat × Scout)) (s : State) (core : Nat) (c : Cur) (ws : Nat → List Nat) (hM : Moves A s0 s) (hA : Sub 20551886507401285646713794 A) : Moves A s0 (conv2Form peers s core c ws).st := by
  unfold conv2Form
  try dsimp -proj only []
  repeat' first
    | with_reducible exact ‹Moves _ _ _›
    | with_reducible exact Sub.trans (by decide) hA
    | with_reducible apply noteQuant_moves
    | with_reducible refine Runs.next ?_
    | with_reducible refine ite_moves (fun _ => ?_) (fun _ => ?_)
    | with_reducible refine ite_moves (fun _ => ?_) (fun _ => ?_)
    | with_reducible refine stop_moves ?_
    | with_reducible refine ite_formed (fun _ => ?_) (fun _ => ?_)
    | split
    | dsimp -zeta only []

theorem conv3Form_moves {A : Nat} {s0 : State} (s : State) (core : Nat) (c : Cur) (ws : Nat → List Nat) (hM : Moves A s0 s) (hA : Sub 20769187764176206842868339688375234 A) : Moves A s0 (conv3Form s core c ws).st := by
  unfold conv3Form
  try dsimp -proj only []
  repeat' first
    | with_reducible exact ‹Moves _ _ _›
    | with_reducible exact Sub.trans (by decide) hA
    | with_reducible apply skewFault_moves
    | with_reducible apply noteOperand_moves
    | with_reducible apply noteClamp_moves
    | with_reducible apply deliver_moves
    | with_reducible apply noteLayer_moves
    | with_reducible refine Runs.next ?_
    | refine snd_moves (by assumption) ?_
    | refine fst_moves (by assumption) ?_
    | with_reducible refine ite_moves (fun _ => ?_) (fun _ => ?_)
    | with_reducible refine ite_moves (fun _ => ?_) (fun _ => ?_)
    | with_reducible refine stop_moves ?_
    | with_reducible refine ite_formed (fun _ => ?_) (fun _ => ?_)
    | split
    | dsimp -zeta only []

theorem spillForm_moves {A : Nat} {s0 : State} (s : State) (core : Nat) (c : Cur) (w3 : Nat → List Nat) (hM : Moves A s0 s) (hA : Sub 928455177037987795851051970 A) : Moves A s0 (spillForm s core c w3).st := by
  unfold spillForm
  try dsimp -proj only []
  repeat' first
    | with_reducible exact ‹Moves _ _ _›
    | with_reducible exact Sub.trans (by decide) hA
    | with_reducible apply combineRegion_moves
    | with_reducible apply State_sramWr_moves
    | with_reducible apply modCore_moves
    | with_reducible apply bump_moves
    | with_reducible exact page_bengSpills _
    | with_reducible refine Runs.next ?_
    | with_reducible refine ite_moves (fun _ => ?_) (fun _ => ?_)
    | with_reducible refine ite_moves (fun _ => ?_) (fun _ => ?_)
    | with_reducible refine stop_moves ?_
    | with_reducible refine ite_formed (fun _ => ?_) (fun _ => ?_)
    | split
    | dsimp -zeta only []

theorem reloadForm_moves {A : Nat} {s0 : State} (s : State) (core : Nat) (c : Cur) (w3 : Nat → List Nat) (hM : Moves A s0 s) (hA : Sub 2166395216323368070750176194 A) : Moves A s0 (reloadForm s core c w3).st := by
  unfold reloadForm
  try dsimp -proj only []
  repeat' first
    | with_reducible exact ‹Moves _ _ _›
    | with_reducible exact Sub.trans (by decide) hA
    | with_reducible apply raise_moves
    | with_reducible apply closeSegment_moves
    | with_reducible apply modCore_moves
    | with_reducible apply noteAcc_moves
    | with_reducible apply bump_moves
    | with_reducible refine foldl_moves _ _ ?_ fun _ _ _ => ?_
    | with_reducible exact page_bengReloads _
    | with_reducible refine Runs.next ?_
    | with_reducible refine ite_moves (fun _ => ?_) (fun _ => ?_)
    | with_reducible refine ite_moves (fun _ => ?_) (fun _ => ?_)
    | with_reducible refine stop_moves ?_
    | with_reducible refine ite_formed (fun _ => ?_) (fun _ => ?_)
    | split
    | dsimp -zeta only []

theorem convKind_moves {A : Nat} {form : State → Nat → Cur → (Nat → List Nat) → Formed} (hf : ∀ s0 s core c ws, Moves A s0 s → Moves A s0 (form s core c ws).st) : (convKind form).Moves A := hf

theorem runConv_moves {A : Nat} {s0 : State} (v : Nat) (form : State → Nat → Cur → (Nat → List Nat) → Formed) (core : Nat) (err : EntryErr) (s : State)
    (hM : Moves A s0 s) (hk : ∀ s0 s core c ws, Moves A s0 s → Moves A s0 (form s core c ws).st) (hA : Sub 1461501638011488423609995517070854597582566964178 A) : Runs A s0 (runConv v form core err s) := by
  unfold runConv
  split
  · refine ite_runs (fun _ => ?_) (fun _ => Runs.next hM)
    exact runEntry_moves _ _ _ _ hM (convKind_moves hk) (Sub.trans (by decide) hA)
  · exact Runs.next hM

end Sys2Proof.Machine
end

