-- ==== Sys2Proof/Laws/Router.lean ====
section
/-! SUPPORT. What the operations of Machine/Router.lean change at most, each one's lemma. -/

namespace Sys2Proof.Machine

theorem selectForm_moves {A : Nat} {s0 : State} (s : State) (core : Nat) (c : Cur) (ws : Nat → List Nat) (hM : Moves A s0 s) (hA : Sub 20426010795782727125512258498 A) : Moves A s0 (selectForm s core c ws).st := by
  unfold selectForm
  try dsimp -proj only []
  repeat' first
    | with_reducible exact ‹Moves _ _ _›
    | with_reducible exact Sub.trans (by decide) hA
    | with_reducible apply noteAcc_moves
    | with_reducible apply bump_moves
    | with_reducible apply raiseFirstCl_moves
    | with_reducible apply setHealth_moves
    | with_reducible refine foldl_moves _ _ ?_ fun _ _ _ => ?_
    | with_reducible exact page_routeRouted _
    | with_reducible exact page_routeSpilled _
    | with_reducible exact page_routeDropped _
    | with_reducible exact page_routeFullExperts _
    | with_reducible exact page_routeNonfinite _
    | with_reducible refine Runs.next ?_
    | with_reducible refine ite_moves (fun _ => ?_) (fun _ => ?_)
    | with_reducible refine ite_moves (fun _ => ?_) (fun _ => ?_)
    | with_reducible refine stop_moves ?_
    | with_reducible refine ite_formed (fun _ => ?_) (fun _ => ?_)
    | split
    | dsimp -zeta only []

theorem combineForm_moves {A : Nat} {s0 : State} (s : State) (core : Nat) (c : Cur) (ws : Nat → List Nat) (hM : Moves A s0 s) (hA : Sub 639521906150091423096275906 A) : Moves A s0 (combineForm s core c ws).st := by
  unfold combineForm
  try dsimp -proj only []
  repeat' first
    | with_reducible exact ‹Moves _ _ _›
    | with_reducible exact Sub.trans (by decide) hA
    | with_reducible apply noteAcc_moves
    | with_reducible apply deliver_moves
    | with_reducible refine foldl_moves _ _ ?_ fun _ _ _ => ?_
    | with_reducible refine Runs.next ?_
    | refine snd_moves (by assumption) ?_
    | refine fst_moves (by assumption) ?_
    | with_reducible refine ite_moves (fun _ => ?_) (fun _ => ?_)
    | with_reducible refine ite_moves (fun _ => ?_) (fun _ => ?_)
    | with_reducible refine stop_moves ?_
    | with_reducible refine ite_formed (fun _ => ?_) (fun _ => ?_)
    | split
    | dsimp -zeta only []

theorem deliverExact_moves {A : Nat} {s0 : State} (s : State) (core fmt b : Nat) (vals : List (XNum × Nat)) (hM : Moves A s0 s) (hA : Sub 20551886507401285646713794 A) :
    Moves A s0 (deliverExact s core fmt b vals).1 :=
  noteLayer_moves _ _ _ _ _ _ (noteCnt_moves _ _ _ _ _ _ hM (Sub.trans (by decide) hA)) (Sub.trans (by decide) hA)

theorem returnForm_moves {A : Nat} {s0 : State} (s : State) (core : Nat) (c : Cur) (ws : Nat → List Nat) (hM : Moves A s0 s) (hA : Sub 949006915971436491821056962 A) : Moves A s0 (returnForm s core c ws).st := by
  unfold returnForm
  try dsimp -proj only []
  repeat' first
    | with_reducible exact ‹Moves _ _ _›
    | with_reducible exact Sub.trans (by decide) hA
    | with_reducible apply noteClamp_moves
    | with_reducible apply noteAcc_moves
    | with_reducible apply deliverExact_moves
    | with_reducible refine foldl_moves _ _ ?_ fun _ _ _ => ?_
    | with_reducible refine Runs.next ?_
    | refine snd_moves (by assumption) ?_
    | refine fst_moves (by assumption) ?_
    | with_reducible refine ite_moves (fun _ => ?_) (fun _ => ?_)
    | with_reducible refine ite_moves (fun _ => ?_) (fun _ => ?_)
    | with_reducible refine stop_moves ?_
    | with_reducible refine ite_formed (fun _ => ?_) (fun _ => ?_)
    | split
    | dsimp -zeta only []

theorem scatterForm_moves {A : Nat} {s0 : State} (s : State) (core : Nat) (c : Cur) (ws : Nat → List Nat) (hM : Moves A s0 s) (hA : Sub 949006915971436491821056962 A) : Moves A s0 (scatterForm s core c ws).st := by
  unfold scatterForm
  try dsimp -proj only []
  repeat' first
    | with_reducible exact ‹Moves _ _ _›
    | with_reducible exact Sub.trans (by decide) hA
    | with_reducible apply noteClamp_moves
    | with_reducible apply noteAcc_moves
    | with_reducible apply deliverExact_moves
    | with_reducible refine foldl_moves _ _ ?_ fun _ _ _ => ?_
    | with_reducible refine Runs.next ?_
    | refine snd_moves (by assumption) ?_
    | refine fst_moves (by assumption) ?_
    | with_reducible refine ite_moves (fun _ => ?_) (fun _ => ?_)
    | with_reducible refine ite_moves (fun _ => ?_) (fun _ => ?_)
    | with_reducible refine stop_moves ?_
    | with_reducible refine ite_formed (fun _ => ?_) (fun _ => ?_)
    | split
    | dsimp -zeta only []

theorem runUnit_moves {A : Nat} {s0 : State} (k : EntryKind) (v : Nat) (modeAt : Nat → Nat) (core : Nat) (err : EntryErr) (s : State) (hM : Moves A s0 s)
    (hk : k.Moves A) (hA : Sub 1461501638011488423609995517070854597582566964178 A) : Runs A s0 (runUnit k v modeAt core err s) := by
  unfold runUnit
  split
  · exact ite_runs (fun _ => ite_runs (fun _ => Runs.next hM) fun _ => runEntry_moves _ _ _ _ hM hk (Sub.trans (by decide) hA)) fun _ => Runs.next hM
  · exact Runs.next hM

theorem rKind_moves {A : Nat} {form : State → Nat → Cur → (Nat → List Nat) → Formed} (hf : ∀ s0 s core c ws, Moves A s0 s → Moves A s0 (form s core c ws).st) : (rKind form).Moves A := hf

theorem runRouter_moves {A : Nat} {s0 : State} (v : Nat) (form : State → Nat → Cur → (Nat → List Nat) → Formed) (core : Nat) (err : EntryErr) (s : State)
    (hM : Moves A s0 s) (hk : ∀ s0 s core c ws, Moves A s0 s → Moves A s0 (form s core c ws).st) (hA : Sub 1461501638011488423609995517070854597582566964178 A) : Runs A s0 (runRouter v form core err s) :=
  runUnit_moves _ _ _ _ _ _ hM (rKind_moves hk) hA

end Sys2Proof.Machine
end

