-- ==== Sys2Proof/Laws/Sampling.lean ====
section
/-! SUPPORT. What the operations of Machine/Sampling.lean change at most, each one's lemma. -/

namespace Sys2Proof.Machine

theorem noteNonfinite_moves {A : Nat} {s0 : State} (s : State) (core : Nat) (hM : Moves A s0 s) (hA : Sub 147573952589676708738 A) : Moves A s0 (noteNonfinite s core) := by
  unfold noteNonfinite
  try dsimp -proj only []
  repeat' first
    | with_reducible exact ‹Moves _ _ _›
    | with_reducible exact Sub.trans (by decide) hA
    | with_reducible apply setHealth_moves
    | with_reducible apply raise_moves
    | with_reducible apply withRoll_moves
    | with_reducible apply withTrain_moves
    | with_reducible refine Runs.next ?_
    | with_reducible refine ite_moves (fun _ => ?_) (fun _ => ?_)
    | split

theorem stated_moves {A : Nat} {s0 : State} (s : State) (v : Option Nat) (hM : Moves A s0 s) (hA : Sub 4 A) : Moves A s0 (stated s v).2 := by
  unfold stated
  split
  · exact hM
  · exact draw_moves hM hA

theorem sampleSlot_moves {A : Nat} {s0 : State} (core b word : Nat) (l : List Nat) (s : State) (hM : Moves A s0 s) (hA : Sub 20769188053109477730764712443151302 A) :
    Moves A s0 (sampleSlot core b word l s).1 := by
  unfold sampleSlot
  dsimp -proj only []
  refine ite_fst (fun _ => hM) (fun _ => ?_)
  split
  · dsimp only []
    exact noteNonfinite_moves _ _ (modCluster_moves _ _ (noteAcc_moves _ _ _ _ hM (Sub.trans (by decide) hA)) (Sub.trans (by decide) hA)) (Sub.trans (by decide) hA)
  · dsimp only []
    have h : ∀ l v (f : Cluster → Cluster), Moves A s0 ((stated (noteAcc s core .other l) v).2.modCluster (clusterOf core) f) := fun l v f =>
      modCluster_moves _ _ (stated_moves _ _ (noteAcc_moves _ _ _ _ hM (Sub.trans (by decide) hA)) (Sub.trans (by decide) hA)) (Sub.trans (by decide) hA)
    exact ite_moves (fun _ => bump_moves _ _ (page_strmDrops _) (h _ _ _) (Sub.trans (by decide) hA)) fun _ => h _ _ _

theorem sampleRows_moves {A : Nat} {s0 : State} (core b : Nat) (rs : List (Nat × List Nat)) (s : State) (hM : Moves A s0 s) (hA : Sub 20769188053109477730764712443151302 A) :
    Moves A s0 (sampleRows core b rs s).1 := by
  induction rs generalizing s with
  | nil => exact hM
  | cons r rs ih => exact ih _ (sampleSlot_moves _ _ _ _ _ hM hA)

theorem sampleForm_moves {A : Nat} {s0 : State} (s : State) (core : Nat) (c : Cur) (ws : Nat → List Nat) (hM : Moves A s0 s) (hA : Sub 20769188053109477730764712443151302 A) : Moves A s0 (sampleForm s core c ws).st := by
  unfold sampleForm
  try dsimp -proj only []
  repeat' first
    | with_reducible exact ‹Moves _ _ _›
    | with_reducible exact Sub.trans (by decide) hA
    | with_reducible apply sampleRows_moves
    | with_reducible refine Runs.next ?_
    | refine snd_moves (by assumption) ?_
    | refine fst_moves (by assumption) ?_
    | with_reducible refine ite_moves (fun _ => ?_) (fun _ => ?_)
    | with_reducible refine ite_moves (fun _ => ?_) (fun _ => ?_)
    | with_reducible refine stop_moves ?_
    | with_reducible refine ite_formed (fun _ => ?_) (fun _ => ?_)
    | split
    | dsimp -zeta only []

theorem scoreRows_moves {A : Nat} {s0 : State} (core b : Nat) (rs : List (Nat × List Nat)) (s : State) (hM : Moves A s0 s) (hA : Sub 618970167216642727126270918 A) :
    Moves A s0 (scoreRows core b rs s).1 := by
  induction rs generalizing s with
  | nil => exact hM
  | cons r rs ih =>
    unfold scoreRows
    dsimp -proj only []
    refine ih _ ?_
    split
    · exact stated_moves _ _ (noteNonfinite_moves _ _ (noteAcc_moves _ _ _ _ hM (Sub.trans (by decide) hA)) (Sub.trans (by decide) hA)) (Sub.trans (by decide) hA)
    · exact stated_moves _ _ (noteAcc_moves _ _ _ _ hM (Sub.trans (by decide) hA)) (Sub.trans (by decide) hA)

theorem scoreForm_moves {A : Nat} {s0 : State} (s : State) (core : Nat) (c : Cur) (ws : Nat → List Nat) (hM : Moves A s0 s) (hA : Sub 618970167216642727126270918 A) : Moves A s0 (scoreForm s core c ws).st := by
  unfold scoreForm
  try dsimp -proj only []
  repeat' first
    | with_reducible exact ‹Moves _ _ _›
    | with_reducible exact Sub.trans (by decide) hA
    | with_reducible apply scoreRows_moves
    | with_reducible refine Runs.next ?_
    | refine snd_moves (by assumption) ?_
    | refine fst_moves (by assumption) ?_
    | with_reducible refine ite_moves (fun _ => ?_) (fun _ => ?_)
    | with_reducible refine ite_moves (fun _ => ?_) (fun _ => ?_)
    | with_reducible refine stop_moves ?_
    | with_reducible refine ite_formed (fun _ => ?_) (fun _ => ?_)
    | split
    | dsimp -zeta only []

theorem sKind_moves {A : Nat} {form : State → Nat → Cur → (Nat → List Nat) → Formed} (hf : ∀ s0 s core c ws, Moves A s0 s → Moves A s0 (form s core c ws).st) : (sKind form).Moves A := hf

theorem lutForm_moves {A : Nat} {s0 : State} (peers : List (Nat × Scout)) (s : State) (core : Nat) (c : Cur) (ws : Nat → List Nat) (hM : Moves A s0 s) (hA : Sub 20769189311601255949593683312280514 A) : Moves A s0 (lutForm peers s core c ws).st := by
  unfold lutForm
  try dsimp -proj only []
  repeat' first
    | with_reducible exact ‹Moves _ _ _›
    | with_reducible exact Sub.trans (by decide) hA
    | with_reducible apply skewFault_moves
    | with_reducible apply noteOperand_moves
    | with_reducible apply startRegion_moves
    | with_reducible apply enterRegion_moves
    | with_reducible apply modCore_moves
    | with_reducible apply combineRegion_moves
    | with_reducible apply fwdOutput_moves
    | with_reducible refine foldl_moves _ _ ?_ fun _ _ _ => ?_
    | with_reducible refine Runs.next ?_
    | with_reducible refine ite_moves (fun _ => ?_) (fun _ => ?_)
    | with_reducible refine ite_moves (fun _ => ?_) (fun _ => ?_)
    | with_reducible refine stop_moves ?_
    | with_reducible refine ite_formed (fun _ => ?_) (fun _ => ?_)
    | split
    | dsimp -zeta only []

theorem lKind_moves {A : Nat} (peers : List (Nat × Scout)) (hA : Sub 20769189311601255949593683312280514 A) : (lKind peers).Moves A :=
  fun _ _ _ _ ws h => lutForm_moves _ _ _ _ ws h (Sub.trans (by decide) hA)

end Sys2Proof.Machine
end

