-- ==== Sys2Proof/Laws/Update.lean ====
section
/-! SUPPORT. What the operations of Machine/Update.lean change at most, each one's lemma. -/

namespace Sys2Proof.Machine

theorem setUpdFlags_moves {A : Nat} {s0 : State} (s : State) (bits : Nat) (hM : Moves A s0 s) (hA : Sub 256 A) : Moves A s0 (setUpdFlags s bits) := by
  unfold setUpdFlags
  try dsimp -proj only []
  repeat' first
    | with_reducible exact ‹Moves _ _ _›
    | with_reducible exact Sub.trans (by decide) hA
    | with_reducible apply withTrain_moves
    | with_reducible refine Runs.next ?_
    | with_reducible refine ite_moves (fun _ => ?_) (fun _ => ?_)
    | split

theorem optimiserForm_moves {A : Nat} {s0 : State} (s : State) (core : Nat) (c : Cur) (ws : Nat → List Nat) (hM : Moves A s0 s) (hA : Sub 20551886507401285646713794 A) : Moves A s0 (optimiserForm s core c ws).st := by
  unfold optimiserForm
  try dsimp -proj only []
  repeat' first
    | with_reducible exact ‹Moves _ _ _›
    | with_reducible exact Sub.trans (by decide) hA
    | with_reducible apply noteBadScale_moves
    | with_reducible apply withTrain_moves
    | with_reducible apply noteQuant_moves
    | with_reducible apply setUpdFlags_moves
    | with_reducible refine Runs.next ?_
    | with_reducible refine ite_moves (fun _ => ?_) (fun _ => ?_)
    | with_reducible refine ite_moves (fun _ => ?_) (fun _ => ?_)
    | with_reducible refine stop_moves ?_
    | with_reducible refine ite_formed (fun _ => ?_) (fun _ => ?_)
    | split
    | dsimp -zeta only []

theorem narrowForm_moves {A : Nat} {s0 : State} (peers : List (Nat × Scout)) (s : State) (core : Nat) (c : Cur) (ws : Nat → List Nat) (hM : Moves A s0 s) (hA : Sub 20551886507401285646713794 A) : Moves A s0 (narrowForm peers s core c ws).st := by
  unfold narrowForm
  try dsimp -proj only []
  repeat' first
    | with_reducible exact ‹Moves _ _ _›
    | with_reducible exact Sub.trans (by decide) hA
    | with_reducible apply noteQuant_moves
    | with_reducible refine Runs.next ?_
    | with_reducible refine ite_moves (fun _ => ?_) (fun _ => ?_)
    | with_reducible refine ite_moves (fun _ => ?_) (fun _ => ?_)
    | with_reducible refine stop_moves ?_
    | with_reducible refine ite_formed (fun _ => ?_) (fun _ => ?_)
    | split
    | dsimp -zeta only []

theorem sideWeightForm_moves {A : Nat} {s0 : State} (s : State) (core : Nat) (c : Cur) (ws : Nat → List Nat) (hM : Moves A s0 s) (hA : Sub 20551886507401285646713794 A) : Moves A s0 (sideWeightForm s core c ws).st := by
  unfold sideWeightForm
  try dsimp -proj only []
  repeat' first
    | with_reducible exact ‹Moves _ _ _›
    | with_reducible exact Sub.trans (by decide) hA
    | with_reducible apply addShare_moves
    | with_reducible apply noteCnt_moves
    | with_reducible refine foldl_moves _ _ ?_ fun _ _ _ => ?_
    | with_reducible refine Runs.next ?_
    | with_reducible refine ite_moves (fun _ => ?_) (fun _ => ?_)
    | with_reducible refine ite_moves (fun _ => ?_) (fun _ => ?_)
    | with_reducible refine stop_moves ?_
    | with_reducible refine ite_formed (fun _ => ?_) (fun _ => ?_)
    | split
    | dsimp -zeta only []

theorem uKind_moves {A : Nat} {form : State → Nat → Cur → (Nat → List Nat) → Formed} (hf : ∀ s0 s core c ws, Moves A s0 s → Moves A s0 (form s core c ws).st) : (uKind form).Moves A := hf

theorem runUpdate_moves {A : Nat} {s0 : State} (v : Nat) (form : State → Nat → Cur → (Nat → List Nat) → Formed) (core : Nat) (err : EntryErr) (s : State)
    (hM : Moves A s0 s) (hk : ∀ s0 s core c ws, Moves A s0 s → Moves A s0 (form s core c ws).st) (hA : Sub 1461501638011488423609995517070854597582566964178 A) : Runs A s0 (runUpdate v form core err s) :=
  ite_runs (fun _ => Runs.next hM) (fun _ => runUnit_moves _ _ _ _ _ _ hM (uKind_moves hk) hA)

end Sys2Proof.Machine
end

