-- ==== Sys2Proof/Laws/Tables.lean ====
section
/-! SUPPORT. What the operations of Machine/Tables.lean change at most, each one's lemma. -/

namespace Sys2Proof.Machine

theorem measureTable_moves {A : Nat} {s0 : State} (s : State) (h : Nat) (digest : List Byte) (hM : Moves A s0 s) (hA : Sub 65536 A) : Moves A s0 (measureTable s h digest) := by
  unfold measureTable
  try dsimp -proj only []
  repeat' first
    | with_reducible exact ‹Moves _ _ _›
    | with_reducible exact Sub.trans (by decide) hA
    | with_reducible refine withMgt_moves ?_ (fun h => ?_) ?_
    | with_reducible refine Runs.next ?_
    | with_reducible refine ite_moves (fun _ => ?_) (fun _ => ?_)
    | split
    | exact h

theorem stageTable_moves {A : Nat} {s0 : State} (s : State) (h : Nat) (snap : SMap Nat) (hM : Moves A s0 s) (hA : Sub 147573952589676774290 A) : Moves A s0 (stageTable s h snap) := by
  unfold stageTable
  try dsimp -proj only []
  repeat' first
    | with_reducible exact ‹Moves _ _ _›
    | with_reducible exact Sub.trans (by decide) hA
    | with_reducible apply withTables_moves
    | with_reducible apply measureTable_moves
    | with_reducible apply raise_moves
    | with_reducible refine Runs.next ?_
    | with_reducible refine ite_moves (fun _ => ?_) (fun _ => ?_)
    | split

theorem refuseTable_moves {A : Nat} {s0 : State} (s : State) (code : Nat) (hM : Moves A s0 s) (hA : Sub 316912650204631302963852510082 A) : Moves A s0 (refuseTable s code) := by
  unfold refuseTable
  try dsimp -proj only []
  repeat' first
    | with_reducible exact ‹Moves _ _ _›
    | with_reducible exact Sub.trans (by decide) hA
    | with_reducible apply raise_moves
    | with_reducible apply bump_moves
    | with_reducible apply setReg_moves
    | with_reducible exact page_tblRefused
    | with_reducible exact page_tblActStatus
    | with_reducible refine Runs.next ?_
    | with_reducible refine ite_moves (fun _ => ?_) (fun _ => ?_)
    | split

theorem tblActivateWrite_moves {A : Nat} {s0 : State} (h : Nat) (s : State) (hM : Moves A s0 s) (hA : Sub 316912650204631302963852575634 A) : Moves A s0 (tblActivateWrite h s).st := by
  unfold tblActivateWrite
  try dsimp -proj only []
  repeat' first
    | with_reducible exact ‹Moves _ _ _›
    | with_reducible exact Sub.trans (by decide) hA
    | with_reducible apply Ans_refuse_moves
    | with_reducible apply setReg_moves
    | with_reducible apply Ans_ok_moves
    | with_reducible apply stageTable_moves
    | with_reducible apply refuseTable_moves
    | with_reducible exact page_tblActivate
    | with_reducible exact page_tblActStatus
    | with_reducible refine Runs.next ?_
    | with_reducible refine ite_ans (fun _ => ?_) (fun _ => ?_)
    | with_reducible refine ite_moves (fun _ => ?_) (fun _ => ?_)
    | split
    | dsimp only []

theorem emptySluices_moves {A : Nat} {s0 : State} (s : State) (core : Nat) (hM : Moves A s0 s) (hA : Sub 64 A) : Moves A s0 (emptySluices s core) := by
  unfold emptySluices
  try dsimp -proj only []
  repeat' first
    | with_reducible exact ‹Moves _ _ _›
    | with_reducible exact Sub.trans (by decide) hA
    | with_reducible refine forAll_moves _ _ ?_ fun _ _ _ => ?_
    | with_reducible apply emptySlu_moves
    | with_reducible refine Runs.next ?_
    | with_reducible refine ite_moves (fun _ => ?_) (fun _ => ?_)
    | split

theorem setAreas_moves {A : Nat} {s0 : State} (s : State) (core : Nat) (t : TableRec) (hM : Moves A s0 s) (hA : Sub 64 A) : Moves A s0 (setAreas s core t) := by
  unfold setAreas
  try dsimp -proj only []
  repeat' first
    | with_reducible exact ‹Moves _ _ _›
    | with_reducible exact Sub.trans (by decide) hA
    | with_reducible refine forAll_moves _ _ ?_ fun _ _ _ => ?_
    | with_reducible apply modSlu_moves
    | with_reducible refine Runs.next ?_
    | with_reducible refine ite_moves (fun _ => ?_) (fun _ => ?_)
    | split

theorem setLayers_moves {A : Nat} {s0 : State} (s : State) (old : Nat) (t : TableRec) (hM : Moves A s0 s) (hA : Sub 1024 A) : Moves A s0 (setLayers s old t) :=
  withLayers_moves hM (fun h => (h.filter _).setMany _) hA

theorem checkNeighbour_moves {A : Nat} {s0 : State} (s : State) (p : Nat) (hM : Moves A s0 s) (hA : Sub 44601490397061246283071584119249312688669570 A) : Moves A s0 (checkNeighbour s p) := by
  unfold checkNeighbour
  try dsimp -proj only []
  repeat' first
    | with_reducible exact ‹Moves _ _ _›
    | with_reducible exact Sub.trans (by decide) hA
    | with_reducible apply setReg_moves
    | with_reducible apply raise_moves
    | with_reducible exact page_rillPState _
    | with_reducible exact page_rillPNbrOk _
    | with_reducible refine Runs.next ?_
    | with_reducible refine ite_moves (fun _ => ?_) (fun _ => ?_)
    | split

theorem refreshRoutes_moves {A : Nat} {s0 : State} (s : State) (hM : Moves A s0 s) (hA : Sub 66902235595591869424607302391897674194649986 A) : Moves A s0 (refreshRoutes s) := by
  unfold refreshRoutes
  try dsimp -proj only []
  repeat' first
    | with_reducible exact ‹Moves _ _ _›
    | with_reducible exact Sub.trans (by decide) hA
    | with_reducible apply setReg_moves
    | with_reducible refine forAll_moves _ _ ?_ fun _ _ _ => ?_
    | with_reducible apply checkNeighbour_moves
    | with_reducible exact page_rillAltActive
    | with_reducible exact page_rillCoord
    | with_reducible exact page_rillRank
    | with_reducible refine Runs.next ?_
    | with_reducible refine ite_moves (fun _ => ?_) (fun _ => ?_)
    | split

theorem tableEffect_moves {A : Nat} {s0 : State} (s : State) (h : Nat) (oldLayers : Nat) (t : TableRec) (hM : Moves A s0 s) (hA : Sub 66902916160327454322318505669642372292460482 A) : Moves A s0 (tableEffect s h oldLayers t) := by
  unfold tableEffect
  try dsimp -proj only []
  repeat' first
    | with_reducible exact ‹Moves _ _ _›
    | with_reducible exact Sub.trans (by decide) hA
    | with_reducible apply setReg_moves
    | with_reducible apply setAreas_moves
    | with_reducible apply emptySluices_moves
    | with_reducible apply clearStreams_moves
    | with_reducible apply refreshEpoch_moves
    | with_reducible apply refreshRoutes_moves
    | with_reducible apply withRill_moves
    | with_reducible apply pstActivated_moves
    | with_reducible apply setLayers_moves
    | with_reducible exact page_tblActiveK1
    | with_reducible exact page_fmtCbCount
    | with_reducible exact page_schedClImage _
    | with_reducible exact page_tblActiveK7
    | with_reducible exact page_tblActiveK9
    | with_reducible refine Runs.next ?_
    | with_reducible refine ite_moves (fun _ => ?_) (fun _ => ?_)
    | split

theorem dropShadow_moves {A : Nat} {s0 : State} (s : State) (t : TableRec) (hM : Moves A s0 s) (hA : Sub 316912650204631302963852510098 A) : Moves A s0 (dropShadow s t) := by
  unfold dropShadow
  try dsimp -proj only []
  repeat' first
    | with_reducible exact ‹Moves _ _ _›
    | with_reducible exact Sub.trans (by decide) hA
    | with_reducible apply withTables_moves
    | with_reducible apply raise_moves
    | with_reducible apply bump_moves
    | with_reducible apply setReg_moves
    | with_reducible exact page_tblRefused
    | with_reducible exact page_tblActivate
    | with_reducible exact page_tblActStatus
    | with_reducible refine Runs.next ?_
    | with_reducible refine ite_moves (fun _ => ?_) (fun _ => ?_)
    | split

theorem switchTable_moves {A : Nat} {s0 : State} (s : State) (t : TableRec) (g : Nat) (hM : Moves A s0 s) (hA : Sub 66902916160327454322318505669642372292460498 A) : Moves A s0 (switchTable s t g) := by
  unfold switchTable
  try dsimp -proj only []
  repeat' first
    | with_reducible exact ‹Moves _ _ _›
    | with_reducible exact Sub.trans (by decide) hA
    | with_reducible apply withTables_moves
    | with_reducible apply tableEffect_moves
    | with_reducible apply setReg_moves
    | with_reducible exact page_tblActivate
    | with_reducible exact page_tblActStatus
    | with_reducible refine Runs.next ?_
    | with_reducible refine ite_moves (fun _ => ?_) (fun _ => ?_)
    | split

theorem tableApply_moves {A : Nat} {s0 : State} (s : State) (t : TableRec) (g : Nat) (hM : Moves A s0 s) (hA : Sub 66902916160327454322318505669642372292460498 A) : Moves A s0 (tableApply s t g) := by
  unfold tableApply
  try dsimp -proj only []
  repeat' first
    | with_reducible exact ‹Moves _ _ _›
    | with_reducible exact Sub.trans (by decide) hA
    | with_reducible apply dropShadow_moves
    | with_reducible apply switchTable_moves
    | with_reducible refine Runs.next ?_
    | with_reducible refine ite_moves (fun _ => ?_) (fun _ => ?_)
    | split

end Sys2Proof.Machine
end

