-- ==== Sys2Proof/Laws/Roles.lean ====
section
/-! SUPPORT. What the operations of Machine/Roles.lean change at most, each one's lemma. -/

namespace Sys2Proof.Machine

theorem ledgerPhase_moves {A : Nat} {s0 : State} (s : State) (phase : Nat) (step : Nat) (hM : Moves A s0 s) (hA : Sub 4194304 A) : Moves A s0 (ledgerPhase s phase step) := by
  unfold ledgerPhase
  try dsimp -proj only []
  repeat' first
    | with_reducible exact ‹Moves _ _ _›
    | with_reducible exact Sub.trans (by decide) hA
    | with_reducible apply withLedger_moves
    | with_reducible apply step_moves
    | with_reducible exact page_stepBank
    | with_reducible refine Runs.next ?_
    | with_reducible refine ite_moves (fun _ => ?_) (fun _ => ?_)
    | split

theorem requestRole_moves {A : Nat} {s0 : State} (s : State) (cl : Nat) (v : Nat) (hM : Moves A s0 s) (hA : Sub 158456325028528675187087900800 A) : Moves A s0 (requestRole s cl v) := by
  unfold requestRole
  try dsimp -proj only []
  repeat' first
    | with_reducible exact ‹Moves _ _ _›
    | with_reducible exact Sub.trans (by decide) hA
    | with_reducible apply setReg_moves
    | with_reducible apply modCluster_moves
    | with_reducible exact page_schedClRoleReq _
    | with_reducible refine Runs.next ?_
    | with_reducible refine ite_moves (fun _ => ?_) (fun _ => ?_)
    | split

theorem roleReqWrite_moves {A : Nat} {s0 : State} (cl : Nat) (v : Nat) (s : State) (hM : Moves A s0 s) (hA : Sub 158456325028528675187087900800 A) : Moves A s0 (roleReqWrite cl v s).st := by
  unfold roleReqWrite
  try dsimp -proj only []
  repeat' first
    | with_reducible exact ‹Moves _ _ _›
    | with_reducible exact Sub.trans (by decide) hA
    | with_reducible apply Ans_refuse_moves
    | with_reducible apply Ans_ok_moves
    | with_reducible apply requestRole_moves
    | with_reducible refine Runs.next ?_
    | with_reducible refine ite_ans (fun _ => ?_) (fun _ => ?_)
    | with_reducible refine ite_moves (fun _ => ?_) (fun _ => ?_)
    | split
    | dsimp only []

theorem joinGroup_moves {A : Nat} {s0 : State} (s : State) (cl : Nat) (r : Nat) (hM : Moves A s0 s) (hA : Sub 1426106925256758076683791106944 A) : Moves A s0 (joinGroup s cl r) := by
  unfold joinGroup
  try dsimp -proj only []
  repeat' first
    | with_reducible exact ‹Moves _ _ _›
    | with_reducible exact Sub.trans (by decide) hA
    | with_reducible apply step_moves
    | with_reducible apply modCluster_moves
    | with_reducible refine forAll_moves _ _ ?_ fun _ _ _ => ?_
    | with_reducible apply setReg_moves
    | with_reducible apply withTrain_moves
    | with_reducible apply withRoll_moves
    | with_reducible apply refreshEpoch_moves
    | with_reducible exact page_schedClStep _
    | with_reducible exact page_schedClRole _
    | with_reducible exact page_schedClRoleReq _
    | with_reducible refine Runs.next ?_
    | with_reducible refine ite_moves (fun _ => ?_) (fun _ => ?_)
    | split

theorem refuseRole_moves {A : Nat} {s0 : State} (s : State) (cl : Nat) (hM : Moves A s0 s) (hA : Sub 158456325176102627776764609410 A) : Moves A s0 (refuseRole s cl) := by
  unfold refuseRole
  try dsimp -proj only []
  repeat' first
    | with_reducible exact ‹Moves _ _ _›
    | with_reducible exact Sub.trans (by decide) hA
    | with_reducible apply modCluster_moves
    | with_reducible apply raise_moves
    | with_reducible apply setReg_moves
    | with_reducible exact page_schedClRoleReq _
    | with_reducible refine Runs.next ?_
    | with_reducible refine ite_moves (fun _ => ?_) (fun _ => ?_)
    | split

theorem deferRole_moves {A : Nat} {s0 : State} (s : State) (cl : Nat) (hM : Moves A s0 s) (hA : Sub 147573952589676708738 A) : Moves A s0 (deferRole s cl) := by
  unfold deferRole
  try dsimp -proj only []
  repeat' first
    | with_reducible exact ‹Moves _ _ _›
    | with_reducible exact Sub.trans (by decide) hA
    | with_reducible apply raise_moves
    | with_reducible apply modCluster_moves
    | with_reducible refine Runs.next ?_
    | with_reducible refine ite_moves (fun _ => ?_) (fun _ => ?_)
    | split

theorem changeRole_moves {A : Nat} {s0 : State} (s : State) (cl : Nat) (r : Nat) (hM : Moves A s0 s) (hA : Sub 680585505406155941812767417244852730834 A) : Moves A s0 (changeRole s cl r) := by
  unfold changeRole
  try dsimp -proj only []
  repeat' first
    | with_reducible exact ‹Moves _ _ _›
    | with_reducible exact Sub.trans (by decide) hA
    | with_reducible apply leaveRole_moves
    | with_reducible apply writeEnds_moves
    | with_reducible apply modCluster_moves
    | with_reducible apply setReg_moves
    | with_reducible apply joinGroup_moves
    | with_reducible exact page_schedClRoleReq _
    | with_reducible refine Runs.next ?_
    | with_reducible refine ite_moves (fun _ => ?_) (fun _ => ?_)
    | split

theorem roleApply_moves {A : Nat} {s0 : State} (s : State) (cl : Nat) (hM : Moves A s0 s) (hA : Sub 680585505406155941812767417244852730834 A) : Moves A s0 (roleApply s cl) := by
  unfold roleApply
  try dsimp -proj only []
  repeat' first
    | with_reducible exact ‹Moves _ _ _›
    | with_reducible exact Sub.trans (by decide) hA
    | with_reducible apply deferRole_moves
    | with_reducible apply refuseRole_moves
    | with_reducible apply changeRole_moves
    | with_reducible apply joinGroup_moves
    | with_reducible refine Runs.next ?_
    | with_reducible refine ite_moves (fun _ => ?_) (fun _ => ?_)
    | split

end Sys2Proof.Machine
end

