-- ==== Sys2Proof/Laws/Plan.lean ====
section
/-! SUPPORT. What the operations of Machine/Plan.lean change at most, each one's lemma. -/

namespace Sys2Proof.Machine

theorem clusterStepRegs_sub {A : Nat} (c : Nat) (hA : Sub 2722258935547009013403376999314518704128 A) : ∀ k ∈ clusterStepRegs c, Sub (2 ^ (32 + page k)) A := by
  intro k hk
  simp only [clusterStepRegs, List.mem_cons, List.not_mem_nil, or_false] at hk
  rcases hk with rfl | rfl | rfl | rfl | rfl | rfl | rfl | rfl | rfl | rfl | rfl | rfl | rfl | rfl | rfl | rfl <;>
    simp only [page_schedClSlips, page_schedClSlipMax, page_schedClNbrSlips, page_schedClSegmented, page_accSegStorePeak, page_routeEntries, page_routeRouted,
      page_routeSpilled, page_routeDropped, page_routeFullExperts, page_routeNonfinite, page_siphClRedirects, page_siphClRawBytes, page_siphClStoredBytes,
      page_siphClExpandSat, page_siphClExpandZero] <;> exact Sub.trans (by decide) hA
theorem coreStepRegs_sub {A : Nat} (n : Nat) (hA : Sub 11006060661771584006525026304 A) : ∀ k ∈ coreStepRegs n, Sub (2 ^ (32 + page k)) A := by
  intro k hk
  simp only [coreStepRegs, List.mem_cons, List.not_mem_nil, or_false] at hk
  rcases hk with rfl | rfl | rfl | rfl | rfl | rfl | rfl | rfl | rfl | rfl | rfl | rfl | rfl | rfl | rfl | rfl | rfl | rfl | rfl | rfl | rfl | rfl | rfl | rfl <;>
    simp only [page_spillBlkSat, page_spillBlkZero, page_spillNanIn, page_spillZeroBlocks, page_fengEntries, page_fengZblkSkipped, page_fengWpassSkipped,
      page_fengSideExtra, page_fengAccWaits, page_bengBxEntries, page_bengBwEntries, page_bengPairs, page_bengAdapter, page_bengWtInline, page_bengWpassSkipped,
      page_bengSideExtra, page_bengSpills, page_bengReloads, page_accSatAdds, page_accNanAdds, page_accSegClosed, page_accLongTiles, page_sparsePruneDrops,
      page_sparseAttnClear] <;> exact Sub.trans (by decide) hA
theorem originReset_moves {A : Nat} {s0 : State} (s : State) (cl : Nat) (lists : List (List PlanEntry)) (hM : Moves A s0 s) (hA : Sub 2722258935558015074065148583321043730624 A) :
    Moves A s0 (originReset s cl lists) := by
  unfold originReset
  dsimp -proj only []
  refine modCluster_moves _ _ (forAll_moves _ _ ?_ fun p s hs => ?_) (Sub.trans (by decide) hA)
  · exact clearRegs_moves _ hM (clusterStepRegs_sub cl (Sub.trans (by decide) hA))
  · exact modCore_moves _ _ (clearRegs_moves _ hs (coreStepRegs_sub _ (Sub.trans (by decide) hA))) (Sub.trans (by decide) hA)

theorem skewStep_moves {A : Nat} {s0 : State} (s : State) (lead : Nat) (hM : Moves A s0 s) (hA : Sub 147573952589676708738 A) : Moves A s0 (skewStep s lead) := by
  unfold skewStep
  try dsimp -proj only []
  repeat' first
    | with_reducible exact ‹Moves _ _ _›
    | with_reducible exact Sub.trans (by decide) hA
    | with_reducible apply raise_moves
    | with_reducible refine forAll_moves _ _ ?_ fun _ _ _ => ?_
    | with_reducible apply modCluster_moves
    | with_reducible apply withTrain_moves
    | with_reducible refine Runs.next ?_
    | with_reducible refine ite_moves (fun _ => ?_) (fun _ => ?_)
    | split

theorem stopPlan_moves {A : Nat} {s0 : State} (s : State) (cl : Nat) (p : PlanStop) (hM : Moves A s0 s) (hA : Sub 147573952589676708754 A) : Moves A s0 (stopPlan s cl p) := by
  unfold stopPlan
  try dsimp -proj only []
  repeat' first
    | with_reducible exact ‹Moves _ _ _›
    | with_reducible exact Sub.trans (by decide) hA
    | with_reducible apply mismatchBy_moves
    | with_reducible apply raise_moves
    | with_reducible refine Runs.next ?_
    | with_reducible refine ite_moves (fun _ => ?_) (fun _ => ?_)
    | split

theorem planCluster_moves {A : Nat} {s0 : State} (s : State) (origin : Nat) (cl : Nat) (wide : Bool) (hM : Moves A s0 s) (hA : Sub 2722258935558015074212722535910720439250 A) : Moves A s0 (planCluster s origin cl wide) := by
  unfold planCluster
  try dsimp -proj only []
  repeat' first
    | with_reducible exact ‹Moves _ _ _›
    | with_reducible exact Sub.trans (by decide) hA
    | with_reducible apply originReset_moves
    | with_reducible apply stopPlan_moves
    | with_reducible apply modCluster_moves
    | with_reducible apply setHealth_moves
    | with_reducible apply bump_moves
    | with_reducible exact page_schedClFenced _
    | with_reducible exact page_schedClSegmented _
    | with_reducible refine Runs.next ?_
    | with_reducible refine ite_moves (fun _ => ?_) (fun _ => ?_)
    | split

theorem dropLists_moves {A : Nat} {s0 : State} (s : State) (hM : Moves A s0 s) (hA : Sub 64 A) : Moves A s0 (dropLists s) := by
  unfold dropLists
  try dsimp -proj only []
  repeat' first
    | with_reducible exact ‹Moves _ _ _›
    | with_reducible exact Sub.trans (by decide) hA
    | with_reducible refine forAll_moves _ _ ?_ fun _ _ _ => ?_
    | with_reducible apply modCore_moves
    | with_reducible refine Runs.next ?_
    | with_reducible refine ite_moves (fun _ => ?_) (fun _ => ?_)
    | split

theorem groupAtOrigin_moves {A : Nat} {s0 : State} (s : State) (wide : Bool) (hM : Moves A s0 s) (hA : Sub 524544 A) : Moves A s0 (groupAtOrigin s wide) := by
  unfold groupAtOrigin
  try dsimp -proj only []
  repeat' first
    | with_reducible exact ‹Moves _ _ _›
    | with_reducible exact Sub.trans (by decide) hA
    | with_reducible apply withTrain_moves
    | with_reducible apply withRill_moves
    | with_reducible exact page_stepBlockMask
    | with_reducible exact page_stepLr0
    | with_reducible exact page_stepBank
    | with_reducible exact page_epochBank
    | with_reducible refine Runs.next ?_
    | with_reducible refine ite_moves (fun _ => ?_) (fun _ => ?_)
    | split

theorem planBuild_moves {A : Nat} {s0 : State} (s : State) (lead : Nat) (hM : Moves A s0 s) (hA : Sub 2722258935558015074212722535910725157842 A) : Moves A s0 (planBuild s lead) := by
  unfold planBuild
  try dsimp -proj only []
  repeat' first
    | with_reducible exact ‹Moves _ _ _›
    | with_reducible exact Sub.trans (by decide) hA
    | with_reducible apply step_moves
    | with_reducible apply skewStep_moves
    | with_reducible apply groupAtOrigin_moves
    | with_reducible refine forAll_moves _ _ ?_ fun _ _ _ => ?_
    | with_reducible apply planCluster_moves
    | with_reducible apply raise_moves
    | with_reducible apply ledgerPhase_moves
    | with_reducible apply dropLists_moves
    | with_reducible exact page_schedClStep _
    | with_reducible exact page_stepDataPos
    | with_reducible refine Runs.next ?_
    | with_reducible refine ite_moves (fun _ => ?_) (fun _ => ?_)
    | split

end Sys2Proof.Machine
end

