-- ==== Sys2Proof/Laws/Barriers.lean ====
section
/-! SUPPORT. What the operations of Machine/Barriers.lean change at most, each one's lemma. -/

namespace Sys2Proof.Machine

theorem noteSlipFor_moves {A : Nat} {s0 : State} (s : State) (cl : Nat) (parts : List Nat) (late : Nat) (hM : Moves A s0 s) (hA : Sub 158456325176102627776764609410 A) : Moves A s0 (noteSlipFor s cl parts late) := by
  unfold noteSlipFor
  try dsimp -proj only []
  repeat' first
    | with_reducible exact ‹Moves _ _ _›
    | with_reducible exact Sub.trans (by decide) hA
    | with_reducible apply bump_moves
    | with_reducible apply raiseTo_moves
    | with_reducible apply modCluster_moves
    | with_reducible apply raiseFirstCl_moves
    | with_reducible apply setHealth_moves
    | with_reducible exact page_schedClSlips _
    | with_reducible exact page_schedClSlipMax _
    | with_reducible refine Runs.next ?_
    | with_reducible refine ite_moves (fun _ => ?_) (fun _ => ?_)
    | split

theorem noteSlip_moves {A : Nat} {s0 : State} (s : State) (cl : Nat) (late : Nat) (hM : Moves A s0 s) (hA : Sub 158456325176102627776764609410 A) : Moves A s0 (noteSlip s cl late) := by
  unfold noteSlip
  try dsimp -proj only []
  repeat' first
    | with_reducible exact ‹Moves _ _ _›
    | with_reducible exact Sub.trans (by decide) hA
    | with_reducible apply noteSlipFor_moves
    | with_reducible refine Runs.next ?_
    | with_reducible refine ite_moves (fun _ => ?_) (fun _ => ?_)
    | split

theorem entrySlip_moves {A : Nat} {s0 : State} (s : State) (core : Nat) (late : Nat) (hM : Moves A s0 s) (hA : Sub 158456325176102627776764609410 A) : Moves A s0 (entrySlip s core late) := by
  unfold entrySlip
  try dsimp -proj only []
  repeat' first
    | with_reducible exact ‹Moves _ _ _›
    | with_reducible exact Sub.trans (by decide) hA
    | with_reducible apply noteSlipFor_moves
    | with_reducible refine Runs.next ?_
    | with_reducible refine ite_moves (fun _ => ?_) (fun _ => ?_)
    | split

theorem countEntry_moves {A : Nat} {s0 : State} (s : State) (core : Nat) (r : RunEntry) (hM : Moves A s0 s) (hA : Sub 20271268143298102001473159168 A) : Moves A s0 (countEntry s core r) := by
  unfold countEntry
  try dsimp -proj only []
  repeat' first
    | with_reducible exact ‹Moves _ _ _›
    | with_reducible exact Sub.trans (by decide) hA
    | with_reducible apply bump_moves
    | with_reducible exact page_fengEntries _
    | with_reducible exact page_bengBxEntries _
    | with_reducible exact page_bengBwEntries _
    | with_reducible exact page_bengPairs _
    | with_reducible exact page_bengAdapter _
    | with_reducible exact page_routeEntries _
    | with_reducible refine Runs.next ?_
    | with_reducible refine ite_moves (fun _ => ?_) (fun _ => ?_)
    | split

theorem encodingDone_moves {A : Nat} {s0 : State} (s : State) (cl : Nat) (hM : Moves A s0 s) (hA : Sub 128 A) : Moves A s0 (encodingDone s cl) := by
  unfold encodingDone
  try dsimp -proj only []
  repeat' first
    | with_reducible exact ‹Moves _ _ _›
    | with_reducible exact Sub.trans (by decide) hA
    | with_reducible apply modCluster_moves
    | with_reducible refine Runs.next ?_
    | with_reducible refine ite_moves (fun _ => ?_) (fun _ => ?_)
    | split

theorem finishEntry_moves {A : Nat} {s0 : State} (s : State) (core : Nat) (r : RunEntry) (hM : Moves A s0 s) (hA : Sub 192 A) : Moves A s0 (finishEntry s core r) := by
  unfold finishEntry
  try dsimp -proj only []
  repeat' first
    | with_reducible exact ‹Moves _ _ _›
    | with_reducible exact Sub.trans (by decide) hA
    | with_reducible apply modCore_moves
    | with_reducible apply encodingDone_moves
    | with_reducible refine Runs.next ?_
    | with_reducible refine ite_moves (fun _ => ?_) (fun _ => ?_)
    | split

theorem writeMirror_moves {A : Nat} {s0 : State} (s : State) (core : Nat) (r : RunEntry) (hM : Moves A s0 s) (hA : Sub 154742504910672534362390592 A) : Moves A s0 (writeMirror s core r) := by
  unfold writeMirror
  try dsimp -proj only []
  repeat' first
    | with_reducible exact ‹Moves _ _ _›
    | with_reducible exact Sub.trans (by decide) hA
    | with_reducible apply modCore_moves
    | with_reducible apply bump_moves
    | with_reducible exact page_fengMirror _
    | with_reducible refine Runs.next ?_
    | with_reducible refine ite_moves (fun _ => ?_) (fun _ => ?_)
    | split

theorem arriveLocal_moves {A : Nat} {s0 : State} (s : State) (q : Barrier) (deadline : Nat) (part : Nat) (hM : Moves A s0 s) (hA : Sub 162 A) : Moves A s0 (arriveLocal s q deadline part) := by
  unfold arriveLocal
  try dsimp -proj only []
  repeat' first
    | with_reducible exact ‹Moves _ _ _›
    | with_reducible exact Sub.trans (by decide) hA
    | with_reducible apply withArrivals_moves
    | with_reducible refine forAll_moves _ _ ?_ fun _ _ _ => ?_
    | with_reducible apply modCluster_moves
    | with_reducible apply State_emit_moves
    | with_reducible refine Runs.next ?_
    | with_reducible refine ite_moves (fun _ => ?_) (fun _ => ?_)
    | split

theorem arriveEntry_moves {A : Nat} {s0 : State} (s : State) (core : Nat) (t : TableRec) (rest : List PlanEntry) (re : RunEntry) (hM : Moves A s0 s) (hA : Sub 158456325176102627776764609506 A) : Moves A s0 (arriveEntry s core t rest re) := by
  unfold arriveEntry
  try dsimp -proj only []
  repeat' first
    | with_reducible exact ‹Moves _ _ _›
    | with_reducible exact Sub.trans (by decide) hA
    | with_reducible apply entrySlip_moves
    | with_reducible apply openTail_moves
    | with_reducible apply modCore_moves
    | with_reducible refine forAll_moves _ _ ?_ fun _ _ _ => ?_
    | with_reducible apply arriveLocal_moves
    | with_reducible refine Runs.next ?_
    | with_reducible refine ite_moves (fun _ => ?_) (fun _ => ?_)
    | split

theorem abortArrive_moves {A : Nat} {s0 : State} (s : State) (core : Nat) (t : TableRec) (hM : Moves A s0 s) (hA : Sub 158456325176102627776764609506 A) : Moves A s0 (abortArrive s core t) := by
  unfold abortArrive
  try dsimp -proj only []
  repeat' first
    | with_reducible exact ‹Moves _ _ _›
    | with_reducible exact Sub.trans (by decide) hA
    | with_reducible apply modCore_moves
    | with_reducible apply arriveEntry_moves
    | with_reducible refine Runs.next ?_
    | with_reducible refine ite_moves (fun _ => ?_) (fun _ => ?_)
    | split

theorem entryArrive_moves {A : Nat} {s0 : State} (s : State) (core : Nat) (hM : Moves A s0 s) (hA : Sub 158456325176102627776764609522 A) : Moves A s0 (entryArrive s core) := by
  unfold entryArrive
  try dsimp -proj only []
  repeat' first
    | with_reducible exact ‹Moves _ _ _›
    | with_reducible exact Sub.trans (by decide) hA
    | with_reducible apply abortArrive_moves
    | with_reducible apply mismatch_moves
    | with_reducible apply arriveEntry_moves
    | with_reducible refine Runs.next ?_
    | with_reducible refine ite_moves (fun _ => ?_) (fun _ => ?_)
    | split

theorem messageArrive_moves {A : Nat} {s0 : State} (s : State) (b : Nat) (part : Nat) (slips : Nat) (late : Nat) (flags : Nat) (abort : Bool) (hM : Moves A s0 s) (hA : Sub 32 A) : Moves A s0 (messageArrive s b part slips late flags abort) := by
  unfold messageArrive
  try dsimp -proj only []
  repeat' first
    | with_reducible exact ‹Moves _ _ _›
    | with_reducible exact Sub.trans (by decide) hA
    | with_reducible apply withArrivals_moves
    | with_reducible refine Runs.next ?_
    | with_reducible refine ite_moves (fun _ => ?_) (fun _ => ?_)
    | split

theorem releaseBarrier_moves {A : Nat} {s0 : State} (s : State) (q : Barrier) (hM : Moves A s0 s) (hA : Sub 158456325028528675187087909088 A) : Moves A s0 (releaseBarrier s q) := by
  unfold releaseBarrier
  try dsimp -proj only []
  repeat' first
    | with_reducible exact ‹Moves _ _ _›
    | with_reducible exact ‹MMoves _ _ _›
    | with_reducible exact Sub.trans (by decide) hA
    | with_reducible refine forAll_moves _ _ ?_ fun _ _ _ => ?_
    | with_reducible apply bump_moves
    | with_reducible refine withMem_moves ?_ ?_
    | with_reducible apply settleWrites_moves
    | with_reducible apply finishEntry_moves
    | with_reducible apply withArrivals_moves
    | refine MMoves.filtered _ _ ?_ ?_
    | with_reducible exact MMoves.refl _ _
    | exact mem_rest rfl rfl (Sub.trans (by decide) hA)
    | with_reducible exact page_schedClNbrSlips _
    | with_reducible refine Runs.next ?_
    | with_reducible refine ite_moves (fun _ => ?_) (fun _ => ?_)
    | split

end Sys2Proof.Machine
end

