-- ==== Sys2Proof/Laws/Drain.lean ====
section
/-! SUPPORT. What the operations of Machine/Drain.lean change at most, each one's lemma. -/

namespace Sys2Proof.Machine

theorem sendImage_moves {A : Nat} {s0 : State} (s : State) (use : RdmaUse) (src : Nat) (bytes : Nat) (d : Dest) (hM : Moves A s0 s) (hA : Sub 89202980794122492566142873090593446024970242 A) : Moves A s0 (sendImage s use src bytes d) := by
  unfold sendImage
  try dsimp -proj only []
  repeat' first
    | with_reducible exact ‹Moves _ _ _›
    | with_reducible exact Sub.trans (by decide) hA
    | with_reducible refine forAll_moves _ _ ?_ fun _ _ _ => ?_
    | with_reducible apply qpSend_moves
    | with_reducible refine Runs.next ?_
    | with_reducible refine ite_moves (fun _ => ?_) (fun _ => ?_)
    | split

theorem sendHeader_moves {A : Nat} {s0 : State} (s : State) (use : RdmaUse) (src : Nat) (d : Dest) (head : Nat) (hM : Moves A s0 s) (hA : Sub 89202980794122492566142873090593446027067394 A) : Moves A s0 (sendHeader s use src d head) := by
  unfold sendHeader
  try dsimp -proj only []
  repeat' first
    | with_reducible exact ‹Moves _ _ _›
    | with_reducible exact Sub.trans (by decide) hA
    | with_reducible apply withCkpt_moves
    | with_reducible apply qpSend_moves
    | with_reducible refine Runs.next ?_
    | with_reducible refine ite_moves (fun _ => ?_) (fun _ => ?_)
    | split

theorem partnerIdentity_moves {A : Nat} {s0 : State} (s : State) (data : List Byte) (hM : Moves A s0 s) (hA : Sub 2923092477642599958899935808453230585347566764930 A) : Moves A s0 (partnerIdentity s data) := by
  unfold partnerIdentity
  try dsimp -proj only []
  repeat' first
    | with_reducible exact ‹Moves _ _ _›
    | with_reducible exact Sub.trans (by decide) hA
    | with_reducible apply drainFail_moves
    | with_reducible apply setReg_moves
    | with_reducible apply raise_moves
    | with_reducible apply sendImage_moves
    | with_reducible exact page_resFeed
    | with_reducible exact page_ckptConflict
    | with_reducible exact page_ckptT1Base
    | with_reducible refine Runs.next ?_
    | with_reducible refine ite_moves (fun _ => ?_) (fun _ => ?_)
    | split

theorem rdmaDone_moves {A : Nat} {s0 : State} (s : State) (r : RdmaReq) (data : List Byte) (hM : Moves A s0 s) (hA : Sub 2923092477642599958899935808453230585347568862082 A) : Moves A s0 (rdmaDone s r data) := by
  unfold rdmaDone
  try dsimp -proj only []
  repeat' first
    | with_reducible exact ‹Moves _ _ _›
    | with_reducible exact Sub.trans (by decide) hA
    | with_reducible apply partnerIdentity_moves
    | with_reducible apply sendHeader_moves
    | with_reducible exact page_ckptT1Base
    | with_reducible refine Runs.next ?_
    | with_reducible refine ite_moves (fun _ => ?_) (fun _ => ?_)
    | split

theorem startPartner_moves {A : Nat} {s0 : State} (s : State) (hM : Moves A s0 s) (hA : Sub 2923092477642599958899935808453230585347566764930 A) : Moves A s0 (startPartner s) := by
  unfold startPartner
  try dsimp -proj only []
  repeat' first
    | with_reducible exact ‹Moves _ _ _›
    | with_reducible exact Sub.trans (by decide) hA
    | with_reducible apply setDrain_moves
    | with_reducible apply drainFail_moves
    | with_reducible apply qpSend_moves
    | with_reducible exact page_ckptPartnerQp
    | with_reducible exact page_ckptPartnerAddr
    | with_reducible exact page_ckptPartnerRkey
    | with_reducible refine Runs.next ?_
    | with_reducible refine ite_moves (fun _ => ?_) (fun _ => ?_)
    | split

theorem startStore_moves {A : Nat} {s0 : State} (s : State) (hM : Moves A s0 s) (hA : Sub 2923092477642599958899935808453230585347566764930 A) : Moves A s0 (startStore s) := by
  unfold startStore
  try dsimp -proj only []
  repeat' first
    | with_reducible exact ‹Moves _ _ _›
    | with_reducible exact Sub.trans (by decide) hA
    | with_reducible apply setDrain_moves
    | with_reducible apply drainFail_moves
    | with_reducible apply sendImage_moves
    | with_reducible exact page_ckptStoreAddr
    | with_reducible exact page_ckptT1Base
    | with_reducible refine Runs.next ?_
    | with_reducible refine ite_moves (fun _ => ?_) (fun _ => ?_)
    | split

theorem dropHeader_moves {A : Nat} {s0 : State} (s : State) (gen : Nat) (hM : Moves A s0 s) (hA : Sub 2048 A) : Moves A s0 (dropHeader s gen) := by
  unfold dropHeader
  try dsimp -proj only []
  repeat' first
    | with_reducible exact ‹Moves _ _ _›
    | with_reducible exact ‹MMoves _ _ _›
    | with_reducible exact Sub.trans (by decide) hA
    | with_reducible refine withMem_moves ?_ ?_
    | with_reducible apply memWriteBytes_moves
    | refine MMoves.filtered _ _ ?_ ?_
    | with_reducible exact MMoves.refl _ _
    | exact mem_rest rfl rfl (Sub.trans (by decide) hA)
    | with_reducible exact page_ckptT3Base
    | with_reducible refine Runs.next ?_
    | with_reducible refine ite_moves (fun _ => ?_) (fun _ => ?_)
    | split

theorem startDrain_moves {A : Nat} {s0 : State} (s : State) (gen : Nat) (hM : Moves A s0 s) (hA : Sub 2923092477642599958899935808453230585347568864130 A) : Moves A s0 (startDrain s gen) := by
  unfold startDrain
  try dsimp -proj only []
  repeat' first
    | with_reducible exact ‹Moves _ _ _›
    | with_reducible exact Sub.trans (by decide) hA
    | with_reducible apply setReg_moves
    | with_reducible apply withCkpt_moves
    | with_reducible apply setDrain_moves
    | with_reducible apply dropHeader_moves
    | with_reducible apply drainEnd_moves
    | with_reducible apply startStore_moves
    | with_reducible apply startPartner_moves
    | with_reducible exact page_ckptDrainState
    | with_reducible exact page_ckptT3Base
    | with_reducible exact page_ckptState
    | with_reducible refine Runs.next ?_
    | with_reducible refine ite_moves (fun _ => ?_) (fun _ => ?_)
    | split

end Sys2Proof.Machine
end

