-- ==== Sys2Proof/Laws/Streams.lean ====
section
/-! SUPPORT. What the operations of Machine/Streams.lean change at most, each one's lemma. -/

namespace Sys2Proof.Machine

theorem moverDraw_moves {A : Nat} {s0 : State} (s : State) (hM : Moves A s0 s) (hA : Sub 16384 A) : Moves A s0 (moverDraw s) := by
  unfold moverDraw
  try dsimp -proj only []
  repeat' first
    | with_reducible exact ‹Moves _ _ _›
    | with_reducible exact Sub.trans (by decide) hA
    | with_reducible apply sysDraw_moves
    | with_reducible refine Runs.next ?_
    | with_reducible refine ite_moves (fun _ => ?_) (fun _ => ?_)
    | split

theorem weirBeat_moves {A : Nat} {s0 : State} (s : State) (hM : Moves A s0 s) (hA : Sub 10384593717069655257060992658456576 A) : Moves A s0 (weirBeat s) := by
  unfold weirBeat
  try dsimp -proj only []
  repeat' first
    | with_reducible exact ‹Moves _ _ _›
    | with_reducible exact Sub.trans (by decide) hA
    | with_reducible refine forAll_moves _ _ ?_ fun _ _ _ => ?_
    | with_reducible apply setReg_moves
    | with_reducible apply bump_moves
    | with_reducible apply moverDraw_moves
    | with_reducible apply withWeir_moves
    | with_reducible exact page_weirGranted _
    | with_reducible exact page_weirWaitBeats _
    | with_reducible exact page_weirClampPct _
    | with_reducible refine Runs.next ?_
    | with_reducible refine ite_moves (fun _ => ?_) (fun _ => ?_)
    | split

theorem rewind_moves {A : Nat} {s0 : State} (s : State) (core : Nat) (i : Nat) (hM : Moves A s0 s) (hA : Sub 20769187434139310514121985316894912 A) : Moves A s0 (rewind s core i) := by
  unfold rewind
  try dsimp -proj only []
  repeat' first
    | with_reducible exact ‹Moves _ _ _›
    | with_reducible exact Sub.trans (by decide) hA
    | with_reducible apply rewindOne_moves
    | with_reducible refine Runs.next ?_
    | with_reducible refine ite_moves (fun _ => ?_) (fun _ => ?_)
    | split

theorem haltError_moves {A : Nat} {s0 : State} (s : State) (core : Nat) (i : Nat) (cause : Nat) (hM : Moves A s0 s) (hA : Sub 14528 A) : Moves A s0 (haltError s core i cause) := by
  unfold haltError
  try dsimp -proj only []
  repeat' first
    | with_reducible exact ‹Moves _ _ _›
    | with_reducible exact Sub.trans (by decide) hA
    | with_reducible apply modCtx_moves
    | with_reducible apply landIssued_moves
    | with_reducible refine Runs.next ?_
    | with_reducible refine ite_moves (fun _ => ?_) (fun _ => ?_)
    | split

theorem haltUe_moves {A : Nat} {s0 : State} (s : State) (core : Nat) (i : Nat) (hM : Moves A s0 s) (hA : Sub 147573952589676723138 A) : Moves A s0 (haltUe s core i) := by
  unfold haltUe
  try dsimp -proj only []
  repeat' first
    | with_reducible exact ‹Moves _ _ _›
    | with_reducible exact Sub.trans (by decide) hA
    | with_reducible apply raise_moves
    | with_reducible apply haltError_moves
    | with_reducible refine Runs.next ?_
    | with_reducible refine ite_moves (fun _ => ?_) (fun _ => ?_)
    | split

theorem haltFault_moves {A : Nat} {s0 : State} (s : State) (core : Nat) (i : Nat) (va : Nat) (pos : Nat) (x : XFault) (hM : Moves A s0 s) (hA : Sub 680585503029311066384837289438530026434 A) : Moves A s0 (haltFault s core i va pos x) := by
  unfold haltFault
  try dsimp -proj only []
  repeat' first
    | with_reducible exact ‹Moves _ _ _›
    | with_reducible exact Sub.trans (by decide) hA
    | with_reducible apply modCtx_moves
    | with_reducible apply raise_moves
    | with_reducible apply bump_moves
    | with_reducible apply produceRecord_moves
    | with_reducible exact page_strmFaultHalts _
    | with_reducible refine Runs.next ?_
    | with_reducible refine ite_moves (fun _ => ?_) (fun _ => ?_)
    | split

theorem disarm_moves {A : Nat} {s0 : State} (s : State) (core : Nat) (i : Nat) (hM : Moves A s0 s) (hA : Sub 680564733841876927074323167453213146050 A) : Moves A s0 (disarm s core i) := by
  unfold disarm
  try dsimp -proj only []
  repeat' first
    | with_reducible exact ‹Moves _ _ _›
    | with_reducible exact Sub.trans (by decide) hA
    | with_reducible apply disarmOne_moves
    | with_reducible refine Runs.next ?_
    | with_reducible refine ite_moves (fun _ => ?_) (fun _ => ?_)
    | split

theorem armingComplete_moves {A : Nat} {s0 : State} (s : State) (core : Nat) (i : Nat) (d : Desc) (hM : Moves A s0 s) (hA : Sub 192 A) : Moves A s0 (armingComplete s core i d) := by
  unfold armingComplete
  try dsimp -proj only []
  repeat' first
    | with_reducible exact ‹Moves _ _ _›
    | with_reducible exact Sub.trans (by decide) hA
    | with_reducible apply itemsRead_moves
    | with_reducible apply modCtx_moves
    | with_reducible refine Runs.next ?_
    | with_reducible refine ite_moves (fun _ => ?_) (fun _ => ?_)
    | split

theorem packetDone_moves {A : Nat} {s0 : State} (s : State) (core : Nat) (i : Nat) (d : Desc) (hM : Moves A s0 s) (hA : Sub 680564733841876927074323167453217340354 A) : Moves A s0 (packetDone s core i d) := by
  unfold packetDone
  try dsimp -proj only []
  repeat' first
    | with_reducible exact ‹Moves _ _ _›
    | with_reducible exact Sub.trans (by decide) hA
    | with_reducible apply armingComplete_moves
    | with_reducible apply disarm_moves
    | with_reducible apply ledgerStream_moves
    | with_reducible refine Runs.next ?_
    | with_reducible refine ite_moves (fun _ => ?_) (fun _ => ?_)
    | split

theorem armNow_moves {A : Nat} {s0 : State} (s : State) (core : Nat) (i : Nat) (a : Arming) (hM : Moves A s0 s) (hA : Sub 64 A) : Moves A s0 (armNow s core i a) := by
  unfold armNow
  try dsimp -proj only []
  repeat' first
    | with_reducible exact ‹Moves _ _ _›
    | with_reducible exact Sub.trans (by decide) hA
    | with_reducible apply modCtx_moves
    | with_reducible refine Runs.next ?_
    | with_reducible refine ite_moves (fun _ => ?_) (fun _ => ?_)
    | split

theorem armEffect_moves {A : Nat} {s0 : State} (s : State) (core i : Nat) (a : Arming) (hM : Moves A s0 s) (hA : Sub 64 A) :
    ∀ t, armEffect s core i a = some t → Moves A s0 t := by
  intro t h
  unfold armEffect at h
  split at h
  · cases h; exact armNow_moves _ _ _ _ hM hA
  · cases h

theorem rearmOne_moves {A : Nat} {s0 : State} (s : State) (core : Nat) (i : Nat) (a : Arming) (hM : Moves A s0 s) (hA : Sub 64 A) : Moves A s0 (rearmOne s core i a) := by
  unfold rearmOne
  try dsimp -proj only []
  repeat' first
    | with_reducible exact ‹Moves _ _ _›
    | with_reducible exact Sub.trans (by decide) hA
    | with_reducible apply modCtx_moves
    | with_reducible refine Runs.next ?_
    | with_reducible refine ite_moves (fun _ => ?_) (fun _ => ?_)
    | split

theorem rearmEffect_moves {A : Nat} {s0 : State} (s : State) (core i : Nat) (a : Arming) (hM : Moves A s0 s) (hA : Sub 20769187434139458088074574993589186 A) :
    ∀ t, rearmEffect s core i a = some t → Moves A s0 t := by
  intro t h
  unfold rearmEffect at h
  dsimp -proj only [] at h
  split at h
  · exact armEffect_moves _ _ _ _ hM (Sub.trans (by decide) hA) t h
  · cases h
    have h1 := ite_moves (c := (((s.core core).ctx i).st != SState.done && ((s.core core).ctx i).shadow.isSome) = true)
      (fun _ => raise_moves _ 0x5A01 .note (uCore core) (posOf i 0) (bump_moves _ 1 (page_strmOverwrites core) hM (Sub.trans (by decide) hA)) (Sub.trans (by decide) hA))
      (fun _ => hM)
    have h2 := rearmOne_moves _ core i a h1 (Sub.trans (by decide) hA)
    split
    · exact rearmOne_moves _ _ _ _ h2 (Sub.trans (by decide) hA)
    · exact h2

theorem dropOut_moves {A : Nat} {s0 : State} (s : State) (core : Nat) (sl : Nat) (hM : Moves A s0 s) (hA : Sub 64 A) : Moves A s0 (dropOut s core sl) := by
  unfold dropOut
  try dsimp -proj only []
  repeat' first
    | with_reducible exact ‹Moves _ _ _›
    | with_reducible exact Sub.trans (by decide) hA
    | with_reducible apply modCore_moves
    | with_reducible refine Runs.next ?_
    | with_reducible refine ite_moves (fun _ => ?_) (fun _ => ?_)
    | split

theorem flushNow_moves {A : Nat} {s0 : State} (s : State) (core : Nat) (sl : Nat) (hM : Moves A s0 s) (hA : Sub 680585503029311066384837289438530026434 A) : Moves A s0 (flushNow s core sl) := by
  unfold flushNow
  try dsimp -proj only []
  repeat' first
    | with_reducible exact ‹Moves _ _ _›
    | with_reducible exact Sub.trans (by decide) hA
    | with_reducible apply bump_moves
    | with_reducible apply haltFault_moves
    | with_reducible apply rewind_moves
    | with_reducible apply emptySlu_moves
    | with_reducible apply disarm_moves
    | with_reducible apply dropOut_moves
    | with_reducible exact page_strmFlushes _
    | with_reducible refine Runs.next ?_
    | with_reducible refine ite_moves (fun _ => ?_) (fun _ => ?_)
    | split

theorem flushAsk_moves {A : Nat} {s0 : State} (s : State) (core : Nat) (sl : Nat) (hM : Moves A s0 s) (hA : Sub 680585503029311066384837289438530026434 A) : Moves A s0 (flushAsk s core sl) := by
  unfold flushAsk
  try dsimp -proj only []
  repeat' first
    | with_reducible exact ‹Moves _ _ _›
    | with_reducible exact Sub.trans (by decide) hA
    | with_reducible apply haltFault_moves
    | with_reducible apply haltError_moves
    | with_reducible apply flushNow_moves
    | with_reducible apply modSlu_moves
    | with_reducible refine Runs.next ?_
    | with_reducible refine ite_moves (fun _ => ?_) (fun _ => ?_)
    | split

theorem disarmEffect_moves {A : Nat} {s0 : State} (s : State) (core i : Nat) (a : Arming) (hM : Moves A s0 s) (hA : Sub 680585503029311066384837289438530026434 A) :
    ∀ t, disarmEffect s core i a = some t → Moves A s0 t := by
  intro t h
  unfold disarmEffect at h
  dsimp -proj only [] at h
  split at h
  · cases h; exact flushAsk_moves _ _ _ hM (Sub.trans (by decide) hA)
  · split at h
    · cases h; exact hM
    · split at h
      · cases h; exact disarm_moves _ _ _ hM (Sub.trans (by decide) hA)
      · cases h; exact modCtx_moves _ _ _ _ hM (Sub.trans (by decide) hA)

theorem armCommand_moves {A : Nat} {s0 : State} (action core : Nat) (effect : State → Nat → Nat → Arming → Option State) (s : State) (hM : Moves A s0 s)
    (hf : ∀ s n a t, Moves A s0 s → effect s core n a = some t → Moves A s0 t) (hA : Sub 147573952589676708818 A) : Runs A s0 (armCommand action core effect s) := by
  unfold armCommand
  split
  · exact Runs.next hM
  · dsimp -proj only []
    refine ite_runs (fun _ => Runs.next hM) (fun _ => ite_runs (fun _ => Runs.next hM) (fun _ => ?_))
    split
    · exact Runs.next (mismatch_moves _ _ _ hM (Sub.trans (by decide) hA))
    · refine ite_runs (fun _ => Runs.next hM) (fun _ => ?_)
      split
      · exact Runs.next hM
      · exact Runs.next (modCore_moves _ _ (hf _ _ _ _ hM ‹_›) (Sub.trans (by decide) hA))

theorem skipDropped_moves {A : Nat} {s0 : State} (s : State) (core : Nat) (i : Nat) (d : Desc) (hM : Moves A s0 s) (hA : Sub 680564733841876927074323167453217340354 A) : Moves A s0 (skipDropped s core i d) := by
  unfold skipDropped
  try dsimp -proj only []
  repeat' first
    | with_reducible exact ‹Moves _ _ _›
    | with_reducible exact Sub.trans (by decide) hA
    | with_reducible apply modSlu_moves
    | with_reducible apply packetDone_moves
    | with_reducible apply modCtx_moves
    | with_reducible refine Runs.next ?_
    | with_reducible refine ite_moves (fun _ => ?_) (fun _ => ?_)
    | split

theorem openItem_moves {A : Nat} {s0 : State} (s : State) (cl : Nat) (i : Nat) (hM : Moves A s0 s) (hA : Sub 2722258935367507707706996859454145691776 A) : Moves A s0 (openItem s cl i) := by
  unfold openItem
  try dsimp -proj only []
  repeat' first
    | with_reducible exact ‹Moves _ _ _›
    | with_reducible exact Sub.trans (by decide) hA
    | with_reducible apply expandItem_moves
    | with_reducible refine Runs.next ?_
    | with_reducible refine ite_moves (fun _ => ?_) (fun _ => ?_)
    | split

theorem issueFlight_moves {A : Nat} {s0 : State} (s : State) (core : Nat) (i : Nat) (d : Desc) (f : Flight) (drops : Nat) (hM : Moves A s0 s) (hA : Sub 2722258935377411228168853854243019604930 A) : Moves A s0 (issueFlight s core i d f drops) := by
  unfold issueFlight
  try dsimp -proj only []
  repeat' first
    | with_reducible exact ‹Moves _ _ _›
    | with_reducible exact Sub.trans (by decide) hA
    | with_reducible apply withWeir_moves
    | with_reducible apply modSlu_moves
    | with_reducible apply modCtx_moves
    | with_reducible refine forAll_moves _ _ ?_ fun _ _ _ => ?_
    | with_reducible apply openItem_moves
    | with_reducible apply modItem_moves
    | with_reducible apply ledgerFlight_moves
    | with_reducible apply bump_moves
    | with_reducible apply raiseFirst_moves
    | with_reducible exact page_sparsePruneDrops _
    | with_reducible refine Runs.next ?_
    | with_reducible refine ite_moves (fun _ => ?_) (fun _ => ?_)
    | split

theorem askWalk_moves {A : Nat} {s0 : State} (s : State) (core : Nat) (i : Nat) (va : Nat) (pos : Nat) (hM : Moves A s0 s) (hA : Sub 8256 A) : Moves A s0 (askWalk s core i va pos) := by
  unfold askWalk
  try dsimp -proj only []
  repeat' first
    | with_reducible exact ‹Moves _ _ _›
    | with_reducible exact ‹MMoves _ _ _›
    | with_reducible exact Sub.trans (by decide) hA
    | with_reducible apply modCtx_moves
    | with_reducible refine withMem_moves ?_ ?_
    | refine MMoves.filtered _ _ ?_ ?_
    | with_reducible exact MMoves.refl _ _
    | exact mem_rest rfl rfl (Sub.trans (by decide) hA)
    | with_reducible refine Runs.next ?_
    | with_reducible refine ite_moves (fun _ => ?_) (fun _ => ?_)
    | split

theorem answerPlan_moves {A : Nat} {s0 : State} (s : State) (core : Nat) (i : Nat) (d : Desc) (p : Plan) (drops : Nat) (hM : Moves A s0 s) (hA : Sub 3743126805327660757869491798523641134034 A) : Moves A s0 (answerPlan s core i d p drops) := by
  unfold answerPlan
  try dsimp -proj only []
  repeat' first
    | with_reducible exact ‹Moves _ _ _›
    | with_reducible exact Sub.trans (by decide) hA
    | with_reducible apply askWalk_moves
    | with_reducible apply haltFault_moves
    | with_reducible apply haltUe_moves
    | with_reducible apply noteUe_moves
    | with_reducible apply mismatch_moves
    | with_reducible apply raise_moves
    | with_reducible apply haltError_moves
    | with_reducible apply rewind_moves
    | with_reducible apply modCtx_moves
    | with_reducible apply loseItem_moves
    | with_reducible apply issueFlight_moves
    | with_reducible refine Runs.next ?_
    | with_reducible refine ite_moves (fun _ => ?_) (fun _ => ?_)
    | split

theorem tryRequest_moves {A : Nat} {s0 : State} (s : State) (core : Nat) (i : Nat) (hM : Moves A s0 s) (hA : Sub 3743126805327660757869491798523641134034 A) : Moves A s0 (tryRequest s core i) := by
  unfold tryRequest
  try dsimp -proj only []
  repeat' first
    | with_reducible exact ‹Moves _ _ _›
    | with_reducible exact Sub.trans (by decide) hA
    | with_reducible apply skipDropped_moves
    | with_reducible apply mismatch_moves
    | with_reducible apply modCtx_moves
    | with_reducible apply answerPlan_moves
    | with_reducible refine Runs.next ?_
    | with_reducible refine ite_moves (fun _ => ?_) (fun _ => ?_)
    | split

theorem pieceBits_moves {A : Nat} {s0 : State} (core : Nat) (p : Piece) (s : State) (hM : Moves A s0 s) (hA : Sub 4 A) : Moves A s0 (pieceBits core p s).2 := by
  have h : ∀ bit n, Moves A s0 (dieBits (dieOf core) bit n s).2 := fun _ _ => dieBits_moves _ _ _ _ hM (Sub.trans (by decide) hA)
  unfold pieceBits
  split <;> dsimp only []
  case h_2 => split <;> exact hM
  all_goals first | exact h _ _ | exact hM

theorem joinBits_moves {A : Nat} {s0 : State} (core : Nat) (ps : List Piece) (s : State) (hM : Moves A s0 s) (hA : Sub 4 A) :
    Moves A s0 (joinBits core ps s).2 := by
  induction ps generalizing s with
  | nil => exact hM
  | cons p ps ih => exact ih _ (pieceBits_moves _ _ _ hM (Sub.trans (by decide) hA))

theorem flightStat_moves {A : Nat} {s0 : State} (s : State) (cl : Nat) (st : WordStat) (f : Flight) (hM : Moves A s0 s) (hA : Sub 340282366920938463610948560021444928386 A) :
    Moves A s0 (flightStat s cl st f).2 := by
  unfold flightStat
  split
  · exact hM
  · split
    · exact noteUe_moves _ _ hM (Sub.trans (by decide) hA)
    · exact readStat_moves _ _ _ _ hM (Sub.trans (by decide) hA)
    · exact hM

theorem commitLoad_moves {A : Nat} {s0 : State} (s : State) (core : Nat) (i : Nat) (d : Desc) (hM : Moves A s0 s) (hA : Sub 680564733851780447388606209652410334146 A) : Moves A s0 (commitLoad s core i d) := by
  unfold commitLoad
  try dsimp -proj only []
  repeat' first
    | with_reducible exact ‹Moves _ _ _›
    | with_reducible exact Sub.trans (by decide) hA
    | with_reducible apply modCore_moves
    | with_reducible apply bump_moves
    | with_reducible apply packetDone_moves
    | with_reducible apply modCtx_moves
    | with_reducible exact page_sparseAttnClear _
    | with_reducible refine Runs.next ?_
    | with_reducible refine ite_moves (fun _ => ?_) (fun _ => ?_)
    | split

theorem noteWalk_moves {A : Nat} {s0 : State} (s : State) (w : Walk) (hM : Moves A s0 s) (hA : Sub 340282366920938463463374607431768219648 A) : Moves A s0 (noteWalk s w) := by
  unfold noteWalk
  split
  · split
    · exact noteUe_moves _ _ hM (Sub.trans (by decide) hA)
    · exact hM
  · exact hM

theorem makeWalk_moves {A : Nat} {s0 : State} (s : State) (core i va : Nat) (bad : Option Nat) (hM : Moves A s0 s) (hA : Sub 1020847100762815390390123822295304658944 A) :
    Moves A s0 (makeWalk s core i va bad).2 :=
  noteWalk_moves _ _ (forAll_moves _ _ (bump_moves _ _ (page_xlatWalks _) hM (Sub.trans (by decide) hA)) fun _ _ h => sysDraw_moves _ _ _ h (Sub.trans (by decide) hA)) (Sub.trans (by decide) hA)

theorem finishWalk_moves {A : Nat} {s0 : State} (s : State) (core : Nat) (i : Nat) (va : Nat) (pos : Nat) (bad : Option Nat) (hM : Moves A s0 s) (hA : Sub 1020867869950249529848211896870298254278 A) : Moves A s0 (finishWalk s core i va pos bad) := by
  unfold finishWalk
  try dsimp -proj only []
  repeat' first
    | with_reducible exact ‹Moves _ _ _›
    | with_reducible exact Sub.trans (by decide) hA
    | with_reducible apply makeWalk_moves
    | with_reducible apply modCtx_moves
    | with_reducible apply walkFill_moves
    | with_reducible apply haltFault_moves
    | with_reducible refine Runs.next ?_
    | refine snd_moves (by assumption) ?_
    | refine fst_moves (by assumption) ?_
    | with_reducible refine ite_moves (fun _ => ?_) (fun _ => ?_)
    | split

theorem refuseCmd_moves {A : Nat} {s0 : State} (s : State) (core : Nat) (ctx : Nat) (hM : Moves A s0 s) (hA : Sub 5192296858534975202483086005928834 A) : Moves A s0 (refuseCmd s core ctx) := by
  unfold refuseCmd
  try dsimp -proj only []
  repeat' first
    | with_reducible exact ‹Moves _ _ _›
    | with_reducible exact Sub.trans (by decide) hA
    | with_reducible apply raise_moves
    | with_reducible apply bump_moves
    | with_reducible exact page_sluCmdRefused
    | with_reducible refine Runs.next ?_
    | with_reducible refine ite_moves (fun _ => ?_) (fun _ => ?_)
    | split

theorem strmResumeWrite_moves {A : Nat} {s0 : State} (s : State) (hM : Moves A s0 s) (hA : Sub 1020873062247108064675840427366627474374 A) : Moves A s0 (strmResumeWrite s).st := by
  unfold strmResumeWrite
  try dsimp -proj only []
  repeat' first
    | with_reducible exact ‹Moves _ _ _›
    | with_reducible exact Sub.trans (by decide) hA
    | with_reducible apply haltFault_moves
    | with_reducible apply Ans_refuse_moves
    | with_reducible apply refuseCmd_moves
    | with_reducible apply Ans_ok_moves
    | with_reducible apply modCtx_moves
    | with_reducible apply makeWalk_moves
    | with_reducible apply walkFill_moves
    | with_reducible exact page_strmSel
    | with_reducible refine Runs.next ?_
    | refine snd_moves (by assumption) ?_
    | refine fst_moves (by assumption) ?_
    | with_reducible refine ite_ans (fun _ => ?_) (fun _ => ?_)
    | with_reducible refine ite_moves (fun _ => ?_) (fun _ => ?_)
    | split
    | dsimp only []

theorem sluCommand_moves {A : Nat} {s0 : State} (ok : State → Nat → Nat → Bool) (effect : State → Nat → Nat → State) (s : State) (hM : Moves A s0 s)
    (hf : ∀ s a b, Moves A s0 s → Moves A s0 (effect s a b)) (hA : Sub 5192296858534975202483086005928834 A) : Moves A s0 (sluCommand ok effect s).st := by
  unfold sluCommand
  refine ite_ans (fun _ => hf _ _ _ hM) (fun _ => refuseCmd_moves _ _ _ hM hA)

theorem unitCommand_moves {A : Nat} {s0 : State} (s : State) (core sl : Nat) (ok : State → Nat → Nat → Bool) (effect : State → Nat → Nat → State) (hM : Moves A s0 s)
    (hf : ∀ s a b, Moves A s0 s → Moves A s0 (effect s a b)) (hA : Sub 5192296858534975202483086005928834 A) : Moves A s0 (unitCommand s core sl ok effect) := by
  unfold unitCommand
  exact ite_moves (fun _ => hf _ _ _ hM) (fun _ => refuseCmd_moves _ _ _ hM hA)

theorem dropRem_moves {A : Nat} {s0 : State} (s : State) (core : Nat) (sl : Nat) (hM : Moves A s0 s) (hA : Sub 680585503029311066384837289438534220738 A) : Moves A s0 (dropRem s core sl) := by
  unfold dropRem
  try dsimp -proj only []
  repeat' first
    | with_reducible exact ‹Moves _ _ _›
    | with_reducible exact Sub.trans (by decide) hA
    | with_reducible apply bump_moves
    | with_reducible apply haltFault_moves
    | with_reducible apply landIssued_moves
    | with_reducible apply withdraw_moves
    | with_reducible apply modSlu_moves
    | with_reducible apply modCtx_moves
    | with_reducible apply packetDone_moves
    | with_reducible apply modCore_moves
    | with_reducible exact page_strmDrops _
    | with_reducible refine Runs.next ?_
    | with_reducible refine ite_moves (fun _ => ?_) (fun _ => ?_)
    | split

theorem resetSlu_moves {A : Nat} {s0 : State} (s : State) (core : Nat) (sl : Nat) (hM : Moves A s0 s) (hA : Sub 680564733841876927074323167453213146050 A) : Moves A s0 (resetSlu s core sl) := by
  unfold resetSlu
  try dsimp -proj only []
  repeat' first
    | with_reducible exact ‹Moves _ _ _›
    | with_reducible exact Sub.trans (by decide) hA
    | with_reducible apply emptySlu_moves
    | with_reducible apply disarm_moves
    | with_reducible refine Runs.next ?_
    | with_reducible refine ite_moves (fun _ => ?_) (fun _ => ?_)
    | split

theorem sluCmdWrite_moves {A : Nat} {s0 : State} (v : Nat) (s : State) (hM : Moves A s0 s) (hA : Sub 680590695326169601212465819934863440834 A) : Moves A s0 (sluCmdWrite v s).st := by
  unfold sluCmdWrite
  try dsimp -proj only []
  repeat' first
    | with_reducible exact ‹Moves _ _ _›
    | with_reducible exact Sub.trans (by decide) hA
    | with_reducible refine sluCommand_moves _ _ _ ?_ (fun _ _ _ _ => ?_) ?_
    | with_reducible apply dropRem_moves
    | with_reducible apply flushAsk_moves
    | with_reducible apply resetSlu_moves
    | with_reducible apply Ans_refuse_moves
    | with_reducible apply refuseCmd_moves
    | with_reducible refine Runs.next ?_
    | with_reducible refine ite_ans (fun _ => ?_) (fun _ => ?_)
    | with_reducible refine ite_moves (fun _ => ?_) (fun _ => ?_)
    | split
    | dsimp only []

theorem refuseNarrow_moves {A : Nat} {s0 : State} (s : State) (core : Nat) (hM : Moves A s0 s) (hA : Sub 147573952589676708738 A) : Moves A s0 (refuseNarrow s core).st := by
  unfold refuseNarrow
  try dsimp -proj only []
  repeat' first
    | with_reducible exact ‹Moves _ _ _›
    | with_reducible exact Sub.trans (by decide) hA
    | with_reducible apply Ans_refuse_moves
    | with_reducible apply raise_moves
    | with_reducible refine Runs.next ?_
    | with_reducible refine ite_ans (fun _ => ?_) (fun _ => ?_)
    | with_reducible refine ite_moves (fun _ => ?_) (fun _ => ?_)
    | split
    | dsimp only []

theorem sluNarrowDataWrite_moves {A : Nat} {s0 : State} (v : Nat) (s : State) (hM : Moves A s0 s) (hA : Sub 147573952589676708802 A) : Moves A s0 (sluNarrowDataWrite v s).st := by
  unfold sluNarrowDataWrite
  try dsimp -proj only []
  repeat' first
    | with_reducible exact ‹Moves _ _ _›
    | with_reducible exact Sub.trans (by decide) hA
    | with_reducible apply refuseNarrow_moves
    | with_reducible apply Ans_ok_moves
    | with_reducible apply modSlu_moves
    | with_reducible refine Runs.next ?_
    | with_reducible refine ite_ans (fun _ => ?_) (fun _ => ?_)
    | with_reducible refine ite_moves (fun _ => ?_) (fun _ => ?_)
    | split
    | dsimp only []

theorem sluNarrowCloseWrite_moves {A : Nat} {s0 : State} (v : Nat) (s : State) (hM : Moves A s0 s) (hA : Sub 147573952589676708802 A) : Moves A s0 (sluNarrowCloseWrite v s).st := by
  unfold sluNarrowCloseWrite
  try dsimp -proj only []
  repeat' first
    | with_reducible exact ‹Moves _ _ _›
    | with_reducible exact Sub.trans (by decide) hA
    | with_reducible apply Ans_refuse_moves
    | with_reducible apply refuseNarrow_moves
    | with_reducible apply Ans_ok_moves
    | with_reducible apply modSlu_moves
    | with_reducible refine Runs.next ?_
    | with_reducible refine ite_ans (fun _ => ?_) (fun _ => ?_)
    | with_reducible refine ite_moves (fun _ => ?_) (fun _ => ?_)
    | split
    | dsimp only []

theorem preempt_moves {A : Nat} {s0 : State} (s : State) (core : Nat) (hM : Moves A s0 s) (hA : Sub 20769187434139310514121985316894912 A) : Moves A s0 (preempt s core).1 := by
  unfold preempt
  split
  · exact hM
  · dsimp -proj only []
    refine ite_fst (fun _ => ?_) (fun _ => ?_)
    · exact modCtx_moves _ _ _ _ (rewind_moves _ _ _ hM (Sub.trans (by decide) hA)) (Sub.trans (by decide) hA)
    · exact bump_moves _ _ (page_strmRewinds _) hM (Sub.trans (by decide) hA)

end Sys2Proof.Machine
end

