-- ==== Sys2Proof/Laws/Training.lean ====
section
/-! SUPPORT. What the operations of Machine/Training.lean change at most, each one's lemma. -/

namespace Sys2Proof.Machine

theorem setHolds_moves {A : Nat} {s0 : State} (s : State) (t : List Nat) (lead : Nat) (hM : Moves A s0 s) (hA : Sub 147573952589676709762 A) : Moves A s0 (setHolds s t lead) := by
  unfold setHolds
  try dsimp -proj only []
  repeat' first
    | with_reducible exact ‹Moves _ _ _›
    | with_reducible exact Sub.trans (by decide) hA
    | with_reducible refine forAll_moves _ _ ?_ fun _ _ _ => ?_
    | with_reducible apply modLayer_moves
    | with_reducible apply withTrain_moves
    | with_reducible apply raise_moves
    | with_reducible refine Runs.next ?_
    | with_reducible refine ite_moves (fun _ => ?_) (fun _ => ?_)
    | split

theorem showTally_moves {A : Nat} {s0 : State} (s : State) (t : List Nat) (hM : Moves A s0 s) (hA : Sub 1024 A) : Moves A s0 (showTally s t) := by
  unfold showTally
  try dsimp -proj only []
  repeat' first
    | with_reducible exact ‹Moves _ _ _›
    | with_reducible exact Sub.trans (by decide) hA
    | with_reducible refine forAll_moves _ _ ?_ fun _ _ _ => ?_
    | with_reducible apply modLayer_moves
    | with_reducible refine Runs.next ?_
    | with_reducible refine ite_moves (fun _ => ?_) (fun _ => ?_)
    | split

theorem healthDone_moves {A : Nat} {s0 : State} (s : State) (t : List Nat) (abort : Bool) (more : Nat) (lead : Nat) (hM : Moves A s0 s) (hA : Sub 147573952589680904066 A) : Moves A s0 (healthDone s t abort more lead) := by
  unfold healthDone
  try dsimp -proj only []
  repeat' first
    | with_reducible exact ‹Moves _ _ _›
    | with_reducible exact Sub.trans (by decide) hA
    | with_reducible apply setHolds_moves
    | with_reducible apply showTally_moves
    | with_reducible apply withTrain_moves
    | with_reducible apply ledgerPhase_moves
    | with_reducible exact page_schedClStep _
    | with_reducible refine Runs.next ?_
    | with_reducible refine ite_moves (fun _ => ?_) (fun _ => ?_)
    | split

theorem setExponents_moves {A : Nat} {s0 : State} (s : State) (lead : Nat) (f : Nat → Int) (hM : Moves A s0 s) (hA : Sub 147573952589676709762 A) : Moves A s0 (setExponents s lead f) := by
  unfold setExponents
  try dsimp -proj only []
  repeat' first
    | with_reducible exact ‹Moves _ _ _›
    | with_reducible exact Sub.trans (by decide) hA
    | with_reducible refine forAll_moves _ _ ?_ fun _ _ _ => ?_
    | with_reducible apply modLayer_moves
    | with_reducible apply raise_moves
    | with_reducible refine Runs.next ?_
    | with_reducible refine ite_moves (fun _ => ?_) (fun _ => ?_)
    | split

theorem fallHolds_moves {A : Nat} {s0 : State} (s : State) (hM : Moves A s0 s) (hA : Sub 1024 A) : Moves A s0 (fallHolds s) := by
  unfold fallHolds
  try dsimp -proj only []
  repeat' first
    | with_reducible exact ‹Moves _ _ _›
    | with_reducible exact Sub.trans (by decide) hA
    | with_reducible refine forAll_moves _ _ ?_ fun _ _ _ => ?_
    | with_reducible apply modLayer_moves
    | with_reducible refine Runs.next ?_
    | with_reducible refine ite_moves (fun _ => ?_) (fun _ => ?_)
    | split

theorem countSilent_moves {A : Nat} {s0 : State} (s : State) (lead : Nat) (hM : Moves A s0 s) (hA : Sub 147573952589676709762 A) : Moves A s0 (countSilent s lead) := by
  unfold countSilent
  try dsimp -proj only []
  repeat' first
    | with_reducible exact ‹Moves _ _ _›
    | with_reducible exact Sub.trans (by decide) hA
    | with_reducible refine forAll_moves _ _ ?_ fun _ _ _ => ?_
    | with_reducible apply modLayer_moves
    | with_reducible apply raise_moves
    | with_reducible refine Runs.next ?_
    | with_reducible refine ite_moves (fun _ => ?_) (fun _ => ?_)
    | split

theorem publish_moves {A : Nat} {s0 : State} (s : State) (step : Nat) (hM : Moves A s0 s) (hA : Sub 1267650600375803354086379914114 A) : Moves A s0 (publish s step) := by
  unfold publish
  try dsimp -proj only []
  repeat' first
    | with_reducible exact ‹Moves _ _ _›
    | with_reducible exact Sub.trans (by decide) hA
    | with_reducible apply step_moves
    | with_reducible apply raise_moves
    | with_reducible apply bump_moves
    | with_reducible apply withTrain_moves
    | with_reducible exact page_epochShadow
    | with_reducible exact page_epochSkipped
    | with_reducible refine Runs.next ?_
    | with_reducible refine ite_moves (fun _ => ?_) (fun _ => ?_)
    | split

theorem dropArrivals_moves {A : Nat} {s0 : State} (s : State) (g : Nat) (hM : Moves A s0 s) (hA : Sub 32 A) : Moves A s0 (dropArrivals s g) := by
  unfold dropArrivals
  try dsimp -proj only []
  repeat' first
    | with_reducible exact ‹Moves _ _ _›
    | with_reducible exact Sub.trans (by decide) hA
    | with_reducible apply withArrivals_moves
    | with_reducible refine Runs.next ?_
    | with_reducible refine ite_moves (fun _ => ?_) (fun _ => ?_)
    | split

theorem stepEnd_moves {A : Nat} {s0 : State} (s : State) (hM : Moves A s0 s) (hA : Sub 680585503029311066384837289438534220770 A) : Moves A s0 (stepEnd s) := by
  unfold stepEnd
  try dsimp -proj only []
  repeat' first
    | with_reducible exact ‹Moves _ _ _›
    | with_reducible exact Sub.trans (by decide) hA
    | with_reducible refine forAll_moves _ _ ?_ fun _ _ _ => ?_
    | with_reducible apply boundaryDisarm_moves
    | with_reducible apply modCore_moves
    | with_reducible apply dropArrivals_moves
    | with_reducible apply withTrain_moves
    | with_reducible refine Runs.next ?_
    | with_reducible refine ite_moves (fun _ => ?_) (fun _ => ?_)
    | split

theorem commitStep_moves {A : Nat} {s0 : State} (s : State) (lead : Nat) (hM : Moves A s0 s) (hA : Sub 81602322560026939133526642128652599304002448258700414336994 A) : Moves A s0 (commitStep s lead) := by
  unfold commitStep
  try dsimp -proj only []
  repeat' first
    | with_reducible exact ‹Moves _ _ _›
    | with_reducible exact Sub.trans (by decide) hA
    | with_reducible apply step_moves
    | with_reducible apply setReg_moves
    | with_reducible refine forAll_moves _ _ ?_ fun _ _ _ => ?_
    | with_reducible apply setExponents_moves
    | with_reducible apply countSilent_moves
    | with_reducible apply fallHolds_moves
    | with_reducible apply bump_moves
    | with_reducible apply publish_moves
    | with_reducible apply modCluster_moves
    | with_reducible apply ledgerPhase_moves
    | with_reducible apply stepDone_moves
    | with_reducible apply withCkpt_moves
    | with_reducible apply State_addHold_moves
    | with_reducible apply stepEnd_moves
    | with_reducible exact page_schedClStep _
    | with_reducible exact page_stepBank
    | with_reducible exact page_stepRetries
    | with_reducible exact page_stepCommits
    | with_reducible exact page_stepOutcome
    | with_reducible exact page_stepDataPos
    | with_reducible refine Runs.next ?_
    | with_reducible refine ite_moves (fun _ => ?_) (fun _ => ?_)
    | split

theorem discardStep_moves {A : Nat} {s0 : State} (s : State) (lead : Nat) (hM : Moves A s0 s) (hA : Sub 81602322560026939133526642127226492378745690182016606978018 A) : Moves A s0 (discardStep s lead) := by
  unfold discardStep
  try dsimp -proj only []
  repeat' first
    | with_reducible exact ‹Moves _ _ _›
    | with_reducible exact Sub.trans (by decide) hA
    | with_reducible apply step_moves
    | with_reducible apply setExponents_moves
    | with_reducible refine forAll_moves _ _ ?_ fun _ _ _ => ?_
    | with_reducible apply modCluster_moves
    | with_reducible apply modCore_moves
    | with_reducible apply bump_moves
    | with_reducible apply setReg_moves
    | with_reducible apply raise_moves
    | with_reducible apply withTrain_moves
    | with_reducible apply ledgerPhase_moves
    | with_reducible apply stepDone_moves
    | with_reducible apply stepEnd_moves
    | with_reducible apply withCkpt_moves
    | with_reducible apply withRill_moves
    | with_reducible exact page_schedClStep _
    | with_reducible exact page_stepDiscards
    | with_reducible exact page_stepRetries
    | with_reducible exact page_stepOutcome
    | with_reducible exact page_stepHealth
    | with_reducible exact page_stepRetryLimit
    | with_reducible refine Runs.next ?_
    | with_reducible refine ite_moves (fun _ => ?_) (fun _ => ?_)
    | split

theorem graceOver_moves {A : Nat} {s0 : State} (s : State) (cl : Nat) (part : Nat) (hM : Moves A s0 s) (hA : Sub 147573952589676708738 A) : Moves A s0 (graceOver s cl part) := by
  unfold graceOver
  try dsimp -proj only []
  repeat' first
    | with_reducible exact ‹Moves _ _ _›
    | with_reducible exact Sub.trans (by decide) hA
    | with_reducible apply raise_moves
    | with_reducible apply withTrain_moves
    | with_reducible refine Runs.next ?_
    | with_reducible refine ite_moves (fun _ => ?_) (fun _ => ?_)
    | split

theorem vaPut_moves {A : Nat} {s0 : State} (s : State) (va : Nat) (b : Byte) (hM : Moves A s0 s) (hA : Sub 2048 A) : Moves A s0 (vaPut s va b) := by
  unfold vaPut
  try dsimp -proj only []
  repeat' first
    | with_reducible exact ‹Moves _ _ _›
    | with_reducible exact ‹MMoves _ _ _›
    | with_reducible exact Sub.trans (by decide) hA
    | with_reducible refine withMem_moves ?_ ?_
    | with_reducible apply memSetByte_moves
    | refine MMoves.filtered _ _ ?_ ?_
    | with_reducible exact MMoves.refl _ _
    | exact mem_rest rfl rfl (Sub.trans (by decide) hA)
    | with_reducible refine Runs.next ?_
    | with_reducible refine ite_moves (fun _ => ?_) (fun _ => ?_)
    | split

theorem copyWeights_moves {A : Nat} {s0 : State} (s : State) (copy : List (BitVec 64 × BitVec 64)) (hM : Moves A s0 s) (hA : Sub 2048 A) : Moves A s0 (copyWeights s copy) := by
  unfold copyWeights
  try dsimp -proj only []
  repeat' first
    | with_reducible exact ‹Moves _ _ _›
    | with_reducible exact Sub.trans (by decide) hA
    | with_reducible refine forAll_moves _ _ ?_ fun _ _ _ => ?_
    | with_reducible apply vaPut_moves
    | with_reducible refine Runs.next ?_
    | with_reducible refine ite_moves (fun _ => ?_) (fun _ => ?_)
    | split

theorem dataPosWrite_moves {A : Nat} {s0 : State} (v : Nat) (s : State) (hM : Moves A s0 s) (hA : Sub 4951760157141521099596497152 A) : Moves A s0 (dataPosWrite v s).st := by
  unfold dataPosWrite
  try dsimp -proj only []
  repeat' first
    | with_reducible exact ‹Moves _ _ _›
    | with_reducible exact Sub.trans (by decide) hA
    | with_reducible apply Ans_ok_moves
    | with_reducible apply setReg_moves
    | with_reducible apply withTrain_moves
    | with_reducible exact page_stepDataPos
    | with_reducible refine Runs.next ?_
    | with_reducible refine ite_ans (fun _ => ?_) (fun _ => ?_)
    | with_reducible refine ite_moves (fun _ => ?_) (fun _ => ?_)
    | split
    | dsimp only []

theorem stepSkipWrite_moves {A : Nat} {s0 : State} (v : Nat) (s : State) (hM : Moves A s0 s) (hA : Sub 163408085185670196286684397824 A) : Moves A s0 (stepSkipWrite v s).st := by
  unfold stepSkipWrite
  try dsimp -proj only []
  repeat' first
    | with_reducible exact ‹Moves _ _ _›
    | with_reducible exact Sub.trans (by decide) hA
    | with_reducible apply Ans_refuse_moves
    | with_reducible refine forAll_moves _ _ ?_ fun _ _ _ => ?_
    | with_reducible apply setReg_moves
    | with_reducible apply Ans_ok_moves
    | with_reducible apply withTrain_moves
    | with_reducible exact page_schedClStep _
    | with_reducible exact page_stepRetries
    | with_reducible refine Runs.next ?_
    | with_reducible refine ite_ans (fun _ => ?_) (fun _ => ?_)
    | with_reducible refine ite_moves (fun _ => ?_) (fun _ => ?_)
    | split
    | dsimp only []

theorem retryLimitWrite_moves {A : Nat} {s0 : State} (v : Nat) (s : State) (hM : Moves A s0 s) (hA : Sub 4951760157141521099596497152 A) : Moves A s0 (retryLimitWrite v s).st := by
  unfold retryLimitWrite
  try dsimp -proj only []
  repeat' first
    | with_reducible exact ‹Moves _ _ _›
    | with_reducible exact Sub.trans (by decide) hA
    | with_reducible apply setReg_moves
    | with_reducible apply Ans_ok_moves
    | with_reducible apply withTrain_moves
    | with_reducible exact page_stepRetryLimit
    | with_reducible exact page_stepRetries
    | with_reducible refine Runs.next ?_
    | with_reducible refine ite_ans (fun _ => ?_) (fun _ => ?_)
    | with_reducible refine ite_moves (fun _ => ?_) (fun _ => ?_)
    | split
    | dsimp only []

end Sys2Proof.Machine
end

