-- ==== Sys2Proof/Laws/Roce.lean ====
section
/-! SUPPORT. What the operations of Machine/Roce.lean change at most, each one's lemma. -/

namespace Sys2Proof.Machine

theorem opNak_moves {A : Nat} {s0 : State} (s : State) (i : Nat) (psn : Nat) (syn : Nat) (hM : Moves A s0 s) (hA : Sub 2923449289565776448870200379945592959131664548738 A) : Moves A s0 (opNak s i psn syn) := by
  unfold opNak
  try dsimp -proj only []
  repeat' first
    | with_reducible exact ‹Moves _ _ _›
    | with_reducible exact Sub.trans (by decide) hA
    | with_reducible apply qpFail_moves
    | with_reducible apply roceEmit_moves
    | with_reducible refine Runs.next ?_
    | with_reducible refine ite_moves (fun _ => ?_) (fun _ => ?_)
    | split

theorem accessNak_moves {A : Nat} {s0 : State} (s : State) (i : Nat) (psn : Nat) (hM : Moves A s0 s) (hA : Sub 2923449289565776448870200379945592959131664548738 A) : Moves A s0 (accessNak s i psn) := by
  unfold accessNak
  try dsimp -proj only []
  repeat' first
    | with_reducible exact ‹Moves _ _ _›
    | with_reducible exact Sub.trans (by decide) hA
    | with_reducible apply bump_moves
    | with_reducible apply raise_moves
    | with_reducible apply State_modQp_moves
    | with_reducible apply opNak_moves
    | with_reducible exact page_roceAccessNaks
    | with_reducible refine Runs.next ?_
    | with_reducible refine ite_moves (fun _ => ?_) (fun _ => ?_)
    | split

theorem ackUp_moves {A : Nat} {s0 : State} (s : State) (i : Nat) (psn : Nat) (hM : Moves A s0 s) (hA : Sub 89202980794122492566142873090593446024970242 A) : Moves A s0 (ackUp s i psn) := by
  unfold ackUp
  try dsimp -proj only []
  repeat' first
    | with_reducible exact ‹Moves _ _ _›
    | with_reducible exact Sub.trans (by decide) hA
    | with_reducible apply roceEmit_moves
    | with_reducible refine Runs.next ?_
    | with_reducible refine ite_moves (fun _ => ?_) (fun _ => ?_)
    | split

theorem noteEcn_moves {A : Nat} {s0 : State} (s : State) (i : Nat) (h : RoceHdr) (hM : Moves A s0 s) (hA : Sub 89202980794122492566142873090593446024970242 A) : Moves A s0 (noteEcn s i h) := by
  unfold noteEcn
  try dsimp -proj only []
  repeat' first
    | with_reducible exact ‹Moves _ _ _›
    | with_reducible exact Sub.trans (by decide) hA
    | with_reducible apply roceEmit_moves
    | with_reducible refine Runs.next ?_
    | with_reducible refine ite_moves (fun _ => ?_) (fun _ => ?_)
    | split

theorem rxAdvance_moves {A : Nat} {s0 : State} (s : State) (i : Nat) (n : Nat) (hM : Moves A s0 s) (hA : Sub 1048576 A) : Moves A s0 (rxAdvance s i n) := by
  unfold rxAdvance
  try dsimp -proj only []
  repeat' first
    | with_reducible exact ‹Moves _ _ _›
    | with_reducible exact Sub.trans (by decide) hA
    | with_reducible apply State_modQp_moves
    | with_reducible refine Runs.next ?_
    | with_reducible refine ite_moves (fun _ => ?_) (fun _ => ?_)
    | split

theorem rxBySeq_moves {A : Nat} {s0 : State} (s : State) (i : Nat) (h : RoceHdr) (f : Nat → State → State) (hM : Moves A s0 s)
    (hf : ∀ i s, Moves A s0 s → Moves A s0 (f i s)) (hA : Sub 89202980794122492566142873090593446024970242 A) : Moves A s0 (rxBySeq s i h f) := by
  unfold rxBySeq
  split
  · exact hf _ _ hM
  · exact ackUp_moves _ _ _ hM (Sub.trans (by decide) hA)
  · exact roceEmit_moves _ _ _ hM (Sub.trans (by decide) hA)

theorem rxOrdered_moves {A : Nat} {s0 : State} (s : State) (h : RoceHdr) (f : Nat → State → State) (hM : Moves A s0 s)
    (hf : ∀ i s, Moves A s0 s → Moves A s0 (f i s)) (hA : Sub 89202980794122492566142873090593446024970242 A) : Moves A s0 (rxOrdered s h f) := by
  unfold rxOrdered
  split
  · exact dropFrame_moves _ _ hM (Sub.trans (by decide) hA)
  · exact rxBySeq_moves _ _ _ _ (noteEcn_moves s _ h hM (Sub.trans (by decide) hA)) hf (Sub.trans (by decide) hA)

theorem writePacket_moves {A : Nat} {s0 : State} (s : State) (i : Nat) (psn : Nat) (va : Nat) (left : Nat) (last : Bool) (bytes : List Byte) (hM : Moves A s0 s) (hA : Sub 2923449289565776448870200379945592959131664563074 A) : Moves A s0 (writePacket s i psn va left last bytes) := by
  unfold writePacket
  try dsimp -proj only []
  repeat' first
    | with_reducible exact ‹Moves _ _ _›
    | with_reducible exact Sub.trans (by decide) hA
    | with_reducible apply opNak_moves
    | with_reducible apply accessNak_moves
    | with_reducible apply rxAdvance_moves
    | with_reducible apply vaStore_moves
    | with_reducible apply State_modQp_moves
    | with_reducible apply ackUp_moves
    | with_reducible refine Runs.next ?_
    | with_reducible refine ite_moves (fun _ => ?_) (fun _ => ?_)
    | split

theorem regionWrite_moves {A : Nat} {s0 : State} (s : State) (i : Nat) (psn : Nat) (first : Option RoceAddr) (last : Bool) (bytes : List Byte) (hM : Moves A s0 s) (hA : Sub 2923449289565776448870200379945592959131664563074 A) : Moves A s0 (regionWrite s i psn first last bytes) := by
  unfold regionWrite
  try dsimp -proj only []
  repeat' first
    | with_reducible exact ‹Moves _ _ _›
    | with_reducible exact Sub.trans (by decide) hA
    | with_reducible apply writePacket_moves
    | with_reducible apply accessNak_moves
    | with_reducible apply opNak_moves
    | with_reducible refine Runs.next ?_
    | with_reducible refine ite_moves (fun _ => ?_) (fun _ => ?_)
    | split

theorem regionRead_moves {A : Nat} {s0 : State} (s : State) (i : Nat) (psn : Nat) (a : RoceAddr) (ue : Bool) (hM : Moves A s0 s) (hA : Sub 2923449289906058815791138843408967566563432770434 A) : Moves A s0 (regionRead s i psn a ue) := by
  unfold regionRead
  try dsimp -proj only []
  repeat' first
    | with_reducible exact ‹Moves _ _ _›
    | with_reducible exact Sub.trans (by decide) hA
    | with_reducible apply accessNak_moves
    | with_reducible apply vaMark_moves
    | with_reducible apply opNak_moves
    | with_reducible refine forAll_moves _ _ ?_ fun _ _ _ => ?_
    | with_reducible apply noteUe_moves
    | with_reducible apply roceEmit_moves
    | with_reducible refine Runs.next ?_
    | with_reducible refine ite_moves (fun _ => ?_) (fun _ => ?_)
    | split

end Sys2Proof.Machine
end

