-- ==== Sys2Proof/Laws/Mailbox.lean ====
section
/-! SUPPORT. What the operations of Machine/Mailbox.lean change at most, each one's lemma. -/

namespace Sys2Proof.Machine

theorem fullWrite_moves {A : Nat} {s0 : State} (s : State) (ep : Nat) (hM : Moves A s0 s) (hA : Sub 6277101735386680763835789423207666416249929397053711221634 A) : Moves A s0 (fullWrite s ep) := by
  unfold fullWrite
  try dsimp -proj only []
  repeat' first
    | with_reducible exact ‹Moves _ _ _›
    | with_reducible exact Sub.trans (by decide) hA
    | with_reducible apply raise_moves
    | with_reducible apply bump_moves
    | with_reducible exact page_mbxFullWrites
    | with_reducible refine Runs.next ?_
    | with_reducible refine ite_moves (fun _ => ?_) (fun _ => ?_)
    | split

theorem place_moves {A : Nat} {s0 : State} (s : State) (sender : Nat) (receiver : Nat) (secure : Bool) (bytes : List Byte) (hM : Moves A s0 s) (hA : Sub 75325220824640169166029473078491996993228265333568415203330 A) : Moves A s0 (place s sender receiver secure bytes) := by
  unfold place
  try dsimp -proj only []
  repeat' first
    | with_reducible exact ‹Moves _ _ _›
    | with_reducible exact Sub.trans (by decide) hA
    | with_reducible apply secure_moves
    | with_reducible apply ring_moves
    | with_reducible apply State_modChan_moves
    | with_reducible refine Runs.next ?_
    | with_reducible refine ite_moves (fun _ => ?_) (fun _ => ?_)
    | split

theorem portWrite_moves {A : Nat} {s0 : State} (s : State) (i : Nat) (psn : Nat) (e : Nat) (j : Nat) (off : Nat) (bytes : List Byte) (hM : Moves A s0 s) (hA : Sub 81602322562950299219431038950569863789276213737164113216386 A) : Moves A s0 (portWrite s i psn e j off bytes) := by
  unfold portWrite
  try dsimp -proj only []
  repeat' first
    | with_reducible exact ‹Moves _ _ _›
    | with_reducible exact Sub.trans (by decide) hA
    | with_reducible apply accessNak_moves
    | with_reducible apply opNak_moves
    | with_reducible apply fullWrite_moves
    | with_reducible apply ackUp_moves
    | with_reducible apply rxAdvance_moves
    | with_reducible apply place_moves
    | with_reducible refine Runs.next ?_
    | with_reducible refine ite_moves (fun _ => ?_) (fun _ => ?_)
    | split

theorem fieldWrite_moves {A : Nat} {s0 : State} (s : State) (i : Nat) (psn : Nat) (bytes : List Byte) (f : Nat → NetState → NetState) (hM : Moves A s0 s) (hA : Sub 2923449289565776448870200379945592959131664548738 A) : Moves A s0 (fieldWrite s i psn bytes f) := by
  unfold fieldWrite
  try dsimp -proj only []
  repeat' first
    | with_reducible exact ‹Moves _ _ _›
    | with_reducible exact Sub.trans (by decide) hA
    | with_reducible apply accessNak_moves
    | with_reducible apply ackUp_moves
    | with_reducible apply rxAdvance_moves
    | with_reducible apply withNet_moves
    | with_reducible refine Runs.next ?_
    | with_reducible refine ite_moves (fun _ => ?_) (fun _ => ?_)
    | split

theorem mbxWrite_moves {A : Nat} {s0 : State} (s : State) (i : Nat) (psn : Nat) (off : Nat) (bytes : List Byte) (hM : Moves A s0 s) (hA : Sub 81602322562950299219431038950569863789276213737164113216386 A) : Moves A s0 (mbxWrite s i psn off bytes) := by
  unfold mbxWrite
  try dsimp -proj only []
  repeat' first
    | with_reducible exact ‹Moves _ _ _›
    | with_reducible exact Sub.trans (by decide) hA
    | with_reducible apply accessNak_moves
    | with_reducible apply portWrite_moves
    | with_reducible apply fieldWrite_moves
    | with_reducible refine Runs.next ?_
    | with_reducible refine ite_moves (fun _ => ?_) (fun _ => ?_)
    | split

theorem mbxRead_moves {A : Nat} {s0 : State} (s : State) (i : Nat) (psn : Nat) (off : Nat) (n : Nat) (hM : Moves A s0 s) (hA : Sub 2923449289565776448870200379945592959131664548738 A) : Moves A s0 (mbxRead s i psn off n) := by
  unfold mbxRead
  try dsimp -proj only []
  repeat' first
    | with_reducible exact ‹Moves _ _ _›
    | with_reducible exact Sub.trans (by decide) hA
    | with_reducible apply accessNak_moves
    | with_reducible apply roceEmit_moves
    | with_reducible refine Runs.next ?_
    | with_reducible refine ite_moves (fun _ => ?_) (fun _ => ?_)
    | split

theorem pageWrite_moves {A : Nat} {s0 : State} (s : State) (h : RoceHdr) (key : BitVec 32) (e : Nat) (off : Nat) (bytes : List Byte) (hM : Moves A s0 s) (hA : Sub 81602322562950299219431038950569863789276213737164113216386 A) : Moves A s0 (pageWrite s h key e off bytes) := by
  unfold pageWrite
  try dsimp -proj only []
  repeat' first
    | with_reducible exact ‹Moves _ _ _›
    | with_reducible exact Sub.trans (by decide) hA
    | with_reducible refine rxOrdered_moves _ _ _ ?_ (fun _ _ _ => ?_) ?_
    | with_reducible apply rxFrame_moves
    | with_reducible apply opNak_moves
    | with_reducible apply mbxWrite_moves
    | with_reducible apply accessNak_moves
    | with_reducible exact page_mbxVa
    | with_reducible refine Runs.next ?_
    | with_reducible refine ite_moves (fun _ => ?_) (fun _ => ?_)
    | split

theorem maskWrite_moves {A p : Nat} {s0 : State} (obj ep v : Nat) (s : State) (hp : page obj = p) (hM : Moves A s0 s) (hB : Sub (2 ^ (32 + p)) A) (hA : Sub 2 A) :
    Moves A s0 (maskWrite obj ep v s).st := by
  unfold maskWrite
  dsimp -proj only []
  refine Ans_ok_moves _ (ite_moves (fun _ => ?_) (fun _ => ?_)) (Sub.trans (by decide) hA)
  · exact State_emit_moves _ _ (setReg_moves _ _ hp hM hB) (Sub.trans (by decide) hA)
  · exact setReg_moves _ _ hp hM hB

theorem takeLengths_moves {A : Nat} {s0 : State} (s : State) (cl : Nat) (m : List Byte) (hM : Moves A s0 s) (hA : Sub 6277101735386680763835789423207666416249929397053711221634 A) : Moves A s0 (takeLengths s cl m) := by
  unfold takeLengths
  try dsimp -proj only []
  repeat' first
    | with_reducible exact ‹Moves _ _ _›
    | with_reducible exact Sub.trans (by decide) hA
    | with_reducible apply modCluster_moves
    | with_reducible apply raise_moves
    | with_reducible apply bump_moves
    | with_reducible exact page_mbxBadLengths
    | with_reducible refine Runs.next ?_
    | with_reducible refine ite_moves (fun _ => ?_) (fun _ => ?_)
    | split

theorem takeChan_moves {A : Nat} {s0 : State} (s : State) (receiver sender : Nat) (secure : Bool) (served : Nat) (f : List Byte → State → State)
    (hM : Moves A s0 s) (hf : ∀ m s, Moves A s0 s → Moves A s0 (f m s)) (hA : Sub 1048576 A) : Moves A s0 (takeChan s receiver sender secure served f).2 :=
  forAll_moves _ _ (State_modChan_moves _ _ _ hM hA) hf

theorem takeAll_moves {A : Nat} {s0 : State} (s : State) (receiver : Nat) (chans : List (Nat × Bool)) (f : List Byte → State → State)
    (hM : Moves A s0 s) (hf : ∀ m s, Moves A s0 s → Moves A s0 (f m s)) (hA : Sub 75325220824640169166029473078491996993228265333568415203328 A) : Moves A s0 (takeAll s receiver chans f) := by
  have h1 : ∀ a : Nat × State, Moves A s0 a.2 →
      Moves A s0 (chans.foldl (fun (a : Nat × State) k => takeChan a.2 receiver k.1 k.2 a.1 f) a).2 := by
    induction chans with
    | nil => exact fun a h => h
    | cons k ks ih => exact fun a h => ih _ (takeChan_moves _ _ _ _ _ _ h hf (Sub.trans (by decide) hA))
  exact State_setPending_moves _ _ _ (h1 _ hM) (Sub.trans (by decide) hA)

theorem mcToSeq_moves {A : Nat} {s0 : State} (s : State) (cl : Nat) (bytes : List Byte) (hM : Moves A s0 s) (hA : Sub 81602322560026849929865262501699663409478194730622126424962 A) : Moves A s0 (mcToSeq s cl bytes) := by
  unfold mcToSeq
  try dsimp -proj only []
  repeat' first
    | with_reducible exact ‹Moves _ _ _›
    | with_reducible exact Sub.trans (by decide) hA
    | with_reducible apply fullWrite_moves
    | with_reducible apply place_moves
    | with_reducible refine Runs.next ?_
    | with_reducible refine ite_moves (fun _ => ?_) (fun _ => ?_)
    | split

theorem mcToHost_moves {A : Nat} {s0 : State} (s : State) (e : Nat) (secure : Bool) (bytes : List Byte) (hM : Moves A s0 s) (hA : Sub 81602322560026939132846056624192229552351285324068150346626 A) : Moves A s0 (mcToHost s e secure bytes) := by
  unfold mcToHost
  try dsimp -proj only []
  repeat' first
    | with_reducible exact ‹Moves _ _ _›
    | with_reducible exact Sub.trans (by decide) hA
    | with_reducible apply secure_moves
    | with_reducible apply fullWrite_moves
    | with_reducible apply sendHost_moves
    | with_reducible exact page_mbxRkey
    | with_reducible exact page_mbxEpQp _
    | with_reducible refine Runs.next ?_
    | with_reducible refine ite_moves (fun _ => ?_) (fun _ => ?_)
    | split

end Sys2Proof.Machine
end

