-- ==== Sys2Proof/Laws/Ethernet.lean ====
section
/-! SUPPORT. What the operations of Machine/Ethernet.lean change at most, each one's lemma. -/

namespace Sys2Proof.Machine

theorem ethTrain_moves {A : Nat} {s0 : State} (s : State) (p : Nat) (hM : Moves A s0 s) (hA : Sub 89202980794122492566142873090593446024970240 A) : Moves A s0 (ethTrain s p) := by
  unfold ethTrain
  try dsimp -proj only []
  repeat' first
    | with_reducible exact ‹Moves _ _ _›
    | with_reducible exact Sub.trans (by decide) hA
    | with_reducible apply ethState_moves
    | with_reducible refine Runs.next ?_
    | with_reducible refine ite_moves (fun _ => ?_) (fun _ => ?_)
    | split

theorem ethEnableWrite_moves {A : Nat} {s0 : State} (p : Nat) (v : Nat) (s : State) (hM : Moves A s0 s) (hA : Sub 2923627695527364693855332665691774146023712392066 A) : Moves A s0 (ethEnableWrite p v s).st := by
  unfold ethEnableWrite
  try dsimp -proj only []
  repeat' first
    | with_reducible exact ‹Moves _ _ _›
    | with_reducible exact Sub.trans (by decide) hA
    | with_reducible apply setReg_moves
    | with_reducible apply Ans_ok_moves
    | with_reducible apply ethTrain_moves
    | with_reducible apply ethLeave_moves
    | with_reducible apply Ans_refuse_moves
    | with_reducible exact page_ethPEnable _
    | with_reducible exact page_ethPState _
    | with_reducible refine Runs.next ?_
    | with_reducible refine ite_ans (fun _ => ?_) (fun _ => ?_)
    | with_reducible refine ite_moves (fun _ => ?_) (fun _ => ?_)
    | split
    | dsimp only []

theorem tryUp_moves {A : Nat} {s0 : State} (s : State) (p : Nat) (hM : Moves A s0 s) (hA : Sub 446014903970612462830714513026919819797365634 A) : Moves A s0 (tryUp s p) := by
  unfold tryUp
  try dsimp -proj only []
  repeat' first
    | with_reducible exact ‹Moves _ _ _›
    | with_reducible exact Sub.trans (by decide) hA
    | with_reducible apply ethEnter_moves
    | with_reducible exact page_ethPState _
    | with_reducible refine Runs.next ?_
    | with_reducible refine ite_moves (fun _ => ?_) (fun _ => ?_)
    | split

theorem readAt_moves {A : Nat} {s0 : State} (s : State) (i : Nat) (psn : Nat) (a : RoceAddr) (ue : Bool) (hM : Moves A s0 s) (hA : Sub 2923449289906058815791138843408967566563432770434 A) : Moves A s0 (readAt s i psn a ue) := by
  unfold readAt
  try dsimp -proj only []
  repeat' first
    | with_reducible exact ‹Moves _ _ _›
    | with_reducible exact Sub.trans (by decide) hA
    | with_reducible apply opNak_moves
    | with_reducible apply mbxRead_moves
    | with_reducible apply regionRead_moves
    | with_reducible exact page_mbxVa
    | with_reducible refine Runs.next ?_
    | with_reducible refine ite_moves (fun _ => ?_) (fun _ => ?_)
    | split

theorem completeReqs_moves {A : Nat} {s0 : State} (s : State) (i : Nat) (n : Nat) (data : List Byte) (hM : Moves A s0 s) (hA : Sub 2923449289565776448870200379945592959131664548738 A) : Moves A s0 (completeReqs s i n data) := by
  unfold completeReqs
  try dsimp -proj only []
  repeat' first
    | with_reducible exact ‹Moves _ _ _›
    | with_reducible exact Sub.trans (by decide) hA
    | with_reducible apply State_modQp_moves
    | with_reducible apply qpMove_moves
    | with_reducible refine forAll_moves _ _ ?_ fun _ _ _ => ?_
    | with_reducible apply rdmaDone_moves
    | with_reducible refine Runs.next ?_
    | with_reducible refine ite_moves (fun _ => ?_) (fun _ => ?_)
    | split

theorem retryQp_moves {A : Nat} {s0 : State} (s : State) (i : Nat) (hM : Moves A s0 s) (hA : Sub 2923449289565776448870200379945592959131664548738 A) : Moves A s0 (retryQp s i) := by
  unfold retryQp
  try dsimp -proj only []
  repeat' first
    | with_reducible exact ‹Moves _ _ _›
    | with_reducible exact Sub.trans (by decide) hA
    | with_reducible apply qpFail_moves
    | with_reducible apply qpResend_moves
    | with_reducible apply State_modQp_moves
    | with_reducible exact page_roceRetry
    | with_reducible refine Runs.next ?_
    | with_reducible refine ite_moves (fun _ => ?_) (fun _ => ?_)
    | split

theorem qpWrite_moves {A : Nat} {s0 : State} (s : State) (i : Nat) (v : Nat) (hM : Moves A s0 s) (hA : Sub 2923360086584982326377634237072502365685640627074 A) : Moves A s0 (qpWrite s i v) := by
  unfold qpWrite
  try dsimp -proj only []
  repeat' first
    | with_reducible exact ‹Moves _ _ _›
    | with_reducible exact Sub.trans (by decide) hA
    | with_reducible apply setReg_moves
    | with_reducible apply State_setQpFld_moves
    | with_reducible apply State_modQp_moves
    | with_reducible apply usersFail_moves
    | with_reducible exact page_roceQp
    | with_reducible exact page_ofUnit _ page_roceQp
    | with_reducible refine Runs.next ?_
    | with_reducible refine ite_moves (fun _ => ?_) (fun _ => ?_)
    | split

theorem roceQpWrite_moves {A : Nat} {s0 : State} (v : Nat) (s : State) (hM : Moves A s0 s) (hA : Sub 2923360086584982326377634237072502365685640627074 A) : Moves A s0 (roceQpWrite v s).st := by
  unfold roceQpWrite
  try dsimp -proj only []
  repeat' first
    | with_reducible exact ‹Moves _ _ _›
    | with_reducible exact Sub.trans (by decide) hA
    | with_reducible apply Ans_refuse_moves
    | with_reducible apply Ans_ok_moves
    | with_reducible apply qpWrite_moves
    | with_reducible exact page_roceQpSel
    | with_reducible refine Runs.next ?_
    | with_reducible refine ite_ans (fun _ => ?_) (fun _ => ?_)
    | with_reducible refine ite_moves (fun _ => ?_) (fun _ => ?_)
    | split
    | dsimp only []

theorem roceRgnWrite_moves {A : Nat} {s0 : State} (v : Nat) (s : State) (hM : Moves A s0 s) (hA : Sub 356811923176489970264571492362373784095686656 A) : Moves A s0 (roceRgnWrite v s).st := by
  unfold roceRgnWrite
  try dsimp -proj only []
  repeat' first
    | with_reducible exact ‹Moves _ _ _›
    | with_reducible exact Sub.trans (by decide) hA
    | with_reducible apply Ans_refuse_moves
    | with_reducible apply Ans_ok_moves
    | with_reducible apply setReg_moves
    | with_reducible exact page_roceRgnSel
    | with_reducible exact page_ofUnit _ page_roceRgnSel
    | with_reducible exact page_roceRgn
    | with_reducible exact page_ofUnit _ page_roceRgn
    | with_reducible refine Runs.next ?_
    | with_reducible refine ite_ans (fun _ => ?_) (fun _ => ?_)
    | with_reducible refine ite_moves (fun _ => ?_) (fun _ => ?_)
    | split
    | dsimp only []

end Sys2Proof.Machine
end

