-- ==== Sys2Proof/Laws/Rollout.lean ====
section
/-! SUPPORT. What the operations of Machine/Rollout.lean change at most, each one's lemma. -/

namespace Sys2Proof.Machine

theorem modSlot_moves {A : Nat} {s0 : State} (s : State) (cl : Nat) (n : Nat) (f : Slot → Slot) (hM : Moves A s0 s) (hA : Sub 128 A) : Moves A s0 (modSlot s cl n f) := by
  unfold modSlot
  try dsimp -proj only []
  repeat' first
    | with_reducible exact ‹Moves _ _ _›
    | with_reducible exact Sub.trans (by decide) hA
    | with_reducible apply modCluster_moves
    | with_reducible refine Runs.next ?_
    | with_reducible refine ite_moves (fun _ => ?_) (fun _ => ?_)
    | split

theorem forSlots_moves {A : Nat} {s0 : State} (s : State) (f : Nat → Nat → State → State) (hM : Moves A s0 s)
    (hf : ∀ c n s, Moves A s0 s → Moves A s0 (f c n s)) (hA : Sub 0 A) : Moves A s0 (forSlots s f) :=
  forAll_moves _ _ hM fun c _ hs => forAll_moves _ _ hs fun n s h => hf c n s h

theorem completeSlot_moves {A : Nat} {s0 : State} (cl : Nat) (n : Nat) (s : State) (hM : Moves A s0 s) (hA : Sub 1901475900342344102245054814336 A) : Moves A s0 (completeSlot cl n s) := by
  unfold completeSlot
  try dsimp -proj only []
  repeat' first
    | with_reducible exact ‹Moves _ _ _›
    | with_reducible exact Sub.trans (by decide) hA
    | with_reducible apply ringPut_moves
    | with_reducible apply bump_moves
    | with_reducible apply modSlot_moves
    | with_reducible exact page_rollClTokens _
    | with_reducible exact page_rollClPrefill _
    | with_reducible refine Runs.next ?_
    | with_reducible refine ite_moves (fun _ => ?_) (fun _ => ?_)
    | split

theorem rollEnd_moves {A : Nat} {s0 : State} (f : Core → Core) (s : State) (hM : Moves A s0 s) (hA : Sub 680585503029311066384837289438534220770 A) : Moves A s0 (rollEnd f s) := by
  unfold rollEnd
  try dsimp -proj only []
  repeat' first
    | with_reducible exact ‹Moves _ _ _›
    | with_reducible exact Sub.trans (by decide) hA
    | with_reducible refine forAll_moves _ _ ?_ fun _ _ _ => ?_
    | with_reducible apply boundaryDisarm_moves
    | with_reducible apply modCore_moves
    | with_reducible apply dropArrivals_moves
    | with_reducible refine Runs.next ?_
    | with_reducible refine ite_moves (fun _ => ?_) (fun _ => ?_)
    | split

theorem completeStep_moves {A : Nat} {s0 : State} (s : State) (hM : Moves A s0 s) (hA : Sub 680585505089243291755710066870676929506 A) : Moves A s0 (completeStep s) := by
  unfold completeStep
  try dsimp -proj only []
  repeat' first
    | with_reducible exact ‹Moves _ _ _›
    | with_reducible exact Sub.trans (by decide) hA
    | with_reducible apply rollEnd_moves
    | with_reducible refine forSlots_moves _ _ ?_ (fun _ _ _ _ => ?_) ?_
    | with_reducible apply completeSlot_moves
    | with_reducible refine forAll_moves _ _ ?_ fun _ _ _ => ?_
    | with_reducible apply setReg_moves
    | with_reducible exact page_schedClStep _
    | with_reducible refine Runs.next ?_
    | with_reducible refine ite_moves (fun _ => ?_) (fun _ => ?_)
    | split

theorem boundaryTables_moves {A : Nat} {s0 : State} (s : State) (hM : Moves A s0 s) (hA : Sub 66902916181097275581757930298465105965137874 A) : Moves A s0 (boundaryTables s) := by
  unfold boundaryTables
  try dsimp -proj only []
  repeat' first
    | with_reducible exact ‹Moves _ _ _›
    | with_reducible exact Sub.trans (by decide) hA
    | with_reducible refine forAll_moves _ _ ?_ fun _ _ _ => ?_
    | with_reducible apply tableApply_moves
    | with_reducible apply roleApply_moves
    | with_reducible refine Runs.next ?_
    | with_reducible refine ite_moves (fun _ => ?_) (fun _ => ?_)
    | split

theorem switchEpoch_moves {A : Nat} {s0 : State} (s : State) (hM : Moves A s0 s) (hA : Sub 1267650600375803354086379914114 A) : Moves A s0 (switchEpoch s) := by
  unfold switchEpoch
  try dsimp -proj only []
  repeat' first
    | with_reducible exact ‹Moves _ _ _›
    | with_reducible exact Sub.trans (by decide) hA
    | with_reducible apply setReg_moves
    | with_reducible apply bump_moves
    | with_reducible apply raise_moves
    | with_reducible refine forSlots_moves _ _ ?_ (fun _ _ _ _ => ?_) ?_
    | with_reducible apply modSlot_moves
    | with_reducible exact page_epochShadow
    | with_reducible exact page_epochBank
    | with_reducible exact page_epochActive
    | with_reducible exact page_epochSwitches
    | with_reducible refine Runs.next ?_
    | with_reducible refine ite_moves (fun _ => ?_) (fun _ => ?_)
    | split

theorem takeCancels_moves {A : Nat} {s0 : State} (s : State) (hM : Moves A s0 s) (hA : Sub 128 A) : Moves A s0 (takeCancels s) := by
  unfold takeCancels
  try dsimp -proj only []
  repeat' first
    | with_reducible exact ‹Moves _ _ _›
    | with_reducible exact Sub.trans (by decide) hA
    | with_reducible refine forSlots_moves _ _ ?_ (fun _ _ _ _ => ?_) ?_
    | with_reducible apply modSlot_moves
    | with_reducible refine Runs.next ?_
    | with_reducible refine ite_moves (fun _ => ?_) (fun _ => ?_)
    | split

theorem markSeals_moves {A : Nat} {s0 : State} (s : State) (hM : Moves A s0 s) (hA : Sub 128 A) : Moves A s0 (markSeals s) := by
  unfold markSeals
  try dsimp -proj only []
  repeat' first
    | with_reducible exact ‹Moves _ _ _›
    | with_reducible exact Sub.trans (by decide) hA
    | with_reducible refine forSlots_moves _ _ ?_ (fun _ _ _ _ => ?_) ?_
    | with_reducible apply modSlot_moves
    | with_reducible refine Runs.next ?_
    | with_reducible refine ite_moves (fun _ => ?_) (fun _ => ?_)
    | split

theorem refillSlot_moves {A : Nat} {s0 : State} (cl n k : Nat) (s : State) (hM : Moves A s0 s) (hA : Sub 1901475900489918054834731522946 A) : Moves A s0 (refillSlot cl n k s) := by
  induction k generalizing s with
  | zero => exact hM
  | succ k ih =>
    unfold refillSlot
    dsimp -proj only []
    have h1 := fun v => setReg_moves _ v page_rollPromptHead hM (Sub.trans (by decide) hA)
    refine ite_moves (fun _ => hM) (fun _ => ite_moves (fun _ => ?_) (fun _ => ?_))
    · exact modSlot_moves _ _ _ _ (h1 _) (Sub.trans (by decide) hA)
    · exact ih _ (raise_moves _ _ _ _ _ (bump_moves _ _ (page_rollClEnded _) (ringPut_moves _ _ (h1 _) (Sub.trans (by decide) hA)) (Sub.trans (by decide) hA)) (Sub.trans (by decide) hA))

theorem refill_moves {A : Nat} {s0 : State} (s : State) (hM : Moves A s0 s) (hA : Sub 1901475900489918054834731522946 A) : Moves A s0 (refill s) := by
  unfold refill
  try dsimp -proj only []
  repeat' first
    | with_reducible exact ‹Moves _ _ _›
    | with_reducible exact Sub.trans (by decide) hA
    | with_reducible refine forSlots_moves _ _ ?_ (fun _ _ _ _ => ?_) ?_
    | with_reducible apply refillSlot_moves
    | with_reducible refine Runs.next ?_
    | with_reducible refine ite_moves (fun _ => ?_) (fun _ => ?_)
    | split

theorem vaWrite_moves {A : Nat} {s0 : State} (s : State) (va : Nat) (bs : List Byte) (hM : Moves A s0 s) (hA : Sub 2048 A) : Moves A s0 (vaWrite s va bs) := by
  induction bs generalizing s va with
  | nil => exact hM
  | cons b bs ih => exact ih _ _ (vaPut_moves _ _ _ hM hA)

theorem writeRowMap_moves {A : Nat} {s0 : State} (s : State) (cl : Nat) (hM : Moves A s0 s) (hA : Sub 2048 A) : Moves A s0 (writeRowMap s cl) := by
  unfold writeRowMap
  try dsimp -proj only []
  repeat' first
    | with_reducible exact ‹Moves _ _ _›
    | with_reducible exact Sub.trans (by decide) hA
    | with_reducible refine forAll_moves _ _ ?_ fun _ _ _ => ?_
    | with_reducible apply vaWrite_moves
    | with_reducible refine Runs.next ?_
    | with_reducible refine ite_moves (fun _ => ?_) (fun _ => ?_)
    | split

theorem allocRows_moves {A : Nat} {s0 : State} (s : State) (cl : Nat) (hM : Moves A s0 s) (hA : Sub 2176 A) : Moves A s0 (allocRows s cl) := by
  unfold allocRows
  try dsimp -proj only []
  repeat' first
    | with_reducible exact ‹Moves _ _ _›
    | with_reducible exact Sub.trans (by decide) hA
    | with_reducible apply writeRowMap_moves
    | with_reducible apply modCluster_moves
    | with_reducible refine forAll_moves _ _ ?_ fun _ _ _ => ?_
    | with_reducible apply modSlot_moves
    | with_reducible refine Runs.next ?_
    | with_reducible refine ite_moves (fun _ => ?_) (fun _ => ?_)
    | split

theorem setBucket_moves {A : Nat} {s0 : State} (s : State) (cl : Nat) (hM : Moves A s0 s) (hA : Sub 633825300114114700748351602688 A) : Moves A s0 (setBucket s cl) := by
  unfold setBucket
  try dsimp -proj only []
  repeat' first
    | with_reducible exact ‹Moves _ _ _›
    | with_reducible exact Sub.trans (by decide) hA
    | with_reducible apply setReg_moves
    | with_reducible refine foldl_moves _ _ ?_ fun _ _ _ => ?_
    | with_reducible exact page_rollClBucket _
    | with_reducible refine Runs.next ?_
    | with_reducible refine ite_moves (fun _ => ?_) (fun _ => ?_)
    | split

theorem ringCheck_moves {A : Nat} {s0 : State} (s : State) (hM : Moves A s0 s) (hA : Sub 1267650600375803354086379914114 A) : Moves A s0 (ringCheck s) := by
  unfold ringCheck
  try dsimp -proj only []
  repeat' first
    | with_reducible exact ‹Moves _ _ _›
    | with_reducible exact Sub.trans (by decide) hA
    | with_reducible apply withRoll_moves
    | with_reducible apply raise_moves
    | with_reducible apply bump_moves
    | with_reducible exact page_rollRingStalls
    | with_reducible refine Runs.next ?_
    | with_reducible refine ite_moves (fun _ => ?_) (fun _ => ?_)
    | split

theorem boundarySlots_moves {A : Nat} {s0 : State} (s : State) (hM : Moves A s0 s) (hA : Sub 1901475900489918054834731522946 A) : Moves A s0 (boundarySlots s) := by
  unfold boundarySlots
  try dsimp -proj only []
  repeat' first
    | with_reducible exact ‹Moves _ _ _›
    | with_reducible exact Sub.trans (by decide) hA
    | with_reducible apply refill_moves
    | with_reducible apply markSeals_moves
    | with_reducible apply writeEnds_moves
    | with_reducible apply switchEpoch_moves
    | with_reducible refine forAll_moves _ _ ?_ fun _ _ _ => ?_
    | with_reducible apply refreshLive_moves
    | with_reducible apply setBucket_moves
    | with_reducible apply allocRows_moves
    | with_reducible apply modCluster_moves
    | with_reducible refine Runs.next ?_
    | with_reducible refine ite_moves (fun _ => ?_) (fun _ => ?_)
    | split

theorem boundaryRows_moves {A : Nat} {s0 : State} (s : State) (hM : Moves A s0 s) (hA : Sub 66902916181097275581757930298465105981915090 A) : Moves A s0 (boundaryRows s) := by
  unfold boundaryRows
  try dsimp -proj only []
  repeat' first
    | with_reducible exact ‹Moves _ _ _›
    | with_reducible exact Sub.trans (by decide) hA
    | with_reducible apply boundaryTables_moves
    | with_reducible apply takeCancels_moves
    | with_reducible refine forAll_moves _ _ ?_ fun _ _ _ => ?_
    | with_reducible apply checkReads_moves
    | with_reducible apply withRoll_moves
    | with_reducible apply boundarySlots_moves
    | with_reducible apply ringCheck_moves
    | with_reducible apply State_addHold_moves
    | with_reducible exact page_ckptState
    | with_reducible refine Runs.next ?_
    | with_reducible refine ite_moves (fun _ => ?_) (fun _ => ?_)
    | split

theorem sealTail_moves {A : Nat} {s0 : State} (s : State) (cl : Nat) (slot : Nat) (l : Nat) (h : Nat) (b : Nat) (hM : Moves A s0 s) (hA : Sub 633845852000622102033998318530 A) : Moves A s0 (sealTail s cl slot l h b) := by
  unfold sealTail
  try dsimp -proj only []
  repeat' first
    | with_reducible exact ‹Moves _ _ _›
    | with_reducible exact Sub.trans (by decide) hA
    | with_reducible apply vaWrite_moves
    | with_reducible apply noteQuant_moves
    | with_reducible apply modSlot_moves
    | with_reducible apply bump_moves
    | with_reducible exact page_rollClSeals _
    | with_reducible refine Runs.next ?_
    | with_reducible refine ite_moves (fun _ => ?_) (fun _ => ?_)
    | split

theorem sealSlot_moves {A : Nat} {s0 : State} (cl : Nat) (n : Nat) (s : State) (hM : Moves A s0 s) (hA : Sub 633845852000622102033998318530 A) : Moves A s0 (sealSlot cl n s) := by
  unfold sealSlot
  try dsimp -proj only []
  repeat' first
    | with_reducible exact ‹Moves _ _ _›
    | with_reducible exact Sub.trans (by decide) hA
    | with_reducible refine forAll_moves _ _ ?_ fun _ _ _ => ?_
    | with_reducible apply sealTail_moves
    | with_reducible apply modSlot_moves
    | with_reducible refine Runs.next ?_
    | with_reducible refine ite_moves (fun _ => ?_) (fun _ => ?_)
    | split

theorem unsealSlot_moves {A : Nat} {s0 : State} (cl : Nat) (n : Nat) (s : State) (hM : Moves A s0 s) (hA : Sub 2176 A) : Moves A s0 (unsealSlot cl n s) := by
  unfold unsealSlot
  try dsimp -proj only []
  repeat' first
    | with_reducible exact ‹Moves _ _ _›
    | with_reducible exact Sub.trans (by decide) hA
    | with_reducible refine forAll_moves _ _ ?_ fun _ _ _ => ?_
    | with_reducible apply vaWrite_moves
    | with_reducible apply modSlot_moves
    | with_reducible refine Runs.next ?_
    | with_reducible refine ite_moves (fun _ => ?_) (fun _ => ?_)
    | split

theorem rollCluster_moves {A : Nat} {s0 : State} (go : Bool) (cl : Nat) (s : State) (hM : Moves A s0 s) (hA : Sub 2722258935558015074065148583321043730624 A) : Moves A s0 (rollCluster go cl s) := by
  unfold rollCluster
  try dsimp -proj only []
  repeat' first
    | with_reducible exact ‹Moves _ _ _›
    | with_reducible exact Sub.trans (by decide) hA
    | with_reducible apply originReset_moves
    | with_reducible refine forAll_moves _ _ ?_ fun _ _ _ => ?_
    | with_reducible apply modCore_moves
    | with_reducible apply modCluster_moves
    | with_reducible exact page_schedClFenced _
    | with_reducible refine Runs.next ?_
    | with_reducible refine ite_moves (fun _ => ?_) (fun _ => ?_)
    | split

theorem rollOrigin_moves {A : Nat} {s0 : State} (s : State) (hM : Moves A s0 s) (hA : Sub 2722258936191841583252656851288246750162 A) : Moves A s0 (rollOrigin s) := by
  unfold rollOrigin
  try dsimp -proj only []
  repeat' first
    | with_reducible exact ‹Moves _ _ _›
    | with_reducible exact Sub.trans (by decide) hA
    | with_reducible apply withRoll_moves
    | with_reducible refine forAll_moves _ _ ?_ fun _ _ _ => ?_
    | with_reducible apply rollCluster_moves
    | with_reducible refine forSlots_moves _ _ ?_ (fun _ _ _ _ => ?_) ?_
    | with_reducible apply sealSlot_moves
    | with_reducible apply stopPlan_moves
    | with_reducible exact page_epochBank
    | with_reducible refine Runs.next ?_
    | with_reducible refine ite_moves (fun _ => ?_) (fun _ => ?_)
    | split

theorem dropStoppedEncoding_moves {A : Nat} {s0 : State} (s : State) (cl : Nat) (hM : Moves A s0 s) (hA : Sub 192 A) : Moves A s0 (dropStoppedEncoding s cl) := by
  unfold dropStoppedEncoding
  try dsimp -proj only []
  repeat' first
    | with_reducible exact ‹Moves _ _ _›
    | with_reducible exact Sub.trans (by decide) hA
    | with_reducible refine forAll_moves _ _ ?_ fun _ _ _ => ?_
    | with_reducible apply modCore_moves
    | with_reducible apply modCluster_moves
    | with_reducible refine Runs.next ?_
    | with_reducible refine ite_moves (fun _ => ?_) (fun _ => ?_)
    | split

theorem dropRecord_moves {A : Nat} {s0 : State} (s : State) (core : Nat) (id : Nat) (hM : Moves A s0 s) (hA : Sub 20769187434139310514121985316880448 A) : Moves A s0 (dropRecord s core id) := by
  unfold dropRecord
  try dsimp -proj only []
  repeat' first
    | with_reducible exact ‹Moves _ _ _›
    | with_reducible exact Sub.trans (by decide) hA
    | with_reducible apply modCore_moves
    | with_reducible apply bump_moves
    | with_reducible exact page_strmDrops _
    | with_reducible refine Runs.next ?_
    | with_reducible refine ite_moves (fun _ => ?_) (fun _ => ?_)
    | split

theorem rollCancelWrite_moves {A : Nat} {s0 : State} (v : Nat) (s : State) (hM : Moves A s0 s) (hA : Sub 20769187434139458088074574993589186 A) : Moves A s0 (rollCancelWrite v s).st := by
  unfold rollCancelWrite
  try dsimp -proj only []
  repeat' first
    | with_reducible exact ‹Moves _ _ _›
    | with_reducible exact Sub.trans (by decide) hA
    | with_reducible apply Ans_ok_moves
    | with_reducible apply raise_moves
    | with_reducible apply modSlot_moves
    | with_reducible apply dropRecord_moves
    | with_reducible refine Runs.next ?_
    | with_reducible refine ite_ans (fun _ => ?_) (fun _ => ?_)
    | with_reducible refine ite_moves (fun _ => ?_) (fun _ => ?_)
    | split
    | dsimp only []

theorem epochReadyWrite_moves {A : Nat} {s0 : State} (v : Nat) (s : State) (hM : Moves A s0 s) (hA : Sub 1267650600375803354086379914114 A) : Moves A s0 (epochReadyWrite v s).st := by
  unfold epochReadyWrite
  try dsimp -proj only []
  repeat' first
    | with_reducible exact ‹Moves _ _ _›
    | with_reducible exact Sub.trans (by decide) hA
    | with_reducible apply Ans_refuse_moves
    | with_reducible apply raise_moves
    | with_reducible apply bump_moves
    | with_reducible apply Ans_ok_moves
    | with_reducible apply setReg_moves
    | with_reducible apply withRoll_moves
    | with_reducible exact page_epochRefused
    | with_reducible exact page_epochShadow
    | with_reducible refine Runs.next ?_
    | with_reducible refine ite_ans (fun _ => ?_) (fun _ => ?_)
    | with_reducible refine ite_moves (fun _ => ?_) (fun _ => ?_)
    | split
    | dsimp only []

end Sys2Proof.Machine
end

