-- ==== Sys2Proof/Laws/Ring.lean ====
section
/-! SUPPORT. What the operations of Machine/Ring.lean change at most, each one's lemma. -/

namespace Sys2Proof.Machine

theorem State_modColl_moves {A : Nat} {s0 : State} (s : State) (k : Nat) (f : Coll → Coll) (hM : Moves A s0 s) (hA : Sub 524288 A) : Moves A s0 (State.modColl s k f) := by
  unfold State.modColl
  try dsimp -proj only []
  repeat' first
    | with_reducible exact ‹Moves _ _ _›
    | with_reducible exact Sub.trans (by decide) hA
    | with_reducible apply withRill_moves
    | with_reducible refine Runs.next ?_
    | with_reducible refine ite_moves (fun _ => ?_) (fun _ => ?_)
    | split

theorem Ring_note_moves {A : Nat} {s0 : State} (g : Ring) (s : State) (hM : Moves A s0 s) (hA : Sub 4194304 A) : Moves A s0 (Ring.note g s) := by
  unfold Ring.note
  try dsimp -proj only []
  repeat' first
    | with_reducible exact ‹Moves _ _ _›
    | with_reducible exact Sub.trans (by decide) hA
    | with_reducible apply ledgerColl_moves
    | with_reducible refine Runs.next ?_
    | with_reducible refine ite_moves (fun _ => ?_) (fun _ => ?_)
    | split

theorem Ring_write_moves {A : Nat} {s0 : State} (g : Ring) (s : State) (b : Nat) (c : Nat) (codes : List Nat) (hM : Moves A s0 s) (hA : Sub 4720640 A) : Moves A s0 (Ring.write g s b c codes) := by
  unfold Ring.write
  try dsimp -proj only []
  repeat' first
    | with_reducible exact ‹Moves _ _ _›
    | with_reducible exact Sub.trans (by decide) hA
    | with_reducible refine forAll_moves _ _ ?_ fun _ _ _ => ?_
    | with_reducible apply vaWrite_moves
    | with_reducible apply Ring_note_moves
    | with_reducible apply State_modColl_moves
    | with_reducible refine Runs.next ?_
    | with_reducible refine ite_moves (fun _ => ?_) (fun _ => ?_)
    | split

theorem noteWire_moves {A : Nat} {s0 : State} (s : State) (zeroed : Nat) (sat : Nat) (hM : Moves A s0 s) (hA : Sub 22300745198530623141535718272648361505980544 A) : Moves A s0 (noteWire s zeroed sat) := by
  unfold noteWire
  try dsimp -proj only []
  repeat' first
    | with_reducible exact ‹Moves _ _ _›
    | with_reducible exact Sub.trans (by decide) hA
    | with_reducible apply bump_moves
    | with_reducible apply setHealth_moves
    | with_reducible exact page_rillWireZero
    | with_reducible exact page_rillRedSat
    | with_reducible refine Runs.next ?_
    | with_reducible refine ite_moves (fun _ => ?_) (fun _ => ?_)
    | split

theorem Ring_final_moves {A : Nat} {s0 : State} (g : Ring) (s : State) (b : Nat) (ws : List Wire) (tally : List Nat) (hM : Moves A s0 s) (hA : Sub 4720640 A) : Moves A s0 (Ring.final g s b ws tally) := by
  unfold Ring.final
  try dsimp -proj only []
  repeat' first
    | with_reducible exact ‹Moves _ _ _›
    | with_reducible exact Sub.trans (by decide) hA
    | with_reducible refine forAll_moves _ _ ?_ fun _ _ _ => ?_
    | with_reducible apply Ring_write_moves
    | with_reducible apply State_modColl_moves
    | with_reducible refine Runs.next ?_
    | with_reducible refine ite_moves (fun _ => ?_) (fun _ => ?_)
    | split

theorem Ring_inject_moves {A : Nat} {s0 : State} (g : Ring) (s : State) (b : Nat) (n : Nat) (hM : Moves A s0 s) (hA : Sub 22300745198530623141535718272648361510701184 A) : Moves A s0 (Ring.inject g s b n) := by
  unfold Ring.inject
  try dsimp -proj only []
  repeat' first
    | with_reducible exact ‹Moves _ _ _›
    | with_reducible exact Sub.trans (by decide) hA
    | with_reducible apply noteWire_moves
    | with_reducible apply State_modColl_moves
    | with_reducible apply Ring_final_moves
    | with_reducible refine Runs.next ?_
    | with_reducible refine ite_moves (fun _ => ?_) (fun _ => ?_)
    | split

theorem Ring_pump_moves {A : Nat} {s0 : State} (g : Ring) (k : Nat) (s : State) (hM : Moves A s0 s) (hA : Sub 22300745198530623141535718272648361510701184 A) : Moves A s0 (g.pump k s) := by
  induction k generalizing s with
  | zero => exact hM
  | succ k ih =>
    unfold Ring.pump
    exact ite_moves (fun _ => hM) (fun _ => ih _ (Ring_inject_moves _ _ _ _ hM (Sub.trans (by decide) hA)))

theorem Ring_add_moves {A : Nat} {s0 : State} (g : Ring) (s : State) (j : Nat) (b : Nat) (f : Flit) (hM : Moves A s0 s) (hA : Sub 22300745198530623141535718272648361510701184 A) : Moves A s0 (Ring.add g s j b f) := by
  unfold Ring.add
  try dsimp -proj only []
  repeat' first
    | with_reducible exact ‹Moves _ _ _›
    | with_reducible exact Sub.trans (by decide) hA
    | with_reducible apply noteWire_moves
    | with_reducible apply Ring_note_moves
    | with_reducible apply State_modColl_moves
    | with_reducible apply Ring_final_moves
    | with_reducible refine Runs.next ?_
    | with_reducible refine ite_moves (fun _ => ?_) (fun _ => ?_)
    | split

theorem ringSkew_moves {A : Nat} {s0 : State} (s : State) (k : Nat) (port : Nat) (hM : Moves A s0 s) (hA : Sub 147573952589677233026 A) : Moves A s0 (ringSkew s k port) := by
  unfold ringSkew
  try dsimp -proj only []
  repeat' first
    | with_reducible exact ‹Moves _ _ _›
    | with_reducible exact Sub.trans (by decide) hA
    | with_reducible apply raise_moves
    | with_reducible apply setHealth_moves
    | with_reducible apply State_modColl_moves
    | with_reducible refine Runs.next ?_
    | with_reducible refine ite_moves (fun _ => ?_) (fun _ => ?_)
    | split

theorem freeBuf_moves {A : Nat} {s0 : State} (s : State) (f : Flit) (hM : Moves A s0 s) (hA : Sub 524288 A) : Moves A s0 (freeBuf s f) := by
  unfold freeBuf
  try dsimp -proj only []
  repeat' first
    | with_reducible exact ‹Moves _ _ _›
    | with_reducible exact Sub.trans (by decide) hA
    | with_reducible apply withRill_moves
    | with_reducible refine Runs.next ?_
    | with_reducible refine ite_moves (fun _ => ?_) (fun _ => ?_)
    | split

theorem Ring_drain_moves {A : Nat} {s0 : State} (g : Ring) (fs : List Flit) (s : State) (hM : Moves A s0 s) (hA : Sub 22300745198530623141535718272648361510701184 A) : Moves A s0 (Ring.drain g fs s) := by
  unfold Ring.drain
  try dsimp -proj only []
  repeat' first
    | with_reducible exact ‹Moves _ _ _›
    | with_reducible exact Sub.trans (by decide) hA
    | with_reducible refine forAll_moves _ _ ?_ fun _ _ _ => ?_
    | with_reducible apply State_modColl_moves
    | with_reducible apply freeBuf_moves
    | with_reducible apply Ring_add_moves
    | with_reducible refine Runs.next ?_
    | with_reducible refine ite_moves (fun _ => ?_) (fun _ => ?_)
    | split

theorem Ring_receive_moves {A : Nat} {s0 : State} (g : Ring) (s : State) (port : Nat) (f : Flit) (hM : Moves A s0 s) (hA : Sub 22300745198530623141535865846600951187409858 A) : Moves A s0 (Ring.receive g s port f) := by
  unfold Ring.receive
  try dsimp -proj only []
  repeat' first
    | with_reducible exact ‹Moves _ _ _›
    | with_reducible exact Sub.trans (by decide) hA
    | with_reducible apply gather_moves
    | with_reducible apply freeBuf_moves
    | with_reducible apply ringSkew_moves
    | with_reducible apply State_modColl_moves
    | with_reducible refine forAll_moves _ _ ?_ fun _ _ _ => ?_
    | with_reducible apply Ring_write_moves
    | with_reducible apply Ring_drain_moves
    | with_reducible refine Runs.next ?_
    | refine snd_moves (by assumption) ?_
    | refine fst_moves (by assumption) ?_
    | with_reducible refine ite_moves (fun _ => ?_) (fun _ => ?_)
    | split

theorem Ring_receiveLine_moves {A : Nat} {s0 : State} (g : Ring) (s : State) (f : Flit) (hM : Moves A s0 s) (hA : Sub 526336 A) : Moves A s0 (Ring.receiveLine g s f) := by
  unfold Ring.receiveLine
  try dsimp -proj only []
  repeat' first
    | with_reducible exact ‹Moves _ _ _›
    | with_reducible exact Sub.trans (by decide) hA
    | with_reducible apply vaWrite_moves
    | with_reducible apply freeBuf_moves
    | with_reducible apply State_modColl_moves
    | with_reducible refine Runs.next ?_
    | with_reducible refine ite_moves (fun _ => ?_) (fun _ => ?_)
    | split

theorem Ring_receiveRaw_moves {A : Nat} {s0 : State} (g : Ring) (s : State) (f : Flit) (hM : Moves A s0 s) (hA : Sub 4720640 A) : Moves A s0 (Ring.receiveRaw g s f) := by
  unfold Ring.receiveRaw
  try dsimp -proj only []
  repeat' first
    | with_reducible exact ‹Moves _ _ _›
    | with_reducible exact Sub.trans (by decide) hA
    | with_reducible apply vaWrite_moves
    | with_reducible apply State_modColl_moves
    | with_reducible apply freeBuf_moves
    | with_reducible apply Ring_note_moves
    | with_reducible refine Runs.next ?_
    | with_reducible refine ite_moves (fun _ => ?_) (fun _ => ?_)
    | split

theorem deliverFlit_moves {A : Nat} {s0 : State} (s : State) (port : Nat) (f : Flit) (hM : Moves A s0 s) (hA : Sub 22300745198530623141535865846600951187426242 A) : Moves A s0 (deliverFlit s port f) := by
  unfold deliverFlit
  try dsimp -proj only []
  repeat' first
    | with_reducible exact ‹Moves _ _ _›
    | with_reducible exact Sub.trans (by decide) hA
    | with_reducible apply withRill_moves
    | with_reducible apply freeBuf_moves
    | with_reducible apply withWeir_moves
    | with_reducible apply Ring_receive_moves
    | with_reducible apply Ring_receiveLine_moves
    | with_reducible apply Ring_receiveRaw_moves
    | with_reducible refine Runs.next ?_
    | with_reducible refine ite_moves (fun _ => ?_) (fun _ => ?_)
    | split

theorem deliverHeld_moves {A : Nat} {s0 : State} (s : State) (hM : Moves A s0 s) (hA : Sub 22300745198530623141535865846600951187426242 A) : Moves A s0 (deliverHeld s) := by
  unfold deliverHeld
  try dsimp -proj only []
  repeat' first
    | with_reducible exact ‹Moves _ _ _›
    | with_reducible exact Sub.trans (by decide) hA
    | with_reducible apply withRill_moves
    | with_reducible refine forAll_moves _ _ ?_ fun _ _ _ => ?_
    | with_reducible apply deliverFlit_moves
    | with_reducible refine Runs.next ?_
    | with_reducible refine ite_moves (fun _ => ?_) (fun _ => ?_)
    | split

theorem Ring_reduceRange_moves {A : Nat} {s0 : State} (g : Ring) (core : Nat) (elem0 : Nat) (n : Nat) (s : State) (hM : Moves A s0 s) (hA : Sub 618970167216642727126797250 A) : Moves A s0 (Ring.reduceRange g core elem0 n s) := by
  unfold Ring.reduceRange
  try dsimp -proj only []
  repeat' first
    | with_reducible exact ‹Moves _ _ _›
    | with_reducible exact Sub.trans (by decide) hA
    | with_reducible apply noteAcc_moves
    | with_reducible apply vaWrite_moves
    | with_reducible apply State_modColl_moves
    | with_reducible refine foldl_moves _ _ ?_ fun _ _ _ => ?_
    | with_reducible refine Runs.next ?_
    | with_reducible refine ite_moves (fun _ => ?_) (fun _ => ?_)
    | split

theorem Ring_sendPairs_moves {A : Nat} {s0 : State} (g : Ring) (s : State) (core : Nat) (elem0 : Nat) (ps : List Nat) (hM : Moves A s0 s) (hA : Sub 22300745198530623760505885489291088636971970 A) : Moves A s0 (Ring.sendPairs g s core elem0 ps) := by
  unfold Ring.sendPairs
  try dsimp -proj only []
  repeat' first
    | with_reducible exact ‹Moves _ _ _›
    | with_reducible exact Sub.trans (by decide) hA
    | with_reducible apply State_modColl_moves
    | with_reducible refine forAll_moves _ _ ?_ fun _ _ _ => ?_
    | with_reducible apply Ring_reduceRange_moves
    | with_reducible apply Ring_drain_moves
    | with_reducible apply Ring_pump_moves
    | with_reducible refine Runs.next ?_
    | with_reducible refine ite_moves (fun _ => ?_) (fun _ => ?_)
    | split

theorem sendForm_moves {A : Nat} {s0 : State} (s : State) (core : Nat) (c : Cur) (ws : Nat → List Nat) (hM : Moves A s0 s) (hA : Sub 22300745198530623760505885489291088636971970 A) : Moves A s0 (sendForm s core c ws).st := by
  unfold sendForm
  try dsimp -proj only []
  repeat' first
    | with_reducible exact ‹Moves _ _ _›
    | with_reducible exact Sub.trans (by decide) hA
    | with_reducible apply State_modColl_moves
    | with_reducible apply Ring_sendPairs_moves
    | with_reducible apply combineRegion_moves
    | with_reducible apply vaWrite_moves
    | with_reducible apply modCore_moves
    | with_reducible refine Runs.next ?_
    | with_reducible refine ite_moves (fun _ => ?_) (fun _ => ?_)
    | with_reducible refine ite_moves (fun _ => ?_) (fun _ => ?_)
    | with_reducible refine stop_moves ?_
    | with_reducible refine ite_formed (fun _ => ?_) (fun _ => ?_)
    | split
    | dsimp -zeta only []

theorem recvForm_moves {A : Nat} {s0 : State} (s : State) (core : Nat) (c : Cur) (_ws : Nat → List Nat) (hM : Moves A s0 s) (hA : Sub 618970167216642727130989506 A) : Moves A s0 (recvForm s core c _ws).st := by
  unfold recvForm
  try dsimp -proj only []
  repeat' first
    | with_reducible exact ‹Moves _ _ _›
    | with_reducible exact Sub.trans (by decide) hA
    | with_reducible apply State_modColl_moves
    | with_reducible apply modCore_moves
    | with_reducible apply noteAcc_moves
    | with_reducible apply Ring_note_moves
    | with_reducible refine foldl_moves _ _ ?_ fun _ _ _ => ?_
    | with_reducible refine Runs.next ?_
    | with_reducible refine ite_moves (fun _ => ?_) (fun _ => ?_)
    | with_reducible refine ite_moves (fun _ => ?_) (fun _ => ?_)
    | with_reducible refine stop_moves ?_
    | with_reducible refine ite_formed (fun _ => ?_) (fun _ => ?_)
    | split
    | dsimp -zeta only []

theorem sendKind_moves {A : Nat} (hA : Sub 22300745198530623760505885489291088636971970 A) : (sendKind).Moves A :=
  fun _ _ _ _ ws h => sendForm_moves _ _ _ ws h (Sub.trans (by decide) hA)

theorem recvKind_moves {A : Nat} (hA : Sub 618970167216642727130989506 A) : (recvKind).Moves A :=
  fun _ _ _ _ ws h => recvForm_moves _ _ _ ws h (Sub.trans (by decide) hA)

end Sys2Proof.Machine
end

