-- ==== Sys2Proof/Laws/Checkpoint.lean ====
section
/-! SUPPORT. What the operations of Machine/Checkpoint.lean change at most, each one's lemma. -/

namespace Sys2Proof.Machine

theorem ckptRequestWrite_moves {A : Nat} {s0 : State} (s : State) (hM : Moves A s0 s) (hA : Sub 2097152 A) : Moves A s0 (ckptRequestWrite s).st := by
  unfold ckptRequestWrite
  try dsimp -proj only []
  repeat' first
    | with_reducible exact ‹Moves _ _ _›
    | with_reducible exact Sub.trans (by decide) hA
    | with_reducible apply Ans_ok_moves
    | with_reducible apply withCkpt_moves
    | with_reducible refine Runs.next ?_
    | with_reducible refine ite_ans (fun _ => ?_) (fun _ => ?_)
    | with_reducible refine ite_moves (fun _ => ?_) (fun _ => ?_)
    | split
    | dsimp only []

theorem resFailNoticeWrite_moves {A : Nat} {s0 : State} (s : State) (hM : Moves A s0 s) (hA : Sub 2097152 A) : Moves A s0 (resFailNoticeWrite s).st := by
  unfold resFailNoticeWrite
  try dsimp -proj only []
  repeat' first
    | with_reducible exact ‹Moves _ _ _›
    | with_reducible exact Sub.trans (by decide) hA
    | with_reducible apply Ans_ok_moves
    | with_reducible apply withCkpt_moves
    | with_reducible refine Runs.next ?_
    | with_reducible refine ite_ans (fun _ => ?_) (fun _ => ?_)
    | with_reducible refine ite_moves (fun _ => ?_) (fun _ => ?_)
    | split
    | dsimp only []

theorem resMtbfResetWrite_moves {A : Nat} {s0 : State} (s : State) (hM : Moves A s0 s) (hA : Sub 2097152 A) : Moves A s0 (resMtbfResetWrite s).st := by
  unfold resMtbfResetWrite
  try dsimp -proj only []
  repeat' first
    | with_reducible exact ‹Moves _ _ _›
    | with_reducible exact Sub.trans (by decide) hA
    | with_reducible apply Ans_ok_moves
    | with_reducible apply withCkpt_moves
    | with_reducible refine Runs.next ?_
    | with_reducible refine ite_ans (fun _ => ?_) (fun _ => ?_)
    | with_reducible refine ite_moves (fun _ => ?_) (fun _ => ?_)
    | split
    | dsimp only []

theorem clearRange_moves {A : Nat} {m0 : MemState} (m : MemState) (a : Nat) (n : Nat) (hM : MMoves A m0 m) (hA : Sub 6144 A) : MMoves A m0 (clearRange m a n) := by
  unfold clearRange
  try dsimp -proj only []
  repeat' first
    | with_reducible exact ‹Moves _ _ _›
    | with_reducible exact ‹MMoves _ _ _›
    | with_reducible exact Sub.trans (by decide) hA
    | refine MMoves.filtered _ _ ?_ ?_
    | with_reducible exact MMoves.refl _ _
    | exact mem_rest rfl rfl (Sub.trans (by decide) hA)
    | with_reducible refine Runs.next ?_
    | with_reducible refine ite_mmoves (fun _ => ?_) (fun _ => ?_)
    | split
    | dsimp only []

theorem copyPages_moves {A : Nat} {m0 : MemState} (m : MemState) (dst : Nat) (ps : List Nat) (hM : MMoves A m0 m) (hA : Sub 6144 A) : MMoves A m0 (copyPages m dst ps) := by
  induction ps generalizing m dst with
  | nil => exact hM
  | cons p ps ih => exact ih _ _ (movePage_moves _ _ _ _ hM hA)

theorem copyRegions_moves {A : Nat} {m0 : MemState} (m : MemState) (dst : Nat) (rs : List CkptRegion) (hM : MMoves A m0 m) (hA : Sub 6144 A) :
    MMoves A m0 (copyRegions m dst rs) := by
  induction rs generalizing m dst with
  | nil => exact hM
  | cons r rs ih => exact ih _ _ (copyPages_moves _ _ _ hM hA)

theorem writeBody_moves {A : Nat} {m0 : MemState} (s : State) (base : Nat) (hM : MMoves A m0 s.mem) (hA : Sub 6144 A) : MMoves A m0 (writeBody s base) := by
  have h1 : ∀ (ps : List (Nat × List Byte)) (m : MemState), MMoves A m0 m → MMoves A m0 (ps.foldl (fun m p => memWriteBytes m (base + 65536 + p.1) p.2) m) := by
    intro ps
    induction ps with
    | nil => exact fun m h => h
    | cons p ps ih => exact fun m h => ih _ (memWriteBytes_moves _ _ h (Sub.trans (by decide) hA))
  exact copyRegions_moves _ _ _ (h1 _ _ (clearRange_moves _ _ _ hM (Sub.trans (by decide) hA))) (Sub.trans (by decide) hA)

theorem stopOver_moves {A : Nat} {s0 : State} (s : State) (hM : Moves A s0 s) (hA : Sub 22300745198530623141535865846600951206300610 A) : Moves A s0 (stopOver s) := by
  unfold stopOver
  try dsimp -proj only []
  repeat' first
    | with_reducible exact ‹Moves _ _ _›
    | with_reducible exact Sub.trans (by decide) hA
    | with_reducible apply State_dropHold_moves
    | with_reducible apply deliverHeld_moves
    | with_reducible apply withCkpt_moves
    | with_reducible refine Runs.next ?_
    | with_reducible refine ite_moves (fun _ => ?_) (fun _ => ?_)
    | split

theorem beginStop_moves {A : Nat} {s0 : State} (s : State) (hM : Moves A s0 s) (hA : Sub 2923025575407025136217945340608926762248388279234 A) : Moves A s0 (beginStop s) := by
  unfold beginStop
  try dsimp -proj only []
  repeat' first
    | with_reducible exact ‹Moves _ _ _›
    | with_reducible exact ‹MMoves _ _ _›
    | with_reducible exact Sub.trans (by decide) hA
    | with_reducible apply stopRewind_moves
    | with_reducible apply State_addHold_moves
    | with_reducible apply setReg_moves
    | with_reducible apply ledgerPhase_moves
    | with_reducible apply raise_moves
    | with_reducible apply withCkpt_moves
    | with_reducible refine withMem_moves ?_ ?_
    | with_reducible apply writeBody_moves
    | with_reducible apply stopOver_moves
    | refine MMoves.filtered _ _ ?_ ?_
    | with_reducible exact MMoves.refl _ _
    | exact mem_rest rfl rfl (Sub.trans (by decide) hA)
    | with_reducible exact page_ckptState
    | with_reducible exact page_ckptT1Len
    | with_reducible exact page_ckptT3SlotLen
    | with_reducible exact page_ckptT1Base
    | with_reducible refine Runs.next ?_
    | with_reducible refine ite_moves (fun _ => ?_) (fun _ => ?_)
    | split

theorem writeHeader_moves {A : Nat} {s0 : State} (s : State) (gen : Nat) (sig : List Byte) (hM : Moves A s0 s) (hA : Sub 2048 A) : Moves A s0 (writeHeader s gen sig) := by
  unfold writeHeader
  try dsimp -proj only []
  repeat' first
    | with_reducible exact ‹Moves _ _ _›
    | with_reducible exact ‹MMoves _ _ _›
    | with_reducible exact Sub.trans (by decide) hA
    | with_reducible refine withMem_moves ?_ ?_
    | with_reducible apply memWriteBytes_moves
    | refine MMoves.filtered _ _ ?_ ?_
    | with_reducible exact MMoves.refl _ _
    | exact mem_rest rfl rfl (Sub.trans (by decide) hA)
    | with_reducible exact page_ckptT1Base
    | with_reducible refine Runs.next ?_
    | with_reducible refine ite_moves (fun _ => ?_) (fun _ => ?_)
    | split

theorem secure_moves {A : Nat} {s0 : State} (s : State) (hM : Moves A s0 s) (hA : Sub 2923003274661805836407369665580139991901541794690 A) : Moves A s0 (secure s) := by
  unfold secure
  try dsimp -proj only []
  repeat' first
    | with_reducible exact ‹Moves _ _ _›
    | with_reducible exact Sub.trans (by decide) hA
    | with_reducible apply raise_moves
    | with_reducible apply setReg_moves
    | with_reducible exact page_ckptSecuredGen
    | with_reducible refine Runs.next ?_
    | with_reducible refine ite_moves (fun _ => ?_) (fun _ => ?_)
    | split

theorem drainT3_moves {A : Nat} {s0 : State} (s : State) (hM : Moves A s0 s) (hA : Sub 6144 A) : Moves A s0 (drainT3 s) := by
  unfold drainT3
  try dsimp -proj only []
  repeat' first
    | with_reducible exact ‹Moves _ _ _›
    | with_reducible exact ‹MMoves _ _ _›
    | with_reducible exact Sub.trans (by decide) hA
    | with_reducible refine withMem_moves ?_ ?_
    | with_reducible apply movePage_moves
    | refine MMoves.filtered _ _ ?_ ?_
    | with_reducible exact MMoves.refl _ _
    | exact mem_rest rfl rfl (Sub.trans (by decide) hA)
    | with_reducible exact page_ckptT1Base
    | with_reducible exact page_ckptT3Base
    | with_reducible refine Runs.next ?_
    | with_reducible refine ite_moves (fun _ => ?_) (fun _ => ?_)
    | split

theorem restoreStart_moves {A : Nat} {s0 : State} (s : State) (g : Image) (hM : Moves A s0 s) (hA : Sub 2923003274661805836407369665580139991901548086146 A) : Moves A s0 (restoreStart s g).st := by
  unfold restoreStart
  try dsimp -proj only []
  repeat' first
    | with_reducible exact ‹Moves _ _ _›
    | with_reducible exact Sub.trans (by decide) hA
    | with_reducible apply Ans_refuse_moves
    | with_reducible apply setReg_moves
    | with_reducible apply raise_moves
    | with_reducible apply Ans_ok_moves
    | with_reducible apply withLedger_moves
    | with_reducible apply ledgerPhase_moves
    | with_reducible apply withCkpt_moves
    | with_reducible exact page_ckptRestoreState
    | with_reducible exact page_ckptRestoreReason
    | with_reducible refine Runs.next ?_
    | with_reducible refine ite_ans (fun _ => ?_) (fun _ => ?_)
    | with_reducible refine ite_moves (fun _ => ?_) (fun _ => ?_)
    | split
    | dsimp only []

theorem ckptRestoreT1_moves {A : Nat} {s0 : State} (s : State) (hM : Moves A s0 s) (hA : Sub 2923003274661805836407369665580139991901548086146 A) : Moves A s0 (ckptRestoreT1 s).st := by
  unfold ckptRestoreT1
  try dsimp -proj only []
  repeat' first
    | with_reducible exact ‹Moves _ _ _›
    | with_reducible exact Sub.trans (by decide) hA
    | with_reducible apply restoreStart_moves
    | with_reducible refine Runs.next ?_
    | with_reducible refine ite_ans (fun _ => ?_) (fun _ => ?_)
    | with_reducible refine ite_moves (fun _ => ?_) (fun _ => ?_)
    | split
    | dsimp only []

theorem ckptRestoreT3_moves {A : Nat} {s0 : State} (s : State) (hM : Moves A s0 s) (hA : Sub 2923003274661805836407369665580139991901548086146 A) : Moves A s0 (ckptRestoreT3 s).st := by
  unfold ckptRestoreT3
  try dsimp -proj only []
  repeat' first
    | with_reducible exact ‹Moves _ _ _›
    | with_reducible exact Sub.trans (by decide) hA
    | with_reducible apply restoreStart_moves
    | with_reducible refine Runs.next ?_
    | with_reducible refine ite_ans (fun _ => ?_) (fun _ => ?_)
    | with_reducible refine ite_moves (fun _ => ?_) (fun _ => ?_)
    | split
    | dsimp only []

theorem restoreRegions_moves {A : Nat} {s0 : State} (s : State) (at_ : Nat) (is : List Nat) (hM : Moves A s0 s) (hA : Sub 14336 A) : Moves A s0 (restoreRegions s at_ is) := by
  induction is generalizing s at_ with
  | nil => exact hM
  | cons i is ih => exact ih _ _ (vaStore_moves _ _ _ hM hA)

theorem page_stepLr {i : Nat} (h : i < 16) : page (Obj.stepLr0 + i) = 60 := by unfold page Obj.stepLr0 ob; omega
theorem restoreRecord_moves {A : Nat} {s0 : State} (s : State) (at_ : Nat) (hM : Moves A s0 s) (hA : Sub 1461501637330902918367092917901953215942616941632 A) : Moves A s0 (restoreRecord s at_) := by
  unfold restoreRecord
  dsimp -proj only []
  refine forAll_moves _ _ ?_ fun cl s hs => refreshFenced_moves _ _ hs (Sub.trans (by decide) hA)
  refine setReg_moves _ _ page_resFencedMap ?_ (Sub.trans (by decide) hA)
  refine forAll_moves _ _ ?_ fun cl s hs => modCore_moves _ _ hs (Sub.trans (by decide) hA)
  refine forAll_moves_mem _ _ ?_ fun i hi s hs => setReg_moves _ _ (page_stepLr (List.mem_range.1 hi)) hs (Sub.trans (by decide) hA)
  exact forAll_moves _ _ hM fun l s hs => modLayer_moves _ _ hs (Sub.trans (by decide) hA)

theorem restoreHeader_moves {A : Nat} {s0 : State} (s : State) (at_ : Nat) (hM : Moves A s0 s) (hA : Sub 2923003274661805837838430768698104866353604198528 A) : Moves A s0 (restoreHeader s at_) := by
  unfold restoreHeader
  try dsimp -proj only []
  repeat' first
    | with_reducible exact ‹Moves _ _ _›
    | with_reducible exact Sub.trans (by decide) hA
    | with_reducible apply setReg_moves
    | with_reducible refine forAll_moves _ _ ?_ fun _ _ _ => ?_
    | with_reducible apply withCkpt_moves
    | with_reducible apply requestRole_moves
    | with_reducible exact page_stepBank
    | with_reducible exact page_rngSeed
    | with_reducible exact page_stepRetries
    | with_reducible exact page_ckptGen
    | with_reducible exact page_schedClStep _
    | with_reducible exact page_epochBank
    | with_reducible exact page_epochActive
    | with_reducible refine Runs.next ?_
    | with_reducible refine ite_moves (fun _ => ?_) (fun _ => ?_)
    | split

theorem ckptServeWrite_moves {A : Nat} {s0 : State} (s : State) (hM : Moves A s0 s) (hA : Sub 89202980794122492566142873090593446027067394 A) : Moves A s0 (ckptServeWrite s).st := by
  unfold ckptServeWrite
  try dsimp -proj only []
  repeat' first
    | with_reducible exact ‹Moves _ _ _›
    | with_reducible exact Sub.trans (by decide) hA
    | with_reducible apply Ans_refuse_moves
    | with_reducible apply withCkpt_moves
    | with_reducible apply Ans_ok_moves
    | with_reducible apply sendImage_moves
    | with_reducible exact page_ckptPinBase
    | with_reducible exact page_ckptServeQp
    | with_reducible refine Runs.next ?_
    | with_reducible refine ite_ans (fun _ => ?_) (fun _ => ?_)
    | with_reducible refine ite_moves (fun _ => ?_) (fun _ => ?_)
    | split
    | dsimp only []

end Sys2Proof.Machine
end

