-- ==== Sys2Proof/Laws/Links.lean ====
section
/-! SUPPORT. What the operations of Machine/Links.lean change at most, each one's lemma. -/

namespace Sys2Proof.Machine

theorem State_modPort_moves {A : Nat} {s0 : State} (s : State) (p : Nat) (f : RillPort → RillPort) (hM : Moves A s0 s) (hA : Sub 524288 A) : Moves A s0 (State.modPort s p f) := by
  unfold State.modPort
  try dsimp -proj only []
  repeat' first
    | with_reducible exact ‹Moves _ _ _›
    | with_reducible exact Sub.trans (by decide) hA
    | with_reducible apply withRill_moves
    | with_reducible refine Runs.next ?_
    | with_reducible refine ite_moves (fun _ => ?_) (fun _ => ?_)
    | split

theorem holdFlit_moves {A : Nat} {s0 : State} (s : State) (p : Nat) (f : Flit) (hM : Moves A s0 s) (hA : Sub 22300745198530623141535865846600951183213442 A) : Moves A s0 (holdFlit s p f) := by
  unfold holdFlit
  try dsimp -proj only []
  repeat' first
    | with_reducible exact ‹Moves _ _ _›
    | with_reducible exact Sub.trans (by decide) hA
    | with_reducible apply withRill_moves
    | with_reducible apply bump_moves
    | with_reducible apply raise_moves
    | with_reducible exact page_rillHeldFlits
    | with_reducible refine Runs.next ?_
    | with_reducible refine ite_moves (fun _ => ?_) (fun _ => ?_)
    | split

theorem queueFlit_moves {A : Nat} {s0 : State} (s : State) (p : Nat) (slot : Nat) (f : Flit) (hM : Moves A s0 s) (hA : Sub 66902235595591869424607302391897674195174274 A) : Moves A s0 (queueFlit s p slot f) := by
  unfold queueFlit
  try dsimp -proj only []
  repeat' first
    | with_reducible exact ‹Moves _ _ _›
    | with_reducible exact Sub.trans (by decide) hA
    | with_reducible apply holdFlit_moves
    | with_reducible apply State_modPort_moves
    | with_reducible apply bump_moves
    | with_reducible apply raise_moves
    | with_reducible apply withRill_moves
    | with_reducible exact page_rillPSlotMiss _
    | with_reducible refine Runs.next ?_
    | with_reducible refine ite_moves (fun _ => ?_) (fun _ => ?_)
    | split

theorem laneCheck_moves {A : Nat} {s0 : State} (s : State) (p : Nat) (hM : Moves A s0 s) (hA : Sub 44601490397061246283071436545296723011960832 A) : Moves A s0 (laneCheck s p) := by
  unfold laneCheck
  try dsimp -proj only []
  repeat' first
    | with_reducible exact ‹Moves _ _ _›
    | with_reducible exact Sub.trans (by decide) hA
    | with_reducible apply setReg_moves
    | with_reducible exact page_rillPState _
    | with_reducible refine Runs.next ?_
    | with_reducible refine ite_moves (fun _ => ?_) (fun _ => ?_)
    | split

theorem takeTrailer_moves {A : Nat} {s0 : State} (s : State) (p : Nat) (ack : Option Nat) (nak : Bool) (credits : Nat) (vc : Nat) (hM : Moves A s0 s) (hA : Sub 44601490397061246283071436545296723012485120 A) : Moves A s0 (takeTrailer s p ack nak credits vc) := by
  unfold takeTrailer
  try dsimp -proj only []
  repeat' first
    | with_reducible exact ‹Moves _ _ _›
    | with_reducible exact Sub.trans (by decide) hA
    | with_reducible apply State_modPort_moves
    | with_reducible apply bump_moves
    | with_reducible exact page_rillPReplays _
    | with_reducible refine Runs.next ?_
    | with_reducible refine ite_moves (fun _ => ?_) (fun _ => ?_)
    | split

theorem cutShort_moves {A : Nat} {s0 : State} (s : State) (p : Nat) (ue : Nat) (f : Flit) (hM : Moves A s0 s) (hA : Sub 2 A) : Moves A s0 (cutShort s p ue f) := by
  unfold cutShort
  try dsimp -proj only []
  repeat' first
    | with_reducible exact ‹Moves _ _ _›
    | with_reducible exact Sub.trans (by decide) hA
    | with_reducible apply State_emit_moves
    | with_reducible refine Runs.next ?_
    | with_reducible refine ite_moves (fun _ => ?_) (fun _ => ?_)
    | split

theorem refuseFlit_moves {A : Nat} {s0 : State} (s : State) (p : Nat) (ue : Nat) (f : Flit) (hM : Moves A s0 s) (hA : Sub 44601490397061246283071436545296723012485122 A) : Moves A s0 (refuseFlit s p ue f) := by
  unfold refuseFlit
  try dsimp -proj only []
  repeat' first
    | with_reducible exact ‹Moves _ _ _›
    | with_reducible exact Sub.trans (by decide) hA
    | with_reducible apply bump_moves
    | with_reducible apply State_modPort_moves
    | with_reducible apply cutShort_moves
    | with_reducible apply laneCheck_moves
    | with_reducible exact page_rillPUe _
    | with_reducible refine Runs.next ?_
    | with_reducible refine ite_moves (fun _ => ?_) (fun _ => ?_)
    | split

theorem takeFlit_moves {A : Nat} {s0 : State} (s : State) (p : Nat) (slot : Nat) (f : Flit) (hM : Moves A s0 s) (hA : Sub 66902235595591869424607302391897674199387074 A) : Moves A s0 (takeFlit s p slot f) := by
  unfold takeFlit
  try dsimp -proj only []
  repeat' first
    | with_reducible exact ‹Moves _ _ _›
    | with_reducible exact Sub.trans (by decide) hA
    | with_reducible apply freeBuf_moves
    | with_reducible apply deliverFlit_moves
    | with_reducible apply State_modPort_moves
    | with_reducible apply queueFlit_moves
    | with_reducible apply bump_moves
    | with_reducible exact page_rillPFwd _
    | with_reducible refine Runs.next ?_
    | with_reducible refine ite_moves (fun _ => ?_) (fun _ => ?_)
    | split

theorem putLink_moves {A : Nat} {s0 : State} (s : State) (p : Nat) (f : Flit) (hM : Moves A s0 s) (hA : Sub 524290 A) : Moves A s0 (putLink s p f) := by
  unfold putLink
  try dsimp -proj only []
  repeat' first
    | with_reducible exact ‹Moves _ _ _›
    | with_reducible exact Sub.trans (by decide) hA
    | with_reducible apply State_modPort_moves
    | with_reducible apply State_emit_moves
    | with_reducible refine Runs.next ?_
    | with_reducible refine ite_moves (fun _ => ?_) (fun _ => ?_)
    | split

theorem sendFlit_moves {A : Nat} {s0 : State} (s : State) (p : Nat) (f : Flit) (hM : Moves A s0 s) (hA : Sub 524290 A) : Moves A s0 (sendFlit s p f) := by
  unfold sendFlit
  try dsimp -proj only []
  repeat' first
    | with_reducible exact ‹Moves _ _ _›
    | with_reducible exact Sub.trans (by decide) hA
    | with_reducible apply freeBuf_moves
    | with_reducible apply State_modPort_moves
    | with_reducible apply putLink_moves
    | with_reducible refine Runs.next ?_
    | with_reducible refine ite_moves (fun _ => ?_) (fun _ => ?_)
    | split

theorem sendNext_moves {A : Nat} {s0 : State} (s : State) (p : Nat) (f : NextFlit) (hM : Moves A s0 s) (hA : Sub 540674 A) : Moves A s0 (sendNext s p f) := by
  unfold sendNext
  split
  · exact putLink_moves _ _ _ (State_modPort_moves _ _ _ hM (Sub.trans (by decide) hA)) (Sub.trans (by decide) hA)
  · exact sendFlit_moves _ _ _ (State_modPort_moves _ _ _ hM (Sub.trans (by decide) hA)) (Sub.trans (by decide) hA)
  · exact sendFlit_moves _ _ _ (State_modColl_moves _ _ _ (withWeir_moves _ hM (Sub.trans (by decide) hA)) (Sub.trans (by decide) hA)) (Sub.trans (by decide) hA)
  · exact sendFlit_moves _ _ _ (State_modPort_moves _ _ _ hM (Sub.trans (by decide) hA)) (Sub.trans (by decide) hA)
  · exact sendFlit_moves _ _ _ (State_modPort_moves _ _ _ hM (Sub.trans (by decide) hA)) (Sub.trans (by decide) hA)

theorem slotFlits_moves {A : Nat} {s0 : State} (p slot n : Nat) (s : State) (hM : Moves A s0 s) (hA : Sub 540674 A) : Moves A s0 (slotFlits p slot n s) := by
  induction n generalizing s with
  | zero => exact hM
  | succ n ih =>
    unfold slotFlits
    split
    · exact ih _ (sendNext_moves _ _ _ hM hA)
    · exact hM

theorem idleFlit_moves {A : Nat} {s0 : State} (s : State) (p : Nat) (before : Nat) (hM : Moves A s0 s) (hA : Sub 524290 A) : Moves A s0 (idleFlit s p before) := by
  unfold idleFlit
  try dsimp -proj only []
  repeat' first
    | with_reducible exact ‹Moves _ _ _›
    | with_reducible exact Sub.trans (by decide) hA
    | with_reducible apply putLink_moves
    | with_reducible refine Runs.next ?_
    | with_reducible refine ite_moves (fun _ => ?_) (fun _ => ?_)
    | split

theorem releaseHeld_moves {A : Nat} {s0 : State} (s : State) (p : Nat) (hM : Moves A s0 s) (hA : Sub 66902235595591869424607302391897674195174274 A) : Moves A s0 (releaseHeld s p) := by
  unfold releaseHeld
  try dsimp -proj only []
  repeat' first
    | with_reducible exact ‹Moves _ _ _›
    | with_reducible exact Sub.trans (by decide) hA
    | with_reducible apply withRill_moves
    | with_reducible refine forAll_moves _ _ ?_ fun _ _ _ => ?_
    | with_reducible apply queueFlit_moves
    | with_reducible refine Runs.next ?_
    | with_reducible refine ite_moves (fun _ => ?_) (fun _ => ?_)
    | split

theorem holdQueued_moves {A : Nat} {s0 : State} (s : State) (p : Nat) (hM : Moves A s0 s) (hA : Sub 22300745198530623141535865846600951183213442 A) : Moves A s0 (holdQueued s p) := by
  unfold holdQueued
  try dsimp -proj only []
  repeat' first
    | with_reducible exact ‹Moves _ _ _›
    | with_reducible exact Sub.trans (by decide) hA
    | with_reducible refine forAll_moves _ _ ?_ fun _ _ _ => ?_
    | with_reducible apply holdFlit_moves
    | with_reducible apply State_modPort_moves
    | with_reducible refine Runs.next ?_
    | with_reducible refine ite_moves (fun _ => ?_) (fun _ => ?_)
    | split

theorem holdOwn_moves {A : Nat} {s0 : State} (p slot n : Nat) (s : State) (hM : Moves A s0 s) (hA : Sub 22300745198530623141535865846600951183213442 A) : Moves A s0 (holdOwn p slot n s) := by
  induction n generalizing s with
  | zero => exact hM
  | succ n ih =>
    unfold holdOwn
    dsimp -proj only []
    split
    · exact hM
    · split
      · exact hM
      · exact ih _ (holdFlit_moves _ _ _ (State_modColl_moves _ _ _ hM (Sub.trans (by decide) hA)) (Sub.trans (by decide) hA))

theorem portDown_moves {A : Nat} {s0 : State} (s : State) (p : Nat) (hM : Moves A s0 s) (hA : Sub 44601490397061246283071584119249312689193858 A) : Moves A s0 (portDown s p) := by
  unfold portDown
  try dsimp -proj only []
  repeat' first
    | with_reducible exact ‹Moves _ _ _›
    | with_reducible exact Sub.trans (by decide) hA
    | with_reducible apply linkGone_moves
    | with_reducible apply setReg_moves
    | with_reducible apply raise_moves
    | with_reducible exact page_rillPState _
    | with_reducible refine Runs.next ?_
    | with_reducible refine ite_moves (fun _ => ?_) (fun _ => ?_)
    | split

theorem downWithQueues_moves {A : Nat} {s0 : State} (s : State) (p : Nat) (hM : Moves A s0 s) (hA : Sub 66902235595591869424607302391897674195174274 A) : Moves A s0 (downWithQueues s p) := by
  unfold downWithQueues
  try dsimp -proj only []
  repeat' first
    | with_reducible exact ‹Moves _ _ _›
    | with_reducible exact Sub.trans (by decide) hA
    | with_reducible apply portDown_moves
    | with_reducible refine forAll_moves _ _ ?_ fun _ _ _ => ?_
    | with_reducible apply holdFlit_moves
    | with_reducible refine Runs.next ?_
    | with_reducible refine ite_moves (fun _ => ?_) (fun _ => ?_)
    | split

theorem rillRetrainWrite_moves {A : Nat} {s0 : State} (port : Nat) (s : State) (hM : Moves A s0 s) (hA : Sub 44601490397061246283071436545296723012485120 A) : Moves A s0 (rillRetrainWrite port s).st := by
  unfold rillRetrainWrite
  try dsimp -proj only []
  repeat' first
    | with_reducible exact ‹Moves _ _ _›
    | with_reducible exact Sub.trans (by decide) hA
    | with_reducible apply Ans_refuse_moves
    | with_reducible apply Ans_ok_moves
    | with_reducible apply setReg_moves
    | with_reducible apply State_modPort_moves
    | with_reducible exact page_rillPState _
    | with_reducible refine Runs.next ?_
    | with_reducible refine ite_ans (fun _ => ?_) (fun _ => ?_)
    | with_reducible refine ite_moves (fun _ => ?_) (fun _ => ?_)
    | split
    | dsimp only []

theorem rillAltSelWrite_moves {A : Nat} {s0 : State} (v : Nat) (s : State) (hM : Moves A s0 s) (hA : Sub 22300745198530623141535865846600951183213442 A) : Moves A s0 (rillAltSelWrite v s).st := by
  unfold rillAltSelWrite
  try dsimp -proj only []
  repeat' first
    | with_reducible exact ‹Moves _ _ _›
    | with_reducible exact Sub.trans (by decide) hA
    | with_reducible apply Ans_refuse_moves
    | with_reducible apply raise_moves
    | with_reducible apply Ans_ok_moves
    | with_reducible apply setReg_moves
    | with_reducible apply withRill_moves
    | with_reducible exact page_rillAltSel
    | with_reducible refine Runs.next ?_
    | with_reducible refine ite_ans (fun _ => ?_) (fun _ => ?_)
    | with_reducible refine ite_moves (fun _ => ?_) (fun _ => ?_)
    | split
    | dsimp only []

end Sys2Proof.Machine
end

