-- ==== Sys2Proof/Laws/Resilience.lean ====
section
/-! SUPPORT. What the operations of Machine/Resilience.lean change at most, each one's lemma. -/

namespace Sys2Proof.Machine

theorem resFenceReqWrite_moves {A : Nat} {s0 : State} (v : Nat) (s : State) (hM : Moves A s0 s) (hA : Sub 1461501638011488423609840774565943925048204573650 A) : Moves A s0 (resFenceReqWrite v s).st := by
  unfold resFenceReqWrite
  try dsimp -proj only []
  repeat' first
    | with_reducible exact ‹Moves _ _ _›
    | with_reducible exact Sub.trans (by decide) hA
    | with_reducible apply Ans_refuse_moves
    | with_reducible apply Ans_ok_moves
    | with_reducible apply coreFault_moves
    | with_reducible refine Runs.next ?_
    | with_reducible refine ite_ans (fun _ => ?_) (fun _ => ?_)
    | with_reducible refine ite_moves (fun _ => ?_) (fun _ => ?_)
    | split
    | dsimp only []

theorem resCoreTestWrite_moves {A : Nat} {s0 : State} (s : State) (hM : Moves A s0 s) (hA : Sub 1461635441802094101942534047062812397972389756928 A) : Moves A s0 (resCoreTestWrite s).st := by
  unfold resCoreTestWrite
  try dsimp -proj only []
  repeat' first
    | with_reducible exact ‹Moves _ _ _›
    | with_reducible exact Sub.trans (by decide) hA
    | with_reducible apply Ans_refuse_moves
    | with_reducible apply enterOn_moves
    | with_reducible apply State_setDom_moves
    | with_reducible apply Ans_ok_moves
    | with_reducible apply withCkpt_moves
    | with_reducible apply setReg_moves
    | with_reducible exact page_resCoreSel
    | with_reducible exact page_resTestResult
    | with_reducible refine Runs.next ?_
    | with_reducible refine ite_ans (fun _ => ?_) (fun _ => ?_)
    | with_reducible refine ite_moves (fun _ => ?_) (fun _ => ?_)
    | split
    | dsimp only []

theorem unfenceNow_moves {A : Nat} {s0 : State} (s : State) (cl : Nat) (core : Nat) (hM : Moves A s0 s) (hA : Sub 1461501637330902918362141157892385647432699249538 A) : Moves A s0 (unfenceNow s cl core) := by
  unfold unfenceNow
  try dsimp -proj only []
  repeat' first
    | with_reducible exact ‹Moves _ _ _›
    | with_reducible exact Sub.trans (by decide) hA
    | with_reducible apply modCluster_moves
    | with_reducible apply setReg_moves
    | with_reducible apply withCkpt_moves
    | with_reducible apply raise_moves
    | with_reducible apply refreshFenced_moves
    | with_reducible exact page_resFencedMap
    | with_reducible refine Runs.next ?_
    | with_reducible refine ite_moves (fun _ => ?_) (fun _ => ?_)
    | split

theorem resUnfenceWrite_moves {A : Nat} {s0 : State} (s : State) (hM : Moves A s0 s) (hA : Sub 1461501637330902918362141157892385647432699249538 A) : Moves A s0 (resUnfenceWrite s).st := by
  unfold resUnfenceWrite
  try dsimp -proj only []
  repeat' first
    | with_reducible exact ‹Moves _ _ _›
    | with_reducible exact Sub.trans (by decide) hA
    | with_reducible apply Ans_refuse_moves
    | with_reducible apply raise_moves
    | with_reducible apply Ans_ok_moves
    | with_reducible apply unfenceNow_moves
    | with_reducible apply modCluster_moves
    | with_reducible exact page_resCoreSel
    | with_reducible refine Runs.next ?_
    | with_reducible refine ite_ans (fun _ => ?_) (fun _ => ?_)
    | with_reducible refine ite_moves (fun _ => ?_) (fun _ => ?_)
    | split
    | dsimp only []

theorem freezeLedger_moves {A : Nat} {s0 : State} (s : State) (die : Nat) (hM : Moves A s0 s) (hA : Sub 4194304 A) : Moves A s0 (freezeLedger s die) := by
  unfold freezeLedger
  try dsimp -proj only []
  repeat' first
    | with_reducible exact ‹Moves _ _ _›
    | with_reducible exact Sub.trans (by decide) hA
    | with_reducible apply withLedger_moves
    | with_reducible exact page_stepBank
    | with_reducible exact page_ckptGen
    | with_reducible exact page_ckptSecuredGen
    | with_reducible exact page_ckptDrainState
    | with_reducible refine Runs.next ?_
    | with_reducible refine ite_moves (fun _ => ?_) (fun _ => ?_)
    | split

theorem portsOfEe_moves {A : Nat} {s0 : State} (s : State) (hM : Moves A s0 s) (hA : Sub 2923694597762960285724757272846592091108230857602 A) : Moves A s0 (portsOfEe s) := by
  unfold portsOfEe
  try dsimp -proj only []
  repeat' first
    | with_reducible exact ‹Moves _ _ _›
    | with_reducible exact Sub.trans (by decide) hA
    | with_reducible refine forAll_moves _ _ ?_ fun _ _ _ => ?_
    | with_reducible apply ethLeave_moves
    | with_reducible apply downWithQueues_moves
    | with_reducible exact page_ethPState _
    | with_reducible refine Runs.next ?_
    | with_reducible refine ite_moves (fun _ => ?_) (fun _ => ?_)
    | split

end Sys2Proof.Machine
end

