-- ==== Sys2Proof/Laws/Module.lean ====
section
/-! SUPPORT. What the operations of Machine/Module.lean change at most, each one's lemma. -/

namespace Sys2Proof.Machine

theorem modPins_moves {A : Nat} {s0 : State} (s : State) (f : Pins → Pins) (hM : Moves A s0 s) (hA : Sub 262144 A) : Moves A s0 (modPins s f) := by
  unfold modPins
  try dsimp -proj only []
  repeat' first
    | with_reducible exact ‹Moves _ _ _›
    | with_reducible exact Sub.trans (by decide) hA
    | with_reducible apply withPins_moves
    | with_reducible refine Runs.next ?_
    | with_reducible refine ite_moves (fun _ => ?_) (fun _ => ?_)
    | split

theorem landT3Flight_moves {A : Nat} {s0 : State} (s : State) (f : Flight) (hM : Moves A s0 s) (hA : Sub 2048 A) : Moves A s0 (landT3Flight s f) := by
  unfold landT3Flight
  try dsimp -proj only []
  repeat' first
    | with_reducible exact ‹Moves _ _ _›
    | with_reducible exact ‹MMoves _ _ _›
    | with_reducible exact Sub.trans (by decide) hA
    | with_reducible refine withMem_moves ?_ ?_
    | with_reducible apply memSetBits_moves
    | refine MMoves.filtered _ _ ?_ ?_
    | with_reducible exact MMoves.refl _ _
    | exact mem_rest rfl rfl (Sub.trans (by decide) hA)
    | with_reducible refine foldl_moves _ _ ?_ fun _ _ _ => ?_
    | with_reducible refine Runs.next ?_
    | with_reducible refine ite_moves (fun _ => ?_) (fun _ => ?_)
    | split

theorem landT3_moves {A : Nat} {s0 : State} (s : State) (hM : Moves A s0 s) (hA : Sub 2048 A) : Moves A s0 (landT3 s) := by
  unfold landT3
  try dsimp -proj only []
  repeat' first
    | with_reducible exact ‹Moves _ _ _›
    | with_reducible exact Sub.trans (by decide) hA
    | with_reducible refine forAll_moves _ _ ?_ fun _ _ _ => ?_
    | with_reducible apply landT3Flight_moves
    | with_reducible refine Runs.next ?_
    | with_reducible refine ite_moves (fun _ => ?_) (fun _ => ?_)
    | split

theorem keptMemory_moves {A : Nat} {m0 : MemState} (m : MemState) (hM : MMoves A m0 m) (hA : Sub 14336 A) : MMoves A m0 (keptMemory m) :=
  hM.trans hA ⟨fun hc => absurd hc (by decide), fun hc => absurd hc (by decide), fun hc => absurd hc (by decide),
    fun hw => ⟨hw.1.filter _, hw.2.filter _⟩⟩

theorem page_kept : ∀ k ∈ keptObjects, page k < 256 := fun _ _ => Nat.mod_lt _ (by decide)
theorem reset_bits (i : Nat) (h1 : 3 ≤ i) (h2 : i < 288) : Nat.testBit 497323236409786642155382248146820840100456150797347717440463976893159497012533375533048 i = true := by
  have h : (497323236409786642155382248146820840100456150797347717440463976893159497012533375533048 : Nat) = (2 ^ 285 - 1) <<< 3 := by decide
  rw [h, Nat.testBit_shiftLeft, Nat.testBit_two_pow_sub_one]
  simp [h1]; omega
theorem reset_pages : ∀ p : Nat, p < 256 → Sub (2 ^ (32 + p)) 497323236409786642155382248146820840100456150797347717440463976893159497012533375533048 := by
  intro p hp
  apply Nat.eq_of_testBit_eq
  intro i
  rw [Nat.testBit_or, Nat.testBit_two_pow]
  by_cases h : 32 + p = i
  · subst h
    rw [decide_eq_true rfl, Bool.true_or]
    exact (reset_bits _ (by omega) (by omega)).symm
  · simp [h]
theorem deviceReset_moves {A : Nat} {s0 : State} (s : State) (cause : Nat) (hM : Moves A s0 s) (hA : Sub 497323236409786642155382248146820840100456150797347717440463976893159497012533375533048 A) : Moves A s0 (deviceReset s cause) := by
  unfold deviceReset
  dsimp -proj only []
  have h1 := landT3_moves s hM (Sub.trans (by decide) hA)
  refine forAll_moves _ _ ?_ fun cl s hs => refreshFenced_moves _ _ hs (Sub.trans (by decide) hA)
  refine forAll_moves_mem _ _ ?_ fun k hk s hs => setReg_moves _ _ rfl hs ((reset_pages _ (page_kept k hk)).trans hA)
  refine h1.trans hA ⟨fun c hc => ?_, List.prefix_refl _, fun hw => ?_⟩
  · cases c
    case obj p => exact absurd hc (by have := (reset_pages p.val p.isLt).bit (i := 32 + p.val) (by simp [Nat.testBit_two_pow_self]); rw [Comp.index, this]; decide)
    all_goals first | exact rfl | exact absurd hc (by decide)
  · have hm := ((wf_iff _).1 hw).2.2.2.2.2.1
    have hk := (keptMemory_moves _ (MMoves.refl 14336 _) (Sub.refl _)).wf hm
    exact (wf_iff _).2 ⟨canon_nil _, rfl, canon_nil _, canon_nil _, canon_nil _, hk, rfl, Nat.zero_le _⟩

theorem powerLoss_moves {A : Nat} {s0 : State} (s : State) (cause : Nat) (hM : Moves A s0 s) (hA : Sub 497323236409786642155382248146820840100456150797347717440463976893159497012533375533048 A) : Moves A s0 (powerLoss s cause) := by
  unfold powerLoss
  try dsimp -proj only []
  repeat' first
    | with_reducible exact ‹Moves _ _ _›
    | with_reducible exact Sub.trans (by decide) hA
    | with_reducible apply modPins_moves
    | with_reducible apply deviceReset_moves
    | with_reducible refine Runs.next ?_
    | with_reducible refine ite_moves (fun _ => ?_) (fun _ => ?_)
    | split

theorem takeStraps_moves {A : Nat} {s0 : State} (s : State) (feed : Nat) (slot : Nat) (hM : Moves A s0 s) (hA : Sub 1461501637330902918203684832863856972245608955904 A) : Moves A s0 (takeStraps s feed slot) := by
  unfold takeStraps
  try dsimp -proj only []
  repeat' first
    | with_reducible exact ‹Moves _ _ _›
    | with_reducible exact Sub.trans (by decide) hA
    | with_reducible apply setReg_moves
    | with_reducible exact page_resFeed
    | with_reducible exact page_resSlot
    | with_reducible exact page_modStrapsLive
    | with_reducible refine Runs.next ?_
    | with_reducible refine ite_moves (fun _ => ?_) (fun _ => ?_)
    | split

theorem bootInput_moves {A : Nat} {s0 : State} (s : State) (hM : Moves A s0 s) (hA : Sub 166020696663386260354 A) : Moves A s0 (bootInput s) := by
  unfold bootInput
  try dsimp -proj only []
  repeat' first
    | with_reducible exact ‹Moves _ _ _›
    | with_reducible exact Sub.trans (by decide) hA
    | with_reducible apply raise_moves
    | with_reducible apply setReg_moves
    | with_reducible exact page_pwrInputMv
    | with_reducible exact page_pwrSupplyState
    | with_reducible refine Runs.next ?_
    | with_reducible refine ite_moves (fun _ => ?_) (fun _ => ?_)
    | split

theorem beginBoot_moves {A : Nat} {s0 : State} (s : State) (hM : Moves A s0 s) (hA : Sub 178405961588244985132285912202446505387524994 A) : Moves A s0 (beginBoot s) := by
  unfold beginBoot
  dsimp -proj only []
  have h1 := withLog_moves (v := {}) (withPins_moves { s.pins with inReset := false, pwrGood := true } hM (Sub.trans (by decide) hA)) (fun _ => by decide) (Sub.trans (by decide) hA)
  repeat' first
    | with_reducible exact ‹Moves _ _ _›
    | with_reducible exact Sub.trans (by decide) hA
    | with_reducible apply raise_moves
    | with_reducible apply bootInput_moves
    | with_reducible apply setReg_moves
    | with_reducible exact page_bootStage
    | with_reducible exact page_pwrResetCause
    | with_reducible exact page_fldPlcaId
    | with_reducible refine ite_moves (fun _ => ?_) (fun _ => ?_)

theorem tryBoot_moves {A : Nat} {s0 : State} (s : State) (hM : Moves A s0 s) (hA : Sub 178405961588244985132285912202446505387524994 A) : Moves A s0 (tryBoot s) := by
  unfold tryBoot
  try dsimp -proj only []
  repeat' first
    | with_reducible exact ‹Moves _ _ _›
    | with_reducible exact Sub.trans (by decide) hA
    | with_reducible apply beginBoot_moves
    | with_reducible refine Runs.next ?_
    | with_reducible refine ite_moves (fun _ => ?_) (fun _ => ?_)
    | split

theorem thermalTrip_moves {A : Nat} {s0 : State} (s : State) (d : Nat) (hM : Moves A s0 s) (hA : Sub 497323236409786642155382248146820840100456150797347717440463976893159497012533375533050 A) : Moves A s0 (thermalTrip s d) := by
  unfold thermalTrip
  try dsimp -proj only []
  repeat' first
    | with_reducible exact ‹Moves _ _ _›
    | with_reducible exact Sub.trans (by decide) hA
    | with_reducible apply modPins_moves
    | with_reducible apply powerLoss_moves
    | with_reducible apply raise_moves
    | with_reducible refine Runs.next ?_
    | with_reducible refine ite_moves (fun _ => ?_) (fun _ => ?_)
    | split

theorem excursion_moves {A : Nat} {s0 : State} (s : State) (was : Bool) (now : Bool) (code : Nat) (hM : Moves A s0 s) (hA : Sub 147573952589676708738 A) : Moves A s0 (excursion s was now code) := by
  unfold excursion
  try dsimp -proj only []
  repeat' first
    | with_reducible exact ‹Moves _ _ _›
    | with_reducible exact Sub.trans (by decide) hA
    | with_reducible apply raise_moves
    | with_reducible refine Runs.next ?_
    | with_reducible refine ite_moves (fun _ => ?_) (fun _ => ?_)
    | split

theorem sleepWrite_moves {A : Nat} {s0 : State} (s : State) (hM : Moves A s0 s) (hA : Sub 184467440737095943042 A) : Moves A s0 (sleepWrite s).st := by
  unfold sleepWrite
  try dsimp -proj only []
  repeat' first
    | with_reducible exact ‹Moves _ _ _›
    | with_reducible exact Sub.trans (by decide) hA
    | with_reducible apply Ans_ok_moves
    | with_reducible apply withPower_moves
    | with_reducible apply Ans_refuse_moves
    | with_reducible apply domRefuse_moves
    | with_reducible refine Runs.next ?_
    | with_reducible refine ite_ans (fun _ => ?_) (fun _ => ?_)
    | with_reducible refine ite_moves (fun _ => ?_) (fun _ => ?_)
    | split
    | dsimp only []

end Sys2Proof.Machine
end

