-- ==== Sys2Proof/Laws/Security.lean ====
section
/-! SUPPORT. What the operations of Machine/Security.lean change at most, each one's lemma. -/

namespace Sys2Proof.Machine

theorem modMgt_moves {A : Nat} {s0 : State} (s : State) (f : MgtState → MgtState) (hM : Moves A s0 s) (hf : ∀ m, (f m).stored = m.stored) (hA : Sub 65536 A) :
    Moves A s0 (modMgt s f) := withMgt_moves hM (fun h => by rw [hf]; exact h) hA

theorem measureFw_moves {A : Nat} {s0 : State} (s : State) (image : List Byte) (hM : Moves A s0 s) (hA : Sub 65536 A) : Moves A s0 (measureFw s image) := by
  unfold measureFw
  try dsimp -proj only []
  repeat' first
    | with_reducible exact ‹Moves _ _ _›
    | with_reducible exact Sub.trans (by decide) hA
    | with_reducible refine modMgt_moves _ _ ?_ (fun _ => rfl) ?_
    | with_reducible refine Runs.next ?_
    | with_reducible refine ite_moves (fun _ => ?_) (fun _ => ?_)
    | split

theorem measureCfg_moves {A : Nat} {s0 : State} (s : State) (bytes : List Byte) (hM : Moves A s0 s) (hA : Sub 65536 A) : Moves A s0 (measureCfg s bytes) := by
  unfold measureCfg
  try dsimp -proj only []
  repeat' first
    | with_reducible exact ‹Moves _ _ _›
    | with_reducible exact Sub.trans (by decide) hA
    | with_reducible refine modMgt_moves _ _ ?_ (fun _ => rfl) ?_
    | with_reducible refine Runs.next ?_
    | with_reducible refine ite_moves (fun _ => ?_) (fun _ => ?_)
    | split

theorem measureDbg_moves {A : Nat} {s0 : State} (s : State) (code : Nat) (hM : Moves A s0 s) (hA : Sub 65536 A) : Moves A s0 (measureDbg s code) := by
  unfold measureDbg
  try dsimp -proj only []
  repeat' first
    | with_reducible exact ‹Moves _ _ _›
    | with_reducible exact Sub.trans (by decide) hA
    | with_reducible refine modMgt_moves _ _ ?_ (fun _ => rfl) ?_
    | with_reducible refine Runs.next ?_
    | with_reducible refine ite_moves (fun _ => ?_) (fun _ => ?_)
    | split

theorem debugEnter_moves {A : Nat} {s0 : State} (v : Nat) (s : State) (hM : Moves A s0 s) (hA : Sub 7588550360256754183279148073529370729071901715047420004889892373116547453759619970 A) : Moves A s0 (debugEnter v s).st := by
  unfold debugEnter
  try dsimp -proj only []
  repeat' first
    | with_reducible exact ‹Moves _ _ _›
    | with_reducible exact Sub.trans (by decide) hA
    | with_reducible apply Ans_refuse_moves
    | with_reducible apply measureDbg_moves
    | with_reducible apply setReg_moves
    | with_reducible apply bump_moves
    | with_reducible apply Ans_ok_moves
    | with_reducible apply raise_moves
    | with_reducible refine modMgt_moves _ _ ?_ (fun _ => rfl) ?_
    | with_reducible exact page_dbgMode
    | with_reducible exact page_dbgEntries
    | with_reducible refine Runs.next ?_
    | with_reducible refine ite_ans (fun _ => ?_) (fun _ => ?_)
    | with_reducible refine ite_moves (fun _ => ?_) (fun _ => ?_)
    | split
    | dsimp only []

theorem debugLeave_moves {A : Nat} {s0 : State} (s : State) (hM : Moves A s0 s) (hA : Sub 7588550360256754183279148073529370729071901715047420004889892373116547453759619970 A) : Moves A s0 (debugLeave s) := by
  unfold debugLeave
  try dsimp -proj only []
  repeat' first
    | with_reducible exact ‹Moves _ _ _›
    | with_reducible exact Sub.trans (by decide) hA
    | with_reducible apply raise_moves
    | with_reducible apply measureDbg_moves
    | with_reducible apply setReg_moves
    | with_reducible exact page_dbgMode
    | with_reducible refine Runs.next ?_
    | with_reducible refine ite_moves (fun _ => ?_) (fun _ => ?_)
    | split

theorem debugExit_moves {A : Nat} {s0 : State} (v : Nat) (s : State) (hM : Moves A s0 s) (hA : Sub 7588550360256754183279148073529370729071901715047420004889892373116547453759619970 A) : Moves A s0 (debugExit v s).st := by
  unfold debugExit
  try dsimp -proj only []
  repeat' first
    | with_reducible exact ‹Moves _ _ _›
    | with_reducible exact Sub.trans (by decide) hA
    | with_reducible apply Ans_refuse_moves
    | with_reducible apply Ans_ok_moves
    | with_reducible apply debugLeave_moves
    | with_reducible refine Runs.next ?_
    | with_reducible refine ite_ans (fun _ => ?_) (fun _ => ?_)
    | with_reducible refine ite_moves (fun _ => ?_) (fun _ => ?_)
    | split
    | dsimp only []

theorem setOwnerKey_moves {A : Nat} {s0 : State} (s : State) (key : Nat) (hM : Moves A s0 s) (hA : Sub 95780971304118053647396689196894471550123784813249410 A) : Moves A s0 (setOwnerKey s key) := by
  unfold setOwnerKey
  try dsimp -proj only []
  repeat' first
    | with_reducible exact ‹Moves _ _ _›
    | with_reducible exact Sub.trans (by decide) hA
    | with_reducible apply raise_moves
    | with_reducible apply measureCfg_moves
    | with_reducible apply setReg_moves
    | with_reducible exact page_secOwnerKey
    | with_reducible refine Runs.next ?_
    | with_reducible refine ite_moves (fun _ => ?_) (fun _ => ?_)
    | split

theorem ownerKeyPlain_moves {A : Nat} {s0 : State} (p : Path) (key : Nat) (s : State) (hM : Moves A s0 s) (hA : Sub 95780971304118053647396689196894471550123784813249410 A) : Moves A s0 (ownerKeyPlain p key s).st := by
  unfold ownerKeyPlain
  try dsimp -proj only []
  repeat' first
    | with_reducible exact ‹Moves _ _ _›
    | with_reducible exact Sub.trans (by decide) hA
    | with_reducible apply Ans_refuse_moves
    | with_reducible apply Ans_ok_moves
    | with_reducible apply setOwnerKey_moves
    | with_reducible exact page_secOwnerKey
    | with_reducible refine Runs.next ?_
    | with_reducible refine ite_ans (fun _ => ?_) (fun _ => ?_)
    | with_reducible refine ite_moves (fun _ => ?_) (fun _ => ?_)
    | split
    | dsimp only []

theorem ownerKeySigned_moves {A : Nat} {s0 : State} (key : Nat) (s : State) (hM : Moves A s0 s) (hA : Sub 95780971304118053647396689196894471550123784813249410 A) : Moves A s0 (ownerKeySigned key s).st := by
  unfold ownerKeySigned
  try dsimp -proj only []
  repeat' first
    | with_reducible exact ‹Moves _ _ _›
    | with_reducible exact Sub.trans (by decide) hA
    | with_reducible apply Ans_ok_moves
    | with_reducible apply setOwnerKey_moves
    | with_reducible refine Runs.next ?_
    | with_reducible refine ite_ans (fun _ => ?_) (fun _ => ?_)
    | with_reducible refine ite_moves (fun _ => ?_) (fun _ => ?_)
    | split
    | dsimp only []

theorem ownerRelease_moves {A : Nat} {s0 : State} (serial : Nat) (s : State) (hM : Moves A s0 s) (hA : Sub 7588550360256754183279148073625151700376019768694816694086786697092718648896095106 A) : Moves A s0 (ownerRelease serial s).st := by
  unfold ownerRelease
  try dsimp -proj only []
  repeat' first
    | with_reducible exact ‹Moves _ _ _›
    | with_reducible exact Sub.trans (by decide) hA
    | with_reducible apply Ans_refuse_moves
    | with_reducible apply Ans_ok_moves
    | with_reducible apply debugLeave_moves
    | with_reducible apply setOwnerKey_moves
    | with_reducible exact page_idSerial
    | with_reducible refine Runs.next ?_
    | with_reducible refine ite_ans (fun _ => ?_) (fun _ => ?_)
    | with_reducible refine ite_moves (fun _ => ?_) (fun _ => ?_)
    | split
    | dsimp only []

theorem minSvnWrite_moves {A : Nat} {s0 : State} (v : Nat) (s : State) (hM : Moves A s0 s) (hA : Sub 95780971304118053647396689196894323976171195136475136 A) : Moves A s0 (minSvnWrite v s).st := by
  unfold minSvnWrite
  try dsimp -proj only []
  repeat' first
    | with_reducible exact ‹Moves _ _ _›
    | with_reducible exact Sub.trans (by decide) hA
    | with_reducible apply Ans_refuse_moves
    | with_reducible apply Ans_ok_moves
    | with_reducible apply setReg_moves
    | with_reducible exact page_secMinSvn
    | with_reducible exact page_idFwSvn
    | with_reducible refine Runs.next ?_
    | with_reducible refine ite_ans (fun _ => ?_) (fun _ => ?_)
    | with_reducible refine ite_moves (fun _ => ?_) (fun _ => ?_)
    | split
    | dsimp only []

theorem attestNonceWrite_moves {A : Nat} {s0 : State} (nonce : Nat) (s : State) (hM : Moves A s0 s) (hA : Sub 95780971304118053647396689196894323976171195136540672 A) : Moves A s0 (attestNonceWrite nonce s).st := by
  unfold attestNonceWrite
  try dsimp -proj only []
  repeat' first
    | with_reducible exact ‹Moves _ _ _›
    | with_reducible exact Sub.trans (by decide) hA
    | with_reducible apply Ans_ok_moves
    | with_reducible refine modMgt_moves _ _ ?_ (fun _ => rfl) ?_
    | with_reducible apply setReg_moves
    | with_reducible exact page_secAttestState
    | with_reducible exact page_secAttestLen
    | with_reducible refine Runs.next ?_
    | with_reducible refine ite_ans (fun _ => ?_) (fun _ => ?_)
    | with_reducible refine ite_moves (fun _ => ?_) (fun _ => ?_)
    | split
    | dsimp only []

theorem fwVerify_moves {A : Nat} {s0 : State} (s : State) (hM : Moves A s0 s) (hA : Sub 2251799813685248 A) : Moves A s0 (fwVerify s).st := by
  unfold fwVerify
  try dsimp -proj only []
  repeat' first
    | with_reducible exact ‹Moves _ _ _›
    | with_reducible exact Sub.trans (by decide) hA
    | with_reducible apply Ans_refuse_moves
    | with_reducible apply Ans_ok_moves
    | with_reducible apply setReg_moves
    | with_reducible exact page_fwState
    | with_reducible refine Runs.next ?_
    | with_reducible refine ite_ans (fun _ => ?_) (fun _ => ?_)
    | with_reducible refine ite_moves (fun _ => ?_) (fun _ => ?_)
    | split
    | dsimp only []

theorem fwCommit_moves {A : Nat} {s0 : State} (v : Nat) (s : State) (hM : Moves A s0 s) (hA : Sub 2251799813750784 A) : Moves A s0 (fwCommit v s).st := by
  unfold fwCommit
  try dsimp -proj only []
  repeat' first
    | with_reducible exact ‹Moves _ _ _›
    | with_reducible exact Sub.trans (by decide) hA
    | with_reducible apply Ans_refuse_moves
    | with_reducible apply Ans_ok_moves
    | with_reducible refine modMgt_moves _ _ ?_ (fun _ => rfl) ?_
    | with_reducible apply setReg_moves
    | with_reducible exact page_fwState
    | with_reducible refine Runs.next ?_
    | with_reducible refine ite_ans (fun _ => ?_) (fun _ => ?_)
    | with_reducible refine ite_moves (fun _ => ?_) (fun _ => ?_)
    | split
    | dsimp only []

theorem cfgWrite_moves {A : Nat} {s0 : State} (len : Nat) (s : State) (hM : Moves A s0 s) (hA : Sub 281474976776192 A) : Moves A s0 (cfgWrite len s).st := by
  unfold cfgWrite
  try dsimp -proj only []
  repeat' first
    | with_reducible exact ‹Moves _ _ _›
    | with_reducible exact Sub.trans (by decide) hA
    | with_reducible apply Ans_refuse_moves
    | with_reducible apply Ans_ok_moves
    | with_reducible refine modMgt_moves _ _ ?_ (fun _ => rfl) ?_
    | with_reducible apply setReg_moves
    | with_reducible exact page_cfgStageAddr
    | with_reducible exact page_cfgState
    | with_reducible refine Runs.next ?_
    | with_reducible refine ite_ans (fun _ => ?_) (fun _ => ?_)
    | with_reducible refine ite_moves (fun _ => ?_) (fun _ => ?_)
    | split
    | dsimp only []

end Sys2Proof.Machine
end

