-- ==== Sys2Proof/Laws/Registers.lean ====
section
/-! SUPPORT. What the operations of Machine/Registers.lean change at most, each one's lemma. -/

namespace Sys2Proof.Machine

theorem dictRead_moves {A : Nat} {s0 : State} (s : State) (q : Req) (obj : Nat) (f : State → Ans) (h : Moves A s0 s)
    (hf : ∀ s, Moves A s0 s → Moves A s0 (f s).st) (hA : Sub 4503599627436034 A) : Moves A s0 (dictRead s q obj f) :=
  request_moves _ _ _ _ _ h hf hA

theorem accServe_moves {A : Nat} {s0 : State} (s : State) (q : Req) (sel : Nat) (hM : Moves A s0 s) (hA : Sub 30354201441027016733116592294117482916287606860189680019559568902174883055958818818 A) : Moves A s0 (accServe s q sel) := by
  unfold accServe
  try dsimp -proj only []
  repeat' first
    | with_reducible exact ‹Moves _ _ _›
    | with_reducible exact Sub.trans (by decide) hA
    | with_reducible refine dictRead_moves _ _ _ _ ?_ (fun _ _ => ?_) ?_
    | with_reducible apply Ans_refuse_moves
    | with_reducible apply bump_moves
    | with_reducible exact page_dbgAccRead
    | with_reducible exact page_dbgMode
    | with_reducible exact page_dbgReads
    | with_reducible refine Runs.next ?_
    | with_reducible refine ite_moves (fun _ => ?_) (fun _ => ?_)
    | split

theorem serveHeld_moves {A : Nat} {s0 : State} (s : State) (hM : Moves A s0 s) (hA : Sub 30354201441027016733116592294117482916287606860189680019559568902174883055958818818 A) : Moves A s0 (serveHeld s) := by
  unfold serveHeld
  try dsimp -proj only []
  repeat' first
    | with_reducible exact ‹Moves _ _ _›
    | with_reducible exact Sub.trans (by decide) hA
    | with_reducible refine withMgt_moves ?_ (fun h => ?_) ?_
    | with_reducible refine forAll_moves _ _ ?_ fun _ _ _ => ?_
    | with_reducible apply accServe_moves
    | with_reducible refine Runs.next ?_
    | with_reducible refine ite_moves (fun _ => ?_) (fun _ => ?_)
    | split
    | exact h

theorem readAns_moves {A : Nat} {s0 : State} (key : Nat) (s : State) (hM : Moves A s0 s) (hA : Sub 0 A) : Moves A s0 (readAns key s).st := by
  unfold readAns
  try dsimp -proj only []
  repeat' first
    | with_reducible exact ‹Moves _ _ _›
    | with_reducible exact Sub.trans (by decide) hA
    | with_reducible apply Ans_refuse_moves
    | with_reducible exact page_logRead
    | with_reducible exact page_dbgAccSlots
    | with_reducible exact page_dbgAccSel
    | with_reducible refine Runs.next ?_
    | with_reducible refine ite_ans (fun _ => ?_) (fun _ => ?_)
    | with_reducible refine ite_moves (fun _ => ?_) (fun _ => ?_)
    | split
    | dsimp only []

theorem poolWrite_moves {A p : Nat} {s0 : State} (key v : Nat) (s : State) (hp : page key = p) (hM : Moves A s0 s) (hB : Sub (2 ^ (32 + p)) A) (hA : Sub 0 A) :
    Moves A s0 (poolWrite key v s).st := by
  unfold poolWrite
  exact ite_ans (fun _ => hM) (fun _ => setReg_moves _ _ hp hM hB)

theorem rngSeedWrite_moves {A : Nat} {s0 : State} (v : Nat) (s : State) (hM : Moves A s0 s) (hA : Sub 2417851639229258349412352 A) : Moves A s0 (rngSeedWrite v s).st := by
  unfold rngSeedWrite
  try dsimp -proj only []
  repeat' first
    | with_reducible exact ‹Moves _ _ _›
    | with_reducible exact Sub.trans (by decide) hA
    | with_reducible apply Ans_refuse_moves
    | with_reducible apply Ans_ok_moves
    | with_reducible apply setReg_moves
    | with_reducible exact page_ckptState
    | with_reducible exact page_ckptRestoreState
    | with_reducible exact page_rngSeed
    | with_reducible exact page_rngSeedSet
    | with_reducible refine Runs.next ?_
    | with_reducible refine ite_ans (fun _ => ?_) (fun _ => ?_)
    | with_reducible refine ite_moves (fun _ => ?_) (fun _ => ?_)
    | split
    | dsimp only []

theorem alertAckWrite_moves {A : Nat} {s0 : State} (s : State) (hM : Moves A s0 s) (hA : Sub 147573952589676445696 A) : Moves A s0 (alertAckWrite s).st := by
  unfold alertAckWrite
  try dsimp -proj only []
  repeat' first
    | with_reducible exact ‹Moves _ _ _›
    | with_reducible exact Sub.trans (by decide) hA
    | with_reducible apply Ans_ok_moves
    | with_reducible refine withLog_moves ?_ (fun h => ?_) ?_
    | with_reducible apply setReg_moves
    | with_reducible exact page_modAlertSeq
    | with_reducible refine Runs.next ?_
    | with_reducible refine ite_ans (fun _ => ?_) (fun _ => ?_)
    | with_reducible refine ite_moves (fun _ => ?_) (fun _ => ?_)
    | split
    | dsimp only []
    | exact h

theorem ptpNetWrite_moves {A p : Nat} {s0 : State} (key v : Nat) (s : State) (hp : page key = p) (hM : Moves A s0 s) (hB : Sub (2 ^ (32 + p)) A) (hA : Sub 178405961588244985132285893755139481725600642 A) :
    Moves A s0 (ptpNetWrite key v s).st := by
  unfold ptpNetWrite
  refine ite_ans (fun _ => hM) (fun _ => ?_)
  exact Ans_ok_moves _ (ptpChoose_moves _ (modPtp_moves _ _ (setReg_moves _ _ hp hM hB) (Sub.trans (by decide) hA)) (Sub.trans (by decide) hA)) (Sub.trans (by decide) hA)

theorem narrowWrite_moves {A : Nat} {s0 : State} (v : Nat) (s : State) (hM : Moves A s0 s) (hA : Sub 64 A) : Moves A s0 (narrowWrite v s).st := by
  unfold narrowWrite
  try dsimp -proj only []
  repeat' first
    | with_reducible exact ‹Moves _ _ _›
    | with_reducible exact Sub.trans (by decide) hA
    | with_reducible apply Ans_ok_moves
    | with_reducible apply modSlu_moves
    | with_reducible refine Runs.next ?_
    | with_reducible refine ite_ans (fun _ => ?_) (fun _ => ?_)
    | with_reducible refine ite_moves (fun _ => ?_) (fun _ => ?_)
    | split
    | dsimp only []

theorem classWrite_moves {A p : Nat} {s0 : State} (key v : Nat) (s : State) (hp : page key = p) (hM : Moves A s0 s) (hB : Sub (2 ^ (32 + p)) A) (hA : Sub 0 A) :
    Moves A s0 (classWrite key v s).st := by
  unfold classWrite
  exact ite_ans (fun _ => hM) (fun _ => setReg_moves _ _ hp hM hB)

theorem actionWrite_moves {A : Nat} {s0 : State} (f : State → Ans) (v : Nat) (s : State) (hM : Moves A s0 s) (hf : ∀ s, Moves A s0 s → Moves A s0 (f s).st) (hA : Sub 0 A) :
    Moves A s0 (actionWrite f v s).st := by
  unfold actionWrite
  exact ite_ans (fun _ => hf _ hM) (fun _ => hM)

theorem restoreWrite_moves {A : Nat} {s0 : State} (v : Nat) (s : State) (hM : Moves A s0 s) (hA : Sub 2923003274661805836407369665580139991901548086146 A) : Moves A s0 (restoreWrite v s).st := by
  unfold restoreWrite
  try dsimp -proj only []
  repeat' first
    | with_reducible exact ‹Moves _ _ _›
    | with_reducible exact Sub.trans (by decide) hA
    | with_reducible apply ckptRestoreT1_moves
    | with_reducible apply ckptRestoreT3_moves
    | with_reducible apply Ans_refuse_moves
    | with_reducible refine Runs.next ?_
    | with_reducible refine ite_ans (fun _ => ?_) (fun _ => ?_)
    | with_reducible refine ite_moves (fun _ => ?_) (fun _ => ?_)
    | split
    | dsimp only []







theorem page_sub {A : Nat} (k : Nat) (hA : Sub 497323236409786642155382248146820840100456150797347717440463976893159497012529080565760 A) : Sub (2 ^ (32 + page k)) A := by
  refine Sub.trans ?_ hA
  have hk : page k < 256 := Nat.mod_lt _ (by decide)
  apply Nat.eq_of_testBit_eq
  intro i
  rw [Nat.testBit_or, Nat.testBit_two_pow]
  by_cases h : 32 + page k = i
  · subst h
    have h2 : (497323236409786642155382248146820840100456150797347717440463976893159497012529080565760 : Nat) = (2 ^ 256 - 1) <<< 32 := by decide
    rw [decide_eq_true rfl, Bool.true_or, h2, Nat.testBit_shiftLeft, Nat.testBit_two_pow_sub_one]
    simp [hk]
  · simp [h]
theorem ownWrites_moves {A : Nat} {s0 : State} (p : Nat × (Nat → State → Ans)) (hp : p ∈ ownWrites) (v : Nat) (s : State) (hM : Moves A s0 s) (hA : Sub 497323236409786642155382248146820840100456150797347717440463976893159497012529088953302 A) :
    Moves A s0 (p.2 v s).st := by
  simp only [ownWrites, List.mem_cons, List.not_mem_nil, or_false] at hp
  rcases hp with rfl | rfl | rfl | rfl | rfl | rfl | rfl | rfl | rfl | rfl | rfl | rfl | rfl | rfl | rfl | rfl | rfl | rfl | rfl | rfl | rfl | rfl | rfl | rfl
  · exact tblActivateWrite_moves _ _ hM (Sub.trans (by decide) hA)
  · exact dataPosWrite_moves _ _ hM (Sub.trans (by decide) hA)
  · exact stepSkipWrite_moves _ _ hM (Sub.trans (by decide) hA)
  · exact retryLimitWrite_moves _ _ hM (Sub.trans (by decide) hA)
  · exact rollCancelWrite_moves _ _ hM (Sub.trans (by decide) hA)
  · exact epochReadyWrite_moves _ _ hM (Sub.trans (by decide) hA)
  · exact actionWrite_moves _ _ _ hM (fun _ h => strmResumeWrite_moves _ h (Sub.trans (by decide) hA)) (Sub.trans (by decide) hA)
  · exact sluCmdWrite_moves _ _ hM (Sub.trans (by decide) hA)
  · exact narrowWrite_moves _ _ hM (Sub.trans (by decide) hA)
  · exact sluNarrowDataWrite_moves _ _ hM (Sub.trans (by decide) hA)
  · exact sluNarrowCloseWrite_moves _ _ hM (Sub.trans (by decide) hA)
  · exact memRetireWrite_moves _ _ hM (Sub.trans (by decide) hA)
  · exact xlatInvalWrite_moves _ _ hM (Sub.trans (by decide) hA)
  · exact fqTailWrite_moves _ _ hM (Sub.trans (by decide) hA)
  · exact fqBaseWrite_moves _ _ hM (Sub.trans (by decide) hA)
  · exact fqSizeWrite_moves _ _ hM (Sub.trans (by decide) hA)
  · exact actionWrite_moves _ _ _ hM (fun _ h => pageMoveGo_moves _ h (Sub.trans (by decide) hA)) (Sub.trans (by decide) hA)
  · exact rillAltSelWrite_moves _ _ hM (Sub.trans (by decide) hA)
  · exact roceQpWrite_moves _ _ hM (Sub.trans (by decide) hA)
  · exact roceRgnWrite_moves _ _ hM (Sub.trans (by decide) hA)
  · exact maskWrite_moves _ _ _ _ page_mbxMcDbMask hM (Sub.trans (by decide) hA) (Sub.trans (by decide) hA)
  · exact resFenceReqWrite_moves _ _ hM (Sub.trans (by decide) hA)
  · exact actionWrite_moves _ _ _ hM (fun _ h => resCoreTestWrite_moves _ h (Sub.trans (by decide) hA)) (Sub.trans (by decide) hA)
  · exact actionWrite_moves _ _ _ hM (fun _ h => resUnfenceWrite_moves _ h (Sub.trans (by decide) hA)) (Sub.trans (by decide) hA)

theorem ownWrites2_moves {A : Nat} {s0 : State} (p : Nat × (Nat → State → Ans)) (hp : p ∈ ownWrites2) (v : Nat) (s : State) (hM : Moves A s0 s) (hA : Sub 497323236409786642155382248146820840100456150797347717440463976893159497012529088953302 A) :
    Moves A s0 (p.2 v s).st := by
  simp only [ownWrites2, List.mem_cons, List.not_mem_nil, or_false] at hp
  rcases hp with rfl | rfl | rfl | rfl | rfl | rfl | rfl | rfl | rfl | rfl | rfl | rfl | rfl | rfl | rfl | rfl | rfl | rfl | rfl | rfl | rfl | rfl | rfl
  · exact actionWrite_moves _ _ _ hM (fun _ h => resFailNoticeWrite_moves _ h (Sub.trans (by decide) hA)) (Sub.trans (by decide) hA)
  · exact actionWrite_moves _ _ _ hM (fun _ h => resMtbfResetWrite_moves _ h (Sub.trans (by decide) hA)) (Sub.trans (by decide) hA)
  · exact actionWrite_moves _ _ _ hM (fun _ h => ckptRequestWrite_moves _ h (Sub.trans (by decide) hA)) (Sub.trans (by decide) hA)
  · exact actionWrite_moves _ _ _ hM (fun _ h => ckptServeWrite_moves _ h (Sub.trans (by decide) hA)) (Sub.trans (by decide) hA)
  · exact restoreWrite_moves _ _ hM (Sub.trans (by decide) hA)
  · exact domainReqWrite_moves _ _ hM (Sub.trans (by decide) hA)
  · exact freqReqWrite_moves _ _ hM (Sub.trans (by decide) hA)
  · exact voltReqWrite_moves _ _ hM (Sub.trans (by decide) hA)
  · exact actionWrite_moves _ _ _ hM (fun _ h => sleepWrite_moves _ h (Sub.trans (by decide) hA)) (Sub.trans (by decide) hA)
  · exact Ans_ok_moves _ (refreshAll_moves _ (setReg_moves _ _ page_pwrDipFreq hM (Sub.trans (by decide) hA)) (Sub.trans (by decide) hA)) (Sub.trans (by decide) hA)
  · exact ptpNetWrite_moves _ _ _ page_ptpNet hM (Sub.trans (by decide) hA) (Sub.trans (by decide) hA)
  · exact ptpNetWrite_moves _ _ _ page_ptpDomain hM (Sub.trans (by decide) hA) (Sub.trans (by decide) hA)
  · exact rngSeedWrite_moves _ _ hM (Sub.trans (by decide) hA)
  · exact actionWrite_moves _ _ _ hM (fun _ h => alertAckWrite_moves _ h (Sub.trans (by decide) hA)) (Sub.trans (by decide) hA)
  · exact actionWrite_moves _ _ _ hM (fun _ h => fwVerify_moves _ h (Sub.trans (by decide) hA)) (Sub.trans (by decide) hA)
  · exact fwCommit_moves _ _ hM (Sub.trans (by decide) hA)
  · exact cfgWrite_moves _ _ hM (Sub.trans (by decide) hA)
  · exact ownerKeySigned_moves _ _ hM (Sub.trans (by decide) hA)
  · exact ownerRelease_moves _ _ hM (Sub.trans (by decide) hA)
  · exact minSvnWrite_moves _ _ hM (Sub.trans (by decide) hA)
  · exact attestNonceWrite_moves _ _ hM (Sub.trans (by decide) hA)
  · exact debugEnter_moves _ _ hM (Sub.trans (by decide) hA)
  · exact debugExit_moves _ _ hM (Sub.trans (by decide) hA)


theorem familyWrite_moves {A : Nat} {s0 : State} (key v : Nat) (s : State) (hM : Moves A s0 s) (hA : Sub 497323236409786642155382248146820840100456150797347717440463976893159497012529088953302 A) :
    ∀ a, familyWrite key v s = some a → Moves A s0 a.st := by
  have hS := fun k => page_sub (A := A) k (Sub.trans (by decide) hA)
  intro a h
  unfold familyWrite at h
  dsimp only [] at h
  split at h
  · cases h; exact roleReqWrite_moves _ _ _ hM (Sub.trans (by decide) hA)
  · split at h
    · cases h; exact classWrite_moves _ _ _ rfl hM (hS _) (Sub.trans (by decide) hA)
    · split at h
      · cases h; exact poolWrite_moves _ _ _ rfl hM (hS _) (Sub.trans (by decide) hA)
      · split at h
        · cases h; exact actionWrite_moves _ _ _ hM (fun _ h => rillRetrainWrite_moves _ _ h (Sub.trans (by decide) hA)) (Sub.trans (by decide) hA)
        · split at h
          · cases h; exact ethEnableWrite_moves _ _ _ hM (Sub.trans (by decide) hA)
          · split at h
            · cases h; exact maskWrite_moves _ _ _ _ rfl hM (hS _) (Sub.trans (by decide) hA)
            · cases h
theorem applyWrite_moves {A : Nat} {s0 : State} (key v : Nat) (s : State) (hM : Moves A s0 s) (hA : Sub 497323236409786642155382248146820840100456150797347717440463976893159497012529088953302 A) : Moves A s0 (applyWrite key v s).st := by
  unfold applyWrite
  split
  · rename_i p hp
    rcases List.mem_append.1 (List.mem_of_find?_eq_some hp) with h | h
    · exact ownWrites_moves _ h _ _ hM (Sub.trans (by decide) hA)
    · exact ownWrites2_moves _ h _ _ hM (Sub.trans (by decide) hA)
  · cases hf : familyWrite key v s with
    | none => exact setReg_moves _ _ rfl hM (page_sub _ (Sub.trans (by decide) hA))
    | some a => exact familyWrite_moves _ _ _ hM (Sub.trans (by decide) hA) a hf

theorem checkedWrite_moves {A : Nat} {s0 : State} (d : ObjDesc) (key : Nat) (v : Nat) (s : State) (hM : Moves A s0 s) (hA : Sub 497323236409786642155382248146820840100456150797347717440463976893159497012529088953302 A) : Moves A s0 (checkedWrite d key v s).st := by
  unfold checkedWrite
  try dsimp -proj only []
  repeat' first
    | with_reducible exact ‹Moves _ _ _›
    | with_reducible exact Sub.trans (by decide) hA
    | with_reducible apply Ans_refuse_moves
    | with_reducible apply applyWrite_moves
    | with_reducible refine Runs.next ?_
    | with_reducible refine ite_ans (fun _ => ?_) (fun _ => ?_)
    | with_reducible refine ite_moves (fun _ => ?_) (fun _ => ?_)
    | split
    | dsimp only []

theorem plainWrite_moves {A : Nat} {s0 : State} (p : Path) (key : Nat) (bytes : List Byte) (s : State) (hM : Moves A s0 s) (hA : Sub 497323236409786642155382248146820840100456150797347717440463976893159497012529088953302 A) : Moves A s0 (plainWrite p key bytes s).st := by
  unfold plainWrite
  try dsimp -proj only []
  repeat' first
    | with_reducible exact ‹Moves _ _ _›
    | with_reducible exact Sub.trans (by decide) hA
    | with_reducible apply Ans_refuse_moves
    | with_reducible apply ownerKeyPlain_moves
    | with_reducible apply checkedWrite_moves
    | with_reducible exact page_secOwnerKey
    | with_reducible refine Runs.next ?_
    | with_reducible refine ite_ans (fun _ => ?_) (fun _ => ?_)
    | with_reducible refine ite_moves (fun _ => ?_) (fun _ => ?_)
    | split
    | dsimp only []

theorem authFail_moves {A : Nat} {s0 : State} (s : State) (hM : Moves A s0 s) (hA : Sub 95780971304118053647396689196894471550123784813183874 A) : Moves A s0 (authFail s).st := by
  unfold authFail
  try dsimp -proj only []
  repeat' first
    | with_reducible exact ‹Moves _ _ _›
    | with_reducible exact Sub.trans (by decide) hA
    | with_reducible apply bump_moves
    | with_reducible apply Ans_refuse_moves
    | with_reducible apply raise_moves
    | with_reducible exact page_secAuthFails
    | with_reducible refine Runs.next ?_
    | with_reducible refine ite_ans (fun _ => ?_) (fun _ => ?_)
    | with_reducible refine ite_moves (fun _ => ?_) (fun _ => ?_)
    | split
    | dsimp only []

theorem signedWrite_moves {A : Nat} {s0 : State} (b : List Byte) (s : State) (hM : Moves A s0 s) (hA : Sub 497323236409786642155382248146820840100456150797347717440463976893159497012529088953302 A) : Moves A s0 (signedWrite b s).st := by
  unfold signedWrite
  try dsimp -proj only []
  repeat' first
    | with_reducible exact ‹Moves _ _ _›
    | with_reducible exact Sub.trans (by decide) hA
    | with_reducible apply Ans_refuse_moves
    | with_reducible apply authFail_moves
    | with_reducible apply setReg_moves
    | with_reducible apply checkedWrite_moves
    | with_reducible exact page_secNonce
    | with_reducible refine Runs.next ?_
    | with_reducible refine ite_ans (fun _ => ?_) (fun _ => ?_)
    | with_reducible refine ite_moves (fun _ => ?_) (fun _ => ?_)
    | split
    | dsimp only []

theorem signedRequest_moves {A : Nat} {s0 : State} (s : State) (q : Req) (b : List Byte) (hM : Moves A s0 s) (hA : Sub 497323236409786642155382248146820840100456150797347717440463976893159497012529088953302 A) : Moves A s0 (signedRequest s q b) := by
  unfold signedRequest
  try dsimp -proj only []
  repeat' first
    | with_reducible exact ‹Moves _ _ _›
    | with_reducible exact Sub.trans (by decide) hA
    | with_reducible refine request_moves _ _ _ _ _ ?_ (fun _ _ => ?_) ?_
    | with_reducible apply signedWrite_moves
    | with_reducible refine Runs.next ?_
    | with_reducible refine ite_moves (fun _ => ?_) (fun _ => ?_)
    | split

theorem signedFor_moves {A : Nat} {s0 : State} (s : State) (q : Req) (key : Nat) (b : List Byte) (hM : Moves A s0 s) (hA : Sub 497323236409786642155382248146820840100456150797347717440463976893159497012529088953302 A) : Moves A s0 (signedFor s q key b) := by
  unfold signedFor
  try dsimp -proj only []
  repeat' first
    | with_reducible exact ‹Moves _ _ _›
    | with_reducible exact Sub.trans (by decide) hA
    | with_reducible apply signedRequest_moves
    | with_reducible refine Runs.next ?_
    | with_reducible refine ite_moves (fun _ => ?_) (fun _ => ?_)
    | split

end Sys2Proof.Machine
end

