-- ==== Sys2Proof/Laws/Boot.lean ====
section
/-! SUPPORT. What the operations of Machine/Boot.lean change at most, each one's lemma. -/

namespace Sys2Proof.Machine

theorem applyEntry_moves {A : Nat} {s0 : State} (kind : Nat) (s : State) (e : CfgEntry) (hM : Moves A s0 s) (hA : Sub 497323236409786642155382248146820840100456150797347717440463976893159497012529088953302 A) : Moves A s0 (applyEntry kind s e) := by
  unfold applyEntry
  refine ite_moves (fun _ => setReg_moves _ _ rfl hM (page_sub _ (Sub.trans (by decide) hA))) (fun _ => ?_)
  split
  · exact raise_moves _ _ _ _ _ hM (Sub.trans (by decide) hA)
  · rename_i d _
    have h := checkedWrite_moves d e.key e.value s hM (Sub.trans (by decide) hA)
    exact ite_moves (fun _ => h) (fun _ => raise_moves _ _ _ _ _ h (Sub.trans (by decide) hA))

theorem applyRecord_moves {A : Nat} {s0 : State} (s : State) (kind : Nat) (b : List Byte) (hM : Moves A s0 s) (hA : Sub 497323236409786642155382248146820840100456150797347717440463976893159497012529088953302 A) : Moves A s0 (applyRecord s kind b) := by
  unfold applyRecord
  try dsimp -proj only []
  repeat' first
    | with_reducible exact ‹Moves _ _ _›
    | with_reducible exact Sub.trans (by decide) hA
    | with_reducible apply applyEntry_moves
    | with_reducible apply setReg_moves
    | with_reducible apply measureCfg_moves
    | with_reducible refine foldl_moves _ _ ?_ fun _ _ _ => ?_
    | with_reducible exact page_cfgFactorySeq
    | with_reducible exact page_cfgOwnerSeq
    | with_reducible refine Runs.next ?_
    | with_reducible refine ite_moves (fun _ => ?_) (fun _ => ?_)
    | split

theorem applyOwner_moves {A : Nat} {s0 : State} (s : State) (hM : Moves A s0 s) (hA : Sub 497323236409786642155382248146820840100456150797347717440463976893159497012529088953302 A) : Moves A s0 (applyOwner s) := by
  unfold applyOwner
  try dsimp -proj only []
  repeat' first
    | with_reducible exact ‹Moves _ _ _›
    | with_reducible exact Sub.trans (by decide) hA
    | with_reducible apply applyRecord_moves
    | with_reducible apply setReg_moves
    | with_reducible apply raise_moves
    | with_reducible exact page_cfgOwnerOk
    | with_reducible exact page_cfgOwnerSeq
    | with_reducible refine Runs.next ?_
    | with_reducible refine ite_moves (fun _ => ?_) (fun _ => ?_)
    | split

theorem applyRecords_moves {A : Nat} {s0 : State} (s : State) (hM : Moves A s0 s) (hA : Sub 497323236409786642155382248146820840100456150797347717440463976893159497012529088953302 A) : ∀ t, applyRecords s = some t → Moves A s0 t := by
  intro t h
  unfold applyRecords at h
  obtain ⟨b, hb, rfl⟩ := Option.map_eq_some_iff.1 h
  exact forAll_moves _ _ (applyOwner_moves _ (applyRecord_moves _ _ _ hM (Sub.trans (by decide) hA)) (Sub.trans (by decide) hA)) fun cl s hs => refreshFenced_moves _ _ hs (Sub.trans (by decide) hA)

theorem storeRecord_moves {A : Nat} {s0 : State} (s : State) (kind : Nat) (b : List Byte) (hM : Moves A s0 s) (hA : Sub 8388608 A) : Moves A s0 (storeRecord s kind b) := by
  unfold storeRecord
  try dsimp -proj only []
  repeat' first
    | with_reducible exact ‹Moves _ _ _›
    | with_reducible exact Sub.trans (by decide) hA
    | with_reducible apply withFlash_moves
    | with_reducible refine Runs.next ?_
    | with_reducible refine ite_moves (fun _ => ?_) (fun _ => ?_)
    | split

theorem pstLoad_moves {A : Nat} {s0 : State} (s : State) (die : Nat) (hM : Moves A s0 s) (hA : Sub 36893488147419168784 A) : Moves A s0 (pstLoad s die) := by
  unfold pstLoad
  try dsimp -proj only []
  repeat' first
    | with_reducible exact ‹Moves _ _ _›
    | with_reducible exact Sub.trans (by decide) hA
    | with_reducible apply measureTable_moves
    | with_reducible apply withTables_moves
    | with_reducible refine forAll_moves _ _ ?_ fun _ _ _ => ?_
    | with_reducible apply setReg_moves
    | with_reducible exact page_pwrDomVoltReq
    | with_reducible exact page_ofUnit _ page_pwrDomVoltReq
    | with_reducible refine Runs.next ?_
    | with_reducible refine ite_moves (fun _ => ?_) (fun _ => ?_)
    | split

theorem romPort_moves {A : Nat} {s0 : State} (s : State) (p : Nat) (hM : Moves A s0 s) (hA : Sub 2923672297017761755101615737165212930894144125890 A) : Moves A s0 (romPort s p) := by
  unfold romPort
  try dsimp -proj only []
  repeat' first
    | with_reducible exact ‹Moves _ _ _›
    | with_reducible exact Sub.trans (by decide) hA
    | with_reducible apply domArrive_moves
    | with_reducible refine Runs.next ?_
    | with_reducible refine ite_moves (fun _ => ?_) (fun _ => ?_)
    | split

theorem enterRecovery_moves {A : Nat} {s0 : State} (s : State) (reason : Nat) (hM : Moves A s0 s) (hA : Sub 2923672297017761755101615737165213493844097612738 A) : Moves A s0 (enterRecovery s reason) := by
  unfold enterRecovery
  try dsimp -proj only []
  repeat' first
    | with_reducible exact ‹Moves _ _ _›
    | with_reducible exact Sub.trans (by decide) hA
    | with_reducible refine modMgt_moves _ _ ?_ (fun _ => rfl) ?_
    | with_reducible apply setReg_moves
    | with_reducible apply raise_moves
    | with_reducible refine forAll_moves _ _ ?_ fun _ _ _ => ?_
    | with_reducible apply romPort_moves
    | with_reducible exact page_bootStage
    | with_reducible exact page_fldState
    | with_reducible refine Runs.next ?_
    | with_reducible refine ite_moves (fun _ => ?_) (fun _ => ?_)
    | split

theorem runRecovery_moves {A : Nat} {s0 : State} (s : State) (hM : Moves A s0 s) (hA : Sub 562949953486848 A) : Moves A s0 (runRecovery s) := by
  unfold runRecovery
  try dsimp -proj only []
  repeat' first
    | with_reducible exact ‹Moves _ _ _›
    | with_reducible exact Sub.trans (by decide) hA
    | with_reducible refine modMgt_moves _ _ ?_ (fun _ => rfl) ?_
    | with_reducible apply setReg_moves
    | with_reducible exact page_bootRecovery
    | with_reducible refine Runs.next ?_
    | with_reducible refine ite_moves (fun _ => ?_) (fun _ => ?_)
    | split

theorem recoveryTake_moves {A : Nat} {s0 : State} (s : State) (b : List Byte) (hM : Moves A s0 s) (hA : Sub 8454144 A) : ∀ t, recoveryTake s b = some t → Moves A s0 t.1 := by
  intro t h
  unfold recoveryTake at h
  have h1 := modMgt_moves s (fun m => { m with recovery := [] }) hM (fun _ => rfl) (Sub.trans (by decide) hA)
  split at h
  · obtain rfl := Option.some.inj h
    exact withFlash_moves _ h1 (Sub.trans (by decide) hA)
  · split at h
    · obtain rfl := Option.some.inj h
      exact storeRecord_moves _ 1 b h1 (Sub.trans (by decide) hA)
    · split at h
      · obtain rfl := Option.some.inj h
        exact modMgt_moves _ (fun m => { m with recPst := m.recPst + 1 }) (withFlash_moves _ h1 (Sub.trans (by decide) hA)) (fun _ => rfl) (Sub.trans (by decide) hA)
      · cases h

theorem runFirmware_moves {A : Nat} {s0 : State} (s : State) (b : List Byte) (hM : Moves A s0 s) (hA : Sub 281474976776192 A) : Moves A s0 (runFirmware s b) := by
  unfold runFirmware
  try dsimp -proj only []
  repeat' first
    | with_reducible exact ‹Moves _ _ _›
    | with_reducible exact Sub.trans (by decide) hA
    | with_reducible apply measureFw_moves
    | with_reducible apply setReg_moves
    | with_reducible exact page_idFwVersion
    | with_reducible exact page_idFwSvn
    | with_reducible refine Runs.next ?_
    | with_reducible refine ite_moves (fun _ => ?_) (fun _ => ?_)
    | split

theorem writeIdentity_moves {A : Nat} {s0 : State} (s : State) (hM : Moves A s0 s) (hA : Sub 6144 A) : Moves A s0 (writeIdentity s) := by
  unfold writeIdentity
  try dsimp -proj only []
  repeat' first
    | with_reducible exact ‹Moves _ _ _›
    | with_reducible exact ‹MMoves _ _ _›
    | with_reducible exact Sub.trans (by decide) hA
    | with_reducible refine withMem_moves ?_ ?_
    | with_reducible apply clearPoison_moves
    | with_reducible apply memWriteBytes_moves
    | refine MMoves.filtered _ _ ?_ ?_
    | with_reducible exact MMoves.refl _ _
    | exact mem_rest rfl rfl (Sub.trans (by decide) hA)
    | with_reducible exact page_ckptPinBase
    | with_reducible refine Runs.next ?_
    | with_reducible refine ite_moves (fun _ => ?_) (fun _ => ?_)
    | split

theorem requestDomains_moves {A : Nat} {s0 : State} (s : State) (hM : Moves A s0 s) (hA : Sub 184467440737095943042 A) : Moves A s0 (requestDomains s) := by
  unfold requestDomains
  try dsimp -proj only []
  repeat' first
    | with_reducible exact ‹Moves _ _ _›
    | with_reducible exact Sub.trans (by decide) hA
    | with_reducible refine forAll_moves _ _ ?_ fun _ _ _ => ?_
    | with_reducible apply domRequest_moves
    | with_reducible refine Runs.next ?_
    | refine snd_moves (by assumption) ?_
    | refine fst_moves (by assumption) ?_
    | with_reducible refine ite_moves (fun _ => ?_) (fun _ => ?_)
    | split

theorem logHeld_moves {A : Nat} {s0 : State} (s : State) (hM : Moves A s0 s) (hA : Sub 147573952589676445698 A) : Moves A s0 (logHeld s) := by
  unfold logHeld
  refine forAll_moves _ _ (withLog_moves hM (fun h => ?_) (Sub.trans (by decide) hA)) fun e s hs => logRecord_moves _ hs (Sub.trans (by decide) hA)
  simp only [LogState.wf, Bool.and_eq_true, decide_eq_true_eq, List.length_nil] at h ⊢
  exact ⟨⟨h.1.1, Nat.zero_le _⟩, h.2⟩

end Sys2Proof.Machine
end

