-- ==== Sys2Proof/Laws/Bytes.lean ====
section
/-! SUPPORT. Memory laws: what a read answers after a write, the bytes of a number and of a range. -/

namespace Sys2Proof.Machine

theorem memByte_set (m : MemState) (a x : Nat) (b : Byte) : memByte (memSetByte m a b) x = if x = a then b else memByte m x :=
  smGet_set memDefault m.cells a x b
/-- After a write, a byte of the range written is the byte given; every other byte is as it was. -/
theorem memByte_write (bs : List Byte) (m : MemState) (a x : Nat) :
    memByte (memWriteBytes m a bs) x = if a ≤ x ∧ x < a + bs.length then bs.getD (x - a) 0 else memByte m x := by
  induction bs generalizing m a with
  | nil => rw [if_neg (by simp only [List.length_nil]; omega)]; rfl
  | cons b bs ih =>
    rw [memWriteBytes, ih, memByte_set]
    by_cases h : x = a
    · subst h; rw [if_neg (by omega), if_pos rfl, if_pos (by simp)]; simp
    · by_cases h2 : a + 1 ≤ x ∧ x < a + 1 + bs.length
      · obtain ⟨k, rfl⟩ : ∃ k, x = a + 1 + k := ⟨x - (a + 1), by omega⟩
        rw [if_pos h2, if_pos (by simp only [List.length_cons]; omega)]
        simp [show a + 1 + k - a = k + 1 by omega]
      · rw [if_neg h2, if_neg h, if_neg (by simp only [List.length_cons]; omega)]
@[simp] theorem memWriteBytes_poison (bs : List Byte) (m : MemState) (a : Nat) : (memWriteBytes m a bs).poison = m.poison := by
  induction bs generalizing m a with
  | nil => rfl
  | cons b bs ih => rw [memWriteBytes, ih]; rfl
@[simp] theorem poisoned_write (bs : List Byte) (m : MemState) (a x n : Nat) : poisoned (memWriteBytes m a bs) x n = poisoned m x n := by
  simp [poisoned]

@[simp] theorem leBytes_length (n v : Nat) : (leBytes n v).length = n := by
  induction n generalizing v with
  | zero => rfl
  | succ n ih => simp [leBytes, ih]
@[simp] theorem beBytes_length (n v : Nat) : (beBytes n v).length = n := by simp [beBytes]
theorem leBytes_cons (n : Nat) (b : Byte) (v : Nat) : leBytes (n + 1) (b.toNat + 256 * v) = b :: leBytes n v := by
  have h := b.isLt
  rw [leBytes, show (b.toNat + 256 * v) / 256 = v by omega]
  congr 1
  apply BitVec.eq_of_toNat_eq
  rw [BitVec.toNat_ofNat]
  omega
/-- The bytes of a range are the bytes at its addresses, in order. -/
theorem memBytes_eq (m : MemState) (a n : Nat) : memBytes m a n = (List.range n).map fun i => memByte m (a + i) := by
  unfold memBytes
  induction n generalizing a with
  | zero => rfl
  | succ n ih =>
    rw [memRead, leBytes_cons, ih, List.range_succ_eq_map]
    simp [Function.comp_def, Nat.add_assoc, Nat.add_comm 1]
/-- A read outside the bytes written answers as before. -/
theorem memRead_write (bs : List Byte) (m : MemState) (a x n : Nat) (h : x + n ≤ a ∨ a + bs.length ≤ x) :
    memRead (memWriteBytes m a bs) x n = memRead m x n := by
  induction n generalizing x with
  | zero => rfl
  | succ n ih => rw [memRead, memRead, ih _ (by omega), memByte_write, if_neg (by omega)]
theorem memBytes_write (bs : List Byte) (m : MemState) (a x n : Nat) (h : x + n ≤ a ∨ a + bs.length ≤ x) :
    memBytes (memWriteBytes m a bs) x n = memBytes m x n := by rw [memBytes, memBytes, memRead_write _ _ _ _ _ h]
theorem memBytes_write_self (bs : List Byte) (m : MemState) (a : Nat) : memBytes (memWriteBytes m a bs) a bs.length = bs := by
  rw [memBytes_eq]
  apply List.ext_getElem
  · simp
  · intro i h1 h2
    simp [memByte_write, h2]

theorem shaBlock_length (st : List Nat) (b : List Byte) (h : st.length = 8) : (shaBlock st b).length = 8 := by
  simp [shaBlock, h, ShaVars.toList]
theorem shaBlocks_length (k : Nat) (st : List Nat) (bs : List Byte) (h : st.length = 8) : (shaBlocks k st bs).length = 8 := by
  induction k generalizing st bs with
  | zero => exact h
  | succ k ih => exact ih _ _ (shaBlock_length _ _ h)
/-- A digest has 64 bytes. -/
theorem sha512_length (bs : List Byte) : (sha512 bs).length = 64 := by
  have h := shaBlocks_length ((shaPad bs).length / 128) shaH (shaPad bs) rfl
  rw [sha512, List.length_flatMap]
  simp only [beBytes_length, List.map_const', h]
  rfl

end Sys2Proof.Machine
end

