-- ==== Sys2Proof/Laws/Cadence.lean ====
section
/-! SUPPORT. What the operations of Machine/Cadence.lean change at most, each one's lemma. -/

namespace Sys2Proof.Machine

theorem newBeat_moves {A : Nat} {s0 : State} (s : State) (hM : Moves A s0 s) (hA : Sub 30354201441027016733116592294117482916376809840994187105842781448969281568351797322 A) : Moves A s0 (newBeat s) := by
  unfold newBeat
  try dsimp -proj only []
  repeat' first
    | with_reducible exact ‹Moves _ _ _›
    | with_reducible exact Sub.trans (by decide) hA
    | with_reducible apply State_mapCores_moves
    | with_reducible apply withCounter_moves
    | with_reducible apply bump_moves
    | with_reducible apply serveHeld_moves
    | with_reducible apply endPauses_moves
    | with_reducible apply weirBeat_moves
    | with_reducible exact page_pwrCapCeil
    | with_reducible exact page_pwrCapBeats
    | with_reducible refine Runs.next ?_
    | with_reducible refine ite_moves (fun _ => ?_) (fun _ => ?_)
    | split

theorem corrected_moves {A : Nat} {s0 : State} (s : State) (hM : Moves A s0 s) (hA : Sub 147573952589694534530 A) : Moves A s0 (corrected s) := by
  unfold corrected
  try dsimp -proj only []
  repeat' first
    | with_reducible exact ‹Moves _ _ _›
    | with_reducible exact Sub.trans (by decide) hA
    | with_reducible apply raise_moves
    | with_reducible apply modPtp_moves
    | with_reducible apply State_dropHold_moves
    | with_reducible refine Runs.next ?_
    | with_reducible refine ite_moves (fun _ => ?_) (fun _ => ?_)
    | split

theorem ptpLock_moves {A : Nat} {s0 : State} (s : State) (hM : Moves A s0 s) (hA : Sub 79228162514264337593560727552 A) : Moves A s0 (ptpLock s) := by
  unfold ptpLock
  try dsimp -proj only []
  repeat' first
    | with_reducible exact ‹Moves _ _ _›
    | with_reducible exact Sub.trans (by decide) hA
    | with_reducible apply setReg_moves
    | with_reducible apply State_dropHold_moves
    | with_reducible exact page_cadSyncState
    | with_reducible refine Runs.next ?_
    | with_reducible refine ite_moves (fun _ => ?_) (fun _ => ?_)
    | split

theorem ptpOffsetEvent_moves {A : Nat} {s0 : State} (s : State) (o : Int) (hM : Moves A s0 s) (hA : Sub 147573952589677757314 A) : Moves A s0 (ptpOffsetEvent s o) := by
  unfold ptpOffsetEvent
  try dsimp -proj only []
  repeat' first
    | with_reducible exact ‹Moves _ _ _›
    | with_reducible exact Sub.trans (by decide) hA
    | with_reducible apply raise_moves
    | with_reducible apply modPtp_moves
    | with_reducible exact page_cadSyncState
    | with_reducible refine Runs.next ?_
    | with_reducible refine ite_moves (fun _ => ?_) (fun _ => ?_)
    | split

theorem ptpOffset_moves {A : Nat} {s0 : State} (s : State) (o : Int) (hM : Moves A s0 s) (hA : Sub 79228162661838290183238484866 A) : Moves A s0 (ptpOffset s o) := by
  unfold ptpOffset
  try dsimp -proj only []
  repeat' first
    | with_reducible exact ‹Moves _ _ _›
    | with_reducible exact Sub.trans (by decide) hA
    | with_reducible apply setReg_moves
    | with_reducible apply modPtp_moves
    | with_reducible apply ptpOffsetEvent_moves
    | with_reducible apply ptpLock_moves
    | with_reducible apply State_addHold_moves
    | with_reducible exact page_cadOffset
    | with_reducible refine Runs.next ?_
    | with_reducible refine ite_moves (fun _ => ?_) (fun _ => ?_)
    | split

theorem ptpMeasure_moves {A : Nat} {s0 : State} (s : State) (t1 : Int) (t2 : Int) (hM : Moves A s0 s) (hA : Sub 79228162661838290183238484866 A) : Moves A s0 (ptpMeasure s t1 t2) := by
  unfold ptpMeasure
  try dsimp -proj only []
  repeat' first
    | with_reducible exact ‹Moves _ _ _›
    | with_reducible exact Sub.trans (by decide) hA
    | with_reducible apply ptpOffset_moves
    | with_reducible apply modPtp_moves
    | with_reducible refine Runs.next ?_
    | with_reducible refine ite_moves (fun _ => ?_) (fun _ => ?_)
    | split

theorem startEncoding_moves {A : Nat} {s0 : State} (cl : Nat) (frame : Nat) (s : State) (hM : Moves A s0 s) (hA : Sub 192 A) : Moves A s0 (startEncoding cl frame s) := by
  unfold startEncoding
  try dsimp -proj only []
  repeat' first
    | with_reducible exact ‹Moves _ _ _›
    | with_reducible exact Sub.trans (by decide) hA
    | with_reducible refine forAll_moves _ _ ?_ fun _ _ _ => ?_
    | with_reducible apply modCore_moves
    | with_reducible apply encodingDone_moves
    | with_reducible apply modCluster_moves
    | with_reducible exact page_schedClFenced _
    | with_reducible refine Runs.next ?_
    | with_reducible refine ite_moves (fun _ => ?_) (fun _ => ?_)
    | split

theorem takeFrame_moves {A : Nat} {s0 : State} (s : State) (frame : Nat) (hM : Moves A s0 s) (hA : Sub 79228162661838290183220659138 A) : Moves A s0 (takeFrame s frame) := by
  unfold takeFrame
  try dsimp -proj only []
  repeat' first
    | with_reducible exact ‹Moves _ _ _›
    | with_reducible exact Sub.trans (by decide) hA
    | with_reducible apply raise_moves
    | with_reducible apply bump_moves
    | with_reducible refine forAll_moves _ _ ?_ fun _ _ _ => ?_
    | with_reducible apply startEncoding_moves
    | with_reducible exact page_cadFrameReject
    | with_reducible refine Runs.next ?_
    | with_reducible refine ite_moves (fun _ => ?_) (fun _ => ?_)
    | split

end Sys2Proof.Machine
end

