-- ==== Sys2Proof/WellFormed.lean ====
section
/-! DEFINITION. Which commands a sender can form: the limits on the length of a message that the operand types do not carry. The
meanings are total; they do not rest on these limits. -/

namespace Sys2Proof

open Machine

/-- A message carries at most 1,024 value bytes (R428). -/
def messageFits (b : List Byte) : Bool := decide (b.length ≤ 1024)

/-- The bytes of a write to the dictionary. -/
def Machine.RegWrite.wf : RegWrite → Bool
  | .plain _ _ b => messageFits b
  | .signed b => messageFits b

/-- A packet of a queue pair carries at most the path MTU (R351). -/
def packetFits (b : List Byte) : Bool := decide (b.length ≤ 4096)

/-- What answers a request of the device: a read's data is a packet (R351). -/
def Machine.RoceAnswer.wf : RoceAnswer → Bool
  | .ack _ => true
  | .nak _ _ => true
  | .data _ b => packetFits b

/-- A mailbox write stays inside its 64-byte port (R363). -/
def portWriteFits (off : Fin 64) (b : List Byte) : Bool := decide (off.val + b.length ≤ 64)

/-- WAYPOINT is 0 when WAYPT is 0 (R324). -/
def Machine.FlitRx.wf (r : FlitRx) : Bool := r.waypt || decide (r.waypoint = 0)

/-- An IP payload of one frame of at most `ETH.N_MTU` bytes (R351: fragments are dropped). -/
def frameFits (b : List Byte) : Bool := decide (b.length ≤ 9216)

/-- Well-formed commands. -/
def Instr.wf : Instr → Bool
  | .beatStart => true
  | .cadenceSet => true
  | .ptpSyncRx _ _ _ _ _ _ _ => true
  | .ptpAnnounceRx _ _ _ _ _ => true
  | .ptpDelayRespRx _ _ _ _ _ => true
  | .ptpLockLost => true
  | .holdoverExpired => true
  | .ppsInEdge _ => true
  | .frameInEdge _ => true
  | .frameTimeout => true
  | .tblActivateWrite _ _ => true
  | .tableActivationApply _ _ => true
  | .roleReqWrite _ _ _ => true
  | .roleChangeApply _ => true
  | .trainingPlanBuild => true
  | .microbatchBoundary _ => true
  | .layerBoundary _ => true
  | .fProduct _ _ _ _ => true
  | .outlierSideProduct _ _ => true
  | .bxProduct _ _ _ => true
  | .bwProduct _ _ => true
  | .bxBwPair _ _ _ => true
  | .vectorFn _ _ => true
  | .vectorAdd _ _ => true
  | .vectorMul _ _ => true
  | .vectorRowmax _ _ => true
  | .vectorRowsum _ _ => true
  | .vectorRecip _ _ => true
  | .vectorRsqrt _ _ => true
  | .vectorSubrow _ _ => true
  | .vectorMulrow _ _ => true
  | .spillConvScaledToG _ _ => true
  | .spillQuantise _ _ _ => true
  | .spillConvWide _ _ => true
  | .gradTileSpill _ _ => true
  | .gradTileReload _ _ => true
  | .streamArm _ => true
  | .streamRearm _ => true
  | .streamDisarm _ => true
  | .barrierArrive _ => true
  | .barrierComplete _ => true
  | .barrierGraceExpired _ => true
  | .healthBarrierComplete => true
  | .commitBarrierComplete => true
  | .stepCommit => true
  | .stepDiscard => true
  | .entryComplete _ _ => true
  | .segmentClose _ _ => true
  | .updateOptimiser _ _ => true
  | .updateNarrowCopy _ _ _ => true
  | .updateSideWeight _ _ => true
  | .routerSelect _ _ => true
  | .routerCombine _ _ => true
  | .routerScatter _ _ => true
  | .routerReturn _ _ => true
  | .lutProduct _ _ _ => true
  | .samplingSample _ _ => true
  | .samplingScore _ _ => true
  | .reductionSend _ _ => true
  | .reductionReceive _ _ => true
  | .rolloutStepBoundary => true
  | .rolloutStepOrigin => true
  | .rolloutStepDiscard => true
  | .rollCancelWrite _ _ => true
  | .epochReadyWrite _ _ => true
  | .epochPublishCopyDone _ => true
  | .streamStart _ _ => true
  | .streamRequestIssue _ _ _ => true
  | .memoryReadComplete _ _ _ => true
  | .storeWriteAck _ _ => true
  | .translationWalkComplete _ _ _ => true
  | .strmResumeWrite _ _ => true
  | .fqTailWrite _ _ => true
  | .sluiceDropRem _ => true
  | .sluiceFlush _ => true
  | .sluiceFlushApply _ _ => true
  | .sluiceReset _ => true
  | .sluNarrowDataWrite _ _ => true
  | .sluNarrowCloseWrite _ _ => true
  | .deadlockPreempt _ => true
  | .memRetireWrite _ _ => true
  | .retireRebuildStart => true
  | .retireRebuildDone _ => true
  | .scrubWord _ _ _ => true
  | .cxlExpanderLost _ => true
  | .xlatInvalWrite _ _ => true
  | .xlatInvalDone => true
  | .pageMoveGo _ _ => true
  | .pageMoveDone _ => true
  | .siphonItemPlace _ _ => true
  | .siphonPrefetchStart _ => true
  | .rillFlitRx _ r => r.wf
  | .rillSlot _ _ => true
  | .rillTrainingDone _ _ _ => true
  | .rillTrainingTimeout _ => true
  | .rillLaneLockLoss _ _ => true
  | .rillLaneErrorLimit _ _ _ => true
  | .rillRemapDone _ _ => true
  | .rillRetrainWrite _ _ _ => true
  | .rillAltSelWrite _ _ => true
  | .routeBarrierComplete => true
  | .ethPortEnable _ _ => true
  | .ethPortDisable _ _ => true
  | .ethLinkUp _ _ => true
  | .ethLinkDown _ => true
  | .ethTrainingTimeout _ => true
  | .ethDownRetry _ => true
  | .roceWriteRx _ _ _ bytes => packetFits bytes
  | .roceReadRx _ _ _ => true
  | .roceResponseRx _ a => a.wf
  | .roceAckTimeout _ => true
  | .roceCnpRx _ => true
  | .arpRequestRx _ _ => true
  | .neighbourSolicitRx _ _ => true
  | .icmpEchoRx _ _ _ _ payload => frameFits payload
  | .lacpPduRx _ _ => true
  | .roceQpWrite _ _ => true
  | .roceRgnWrite _ _ => true
  | .mbxPortWrite _ _ _ _ off bytes => portWriteFits off bytes
  | .mbxConsWrite _ _ _ _ _ => true
  | .mbxDbClearWrite _ _ _ _ => true
  | .mbxDbMaskWrite _ _ => true
  | .sequencerMailboxTake _ => true
  | .mcMailboxService => true
  | .mcMailboxSend _ _ _ => true
  | .resFenceReqWrite _ _ => true
  | .coreHangTimeout _ => true
  | .resCoreTestWrite _ _ => true
  | .coreTestDone _ => true
  | .resUnfenceWrite _ _ => true
  | .coreUnfenceApply _ => true
  | .fatalFault _ => true
  | .ckptIntervalExpired => true
  | .ckptRequestWrite _ _ => true
  | .resFailNoticeWrite _ _ => true
  | .resMtbfResetWrite _ _ => true
  | .ckptStopBegin => true
  | .ckptStopEnd _ => true
  | .ckptDrainTargetDone _ => true
  | .ckptDrainTimeout _ => true
  | .ckptRestoreT1 _ => true
  | .ckptRestoreT3 _ => true
  | .ckptRestoreDone => true
  | .ckptServeWrite _ _ => true
  | .ckptServeDone => true
  | .supplyOutOfRange _ => true
  | .supplyBelow46 _ => true
  | .supplyAbove47 _ => true
  | .supplyHoldComplete => true
  | .supplyReleaseStep => true
  | .brownOut _ => true
  | .overVoltage _ => true
  | .domainReqWrite _ _ => true
  | .domainTransitionDone _ => true
  | .domainTransitionAbort _ => true
  | .freqReqWrite _ _ => true
  | .voltReqWrite _ _ => true
  | .dvfsVoltageReached _ => true
  | .sleepWrite _ _ => true
  | .powerSample _ _ => true
  | .thermalSample _ => true
  | .sspAddressMatch _ => true
  | .sspWakeComplete => true
  | .j1Mate _ _ => true
  | .j1Break => true
  | .pwrEnRise _ => true
  | .softStartBegin => true
  | .railsInRegulation => true
  | .pwrEnFall => true
  | .rstNAssert => true
  | .rstNDeassert _ _ => true
  | .bootIdentity _ => true
  | .bootFirmware => true
  | .bootConfig => true
  | .bootPower => true
  | .bootPowerRetry => true
  | .bootMemory => true
  | .bootReady _ => true
  | .recoverReqTimer => true
  | .recoveryBlockRx _ bytes => messageFits bytes
  | .recoverGoRx _ _ => true
  | .registerWrite _ w => w.wf
  | .rngSeedWrite _ _ => true
  | .dataPosWrite _ _ => true
  | .stepSkipWrite _ _ => true
  | .retryLimitWrite _ _ => true
  | .dbgAccRead _ => true
  | .dbgSpillRead _ => true
  | .logRead _ => true
  | .alertAckWrite _ _ => true
  | .secOwnerKeyWrite _ w => w.wf
  | .secOwnerRelease _ b => messageFits b
  | .secMinSvnWrite _ b => messageFits b
  | .attestNonceWrite _ _ => true
  | .attestReportReady _ => true
  | .dbgEnter _ b => messageFits b
  | .dbgExit _ _ => true
  | .cfgWrite _ b => messageFits b
  | .cfgRecordDone => true
  | .fwVerify _ _ => true
  | .fwVerifyDone => true
  | .fwCommitFlash _ b => messageFits b
  | .fwCommitRestart _ b => messageFits b
  | .fwFlashDone => true
  | .warmRestartStart => true
  | .warmRestartDone => true
  | .strapCheck _ _ => true
  | .coolantSample _ _ _ _ => true
  | .ptpFollowUpRx _ _ _ _ _ => true
  | .ptpDelayReqSend _ => true
  | .pfcFrameRx _ _ _ => true
  | .cadenceCounterResume => true
  | .supplyBackInRange _ => true
  | .supplyFallTo47v _ => true
  | .internalResetEnd => true
  | .siphonOffloadDone _ _ => true
  | .siphonPrefetchDone _ _ => true
  | .inputBelow40v => true

end Sys2Proof
end

