-- ==== Sys2Proof/Tests/Slice0.lean ====
section
/-! SUPPORT. Tests: ill-formed commands that the check refuses, hypotheses of the statements met by concrete states (`witness_…`), and
single steps with results worked out from the spec (`test_…`). -/

namespace Sys2Proof.Tests

set_option Elab.async false

open Machine

/-! ### States and senders -/

/-- A module in boot stage 7 with objects set. -/
def booted (rs : List (Nat × Nat)) : State := rs.foldl (fun s p => s.setReg p.1 p.2) (State.reset.setReg Obj.bootStage 7)
/-- A request over the field network, the first of its source. -/
def fieldReq : Req := ⟨.field, 0, 7, 1, 0⟩
/-- The bytes of an image, listed by offset, size and value. -/
def snapOf (fs : List (Nat × Nat × Nat)) : SMap Nat :=
  fs.foldl (fun m f => (leBytes f.2.1 f.2.2).zipIdx.foldl (fun m b => smSet zeroWord m (f.1 + b.2) b.1.toNat) m) []
/-- A state with an active table of a handle, its region in memory as it was measured. -/
def withTable (s : State) (h : Nat) (fs : List (Nat × Nat × Nat)) (lay : SchedLayout := {}) : State :=
  { s with tables := s.tables ++ [{ handle := h, active := true, snap := snapOf fs, layout := lay }],
           mem := fs.foldl (fun m f => memWrite m (s.regionBase h + f.1) f.2.1 f.2.2) s.mem }
/-- The handle of a table of one block, by kind, id and offset. -/
def handleOf (kind id off : Nat) : Nat := kind * 2 ^ 60 + kindScope kind * 2 ^ 58 + id * 2 ^ 50 + off * 65536 + 1

/-! ### 02: the cadence -/

def withPtp (s : State) (p : PtpState) : State := { s with net := { s.net with ptp := p } }

theorem witness_CadenceCommandsComplete :
    (let s := booted []; s.running = true ∧ s.power.sleeping = false ∧ s.net.ptp.halted = false ∧ s.reg Obj.bootStage ≠ 0) ∧
    (let s := withPtp (booted []) { correction := some 0 }; s.net.ptp.correction = some 0 ∧ s.allAtBoundary = true ∧ s.net.ptp.halted = false) ∧
    (let s := withPtp (booted []) { correction := some (-1) }; s.net.ptp.correction = some (-1) ∧ s.allAtBoundary = true ∧
      s.net.ptp.halted = false) ∧
    (withPtp (booted []) { halted := true }).net.ptp.halted = true ∧
    (let s := { withPtp (booted [(Obj.cadSyncState, 1)]) { lastSync := some 0 } with counter := 3000000000 }
     s.reg Obj.cadSyncState = 1 ∧ ∀ b, s.net.ptp.lastSync = some b → b + 3000000 ≤ s.beat) ∧
    (let s := { booted [(Obj.cadSyncState, 2), (Obj.cadHoldoverLimit, 0)] with counter := 1000 }
     s.reg Obj.cadSyncState = 2 ∧ s.net.ptp.lostAt + s.reg Obj.cadHoldoverLimit < s.beat) ∧
    (let s := { booted [(Obj.ptpPpsMode, 1)] with counter := 1001 }
     s.running = true ∧ s.reg Obj.ptpPpsMode = 1 ∧ 1000 < ppsError (s.counter + (0 : Fin 1000).val)) ∧
    (let s := { booted [(Obj.cadFrameCount, 1)] with counter := 4166000 }
     s.running = true ∧ s.reg Obj.bootStage ≠ 0 ∧ (s.reg Obj.cadFrameCount = 0 ∨ s.reg Obj.cadFrameLast / 1000 + 4166 ≤ s.beat)) ∧
    (let s := { booted [(Obj.cadFrameCount, 1)] with counter := 4165999 }
     s.running = true ∧ s.reg Obj.bootStage ≠ 0 ∧ s.reg Obj.cadFrameCount ≠ 0 ∧ s.beat < s.reg Obj.cadFrameLast / 1000 + 4166) ∧
    (let s := { booted [(Obj.cadFrameCount, 1)] with counter := 100001000 }
     s.reg Obj.cadFrameCount ≠ 0 ∧ s.net.ptp.frameLate = false ∧ s.reg Obj.cadFrameLast / 1000 + 100000 < s.beat) := by
  refine ⟨by decide, by decide, by decide, by decide, ⟨by decide, ?_⟩, by decide, by decide, by decide, by decide, by decide⟩
  intro b h
  cases h
  decide

/-- Port 0 UP, with server 5 chosen on it, heard on ports 0 and 1. -/
def ptpServed (p : PtpState) : State :=
  withPtp (booted [(Obj.ethPState 0, 2), (Obj.ethPState 1, 2), (Obj.ptpNet, 0), (Obj.ptpPort, 0), (Obj.ptpServer, 5)])
    { p with masters := [{ id := 5, ports := [0, 1] }] }

theorem witness_PtpCommandsComplete :
    (ptpListens (ptpServed {}) 0 = true ∧ (ptpServed {}).reg Obj.ptpDomain = (0 : BitVec 8).toNat) ∧
    (fromServer (ptpServed {}) 1 0 5 = true ∧ (ptpServed {}).reg Obj.ptpPort ≠ 1) ∧
    (fromServer (ptpServed {}) 0 0 5 = true ∧ (ptpServed {}).reg Obj.ptpPort = 0) ∧
    (ptpServed { waiting := some (65535, 9) }).net.ptp.waiting = some ((65535 : BitVec 16).toNat, 9) ∧
    (ptpChosen (ptpServed {})).isSome = true ∧
    (let s := ptpServed { delayReq := some (0, 30), last := some (10, 20) }
     s.net.ptp.delayReq = some ((0 : BitVec 16).toNat, 30) ∧ s.net.ptp.last = some (10, 20) ∧ fromServer s 0 0 5 = true) := by decide

/-! ### 12: memory tiers and translation -/

def withMem' (s : State) (m : MemState) : State := { s with mem := m }
/-- Domains with their states. -/
def domains (ds : List Nat) (v : Nat) : List (Nat × Nat) := ds.map fun d => (ofUnit Obj.pwrDomState d, v)
/-- The domains of memory, all ON. -/
def memOn : List (Nat × Nat) := domains ([0x140, 0x141, 0x142, 0x143] ++ (List.range 16).map domHbm) 2

theorem witness_MemoryTiersComplete :
    (let s := booted memOn; tierOf (0x01FFFFFFFFF8 : BitVec 48).toNat = some 1 ∧ s.present 0x010000000000 = true ∧
      poisoned s.mem (0x010000000000 / 8 * 8) 8 = false) ∧
    (let s := withMem' (booted memOn) { poison := [(0, true)] }
     tierOf (0 : BitVec 48).toNat = some 0 ∧ s.present 0 = true ∧ poisoned s.mem (0 / 8 * 8) 8 = true) ∧
    (let s := booted memOn; tierOf (0 : BitVec 48).toNat = some 0 ∧ s.present 0 = true ∧ poisoned s.mem (0 / 8 * 8) 8 = false) ∧
    (1 : Fin 2).val ∉ (booted []).mem.lost := by decide

theorem witness_RetirementCompletes :
    (let s := booted [(Obj.memRebuildPool, 1)]
     s.takesWrite fieldReq Obj.memRetire = true ∧ bitsOf (0x37F : BitVec 16).toNat 10 6 = 0 ∧ bitOf (0x37F : BitVec 16).toNat 7 = false ∧
       retireRefused s 3 127 = false) ∧
    (let s := booted []; s.takesWrite fieldReq Obj.memRetire = true ∧ bitsOf (0 : BitVec 16).toNat 10 6 = 0 ∧ retireRefused s 0 0 = true) ∧
    (let s := withMem' (booted []) { retire := some (3, 127) }
     s.mem.retire.isSome = true ∧ s.held .rebuild = false ∧ s.reg Obj.ckptState ≠ 1 ∧ s.allAtBoundary = true ∧ s.stopped = false) ∧
    (let s := { withMem' (booted []) { retire := some (3, 127) } with holds := [.rebuild] }
     s.mem.retire = some (3, 127) ∧ s.held .rebuild = true ∧ 127 < 128) := by decide

theorem witness_TranslationCommandsComplete :
    (let s := booted []; s.takesWrite fieldReq Obj.xlatInval = true ∧ bitsOf (3 : BitVec 64).toNat 2 14 = 0 ∧
      bitsOf (3 : BitVec 64).toNat 48 16 = 0 ∧ s.mem.inval = none) ∧
    (let s := withMem' (booted []) { inval := some (0, 2 ^ 48) }; s.mem.inval = some (0, 2 ^ 48) ∧ inFlight s (0, 2 ^ 48) = false) ∧
    (let s := booted ((Obj.xlatMoveSrc, 0x010000000000) :: (Obj.xlatMoveDst, 0x010000010000) :: (Obj.xlatMoveLen, 0x10000) :: memOn)
     s.takesWrite fieldReq Obj.xlatMoveGo = true ∧ moveRefused s = false) ∧
    (let s := withMem' (booted []) { mover := some (0, 65536, 65536) }
     s.mem.mover = some (0, 65536, 65536) ∧ poisoned s.mem 0 65536 = false) ∧
    (let s := withMem' (booted []) { mover := some (0, 65536, 65536), poison := [(8191, true)] }
     s.mem.mover = some (0, 65536, 65536) ∧ poisoned s.mem 0 65536 = true) ∧
    (booted []).takesWrite fieldReq Obj.xlatFqTail = true := by decide

theorem witness_PageMoveCopiesBytes :
    let s := withMem' (booted []) { mover := some (0, 65536, 65536), cells := [(0, 1), (65536, 2)] }
    s.mem.mover = some (0, 65536, 65536) ∧ Memory.wf s.mem = true ∧ s.mem.raced = [] ∧ (0 + 65536 ≤ 65536 ∨ 65536 + 65536 ≤ 0) := by decide

theorem witness_HeldFaultWrittenAtHead :
    let s := withMem' (booted [(Obj.xlatFqHead, 1), (Obj.xlatFqSize, 1)]) { held := [{ record := 7 }] }
    s.takesWrite fieldReq Obj.xlatFqTail = true ∧ s.mem.held = [{ record := 7 }] ∧
      (s.reg Obj.xlatFqHead + 2 ^ 32 - (1 : BitVec 32).toNat) % 2 ^ 32 < s.reg Obj.xlatFqSize := by decide

/-! ### 10: the Siphon -/

/-- Cluster 0 inside its first micro-batch, its spill plan of one item of 64 bytes for tier `tier`. -/
def sipping (tier : Nat) (x : StashItem) (pre : Option Nat) : State :=
  { withTable (booted [(Obj.schedClRole 0, 1), (Obj.memTblBase, 0x010000000000), (Obj.siphClT0Pool 0, 0x10000)]) (handleOf 6 0 0)
      [(0x100, 8, 0x200), (0x204, 4, 1), (0x208, 8, 4096), (0x210, 8, 4096), (0x218, 8, 4096), (0x248, 8, 64), (0x252, 1, tier)] with
    clusters := [(0, { mb := 1, plan := [{}], stash := [(0, x)], prefetch := pre })] }
/-- The bytes of an item's window. -/
def itemBytes : List Byte := (List.range 64).map fun i => BitVec.ofNat 8 (i + 1)
/-- The cluster's spill plan in force, as it was measured, and its items, as a list of at most one. -/
def sipPlan (s : State) : List ((TableRec × Nat) × List PlanItem) :=
  ((s.spillPlan 0).toList.filter fun p => !p.1.bad && decide (firstDiffer s (planReads s 0 p) = none)).map fun p => (p, planItems s p.1 p.2)

theorem witness_SiphonCommandsComplete :
    (let s := sipping 0 { data := itemBytes } none
     ∃ p ∈ sipPlan s, s.spillPlan (0 : Fin 16).val = some p.1 ∧ ∃ x ∈ (nextToPlace s (0 : Fin 16).val p.2).toList,
       ((s.cluster (0 : Fin 16)).item x.2).data.length = x.1.bytes) ∧
    (let s := sipping 1 { data := itemBytes, placed := true, tier := 1, staged := true } none
     ∃ p ∈ sipPlan s, s.spillPlan (0 : Fin 16).val = some p.1 ∧
       (p.2.zipIdx.find? (fun q => ((s.cluster (0 : Fin 16)).item q.2).staged)).isSome = true ∧ ((s.cluster (0 : Fin 16)).item 0).lost = false) ∧
    (let s := sipping 0 { placed := true } none
     ∃ p ∈ sipPlan s, s.spillPlan (0 : Fin 16).val = some p.1 ∧ nextToPlace s (0 : Fin 16).val p.2 = none ∧
       (s.cluster (0 : Fin 16)).prefetch = none) ∧
    (let s := sipping 1 { placed := true, tier := 1, stored := 64, pa := 0x020000000000 } (some 1)
     ∃ p ∈ sipPlan s, s.spillPlan (0 : Fin 16).val = some p.1 ∧ (s.cluster (0 : Fin 16)).prefetch = some 1 ∧
       (((p.2.zipIdx.take 1).reverse.find? fun q => let x := (s.cluster (0 : Fin 16)).item q.2
         x.placed && x.tier != 0 && !x.present && !x.staged && !x.lost).map (·.2)) = some 0 ∧
       storedBad s ((s.cluster (0 : Fin 16)).item 0) false = none) ∧
    (let s := sipping 1 { placed := true, tier := 1, present := true } (some 1)
     ∃ p ∈ sipPlan s, s.spillPlan (0 : Fin 16).val = some p.1 ∧ (s.cluster (0 : Fin 16)).prefetch = some 1 ∧
       (((p.2.zipIdx.take 1).reverse.find? fun q => let x := (s.cluster (0 : Fin 16)).item q.2
         x.placed && x.tier != 0 && !x.present && !x.staged && !x.lost)) = none) := by decide +kernel

theorem witness_SiphonPlacesItems :
    let s := sipping 0 { data := itemBytes } none
    ∃ p ∈ sipPlan s, s.spillPlan (0 : Fin 16).val = some p.1 ∧ ∃ x ∈ (nextToPlace s (0 : Fin 16).val p.2).toList,
      let l := (s.cluster (0 : Fin 16)).ledger
      let d := choosePlace x.1 (fun f => (storedBytes s 0 x.1 f itemBytes).length) l (planT0High s p.1) (planT1Share s p.1) (planT2Share s p.1)
      ((s.cluster (0 : Fin 16)).item x.2).data = itemBytes ∧ itemBytes.length = x.1.bytes ∧
      ¬ (d.reserve = true ∧ planT0Share s p.1 < l.1 + (storedBytes s 0 x.1 d.form itemBytes).length) := by decide +kernel

theorem witness_SiphonOffloadStoresItem :
    let s := sipping 1 { data := itemBytes, placed := true, tier := 1, staged := true, pa := 0x020000000000 } none
    ∃ p ∈ sipPlan s, s.spillPlan (0 : Fin 16).val = some p.1 ∧
      (p.2.zipIdx.find? (fun q => ((s.cluster (0 : Fin 16)).item q.2).staged)).isSome = true := by decide +kernel

/-! ### 16: power -/

/-- A power state table of die 0: 800 MHz at 600 mV, 2000 MHz at 800 mV. -/
def pstState (rs : List (Nat × Nat)) : State :=
  withTable (booted rs) (handleOf 8 0 0) [(6, 1, 2), (0x10, 2, 900), (0x40, 2, 800), (0x42, 2, 600), (0x50, 2, 2000), (0x52, 2, 800)]

theorem witness_DomainCommandsComplete :
    (let s := booted [(Obj.pwrDomSel, 0x140)]
     s.takesWrite fieldReq Obj.pwrDomReq = true ∧ s.reg Obj.pwrDomSel = 0x140 ∧ s.transition 0x140 = none ∧
       domRefusal s 0x140 (2 : BitVec 8).toNat = none ∧ s.domState 0x140 ≠ 2) ∧
    (let s := booted [(Obj.pwrDomSel, 0x1FF)]
     s.takesWrite fieldReq Obj.pwrDomReq = true ∧ s.reg Obj.pwrDomSel = 0x1FF ∧ s.transition 0x1FF = none ∧ domRefusal s 0x1FF 0 = some 1) ∧
    (let s := { booted ((Obj.pwrDomSel, 0) :: domains [0] 4) with power := { trans := [(0, (2, 0))] } }
     s.takesWrite fieldReq Obj.pwrDomReq = true ∧ s.reg Obj.pwrDomSel = 0 ∧ s.transition 0 = some (2, 0)) ∧
    (let s := { booted (domains [0x143] 3) with power := { trans := [(0x143, (0, 2))] } }
     s.transition (0x143 : BitVec 9).toNat = some (0, 2) ∧ 2 ≤ 2 ∧ smGet (fun _ => none) s.power.held 0x143 = none ∧ s.reg Obj.bootStage ≠ 5) ∧
    (let s := { booted ((Obj.schedClRole 15, 1) :: domains [255] 4) with power := { trans := [(255, (2, 0))] } }
     s.transition (255 : BitVec 9).toNat = some (2, 0) ∧ (0 : Nat) ≠ 2 ∧ (refusesOff s 255).head? = some rfRole ∧
       smGet (fun _ => none) s.power.held 255 = none) := by decide

theorem witness_OffLosesMemory :
    let s := { booted (domains [0x12F] 4) with power := { trans := [(0x12F, (2, 0))] } }
    s.transition (0x12F : BitVec 9).toNat = some (2, dsOff) ∧ (0x120 ≤ 0x12F ∧ 0x12F < 0x130) ∧
      smGet (fun _ => none) s.power.held 0x12F = none ∧ s.reg Obj.bootStage ≠ 5 := by decide

theorem witness_DvfsCommandsComplete :
    (let s := pstState [(Obj.pwrDomSel, 0x103), (ofUnit Obj.pwrDomVoltReq 0x103, 800)]
     s.takesWrite fieldReq Obj.pwrDomFreqReq = true ∧ s.reg Obj.pwrDomSel = 0x103 ∧ freqRefusal s 0x103 (2000 : BitVec 16).toNat = none) ∧
    (let s := pstState ([(Obj.pwrDomSel, 0), (ofUnit Obj.pwrDomFreq 0, 2000), (ofUnit Obj.pwrDomVoltReq 0, 800)] ++ domains [0] 2)
     s.takesWrite fieldReq Obj.pwrDomFreqReq = true ∧ freqRefusal s 0 (1600 : BitVec 16).toNat = none ∧ s.domOn 0 = true ∧
       min (1600 : BitVec 16).toNat (domCeil s 0) / 25 * 25 ≤ s.reg (ofUnit Obj.pwrDomFreq 0)) ∧
    (let s := pstState [(Obj.pwrDomSel, 0), (ofUnit Obj.pwrDomVoltReq 0, 799)]
     s.takesWrite fieldReq Obj.pwrDomFreqReq = true ∧ freqRefusal s 0 (2000 : BitVec 16).toNat = some rfOrder) ∧
    (let s := pstState [(Obj.pwrDomSel, 0), (ofUnit Obj.pwrDomFreqReq 0, 2000)]
     s.takesWrite fieldReq Obj.pwrDomVoltReq = true ∧ voltRefusal s 0 (800 : BitVec 16).toNat = none) ∧
    (let s := pstState [(Obj.pwrDomSel, 0x110)]; s.takesWrite fieldReq Obj.pwrDomVoltReq = true ∧ voltRefusal s 0x110 800 = some rfRange) ∧
    (let s := booted (domains [0x110] 2 ++ [(ofUnit Obj.pwrDomVoltReq 0x100, 800)]); isPaced 0x110 = true ∧ s.domOn 0x110 = true ∧ reqVolt s 0x110 = 800) ∧
    (let s := booted (domains [0] 2); isPaced (0 : BitVec 9).toNat = true ∧ s.domOn 0 = true ∧
      s.reg (ofUnit Obj.pwrDomVolt 0) ≤ reqVolt s 0) ∧
    (let s := pstState ([(ofUnit Obj.pwrDomFreqReq 0, 2000), (ofUnit Obj.pwrDomVoltReq 0, 800), (ofUnit Obj.pwrDomVolt 0, 700)] ++ domains [0] 2)
     s.domOn 0 = true ∧ s.reg (ofUnit Obj.pwrDomVolt 0) ≤ reqVolt s 0 ∧
       (∃ pt ∈ (s.pst (dieOfDomain 0)).toList, vreq pt (freqGoal s 0) = some 800) ∧ 800 ≤ reqVolt s 0 % 65536) ∧
    (let s := booted (domains [0] 2 ++ [(ofUnit Obj.pwrDomFreqReq 0, 800), (ofUnit Obj.pwrDomFreq 0, 1000), (ofUnit Obj.pwrDomVoltReq 0, 600), (ofUnit Obj.pwrDomVolt 0, 700)])
     isPaced 0 = true ∧ s.domOn 0 = true ∧ reqVolt s 0 < s.reg (ofUnit Obj.pwrDomVolt 0) ∧
       reqFreq s 0 < s.reg (ofUnit Obj.pwrDomFreq 0)) := by decide +kernel

def withPower' (rs : List (Nat × Nat)) (p : PowerState) : State := { booted rs with power := p }

theorem witness_SupplyCommandsComplete :
    (inRange (58001 : BitVec 17).toNat = false ∧ 46000 < (58001 : BitVec 17).toNat ∧ (58001 : BitVec 17).toNat ≤ 60000 ∧
      (booted []).reg Obj.pwrSupplyState = 0) ∧
    (inRange (48000 : BitVec 17).toNat = true ∧ (booted [(Obj.pwrSupplyState, 1)]).reg Obj.pwrSupplyState = 1) ∧
    (42000 < (42001 : BitVec 17).toNat ∧ (42001 : BitVec 17).toNat < 46000 ∧ (booted []).running = true) ∧
    (let s := withPower' [(Obj.pwrSupplyState, 2)] { throttle := true }
     47000 < (47001 : BitVec 17).toNat ∧ s.power.throttle = true ∧ s.reg Obj.pwrSupplyState = 2) ∧
    ((47000 : BitVec 17).toNat ≤ 47000 ∧ (withPower' [] { holding := true }).power.holding = true) ∧
    (let s := withPower' [(Obj.pwrSupplyState, 3)] { ceil := 1999 }; s.reg Obj.pwrSupplyState = 3 ∧ s.power.ceil < 2000) ∧
    (let s := withPower' [(Obj.pwrSupplyState, 3)] { ceil := 2000 }; s.reg Obj.pwrSupplyState = 3 ∧ 2000 ≤ s.power.ceil) ∧
    (let s := booted [(Obj.pwrCapW, 4399)]
     s.running = true ∧ s.reg Obj.pwrCapCeil ≤ 2000 ∧ s.reg Obj.pwrCapW < meanOf (((4400 : BitVec 16).toNat :: s.power.samples).take 1000) 1000 ∧
       s.power.capRun.1 ≠ 1 ∧ meanOf (((4400 : BitVec 16).toNat :: s.power.samples).take 1000) 100 ≤ 4400) ∧
    (let s := booted []; s.running = true ∧ s.reg Obj.pwrCapCeil ≤ 2000 ∧ s.power.capPeak = false ∧
      4400 < meanOf (((4401 : BitVec 16).toNat :: s.power.samples).take 1000) 100) := by decide

/-! ### 02 and 08: tables, roles and plans -/

/-- Cluster 0 in the training group at its boundary, with a schedule image of two layers. -/
def trainAt (rs : List (Nat × Nat)) (g : TrainGroup) : State :=
  { withTable (booted ([(Obj.schedClRole 0, 1), (Obj.memTblBase, 0x010000000000)] ++ rs)) (handleOf 6 0 0) [(6, 1, 1), (0x0A, 2, 2)] with
    train := { g with members := [0] } }
def shadowOf (h : Nat) : TableRec := { handle := h, snap := [(0, 9)] }

theorem witness_StepControlCompletes :
    ((booted []).takesWrite fieldReq Obj.tblActivate = true ∧ bitsOf (0 : BitVec 64).toNat 40 10 = 0) ∧
    (let s := { booted [(Obj.memTblBase, 0x010000000000)] with tables := [shadowOf (handleOf 1 0 0)], mem := { cells := [(0x010000000000, 9)] } }
     s.tables.find? (fun t => t.handle == (BitVec.ofNat 64 (handleOf 1 0 0)).toNat && tableDue s t 0) = some (shadowOf (handleOf 1 0 0)) ∧
       s.held .checkpoint = false ∧ s.groupAtBoundary 0 = true ∧
       regionSnap s.mem (s.regionBase (handleOf 1 0 0)) (hBytes (handleOf 1 0 0)) = (shadowOf (handleOf 1 0 0)).snap) ∧
    (let s := { booted [] with tables := [shadowOf (handleOf 1 0 0)] }
     s.tables.find? (fun t => t.handle == (BitVec.ofNat 64 (handleOf 1 0 0)).toNat && tableDue s t 0) = some (shadowOf (handleOf 1 0 0)) ∧
       (shadowOf (handleOf 1 0 0)).active = false ∧ s.held .checkpoint = false ∧ s.groupAtBoundary 0 = true ∧
       regionSnap s.mem (s.regionBase (handleOf 1 0 0)) (hBytes (handleOf 1 0 0)) ≠ (shadowOf (handleOf 1 0 0)).snap) ∧
    ((booted []).takesWrite fieldReq (Obj.schedClRoleReq 15) = true ∧ (2 : BitVec 8).toNat ≤ 2) ∧
    (let s := { booted [] with counter := 1000, clusters := [(15, { roleReq := some 1 })] }
     (s.cluster 15).roleReq = some 1 ∧ roleBoundary s 15 = true ∧ tablesWait s 15 (s.role 15) = false ∧ s.held .checkpoint = false ∧
       roleRefused s 15 1 = true) ∧
    (let s := { trainAt [] { phase := .boundary } with clusters := [(0, { roleReq := some 0 })] }
     (s.cluster 0).roleReq = some 0 ∧ roleBoundary s 0 = true ∧ tablesWait s 0 (s.role 0) = false ∧ s.held .checkpoint = false ∧ s.role 0 ≠ 0) ∧
    (let s := { withTable (booted (domains ([0x100, 0x110] ++ List.range 16) 2)) (handleOf 6 0 0) [(6, 1, 2)] with
        counter := 1000, clusters := [(0, { roleReq := some 2 })] }
     (s.cluster 0).roleReq = some 2 ∧ s.role 0 = 0 ∧ (s.cluster 0).reqAt < s.beat ∧ tablesWait s 0 0 = false ∧ tablesWait s 0 2 = false ∧ s.held .checkpoint = false ∧ roleRefused s 0 2 = false ∧
       s.groupAtBoundary 2 = true) ∧
    (let s := { trainAt [(Obj.stepDataPos, 0)] { phase := .boundary } with counter := 1000 }
     s.train.members = [0] ∧ planReady s = true ∧ s.reg Obj.stepDataPos % 2 ^ 64 = s.reg (Obj.schedClStep 0)) ∧
    (let s := { trainAt [(Obj.stepDataPos, 1)] { phase := .boundary } with counter := 1000 }
     s.train.members = [0] ∧ planReady s = true ∧ s.reg Obj.stepDataPos % 2 ^ 64 ≠ s.reg (Obj.schedClStep 0)) ∧
    (let s := { trainAt [] { phase := .running } with clusters := [(0, { mb := 1, plan := [{}] })] }
     (∃ r ∈ s.tables, s.table 6 0 1 = some r ∧ (s.cluster 0).layer + 1 < snapRd r 0x0A 2) ∧ s.role 0 = 1 ∧ s.train.phase = .running ∧
       (s.cluster 0).mb ≠ 0 ∧ (s.cluster 0).mb ≤ (s.cluster 0).plan.length) ∧
    (let s := { trainAt [] { phase := .running } with clusters := [(0, { plan := [{}] })] }
     s.role 0 = 1 ∧ s.train.phase = .running ∧ (s.cluster 0).mb < (s.cluster 0).plan.length) := by decide +kernel

/-! ### 18: the module -/

def withPins' (s : State) (p : Pins) : State := { s with pins := p }

theorem witness_PowerUpCommandsComplete :
    (let s := withPins' State.reset { mated := false }; (s.pins.mated && s.pins.monitor) = false) ∧
    (withPins' State.reset { pwrEn := false }).pins.pwrEn = false ∧
    (let s := withPins' State.reset { pwrGood := false }
     s.pins.mated = true ∧ s.pins.monitor = true ∧ s.pins.pwrEn = true ∧ s.pins.needRise = false ∧ s.pins.thermLatch = false ∧
       s.pins.pwrGood = false) ∧
    (withPins' State.reset { softStart := true }).pins.softStart = true ∧
    (let s := withPins' State.reset { inReset := true, internalDone := false, rstN := false }
     s.pins.pwrGood = true ∧ s.pins.inReset = true ∧ s.pins.internalDone = false ∧ s.pins.rstN = false) ∧
    (let s := withPins' (booted [(Obj.resSlot, 63)]) { inReset := true, internalDone := false }
     s.pins.pwrGood = true ∧ s.pins.inReset = true ∧ s.pins.internalDone = false ∧ s.pins.rstN = true ∧ s.reg Obj.resSlot ≤ 63) ∧
    (let s := withPins' State.reset { inReset := true, rstN := false }
     s.pins.rstN = false ∧ s.pins.inReset = true ∧ s.pins.pwrGood = true ∧ s.pins.internalDone = true) := by decide

theorem witness_ResetCommandsComplete :
    (State.reset.regsFit = true ∧ (42000 : BitVec 17).toNat ≤ 42000 ∧ 60000 < (60001 : BitVec 17).toNat ∧ powered State.reset = true) ∧
    (State.reset.pins.mated = true ∧ State.reset.pins.pwrEn = true ∧ State.reset.pins.rstN = true ∧ State.reset.pins.pwrGood = true ∧
      State.reset.pins.inReset = false ∧ State.reset.running = true) ∧
    (let s := withPins' State.reset { pwrGood := false }; s.regsFit = true ∧ s.pins.mated = true ∧ powered s = false) ∧
    (∃ x ∈ (#v[0, 0, 0, 0, 0, 110000] : Vector Int 6).toList, 110000 ≤ x) := by decide

theorem witness_ModuleCommandsComplete :
    ((booted []).running = true ∧ ∀ x ∈ (#v[105000, 0, 0, 0, 0, 109999] : Vector Int 6).toList, x < 110000) ∧
    ((booted []).takesWrite fieldReq Obj.pwrSleep = true ∧ ∀ id ∈ allDomains, (booted []).domState id = dsOff) ∧
    (let s := booted (domains [0x143] 1); s.takesWrite fieldReq Obj.pwrSleep = true ∧ ∃ id ∈ allDomains, s.domState id ≠ dsOff) ∧
    ((booted []).pins.pwrGood = true ∧ (booted []).dead = false ∧ (0 : BitVec 7).toNat = bitsOf ((booted [(Obj.pwrSspAddr, 0)]).reg Obj.pwrSspAddr) 0 7) ∧
    (withPower' [] { waking := true }).power.waking = true := by decide +kernel

/-! ### 17: boot, recovery, the dictionary and security -/

def withMgt' (rs : List (Nat × Nat)) (m : MgtState) : State := { booted rs with mgt := m }

theorem witness_BootCommandsComplete :
    (State.reset.running = true ∧ State.reset.reg Obj.bootStage = 1) ∧
    ((booted [(Obj.bootStage, 2)]).running = true ∧ (booted [(Obj.bootStage, 2)]).reg Obj.bootStage = 2) ∧
    (booted [(Obj.bootStage, 3)]).reg Obj.bootStage = 3 ∧
    (let s := booted [(Obj.bootStage, 4)]; s.reg Obj.bootStage = 4 ∧ bootReady s 0x143 = true ∧ domRefusal s 0x143 dsOn = none) ∧
    (let s := booted ((Obj.bootStage, 5) :: domains [0x140] 2); s.reg Obj.bootStage = 5 ∧ bootReady s 0x141 = true ∧ domRefusal s 0x141 dsOn = none) ∧
    (let s := booted ((Obj.cfgUnitMap, 2 ^ (8 * 0x20)) :: (Obj.bootStage, 5) :: domains [0x120] 2)
     s.reg Obj.bootStage = 5 ∧ bootWants s ≠ [] ∧ ∀ id ∈ bootWants s, s.domOn id = true) ∧
    (booted [(Obj.bootStage, 6)]).reg Obj.bootStage = 6 := by decide +kernel

theorem witness_RecoveryCommandsComplete :
    (let s := booted [(Obj.bootStage, 8)]; s.running = true ∧ s.reg Obj.bootStage = 8 ∧ s.reg Obj.bootRecovery ≠ 1 ∧
      ([7] : List Byte).length ≤ 1024 ∧ 1024 * (0 : BitVec 32).toNat + ([7] : List Byte).length ≤ recoveryBytes ∧
      (0x2000000 : BitVec 32).toNat ≤ recoveryBytes ∧ s.reg Obj.bootRecovery = 0) ∧
    (withMgt' [] { record := some [] }).mgt.record = some [] ∧
    (let s := withMgt' [] { restarting := true }; s.mgt.restarting = true ∧ bestRecord s 1 s.flash.factory = none) := by decide +kernel

theorem witness_RegisterWriteCompletes :
    (let s := booted []; let key := Obj.cadHoldoverLimit
     s.takesWrite fieldReq key = true ∧ ob (0x4000 : BitVec 16).toNat (key % 256) = key ∧
     (∃ d ∈ (objThere s key).toList, readOnly d = false ∧ key ∉ signedOnly ∧ (leBytes 4 5).length = d.size ∧ key ≠ Obj.secOwnerKey ∧
       valueBad d key (leNat (leBytes 4 5)) = none ∧ d.acc ≠ .rws ∧ ([] : List Byte).length ≠ d.size) ∧
     ((ownWrites ++ ownWrites2).find? fun p => p.1 == key).isNone = true ∧ (familyWrite key 5 s).isNone = true) ∧
    (let s := booted []; s.takesWrite fieldReq (ob 0xFFFF 0xFF) = true ∧ objThere s (ob 0xFFFF 0xFF) = none) ∧
    (let s := booted []; ∃ d ∈ (objThere s Obj.bootStage).toList, s.takesWrite fieldReq Obj.bootStage = true ∧ readOnly d = true) ∧
    (let s := booted []; ∃ d ∈ (objThere s Obj.secMinSvn).toList, s.takesWrite fieldReq Obj.secMinSvn = true ∧ readOnly d = false ∧
      Obj.secMinSvn ∈ signedOnly) := by decide +kernel

theorem witness_DictionaryCommandsComplete :
    (let s := booted []; s.takesWrite fieldReq Obj.rngSeed = true ∧ noRole s = true ∧ s.reg Obj.ckptState ≠ 1 ∧ s.reg Obj.ckptRestoreState ≠ 1 ∧
      s.takesWrite fieldReq Obj.modAlertAck = true) ∧
    (let s := booted []; fieldReq.path = .field ∧ s.takesWrite fieldReq Obj.secOwnerKey = true ∧ s.reg Obj.secOwnerKey = 0 ∧
      (leBytes 133 4).length = 133) ∧
    (let s := booted [(Obj.dbgMode, 1)]; s.takes fieldReq 1 Obj.dbgAccRead = true ∧ s.reg Obj.dbgMode = 1 ∧ accBusy s (s.reg Obj.dbgAccSel) = false) ∧
    (let s := { booted [(Obj.dbgMode, 1), (Obj.dbgAccSel, 8)] with cores := [(0, { running := [{ regions := [(0, 16)] }] })] }
     s.reg Obj.dbgMode = 1 ∧ accBusy s (s.reg Obj.dbgAccSel) = true) ∧
    (let s := booted []; s.takes fieldReq 1 Obj.dbgAccRead = true ∧ s.reg Obj.dbgMode = 0) ∧
    (let s := booted [(Obj.dbgMode, 1), (Obj.dbgSpillSel, 0x70000)]
     s.takes fieldReq 1 Obj.dbgSpillRead = true ∧ s.reg Obj.dbgMode = 1 ∧ 0x70000 ≤ bitsOf (s.reg Obj.dbgSpillSel) 0 28) ∧
    (let s := booted [(Obj.dbgMode, 1), (Obj.dbgSpillSel, 0x6FFFF)]
     s.takes fieldReq 1 Obj.dbgSpillRead = true ∧ s.reg Obj.dbgMode = 1 ∧ bitsOf (s.reg Obj.dbgSpillSel) 0 28 < 0x70000) ∧
    (let s := { booted [(Obj.logSel, 0)] with log := { ring := [{}], next := 1 } }
     s.takes fieldReq 1 Obj.logRead = true ∧ (logPair s).isSome = true) ∧
    (let s := booted [(Obj.logSel, 1)]; s.takes fieldReq 1 Obj.logRead = true ∧ logPair s = none) := by decide +kernel

/-- A signed block for an object, its signature left 0. -/
def blockOf (key vlen v : Nat) : List Byte :=
  leBytes 2 (key / 256) ++ leBytes 1 key ++ [1] ++ leBytes 2 vlen ++ List.replicate 26 0 ++ leBytes (pad8 vlen) v ++ List.replicate 132 0
/-- The premises that every signed command shares. -/
def signedMeets (s : State) (key vlen v : Nat) : Bool :=
  let b := blockOf key vlen v
  decide (blockKey b = key) && s.takes fieldReq 3 key && decide (0x20 ≤ b.length) && decide (b.length = 0x20 + pad8 (blockVlen b) + 132) &&
    match objThere s key with
    | some d => decide (blockVlen b = d.size) && decide (valueBad d key (blockFld b 0x20 d.size) = none) && decide (blockFld b 0x20 d.size = v)
    | none => false

theorem witness_SignedCommandsComplete :
    signedMeets (booted []) Obj.secOwnerKey 133 4 = true ∧
    (signedMeets (booted []) Obj.secOwnerRelease 16 0 = true ∧ 0 = (booted []).reg Obj.idSerial) ∧
    (let s := booted [(Obj.idFwSvn, 3)]; signedMeets s Obj.secMinSvn 4 3 = true ∧ s.reg Obj.secMinSvn ≤ 3 ∧ 3 ≤ s.reg Obj.idFwSvn) ∧
    signedMeets (booted []) Obj.dbgEnter 1 1 = true ∧
    (signedMeets (booted []) Obj.cfgWrite 4 65536 = true ∧ flashBusy (booted []) = false) ∧
    (let s := booted [(Obj.fwState, 2)]; signedMeets s Obj.fwCommit 1 1 = true ∧ signedMeets s Obj.fwCommit 1 2 = true ∧ flashBusy s = false ∧
      s.reg Obj.fwState = 2) := by decide +kernel

theorem witness_SecurityCommandsComplete :
    (let s := booted [(Obj.dbgMode, 1)]; s.takesWrite fieldReq Obj.dbgExit = true ∧ s.reg Obj.dbgMode ≠ 0) ∧
    (booted []).takesWrite fieldReq Obj.secAttestNonce = true ∧
    (withMgt' [] { building := some [1] }).mgt.building = some [1] ∧
    (let s := booted [(Obj.fwState, 3)]; s.takesWrite fieldReq Obj.fwVerify = true ∧ s.reg Obj.fwState ∉ [1, 4, 5]) ∧
    (let s := booted [(Obj.fwState, 1)]; s.reg Obj.fwState = 1 ∧ s.running = true) ∧
    (withMgt' [] { flashing := some ([1], true) }).mgt.flashing = some ([1], true) ∧
    (let s := booted [(Obj.fwState, 5)]; s.running = true ∧ s.reg Obj.fwState = 5 ∧ s.mgt.restarting = false ∧ s.reg Obj.ckptState = 0 ∧
      s.reg Obj.ckptRestoreState ≠ 1 ∧ s.held .rebuild = false) := by decide +kernel

/-! ### 15: resilience and checkpoints -/

theorem witness_CoreFaultCompletes :
    (let s := booted []; s.takesWrite fieldReq Obj.resFenceReq = true ∧ (255 : BitVec 16).toNat < 256 ∧ s.coreFenced (255 : BitVec 16).toNat = false ∧
      256 ≤ (256 : BitVec 16).toNat) ∧
    (let s := { trainAt [(Obj.resHangBeats, 0)] { phase := .running } with cores := [(0, { todo := [{ off := 64 }] })] }
     s.running = true ∧ headReady s 0 = true ∧ hangBeat s 0 ≤ s.beat ∧ s.coreFenced 0 = false ∧ (0 : Fin 256).val ∉ s.mgt.faults ∧
       s.mgt.restarting = false ∧ s.fencedIn (clusterOf 0) = []) ∧
    (let s := { trainAt [(Obj.resHangBeats, 0)] { phase := .running } with cores := [(0, { todo := [{ off := 64 }] })], mgt := { restarting := true } }
     s.running = true ∧ headReady s 0 = true ∧ hangBeat s 0 ≤ s.beat ∧ s.coreFenced 0 = false ∧ s.mgt.restarting = true) ∧
    (let s := booted [(Obj.resFencedMap, 2 ^ 255)]; s.takesWrite fieldReq Obj.resFenceReq = true ∧ s.coreFenced (255 : BitVec 16).toNat = true) ∧
    headReady (booted []) (0 : Fin 256) = false := by decide +kernel

/-- Core 255 fenced, its test passed. -/
def fenced (rs : List (Nat × Nat)) : State :=
  { booted ([(Obj.resFencedMap, 2 ^ 255), (Obj.resCoreSel, 255)] ++ rs) with ckpt := { passed := [255] } }

theorem witness_CoreRepairCompletes :
    (let s := fenced (domains [0x10F, 0x11F] 2)
     s.takesWrite fieldReq Obj.resCoreTest = true ∧ s.reg Obj.resCoreSel < 256 ∧ testAllowed s (s.reg Obj.resCoreSel) = true) ∧
    (let s := fenced []; s.takesWrite fieldReq Obj.resCoreTest = true ∧ testAllowed s (s.reg Obj.resCoreSel) = false) ∧
    ({ fenced [] with ckpt := { testing := some 255 } }).ckpt.testing = some 255 ∧
    (let s := fenced []; s.takesWrite fieldReq Obj.resUnfence = true ∧ unfenceRefused s (s.reg Obj.resCoreSel) = false ∧
      s.role (clusterOf (s.reg Obj.resCoreSel)) = 0) ∧
    (let s := fenced [(Obj.schedClRole 15, 1)]
     s.takesWrite fieldReq Obj.resUnfence = true ∧ unfenceRefused s (s.reg Obj.resCoreSel) = false ∧ s.role (clusterOf (s.reg Obj.resCoreSel)) ≠ 0) ∧
    (let s := booted []; s.takesWrite fieldReq Obj.resUnfence = true ∧ unfenceRefused s (s.reg Obj.resCoreSel) = true) ∧
    (let s := { fenced [] with clusters := [(15, { unfence := some 255 })] }
     (s.cluster (15 : Fin 16)).unfence = some 255 ∧ s.groupAtBoundary (s.role (15 : Fin 16)) = true) := by decide +kernel

theorem witness_FatalFaultCompletes : (booted []).running = true ∧ (3 : Fin 6).val < 4 ∧
    (booted [(Obj.ethPState 7, 2)]).reg (Obj.ethPState 7) ≠ 0 := by decide

theorem witness_CheckpointDueCompletes :
    (let s := { booted [(Obj.ckptMode, 1), (Obj.ckptFixedS, 10)] with counter := 10000000000 }
     s.running = true ∧ s.stopped = false ∧ s.mgt.restarting = false ∧ s.reg Obj.ckptMode ≠ 2 ∧ s.ckpt.lastEnd + 1000000 * intervalS s ≤ s.beat) ∧
    (let s := booted []; s.takesWrite fieldReq Obj.ckptRequest = true ∧ s.takesWrite fieldReq Obj.resFailNotice = true ∧
      s.takesWrite fieldReq Obj.resMtbfReset = true) := by decide +kernel

theorem witness_CheckpointStopCompletes :
    (let s := { booted [(Obj.ckptT1Len, 16000000), (Obj.ckptT3SlotLen, 16000000)] with ckpt := { due := true } }
     s.running = true ∧ s.stopped = false ∧ stopPending s = true ∧ s.reg Obj.ckptState ≠ 1 ∧ s.allAtBoundary = true ∧ s.mem.retire = none ∧
       sampleRegions s (validEntries s) = some [] ∧ manifestBytes s ≤ s.reg Obj.ckptT1Len ∧ manifestBytes s ≤ s.reg Obj.ckptT3SlotLen) ∧
    (let s := { booted [(Obj.ckptT1Len, 0)] with ckpt := { due := true } }
     stopPending s = true ∧ s.reg Obj.ckptState ≠ 1 ∧ s.allAtBoundary = true ∧ s.mem.retire = none ∧ s.reg Obj.ckptT1Len < manifestBytes s) ∧
    (booted [(Obj.ckptState, 1)]).reg Obj.ckptState = 1 := by decide +kernel

theorem witness_CheckpointHeaderWritten :
    (let s := booted [(Obj.ckptState, 1)]
     s.running = true ∧ s.stopped = false ∧ s.reg Obj.ckptState = 1 ∧ s.rill.held = [] ∧ Memory.wf s.mem = true ∧ s.reg Obj.ckptT3Base = 0) ∧
    (let s := booted [(Obj.ckptState, 1), (Obj.ckptT1Base, 0x010000000000), (Obj.ckptT3Base, 0x010000000200)]
     s.reg Obj.ckptT1Base + 0x200 ≤ s.reg Obj.ckptT3Base + slotOffset s (s.reg Obj.ckptGen + 1)) := by decide +kernel

/-- A drain in progress to every target. -/
def draining (rs : List (Nat × Nat)) : State :=
  [0, 1, 2].foldl (fun s t => setDrain s t 1) { booted rs with ckpt := { heads := [1, 2], bytes := 65536 } }

theorem witness_CheckpointDrainCompletes :
    (let s := draining []; s.stopped = false ∧ s.running = true ∧ s.drainOf (2 : Fin 3) = 1 ∧ targetFull s (2 : Fin 3) = true) ∧
    (let s := draining [(Obj.ckptT1Base, 0x010000000000), (Obj.ckptT3Base, 0x040000000000)]
     s.drainOf 0 = 1 ∧ s.reg Obj.ckptT1Base + s.ckpt.bytes ≤ s.reg Obj.ckptT3Base + slotOffset s s.ckpt.draining ∧ Memory.wf s.mem = true) ∧
    (let s := draining [(Obj.ckptDrainLimitS, 0)]
     s.ckpt.lastEnd + 1000000 * s.reg Obj.ckptDrainLimitS ≤ s.beat ∧ s.drainOf (2 : Fin 3) = 1) := by decide +kernel

/-! ### 15: restore -/

/-- A module at rest with a routing table active, and the head of a checkpoint image of it in the T1 area. -/
def imageHead : State :=
  let s := withTable (booted [(Obj.ckptT1Base, 0x010000000000), (Obj.ckptT1Len, 2 ^ 26), (Obj.rillRank, 0)]) (handleOf 7 0 0) []
  s.withMem ([(0, 4, ckptMagic), (4, 2, 1), (0x10, 8, 1), (0x40, 8, manifestBytes s)].foldl
    (fun m f => memWrite m (0x010000000000 + f.1) f.2.1 f.2.2) s.mem)
/-- The image at `a` with its DIGEST in place. -/
def sealed (s : State) (a : Nat) : State :=
  s.withMem (memWriteBytes s.mem (a + 0x80) (imageDigest s.mem a (manifestBytes s) (memBytes s.mem a 0x80)))

theorem imageHead_facts :
    restoreAllowed imageHead = true ∧ imageHead.takesWrite fieldReq Obj.ckptRestore = true ∧
    imageHead.routing.map (fun t => snapRd t 0x14 4) = some 0 ∧ (imageHead.table 9 0 1).isNone = true ∧ (validEntries imageHead).length = 0 ∧
    imageHead.reg Obj.rillRank = 0 ∧ imageHead.reg Obj.rngSeedSet = 0 ∧ imageHead.reg Obj.stepDataPos = 0 ∧
    imageHead.reg Obj.ckptT1Base = 0x010000000000 ∧ imageHead.reg Obj.ckptT1Len = 2 ^ 26 ∧ imageHead.mem.poison = [] ∧
    manifestBytes imageHead = memRead imageHead.mem (0x010000000000 + 0x40) 8 ∧ 0x200 ≤ manifestBytes imageHead ∧ manifestBytes imageHead ≤ 2 ^ 26 ∧
    memRead imageHead.mem (0x010000000000 + 0x0) 4 = ckptMagic ∧ memRead imageHead.mem (0x010000000000 + 0x4) 2 = 1 ∧
    memRead imageHead.mem (0x010000000000 + 0x6) 2 = 0 ∧ memRead imageHead.mem (0x010000000000 + 0x8) 4 = 0 ∧
    memRead imageHead.mem (0x010000000000 + 0xC) 2 = 0 ∧ memRead imageHead.mem (0x010000000000 + 0xE) 2 = 0 ∧
    memRead imageHead.mem (0x010000000000 + 0x10) 8 = 1 ∧ memRead imageHead.mem (0x010000000000 + 0x18) 16 = 0 := by decide +kernel

/-- Sealing an image changes memory alone, from its DIGEST on. -/
theorem sealed_digest (s : State) (a n : Nat) (bs : List Byte) (hb : bs = imageDigest s.mem a n (memBytes s.mem a 0x80)) :
    imageDigest (memWriteBytes s.mem (a + 0x80) bs) a n (memBytes (memWriteBytes s.mem (a + 0x80) bs) a 0x80) =
      memBytes (memWriteBytes s.mem (a + 0x80) bs) (a + 0x80) 64 := by
  have hl : bs.length = 64 := hb ▸ sha512_length _
  have h := memBytes_write_self bs s.mem (a + 0x80)
  rw [hl] at h
  rw [memBytes_write _ _ _ _ _ (.inl (by omega)), imageDigest, memBytes_write _ _ _ _ _ (.inr (by omega)), ← imageDigest, h, hb]
/-- A whole image passes the checks of R392. -/
theorem passes_of (t : State) (g : Image) (n : Nat) (h3 : t.routing.map (fun t => snapRd t 0x14 4) = some 0) (hl : t.layerCount = 0)
    (h5 : (validEntries t).length = 0) (h6 : t.reg Obj.rillRank = 0) (h7 : t.reg Obj.rngSeedSet = 0) (h8 : t.reg Obj.stepDataPos = 0)
    (hm : manifestBytes t = n) (h12 : g.fld t 0x40 8 = n) (h13 : 0x200 ≤ n) (h14 : n ≤ g.room)
    (h15 : g.fld t 0 4 = ckptMagic) (h16 : g.fld t 4 2 = 1) (h17 : g.fld t 6 2 = 0)
    (h18 : g.fld t 8 4 = 0) (h19 : g.fld t 0xC 2 = 0) (h20 : g.fld t 0xE 2 = 0)
    (h21 : g.fld t 0x10 8 = 1) (h22 : g.fld t 0x18 16 = 0) (hp : poisoned t.mem g.at_ n = false)
    (hd : imageDigest t.mem g.at_ n (memBytes t.mem g.at_ 0x80) = memBytes t.mem (g.at_ + 0x80) 64) : restoreReason t g = 0 := by
  have h0 : 0 < g.room := by omega
  have hok : g.digestOk t = true := by
    unfold Image.digestOk
    rw [h12]
    simp only [Bool.and_eq_true, decide_eq_true_eq, Bool.not_eq_true', beq_iff_eq]
    exact ⟨⟨⟨h13, h14⟩, hp⟩, hd⟩
  have hh : g.headed t = true := by
    unfold Image.headed
    rw [h15, h16]
    simp only [Bool.and_eq_true, decide_eq_true_eq, beq_self_eq_true]
    exact ⟨⟨h0, trivial⟩, trivial⟩
  unfold restoreReason
  rw [hok, hh, h3, hm, hl, h12, h5, h17, h18, h19, h20, h21, h22, h6, h7, h8]
  simp
theorem layers_none (u : State) (h : u.table 9 0 1 = none) : u.layerCount = 0 := by unfold State.layerCount; rw [h]
/-- What a write to memory leaves. -/
theorem withMem_keeps (s : State) (m : MemState) : (s.withMem m).table 9 0 1 = s.table 9 0 1 ∧ (s.withMem m).routing = s.routing ∧
    validEntries (s.withMem m) = validEntries s ∧ (s.withMem m).manifest = s.manifest ∧ (∀ k, (s.withMem m).reg k = s.reg k) ∧
    (s.withMem m).takesWrite fieldReq Obj.ckptRestore = s.takesWrite fieldReq Obj.ckptRestore ∧
    restoreAllowed (s.withMem m) = restoreAllowed s ∧ t1Image (s.withMem m) = t1Image s := ⟨rfl, rfl, rfl, rfl, fun _ => rfl, rfl, rfl, rfl⟩
theorem withMem_manifest (s : State) (m : MemState) (h : s.table 9 0 1 = none) : manifestBytes (s.withMem m) = manifestBytes s := by
  obtain ⟨k1, -, k3, k4, -⟩ := withMem_keeps s m
  rw [manifestBytes, manifestBytes, layers_none s h, layers_none _ (k1.trans h), k3, k4]
theorem written_passes (s : State) (m : MemState) (a room : Nat) (h3 : s.routing.map (fun t => snapRd t 0x14 4) = some 0) (h4 : s.table 9 0 1 = none)
    (h5 : (validEntries s).length = 0) (h6 : s.reg Obj.rillRank = 0) (h7 : s.reg Obj.rngSeedSet = 0) (h8 : s.reg Obj.stepDataPos = 0)
    (h12 : memRead s.mem (a + 0x40) 8 = manifestBytes s) (h13 : 0x200 ≤ manifestBytes s) (h14 : manifestBytes s ≤ room)
    (h15 : memRead s.mem (a + 0) 4 = ckptMagic) (h16 : memRead s.mem (a + 4) 2 = 1) (h17 : memRead s.mem (a + 6) 2 = 0)
    (h18 : memRead s.mem (a + 8) 4 = 0) (h19 : memRead s.mem (a + 0xC) 2 = 0) (h20 : memRead s.mem (a + 0xE) 2 = 0)
    (h21 : memRead s.mem (a + 0x10) 8 = 1) (h22 : memRead s.mem (a + 0x18) 16 = 0)
    (hw : ∀ o n, o + n ≤ 0x80 → memRead m (a + o) n = memRead s.mem (a + o) n) (hp : poisoned m a (manifestBytes s) = false)
    (hd : imageDigest m a (manifestBytes s) (memBytes m a 0x80) = memBytes m (a + 0x80) 64) : restoreReason (s.withMem m) ⟨a, room⟩ = 0 := by
  obtain ⟨k1, k2, k3, -, k5, -⟩ := withMem_keeps s m
  exact passes_of (s.withMem m) ⟨a, room⟩ (manifestBytes s) (by rw [k2, h3]) (layers_none _ (k1.trans h4)) (by rw [k3, h5])
    ((k5 _).trans h6) ((k5 _).trans h7) ((k5 _).trans h8) (withMem_manifest s m h4) ((hw 0x40 8 (by omega)).trans h12) h13 h14
    ((hw 0 4 (by omega)).trans h15) ((hw 4 2 (by omega)).trans h16) ((hw 6 2 (by omega)).trans h17) ((hw 8 4 (by omega)).trans h18)
    ((hw 0xC 2 (by omega)).trans h19) ((hw 0xE 2 (by omega)).trans h20) ((hw 0x10 8 (by omega)).trans h21)
    ((hw 0x18 16 (by omega)).trans h22) hp hd
theorem sealed_passes (s : State) (a room : Nat) (h3 : s.routing.map (fun t => snapRd t 0x14 4) = some 0) (h4 : s.table 9 0 1 = none)
    (h5 : (validEntries s).length = 0) (h6 : s.reg Obj.rillRank = 0) (h7 : s.reg Obj.rngSeedSet = 0) (h8 : s.reg Obj.stepDataPos = 0)
    (h11 : s.mem.poison = []) (h12 : memRead s.mem (a + 0x40) 8 = manifestBytes s) (h13 : 0x200 ≤ manifestBytes s) (h14 : manifestBytes s ≤ room)
    (h15 : memRead s.mem (a + 0) 4 = ckptMagic) (h16 : memRead s.mem (a + 4) 2 = 1) (h17 : memRead s.mem (a + 6) 2 = 0)
    (h18 : memRead s.mem (a + 8) 4 = 0) (h19 : memRead s.mem (a + 0xC) 2 = 0) (h20 : memRead s.mem (a + 0xE) 2 = 0)
    (h21 : memRead s.mem (a + 0x10) 8 = 1) (h22 : memRead s.mem (a + 0x18) 16 = 0) : restoreReason (sealed s a) ⟨a, room⟩ = 0 := by
  rw [sealed]
  refine written_passes s _ a room h3 h4 h5 h6 h7 h8 h12 h13 h14 h15 h16 h17 h18 h19 h20 h21 h22
    (fun o n h => memRead_write _ _ _ _ _ (.inl (by omega))) ?_ (sealed_digest s a (manifestBytes s) _ rfl)
  rw [poisoned_write, poisoned, h11]; rfl

theorem sealed_meets (s : State) (a room : Nat) (h1 : restoreAllowed s = true) (h2 : s.takesWrite fieldReq Obj.ckptRestore = true)
    (h9 : s.reg Obj.ckptT1Base = a) (h10 : s.reg Obj.ckptT1Len = room)
    (h : restoreReason (sealed s a) ⟨a, room⟩ = 0) :
    (sealed s a).takesWrite fieldReq Obj.ckptRestore = true ∧ restoreAllowed (sealed s a) = true ∧
      restoreReason (sealed s a) (t1Image (sealed s a)) = 0 := by
  have hm : ∀ m, (s.withMem m).takesWrite fieldReq Obj.ckptRestore = s.takesWrite fieldReq Obj.ckptRestore ∧
      restoreAllowed (s.withMem m) = restoreAllowed s ∧ t1Image (s.withMem m) = t1Image s := fun _ => ⟨rfl, rfl, rfl⟩
  have e : t1Image s = ⟨a, room⟩ := by rw [t1Image, h9, h10]
  exact ⟨(hm _).1.trans h2, (hm _).2.1.trans h1, by rw [sealed, (hm _).2.2, e, ← sealed]; exact h⟩

theorem witness_RestoreStarts :
    (sealed imageHead 0x010000000000).takesWrite fieldReq Obj.ckptRestore = true ∧ restoreAllowed (sealed imageHead 0x010000000000) = true ∧
      restoreReason (sealed imageHead 0x010000000000) (t1Image (sealed imageHead 0x010000000000)) = 0 :=
  have ⟨h1, h2, h3, h4, h5, h6, h7, h8, h9, h10, h11, h12, h13, h14, h15, h16, h17, h18, h19, h20, h21, h22⟩ := imageHead_facts
  sealed_meets _ _ _ h1 h2 h9 h10
    (sealed_passes _ _ _ h3 (Option.isNone_iff_eq_none.1 h4) h5 h6 h7 h8 h11 h12.symm h13 h14 h15 h16 h17 h18 h19 h20 h21 h22)

theorem witness_RestoreAndServeComplete :
    (let s := booted []; s.takesWrite fieldReq Obj.ckptRestore = true ∧ restoreAllowed s = true ∧ restoreReason s (t1Image s) ≠ 0 ∧
      restoreReason s (t3Image s) ≠ 0) ∧
    (let s := booted [(Obj.schedClRole 3, 1)]; s.takesWrite fieldReq Obj.ckptRestore = true ∧ restoreAllowed s = false) ∧
    (let s := { booted [] with ckpt := { restore := some 0x010000000000 } }
     s.running = true ∧ s.stopped = false ∧ s.ckpt.restore = some 0x010000000000 ∧ validEntries s = []) ∧
    (let s := booted [(Obj.ckptPinBase, 0x040000000000), (Obj.ckptT3SlotLen, 2 ^ 24), (ofUnit Obj.roceQp 0, 1 * 256 ^ 0x28), (Obj.ckptServeQp, 0)]
     let s := s.withMem (memWrite (memWrite s.mem 0x040000000040 4 ckptMagic) 0x040000000044 2 1)
     s.takesWrite fieldReq Obj.ckptServe = true ∧ bestSlot s (s.reg Obj.ckptPinBase + 64) = some 0 ∧ s.ckpt.serving = none ∧ s.stopped = false ∧
       s.qpState (s.reg Obj.ckptServeQp) = 1) ∧
    (let s := booted []; s.takesWrite fieldReq Obj.ckptServe = true ∧ bestSlot s (s.reg Obj.ckptPinBase + 64) = none) ∧
    (let s := { booted [] with ckpt := { serving := some 0, heads := [3] } }
     s.ckpt.serving.isSome = true ∧ s.ckpt.heads.contains 3 = true ∧ outstanding s .serve = false) := by decide +kernel

/-! ### 14: mailboxes -/

/-- Queue pair 0 valid, of network B, running, with port 4 UP and the mailbox page of host endpoint 0 on it. -/
def hosted (rs : List (Nat × Nat)) : State :=
  booted ([(Obj.ethPState 4, 2), (ofUnit Obj.roceQp 0, 3 * 256 ^ 4 + 256 ^ 0x28 + 4 * 256 ^ 0x29), (Obj.mbxEpQp 0, 0), (Obj.mbxRkey, 5)] ++ rs)
/-- A packet for queue pair 0 of network B. -/
def hdrB : RoceHdr := ⟨4, 0x100, 0, false⟩
/-- A message of a type, with a doorbell bit. -/
def msgOf (type bell : Nat) : List Byte := leBytes 64 (type + bell * 256)
def withChan (s : State) (k : Nat) (c : Chan) : State := { s with net := { s.net with chans := [(k, c)] } }

theorem witness_MailboxCommandsComplete :
    (let s := hosted []
     rxQp s hdrB = some 0 ∧ seqPos s 0 hdrB = .due ∧ (s.qp 0).wr = none ∧ s.reg Obj.mbxRkey ≠ 0 ∧ (5 : BitVec 32).toNat = s.reg Obj.mbxRkey ∧
     boundTo s (0 : Fin 16) 0 = true ∧ (msgOf 1 3).length = 64 ∧ typeOk (17 : Fin 18) (leNat ((msgOf 1 3).take 1)) = true ∧
     (s.chan (chanKey (epHost (0 : Fin 16)) (portReceiver (17 : Fin 18)) false)).full = false) ∧
    (let s := withChan (hosted []) (chanKey (epHost 0) (portReceiver (2 : Fin 18)) false) { w := 8, msgs := List.replicate 8 (msgOf 1 3) }
     rxQp s hdrB = some 0 ∧ seqPos s 0 hdrB = .due ∧ (s.qp 0).wr = none ∧ boundTo s (0 : Fin 16) 0 = true ∧
     typeOk (2 : Fin 18) (leNat ((msgOf 1 3).take 1)) = true ∧
     (s.chan (chanKey (epHost (0 : Fin 16)) (portReceiver (2 : Fin 18)) false)).full = true) ∧
    (let s := booted []; s.takesWrite fieldReq Obj.mbxMcDbMask = true ∧ s.takesWrite fieldReq (Obj.mbxSqDbMask (15 : Fin 16)) = true) ∧
    (let s := booted [(Obj.mbxSqDbPending 15, 1)]
     s.running = true ∧ s.notified (epSeq (15 : Fin 16)) = true ∧ s.reg Obj.ckptState ≠ 1) ∧
    (let s := booted [(Obj.mbxMcDbPending, 1)]; s.running = true ∧ s.notified epMc = true ∧ s.mgt.restarting = false) ∧
    (let s := booted []
     s.running = true ∧ s.mgt.restarting = false ∧ (15 : Fin 32).val < 16 ∧ (s.chan (chanKey epMc (epSeq (15 : Fin 32)) false)).full = false) ∧
    (let s := withChan (booted []) (chanKey epMc (epSeq 15) false) { w := 8, msgs := List.replicate 8 (msgOf 1 3) }
     s.running = true ∧ (s.chan (chanKey epMc (epSeq (15 : Fin 32)) false)).full = true) ∧
    (let s := hosted []
     s.running = true ∧ 16 ≤ (16 : Fin 32).val ∧ s.hostExists ((16 : Fin 32).val - 16) = true ∧ s.reg Obj.mbxRkey ≠ 0 ∧
     s.qpState (s.reg (Obj.mbxEpQp ((16 : Fin 32).val - 16))) = 1 ∧ s.hostFull ((16 : Fin 32).val - 16) epMc false = false) := by decide +kernel

/-- A LENGTHS message for step 0: `count` micro-batches from the first. -/
def lengthsMsg (count : Nat) : List Byte := leBytes 64 (1 + 5 * 256 + count * 256 ^ 0x12 + 100 * 256 ^ 0x14)
/-- Cluster 0 at a boundary, with a message in its channel from host endpoint 0. -/
def lettered (m : List Byte) : State :=
  withChan { withTable (booted [(Obj.schedClRole 0, 1), (Obj.memTblBase, 0x010000000000), (Obj.mbxSqDbPending 0, 2 ^ 5)]) (handleOf 6 0 0) [(8, 2, 4)] with
      train := { members := [0], phase := .boundary } }
    (chanKey (epHost 0) (epSeq 0) false) { w := 1, msgs := [m] }

theorem witness_LengthsMessageTaken : ∀ count ∈ [1, 0],
    let s := lettered (lengthsMsg count)
    s.running = true ∧ s.reg Obj.ckptState ≠ 1 ∧ s.notified (epSeq (0 : Fin 16)) = true ∧
    bitOf (s.dbMask (epSeq (0 : Fin 16))) (msgDbell (lengthsMsg count)) = false ∧
    (s.chan (chanKey (epHost (0 : Fin 16)) (epSeq (0 : Fin 16)) false)).msgs = [lengthsMsg count] ∧ msgType (lengthsMsg count) = 1 ∧
    (∀ c ∈ seqChans, c.1 ≠ epHost (0 : Fin 16) → (s.chan (chanKey c.1 (epSeq (0 : Fin 16)) c.2)).msgs = []) ∧
    lengthsOk s (0 : Fin 16) (leNat (lengthsMsg count)) = (count == 1) := by decide +kernel

/-! ### 13: Ethernet and RoCE -/

def withEth' (s : State) (p : Nat) (e : EthPort) : State := { s with net := { s.net with ports := [(p, e)] } }

theorem witness_EthernetPortStatesComplete :
    (let s := booted [(Obj.ethPState 7, 1), (Obj.ethNLacp 1, 0)]
     s.takesWrite fieldReq (Obj.ethPEnable (7 : Fin 8)) = true ∧ s.reg (Obj.ethPState (7 : Fin 8)) = 1 ∧ s.lacp (7 : Fin 8) = false ∧ (s.eth (7 : Fin 8)).link = false) ∧
    (let s := booted [(Obj.ethPState 7, 1), (Obj.ethNLacp 1, 1)]
     s.reg (Obj.ethPState (7 : Fin 8)) = 1 ∧ s.lacp (7 : Fin 8) = true ∧ (s.eth (7 : Fin 8)).sync = false) ∧
    (let s := booted [(Obj.ethPState 7, 2), (Obj.ethNLacp 1, 1)]; s.portUp (7 : Fin 8) = true ∧ s.lacp (7 : Fin 8) = true) ∧
    (booted [(Obj.ethPState 7, 3)]).reg (Obj.ethPState (7 : Fin 8)) = 3 ∧
    (let s := withEth' (booted [(Obj.ethPState 7, 1), (Obj.ethNLacp 1, 1)]) 7 { link := true }
     s.lacp (7 : Fin 8) = true ∧ s.reg (Obj.ethPState (7 : Fin 8)) = 1 ∧ (s.eth (7 : Fin 8)).link = true) := by decide

theorem witness_EthernetFramesComplete :
    let s := booted [(Obj.ethPState 7, 2), (Obj.ethNIpv4 1, 0x0A000001), (Obj.ethNIpv6 1, 5), (Obj.ethNRocePrio 1, 3)]
    s.portUp (7 : Fin 8) = true ∧ (0x0A000001 : BitVec 32) ≠ 0 ∧ s.reg (Obj.ethNIpv4 ((7 : Fin 8).val / 4)) = (0x0A000001 : BitVec 32).toNat ∧
    s.reg (Obj.ethNIpv4 ((7 : Fin 8).val / 4)) ≠ (0x0A000002 : BitVec 32).toNat ∧ (5 : BitVec 128) ≠ 0 ∧
    s.reg (Obj.ethNIpv6 ((7 : Fin 8).val / 4)) = (5 : BitVec 128).toNat ∧ s.reg (Obj.ethNIpv6 ((7 : Fin 8).val / 4)) ≠ (6 : BitVec 128).toNat ∧
    s.reg (Obj.ethNIpv4 ((7 : Fin 8).val / 4)) = (0x0A000001 : BitVec 128).toNat ∧
    bitOf (8 : BitVec 8).toNat (s.reg (Obj.ethNRocePrio ((7 : Fin 8).val / 4))) = true ∧
    bitOf (0xF7 : BitVec 8).toNat (s.reg (Obj.ethNRocePrio ((7 : Fin 8).val / 4))) = false := by decide

/-- Queue pair 0 of network A running over port 0, one page of 1 GiB of T1 mapped at 0 with its entry marked, and a region of 64 KiB there with
key 7. -/
def serving (x : Qp) : State :=
  let s := booted ([(Obj.ethPState 0, 2), (ofUnit Obj.roceQp 0, 256 ^ 4 + 256 ^ 0x28), (Obj.xlatRoot, 0x10000),
    (ofUnit Obj.roceRgn 0, 65536 * 256 ^ 8 + 7 * 256 ^ 16 + 0x1F * 256 ^ 20)] ++ memOn)
  { s.withMem (memWrite s.mem 0x10000 8 (31 * 2 ^ 59 + 0x010000000000)) with net := { s.net with qps := [(0, x)] } }
/-- A packet for queue pair 0 of network A. -/
def hdrA (psn : Nat) : RoceHdr := ⟨0, 0x100, BitVec.ofNat 24 psn, false⟩
/-- What a packet leaves before it is looked at. -/
def heard (s : State) : State := noteEcn (rxFrame s 0) 0 (hdrA 0)

theorem witness_RoceRequestsComplete :
    (let s := serving {}
     rxQp s (hdrA 0) = some 0 ∧ seqPos s 0 (hdrA 0) = .due ∧ inMailbox s 64 7 = false ∧ (s.qp 0).wr = none ∧
     (heard s).qpNet 0 = 0 ∧ accessOk (heard s) 0 64 4 7 true = true ∧ accessOk (heard s) 0 64 8192 7 true = true ∧
     vaOk (heard s) 64 4096 true = true ∧ epochLocked (heard s) 64 4096 = false ∧
     accessOk (heard s) 0 65535 4 7 true = false ∧ inMailbox s 65535 7 = false ∧ seqPos s 0 (hdrA 1) = .gap ∧
     (let w := rxAdvance (heard s) 0 (packetCount 64)
      accessOk w (w.qpNet 0) 64 64 7 false = true ∧ (vaLoad w 64 64).2 = false) ∧ s.qpPort 0 < 8 ∧ (s.eth (s.qpPort 0)).pause ≤ s.beat) ∧
    (let s := serving { wr := some (64, 4) }
     rxQp s (hdrA 0) = some 0 ∧ seqPos s 0 (hdrA 0) = .due ∧ (s.qp 0).wr = some (64, 4) ∧ vaOk (heard s) 64 4 true = true ∧
     epochLocked (heard s) 64 4 = false) ∧
    (rxQp (serving {}) (hdrA 0xFFFFFF) = some 0 ∧ seqPos (serving {}) 0 (hdrA 0xFFFFFF) = .old) := by decide +kernel

theorem witness_RemoteWriteStoresBytes :
    let s := serving {}
    rxQp s (hdrA 0) = some 0 ∧ seqPos s 0 (hdrA 0) = .due ∧ inMailbox s 65532 7 = false ∧ (s.qp 0).wr = none ∧
    accessOk (heard s) ((heard s).qpNet 0) 65532 4 7 true = true ∧ 65532 % 65536 + 4 ≤ 65536 ∧
    (∃ e ∈ [TlbEntry.mk 0 (2 ^ 30) 0x010000000000 true true (31 * 2 ^ 59 + 0x010000000000)],
      walk (heard s) 65532 true false none = .hit e 0x10000 ∧ markPte (heard s) e 0x10000 true = heard s) := by decide +kernel

/-- After boot no queue pair is valid, so a record with VALID set is accepted. -/
theorem booted_qp (i : Nat) : (booted []).qpValid i = false := by
  have h : (booted []).regs = [(Obj.bootStage, 7)] := by decide +kernel
  have ho : objPart (ofUnit Obj.roceQp i) = Obj.roceQp := by
    rw [objPart, ofUnit, Nat.add_mul_mod_self_right]; decide
  have hk : Obj.bootStage ≠ ofUnit Obj.roceQp i := fun h => absurd (congrArg objPart h) (by rw [ho]; decide)
  have hr : (booted []).qpRec i = qpDefault := by
    rw [State.qpRec, State.reg, h, smGet, smGet, regDefault, ho]; simp [hk]
  rw [State.qpValid, State.qpFld, hr]; decide
theorem booted_qpRefusal : qpRefusal (booted []) 0 (256 ^ 4) = none := by
  have h : (booted []).qpsOf 0 = [] := by simp [State.qpsOf, booted_qp]
  have hq : (booted []).qpState 0 = 0 := by decide +kernel
  rw [qpRefusal, show qpReserved (256 ^ 4) = false by decide +kernel, show bitsOf (fld (256 ^ 4) 4 4) 1 1 = 0 by decide +kernel, h, hq]
  simp

theorem witness_QueuePairsComplete :
    (let s := serving { out := [{ use := .mailbox 3 }] }
     s.running = true ∧ s.qpState (0 : Fin 2048) = 1 ∧ ackedCount s 0 0 = 1 ∧
     (∀ r ∈ (s.qp 0).out.take (ackedCount s 0 0), r.use = .mailbox 3) ∧ (0x61 : BitVec 8).toNat ≠ 0x60 ∧ (s.qp 0).out ≠ [] ∧
     (s.qp 0).retries < s.reg Obj.roceRetry) ∧
    (let s := serving { out := [{}], retries := 7 }
     s.running = true ∧ s.qpState (0 : Fin 2048) = 1 ∧ (s.qp 0).out ≠ [] ∧ s.reg Obj.roceRetry ≤ (s.qp 0).retries) ∧
    (let s := (serving {}).setReg Obj.roceEcn 1; s.running = true ∧ s.qpState (0 : Fin 2048) = 1 ∧ s.reg Obj.roceEcn = 1) ∧
    (let s := booted []
     s.takesWrite fieldReq Obj.roceQp = true ∧ bitOf (fld (256 ^ 4) 4 4) 0 = true ∧
     s.qpState (s.reg Obj.roceQpSel) ≠ 1 ∧ qpRefusal s (s.reg Obj.roceQpSel) 0 = none ∧ bitOf (fld 0 4 4) 0 = false ∧
     qpRefusal s (s.reg Obj.roceQpSel) (256 ^ 3) = some stReserved) ∧
    (let v := 65536 * 256 ^ 8 + 7 * 256 ^ 16 + 0x1F * 256 ^ 20
     let s := booted []
     s.takesWrite fieldReq Obj.roceRgn = true ∧ bitsOf (rgnFlags v) 5 27 = 0 ∧ fld v 0x18 8 = 0 ∧
     (rgnValid v && rgnBad s (s.reg Obj.roceRgnSel) v) = false ∧ rgnValid (v + 1) = true ∧ rgnBad s (s.reg Obj.roceRgnSel) (v + 1) = true ∧
     bitsOf (rgnFlags (v + 1)) 5 27 = 0 ∧ fld (v + 1) 0x18 8 = 0) := by decide +kernel

/-! ### 11: streams and Sluices -/

/-- A descriptor: 3 packets of 2 words of 512 bits, from address 0, on Sluice 3. -/
def descOf (store link tc : Nat) : Nat :=
  2 * 256 ^ 0x10 + 3 * 256 ^ 0x14 + 256 ^ 0x18 + 256 ^ 0x1C + 256 ^ 0x20 + 128 * 256 ^ 0x28 + 0x40 * 256 ^ 0x48 + 3 * 256 ^ 0x49 +
    tc * 256 ^ 0x4A + (store + 4) * 256 ^ 0x4D + link * 256 ^ 0x4E
/-- Core 0 of a training cluster in its step: descriptors in its table, an entry of class `op` with parameter block `blk` next in its list. -/
def atEntry (op out blk : Nat) (ds : List Nat) (c : Core) (lay : SchedLayout := {}) (rs : List (Nat × Nat) := []) : State :=
  let s := withTable (booted ([(Obj.schedClRole 0, 1), (Obj.memTblBase, 0x010000000000)] ++ rs)) (handleOf 6 0 0)
    [(0x100, 16, op * 2 ^ 120 + out * 2 ^ 32 + 5), (0x140, 128, blk)] lay
  let s := withTable s (handleOf 5 0 1) ((6, 2, ds.length) :: ds.zipIdx.map fun p => (0x80 + 128 * p.2, 128, p.1))
  { s with train := { members := [0], phase := .running }, cores := [(0, { c with todo := [{ off := 0x100 }] })] }

/-- `State.starts` as a test. -/
def startsB (s : State) (core op : Nat) (c : Cur) : Bool :=
  decide (currentEntry s core op = some c) && c.fresh && !c.img.bad && !s.groupHalted core && decide (firstDiffer s (ownReads op c) = none) &&
    startsNow s core c
theorem starts_iff (s : State) (core op : Nat) (c : Cur) : s.starts core op c ↔ startsB s core op c = true := by
  simp [State.starts, startsB, and_assoc]

theorem witness_ArmingCommands_waits :
    (let s := atEntry 7 0 256 [descOf 0 1 2, descOf 0 0xFF 2] { ctxs := [(1, { st := .running })] }
     ∃ c ∈ (currentEntry s (0 : Fin 256) 7).toList, s.starts (0 : Fin 256) 7 c ∧ fld c.blk 1 1 = 1 ∧
        anyBad (armReads s (0 : Fin 256) 0) = false ∧ firstDiffer s (armReads s (0 : Fin 256) 0) = none ∧
        (s.linkOf (0 : Fin 256) 0).any (fun j => !ctxFree s (0 : Fin 256) j) = true) ∧
    (let s := atEntry 7 0 768 [] {}
     ∃ c ∈ (currentEntry s (0 : Fin 256) 7).toList, s.starts (0 : Fin 256) 7 c ∧ fld c.blk 1 1 = 3 ∧ (s.ctxOn (0 : Fin 256) (s.sluOf 0 0)).isNone = true ∧
        anyBad (armReads s (0 : Fin 256) 0) = false ∧ firstDiffer s (armReads s (0 : Fin 256) 0) = none) := by
  simp only [starts_iff]; decide +kernel
theorem witness_ArmingCommandsComplete :
    (∀ ds ∈ [[descOf 0 0xFF 2], [descOf 0 1 2, descOf 0 0xFF 2]], ∀ action ∈ [1, 2],
      let s := atEntry 7 0 (action * 256) ds {}
      ∃ c ∈ (currentEntry s (0 : Fin 256) 7).toList, s.starts (0 : Fin 256) 7 c ∧ fld c.blk 0 1 = 0 ∧ fld c.blk 1 1 = action ∧
        ((s.core (0 : Fin 256)).ctx 0).armed = false ∧ ctxFree s (0 : Fin 256) 0 = true ∧
        anyBad (armReads s (0 : Fin 256) 0) = false ∧ firstDiffer s (armReads s (0 : Fin 256) 0) = none ∧
        s.linkOf (0 : Fin 256) 0 = (if ds.length = 1 then none else some 1) ∧ ctxFree s (0 : Fin 256) 1 = true) ∧
    (∀ st ∈ [SState.done, .running], let s := atEntry 7 0 512 [descOf 0 0xFF 2] { ctxs := [(0, { st := st })] }
      ∃ c ∈ (currentEntry s (0 : Fin 256) 7).toList, s.starts (0 : Fin 256) 7 c ∧ fld c.blk 1 1 = 2 ∧ ((s.core (0 : Fin 256)).ctx 0).armed = true ∧
        ((s.core (0 : Fin 256)).ctx 0).st = st ∧ s.linkOf (0 : Fin 256) 0 = none) ∧
    (∀ p ∈ [(SState.disarmed, 2), (.running, 1), (.running, 2)], let s := atEntry 7 0 768 [descOf 1 0xFF p.2] { ctxs := [(0, { st := p.1 })] }
      ∃ c ∈ (currentEntry s (0 : Fin 256) 7).toList, s.starts (0 : Fin 256) 7 c ∧ fld c.blk 1 1 = 3 ∧
        ((s.core (0 : Fin 256)).ctx 0).armed = (p.1 == .running) ∧
        (p.1 = .running → rolloutClass s (0 : Fin 256) (s.sluOf 0 0) = (p.2 == 1) ∧ atBoundary s (0 : Fin 256) (s.sluOf 0 0) = true ∧
          ((s.core (0 : Fin 256)).sluice (s.sluOf 0 0)).packets = [] ∧ (s.ctxOn (0 : Fin 256) (s.sluOf 0 0)).map (·.1) = some 0)) := by
  simp only [starts_iff]; decide +kernel

/-- Core 0 with one stream context over a page of 1 GiB of T1, credits of the Weir in hand. -/
def streaming (desc : Nat) (x : Ctx) (q : Sluice) (credits : Nat) : State :=
  let s := atEntry 0 0 0 [desc] { ctxs := [(0, x)], sluices := [(3, q)], tlb := [⟨0, 2 ^ 30, 0x010000000000, true, true, 0⟩] } {}
    ([(Obj.siphWindowBase, 2 ^ 46), (Obj.strmSel, 0)] ++ memOn)
  { s with weir := { budget := [(5, credits), (6, credits)] } }
/-- A load's request of one word, and a store's. -/
def loadFlight : Flight := { load := [.mem 0 512] }
def storeFlight : Flight := { puts := [(8 * 0x010000000000, 512, 7)] }
/-- Context 0 of core 0 stopped for a walk of address 0, and the page table that maps it or not. -/
def walking (x : Ctx) (mapped : Bool) : State :=
  let s := (streaming (descOf 0 0xFF 0) x {} 10).setReg Obj.xlatRoot 0x10000
  let s := s.withMem { s.mem with walks := [(0, 0)] }
  if mapped then s.withMem (memWrite s.mem 0x10000 8 (31 * 2 ^ 59 + 0x010000000000)) else s
/-- The descriptor of the context. -/
def ctx0 (s : State) : List Desc := (s.desc (0 : Fin 256) (0 : Fin 48)).toList

theorem witness_StreamRequestsComplete_1 :
    (let s := streaming (descOf 0 0xFF 0) { st := .running } {} 10
     ∃ d ∈ ctx0 s, s.desc (0 : Fin 256) (0 : Fin 48) = some d ∧ ((s.core (0 : Fin 256)).ctx (0 : Fin 48)).st = .running ∧
       ((s.core (0 : Fin 256)).ctx (0 : Fin 48)).started = false ∧ ((s.core (0 : Fin 256)).sluice d.sluice).packets.head? ≠ some []) := by decide +kernel
theorem witness_StreamRequestsComplete_2 :
    (∀ credits ∈ [10, 0], let s := streaming (descOf 0 0xFF 0) { st := .running, started := true } { size := 128 } credits
     ∃ d ∈ ctx0 s, let x := (s.core (0 : Fin 256)).ctx (0 : Fin 48)
       d.store = false ∧ canIssue s x = true ∧ x.st = .running ∧ d.pktWords ≤ ((s.core (0 : Fin 256)).sluice d.sluice).room ∧
       (!anyBad (descReads s (0 : Fin 256) (0 : Fin 48)) && (firstDiffer s (descReads s (0 : Fin 256) (0 : Fin 48))).isNone) = true ∧
       ∃ f ∈ [({ load := [.mem (8 * 0x010000000000) 512], vas := [0] } : Flight)], nextPlan s (0 : Fin 256) x d = some (.go f, 0) ∧ packedBad s (clusterOf 0) f = none ∧
         creditLeft s.weir (flightDraws s (0 : Fin 256) d.tc f) = (credits == 10)) := by decide +kernel
theorem witness_StreamRequestsComplete_3 :
    (let s := streaming (descOf 0 0xFF 0) { st := .running, started := true } {} 10
     ∃ d ∈ ctx0 s, let x := (s.core (0 : Fin 256)).ctx (0 : Fin 48); let q := (s.core (0 : Fin 256)).sluice d.sluice
       d.store = false ∧ canIssue s x = true ∧ q.rsv = 0 ∧ q.prog = [] ∧ x.packets < d.numPkts ∧ q.room < d.pktWords) := by decide +kernel
theorem witness_StreamRequestsComplete_4 :
    (∀ prog ∈ [[], [({} : SWord)]], ∀ again ∈ [false, true],
     let s := streaming (descOf 0 0xFF 0) { st := .running, started := true, flight := [loadFlight], refetched := again } { prog := prog } 10
     ∃ d ∈ ctx0 s, let x := (s.core (0 : Fin 256)).ctx (0 : Fin 48)
       d.store = false ∧ x.flight = [loadFlight] ∧ loadFlight.item = none ∧ x.refetched = again ∧ ueItem s (clusterOf 0) loadFlight = none ∧ (flightStat s (clusterOf 0) .ok loadFlight).1 = false ∧
       (flightStat s (clusterOf 0) .ue loadFlight).1 = true ∧ d.pktWords = 2 ∧ x.packets + 1 < d.numPkts ∧ x.ending = false ∧
       ((s.core (0 : Fin 256)).sluice d.sluice).prog = prog) := by decide +kernel
theorem witness_StreamRequestsComplete_lost :
    let f : Flight := { load := [.stash 0 0 512] }
    let s := { streaming (descOf 0 0xFF 0) { st := .running, started := true, flight := [f] } {} 10 with
      clusters := [(0, { mb := 1, stash := [(0, { placed := true, lost := true })] })] }
    ∃ d ∈ ctx0 s, d.store = false ∧ ((s.core (0 : Fin 256)).ctx (0 : Fin 48)).flight = [f] ∧ ueItem s (clusterOf 0) f = some 0 ∧
      (flightStat s (clusterOf 0) .ok f).1 = true := by decide +kernel
theorem witness_StreamRequestsComplete_5 :
    (let s := streaming (descOf 1 0xFF 0) { st := .running, started := true, flight := [storeFlight] } { packets := [[{}, {}]] } 10
     ∃ d ∈ ctx0 s, let x := (s.core (0 : Fin 256)).ctx (0 : Fin 48); let q := (s.core (0 : Fin 256)).sluice d.sluice
       d.store = true ∧ x.flight = [storeFlight] ∧ storeFlight.item = none ∧ releaseDone q.packets (q.taken + 1) = (q.packets, q.taken + 1)) := by decide +kernel
theorem witness_StreamRequestsComplete_6 :
    (∀ mapped ∈ [true, false], let s := walking { st := .running, started := true, walk := some (0, 0) } mapped
     ∃ d ∈ ctx0 s, ((s.core (0 : Fin 256)).ctx (0 : Fin 48)).walk = some (0, 0) ∧ walkServed s (0 : Fin 256) (0 : Fin 48) = true ∧ s.ctxWrites (0 : Fin 256) (0 : Fin 48) 0 = d.store ∧
       ((∃ e ∈ [TlbEntry.mk 0 (2 ^ 30) 0x010000000000 true true (31 * 2 ^ 59 + 0x010000000000)],
         walk s 0 d.store (d.tc == 2) none = .hit e 0x10000) ↔ mapped = true) ∧
       ((∃ y ∈ [XFault.mk 1 0 0 0x10000], walk s 0 d.store (d.tc == 2) none = .fail y) ↔ mapped = false)) := by decide +kernel
theorem witness_StreamRequestsComplete_7 :
    (∀ mapped ∈ [true, false], ∀ st ∈ [SState.running, .haltFault], let s := walking { st := st, started := true } mapped
     ∃ d ∈ ctx0 s, s.takesWrite fieldReq Obj.strmResume = true ∧ s.reg Obj.strmSel = (0 : Fin 256) * 2 ^ 24 + (0 : Fin 48) ∧
       ((s.core (0 : Fin 256)).ctx (0 : Fin 48)).st = st ∧
       (s.windowOf (bitsOf ((s.core (0 : Fin 256)).ctx (0 : Fin 48)).faultRec 64 64)).isSome = false ∧
       s.ctxWrites (0 : Fin 256) (0 : Fin 48) (bitsOf ((s.core (0 : Fin 256)).ctx (0 : Fin 48)).faultRec 64 64) = false) := by decide +kernel

theorem witness_StoreWritesItsBytes :
    let s := streaming (descOf 1 0xFF 0) { st := .running, started := true, flight := [storeFlight] } { packets := [[{}, {}]] } 10
    ∃ d ∈ ctx0 s, s.desc (0 : Fin 256) (0 : Fin 48) = some d ∧ d.store = true ∧
      ((s.core (0 : Fin 256)).ctx (0 : Fin 48)).flight = [storeFlight] ∧ ((s.core (0 : Fin 256)).ctx (0 : Fin 48)).ending = false ∧ storeFlight.item = none ∧
      storeFlight.puts = [(8 * 0x010000000000, 8 * 64, 7)] := by decide +kernel

theorem witness_SluiceCommands_units :
    (let s := streaming (descOf 1 0xFF 1) { st := .haltFault } { packets := [[{}, {}]] } 10
     ∃ d ∈ ctx0 s, s.ctxOn (0 : Fin 256) (3 : Fin 16) = some (0, d) ∧ d.tc = 1 ∧ d.store = true ∧ ((s.core (0 : Fin 256)).ctx 0).st = .haltFault ∧
       ((s.core (0 : Fin 256)).ctx 0).packets + 1 < d.numPkts ∧ ((s.core (0 : Fin 256)).ctx 0).ending = false) ∧
    (let s := streaming (descOf 1 0xFF 2) { st := .running } {} 10
     dropOk s (0 : Fin 256) (3 : Fin 16) = false ∧
     ∃ d ∈ ctx0 s, s.ctxOn (0 : Fin 256) (3 : Fin 16) = some (0, d) ∧ d.tc ≠ 1 ∧ ((s.core (0 : Fin 256)).ctx 0).st = .running) ∧
    (let s := streaming (descOf 1 0xFF 1) { st := .running } {} 10
     flushOk s (0 : Fin 256) (3 : Fin 16) = false) ∧
    (let s := streaming (descOf 1 0xFF 2) { st := .running } { flush := true } 10
     ((s.core (0 : Fin 256)).sluice (3 : Fin 16)).flush = true ∧ atBoundary s (0 : Fin 256) (3 : Fin 16) = true) ∧
    resetOk (streaming (descOf 0 0xFF 2) { st := .haltError } {} 10) (0 : Fin 256) (3 : Fin 16) = true := by decide +kernel
theorem witness_SluiceCommands_software :
    (let s := { booted [(Obj.sluSel, 255 * 2 ^ 24 + 15)] with cores := [(255, { sluices := [(15, { size := 128, narrow := true, nbytes := [1, 2, 3, 4] })] })] }
     s.takesWrite fieldReq Obj.sluCmd = true ∧ s.takesWrite fieldReq Obj.sluNarrowData = true ∧ s.takesWrite fieldReq Obj.sluNarrowClose = true ∧
     sluSelected s = ((255 : Fin 256).val, (15 : Fin 16).val) ∧ s.role (clusterOf (255 : Fin 256)) = 0 ∧
     resetOk s (255 : Fin 256) (15 : Fin 16) = true ∧
     (let q := (s.core (255 : Fin 256)).sluice (15 : Fin 16)
      q.narrow = true ∧ q.nbytes ≠ [] ∧ q.nbytes.length < 16384 ∧ (q.nbytes.length % 64 ≠ 0 ∨ ceilDiv q.nbytes.length 64 < q.room))) ∧
    (let s := booted [(Obj.sluSel, 255 * 2 ^ 24 + 15), (Obj.schedClRole 15, 1)]
     sluSelected s = ((255 : Fin 256).val, (15 : Fin 16).val) ∧ s.takesWrite fieldReq Obj.sluCmd = true ∧ s.role (clusterOf (255 : Fin 256)) ≠ 0 ∧
     ((s.core (255 : Fin 256)).sluice (15 : Fin 16)).narrow = false) := by decide +kernel
theorem witness_SluiceCommands_preempt :
    let s := streaming (descOf 0 0xFF 2) { st := .running, flight := [loadFlight] } {} 10
    let s := s.modCore 0 fun c => { c with stalled := 256 }
    256 ≤ (s.core (0 : Fin 256)).stalled ∧ (s.core (0 : Fin 256)).noPreempt = false ∧ holders s (0 : Fin 256) = [(0, 0, true)] := by decide +kernel
theorem witness_SluiceCommands_noHolder :
    let s := streaming (descOf 0 0xFF 2) { st := .running } {} 10
    let s := s.modCore 0 fun c => { c with stalled := 256 }
    256 ≤ (s.core (0 : Fin 256)).stalled ∧ (s.core (0 : Fin 256)).noPreempt = false ∧ holders s (0 : Fin 256) = [] := by decide +kernel

/-! ### 02: completion and barriers -/

/-- Core 0 with one started entry. -/
def running (r : RunEntry) : State := atEntry 0 0 0 [] { running := [r] }
/-- Core 0 next to a barrier entry of barrier 5; participants of every barrier. -/
def barred (role : BarrierRole) (parts : List Nat) : State :=
  atEntry 8 0 0 [] {} { barriers := List.replicate 6 ⟨role, parts⟩ } [(Obj.rillRank, 0)]
/-- Core 0 as a participant. -/
def partCore0 : Nat := 2 ^ 24
/-- A barrier of the training group. -/
def bar (n : Nat) (role : BarrierRole) (parts : List Nat) : Barrier := ⟨1, n, ⟨role, parts⟩⟩

theorem witness_BarrierCommands_entries :
    (let s := running { formed := true, entry := { out := 16, deadline := 5 } }
     ∃ r ∈ (s.core (0 : Fin 256)).running, (s.core (0 : Fin 256)).running[(0 : BitVec 8).toNat]? = some r ∧ r.formed = true ∧ r.stopped = false ∧ r.wait = none ∧ r.outq = []) ∧
    (let s := running { formed := true, outq := [(3, {})] }
     ∃ r ∈ (s.core (0 : Fin 256)).running, (s.core (0 : Fin 256)).running[(0 : BitVec 8).toNat]? = some r ∧ r.formed = true ∧ r.stopped = false ∧
       r.wait = none ∧ (pushOut (0 : Fin 256) (r.outq.length + 1) r.outq s).1 ≠ []) ∧
    (let s := atEntry 0 0 0 [] { regions := [{ base := 64, len := 8, slots := 65536 }] }
     ∃ r ∈ (s.core (0 : Fin 256)).regions, (s.core (0 : Fin 256)).regions.find? (fun x => x.base == (64 : BitVec 32).toNat) = some r ∧ 65536 ≤ r.slots) := by
  decide +kernel
theorem witness_BarrierCommands_arrive :
    let s := barred .plain [partCore0]
    ∃ c ∈ (currentEntry s (0 : Fin 256) 8).toList, currentEntry s (0 : Fin 256) 8 = some c ∧ c.fresh = true ∧ c.img.bad = false ∧
      s.role (clusterOf (0 : Fin 256)) = 1 ∧ s.train.abort = false ∧ startsNow s (0 : Fin 256) c = true ∧ s.tblDiffers c.img c.re.plan.off 16 = false ∧
      imageBarrier (s.role (clusterOf (0 : Fin 256))) c.re.entry.param c.img = some (bar 5 .plain [partCore0]) ∧ partLocal s partCore0 = true ∧
      hasArrived s (bar 5 .plain [partCore0]) partCore0 = false ∧ coversOf s partCore0 = [(0 : Fin 256).val] ∧
      (∀ p ∈ (s.core (0 : Fin 256)).todo.drop 1, isBarrierEntry s (0 : Fin 256) c.re.entry.param p = false) := by decide +kernel
theorem witness_BarrierCommands_message :
    let p := 9 * 2 ^ 24 + 1
    let s := barred .plain [p]
    s.barrierWhere (5 : BitVec 16).toNat (awaits s (BitVec.ofNat 28 p).toNat) = some (bar 5 .plain [p]) ∧
      s.barrierWhere (5 : BitVec 16).toNat (plainComplete s) = none ∧
      (let u := { s with arrivals := [{ barrier := 5, group := 1, parts := [p], part := p }] }
       u.barrierWhere (5 : BitVec 16).toNat (plainComplete u) = some (bar 5 .plain [p])) := by decide +kernel

/-! ### 08: the tail of a step -/

/-- A training group whose barrier 0 of a role core 0 has reached. -/
def tailAt (role : BarrierRole) (g : TrainGroup) (rs : List (Nat × Nat) := []) : State :=
  let s := atEntry 8 0 0 [] {} { barriers := [⟨role, [partCore0]⟩] } ([(Obj.rillRank, 0)] ++ rs)
  { s with train := { g with members := [0] }, arrivals := [{ group := 1, parts := [partCore0], part := partCore0 }] }

theorem witness_StepTail_barriers :
    (let s := tailAt .health { phase := .running }
     s.barrierOf 1 .health = some (bar 0 .health [partCore0]) ∧ s.train.members = [0] ∧ s.train.phase = .running ∧
     allArrived s (bar 0 .health [partCore0]) = true ∧ tallyMissing s = false ∧ firstDiffer s (s.layerReads.filter fun r => !r.1.bad) = none) ∧
    (let s := tailAt .commit { phase := .updating }
     s.barrierOf 1 .commit = some (bar 0 .commit [partCore0]) ∧ s.train.members = [0] ∧ s.train.phase = .updating ∧
     allArrived s (bar 0 .commit [partCore0]) = true ∧ s.ledger.frozen = false) := by decide +kernel
theorem witness_StepTail_boundary :
    (let s := tailAt .commit { phase := .commitReady }
     s.train.members = [0] ∧ s.train.phase = .commitReady ∧ s.train.publishing = none ∧ s.train.earliest ≤ s.beat) ∧
    (let s := tailAt .commit { phase := .discardReady }; s.train.members = [0] ∧ s.train.phase = .discardReady ∧ s.train.earliest ≤ s.beat) ∧
    (let s := { booted [] with train := { phase := .running } }; s.train.members = [] ∧ betweenSteps s.train.phase = false) ∧
    (let p := 9 * 2 ^ 24 + 1
     let a : Arrival := { group := 1, parts := [partCore0, p], part := partCore0 }
     let s := { atEntry 8 0 0 [] {} { barriers := [⟨.plain, [partCore0, p]⟩] } [(Obj.rillRank, 0)] with counter := 10 ^ 9, arrivals := [a] }
     s.barrierWhere (0 : BitVec 16).toNat (fun x => !(overdue s x).isEmpty && !(missing s x).isEmpty) = some (bar 0 .plain [partCore0, p]) ∧
     overdue s (bar 0 .plain [partCore0, p]) = [a] ∧ missing s (bar 0 .plain [partCore0, p]) = [p] ∧
     partClusters s partCore0 = [0] ∧ s.role 0 = 1 ∧ s.train.phase = .running) := by decide +kernel
/-- A cluster in the training group and one in the rollout group, a publication under way. -/
def publishing : State := { booted [(Obj.schedClRole 0, 1), (Obj.schedClRole 15, 2)] with train := { members := [0], publishing := some 3 } }
theorem witness_StepTail_host :
    (let s := { booted [] with train := { publishing := some 3 } }; s.train.publishing = some 3 ∧ s.inRole 2 = []) ∧
    (let s := publishing; s.train.publishing = some 3 ∧ s.inRole 2 ≠ [] ∧ copyOk s [] = true ∧ copyOk s [(0, 5)] = false) ∧
    (let s := booted []; s.takesWrite fieldReq Obj.stepDataPos = true ∧ s.takesWrite fieldReq Obj.stepSkip = true ∧
      s.takesWrite fieldReq Obj.stepRetryLimit = true ∧ s.train.stopped = false) ∧
    (let s := tailAt .plain { phase := .boundary, stopped := true }
     s.takesWrite fieldReq Obj.stepSkip = true ∧ s.train.stopped = true ∧ s.train.members ≠ [] ∧ (0 : BitVec 64).toNat = s.trainStep ∧
     (1 : BitVec 64).toNat ≠ s.trainStep) := by decide +kernel

/-! ### 12: the rollout group -/

/-- A rollout group of cluster 0, two slots in its image. -/
def rolling (g : RollGroup) (rs : List (Nat × Nat)) : State :=
  let s := withTable (booted ([(Obj.schedClRole 0, 2), (Obj.memTblBase, 0x010000000000)] ++ rs)) (handleOf 6 0 0) [(6, 1, 2), (0x10, 8, 0x200), (0x204, 2, 2)]
  { s with roll := { g with members := [0] } }

theorem witness_RolloutCommands_boundary (p : Phase) :
    (let s := rolling { phase := p } []
     s.roll.members ≠ [] ∧ s.stopped = false ∧ s.held .checkpoint = false ∧ s.held .rebuild = false ∧ s.roll.members.Nodup ∧
     (∀ t ∈ s.tables, tableDue s t 2 = false) ∧ (∀ cl ∈ s.roll.members, s.role cl = 2 ∧ cl < 16) ∧ s.roll.abort = false ∧ s.roll.earliest ≤ s.beat ∧
     rollDone s = true ∧ s.roll.phase = p ∧ rollBad s = false ∧ ∀ cl ∈ s.roll.members, firstDiffer s (rollReads s cl) = none) ∧
    ∀ cl, ((rolling { phase := p } []).cluster cl).roleReq = none ∧ ((rolling { phase := p } []).cluster cl).joining = none :=
  ⟨by cases p <;> decide +kernel, fun _ => ⟨rfl, rfl⟩⟩
theorem witness_RolloutCommands_origin :
    (∀ size ∈ [64, 0], ∀ ok ∈ [true, false], ∀ told ∈ [true, false],
     let s := rolling { phase := .ringWait, ringOk := ok, stallRaised := told } [(Obj.rollOutSize, size)]
     s.roll.phase = .ringWait ∧ s.noNewStep = false ∧ s.roll.earliest ≤ s.beat ∧ ringRoom s = (size == 64) ∧ s.roll.stallRaised = told ∧
       s.roll.ringOk = ok) ∧
    (let s := rolling { phase := .running, abort := true } []; s.roll.phase = .running ∧ s.roll.abort = true) := by decide +kernel
theorem witness_RolloutCommands_host :
    (let s := { rolling { phase := .running } [] with clusters := [(0, { slots := [(1, { st := .decode, seqId := 9 })] })] }
     s.takesWrite fieldReq Obj.rollCancel = true ∧ slotOfSeq s (9 : BitVec 64).toNat = some (0, 1) ∧ slotOfSeq s (8 : BitVec 64).toNat = none) ∧
    (let s := { booted [] with roll := { lastHostEpoch := 4 } }
     s.takesWrite fieldReq Obj.epochReady = true ∧ s.reg Obj.epochShadow = 0 ∧ (5 : BitVec 64) ≠ 0 ∧ bitOf (5 : BitVec 64).toNat 63 = false ∧
     s.roll.lastHostEpoch < (5 : BitVec 64).toNat ∧ (4 : BitVec 64).toNat ≤ s.roll.lastHostEpoch) ∧
    (let s := booted [(Obj.epochShadow, 3)]; s.takesWrite fieldReq Obj.epochReady = true ∧ s.reg Obj.epochShadow ≠ 0) := by decide +kernel

/-! ### 13: Rill -/

/-- Port 5 in a state, with what stands beside it; a routing table with 8 alternatives. -/
def linked (st : Nat) (x : RillPort) (rs : List (Nat × Nat) := []) : State :=
  let s := withTable (booted ([(Obj.rillPState 5, st)] ++ rs)) (handleOf 7 0 0) [(6, 1, 8)]
  s.withRill (s.rill.setPort 5 x)
/-- A flit as it arrives, in order or not, its CRC good or not. -/
def flitRx (kind : BitVec 2) (seq : BitVec 12) (ok : Bool) : FlitRx :=
  { kind := kind, vc := 3, dest := 0, waypt := false, waypoint := 0, seq := seq, last := false, src := 0, coll := 0, index := 0, scale1 := 0,
    scale0 := 0, hop := 0, payload := 0, tally := [], ack := none, nak := false, credits := 0, creditVc := 0, crcOk := ok, ce := 0, ue := 0, slot := 0 }

theorem witness_FlitCommandsComplete :
    (∀ n ∈ [0, 7], let s := linked 2 { refused := n }
      s.linkUp (5 : Fin 6) = true ∧ s.running = true ∧ (s.port (5 : Fin 6)).refused = n ∧ (flitRx 0 0 false).crcOk = false) ∧
    (let s := linked 2 { rxSeq := 4095 } [(Obj.rillPNbrOk 5, 1)]
     (flitRx 2 0 true).crcOk = true ∧ (flitRx 2 0 true).ue.toNat = 0 ∧ 2 ≤ (flitRx 2 0 true).kind.toNat ∧
     (flitRx 0 0 true).seq.toNat ≠ (s.port (5 : Fin 6)).rxSeq ∧ (flitRx 0 4095 true).kind.toNat = 0 ∧ s.reg (Obj.rillPNbrOk (5 : Fin 6)) = 1 ∧
     (flitRx 0 4095 true).seq.toNat = (s.port (5 : Fin 6)).rxSeq) ∧
    (let s := linked 3 { ctl := [{ kind := 1, vc := 2 }], credits := [(2, 5)] }
     s.linkUp (5 : Fin 6) = true ∧ (s.port (5 : Fin 6)).replay = [] ∧ (s.port (5 : Fin 6)).sched = [] ∧ (s.port (5 : Fin 6)).best = [] ∧
     (s.port (5 : Fin 6)).ctl = [{ kind := 1, vc := 2 }] ∧ s.rill.held = [] ∧ entryOfSlot s (5 : Fin 6) (19 : Fin 20) = 0 ∧ canSend s (5 : Fin 6) 2 = true) ∧
    (let f : Flit := { vc := 0 }; let s := linked 2 { best := [f] }
     s.linkUp (5 : Fin 6) = true ∧ s.running = true ∧ s.linkUsable (5 : Fin 6) = false ∧ entryOfSlot s (5 : Fin 6) (19 : Fin 20) = 0) ∧
    (let s := linked 2 { nak := true } [(Obj.rillPNbrOk 5, 1)]; s.linkUsable (5 : Fin 6) = true ∧ s.rill.held = [] ∧ (nextFlit s (5 : Fin 6) (0 : Fin 20)).isNone = true ∧ (s.port (5 : Fin 6)).nak = true) ∧
    (let s := linked 2 {} [(Obj.rillPNbrOk 5, 1)]; s.linkUsable (5 : Fin 6) = true ∧ (nextFlit s (5 : Fin 6) (0 : Fin 20)).isNone = true ∧ (s.port (5 : Fin 6)).nak = false ∧
      (s.port (5 : Fin 6)).freed = []) := by decide +kernel
theorem witness_RillPorts_states :
    (∀ n ∈ [0, 2], let s := linked 1 { attempts := n }; s.pState (5 : Fin 6) = 1 ∧ (s.port (5 : Fin 6)).attempts = n) ∧
    8 ≤ goodLanes (0xFF : BitVec 18).toNat ∧ goodLanes (0x7F : BitVec 18).toNat < 8 ∧ 16 ≤ goodLanes (0xFFFF : BitVec 18).toNat ∧
    (let s := linked 3 {} [(Obj.rillPFailed 5, 1)]; s.linkUp (5 : Fin 6) = true ∧ bitOf (s.reg (Obj.rillPFailed (5 : Fin 6))) (17 : Fin 18) = false ∧
      s.reg (Obj.rillPLaneErrLimit (5 : Fin 6)) < (0xFFFFFFFF : BitVec 32).toNat ∧ (0 : BitVec 32).toNat ≤ s.reg (Obj.rillPLaneErrLimit (5 : Fin 6))) ∧
    (linked 4 {}).pState (5 : Fin 6) = 4 ∧ (linked 5 {}).pState (5 : Fin 6) = 5 ∧
    (linked 5 {}).takesWrite fieldReq (Obj.rillPRetrain (5 : Fin 6)) = true ∧ (linked 2 {}).pState (5 : Fin 6) ≠ 5 := by decide +kernel
theorem witness_RillPorts_routes :
    let s := linked 2 {}
    s.takesWrite fieldReq Obj.rillAltSel = true ∧ s.held .checkpoint = false ∧ routeBegun s = false ∧
    (∃ r ∈ s.tables, s.routing = some r ∧ (8 : BitVec 8).toNat ≤ snapRd r 6 1 ∧ snapRd r 6 1 < (9 : BitVec 8).toNat) ∧
    (let s := s.withRill { s.rill with altReq := some 8 }
     s.rill.altReq = some 8 ∧ s.groupAtBoundary 1 = true ∧ routeReady s = true ∧ s.routing.isSome = true) := by decide +kernel

/-! ### 03 to 10, 13: entries -/

/-- A routing table of this device alone with one ring. -/
def ringed (s : State) : State :=
  withTable s (handleOf 7 0 2) [(7, 1, 1), (0x20, 8, 0x40), (0x40, 8, 0x80), (0x80, 2, 1), (0x88, 8, 0x100), (0x28, 8, 0x180), (0x180, 1, 1)]
/-- Whether an entry of a command starts in a state, with all its words or not, its region written by another entry or not. -/
def entryMeets (p : Instr × EntryKind × (State → Cur → Bool)) (s : State) (full busy : Bool) : Bool :=
  match currentEntry s (0 : Fin 256) p.2.1.op with
  | none => false
  | some c => startsB s (0 : Fin 256) p.2.1.op c && p.2.2 s c && readsHold p.2.1 s (0 : Fin 256) c &&
      heldForRegion s (0 : Fin 256) (p.2.1.regions s (0 : Fin 256) c) == busy &&
      (busy || entryFull p.2.1 s (0 : Fin 256) c == full && (!full || entryAlone p.2.1 s (0 : Fin 256) c))
theorem entryMeets_starts (p : Instr × EntryKind × (State → Cur → Bool)) (s : State) (full busy : Bool) (h : entryMeets p s full busy = true) :
    ∃ c, s.starts (0 : Fin 256) p.2.1.op c ∧ p.2.2 s c = true ∧ readsHold p.2.1 s (0 : Fin 256) c = true ∧
      heldForRegion s (0 : Fin 256) (p.2.1.regions s (0 : Fin 256) c) = busy ∧
      (busy = false → entryFull p.2.1 s (0 : Fin 256) c = full ∧ (full = true → entryAlone p.2.1 s (0 : Fin 256) c = true)) := by
  unfold entryMeets at h
  split at h
  · cases h
  · rename_i c _
    simp only [Bool.and_eq_true, beq_iff_eq, Bool.or_eq_true] at h
    exact ⟨c, (starts_iff _ _ _ _).2 h.1.1.1.1, h.1.1.1.2, h.1.1.2, h.1.2, fun hb => by
      obtain h' := h.2.resolve_left (by simp [hb]); exact ⟨h'.1, fun hf => by simpa [hf] using h'.2⟩⟩
/-- The first byte of a parameter block by which each command of `entryCommands` takes its entry. -/
def entryCodes : List Nat := [0, 0, 0, 0, 0, 1, 2, 3, 4, 5, 6, 7, 8, 9, 1, 2, 3, 4, 5, 0, 1, 2, 0, 1, 2, 3, 0, 1, 0, 0, 0]

theorem witness_EntryCommands_formed_a : ∀ x ∈ ((entryCommands 0 .none [] 0).zip entryCodes).take 14,
    entryMeets x.1 (atEntry x.1.2.1.op 0 x.2 [] {}) true false = true := by decide +kernel
theorem witness_EntryCommands_formed_b : ∀ x ∈ (((entryCommands 0 .none [] 0).zip entryCodes).drop 14).take 16,
    entryMeets x.1 (atEntry x.1.2.1.op 0 x.2 [] {}) true false = true := by decide +kernel
theorem witness_EntryCommands_formed_c : ∀ x ∈ ((entryCommands 0 .none [] 0).zip entryCodes).drop 30,
    entryMeets x.1 (ringed (atEntry x.1.2.1.op 0 x.2 [] {})) true false = true := by decide +kernel
/- A VECTOR_ADD of one row of 16 without its words, and a side product into a region that a started entry writes. -/
theorem witness_EntryCommands_waits :
    (∀ p ∈ (entryCommands 0 .none [] 0).drop 6 |>.take 1,
      entryMeets p (atEntry 5 (2 ^ 80 + 2 ^ 72) (2 + 256 + 256 ^ 4 + 16 * 256 ^ 8) [] {}) false false = true) ∧
    (∀ p ∈ (entryCommands 0 .none [] 0).drop 1 |>.take 1,
      entryMeets p (atEntry 0x0C 0 (1 + 256 ^ 2) [] { running := [{ regions := [(0, 64)] }] }) false true = true) := by decide +kernel
/- A quantisation of a share of tensor 9 while core 1 has still to scout another. -/
theorem witness_EntryCommands_share :
    let s := atEntry 6 0 (2 + (2 ^ 120 + 9 * 2 ^ 72) * 256 ^ 0x40) [] {}
    let s := { s with cores := s.cores ++ [(1, { todo := [{ off := 0x100 }] })] }
    ∀ p ∈ (entryCommands 0 .none [] 0).drop 15 |>.take 1, ∃ c ∈ (currentEntry s (0 : Fin 256) 6).toList,
      s.starts (0 : Fin 256) 6 c ∧ p.2.2 s c = true ∧ readsHold p.2.1 s (0 : Fin 256) c = true ∧
      heldForRegion s (0 : Fin 256) (p.2.1.regions s (0 : Fin 256) c) = false ∧ entryFull p.2.1 s (0 : Fin 256) c = true ∧
      entryAlone p.2.1 s (0 : Fin 256) c = false ∧ c.re.scouted = false := by
  simp only [starts_iff]; decide +kernel
theorem witness_EntryCommands_fault : ∀ p ∈ (entryCommands 0 .core [] 0).take 1,
    (currentEntry (atEntry p.2.1.op 0 0 [] {}) (0 : Fin 256) p.2.1.op).isSome = true ∧
    (atEntry p.2.1.op 0 0 [] {}).coreFenced (0 : Fin 256) = false := by decide +kernel

theorem witness_VectorResultsDelivered : ∀ p ∈ [(0x01, vFn), (0x02, vPoint XNum.add), (0x03, vPoint XNum.mul), (0x04, vRowMax), (0x05, vRowSum),
      (0x06, vRecip), (0x07, vRsqrt), (0x08, vPoint XNum.sub), (0x09, vPoint XNum.mul)],
    let s := atEntry 5 (2 ^ 80 + 2 ^ 72) (p.1 + 256 ^ 2) [] {}
    ∃ c ∈ (currentEntry s (0 : Fin 256) 5).toList, s.starts (0 : Fin 256) 5 c ∧ vOp c.blk = p.1 ∧ readsHold (vKind p.2) s (0 : Fin 256) c = true ∧ entryFull (vKind p.2) s (0 : Fin 256) c = true ∧
      c.re.entry.fmtA = 1 ∧ c.re.entry.fmtB = 1 ∧ fld c.blk 0x02 1 = 1 ∧ c.re.entry.out < 16 := by
  simp only [starts_iff]; decide +kernel
theorem witness_SideProductAccumulates :
    let s := atEntry 0x0C 0 (1 + 256 ^ 2) [] {}
    ∃ c ∈ (currentEntry s (0 : Fin 256) 0x0C).toList, s.starts (0 : Fin 256) 0x0C c ∧ readsHold sideKind s (0 : Fin 256) c = true ∧
      heldForRegion s (0 : Fin 256) (sideKind.regions s (0 : Fin 256) c) = false ∧ entryFull sideKind s (0 : Fin 256) c = true ∧
      (s.outliers c.img (fld c.blk 0x0C 4)).length ≤ 65536 := by
  simp only [starts_iff]; decide +kernel
theorem witness_GradTilesKept : ∀ conv ∈ [4, 5],
    let s := atEntry 6 0 (conv + 64 * 256 ^ 0x1C) [] { regions := [{ base := 64, len := 0 }] }
    ∃ c ∈ (currentEntry s (0 : Fin 256) 6).toList, s.starts (0 : Fin 256) 6 c ∧ cConv c.blk = conv ∧
      heldForRegion s (0 : Fin 256) (cRegions s (0 : Fin 256) c) = false ∧ (c.img.waitOf (0 : Fin 256) c.re.entry.wait).1 = [] ∧
      ((s.core (0 : Fin 256)).region (fld c.blk 0x1C 4)).segs = [] ∧ ((s.core (0 : Fin 256)).region (fld c.blk 0x1C 4)).slots < 65536 ∧
      (openTail s (0 : Fin 256) c.re.plan).sramRd (clusterOf (0 : Fin 256)) (64 * fld c.blk 0x24 4) 4 = fld c.blk 0x20 3 ∧
      (openTail s (0 : Fin 256) c.re.plan).sramRd (clusterOf (0 : Fin 256)) (64 * fld c.blk 0x24 4 + 4) 4 = cElems c.blk ∧
      (openTail s (0 : Fin 256) c.re.plan).sramRd (clusterOf (0 : Fin 256)) (64 * fld c.blk 0x24 4 + 8) 4 = s.clStep (clusterOf (0 : Fin 256)) % 2 ^ 32 := by
  simp only [starts_iff]; decide +kernel
/-- A reload whose header names another weight. -/
theorem witness_GradTilesKept_other :
    let s := atEntry 6 0 (5 + 64 * 256 ^ 0x1C + 7 * 256 ^ 0x20) [] { regions := [{ base := 64, len := 0 }] }
    ∃ c ∈ (currentEntry s (0 : Fin 256) 6).toList, s.starts (0 : Fin 256) 6 c ∧ cConv c.blk = 5 ∧
      (openTail s (0 : Fin 256) c.re.plan).sramRd (clusterOf (0 : Fin 256)) (64 * fld c.blk 0x24 4) 4 ≠ fld c.blk 0x20 3 := by
  simp only [starts_iff]; decide +kernel

/-! ### The machine -/

theorem witness_StepTakesTheFront : State.reset.pending = [] := rfl
theorem witness_StateFormKept : State.reset.wf = true ∧ step State.reset = .next State.reset := ⟨by decide +kernel, rfl⟩
theorem witness_FrameKept : exec (.ppsInEdge 0) State.reset = .next State.reset ∧ Comp.cells ∉ footprint (.ppsInEdge 0) := by
  exact ⟨rfl, by decide +kernel⟩

/-! ### Rules stated whole -/

/-- A module whose T1 area holds a format image without codebooks, signed with the private key 1 of P-521. -/
def signedImage : State :=
  let s := booted [(Obj.memTblBase, 0x010000000000), (Obj.memTblLen, 65536)]
  s.withMem ([(0, 4, 0x58444D46), (4, 2, 1), (8, 8, 0x40), (0x40, 132,
    0xf1d60553a5018a9fa6c79acf8b3e369fae6b72bdc5930a759169b2b459038608369aec7cbf0441e634b82c83cc2f868de03a46d6dafaa1dba7995d5f546546d9c60066bde5c2317e7ef99b426a85c1b34833dea8ffa227c11dfe2859e7ef775e4ba1ba3d4d6b60af28f821b53f053981649c42b4952366cb3e9ecde90404b7068e85c600)].foldl
    (fun m f => memWrite m (0x010000000000 + f.1) f.2.1 f.2.2) s.mem)

theorem witness_ImagesRefusedAndReplaced (hk : Config.lumquerixKey = (ecGx, ecGy)) :
    let h : BitVec 64 := BitVec.ofNat 64 (handleOf 1 0 0)
    let old : TableRec := { handle := handleOf 1 0 0, snap := [(0, 9)] }
    let s := { signedImage with tables := [old] }
    s.takesWrite fieldReq Obj.tblActivate = true ∧ bitsOf h.toNat 40 10 = 0 ∧
    imageOk (s.setReg Obj.tblActivate h.toNat) h.toNat (regionSnap s.mem (s.regionBase h.toNat) (hBytes h.toNat)) = true ∧
    (s.tables.any fun x => !x.active && sameSlot x.handle h.toNat) = true := by
  unfold imageOk imageSigned
  rw [hk]
  decide +kernel
theorem witness_ImagesRefused :
    let s := booted []
    s.takesWrite fieldReq Obj.tblActivate = true ∧ bitsOf (0 : BitVec 64).toNat 40 10 = 0 ∧
    imageOk (s.setReg Obj.tblActivate 0) 0 (regionSnap s.mem (s.regionBase 0) (hBytes 0)) = false := by decide +kernel
theorem witness_PpsEdgeCompared :
    (let s := { booted [(Obj.ptpPpsMode, 1)] with counter := 2000 }
     s.running = true ∧ s.reg Obj.ptpPpsMode = 1 ∧ 1000 < ppsError (stampOf s 0)) ∧
    (let s := booted [(Obj.ptpPpsMode, 1)]; s.reg Obj.ptpPpsMode = 1 ∧ ppsError (stampOf s 999) ≤ 1000) ∧
    (booted [(Obj.ptpPpsMode, 0)]).reg Obj.ptpPpsMode = 0 := by decide +kernel
theorem witness_RoleKeepsDomainsOn_refused :
    let s := { booted (domains ([0x110] ++ List.range 16) 2) with counter := 1000, clusters := [(0, { roleReq := some 1 })] }
    (s.cluster (0 : Fin 16).val).roleReq = some 1 ∧ roleBoundary s (0 : Fin 16).val = true ∧ tablesWait s (0 : Fin 16).val (s.role 0) = false ∧
      s.held .checkpoint = false ∧ s.domOn (domFabric (0 : Fin 16).val) = false := by decide +kernel
theorem witness_RoleKeepsDomainsOn_kept :
    let s := booted ([(Obj.schedClRole 0, 1), (Obj.pwrDomSel, domCore 15)] ++ domains ([0x100, 0x110] ++ List.range 16) 2)
    s.takesWrite fieldReq Obj.pwrDomReq = true ∧ s.role (0 : Fin 16).val ≠ 0 ∧ s.domOn (domFabric (0 : Fin 16).val) = true ∧
    s.domOn (domSram (0 : Fin 16).val) = true ∧ (∀ n, n < 256 → n / 16 = (0 : Fin 16).val → s.domOn (domCore n) = true) ∧
    s.coreFenced 15 = false ∧ s.reg Obj.pwrDomSel = domCore 15 := by decide +kernel

/-! ### Worked examples of the manual -/

def sluiceOf (n : Nat) (words : List Nat) : Nat × Sluice := (n, { size := 64, packets := [words.map fun w => { data := w }] })
/-- Bytes at their places in a word. -/
def bytesAt (bs : List (Nat × Nat)) : Nat := bs.foldl (fun w b => w + b.2 * 256 ^ b.1) 0
/-- What a command answers, looked at. -/
def after {α : Type} (i : Instr) (s : State) (f : State → α) : Option α :=
  match exec i s with
  | .next t => some (f t)
  | _ => none

/-- 05, "one output element through the block combine". -/
def combineExample : State :=
  withTable
    (atEntry 1 (0x10 * 2 ^ 80 + 0x10 * 2 ^ 72 + 3)
      (bytesAt [(0, 1), (2, 1), (3, 3), (8, 64), (0x14, 0xFFFFFFFF), (0x28, 1), (0x29, 2), (0x2A, 0xFF), (0x3F, 0x10), (0x4F, 0x10), (0x4E, 0x0C),
        (0x60, 40), (0x70, 1)]) []
      { sluices := [sluiceOf 1 [bytesAt [(0, 0x48), (1, 0x3C), (2, 0x01), (32, 0x7E), (33, 0xFE), (34, 0x08)]],
                    sluiceOf 2 [mkScaleWord 0 2 0 0x40800000 [0x7E, 0x7D]], (3, { size := 64 })],
        wstore := [(0, 0x30), (4, 0xBA), (8, 0x01), (128, 0x7E), (132, 0x7E), (136, 0x38), (320, 0x200), (321, 0x3F000000), (322, 0x7C7F)] })
    (handleOf 4 0 2) [(6, 2, 1), (0x40, 16, 0x3F800000 * 2 ^ 96 + 0x31 * 2 ^ 56 + 1 * 2 ^ 52)]

/-- FP32 words packed 16 to a Sluice word. -/
def f32Words (xs : List Nat) : List Nat := (chunksOf 16 xs).map (packBits 32)

/-- 09, "four tokens, four experts". -/
def routerExample : State :=
  withTable
    (atEntry 0x0D (0x01 * 2 ^ 80)
      (bytesAt [(1, 2), (2, 4), (4, 4), (8, 2), (0xA, 1), (0xC, 1), (0xD, 1), (0xE, 3), (0x10, 0), (0x14, 1), (0x15, 2)]) []
      { sluices := [sluiceOf 0 (f32Words
          [0x40000000, 0x3F800000, 0x3F000000, 0, 0x40400000, 0, 0x3F800000, 0x3F800000,
           0x3FC00000, 0, 0x40200000, 0, 0x40000000, 0x40000000, 0, 0]), (1, { size := 64 }), (2, { size := 64 })] })
    (handleOf 2 0 3) [(6, 2, 1), (0x40 + 0x18, 4, 0x3F800000)]

/-- 04, "a tensor with a zeroing element and a block that rounds to zero". -/
def quantiseExample : State :=
  atEntry 6 (0x01 * 2 ^ 80 + 3)
    (bytesAt [(0, 2), (4, 1), (8, 96), (0xC, 0), (0xE, 1), (0xF, 2), (0x10, 0), (0x11, 1), (0x28, 1), (0x29, 1), (0x14, 0xFF), (0x15, 0xFF), (0x16, 0xFF), (0x17, 0xFF)]
      + (0x13 * 2 ^ 120 + 0x101 * 2 ^ 72) * 2 ^ (8 * 0x40)) []
    { sluices := [sluiceOf 0 (f32Words
        ([0x41400000, 0xC0400000, 0x3F333333, 0x3E800000] ++ List.replicate 28 0 ++ [0x3F400000, 0xBEC00000, 0x3DC00000] ++ List.replicate 29 0 ++
         [0x00000200, 0x80000100] ++ List.replicate 30 0)), (1, { size := 64 }), (2, { size := 64 }), (3, { size := 64 })] }

/-- A VECTOR_ADD of one row of two FP32 elements: 1.0 + 2.0 and max + max. -/
def addExample : State :=
  atEntry 5 (0x01 * 2 ^ 80 + 0x01 * 2 ^ 72 + 3)
    (bytesAt [(0, 2), (2, 1), (4, 1), (8, 2), (0xC, 0), (0xD, 1), (0x18, 2)]) []
    { sluices := [sluiceOf 0 (f32Words [0x3F800000, 0x7F7FFFFF]), sluiceOf 1 (f32Words [0x40000000, 0x7F7FFFFF]), (3, { size := 64 })] }

/-- 03, under R82 and R89: a pair rounded to odd and then to G16. -/
theorem test_pair_to_g16 : rto32 (Pair.num ⟨0x3F808000, 0x2B800000⟩) = 0x3F808001 ∧ (convert (f32 0x3F808001) fmtG16 .rne 0).code = 0x3F81 := by
  decide +kernel
/-- 03, XF8: 464 is a tie that goes to 448; what lies above it saturates. -/
theorem test_xf8_top : convert (.fin false 464 0) fmtXF8 .rne 0 = ⟨0x7E, false, false, false⟩ ∧
    convert (.fin false 465 0) fmtXF8 .rne 0 = ⟨0x7E, true, false, false⟩ := by decide +kernel
/-- 03, R70: four XF6a codes and two XF4 codes packed. -/
theorem test_packing : packBits 6 [0x1F, 0x04, 0x00, 0x3F] = 0xFC011F ∧ packBits 4 [0x7, 0x2] = 0x27 := by decide
/-- 07: a chain whose plain FP32 sum would lose its small terms. -/
theorem test_chain : enterAll Pair.zero [.fin false (2 ^ 25 + 1) 0, .fin false 3 (-2), .fin true (2 ^ 25) 0] = (⟨0x3FE00000, 0⟩, {}) := by
  decide +kernel
/-- 06: a BX group of four products, its pair, and its dX element in G16. -/
theorem test_bx_group :
    gGroup ([0x78, 0xBD, 0x01, 0x81].map fmtG8.decode) ([0x3F80, 0x3FC0, 0x3F80, 0x3F00].map fmtG16.decode) 3 8 0 = .fin false 33552511 (-10) ∧
    (enter Pair.zero (.fin false 33552511 (-10))).pair = ⟨0x46FFFC40, 0xBA800000⟩ ∧
    (bwdOut ⟨0x46FFFC40, 0xBA800000⟩ 0x3F800000 none 0x31 .rne 0).code = 0x4700 := by decide +kernel
/-- FIPS 180-4: the SHA-512 of "abc". -/
theorem test_sha512_abc : beNat (sha512 [0x61, 0x62, 0x63]) =
    0xDDAF35A193617ABACC417349AE20413112E6FA4E89A97EA20A9EEEE64B55D39A2192992A274FC1A836BA3C23A3FEEBBD454D4423643CE80E2A9AC94FA54CA49F := by
  decide +kernel
/-- 05, "one output element through the block combine": the code 0x3E01 in G16 and the pair in the accumulator. -/
theorem test_f_product_combine : after (.fProduct 0 .none [] 0) combineExample (fun t => (((t.core 0).sluice 3).packets, (t.core 0).acc)) =
    some ([[{ data := 0x3E01, last := true }]], [(0, 0x3D81010000000000)]) := by decide +kernel
/-- 04, "a tensor with a zeroing element and a block that rounds to zero": scale word, counter word and share record. The
example shows element 65 as 0x0 where R87 gives −0, 0x8; examples do not bind (00), so R87 stands. -/
theorem test_spill_quantise : after (.spillQuantise 0 .none []) quantiseExample (fun t =>
      ([1, 2, 3].map (fun i => ((t.core 0).sluice i).packets.flatten.map (·.data)), (List.range 8).map fun i => t.sramRd 0 (shareBase 0 + 4 * i) 4)) =
    some ([[mkScaleWord 0 3 4 0x40000000 [0x7F, 0x7B, 0x00]], [bytesAt [(1, 1), (5, 2)]],
        [bytesAt [(0, 0xB7), (1, 0x01), (16, 0xD7), (17, 0x02), (32, 0x80)]]],
      [0x101, 0, 3, 0, 1, 0x41400000, 0x40000000, 0]) := by decide +kernel
/-- 09, "four tokens, four experts": the record of token 3, the dispatch list, the counters and the clk. -/
theorem test_router_select : after (.routerSelect 0 .none) routerExample (fun t =>
      ((((t.core 0).sluice 1).packets.flatten.map (·.data)).drop 3, ((t.core 0).sluice 2).packets.flatten.map (·.data))) =
    some ([0x3F00000000010101 * 2 ^ 64 + 0x3F00000000020302],
      [packBits 32 [0x80000000, 0x80000001, 0x80010000, 0x80010003, 0x80000002, 0x80010001, 0, 0, 0x80000003]]) ∧
    after (.routerSelect 0 .none) routerExample (fun t => ([t.reg (Obj.routeRouted 0), t.reg (Obj.routeSpilled 0), t.reg (Obj.routeDropped 0),
      t.reg (Obj.routeFullExperts 0)], (t.core 0).running.map (·.clk))) = some ([6, 1, 1, 3], [76]) := by decide +kernel
/-- R141: 1.0 + 2.0, and a sum past the FP32 range, which is +Inf (R11). -/
theorem test_vector_add : after (.vectorAdd 0 .none) addExample (fun t => ((t.core 0).sluice 3).packets.flatten.map (·.data)) =
    some [0x7F80000040400000] := by decide +kernel

/-! ### Well-formedness: an ill-formed term for each check, and the check refuses it; at the limit it accepts -/

def ones (n : Nat) : List Byte := List.replicate n 1
def flitTo (waypt : Bool) (waypoint : BitVec 15) : FlitRx :=
  { kind := 0, vc := 0, dest := 0, waypt := waypt, waypoint := waypoint, seq := 0, last := false, src := 0, coll := 0, index := 0,
    scale1 := 0, scale0 := 0, hop := 0, payload := 0, tally := [], ack := none, nak := false, credits := 0, creditVc := 0, crcOk := true,
    ce := 0, ue := 0, slot := 0 }

theorem test_wf_message : (Instr.cfgWrite fieldReq (ones 1024)).wf = true ∧ (Instr.cfgWrite fieldReq (ones 1025)).wf = false ∧
    (Instr.recoveryBlockRx 0 (ones 1025)).wf = false ∧ (Instr.secOwnerRelease fieldReq (ones 1025)).wf = false ∧
    (Instr.secMinSvnWrite fieldReq (ones 1025)).wf = false ∧ (Instr.dbgEnter fieldReq (ones 1025)).wf = false ∧
    (Instr.fwCommitFlash fieldReq (ones 1025)).wf = false ∧ (Instr.fwCommitRestart fieldReq (ones 1025)).wf = false := by decide +kernel
theorem test_wf_write : (Instr.registerWrite fieldReq (.plain 0x6000 1 (ones 1024))).wf = true ∧
    (Instr.registerWrite fieldReq (.plain 0x6000 1 (ones 1025))).wf = false ∧ (Instr.registerWrite fieldReq (.signed (ones 1025))).wf = false ∧
    (Instr.secOwnerKeyWrite fieldReq (.signed (ones 1025))).wf = false := by decide +kernel
theorem test_wf_packet : (Instr.roceWriteRx (hdrA 0) none true (ones 4096)).wf = true ∧
    (Instr.roceWriteRx (hdrA 0) none true (ones 4097)).wf = false ∧ (Instr.roceResponseRx 0 (.data 0 (ones 4097))).wf = false := by decide +kernel
theorem test_wf_port : (Instr.mbxPortWrite (hdrA 0) 0 0 0 60 (ones 4)).wf = true ∧ (Instr.mbxPortWrite (hdrA 0) 0 0 0 60 (ones 5)).wf = false := by
  decide +kernel
theorem test_wf_flit : (Instr.rillFlitRx 0 (flitTo true 5)).wf = true ∧ (Instr.rillFlitRx 0 (flitTo false 0)).wf = true ∧
    (Instr.rillFlitRx 0 (flitTo false 5)).wf = false := by decide +kernel
theorem test_wf_frame : (Instr.icmpEchoRx 0 false 0 false (ones 9216)).wf = true ∧ (Instr.icmpEchoRx 0 false 0 false (ones 9217)).wf = false := by
  decide +kernel

end Sys2Proof.Tests
end

section
/-! The frame of every command. `exec` runs each command, and each moves within its footprint: the lemma of a command names the
operations it is made of, outermost first, each with the lemma of Laws/ that says what the operation may change. Where a command
branches on the state that an operation left, `extract_lets` names that state and `.after` goes on from it. A mask is compared by
`decide`, or by the kernel alone where it holds a page above 0xE0, whose power of two `decide` does not evaluate. -/

namespace Sys2Proof.Machine

/-! ### Parts and their bits -/

theorem Comp.index_inj {a b : Comp} (h : a.index = b.index) : a = b := by
  cases a <;> cases b <;> simp only [Comp.index, reduceCtorEq, Comp.obj.injEq] at h ⊢ <;> omega

theorem testBit_maskOf (l : List Comp) (c : Comp) : (maskOf l).testBit c.index = decide (c ∈ l) := by
  induction l with
  | nil => simp [maskOf]
  | cons d l ih =>
    have hd : d.index = c.index ↔ c = d := ⟨fun h => (Comp.index_inj h).symm, fun h => h ▸ rfl⟩
    simp [maskOf, Nat.testBit_or, Nat.testBit_two_pow, ih, hd]

theorem mem_allComps (c : Comp) : c ∈ allComps := by
  cases c with
  | obj p => exact List.mem_append_right _ (List.mem_map.2 ⟨p.val, List.mem_range.2 p.isLt, by simp⟩)
  | _ => exact List.mem_append_left _ (by decide)

theorem mem_allBut (l : List Comp) (c : Comp) : c ∈ allBut l ↔ c ∉ l := by simp [allBut, mem_allComps]

/-- Every bit but those of `l`: 32 for the fields, some of them of no part, and 256 for the pages. A reset changes what has a bit here. -/
def offMask (l : List Comp) : Nat := (2 ^ 32 * 2 ^ 256 - 1) ^^^ maskOf l

theorem Comp.index_lt (c : Comp) : c.index < 288 := by
  cases c with
  | obj p => simp only [Comp.index]; omega
  | _ => decide

theorem testBit_two_pow_mul_sub_one (m n i : Nat) : (2 ^ m * 2 ^ n - 1).testBit i = decide (i < m + n) := by
  rw [← Nat.pow_add, Nat.testBit_two_pow_sub_one]

theorem testBit_offMask (l : List Comp) (c : Comp) : (offMask l).testBit c.index = decide (c ∉ l) := by
  rw [offMask, Nat.testBit_xor, testBit_two_pow_mul_sub_one, testBit_maskOf, decide_eq_true c.index_lt, Bool.true_xor,
    decide_not]

/-! ### Runs -/

/-- A part that the mask of `l` does not let change reads the same. -/
theorem Moves.frame {l : List Comp} {s t : State} (h : Moves (maskOf l) s t) {c : Comp} (hc : c ∉ l) : Same c s t :=
  h.same c ((testBit_maskOf l c).trans (decide_eq_false hc))

theorem Moves.after {A : Nat} {s t u : State} (h : Moves A s t) (h2 : Moves A t u) : Moves A s u := h.trans (Sub.refl A) h2
theorem Moves.or_stay {A : Nat} {s t : State} {c : Prop} [Decidable c] (h : Moves A s t) : Moves A s (if c then t else s) :=
  ite_moves (fun _ => h) fun _ => .refl A s
theorem Moves.stay_or {A : Nat} {s t : State} {c : Prop} [Decidable c] (h : Moves A s t) : Moves A s (if c then s else t) :=
  ite_moves (fun _ => .refl A s) fun _ => h

section
variable {A : Nat} {s t : State} {o : Host.Outcome State Fault Refusal}

theorem Runs.stay : Runs A s (.next s) := .next (.refl A s)
/-- A command that cannot happen in the state leaves it as it is (log 10). -/
theorem Runs.stay_or {c : Prop} [Decidable c] (h : Runs A s o) : Runs A s (if c then .next s else o) :=
  ite_runs (fun _ => .stay) fun _ => h
theorem Runs.or_stay {c : Prop} [Decidable c] (h : Runs A s o) : Runs A s (if c then o else .next s) :=
  ite_runs (fun _ => h) fun _ => .stay
theorem Runs.after (h : Moves A s t) (h2 : Runs A t o) : Runs A s o := by
  obtain ⟨u, rfl, hu⟩ := h2
  exact ⟨u, rfl, h.after hu⟩
/-- The two masks of "all but `l`" have the same parts. -/
theorem Runs.allBut {l : List Comp} (h : Runs (offMask l) s o) : Runs (maskOf (allBut l)) s o := by
  obtain ⟨t, rfl, ht⟩ := h
  refine ⟨t, rfl, fun c hc => ht.same c ?_, ht.sent, ht.wf⟩
  simpa only [testBit_maskOf, testBit_offMask, mem_allBut] using hc

end

section
variable {A : Nat} {s : State} {q : Req} {obj : Nat} {f : State → Ans}

theorem dictWrite_runs (hf : ∀ t, Moves A s t → Moves A s (f t).st) (hA : Sub (maskOf asks) A) :
    Runs A s (.next (dictWrite s q obj f)) :=
  .next (dictWrite_moves _ _ _ _ (.refl _ _) hf (.trans (by decide) hA))
theorem dictAction_runs {v : Nat} (hf : ∀ t, Moves A s t → Moves A s (f t).st) (hA : Sub (maskOf asks) A) :
    Runs A s (.next (dictAction s q obj v f)) :=
  .next (dictAction_moves _ _ _ _ _ (.refl _ _) hf (.trans (by decide) hA))
theorem dictRead_runs (hf : ∀ t, Moves A s t → Moves A s (f t).st) (hA : Sub (maskOf asks) A) :
    Runs A s (.next (dictRead s q obj f)) :=
  .next (dictRead_moves _ _ _ _ (.refl _ _) hf (.trans (by decide) hA))

end

theorem foldl_mmoves {α : Type} {A : Nat} {m0 m : MemState} (xs : List α) (f : MemState → α → MemState) (h : MMoves A m0 m)
    (hf : ∀ x m, MMoves A m0 m → MMoves A m0 (f m x)) : MMoves A m0 (xs.foldl f m) := by
  induction xs generalizing m with
  | nil => exact h
  | cons x xs ih => exact ih (hf x m h)

theorem applyRecords_getD_moves {A : Nat} {s0 : State} (s : State) (hM : Moves A s0 s)
    (hA : Sub 497323236409786642155382248146820840100456150797347717440463976893159497012529088953302 A) :
    Moves A s0 ((applyRecords s).getD s) := by
  cases ht : applyRecords s with
  | none => exact hM
  | some t => exact applyRecords_moves s hM hA t ht

/-- What a loss of power and a reset keep, what a reset for heat or for recovery keeps, and what a write of any object keeps. -/
def resetKeeps : List Comp := [.pending, .outbox, .fresh]
def faultKeeps : List Comp := [.pending, .fresh]
def writeKeeps : List Comp := [.pending, .counter, .arrivals, .layers, .flash, .holds, .stopped, .dead]


/-! ### The cadence counter, PTP and `frame_in` -/

theorem execBeatStart_runs (s : State) :
    Runs (maskOf (asks ++ [.counter, .cores, .weir, .net] ++ objs [0x20, 0x51, 0x72, 0xF2])) s (execBeatStart s) :=
  .stay_or (.next (newBeat_moves _ (.refl _ _) (by decide +kernel)))

theorem execCadenceSet_runs (s : State) :
    Runs (maskOf (raises ++ [.counter, .net, .holds])) s (execCadenceSet s) := by
  unfold execCadenceSet
  split
  · exact .stay
  · refine .stay_or ?_
    refine ite_runs (fun _ => .next (corrected_moves _ (withCounter_moves _ (.refl _ _) ?_) ?_)) fun _ => .next
      (modPtp_moves _ _ (.refl _ _) ?_) <;> decide

theorem execPtpSyncRx_runs (port : Fin 8) (domain : BitVec 8) (server : BitVec 64) (seq : BitVec 16) (twoStep : Bool)
    (origin : BitVec 64) (ns : Fin 1000) (s : State) :
    Runs (maskOf (raises ++ [.net, .holds] ++ objs [0x40, 0x72])) s
      (execPtpSyncRx port domain server seq twoStep origin ns s) := by
  unfold execPtpSyncRx
  refine .after (rxFrame_moves _ _ (.refl _ _) (by decide)) (.stay_or ?_)
  refine .after (modPtp_moves _ _ (.refl _ _) (by decide)) (.stay_or ?_)
  refine ite_runs (fun _ => .next (modPtp_moves _ _ (.refl _ _) ?_)) fun _ => .next (ptpMeasure_moves _ _ _
    (.refl _ _) ?_) <;> decide

theorem execPtpAnnounceRx_runs (port : Fin 8) (domain : BitVec 8) (server : BitVec 64) (rank : List (BitVec 64))
    (steps : BitVec 16) (s : State) :
    Runs (maskOf (raises ++ [.net] ++ objs [0x72, 0x73])) s (execPtpAnnounceRx port domain server rank steps s) := by
  unfold execPtpAnnounceRx
  extract_lets t
  refine .after (t := t) (rxFrame_moves _ _ (.refl _ _) (by decide)) ?_
  refine .stay_or (.next (ptpChoose_moves _ (modPtp_moves _ _ (.refl _ _) ?_) ?_)) <;> decide

theorem execPtpDelayRespRx_runs (port : Fin 8) (domain : BitVec 8) (server : BitVec 64) (seq : BitVec 16)
    (received : BitVec 64) (s : State) :
    Runs (maskOf ([.net] ++ objs [0x72])) s (execPtpDelayRespRx port domain server seq received s) := by
  unfold execPtpDelayRespRx
  extract_lets t
  refine .after (t := t) (rxFrame_moves _ _ (.refl _ _) (by decide)) ?_
  split
  · exact .stay_or (.next (modPtp_moves _ _ (.refl _ _) (by decide)))
  · exact .stay

theorem execPtpLockLost_runs (s : State) :
    Runs (maskOf (raises ++ [.net] ++ objs [0x40])) s (execPtpLockLost s) :=
  .stay_or (.next (raise_moves _ _ _ _ _ (modPtp_moves _ _ (setReg_moves _ _ page_cadSyncState
    (.refl _ _) (by decide)) (by decide)) (by decide)))

theorem execHoldoverExpired_runs (s : State) :
    Runs (maskOf (raises ++ [.holds] ++ objs [0x40])) s (execHoldoverExpired s) :=
  .stay_or (.next (raise_moves _ _ _ _ _ (State_addHold_moves _ _ (setReg_moves _ _ page_cadSyncState
    (.refl _ _) (by decide)) (by decide)) (by decide)))

theorem execPpsInEdge_runs (ns : Fin 1000) (s : State) :
    Runs (maskOf raises) s (execPpsInEdge ns s) :=
  .or_stay (.next (raise_moves _ _ _ _ _ (.refl _ _) (by decide)))

theorem execFrameInEdge_runs (ns : Fin 1000) (s : State) :
    Runs (maskOf (raises ++ [.cores, .net] ++ objs [0x40])) s (execFrameInEdge ns s) := by
  unfold execFrameInEdge
  refine .stay_or ?_
  refine ite_runs (fun _ => .next (raise_moves _ _ _ _ _ (bump_moves _ _ page_cadFrameReject (.refl _ _) ?_) ?_))
    fun _ => .next (takeFrame_moves _ _ (modPtp_moves _ _ (bump_moves _ _ page_cadFrameCount
    (setReg_moves _ _ page_cadFrameLast (.refl _ _) ?_) ?_) ?_) ?_) <;> decide

theorem execFrameTimeout_runs (s : State) :
    Runs (maskOf (raises ++ [.net])) s (execFrameTimeout s) :=
  .stay_or (.next (raise_moves _ _ _ _ _ (modPtp_moves _ _ (.refl _ _) (by decide)) (by decide)))

/-! ### Tables, roles and plans -/

theorem execTblActivateWrite_runs (q : Req) (h : BitVec 64) (s : State) :
    Runs (maskOf (raises ++ [.tables, .mgt] ++ objs [0x14, 0x42])) s (execTblActivateWrite q h s) := by
  unfold execTblActivateWrite
  refine dictWrite_runs (fun _ h => tblActivateWrite_moves _ _ h ?_) ?_ <;> decide

theorem execTableActivationApply_runs (h : BitVec 64) (g : Fin 3) (s : State) :
    Runs (maskOf (raises ++ tiers ++ [.tables, .cores, .layers, .power, .rill] ++
      objs [0x21, 0x30, 0x41, 0x42, 0x44, 0x61, 0x70, 0x71])) s (execTableActivationApply h g s) := by
  refine .next ?_
  split
  · exact .refl _ _
  · exact tableApply_moves _ _ _ (.refl _ _) (by decide)

theorem execRoleReqWrite_runs (q : Req) (cl : Fin 16) (v : BitVec 8) (s : State) :
    Runs (maskOf (asks ++ [.clusters] ++ objs [0x41])) s (execRoleReqWrite q cl v s) := by
  unfold execRoleReqWrite
  refine dictWrite_runs (fun _ h => roleReqWrite_moves _ _ _ h ?_) ?_ <;> decide

theorem execRoleChangeApply_runs (cl : Fin 16) (s : State) :
    Runs (maskOf (raises ++ tiers ++ [.tables, .cores, .ledger] ++ objs [0x41, 0x42, 0x43, 0x44, 0x52, 0x61])) s
      (execRoleChangeApply cl s) :=
  .next (roleApply_moves _ _ (.refl _ _) (by decide))

theorem execTrainingPlanBuild_runs (s : State) :
    Runs (maskOf (raises ++ [.tables, .cores, .rill, .ledger] ++
      objs [0x34, 0x37, 0x38, 0x39, 0x3A, 0x3D, 0x3E, 0x41, 0x63])) s (execTrainingPlanBuild s) := by
  refine .next ?_
  split
  · exact .or_stay (planBuild_moves _ _ (.refl _ _) (by decide))
  · exact .refl _ _

theorem execMicrobatchBoundary_runs (cl : Fin 16) (s : State) :
    Runs (maskOf [.clusters]) s (execMicrobatchBoundary cl s) :=
  .stay_or (.next (modCluster_moves _ _ (.refl _ _) (by decide)))

theorem execLayerBoundary_runs (cl : Fin 16) (s : State) :
    Runs (maskOf [.cores, .clusters]) s (execLayerBoundary cl s) := by
  unfold execLayerBoundary
  split
  · exact .stay
  · extract_lets c nextLayer
    refine .stay_or (.after (t := nextLayer) (modCluster_moves _ _ (.refl _ _) (by decide)) ?_)
    refine .stay_or (.next (setHealth_moves _ _ _ (modCluster_moves _ _ (forAll_moves _ _ (.refl _ _) (fun _ _ h =>
      modCore_moves _ _ h ?_)) ?_) ?_)) <;> decide

/-! ### Entries of a core: products, vector operations, conversions and gradient tiles -/

theorem execFProduct_runs (core : Fin 256) (err : EntryErr) (peers : List (Nat × Scout)) (sideWait : Nat)
    (s : State) :
    Runs (maskOf (issues ++ objs [0x30, 0x34, 0x39, 0x3A, 0x3D])) s (execFProduct core err peers sideWait s) :=
  runEntry_moves _ _ _ _ (.refl _ _) (fKind_moves _ _ (by decide)) (by decide)

theorem execOutlierSideProduct_runs (core : Fin 256) (err : EntryErr) (s : State) :
    Runs (maskOf (issues ++ objs [0x39, 0x3A])) s (execOutlierSideProduct core err s) :=
  runEntry_moves _ _ _ _ (.refl _ _) (sideKind_moves (by decide)) (by decide)

theorem execBxProduct_runs (core : Fin 256) (err : EntryErr) (sideWait : Nat) (s : State) :
    Runs (maskOf (issues ++ objs [0x30, 0x34, 0x38, 0x39, 0x3A, 0x3D])) s (execBxProduct core err sideWait s) :=
  runEntry_moves _ _ _ _ (.refl _ _) (bxKind_moves _ (by decide)) (by decide)

theorem execBwProduct_runs (core : Fin 256) (err : EntryErr) (s : State) :
    Runs (maskOf (issues ++ objs [0x30, 0x34, 0x38, 0x39, 0x3A, 0x3D])) s (execBwProduct core err s) :=
  runEntry_moves _ _ _ _ (.refl _ _) (bwKind_moves (by decide)) (by decide)

theorem execBxBwPair_runs (core : Fin 256) (err : EntryErr) (sideWait : Nat) (s : State) :
    Runs (maskOf (issues ++ objs [0x30, 0x34, 0x38, 0x39, 0x3A, 0x3D])) s (execBxBwPair core err sideWait s) :=
  runEntry_moves _ _ _ _ (.refl _ _) (pairKind_moves _ (by decide)) (by decide)

theorem execVectorFn_runs (core : Fin 256) (err : EntryErr) (s : State) :
    Runs (maskOf (issues ++ objs [0x30, 0x34, 0x39])) s (execVectorFn core err s) :=
  runVector_moves _ _ _ _ _ (.refl _ _) (by decide)

theorem execVectorAdd_runs (core : Fin 256) (err : EntryErr) (s : State) :
    Runs (maskOf (issues ++ objs [0x30, 0x34, 0x39])) s (execVectorAdd core err s) :=
  runVector_moves _ _ _ _ _ (.refl _ _) (by decide)

theorem execVectorMul_runs (core : Fin 256) (err : EntryErr) (s : State) :
    Runs (maskOf (issues ++ objs [0x30, 0x34, 0x39])) s (execVectorMul core err s) :=
  runVector_moves _ _ _ _ _ (.refl _ _) (by decide)

theorem execVectorRowmax_runs (core : Fin 256) (err : EntryErr) (s : State) :
    Runs (maskOf (issues ++ objs [0x30, 0x34, 0x39])) s (execVectorRowmax core err s) :=
  runVector_moves _ _ _ _ _ (.refl _ _) (by decide)

theorem execVectorRowsum_runs (core : Fin 256) (err : EntryErr) (s : State) :
    Runs (maskOf (issues ++ objs [0x30, 0x34, 0x39])) s (execVectorRowsum core err s) :=
  runVector_moves _ _ _ _ _ (.refl _ _) (by decide)

theorem execVectorRecip_runs (core : Fin 256) (err : EntryErr) (s : State) :
    Runs (maskOf (issues ++ objs [0x30, 0x34, 0x39])) s (execVectorRecip core err s) :=
  runVector_moves _ _ _ _ _ (.refl _ _) (by decide)

theorem execVectorRsqrt_runs (core : Fin 256) (err : EntryErr) (s : State) :
    Runs (maskOf (issues ++ objs [0x30, 0x34, 0x39])) s (execVectorRsqrt core err s) :=
  runVector_moves _ _ _ _ _ (.refl _ _) (by decide)

theorem execVectorSubrow_runs (core : Fin 256) (err : EntryErr) (s : State) :
    Runs (maskOf (issues ++ objs [0x30, 0x34, 0x39])) s (execVectorSubrow core err s) :=
  runVector_moves _ _ _ _ _ (.refl _ _) (by decide)

theorem execVectorMulrow_runs (core : Fin 256) (err : EntryErr) (s : State) :
    Runs (maskOf (issues ++ objs [0x30, 0x34, 0x39])) s (execVectorMulrow core err s) :=
  runVector_moves _ _ _ _ _ (.refl _ _) (by decide)

theorem execSpillConvScaledToG_runs (core : Fin 256) (err : EntryErr) (s : State) :
    Runs (maskOf (issues ++ objs [0x30, 0x34])) s (execSpillConvScaledToG core err s) :=
  runConv_moves _ _ _ _ _ (.refl _ _) (fun _ _ _ _ _ h => conv1Form_moves _ _ _ _ h (by decide)) (by decide)

theorem execSpillQuantise_runs (core : Fin 256) (err : EntryErr) (peers : List (Nat × Scout)) (s : State) :
    Runs (maskOf (issues ++ objs [0x30, 0x34])) s (execSpillQuantise core err peers s) :=
  runConv_moves _ _ _ _ _ (.refl _ _) (fun _ _ _ _ _ h => conv2Form_moves _ _ _ _ _ h (by decide)) (by decide)

theorem execSpillConvWide_runs (core : Fin 256) (err : EntryErr) (s : State) :
    Runs (maskOf (issues ++ objs [0x30, 0x34, 0x38])) s (execSpillConvWide core err s) :=
  runConv_moves _ _ _ _ _ (.refl _ _) (fun _ _ _ _ _ h => conv3Form_moves _ _ _ _ h (by decide)) (by decide)

theorem execGradTileSpill_runs (core : Fin 256) (err : EntryErr) (s : State) :
    Runs (maskOf (issues ++ objs [0x38, 0x39])) s (execGradTileSpill core err s) :=
  runConv_moves _ _ _ _ _ (.refl _ _) (fun _ _ _ _ _ h => spillForm_moves _ _ _ _ h (by decide)) (by decide)

theorem execGradTileReload_runs (core : Fin 256) (err : EntryErr) (s : State) :
    Runs (maskOf (issues ++ objs [0x38, 0x39, 0x3A])) s (execGradTileReload core err s) :=
  runConv_moves _ _ _ _ _ (.refl _ _) (fun _ _ _ _ _ h => reloadForm_moves _ _ _ _ h (by decide)) (by decide)

/-! ### Armings, barriers and the end of a training step -/

theorem execStreamArm_runs (core : Fin 256) (s : State) :
    Runs (maskOf (raises ++ [.tables, .cores])) s (execStreamArm core s) :=
  armCommand_moves _ _ _ _ (.refl _ _) (fun _ _ _ t h ht => armEffect_moves _ _ _ _ h (by decide) t ht) (by decide)

theorem execStreamRearm_runs (core : Fin 256) (s : State) :
    Runs (maskOf (raises ++ [.tables, .cores] ++ objs [0x52])) s (execStreamRearm core s) :=
  armCommand_moves _ _ _ _ (.refl _ _) (fun _ _ _ t h ht => rearmEffect_moves _ _ _ _ h (by decide) t ht) (by decide)

theorem execStreamDisarm_runs (core : Fin 256) (s : State) :
    Runs (maskOf (raises ++ tiers ++ [.tables, .cores] ++ objs [0x52, 0x61])) s (execStreamDisarm core s) :=
  armCommand_moves _ _ _ _ (.refl _ _) (fun _ _ _ t h ht => disarmEffect_moves _ _ _ _ h (by decide) t ht) (by decide)

theorem execBarrierArrive_runs (src : ArriveSrc) (s : State) :
    Runs (maskOf (raises ++ [.tables, .arrivals, .cores] ++ objs [0x41])) s (execBarrierArrive src s) := by
  cases src with
  | entry core => exact .next (entryArrive_moves _ _ (.refl _ _) (by decide))
  | message b part slips late flags abort =>
    exact .next (messageArrive_moves _ _ _ _ _ _ _ (.refl _ _) (by decide))

theorem execBarrierComplete_runs (b : BitVec 16) (s : State) :
    Runs (maskOf ([.arrivals, .cores, .clusters, .memory] ++ objs [0x41])) s (execBarrierComplete b s) := by
  unfold execBarrierComplete
  split
  · exact .stay
  · exact .next (releaseBarrier_moves _ _ (.refl _ _) (by decide))

theorem execBarrierGraceExpired_runs (b : BitVec 16) (s : State) :
    Runs (maskOf raises) s (execBarrierGraceExpired b s) := by
  unfold execBarrierGraceExpired
  split
  · exact .stay
  · split
    · split
      · exact .next (graceOver_moves _ _ _ (.refl _ _) (by decide))
      · exact .stay
    · exact .stay

theorem execHealthBarrierComplete_runs (s : State) :
    Runs (maskOf (raises ++ [.tables, .arrivals, .cores, .layers, .memory, .ledger] ++ objs [0x41])) s
      (execHealthBarrierComplete s) := by
  unfold execHealthBarrierComplete
  split
  · refine .stay_or (.next (healthDone_moves _ _ _ _ _ (releaseBarrier_moves _ _ (checkReads_moves _ _ _
      (.refl _ _) ?_) ?_) ?_)) <;> decide
  · exact .stay

theorem execCommitBarrierComplete_runs (s : State) :
    Runs (maskOf (raises ++ [.arrivals, .cores, .memory, .ckpt, .ledger] ++ objs [0x3C, 0x41])) s
      (execCommitBarrierComplete s) := by
  unfold execCommitBarrierComplete
  split
  · extract_lets flags w due hold own released clean worded train ckpt phased noted
    refine .stay_or (.after (t := phased) (withCkpt_moves _ (withTrain_moves _ (setReg_moves _ _ page_stepHealth
      (releaseBarrier_moves _ _ (.refl _ _) (by decide)) (by decide)) (by decide)) (by decide)) ?_)
    refine .after (t := noted) (.or_stay (raise_moves _ _ _ _ _ (.refl _ _) (by decide))) ?_
    exact .next (ledgerPhase_moves _ _ _ (.refl _ _) (by decide))
  · exact .stay

theorem execStepCommit_runs (s : State) :
    Runs (maskOf (raises ++ tiers ++ [.arrivals, .cores, .layers, .net, .ckpt, .ledger, .holds] ++
      objs [0x3C, 0x41, 0x44, 0x52, 0x61, 0x72, 0xA0, 0xA2, 0xA3])) s (execStepCommit s) := by
  unfold execStepCommit
  split
  · exact .stay
  · exact .stay_or (.next (commitStep_moves _ _ (.refl _ _) (by decide)))

theorem execStepDiscard_runs (s : State) :
    Runs (maskOf (raises ++ tiers ++ [.arrivals, .cores, .layers, .rill, .net, .ckpt, .ledger] ++
      objs [0x3C, 0x52, 0x61, 0x72, 0xA0, 0xA2, 0xA3])) s (execStepDiscard s) := by
  unfold execStepDiscard
  refine ite_runs (fun _ => .next (discardStep_moves _ _ (withTrain_moves _ (.refl _ _) (by decide)) (by decide)))
    fun _ => ?_
  exact .stay_or (.next (discardStep_moves _ _ (.refl _ _) (by decide)))

theorem execEntryComplete_runs (core : Fin 256) (i : BitVec 8) (s : State) :
    Runs (maskOf (raises ++ [.cores] ++ objs [0x37, 0x38, 0x3E, 0x41])) s (execEntryComplete core i s) := by
  unfold execEntryComplete
  split
  · exact .stay
  · refine .stay_or ?_
    refine ite_runs (fun _ => .next (finishEntry_moves _ _ _ (entrySlip_moves _ _ _ (writeMirror_moves _ _ _
      (countEntry_moves _ _ _ (pushOut_moves _ _ _ _ (.refl _ _) ?_) ?_) ?_) ?_) ?_)) fun _ => .next
      (modCore_moves _ _ (pushOut_moves _ _ _ _ (.refl _ _) ?_) ?_) <;> decide

theorem execSegmentClose_runs (core : Fin 256) (base : BitVec 32) (s : State) :
    Runs (maskOf ([.cores] ++ objs [0x39, 0x3A])) s (execSegmentClose core base s) :=
  .or_stay (.next (closeSegment_moves _ _ _ (.refl _ _) (by decide)))

/-! ### Entries of the update, router, sampling, LUT and reduction units -/

theorem execUpdateOptimiser_runs (core : Fin 256) (err : EntryErr) (s : State) :
    Runs (maskOf (issues ++ objs [0x30, 0x34])) s (execUpdateOptimiser core err s) :=
  runUpdate_moves _ _ _ _ _ (.refl _ _) (fun _ _ _ _ _ h => optimiserForm_moves _ _ _ _ h (by decide)) (by decide)

theorem execUpdateNarrowCopy_runs (core : Fin 256) (err : EntryErr) (peers : List (Nat × Scout)) (s : State) :
    Runs (maskOf (issues ++ objs [0x30, 0x34])) s (execUpdateNarrowCopy core err peers s) :=
  runUpdate_moves _ _ _ _ _ (.refl _ _) (fun _ _ _ _ _ h => narrowForm_moves _ _ _ _ _ h (by decide)) (by decide)

theorem execUpdateSideWeight_runs (core : Fin 256) (err : EntryErr) (s : State) :
    Runs (maskOf (issues ++ objs [0x30, 0x34])) s (execUpdateSideWeight core err s) :=
  runUpdate_moves _ _ _ _ _ (.refl _ _) (fun _ _ _ _ _ h => sideWeightForm_moves _ _ _ _ h (by decide)) (by decide)

theorem execRouterSelect_runs (core : Fin 256) (err : EntryErr) (s : State) :
    Runs (maskOf (issues ++ objs [0x39, 0x3E])) s (execRouterSelect core err s) :=
  runRouter_moves _ _ _ _ _ (.refl _ _) (fun _ _ _ _ _ h => selectForm_moves _ _ _ _ h (by decide)) (by decide)

theorem execRouterCombine_runs (core : Fin 256) (err : EntryErr) (s : State) :
    Runs (maskOf (issues ++ objs [0x30, 0x34, 0x39])) s (execRouterCombine core err s) :=
  runRouter_moves _ _ _ _ _ (.refl _ _) (fun _ _ _ _ _ h => combineForm_moves _ _ _ _ h (by decide)) (by decide)

theorem execRouterScatter_runs (core : Fin 256) (err : EntryErr) (s : State) :
    Runs (maskOf (issues ++ objs [0x30, 0x34, 0x38, 0x39])) s (execRouterScatter core err s) :=
  runRouter_moves _ _ _ _ _ (.refl _ _) (fun _ _ _ _ _ h => scatterForm_moves _ _ _ _ h (by decide)) (by decide)

theorem execRouterReturn_runs (core : Fin 256) (err : EntryErr) (s : State) :
    Runs (maskOf (issues ++ objs [0x30, 0x34, 0x38, 0x39])) s (execRouterReturn core err s) :=
  runRouter_moves _ _ _ _ _ (.refl _ _) (fun _ _ _ _ _ h => returnForm_moves _ _ _ _ h (by decide)) (by decide)

theorem execLutProduct_runs (core : Fin 256) (err : EntryErr) (peers : List (Nat × Scout)) (s : State) :
    Runs (maskOf (issues ++ objs [0x30, 0x34, 0x39, 0x3A])) s (execLutProduct core err peers s) :=
  runEntry_moves _ _ _ _ (.refl _ _) (lKind_moves _ (by decide)) (by decide)

theorem execSamplingSample_runs (core : Fin 256) (err : EntryErr) (s : State) :
    Runs (maskOf (issues ++ [.fresh] ++ objs [0x39])) s (execSamplingSample core err s) :=
  runUnit_moves _ _ _ _ _ _ (.refl _ _) (sKind_moves (fun _ _ _ _ _ h => sampleForm_moves _ _ _ _
    h (by decide))) (by decide)

theorem execSamplingScore_runs (core : Fin 256) (err : EntryErr) (s : State) :
    Runs (maskOf (issues ++ [.fresh] ++ objs [0x39])) s (execSamplingScore core err s) :=
  runUnit_moves _ _ _ _ _ _ (.refl _ _) (sKind_moves (fun _ _ _ _ _ h => scoreForm_moves _ _ _ _
    h (by decide))) (by decide)

theorem execReductionSend_runs (core : Fin 256) (err : EntryErr) (s : State) :
    Runs (maskOf (issues ++ [.rill] ++ objs [0x39, 0x70])) s (execReductionSend core err s) :=
  runEntry_moves _ _ _ _ (.refl _ _) (sendKind_moves (by decide)) (by decide)

theorem execReductionReceive_runs (core : Fin 256) (err : EntryErr) (s : State) :
    Runs (maskOf (issues ++ [.rill] ++ objs [0x39])) s (execReductionReceive core err s) :=
  runEntry_moves _ _ _ _ (.refl _ _) (recvKind_moves (by decide)) (by decide)

/-! ### The rollout step and epochs -/

theorem execRolloutStepBoundary_runs (s : State) :
    Runs (maskOf (raises ++ tiers ++ [.tables, .arrivals, .cores, .layers, .power, .rill, .ledger, .holds] ++
      objs [0x21, 0x30, 0x41, 0x42, 0x43, 0x44, 0x52, 0x61, 0x70, 0x71])) s (execRolloutStepBoundary s) := by
  unfold execRolloutStepBoundary
  refine .stay_or ?_
  split
  · refine .stay_or (.next (boundaryRows_moves _ (withRoll_moves _ (completeStep_moves _ (.refl _ _) ?_) ?_) ?_))
      <;> decide
  · exact .stay_or (.next (boundaryRows_moves _ (.refl _ _) (by decide)))
  · exact .stay

theorem execRolloutStepOrigin_runs (s : State) :
    Runs (maskOf (raises ++ [.tables, .cores, .cells] ++
      objs [0x30, 0x34, 0x37, 0x38, 0x39, 0x3A, 0x3D, 0x3E, 0x41, 0x43, 0x44, 0x63])) s (execRolloutStepOrigin s) :=
  .stay_or (.next (ite_moves (fun _ => rollOrigin_moves _ (.refl _ _) (by decide)) fun _ => ringCheck_moves _
    (.refl _ _) (by decide)))

theorem execRolloutStepDiscard_runs (s : State) :
    Runs (maskOf (raises ++ tiers ++ [.arrivals, .cores, .ledger] ++ objs [0x44, 0x52, 0x61])) s
      (execRolloutStepDiscard s) := by
  refine .stay_or (.next (withRoll_moves _ (bump_moves _ _ page_rollDiscards (rollEnd_moves _ _ (forAll_moves _ _
    (forSlots_moves _ _ (.refl _ _) (fun _ _ _ h => modSlot_moves _ _ _ _ (unsealSlot_moves _ _ _ h ?_) ?_) ?_)
    (fun _ _ h => dropStoppedEncoding_moves _ _ h ?_)) ?_) ?_) ?_)) <;> decide

theorem execRollCancelWrite_runs (q : Req) (v : BitVec 64) (s : State) :
    Runs (maskOf (raises ++ [.cores, .mgt] ++ objs [0x14, 0x52])) s (execRollCancelWrite q v s) := by
  unfold execRollCancelWrite
  refine dictWrite_runs (fun _ h => rollCancelWrite_moves _ _ h ?_) ?_ <;> decide

theorem execEpochReadyWrite_runs (q : Req) (v : BitVec 64) (s : State) :
    Runs (maskOf (raises ++ [.mgt] ++ objs [0x14, 0x44])) s (execEpochReadyWrite q v s) := by
  unfold execEpochReadyWrite
  refine dictWrite_runs (fun _ h => epochReadyWrite_moves _ _ h ?_) ?_ <;> decide

theorem execEpochPublishCopyDone_runs (copy : List (BitVec 64 × BitVec 64)) (s : State) :
    Runs (maskOf (raises ++ [.cells] ++ objs [0x41, 0x44])) s (execEpochPublishCopyDone copy s) := by
  unfold execEpochPublishCopyDone
  split
  · exact .stay
  · extract_lets gone copied train published
    refine .stay_or (.after (t := published) (withTrain_moves _ (.stay_or (setReg_moves _ _ page_epochShadow
      (copyWeights_moves _ _ (.refl _ _) (by decide)) (by decide))) (by decide)) ?_)
    exact .next (.or_stay (forAll_moves _ _ (.refl _ _) (fun _ _ h => noteSlip_moves _ _ _ h (by decide))))

/-! ### Streams and Sluices -/

theorem execStreamStart_runs (core : Fin 256) (ctx : Fin 48) (s : State) :
    Runs (maskOf (raises ++ tiers ++ [.tables, .cores, .weir, .ledger] ++ objs [0x3D, 0x52, 0x60, 0x61, 0x63])) s
      (execStreamStart core ctx s) :=
  .stay_or (.next (tryRequest_moves _ _ _ (modCtx_moves _ _ _ _ (.refl _ _) (by decide)) (by decide)))

theorem execStreamRequestIssue_runs (core : Fin 256) (ctx : Fin 48) (ue : Bool) (s : State) :
    Runs (maskOf (raises ++ tiers ++ [.tables, .cores, .weir, .ledger] ++ objs [0x3D, 0x52, 0x60, 0x61, 0x63])) s
      (execStreamRequestIssue core ctx ue s) := by
  unfold execStreamRequestIssue
  split
  · exact .stay
  · refine ite_runs (fun _ => .next (haltUe_moves _ _ _ (.refl _ _) ?_)) fun _ => .next (tryRequest_moves _ _ _
      (.refl _ _) ?_) <;> decide

theorem execMemoryReadComplete_runs (core : Fin 256) (ctx : Fin 48) (st : WordStat) (s : State) :
    Runs (maskOf (raises ++ tiers ++ [.fresh, .cores, .ledger] ++ objs [0x3D, 0x52, 0x60, 0x61])) s
      (execMemoryReadComplete core ctx st s) := by
  unfold execMemoryReadComplete
  split
  · extract_lets r lost read back w joined last pushed landed
    refine .stay_or (.after (t := read) (flightStat_moves _ _ _ _ (.refl _ _) (by decide)) ?_)
    refine ite_runs (fun _ => ?_) fun _ => ?_
    · clear_value lost
      split
      · refine .next (haltUe_moves _ _ _ (rewind_moves _ _ _ (loseItem_moves _ _ _ (.refl _ _) ?_) ?_) ?_) <;> decide
      · refine .after (t := back) (rewind_moves _ _ _ (.refl _ _) (by decide)) ?_
        refine ite_runs (fun _ => .next (haltUe_moves _ _ _ (.refl _ _) ?_)) fun _ => .next
          (bump_moves _ _ (page_strmRefetches _) (modCtx_moves _ _ _ _ (.refl _ _) ?_) ?_) <;> decide
    · refine .after (t := landed) (modCtx_moves _ _ _ _ (modSlu_moves _ _ _ _ (joinBits_moves _ _ _
        (.refl _ _) (by decide)) (by decide)) (by decide)) ?_
      exact .next (.or_stay (commitLoad_moves _ _ _ _ (.refl _ _) (by decide)))
  · exact .stay

theorem execStoreWriteAck_runs (core : Fin 256) (ctx : Fin 48) (s : State) :
    Runs (maskOf (raises ++ tiers ++ [.cores, .ledger] ++ objs [0x61])) s (execStoreWriteAck core ctx s) := by
  unfold execStoreWriteAck
  split
  · extract_lets landed q r done released counted
    refine .stay_or (.after (t := counted) (modCtx_moves _ _ _ _ (modCore_moves _ _ (landPuts_moves _ _ _
      (.refl _ _) (by decide)) (by decide)) (by decide)) ?_)
    exact .next (.stay_or (packetDone_moves _ _ _ _ (.refl _ _) (by decide)))
  · exact .stay

theorem execTranslationWalkComplete_runs (core : Fin 256) (ctx : Fin 48) (bad : Option (Fin 3)) (s : State) :
    Runs (maskOf (raises ++ tiers ++ [.fresh, .cores, .weir] ++ objs [0x52, 0x60, 0x61])) s
      (execTranslationWalkComplete core ctx bad s) := by
  unfold execTranslationWalkComplete
  split
  · exact .or_stay (.next (finishWalk_moves _ _ _ _ _ _ (.refl _ _) (by decide)))
  · exact .stay

theorem execStrmResumeWrite_runs (q : Req) (v : BitVec 8) (s : State) :
    Runs (maskOf (raises ++ tiers ++ [.fresh, .cores, .weir, .mgt] ++ objs [0x14, 0x50, 0x52, 0x60, 0x61])) s
      (execStrmResumeWrite q v s) :=
  dictAction_runs (fun _ h => strmResumeWrite_moves _ h (by decide)) (by decide)

theorem execFqTailWrite_runs (q : Req) (v : BitVec 32) (s : State) :
    Runs (maskOf (asks ++ tiers ++ objs [0x61])) s (execFqTailWrite q v s) := by
  unfold execFqTailWrite
  refine dictWrite_runs (fun _ h => fqTailWrite_moves _ _ h ?_) ?_ <;> decide

theorem execSluiceDropRem_runs (src : CmdSrc) (s : State) :
    Runs (maskOf (raises ++ tiers ++ [.cores, .mgt, .ledger] ++ objs [0x14, 0x50, 0x52, 0x61])) s
      (execSluiceDropRem src s) := by
  cases src with
  | unit core sl =>
    exact .next (unitCommand_moves _ _ _ _ _ (.refl _ _) (fun _ _ _ h => dropRem_moves _ _ _ h (by decide)) (by decide))
  | software q =>
    exact dictWrite_runs (fun _ h => sluCommand_moves _ _ _ h (fun _ _ _ h => dropRem_moves _ _ _ h (by decide)) (by decide))
      (by decide)

theorem execSluiceFlush_runs (src : CmdSrc) (s : State) :
    Runs (maskOf (raises ++ tiers ++ [.cores, .mgt] ++ objs [0x14, 0x50, 0x52, 0x61])) s (execSluiceFlush src s) := by
  cases src with
  | unit core sl =>
    exact .next (unitCommand_moves _ _ _ _ _ (.refl _ _) (fun _ _ _ h => flushAsk_moves _ _ _ h (by decide)) (by decide))
  | software q =>
    exact dictWrite_runs (fun _ h => sluCommand_moves _ _ _ h (fun _ _ _ h => flushAsk_moves _ _ _ h (by decide)) (by decide))
      (by decide)

theorem execSluiceFlushApply_runs (core : Fin 256) (sl : Fin 16) (s : State) :
    Runs (maskOf (raises ++ tiers ++ [.cores] ++ objs [0x52, 0x61])) s (execSluiceFlushApply core sl s) :=
  .or_stay (.next (flushNow_moves _ _ _ (.refl _ _) (by decide)))

theorem execSluiceReset_runs (src : CmdSrc) (s : State) :
    Runs (maskOf (raises ++ tiers ++ [.cores, .mgt] ++ objs [0x14, 0x50, 0x61])) s (execSluiceReset src s) := by
  cases src with
  | unit core sl =>
    exact .next (unitCommand_moves _ _ _ _ _ (.refl _ _) (fun _ _ _ h => resetSlu_moves _ _ _ h (by decide)) (by decide))
  | software q =>
    exact dictWrite_runs (fun _ h => sluCommand_moves _ _ _ h (fun _ _ _ h => resetSlu_moves _ _ _ h (by decide)) (by decide))
      (by decide)

theorem execSluNarrowDataWrite_runs (q : Req) (v : BitVec 32) (s : State) :
    Runs (maskOf (raises ++ [.cores, .mgt] ++ objs [0x14])) s (execSluNarrowDataWrite q v s) := by
  unfold execSluNarrowDataWrite
  refine dictWrite_runs (fun _ h => sluNarrowDataWrite_moves _ _ h ?_) ?_ <;> decide

theorem execSluNarrowCloseWrite_runs (q : Req) (v : BitVec 8) (s : State) :
    Runs (maskOf (raises ++ [.cores, .mgt] ++ objs [0x14])) s (execSluNarrowCloseWrite q v s) := by
  unfold execSluNarrowCloseWrite
  refine dictWrite_runs (fun _ h => sluNarrowCloseWrite_moves _ _ h ?_) ?_ <;> decide

theorem execDeadlockPreempt_runs (core : Fin 256) (s : State) :
    Runs (maskOf (raises ++ tiers ++ [.cores] ++ objs [0x52])) s (execDeadlockPreempt core s) := by
  unfold execDeadlockPreempt
  extract_lets c p noted n counted
  refine .stay_or (.after (t := counted) (modCore_moves _ _ (raise_moves _ _ _ _ _ (bump_moves _ _ (page_strmDeadlocks _)
    (preempt_moves _ _ (.refl _ _) (by decide)) (by decide)) (by decide)) (by decide)) ?_)
  refine .stay_or (.next (raise_moves _ _ _ _ _ (modCore_moves _ _ (.refl _ _) ?_) ?_)) <;> decide

/-! ### Retirement, scrubbing, translation, the page mover and the Siphon -/

theorem execMemRetireWrite_runs (q : Req) (v : BitVec 16) (s : State) :
    Runs (maskOf (raises ++ [.memory, .mgt] ++ objs [0x14, 0x60])) s (execMemRetireWrite q v s) := by
  unfold execMemRetireWrite
  refine dictWrite_runs (fun _ h => memRetireWrite_moves _ _ h ?_) ?_ <;> decide

theorem execRetireRebuildStart_runs (s : State) :
    Runs (maskOf (tiers ++ [.cores, .clusters, .holds] ++ objs [0x52, 0x60])) s (execRetireRebuildStart s) :=
  .stay_or (.next (setReg_moves _ _ page_memRetireState (stopRewind_moves _ (State_addHold_moves _ _
    (.refl _ _) (by decide)) (by decide)) (by decide)))

theorem execRetireRebuildDone_runs (bad : List Nat) (s : State) :
    Runs (maskOf (raises ++ tiers ++ [.cores, .holds] ++ objs [0x60])) s (execRetireRebuildDone bad s) := by
  unfold execRetireRebuildDone
  split
  · exact .stay
  · extract_lets obj marked copied noted
    refine .stay_or (.after (t := noted) (forAll_moves _ _ (setReg_moves _ _ (page_memRetiredC0_add _) (.refl _ _)
      (by decide)) fun _ _ h => noteUe_moves _ _ h (by decide)) ?_)
    refine .next (raise_moves _ _ _ _ _ (setReg_moves _ _ page_memRetireState (State_dropHold_moves _ _
      (State_mapCores_moves _ _ (withMem_moves (.refl _ _) ((rebuilt_moves _ _ _ _ _ (.refl _ _) ?_).rest rfl rfl ?_))
      ?_) ?_) ?_) ?_) <;> decide

theorem execScrubWord_runs (addr : BitVec 48) (st : WordStat) (odecc : BitVec 32) (s : State) :
    Runs (maskOf (raises ++ [.memory, .weir] ++ objs [0x60])) s (execScrubWord addr st odecc s) := by
  unfold execScrubWord
  extract_lets a
  split
  · refine .stay_or ?_
    refine ite_runs (fun _ => .next (withMem_moves (readStat_moves _ _ _ _ (sysDraw_moves _ _ _ (.refl _ _) ?_) ?_)
      (mem_rest rfl rfl ?_))) fun _ => .next (readStat_moves _ _ _ _ (sysDraw_moves _ _ _ (.refl _ _) ?_) ?_)
      <;> decide
  · exact .stay

theorem execCxlExpanderLost_runs (port : Fin 2) (s : State) :
    Runs (maskOf (raises ++ [.memory])) s (execCxlExpanderLost port s) :=
  .stay_or (.next (raise_moves _ _ _ _ _ (withMem_moves (.refl _ _) (mem_rest rfl rfl (by decide))) (by decide)))

theorem execXlatInvalWrite_runs (q : Req) (v : BitVec 64) (s : State) :
    Runs (maskOf (asks ++ [.memory] ++ objs [0x61])) s (execXlatInvalWrite q v s) := by
  unfold execXlatInvalWrite
  refine dictWrite_runs (fun _ h => xlatInvalWrite_moves _ _ h ?_) ?_ <;> decide

theorem execXlatInvalDone_runs (s : State) :
    Runs (maskOf ([.cores, .memory] ++ objs [0x61])) s (execXlatInvalDone s) := by
  unfold execXlatInvalDone
  split
  · refine .stay_or (.next (setReg_moves _ _ page_xlatInvalState (withMem_moves (State_mapCores_moves _ _
      (.refl _ _) ?_) (mem_rest rfl rfl ?_)) ?_)) <;> decide
  · exact .stay

theorem execPageMoveGo_runs (q : Req) (v : BitVec 8) (s : State) :
    Runs (maskOf (asks ++ [.memory] ++ objs [0x62])) s (execPageMoveGo q v s) :=
  dictAction_runs (fun _ h => pageMoveGo_moves _ h (by decide)) (by decide)

theorem execPageMoveDone_runs (bad : List Nat) (s : State) :
    Runs (maskOf (tiers ++ [.fresh] ++ objs [0x60, 0x62])) s (execPageMoveDone bad s) := by
  unfold execPageMoveDone
  split
  · exact .stay
  · extract_lets bad dirty pois noted copied poisonedToo moved
    refine .after (t := noted) (forAll_moves _ _ (.refl _ _) fun _ _ h => noteUe_moves _ _ h (by decide)) ?_
    refine .after (t := moved) (withMem_moves (.refl _ _) (.rest (foldl_mmoves _ _ (seenByAll_moves _ _ _
      (movePage_moves _ _ _ _ (.refl _ _) (by decide)) (by decide)) fun _ _ h => setPoison_moves _ h (by decide))
      rfl rfl (by decide))) ?_
    refine .next (setReg_moves _ _ page_xlatMoveState (withMem_moves (forAll_moves _ _ (.refl _ _)
      fun _ _ h => freeBytes_moves _ _ _ h ?_) (mem_rest rfl rfl ?_)) ?_) <;> decide

theorem execSiphonItemPlace_runs (cl : Fin 16) (ue : Bool) (s : State) :
    Runs (maskOf (raises ++ [.tables, .cells, .poison] ++ objs [0x30, 0x60, 0x63])) s (execSiphonItemPlace cl ue s) :=
  siphonCommand_moves _ _ _ (.refl _ _) (fun _ _ h => placeNext_moves _ _ _ _ h (by decide)) (by decide)

theorem execSiphonPrefetchStart_runs (cl : Fin 16) (s : State) :
    Runs (maskOf (raises ++ [.tables])) s (execSiphonPrefetchStart cl s) :=
  siphonCommand_moves _ _ _ (.refl _ _) (fun _ _ h => prefetchStart_moves _ _ _ h (by decide)) (by decide)

/-! ### Rill ports and routes -/

theorem execRillFlitRx_runs (port : Fin 6) (r : FlitRx) (s : State) :
    Runs (maskOf (raises ++ [.cores, .cells, .weir, .rill, .ledger] ++ objs [0x70, 0x71])) s
      (execRillFlitRx port r s) := by
  unfold execRillFlitRx
  extract_lets p f counted heard taken
  refine .stay_or (.after (t := counted) (bump_moves _ _ (page_rillPCe _) (.refl _ _) (by decide)) ?_)
  refine ite_runs (fun _ => .next (refuseFlit_moves _ _ _ _ (.refl _ _) (by decide))) fun _ => ?_
  refine .after (t := taken) (takeTrailer_moves _ _ _ _ _ _ (State_modPort_moves _ _ _ (.refl _ _) (by decide))
    (by decide)) (.stay_or ?_)
  refine ite_runs (fun _ => .next (State_modPort_moves _ _ _ (.refl _ _) (by decide))) fun _ => ?_
  refine .stay_or (.next (takeFlit_moves _ _ _ _ (State_modPort_moves _ _ _ (.refl _ _) ?_) ?_)) <;> decide

theorem execRillSlot_runs (port : Fin 6) (slot : Fin 20) (s : State) :
    Runs (maskOf (raises ++ [.weir, .rill] ++ objs [0x70, 0x71])) s (execRillSlot port slot s) := by
  unfold execRillSlot
  extract_lets held
  refine .stay_or (.after (t := held) (ite_moves (fun _ => releaseHeld_moves _ _ (.refl _ _) (by decide)) fun _ =>
    holdOwn_moves _ _ _ _ (holdQueued_moves _ _ (.refl _ _) (by decide)) (by decide)) ?_)
  refine .next (.or_stay (idleFlit_moves _ _ _ (slotFlits_moves _ _ _ _ (.refl _ _) ?_) ?_)) <;> decide

theorem execRillTrainingDone_runs (port : Fin 6) (good : BitVec 18) (nbr : BitVec 15) (s : State) :
    Runs (maskOf (raises ++ [.rill] ++ objs [0x70, 0x71])) s (execRillTrainingDone port good nbr s) := by
  unfold execRillTrainingDone
  extract_lets p n full lanes neighbour credited known
  refine .stay_or (.after (t := lanes) (setReg_moves _ _ (page_rillPFailed _) (setReg_moves _ _ (page_rillPLanes _)
    (setReg_moves _ _ (page_rillPState _) (.refl _ _) (by decide)) (by decide)) (by decide)) ?_)
  refine .after (t := known) (checkNeighbour_moves _ _ (State_emit_moves _ _ (State_modPort_moves _ _ _
    (setReg_moves _ _ (page_rillPNbr _) (.refl _ _) (by decide)) (by decide)) (by decide)) (by decide)) ?_
  exact .next (.or_stay (releaseHeld_moves _ _ (.refl _ _) (by decide)))

theorem execRillTrainingTimeout_runs (port : Fin 6) (s : State) :
    Runs (maskOf (raises ++ [.rill] ++ objs [0x71])) s (execRillTrainingTimeout port s) := by
  unfold execRillTrainingTimeout
  refine .stay_or ?_
  refine ite_runs (fun _ => .next (State_modPort_moves _ _ _ (.refl _ _) ?_)) fun _ => .next (portDown_moves _ _
    (.refl _ _) ?_) <;> decide

theorem execRillLaneLockLoss_runs (port : Fin 6) (lane : Fin 18) (s : State) :
    Runs (maskOf (objs [0x71])) s (execRillLaneLockLoss port lane s) :=
  .stay_or (.next (laneCheck_moves _ _ (.refl _ _) (by decide)))

theorem execRillLaneErrorLimit_runs (port : Fin 6) (lane : Fin 18) (errors : BitVec 32) (s : State) :
    Runs (maskOf (objs [0x71])) s (execRillLaneErrorLimit port lane errors s) :=
  .or_stay (.next (laneCheck_moves _ _ (.refl _ _) (by decide)))

theorem execRillRemapDone_runs (port : Fin 6) (good : BitVec 18) (s : State) :
    Runs (maskOf (raises ++ [.rill] ++ objs [0x70, 0x71])) s (execRillRemapDone port good s) := by
  unfold execRillRemapDone
  extract_lets p n marked was lanes up counted ready
  refine .stay_or (.after (t := marked) (setReg_moves _ _ (page_rillPFailed _) (.refl _ _) (by decide)) ?_)
  refine ite_runs (fun _ => .next (downWithQueues_moves _ _ (.refl _ _) (by decide))) fun _ => ?_
  refine .after (t := ready) (State_modPort_moves _ _ _ (bump_moves _ _ (page_rillPReplays _)
    (setReg_moves _ _ (page_rillPLanes _) (setReg_moves _ _ (page_rillPState _)
    (.refl _ _) (by decide)) (by decide)) (by decide)) (by decide)) ?_
  refine .next (ite_moves (fun _ => raise_moves _ _ _ _ _ (.refl _ _) ?_) fun _ => raise_moves _ _ _ _ _
    (.refl _ _) ?_) <;> decide

theorem execRillRetrainWrite_runs (q : Req) (port : Fin 6) (v : BitVec 8) (s : State) :
    Runs (maskOf (asks ++ [.rill] ++ objs [0x71])) s (execRillRetrainWrite q port v s) :=
  dictAction_runs (fun _ h => rillRetrainWrite_moves _ _ h (by decide)) (by decide)

theorem execRillAltSelWrite_runs (q : Req) (v : BitVec 8) (s : State) :
    Runs (maskOf (raises ++ [.mgt, .rill] ++ objs [0x14, 0x70])) s (execRillAltSelWrite q v s) := by
  unfold execRillAltSelWrite
  refine dictWrite_runs (fun _ h => rillAltSelWrite_moves _ _ h ?_) ?_ <;> decide

theorem execRouteBarrierComplete_runs (s : State) :
    Runs (maskOf (raises ++ [.arrivals, .cores, .memory, .rill] ++ objs [0x41, 0x70, 0x71])) s
      (execRouteBarrierComplete s) := by
  unfold execRouteBarrierComplete
  split
  · exact .stay
  · refine .stay_or (.next (raise_moves _ _ _ _ _ (bump_moves _ _ page_rillRouteGen (refreshRoutes_moves _
      (withRill_moves _ (setReg_moves _ _ page_rillAltActive ?released ?_) ?_) ?_) ?_) ?_))
    case released =>
      split
      · exact releaseBarrier_moves _ _ (.refl _ _) (by decide)
      · exact .refl _ _
    all_goals decide

/-! ### Ethernet ports and queue pairs -/

theorem execEthPortEnable_runs (q : Req) (p : Fin 8) (s : State) :
    Runs (maskOf (raises ++ [.mgt, .net, .ckpt] ++ objs [0x14, 0x72, 0x73, 0x74, 0x81])) s
      (execEthPortEnable q p s) := by
  unfold execEthPortEnable
  refine dictWrite_runs (fun _ h => ethEnableWrite_moves _ _ _ h ?_) ?_ <;> decide

theorem execEthPortDisable_runs (q : Req) (p : Fin 8) (s : State) :
    Runs (maskOf (raises ++ [.mgt, .net, .ckpt] ++ objs [0x14, 0x72, 0x73, 0x74, 0x81])) s
      (execEthPortDisable q p s) := by
  unfold execEthPortDisable
  refine dictWrite_runs (fun _ h => ethEnableWrite_moves _ _ _ h ?_) ?_ <;> decide

theorem execEthLinkUp_runs (p : Fin 8) (sync : Bool) (s : State) :
    Runs (maskOf (raises ++ [.net] ++ objs [0x72, 0x74])) s (execEthLinkUp p sync s) :=
  .stay_or (.next (tryUp_moves _ _ (State_modEth_moves _ _ _ (.refl _ _) (by decide)) (by decide)))

theorem execEthLinkDown_runs (p : Fin 8) (s : State) :
    Runs (maskOf (raises ++ [.net, .ckpt] ++ objs [0x72, 0x73, 0x74, 0x81])) s (execEthLinkDown p s) := by
  unfold execEthLinkDown
  refine ite_runs (fun _ => .next (ethLeave_moves _ _ _ (.refl _ _) (by decide))) fun _ => ?_
  exact .or_stay (.next (State_modEth_moves _ _ _ (.refl _ _) (by decide)))

theorem execEthTrainingTimeout_runs (p : Fin 8) (s : State) :
    Runs (maskOf ([.net] ++ objs [0x72])) s (execEthTrainingTimeout p s) :=
  .or_stay (.next (ethState_moves _ _ _ (.refl _ _) (by decide)))

theorem execEthDownRetry_runs (p : Fin 8) (s : State) :
    Runs (maskOf ([.net] ++ objs [0x72])) s (execEthDownRetry p s) :=
  .or_stay (.next (ethTrain_moves _ _ (.refl _ _) (by decide)))

theorem execRoceWriteRx_runs (h : RoceHdr) (first : Option RoceAddr) (last : Bool) (bytes : List Byte) (s : State) :
    Runs (maskOf (raises ++ tiers ++ [.net, .ckpt] ++ objs [0x72, 0x74, 0x81, 0xA0, 0xA2, 0xA3])) s
      (execRoceWriteRx h first last bytes s) := by
  refine .next (rxOrdered_moves _ _ _ (rxFrame_moves _ _ (.refl _ _) (by decide)) (fun _ _ h => ?_) (by decide))
  cases first with
  | none => exact regionWrite_moves _ _ _ _ _ _ h (by decide)
  | some a =>
    refine ite_moves (fun _ => ite_moves (fun _ => mbxWrite_moves _ _ _ _ _ h ?_) fun _ => accessNak_moves _ _ _ h ?_)
      fun _ => regionWrite_moves _ _ _ _ _ _ h ?_ <;> decide

theorem execRoceReadRx_runs (h : RoceHdr) (a : RoceAddr) (ue : Bool) (s : State) :
    Runs (maskOf (raises ++ [.cells, .memory, .net, .ckpt] ++ objs [0x60, 0x72, 0x74, 0x81])) s
      (execRoceReadRx h a ue s) := by
  unfold execRoceReadRx
  extract_lets t
  refine .after (t := t) (rxFrame_moves _ _ (.refl _ _) (by decide)) ?_
  split
  · exact .next (dropFrame_moves _ _ (.refl _ _) (by decide))
  · extract_lets u
    refine .after (t := u) (noteEcn_moves _ _ _ (.refl _ _) (by decide)) ?_
    split
    · refine .next (readAt_moves _ _ _ _ _ (rxAdvance_moves _ _ _ (.refl _ _) ?_) ?_) <;> decide
    · exact .next (readAt_moves _ _ _ _ _ (.refl _ _) (by decide))
    · exact .next (roceEmit_moves _ _ _ (.refl _ _) (by decide))

theorem execRoceResponseRx_runs (i : Fin 2048) (a : RoceAnswer) (s : State) :
    Runs (maskOf (raises ++ [.net, .ckpt] ++ objs [0x72, 0x74, 0x81])) s (execRoceResponseRx i a s) := by
  unfold execRoceResponseRx
  extract_lets t
  refine .stay_or (.after (t := t) (rxFrame_moves _ _ (.refl _ _) (by decide)) ?_)
  split
  · exact .next (completeReqs_moves _ _ _ _ (.refl _ _) (by decide))
  · split
    · refine .next (completeReqs_moves _ _ _ _ (completeReqs_moves _ _ _ _ (.refl _ _) ?_) ?_) <;> decide
    · exact .stay
  · refine ite_runs (fun _ => .next (retryQp_moves _ _ (completeReqs_moves _ _ _ _ (.refl _ _) ?_) ?_)) fun _ =>
      .next (qpFail_moves _ _ (.refl _ _) ?_) <;> decide

theorem execRoceAckTimeout_runs (i : Fin 2048) (s : State) :
    Runs (maskOf (raises ++ [.net, .ckpt] ++ objs [0x72, 0x74, 0x81])) s (execRoceAckTimeout i s) :=
  .stay_or (.next (retryQp_moves _ _ (.refl _ _) (by decide)))

theorem execRoceCnpRx_runs (i : Fin 2048) (s : State) :
    Runs (maskOf ([.net] ++ objs [0x72])) s (execRoceCnpRx i s) := by
  unfold execRoceCnpRx
  extract_lets t
  refine .stay_or (.after (t := t) (rxFrame_moves _ _ (.refl _ _) (by decide)) ?_)
  exact .next (.or_stay (State_modQp_moves _ _ _ (.refl _ _) (by decide)))

theorem execArpRequestRx_runs (p : Fin 8) (ip : BitVec 32) (s : State) :
    Runs (maskOf ([.outbox] ++ objs [0x72])) s (execArpRequestRx p ip s) :=
  .after (rxFrame_moves _ _ (.refl _ _) (by decide)) (.or_stay (.next (txFrame_moves _ _ _ (.refl _ _) (by decide))))

theorem execNeighbourSolicitRx_runs (p : Fin 8) (ip : BitVec 128) (s : State) :
    Runs (maskOf ([.outbox] ++ objs [0x72])) s (execNeighbourSolicitRx p ip s) :=
  .after (rxFrame_moves _ _ (.refl _ _) (by decide)) (.or_stay (.next (txFrame_moves _ _ _ (.refl _ _) (by decide))))

theorem execIcmpEchoRx_runs (p : Fin 8) (v6 : Bool) (ip : BitVec 128) (fragment : Bool) (payload : List Byte)
    (s : State) :
    Runs (maskOf ([.outbox] ++ objs [0x72])) s (execIcmpEchoRx p v6 ip fragment payload s) := by
  unfold execIcmpEchoRx
  extract_lets own t
  refine .stay_or (.after (t := t) (rxFrame_moves _ _ (.refl _ _) (by decide)) ?_)
  refine ite_runs (fun _ => .next (bump_moves _ _ (page_ethPDrops _) (.refl _ _) (by decide))) fun _ => ?_
  exact .or_stay (.next (txFrame_moves _ _ _ (.refl _ _) (by decide)))

theorem execLacpPduRx_runs (p : Fin 8) (sync : Bool) (s : State) :
    Runs (maskOf (raises ++ [.net, .ckpt] ++ objs [0x72, 0x73, 0x74, 0x81])) s (execLacpPduRx p sync s) := by
  unfold execLacpPduRx
  extract_lets t
  refine ite_runs (fun _ => .next (rxFrame_moves _ _ (.refl _ _) (by decide))) fun _ => ?_
  refine .after (t := t) (State_modEth_moves _ _ _ (rxFrame_moves _ _ (.refl _ _) (by decide)) (by decide)) ?_
  refine ite_runs (fun _ => ?_) fun _ => .next (tryUp_moves _ _ (.refl _ _) (by decide))
  exact .stay_or (.next (ethLeave_moves _ _ _ (.refl _ _) (by decide)))

theorem execRoceQpWrite_runs (q : Req) (v : BitVec 512) (s : State) :
    Runs (maskOf (raises ++ [.mgt, .net, .ckpt] ++ objs [0x14, 0x74, 0x81])) s (execRoceQpWrite q v s) := by
  unfold execRoceQpWrite
  refine dictWrite_runs (fun _ h => roceQpWrite_moves _ _ h ?_) ?_ <;> decide

theorem execRoceRgnWrite_runs (q : Req) (v : BitVec 256) (s : State) :
    Runs (maskOf (asks ++ objs [0x74])) s (execRoceRgnWrite q v s) := by
  unfold execRoceRgnWrite
  refine dictWrite_runs (fun _ h => roceRgnWrite_moves _ _ h ?_) ?_ <;> decide

/-! ### Mailboxes -/

theorem execMbxPortWrite_runs (h : RoceHdr) (key : BitVec 32) (e : Fin 16) (j : Fin 18) (off : Fin 64)
    (bytes : List Byte) (s : State) :
    Runs (maskOf (raises ++ [.net, .ckpt] ++ objs [0x72, 0x74, 0x81, 0xA0, 0xA2, 0xA3])) s
      (execMbxPortWrite h key e j off bytes s) :=
  .next (pageWrite_moves _ _ _ _ _ _ (.refl _ _) (by decide))

theorem execMbxConsWrite_runs (h : RoceHdr) (key : BitVec 32) (e : Fin 16) (j : Fin 18) (v : BitVec 32) (s : State) :
    Runs (maskOf (raises ++ [.net, .ckpt] ++ objs [0x72, 0x74, 0x81, 0xA0, 0xA2, 0xA3])) s
      (execMbxConsWrite h key e j v s) :=
  .next (pageWrite_moves _ _ _ _ _ _ (.refl _ _) (by decide))

theorem execMbxDbClearWrite_runs (h : RoceHdr) (key : BitVec 32) (e : Fin 16) (v : BitVec 32) (s : State) :
    Runs (maskOf (raises ++ [.net, .ckpt] ++ objs [0x72, 0x74, 0x81, 0xA0, 0xA2, 0xA3])) s
      (execMbxDbClearWrite h key e v s) :=
  .next (pageWrite_moves _ _ _ _ _ _ (.refl _ _) (by decide))

theorem execMbxDbMaskWrite_runs (m : MaskAt) (v : BitVec 32) (s : State) :
    Runs (maskOf (raises ++ [.mgt, .net, .ckpt] ++ objs [0x14, 0x72, 0x74, 0x81, 0xA0, 0xA2, 0xA3])) s
      (execMbxDbMaskWrite m v s) := by
  cases m with
  | mc q =>
    exact dictWrite_runs (fun _ h => maskWrite_moves _ _ _ _ page_mbxMcDbMask h (by decide) (by decide)) (by decide)
  | seq q cl =>
    exact dictWrite_runs (fun _ h => maskWrite_moves _ _ _ _ (page_mbxSqDbMask _) h (by decide) (by decide)) (by decide)
  | host h key e => exact .next (pageWrite_moves _ _ _ _ _ _ (.refl _ _) (by decide))

theorem execSequencerMailboxTake_runs (cl : Fin 16) (s : State) :
    Runs (maskOf (raises ++ [.net] ++ objs [0xA0, 0xA2, 0xA3])) s (execSequencerMailboxTake cl s) :=
  .stay_or (.next (takeAll_moves _ _ _ _ (.refl _ _) (fun _ _ h => ite_moves (fun _ => takeLengths_moves _ _ _
    h (by decide)) fun _ => h) (by decide)))

theorem execMcMailboxService_runs (s : State) :
    Runs (maskOf ([.net] ++ objs [0xA2, 0xA3])) s (execMcMailboxService s) :=
  .stay_or (.next (takeAll_moves _ _ _ _ (.refl _ _) (fun _ _ h => h) (by decide)))

theorem execMcMailboxSend_runs (dest : Fin 32) (secure : Bool) (msg : BitVec 512) (s : State) :
    Runs (maskOf (raises ++ [.net] ++ objs [0x72, 0xA0, 0xA2, 0xA3])) s (execMcMailboxSend dest secure msg s) := by
  unfold execMcMailboxSend
  refine .stay_or ?_
  refine ite_runs (fun _ => .next (mcToSeq_moves _ _ _ (.refl _ _) ?_)) fun _ => .next (mcToHost_moves _ _ _ _
    (.refl _ _) ?_) <;> decide

/-! ### Core faults, core tests and fatal faults -/

theorem execResFenceReqWrite_runs (q : Req) (v : BitVec 16) (s : State) :
    Runs (maskOf (raises ++ tiers ++ [.tables, .cores, .mgt, .power, .ledger] ++
      objs [0x14, 0x21, 0x41, 0x42, 0x43, 0x44, 0x52, 0x61, 0x80])) s (execResFenceReqWrite q v s) := by
  unfold execResFenceReqWrite
  refine dictWrite_runs (fun _ h => resFenceReqWrite_moves _ _ h ?_) ?_ <;> decide

theorem execCoreHangTimeout_runs (core : Fin 256) (s : State) :
    Runs (maskOf (raises ++ tiers ++ [.tables, .cores, .mgt, .power, .ledger] ++
      objs [0x21, 0x41, 0x42, 0x43, 0x44, 0x52, 0x61, 0x80])) s (execCoreHangTimeout core s) :=
  .stay_or (.next (coreFault_moves _ _ (.refl _ _) (by decide)))

theorem execResCoreTestWrite_runs (q : Req) (v : BitVec 8) (s : State) :
    Runs (maskOf (asks ++ [.power, .ckpt] ++ objs [0x21, 0x71, 0x72, 0x80])) s (execResCoreTestWrite q v s) :=
  dictAction_runs (fun _ h => resCoreTestWrite_moves _ h (by decide)) (by decide)

theorem execCoreTestDone_runs (pass : Bool) (s : State) :
    Runs (maskOf (raises ++ tiers ++ [.cores, .power, .rill, .net, .ckpt] ++
      objs [0x21, 0x71, 0x72, 0x73, 0x74, 0x80, 0x81])) s (execCoreTestDone pass s) := by
  unfold execCoreTestDone
  split
  · exact .stay
  · extract_lets passed ckpt ended off
    refine .after (t := off) (setReg_moves _ _ page_resTestResult (domArrive_moves _ _ _ (withCkpt_moves _
      (.refl _ _) (by decide)) (by decide)) (by decide)) ?_
    exact .next (.stay_or (raise_moves _ _ _ _ _ (.refl _ _) (by decide)))

theorem execResUnfenceWrite_runs (q : Req) (v : BitVec 8) (s : State) :
    Runs (maskOf (raises ++ [.mgt, .ckpt] ++ objs [0x14, 0x41, 0x80])) s (execResUnfenceWrite q v s) :=
  dictAction_runs (fun _ h => resUnfenceWrite_moves _ h (by decide)) (by decide)

theorem execCoreUnfenceApply_runs (cl : Fin 16) (s : State) :
    Runs (maskOf (raises ++ [.ckpt] ++ objs [0x41, 0x80])) s (execCoreUnfenceApply cl s) := by
  unfold execCoreUnfenceApply
  split
  · exact .stay
  · exact .or_stay (.next (unfenceNow_moves _ _ _ (.refl _ _) (by decide)))

theorem execFatalFault_runs (die : Fin 6) (s : State) :
    Runs (maskOf (raises ++ [.rill, .net, .ckpt, .ledger, .stopped, .dead] ++
      objs [0x70, 0x71, 0x72, 0x73, 0x74, 0x81])) s (execFatalFault die s) := by
  unfold execFatalFault
  extract_lets pins noted frozen
  refine .stay_or (ite_runs (fun _ => .next (withPins_moves _ (withDead_moves _ (withStopped_moves _
    (.refl _ _) (by decide)) (by decide)) (by decide))) fun _ => ?_)
  refine .after (t := frozen) (freezeLedger_moves _ _ (withStopped_moves _ (raise_moves _ _ _ _ _
    (.refl _ _) (by decide)) (by decide)) (by decide)) ?_
  exact .next (.or_stay (portsOfEe_moves _ (.refl _ _) (by decide)))

/-! ### Checkpoints -/

theorem execCkptIntervalExpired_runs (s : State) :
    Runs (maskOf [.ckpt]) s (execCkptIntervalExpired s) :=
  .stay_or (.next (withCkpt_moves _ (.refl _ _) (by decide)))

theorem execCkptRequestWrite_runs (q : Req) (v : BitVec 8) (s : State) :
    Runs (maskOf (asks ++ [.ckpt])) s (execCkptRequestWrite q v s) :=
  dictAction_runs (fun _ h => ckptRequestWrite_moves _ h (by decide)) (by decide)

theorem execResFailNoticeWrite_runs (q : Req) (v : BitVec 8) (s : State) :
    Runs (maskOf (asks ++ [.ckpt])) s (execResFailNoticeWrite q v s) :=
  dictAction_runs (fun _ h => resFailNoticeWrite_moves _ h (by decide)) (by decide)

theorem execResMtbfResetWrite_runs (q : Req) (v : BitVec 8) (s : State) :
    Runs (maskOf (asks ++ [.ckpt])) s (execResMtbfResetWrite q v s) :=
  dictAction_runs (fun _ h => resMtbfResetWrite_moves _ h (by decide)) (by decide)

theorem execCkptStopBegin_runs (s : State) :
    Runs (maskOf (raises ++ tiers ++ [.cores, .weir, .rill, .ckpt, .ledger, .holds] ++ objs [0x52, 0x70, 0x81])) s
      (execCkptStopBegin s) :=
  .stay_or (.next (beginStop_moves _ (.refl _ _) (by decide)))

theorem execCkptStopEnd_runs (sig : BitVec 1056) (s : State) :
    Runs (maskOf (raises ++ [.cores, .cells, .weir, .rill, .net, .ckpt, .ledger, .holds] ++ objs [0x70, 0x72, 0x81]))
      s (execCkptStopEnd sig s) := by
  unfold execCkptStopEnd
  extract_lets gen us headed kept timed noted
  refine .stay_or (.after (t := kept) (raise_moves _ _ _ _ _ (setReg_moves _ _ page_ckptGen (writeHeader_moves _ _ _
    (.refl _ _) (by decide)) (by decide)) (by decide)) ?_)
  refine .after (t := timed) (setReg_moves _ _ page_ckptLastBytes (setReg_moves _ _ page_ckptLastStopUs (.refl _ _)
    (by decide)) (by decide)) ?_
  refine .after (t := noted) (.or_stay (raise_moves _ _ _ _ _ (.refl _ _) (by decide))) ?_
  refine .next (startDrain_moves _ _ (stopOver_moves _ (.refl _ _) ?_) ?_) <;> decide

theorem execCkptDrainTargetDone_runs (t : Fin 3) (s : State) :
    Runs (maskOf (raises ++ [.cells, .poison] ++ objs [0x81])) s (execCkptDrainTargetDone t s) := by
  unfold execCkptDrainTargetDone
  extract_lets drained secured
  refine .stay_or (.after (t := drained) (setDrain_moves _ _ _ (.or_stay (drainT3_moves _ (.refl _ _) (by decide)))
    (by decide)) ?_)
  refine .after (t := secured) (.or_stay (secure_moves _ (.refl _ _) (by decide))) ?_
  exact .next (drainEnd_moves _ (.refl _ _) (by decide))

theorem execCkptDrainTimeout_runs (t : Fin 3) (s : State) :
    Runs (maskOf (raises ++ objs [0x81])) s (execCkptDrainTimeout t s) :=
  .stay_or (.next (drainFail_moves _ _ (.refl _ _) (by decide)))

theorem execCkptRestoreT1_runs (q : Req) (s : State) :
    Runs (maskOf (raises ++ [.mgt, .ckpt, .ledger] ++ objs [0x14, 0x81])) s (execCkptRestoreT1 q s) := by
  unfold execCkptRestoreT1
  refine dictWrite_runs (fun _ h => ckptRestoreT1_moves _ h ?_) ?_ <;> decide

theorem execCkptRestoreT3_runs (q : Req) (s : State) :
    Runs (maskOf (raises ++ [.mgt, .ckpt, .ledger] ++ objs [0x14, 0x81])) s (execCkptRestoreT3 q s) := by
  unfold execCkptRestoreT3
  refine dictWrite_runs (fun _ h => ckptRestoreT3_moves _ h ?_) ?_ <;> decide

theorem execCkptRestoreDone_runs (s : State) :
    Runs (maskOf (raises ++ tiers ++ [.cores, .layers, .ckpt] ++ objs [0x31, 0x3C, 0x41, 0x44, 0x80, 0x81])) s
      (execCkptRestoreDone s) := by
  unfold execCkptRestoreDone
  split
  · exact .stay
  · refine .stay_or (.next (raise_moves _ _ _ _ _ (setReg_moves _ _ page_ckptRestoreState (restoreHeader_moves _ _
      (restoreRecord_moves _ _ (restoreRegions_moves _ _ _ (.refl _ _) ?_) ?_) ?_) ?_) ?_)) <;> decide

theorem execCkptServeWrite_runs (q : Req) (v : BitVec 8) (s : State) :
    Runs (maskOf (asks ++ [.net, .ckpt] ++ objs [0x72])) s (execCkptServeWrite q v s) :=
  dictAction_runs (fun _ h => ckptServeWrite_moves _ h (by decide)) (by decide)

theorem execCkptServeDone_runs (s : State) :
    Runs (maskOf [.ckpt]) s (execCkptServeDone s) :=
  .stay_or (.next (withCkpt_moves _ (.refl _ _) (by decide)))

/-! ### Supply, power domains and temperature -/

theorem execSupplyOutOfRange_runs (mv : BitVec 17) (s : State) :
    Runs (maskOf (raises ++ objs [0x20])) s (execSupplyOutOfRange mv s) := by
  unfold execSupplyOutOfRange
  extract_lets v t
  refine .stay_or (.after (t := t) (noteInput_moves _ _ (.refl _ _) (by decide)) ?_)
  refine .or_stay (.next (raise_moves _ _ _ _ _ (setReg_moves _ _ page_pwrSupplyState (.refl _ _) ?_) ?_)) <;> decide

theorem execSupplyBelow46_runs (mv : BitVec 17) (s : State) :
    Runs (maskOf (raises ++ [.power] ++ objs [0x20, 0x21])) s (execSupplyBelow46 mv s) := by
  refine .stay_or (.next (raise_moves _ _ _ _ _ (refreshAll_moves _ (bump_moves _ _ page_pwrDipCount
    (setReg_moves _ _ page_pwrSupplyState (withPower_moves _ (noteInput_moves _ _
    (.refl _ _) ?_) ?_) ?_) ?_) ?_) ?_)) <;> decide

theorem execSupplyAbove47_runs (mv : BitVec 17) (s : State) :
    Runs (maskOf ([.power] ++ objs [0x20])) s (execSupplyAbove47 mv s) :=
  .stay_or (.next (withPower_moves _ (noteInput_moves _ _ (.refl _ _) (by decide)) (by decide)))

theorem execSupplyHoldComplete_runs (s : State) :
    Runs (maskOf ([.power] ++ objs [0x20, 0x21])) s (execSupplyHoldComplete s) :=
  .stay_or (.next (ceilStep_moves _ (setReg_moves _ _ page_pwrSupplyState (withPower_moves _
    (.refl _ _) (by decide)) (by decide)) (by decide)))

theorem execSupplyReleaseStep_runs (s : State) :
    Runs (maskOf (raises ++ [.power] ++ objs [0x20, 0x21])) s (execSupplyReleaseStep s) := by
  unfold execSupplyReleaseStep
  refine .stay_or ?_
  refine ite_runs (fun _ => .next (ceilStep_moves _ (.refl _ _) ?_)) fun _ => .next (raise_moves _ _ _ _ _
    (refreshAll_moves _ (setReg_moves _ _ page_pwrSupplyState (withPower_moves _ (.refl _ _) ?_) ?_) ?_) ?_)
    <;> decide

theorem execBrownOut_runs (mv : BitVec 17) (s : State) :
    Runs (maskOf (allBut resetKeeps)) s (execBrownOut mv s) :=
  .allBut (.stay_or (.next (powerLoss_moves _ _ (noteInput_moves _ _ (.refl _ _) (by decide)) (by decide))))

theorem execOverVoltage_runs (mv : BitVec 17) (s : State) :
    Runs (maskOf (allBut resetKeeps)) s (execOverVoltage mv s) :=
  .allBut (.stay_or (.next (powerLoss_moves _ _ (noteInput_moves _ _ (.refl _ _) (by decide)) (by decide))))

theorem execDomainReqWrite_runs (q : Req) (v : BitVec 8) (s : State) :
    Runs (maskOf (raises ++ [.mgt, .power] ++ objs [0x14, 0x21])) s (execDomainReqWrite q v s) := by
  unfold execDomainReqWrite
  refine dictWrite_runs (fun _ h => domainReqWrite_moves _ _ h ?_) ?_ <;> decide

theorem execDomainTransitionDone_runs (id : BitVec 9) (s : State) :
    Runs (maskOf (raises ++ tiers ++ [.cores, .power, .rill, .net, .ckpt] ++
      objs [0x21, 0x71, 0x72, 0x73, 0x74, 0x81])) s (execDomainTransitionDone id s) := by
  unfold execDomainTransitionDone
  split
  · exact .stay
  · refine .next (bootNext_moves _ (checkHeld_moves _ _ (pstSettle_moves _ _ (domArrive_moves _ _ _
      (.refl _ _) ?_) ?_) ?_) ?_) <;> decide

theorem execDomainTransitionAbort_runs (id : BitVec 9) (s : State) :
    Runs (maskOf (raises ++ [.power] ++ objs [0x21])) s (execDomainTransitionAbort id s) := by
  unfold execDomainTransitionAbort
  split
  · refine .stay_or (.next (checkHeld_moves _ _ (pstSettle_moves _ _ (raise_moves _ _ _ _ _
      (setReg_moves _ _ (page_ofUnit _ page_pwrDomLastRefuser) (bump_moves _ _ (page_ofUnit _ page_pwrDomAborted)
      (State_setDom_moves _ _ _ (.refl _ _) ?_) ?_) ?_) ?_) ?_) ?_)) <;> decide
  · exact .stay

theorem execFreqReqWrite_runs (q : Req) (f : BitVec 16) (s : State) :
    Runs (maskOf (raises ++ [.mgt, .power] ++ objs [0x14, 0x21])) s (execFreqReqWrite q f s) := by
  unfold execFreqReqWrite
  refine dictWrite_runs (fun _ h => freqReqWrite_moves _ _ h ?_) ?_ <;> decide

theorem execVoltReqWrite_runs (q : Req) (v : BitVec 16) (s : State) :
    Runs (maskOf (raises ++ [.mgt] ++ objs [0x14, 0x21])) s (execVoltReqWrite q v s) := by
  unfold execVoltReqWrite
  refine dictWrite_runs (fun _ h => voltReqWrite_moves _ _ h ?_) ?_ <;> decide

theorem execDvfsVoltageReached_runs (id : BitVec 9) (s : State) :
    Runs (maskOf ([.power] ++ objs [0x21])) s (execDvfsVoltageReached id s) := by
  unfold execDvfsVoltageReached
  refine .stay_or ?_
  refine .stay_or (.next (refreshFreq_moves _ _ (setReg_moves _ _ (page_ofUnit _ page_pwrDomVolt)
    (.refl _ _) ?_) ?_)) <;> decide

theorem execSleepWrite_runs (q : Req) (v : BitVec 8) (s : State) :
    Runs (maskOf (raises ++ [.mgt, .power] ++ objs [0x14, 0x21])) s (execSleepWrite q v s) :=
  dictAction_runs (fun _ h => sleepWrite_moves _ h (by decide)) (by decide)

theorem execPowerSample_runs (w : BitVec 16) (mv : BitVec 17) (s : State) :
    Runs (maskOf (raises ++ [.power] ++ objs [0x20, 0x21])) s (execPowerSample w mv s) := by
  refine .stay_or (.next (refreshAll_moves _ (capStep_moves _ _ _ _ (withPower_moves _
    (setReg_moves _ _ page_pwrInputW (noteInput_moves _ _ (.refl _ _) ?_) ?_) ?_) ?_) ?_)) <;> decide

theorem execThermalSample_runs (ts : Vector Int 6) (s : State) :
    Runs (maskOf (allBut faultKeeps)) s (execThermalSample ts s) := by
  unfold execThermalSample
  extract_lets t
  refine .allBut (.stay_or (.after (t := t) (thermAll_moves _ _ (.refl _ _) (by decide)) ?_))
  split
  · exact .next (thermalTrip_moves _ _ (.refl _ _) (by decide))
  · exact .stay

/-! ### The serial port, connectors and reset -/

theorem execSspAddressMatch_runs (addr : BitVec 7) (s : State) :
    Runs (maskOf [.outbox, .power]) s (execSspAddressMatch addr s) := by
  unfold execSspAddressMatch
  extract_lets t
  refine .stay_or (.after (t := t) (State_emit_moves _ _ (.refl _ _) (by decide)) ?_)
  exact .next (.or_stay (withPower_moves _ (.refl _ _) (by decide)))

theorem execSspWakeComplete_runs (s : State) :
    Runs (maskOf (raises ++ [.power] ++ objs [0x21, 0x22])) s (execSspWakeComplete s) :=
  .stay_or (.next (forAll_moves _ _ (raise_moves _ _ _ _ _ (bump_moves _ _ page_pwrWakes (withPower_moves _
    (.refl _ _) (by decide)) (by decide)) (by decide)) (fun _ _ h => domRequest_moves _ _ _ h (by decide))))

theorem execJ1Mate_runs (feed : BitVec 4) (slot : BitVec 6) (s : State) :
    Runs (maskOf ([.pins] ++ objs [0x23, 0x80])) s (execJ1Mate feed slot s) :=
  .stay_or (.next (modPins_moves _ _ (takeStraps_moves _ _ _ (.refl _ _) (by decide)) (by decide)))

theorem execJ1Break_runs (s : State) :
    Runs (maskOf (allBut resetKeeps)) s (execJ1Break s) :=
  .allBut (.stay_or (.next (modPins_moves _ _ (.or_stay (powerLoss_moves _ _ (.refl _ _) (by decide))) (by decide))))

theorem execPwrEnRise_runs (rested : Bool) (s : State) :
    Runs (maskOf [.pins]) s (execPwrEnRise rested s) :=
  .stay_or (.next (modPins_moves _ _ (.refl _ _) (by decide)))

theorem execSoftStartBegin_runs (s : State) :
    Runs (maskOf [.pins]) s (execSoftStartBegin s) :=
  .or_stay (.next (modPins_moves _ _ (.refl _ _) (by decide)))

theorem execRailsInRegulation_runs (s : State) :
    Runs (maskOf [.pins]) s (execRailsInRegulation s) :=
  .or_stay (.next (modPins_moves _ _ (.refl _ _) (by decide)))

theorem execPwrEnFall_runs (s : State) :
    Runs (maskOf (allBut resetKeeps)) s (execPwrEnFall s) :=
  .allBut (.stay_or (.next (modPins_moves _ _ (.or_stay (powerLoss_moves _ _ (.refl _ _) (by decide))) (by decide))))

theorem execRstNAssert_runs (s : State) :
    Runs (maskOf (allBut resetKeeps)) s (execRstNAssert s) :=
  .allBut (.stay_or (.next (modPins_moves _ _ (.or_stay (deviceReset_moves _ _
    (.refl _ _) (by decide))) (by decide))))

theorem execRstNDeassert_runs (feed : BitVec 4) (slot : BitVec 6) (s : State) :
    Runs (maskOf (raises ++ objs [0x11, 0x20, 0x73, 0x80])) s (execRstNDeassert feed slot s) :=
  .stay_or (.next (tryBoot_moves _ (modPins_moves _ _ (takeStraps_moves _ _ _
    (.refl _ _) (by decide)) (by decide)) (by decide)))

/-! ### Boot and recovery -/

theorem execBootIdentity_runs (key : BitVec 1064) (s : State) :
    Runs (maskOf (raises ++ [.mgt] ++ objs [0x11, 0x90])) s (execBootIdentity key s) := by
  unfold execBootIdentity
  extract_lets k t
  refine .stay_or (.after (t := t) (modMgt_moves _ _ (bump_moves _ _ page_bootCount (setReg_moves _ _ page_bootStage
    (.refl _ _) (by decide)) (by decide)) (fun _ => rfl) (by decide)) ?_)
  refine ite_runs (fun _ => .next (setReg_moves _ _ page_secIdState (.refl _ _) ?_)) fun _ => .next
    (raise_moves _ _ _ _ _ (setReg_moves _ _ page_secIdState (.refl _ _) ?_) ?_) <;> decide

theorem execBootFirmware_runs (s : State) :
    Runs (maskOf (raises ++ tiers ++ [.cores, .mgt, .power, .rill, .net, .ckpt] ++
      objs [0x10, 0x11, 0x21, 0x71, 0x72, 0x73, 0x74, 0x81])) s (execBootFirmware s) := by
  unfold execBootFirmware
  refine .stay_or (ite_runs (fun _ => .next (enterRecovery_moves _ _ (.refl _ _) (by decide))) fun _ => ?_)
  refine ite_runs (fun _ => .next (enterRecovery_moves _ _ (.refl _ _) ?_)) fun _ => .next (runFirmware_moves _ _
    (setReg_moves _ _ page_bootStage (.refl _ _) ?_) ?_) <;> decide

theorem execBootConfig_runs (s : State) :
    Runs (maskOf (allBut writeKeeps)) s (execBootConfig s) := by
  unfold execBootConfig
  refine .allBut (.stay_or ?_)
  cases hs : applyRecords s with
  | none => exact .next (enterRecovery_moves _ _ (.refl _ _) (by decide))
  | some t =>
    have ht := applyRecords_moves s (.refl (offMask writeKeeps) s) (by decide) t hs
    refine ite_runs (fun _ => .next (enterRecovery_moves _ _ (.refl _ _) ?_)) fun _ => .next (writeIdentity_moves _
      (setReg_moves _ _ page_fldState (forAll_moves _ _ (setReg_moves _ _ page_bootStage ht ?_)
      fun _ _ h => pstLoad_moves _ _ h ?_) ?_) ?_) <;> decide

theorem execBootPower_runs (s : State) :
    Runs (maskOf (raises ++ [.power] ++ objs [0x11, 0x21])) s (execBootPower s) :=
  .stay_or (.next (requestDomains_moves _ (setReg_moves _ _ page_bootStage (.refl _ _) (by decide)) (by decide)))

theorem execBootPowerRetry_runs (s : State) :
    Runs (maskOf (raises ++ [.power] ++ objs [0x21])) s (execBootPowerRetry s) :=
  .stay_or (.next (requestDomains_moves _ (.refl _ _) (by decide)))

theorem execBootMemory_runs (s : State) :
    Runs (maskOf (tiers ++ objs [0x11])) s (execBootMemory s) :=
  .stay_or (.next (withMem_moves (setReg_moves _ _ page_bootStage (.refl _ _) (by decide))
    (.filtered _ _ (.refl _ _) (by decide))))

theorem execBootReady_runs (ms : BitVec 32) (s : State) :
    Runs (maskOf (raises ++ objs [0x11])) s (execBootReady ms s) :=
  .stay_or (.next (raise_moves _ _ _ _ _ (setReg_moves _ _ page_bootReadyMs (setReg_moves _ _ page_bootStage
    (.refl _ _) (by decide)) (by decide)) (by decide)))

theorem execRecoverReqTimer_runs (s : State) :
    Runs (maskOf [.outbox]) s (execRecoverReqTimer s) :=
  .stay_or (.next (forAll_moves _ _ (.refl _ _) (fun _ _ h => State_emit_moves _ _ h (by decide))))

theorem execRecoveryBlockRx_runs (block : BitVec 32) (bytes : List Byte) (s : State) :
    Runs (maskOf [.outbox, .mgt]) s (execRecoveryBlockRx block bytes s) := by
  unfold execRecoveryBlockRx
  refine .stay_or (ite_runs (fun _ => .next (State_emit_moves _ _ (.refl _ _) (by decide))) fun _ => ?_)
  refine ite_runs (fun _ => .next (State_emit_moves _ _ (.refl _ _) ?_)) fun _ => .next (State_emit_moves _ _
    (modMgt_moves _ _ (.refl _ _) (fun _ => rfl) ?_) ?_) <;> decide

theorem execRecoverGoRx_runs (tag len : BitVec 32) (s : State) :
    Runs (maskOf (allBut faultKeeps)) s (execRecoverGoRx tag len s) := by
  unfold execRecoverGoRx
  refine .allBut (.stay_or ?_)
  refine ite_runs (fun _ => .next (State_emit_moves _ _ (.refl _ _) (by decide))) fun _ => ?_
  refine ite_runs (fun _ => ?_) fun _ => ?_
  · refine ite_runs (fun _ => .next (State_emit_moves _ _ (runRecovery_moves _ (.refl _ _) ?_) ?_)) fun _ => .next
      (State_emit_moves _ _ (.refl _ _) ?_) <;> decide
  · cases hr : recoveryTake s (recoveryImage s len.toNat) with
    | none => exact .next (State_emit_moves _ _ (.refl _ _) (by decide))
    | some p =>
      refine .after (recoveryTake_moves s _ (.refl _ _) (by decide) p hr) ?_
      refine ite_runs (fun _ => .next (beginBoot_moves _ (deviceReset_moves _ _ (State_emit_moves _ _
        (.refl _ _) ?_) ?_) ?_)) fun _ => .next (State_emit_moves _ _ (.refl _ _) ?_) <;> decide

/-! ### Objects, debug and attestation -/

theorem execRegisterWrite_runs (q : Req) (w : RegWrite) (s : State) :
    Runs (maskOf (allBut writeKeeps)) s (execRegisterWrite q w s) := by
  refine .allBut ?_
  cases w with
  | plain index sub bytes => exact dictWrite_runs (fun _ h => plainWrite_moves _ _ _ _ h (by decide)) (by decide)
  | signed b => exact .next (signedRequest_moves _ _ _ (.refl _ _) (by decide))

theorem execRngSeedWrite_runs (q : Req) (v : BitVec 128) (s : State) :
    Runs (maskOf (asks ++ objs [0x31])) s (execRngSeedWrite q v s) := by
  unfold execRngSeedWrite
  refine dictWrite_runs (fun _ h => rngSeedWrite_moves _ _ h ?_) ?_ <;> decide

theorem execDataPosWrite_runs (q : Req) (v : BitVec 128) (s : State) :
    Runs (maskOf (asks ++ [.train] ++ objs [0x3C])) s (execDataPosWrite q v s) := by
  unfold execDataPosWrite
  refine dictWrite_runs (fun _ h => dataPosWrite_moves _ _ h ?_) ?_ <;> decide

theorem execStepSkipWrite_runs (q : Req) (v : BitVec 64) (s : State) :
    Runs (maskOf (asks ++ [.train] ++ objs [0x3C, 0x41])) s (execStepSkipWrite q v s) := by
  unfold execStepSkipWrite
  refine dictWrite_runs (fun _ h => stepSkipWrite_moves _ _ h ?_) ?_ <;> decide

theorem execRetryLimitWrite_runs (q : Req) (v : BitVec 8) (s : State) :
    Runs (maskOf (asks ++ [.train] ++ objs [0x3C])) s (execRetryLimitWrite q v s) := by
  unfold execRetryLimitWrite
  refine dictWrite_runs (fun _ h => retryLimitWrite_moves _ _ h ?_) ?_ <;> decide

theorem execDbgAccRead_runs (q : Req) (s : State) :
    Runs (maskOf (asks ++ objs [0xF2])) s (execDbgAccRead q s) :=
  .next (ite_moves (fun _ => withMgt_moves (.refl _ _) id (by decide +kernel)) fun _ => accServe_moves _ _ _
    (.refl _ _) (by decide +kernel))

theorem execDbgSpillRead_runs (q : Req) (s : State) :
    Runs (maskOf (asks ++ objs [0xF2])) s (execDbgSpillRead q s) :=
  dictRead_runs (fun _ h => ite_ans (fun _ => Ans_refuse_moves _ _ h (by decide +kernel)) fun _ => ite_ans (fun _ =>
    Ans_refuse_moves _ _ h (by decide +kernel)) fun _ => bump_moves _ _ page_dbgReads h (by decide +kernel)) (by decide +kernel)

theorem execLogRead_runs (q : Req) (s : State) :
    Runs (maskOf asks) s (execLogRead q s) := by
  refine dictRead_runs (fun t h => ?_) (by decide)
  cases logPair t with
  | none => exact Ans_refuse_moves _ _ h (by decide)
  | some v => exact h

theorem execAlertAckWrite_runs (q : Req) (v : BitVec 8) (s : State) :
    Runs (maskOf (asks ++ [.log] ++ objs [0x23])) s (execAlertAckWrite q v s) :=
  dictAction_runs (fun _ h => alertAckWrite_moves _ h (by decide)) (by decide)

theorem execSecOwnerKeyWrite_runs (q : Req) (w : RegWrite) (s : State) :
    Runs (maskOf (allBut writeKeeps)) s (execSecOwnerKeyWrite q w s) := by
  refine .allBut ?_
  cases w with
  | plain index sub bytes => exact dictWrite_runs (fun _ h => plainWrite_moves _ _ _ _ h (by decide)) (by decide)
  | signed b => exact .next (signedFor_moves _ _ _ _ (.refl _ _) (by decide))

theorem execSecOwnerRelease_runs (q : Req) (b : List Byte) (s : State) :
    Runs (maskOf (allBut writeKeeps)) s (execSecOwnerRelease q b s) :=
  .allBut (.next (signedFor_moves _ _ _ _ (.refl _ _) (by decide)))

theorem execSecMinSvnWrite_runs (q : Req) (b : List Byte) (s : State) :
    Runs (maskOf (allBut writeKeeps)) s (execSecMinSvnWrite q b s) :=
  .allBut (.next (signedFor_moves _ _ _ _ (.refl _ _) (by decide)))

theorem execAttestNonceWrite_runs (q : Req) (nonce : BitVec 512) (s : State) :
    Runs (maskOf (asks ++ objs [0x90])) s (execAttestNonceWrite q nonce s) := by
  unfold execAttestNonceWrite
  refine dictWrite_runs (fun _ h => attestNonceWrite_moves _ _ h ?_) ?_ <;> decide

theorem execAttestReportReady_runs (sig : BitVec 1056) (s : State) :
    Runs (maskOf ([.mgt] ++ objs [0x90])) s (execAttestReportReady sig s) := by
  unfold execAttestReportReady
  split
  · exact .stay
  · refine .next (modMgt_moves _ _ (setReg_moves _ _ page_secAttestLen (setReg_moves _ _ page_secAttestState
      (.refl _ _) ?_) ?_) (fun _ => rfl) ?_) <;> decide

theorem execDbgEnter_runs (q : Req) (b : List Byte) (s : State) :
    Runs (maskOf (allBut writeKeeps)) s (execDbgEnter q b s) :=
  .allBut (.next (signedFor_moves _ _ _ _ (.refl _ _) (by decide)))

theorem execDbgExit_runs (q : Req) (v : BitVec 8) (s : State) :
    Runs (maskOf (raises ++ [.mgt] ++ objs [0x14, 0xF0])) s (execDbgExit q v s) := by
  unfold execDbgExit
  refine dictWrite_runs (fun _ h => debugExit_moves _ _ h ?_) ?_ <;> decide +kernel

/-! ### Configuration records and firmware -/

theorem execCfgWrite_runs (q : Req) (b : List Byte) (s : State) :
    Runs (maskOf (allBut writeKeeps)) s (execCfgWrite q b s) :=
  .allBut (.next (signedFor_moves _ _ _ _ (.refl _ _) (by decide)))

theorem execCfgRecordDone_runs (s : State) :
    Runs (maskOf (raises ++ [.mgt, .flash] ++ objs [0x10])) s (execCfgRecordDone s) := by
  unfold execCfgRecordDone
  split
  · exact .stay
  · extract_lets kind inForce t
    refine .after (t := t) (modMgt_moves _ _ (.refl _ _) (fun _ => rfl) (by decide)) ?_
    refine ite_runs (fun _ => .next (setReg_moves _ _ page_cfgState (storeRecord_moves _ _ _ (.refl _ _) ?_) ?_))
      fun _ => .next (raise_moves _ _ _ _ _ (setReg_moves _ _ page_cfgState (.refl _ _) ?_) ?_) <;> decide

theorem execFwVerify_runs (q : Req) (v : BitVec 8) (s : State) :
    Runs (maskOf (asks ++ objs [0x13])) s (execFwVerify q v s) :=
  dictAction_runs (fun _ h => fwVerify_moves _ h (by decide)) (by decide)

theorem execFwVerifyDone_runs (s : State) :
    Runs (maskOf (raises ++ [.mgt] ++ objs [0x13])) s (execFwVerifyDone s) := by
  unfold execFwVerifyDone
  refine .stay_or ?_
  refine ite_runs (fun _ => .next (modMgt_moves _ _ (setReg_moves _ _ page_fwState (.refl _ _) ?_) (fun _ => rfl) ?_)) fun _ =>
    .next (raise_moves _ _ _ _ _ (setReg_moves _ _ page_fwState (.refl _ _) ?_) ?_) <;> decide

theorem execFwCommitFlash_runs (q : Req) (b : List Byte) (s : State) :
    Runs (maskOf (allBut writeKeeps)) s (execFwCommitFlash q b s) :=
  .allBut (.stay_or (.next (signedFor_moves _ _ _ _ (.refl _ _) (by decide))))

theorem execFwCommitRestart_runs (q : Req) (b : List Byte) (s : State) :
    Runs (maskOf (allBut writeKeeps)) s (execFwCommitRestart q b s) :=
  .allBut (.or_stay (.next (signedFor_moves _ _ _ _ (.refl _ _) (by decide))))

theorem execFwFlashDone_runs (s : State) :
    Runs (maskOf ([.mgt, .flash] ++ objs [0x13])) s (execFwFlashDone s) := by
  unfold execFwFlashDone
  split
  · exact .stay
  · refine .next (setReg_moves _ _ page_fwState (withMgt_moves (withFlash_moves _ (.refl _ _) ?_) id ?_) ?_)
      <;> decide

theorem execWarmRestartStart_runs (s : State) :
    Runs (maskOf [.log, .mgt]) s (execWarmRestartStart s) :=
  .stay_or (.next (withLog_moves (withMgt_moves (.refl _ _) id (by decide)) id (by decide)))

theorem execWarmRestartDone_runs (s : State) :
    Runs (maskOf (allBut writeKeeps)) s (execWarmRestartDone s) := by
  unfold execWarmRestartDone
  extract_lets logged running
  refine .allBut (.stay_or (.after (t := running) (runFirmware_moves _ _ (logHeld_moves _ (modMgt_moves _ _
    (.refl _ _) (fun _ => rfl) (by decide)) (by decide)) (by decide)) ?_))
  refine .next (fenceWaiting_moves _ (raise_moves _ _ _ _ _ (bump_moves _ _ page_bootWarm (setReg_moves _ _ page_fwState
    (applyRecords_getD_moves _ (.refl _ _) ?_) ?_) ?_) ?_) ?_) <;> decide

/-! ### Inputs and ends of waits that stand at the end of the table -/

theorem execStrapCheck_runs (feed : BitVec 4) (slot : BitVec 6) (s : State) :
    Runs (maskOf raises) s (execStrapCheck feed slot s) := by
  unfold execStrapCheck
  extract_lets pins changed t
  refine .stay_or (.after (t := t) (setReg_moves _ _ page_modStrapsLive (.refl _ _) (by decide)) ?_)
  exact .next (.or_stay (raise_moves _ _ _ _ _ (.refl _ _) (by decide)))

theorem execCoolantSample_runs (inlet outlet : BitVec 32) (flow : BitVec 16) (leak : Bool) (s : State) :
    Runs (maskOf raises) s (execCoolantSample inlet outlet flow leak s) := by
  refine .stay_or (.next (excursion_moves _ _ _ _ (excursion_moves _ _ _ _ (excursion_moves _ _ _ _
    (modPins_moves _ _ (setReg_moves _ _ page_modLeak (setReg_moves _ _ page_modFlow
    (setReg_moves _ _ page_modOutletC (setReg_moves _ _ page_modInletC (.refl _ _) ?_) ?_) ?_) ?_) ?_) ?_) ?_) ?_))
    <;> decide

theorem execPtpFollowUpRx_runs (port : Fin 8) (domain : BitVec 8) (server : BitVec 64) (seq : BitVec 16)
    (origin : BitVec 64) (s : State) :
    Runs (maskOf (raises ++ [.net, .holds] ++ objs [0x40, 0x72])) s
      (execPtpFollowUpRx port domain server seq origin s) := by
  unfold execPtpFollowUpRx
  extract_lets t
  refine .after (t := t) (rxFrame_moves _ _ (.refl _ _) (by decide)) ?_
  split
  · exact .stay
  · exact .stay_or (.next (ptpMeasure_moves _ _ _ (.refl _ _) (by decide)))

theorem execPtpDelayReqSend_runs (ns : Fin 1000) (s : State) :
    Runs (maskOf ([.outbox, .net] ++ objs [0x72])) s (execPtpDelayReqSend ns s) :=
  .stay_or (.next (txFrame_moves _ _ _ (modPtp_moves _ _ (.refl _ _) (by decide)) (by decide)))

theorem execPfcFrameRx_runs (p : Fin 8) (enable : BitVec 8) (quanta : BitVec 16) (s : State) :
    Runs (maskOf ([.outbox, .net] ++ objs [0x72])) s (execPfcFrameRx p enable quanta s) := by
  unfold execPfcFrameRx
  refine ite_runs (fun _ => .next (rxFrame_moves _ _ (.refl _ _) ?_)) fun _ => .next (endPauses_moves _
    (State_modEth_moves _ _ _ (rxFrame_moves _ _ (.refl _ _) ?_) ?_) ?_) <;> decide

theorem execCadenceCounterResume_runs (s : State) :
    Runs (maskOf (raises ++ [.net, .holds])) s (execCadenceCounterResume s) :=
  .or_stay (.next (corrected_moves _ (.refl _ _) (by decide)))

theorem execSupplyBackInRange_runs (mv : BitVec 17) (s : State) :
    Runs (maskOf (objs [0x20])) s (execSupplyBackInRange mv s) := by
  unfold execSupplyBackInRange
  extract_lets t
  refine .stay_or (.after (t := t) (noteInput_moves _ _ (.refl _ _) (by decide)) ?_)
  exact .or_stay (.next (setReg_moves _ _ page_pwrSupplyState (.refl _ _) (by decide)))

theorem execSupplyFallTo47v_runs (mv : BitVec 17) (s : State) :
    Runs (maskOf ([.power] ++ objs [0x20])) s (execSupplyFallTo47v mv s) :=
  .stay_or (.next (withPower_moves _ (noteInput_moves _ _ (.refl _ _) (by decide)) (by decide)))

theorem execInternalResetEnd_runs (s : State) :
    Runs (maskOf (raises ++ objs [0x11, 0x20, 0x73])) s (execInternalResetEnd s) :=
  .or_stay (.next (tryBoot_moves _ (modPins_moves _ _ (.refl _ _) (by decide)) (by decide)))

theorem execSiphonOffloadDone_runs (cl : Fin 16) (ue : Bool) (s : State) :
    Runs (maskOf (raises ++ [.tables, .cells, .poison] ++ objs [0x60])) s (execSiphonOffloadDone cl ue s) :=
  siphonCommand_moves _ _ _ (.refl _ _) (fun _ _ h => offloadNext_moves _ _ _ _ h (by decide)) (by decide)

theorem execSiphonPrefetchDone_runs (cl : Fin 16) (ue : Bool) (s : State) :
    Runs (maskOf (raises ++ [.tables, .memory] ++ objs [0x60, 0x63])) s (execSiphonPrefetchDone cl ue s) :=
  siphonCommand_moves _ _ _ (.refl _ _) (fun _ _ h => prefetchNext_moves _ _ _ _ h (by decide)) (by decide)

theorem execInputBelow40v_runs (s : State) :
    Runs (maskOf (allBut resetKeeps)) s (execInputBelow40v s) :=
  .allBut (.next (modPins_moves _ _ (.or_stay (powerLoss_moves _ _ (.refl _ _) (by decide))) (by decide)))

/-! ### Every command -/

/-- Every command answers a next state, and moves within its footprint. -/
theorem exec_runs (c : Instr) (s : State) : Runs (maskOf (footprint c)) s (exec c s) := by
  cases c with
  | beatStart => exact execBeatStart_runs s
  | cadenceSet => exact execCadenceSet_runs s
  | ptpSyncRx port domain server seq twoStep origin ns => exact execPtpSyncRx_runs port domain server seq twoStep origin ns s
  | ptpAnnounceRx port domain server rank steps => exact execPtpAnnounceRx_runs port domain server rank steps s
  | ptpDelayRespRx port domain server seq received => exact execPtpDelayRespRx_runs port domain server seq received s
  | ptpLockLost => exact execPtpLockLost_runs s
  | holdoverExpired => exact execHoldoverExpired_runs s
  | ppsInEdge ns => exact execPpsInEdge_runs ns s
  | frameInEdge ns => exact execFrameInEdge_runs ns s
  | frameTimeout => exact execFrameTimeout_runs s
  | tblActivateWrite q h => exact execTblActivateWrite_runs q h s
  | tableActivationApply h g => exact execTableActivationApply_runs h g s
  | roleReqWrite q cl v => exact execRoleReqWrite_runs q cl v s
  | roleChangeApply cl => exact execRoleChangeApply_runs cl s
  | trainingPlanBuild => exact execTrainingPlanBuild_runs s
  | microbatchBoundary cl => exact execMicrobatchBoundary_runs cl s
  | layerBoundary cl => exact execLayerBoundary_runs cl s
  | fProduct core err peers sideWait => exact execFProduct_runs core err peers sideWait s
  | outlierSideProduct core err => exact execOutlierSideProduct_runs core err s
  | bxProduct core err sideWait => exact execBxProduct_runs core err sideWait s
  | bwProduct core err => exact execBwProduct_runs core err s
  | bxBwPair core err sideWait => exact execBxBwPair_runs core err sideWait s
  | vectorFn core err => exact execVectorFn_runs core err s
  | vectorAdd core err => exact execVectorAdd_runs core err s
  | vectorMul core err => exact execVectorMul_runs core err s
  | vectorRowmax core err => exact execVectorRowmax_runs core err s
  | vectorRowsum core err => exact execVectorRowsum_runs core err s
  | vectorRecip core err => exact execVectorRecip_runs core err s
  | vectorRsqrt core err => exact execVectorRsqrt_runs core err s
  | vectorSubrow core err => exact execVectorSubrow_runs core err s
  | vectorMulrow core err => exact execVectorMulrow_runs core err s
  | spillConvScaledToG core err => exact execSpillConvScaledToG_runs core err s
  | spillQuantise core err peers => exact execSpillQuantise_runs core err peers s
  | spillConvWide core err => exact execSpillConvWide_runs core err s
  | gradTileSpill core err => exact execGradTileSpill_runs core err s
  | gradTileReload core err => exact execGradTileReload_runs core err s
  | streamArm core => exact execStreamArm_runs core s
  | streamRearm core => exact execStreamRearm_runs core s
  | streamDisarm core => exact execStreamDisarm_runs core s
  | barrierArrive src => exact execBarrierArrive_runs src s
  | barrierComplete b => exact execBarrierComplete_runs b s
  | barrierGraceExpired b => exact execBarrierGraceExpired_runs b s
  | healthBarrierComplete => exact execHealthBarrierComplete_runs s
  | commitBarrierComplete => exact execCommitBarrierComplete_runs s
  | stepCommit => exact execStepCommit_runs s
  | stepDiscard => exact execStepDiscard_runs s
  | entryComplete core i => exact execEntryComplete_runs core i s
  | segmentClose core base => exact execSegmentClose_runs core base s
  | updateOptimiser core err => exact execUpdateOptimiser_runs core err s
  | updateNarrowCopy core err peers => exact execUpdateNarrowCopy_runs core err peers s
  | updateSideWeight core err => exact execUpdateSideWeight_runs core err s
  | routerSelect core err => exact execRouterSelect_runs core err s
  | routerCombine core err => exact execRouterCombine_runs core err s
  | routerScatter core err => exact execRouterScatter_runs core err s
  | routerReturn core err => exact execRouterReturn_runs core err s
  | lutProduct core err peers => exact execLutProduct_runs core err peers s
  | samplingSample core err => exact execSamplingSample_runs core err s
  | samplingScore core err => exact execSamplingScore_runs core err s
  | reductionSend core err => exact execReductionSend_runs core err s
  | reductionReceive core err => exact execReductionReceive_runs core err s
  | rolloutStepBoundary => exact execRolloutStepBoundary_runs s
  | rolloutStepOrigin => exact execRolloutStepOrigin_runs s
  | rolloutStepDiscard => exact execRolloutStepDiscard_runs s
  | rollCancelWrite q v => exact execRollCancelWrite_runs q v s
  | epochReadyWrite q v => exact execEpochReadyWrite_runs q v s
  | epochPublishCopyDone copy => exact execEpochPublishCopyDone_runs copy s
  | streamStart core ctx => exact execStreamStart_runs core ctx s
  | streamRequestIssue core ctx ue => exact execStreamRequestIssue_runs core ctx ue s
  | memoryReadComplete core ctx st => exact execMemoryReadComplete_runs core ctx st s
  | storeWriteAck core ctx => exact execStoreWriteAck_runs core ctx s
  | translationWalkComplete core ctx bad => exact execTranslationWalkComplete_runs core ctx bad s
  | strmResumeWrite q v => exact execStrmResumeWrite_runs q v s
  | fqTailWrite q v => exact execFqTailWrite_runs q v s
  | sluiceDropRem src => exact execSluiceDropRem_runs src s
  | sluiceFlush src => exact execSluiceFlush_runs src s
  | sluiceFlushApply core sl => exact execSluiceFlushApply_runs core sl s
  | sluiceReset src => exact execSluiceReset_runs src s
  | sluNarrowDataWrite q v => exact execSluNarrowDataWrite_runs q v s
  | sluNarrowCloseWrite q v => exact execSluNarrowCloseWrite_runs q v s
  | deadlockPreempt core => exact execDeadlockPreempt_runs core s
  | memRetireWrite q v => exact execMemRetireWrite_runs q v s
  | retireRebuildStart => exact execRetireRebuildStart_runs s
  | retireRebuildDone bad => exact execRetireRebuildDone_runs bad s
  | scrubWord addr st odecc => exact execScrubWord_runs addr st odecc s
  | cxlExpanderLost port => exact execCxlExpanderLost_runs port s
  | xlatInvalWrite q v => exact execXlatInvalWrite_runs q v s
  | xlatInvalDone => exact execXlatInvalDone_runs s
  | pageMoveGo q v => exact execPageMoveGo_runs q v s
  | pageMoveDone bad => exact execPageMoveDone_runs bad s
  | siphonItemPlace cl ue => exact execSiphonItemPlace_runs cl ue s
  | siphonPrefetchStart cl => exact execSiphonPrefetchStart_runs cl s
  | rillFlitRx port r => exact execRillFlitRx_runs port r s
  | rillSlot port slot => exact execRillSlot_runs port slot s
  | rillTrainingDone port good nbr => exact execRillTrainingDone_runs port good nbr s
  | rillTrainingTimeout port => exact execRillTrainingTimeout_runs port s
  | rillLaneLockLoss port lane => exact execRillLaneLockLoss_runs port lane s
  | rillLaneErrorLimit port lane errors => exact execRillLaneErrorLimit_runs port lane errors s
  | rillRemapDone port good => exact execRillRemapDone_runs port good s
  | rillRetrainWrite q port v => exact execRillRetrainWrite_runs q port v s
  | rillAltSelWrite q v => exact execRillAltSelWrite_runs q v s
  | routeBarrierComplete => exact execRouteBarrierComplete_runs s
  | ethPortEnable q p => exact execEthPortEnable_runs q p s
  | ethPortDisable q p => exact execEthPortDisable_runs q p s
  | ethLinkUp p sync => exact execEthLinkUp_runs p sync s
  | ethLinkDown p => exact execEthLinkDown_runs p s
  | ethTrainingTimeout p => exact execEthTrainingTimeout_runs p s
  | ethDownRetry p => exact execEthDownRetry_runs p s
  | roceWriteRx h first last bytes => exact execRoceWriteRx_runs h first last bytes s
  | roceReadRx h a ue => exact execRoceReadRx_runs h a ue s
  | roceResponseRx i a => exact execRoceResponseRx_runs i a s
  | roceAckTimeout i => exact execRoceAckTimeout_runs i s
  | roceCnpRx i => exact execRoceCnpRx_runs i s
  | arpRequestRx p ip => exact execArpRequestRx_runs p ip s
  | neighbourSolicitRx p ip => exact execNeighbourSolicitRx_runs p ip s
  | icmpEchoRx p v6 ip fragment payload => exact execIcmpEchoRx_runs p v6 ip fragment payload s
  | lacpPduRx p sync => exact execLacpPduRx_runs p sync s
  | roceQpWrite q v => exact execRoceQpWrite_runs q v s
  | roceRgnWrite q v => exact execRoceRgnWrite_runs q v s
  | mbxPortWrite h key e j off bytes => exact execMbxPortWrite_runs h key e j off bytes s
  | mbxConsWrite h key e j v => exact execMbxConsWrite_runs h key e j v s
  | mbxDbClearWrite h key e v => exact execMbxDbClearWrite_runs h key e v s
  | mbxDbMaskWrite m v => exact execMbxDbMaskWrite_runs m v s
  | sequencerMailboxTake cl => exact execSequencerMailboxTake_runs cl s
  | mcMailboxService => exact execMcMailboxService_runs s
  | mcMailboxSend dest secure msg => exact execMcMailboxSend_runs dest secure msg s
  | resFenceReqWrite q v => exact execResFenceReqWrite_runs q v s
  | coreHangTimeout core => exact execCoreHangTimeout_runs core s
  | resCoreTestWrite q v => exact execResCoreTestWrite_runs q v s
  | coreTestDone pass => exact execCoreTestDone_runs pass s
  | resUnfenceWrite q v => exact execResUnfenceWrite_runs q v s
  | coreUnfenceApply cl => exact execCoreUnfenceApply_runs cl s
  | fatalFault die => exact execFatalFault_runs die s
  | ckptIntervalExpired => exact execCkptIntervalExpired_runs s
  | ckptRequestWrite q v => exact execCkptRequestWrite_runs q v s
  | resFailNoticeWrite q v => exact execResFailNoticeWrite_runs q v s
  | resMtbfResetWrite q v => exact execResMtbfResetWrite_runs q v s
  | ckptStopBegin => exact execCkptStopBegin_runs s
  | ckptStopEnd sig => exact execCkptStopEnd_runs sig s
  | ckptDrainTargetDone t => exact execCkptDrainTargetDone_runs t s
  | ckptDrainTimeout t => exact execCkptDrainTimeout_runs t s
  | ckptRestoreT1 q => exact execCkptRestoreT1_runs q s
  | ckptRestoreT3 q => exact execCkptRestoreT3_runs q s
  | ckptRestoreDone => exact execCkptRestoreDone_runs s
  | ckptServeWrite q v => exact execCkptServeWrite_runs q v s
  | ckptServeDone => exact execCkptServeDone_runs s
  | supplyOutOfRange mv => exact execSupplyOutOfRange_runs mv s
  | supplyBelow46 mv => exact execSupplyBelow46_runs mv s
  | supplyAbove47 mv => exact execSupplyAbove47_runs mv s
  | supplyHoldComplete => exact execSupplyHoldComplete_runs s
  | supplyReleaseStep => exact execSupplyReleaseStep_runs s
  | brownOut mv => exact execBrownOut_runs mv s
  | overVoltage mv => exact execOverVoltage_runs mv s
  | domainReqWrite q v => exact execDomainReqWrite_runs q v s
  | domainTransitionDone id => exact execDomainTransitionDone_runs id s
  | domainTransitionAbort id => exact execDomainTransitionAbort_runs id s
  | freqReqWrite q f => exact execFreqReqWrite_runs q f s
  | voltReqWrite q v => exact execVoltReqWrite_runs q v s
  | dvfsVoltageReached id => exact execDvfsVoltageReached_runs id s
  | sleepWrite q v => exact execSleepWrite_runs q v s
  | powerSample w mv => exact execPowerSample_runs w mv s
  | thermalSample ts => exact execThermalSample_runs ts s
  | sspAddressMatch addr => exact execSspAddressMatch_runs addr s
  | sspWakeComplete => exact execSspWakeComplete_runs s
  | j1Mate feed slot => exact execJ1Mate_runs feed slot s
  | j1Break => exact execJ1Break_runs s
  | pwrEnRise rested => exact execPwrEnRise_runs rested s
  | softStartBegin => exact execSoftStartBegin_runs s
  | railsInRegulation => exact execRailsInRegulation_runs s
  | pwrEnFall => exact execPwrEnFall_runs s
  | rstNAssert => exact execRstNAssert_runs s
  | rstNDeassert feed slot => exact execRstNDeassert_runs feed slot s
  | bootIdentity key => exact execBootIdentity_runs key s
  | bootFirmware => exact execBootFirmware_runs s
  | bootConfig => exact execBootConfig_runs s
  | bootPower => exact execBootPower_runs s
  | bootPowerRetry => exact execBootPowerRetry_runs s
  | bootMemory => exact execBootMemory_runs s
  | bootReady ms => exact execBootReady_runs ms s
  | recoverReqTimer => exact execRecoverReqTimer_runs s
  | recoveryBlockRx block bytes => exact execRecoveryBlockRx_runs block bytes s
  | recoverGoRx tag len => exact execRecoverGoRx_runs tag len s
  | registerWrite q w => exact execRegisterWrite_runs q w s
  | rngSeedWrite q v => exact execRngSeedWrite_runs q v s
  | dataPosWrite q v => exact execDataPosWrite_runs q v s
  | stepSkipWrite q v => exact execStepSkipWrite_runs q v s
  | retryLimitWrite q v => exact execRetryLimitWrite_runs q v s
  | dbgAccRead q => exact execDbgAccRead_runs q s
  | dbgSpillRead q => exact execDbgSpillRead_runs q s
  | logRead q => exact execLogRead_runs q s
  | alertAckWrite q v => exact execAlertAckWrite_runs q v s
  | secOwnerKeyWrite q w => exact execSecOwnerKeyWrite_runs q w s
  | secOwnerRelease q b => exact execSecOwnerRelease_runs q b s
  | secMinSvnWrite q b => exact execSecMinSvnWrite_runs q b s
  | attestNonceWrite q nonce => exact execAttestNonceWrite_runs q nonce s
  | attestReportReady sig => exact execAttestReportReady_runs sig s
  | dbgEnter q b => exact execDbgEnter_runs q b s
  | dbgExit q v => exact execDbgExit_runs q v s
  | cfgWrite q b => exact execCfgWrite_runs q b s
  | cfgRecordDone => exact execCfgRecordDone_runs s
  | fwVerify q v => exact execFwVerify_runs q v s
  | fwVerifyDone => exact execFwVerifyDone_runs s
  | fwCommitFlash q b => exact execFwCommitFlash_runs q b s
  | fwCommitRestart q b => exact execFwCommitRestart_runs q b s
  | fwFlashDone => exact execFwFlashDone_runs s
  | warmRestartStart => exact execWarmRestartStart_runs s
  | warmRestartDone => exact execWarmRestartDone_runs s
  | strapCheck feed slot => exact execStrapCheck_runs feed slot s
  | coolantSample inlet outlet flow leak => exact execCoolantSample_runs inlet outlet flow leak s
  | ptpFollowUpRx port domain server seq origin => exact execPtpFollowUpRx_runs port domain server seq origin s
  | ptpDelayReqSend ns => exact execPtpDelayReqSend_runs ns s
  | pfcFrameRx p enable quanta => exact execPfcFrameRx_runs p enable quanta s
  | cadenceCounterResume => exact execCadenceCounterResume_runs s
  | supplyBackInRange mv => exact execSupplyBackInRange_runs mv s
  | supplyFallTo47v mv => exact execSupplyFallTo47v_runs mv s
  | internalResetEnd => exact execInternalResetEnd_runs s
  | siphonOffloadDone cl ue => exact execSiphonOffloadDone_runs cl ue s
  | siphonPrefetchDone cl ue => exact execSiphonPrefetchDone_runs cl ue s
  | inputBelow40v => exact execInputBelow40v_runs s

/-- Settles O57: every command moves within the mask of its footprint, and a part outside the footprint has no bit there. -/
theorem frameKept : Obligations.FrameKept := by
  intro c s t k hexec hk
  obtain ⟨u, hu, hmoves⟩ := exec_runs c s
  obtain rfl : t = u := Host.Outcome.next.inj (hexec.symm.trans hu)
  exact hmoves.frame hk

end Sys2Proof.Machine
end

section
/-! Events: the record, and what the severity does beside it. An invariant over a sequence of operations. -/

namespace Sys2Proof.Machine

/-- The record of an event changes the log, what is sent and the alert; the rest is what its severity does. -/
theorem raise_records (s : State) (code : Nat) (sev : Sev) (unit pos : Nat) :
    Moves (maskOf [.outbox, .log, .obj 0x23]) (sevEffect s sev unit) (raise s code sev unit pos) := by
  unfold raise
  extract_lets t e
  refine ite_moves (fun _ => .refl _ _) fun _ => ite_moves (fun _ => ite_moves (fun hlen => ?_) fun _ => .refl _ _)
    fun _ => logRecord_moves _ (.refl _ _) (by decide)
  refine withLog_moves (.refl _ _) (fun hwf => ?_) (by decide)
  simp only [LogState.wf, Bool.and_eq_true, decide_eq_true_eq, List.length_append, List.length_singleton] at hwf ⊢
  exact ⟨⟨hwf.1.1, hlen⟩, hwf.2⟩

theorem raise_clusters (s : State) (code : Nat) (sev : Sev) (unit pos : Nat) :
    (raise s code sev unit pos).clusters = (sevEffect s sev unit).clusters := (raise_records s code sev unit pos).same .clusters rfl
theorem raise_train (s : State) (code : Nat) (sev : Sev) (unit pos : Nat) :
    (raise s code sev unit pos).train = (sevEffect s sev unit).train := (raise_records s code sev unit pos).same .train rfl
theorem raise_pins (s : State) (code : Nat) (sev : Sev) (unit pos : Nat) :
    (raise s code sev unit pos).pins = (sevEffect s sev unit).pins := (raise_records s code sev unit pos).same .pins rfl

/-- Only a fatal event sets the fatal latch (R9, R465). -/
theorem raise_pins_of_ne_fatal (s : State) (code : Nat) {sev : Sev} (unit pos : Nat) (h : sev ≠ .fatal) :
    (raise s code sev unit pos).pins = s.pins := by
  rw [raise_pins]
  cases sev with
  | note => rfl
  | degrade => rfl
  | stepAbort =>
    have hm : Moves (maskOf [.clusters, .train, .roll]) s (sevEffect s .stepAbort unit) :=
      ite_moves (fun _ => abortGroup_moves _ _ (.refl _ _) (by decide)) fun _ =>
        ite_moves (fun _ => abortGroup_moves _ _ (.refl _ _) (by decide)) fun _ => abortDevice_moves _ (.refl _ _) (by decide)
    exact hm.same .pins rfl
  | fatal => exact absurd rfl h
theorem raise_fatal_latches (s : State) (code unit pos : Nat) : (raise s code .fatal unit pos).pins.fatalLatch = true := by
  rw [raise_pins]; rfl

/-- What every step of a sequence keeps, the sequence keeps. -/
theorem forAll_induction {α : Type} {P : State → Prop} (xs : List α) (f : α → State → State) {s : State} (h : P s)
    (hf : ∀ x t, P t → P (f x t)) : P (forAll xs f s) := by
  induction xs generalizing s with
  | nil => exact h
  | cons x xs ih => exact ih (hf x s h)

end Sys2Proof.Machine
end

section
/-! A fatal fault (R17, R373, R388). The ports of EE that go DOWN fail and move queue pairs, drain targets, the PTP client and held flits; none
of that touches the state of another Ethernet port or the pins (`PortsKept`), so the state that each port takes is there at the end. -/

namespace Sys2Proof.Machine

/-! ### What ends at a port leaves the state of the Ethernet ports and the latch -/

/-- The pins and the state of every Ethernet port read as before. -/
def PortsKept (s t : State) : Prop := t.pins = s.pins ∧ ∀ p, t.reg (Obj.ethPState p) = s.reg (Obj.ethPState p)

namespace PortsKept
variable {s0 s t : State}

theorem refl (s : State) : PortsKept s s := ⟨rfl, fun _ => rfl⟩
theorem trans (h : PortsKept s0 s) (h2 : PortsKept s t) : PortsKept s0 t :=
  ⟨h2.1.trans h.1, fun p => (h2.2 p).trans (h.2 p)⟩
theorem moves {A : Nat} (h : PortsKept s0 s) (hm : Moves A s t) (hp : A.testBit Comp.pins.index = false)
    (he : A.testBit (Comp.obj 0x72).index = false) : PortsKept s0 t :=
  h.trans ⟨hm.same .pins hp, fun p => hm.same (.obj 0x72) he _ (page_ethPState p)⟩
theorem raise {sev : Sev} (h : PortsKept s0 s) (code unit pos : Nat) (hs : sev ≠ .fatal) :
    PortsKept s0 (raise s code sev unit pos) :=
  h.trans ⟨raise_pins_of_ne_fatal s code unit pos hs, fun p => raise_reg _ _ _ _ _ _ (by rw [page_ethPState]; decide)⟩
theorem bump {k n : Nat} (h : PortsKept s0 s) (hk : ∀ p, Obj.ethPState p ≠ k) : PortsKept s0 (s.bump k n) :=
  h.trans ⟨rfl, fun p => by rw [bump_reg, if_neg (hk p)]⟩

theorem roceEmit (h : PortsKept s0 s) (p : Nat) (o : Out) : PortsKept s0 (roceEmit s p o) := by
  have hkey (q : Nat) : Obj.ethPState q ≠ Obj.ethPTxFrames p := by unfold Obj.ethPState Obj.ethPTxFrames ob; omega
  unfold Machine.roceEmit
  split
  · exact h
  · split
    · exact h.trans ⟨rfl, fun _ => rfl⟩
    · exact (h.bump hkey).trans ⟨rfl, fun _ => rfl⟩
theorem qpResend (h : PortsKept s0 s) (i : Nat) : PortsKept s0 (qpResend s i) :=
  forAll_induction _ _ h fun _ _ h => h.roceEmit _ _
theorem setQpFld (h : PortsKept s0 s) (i off size v : Nat) : PortsKept s0 (s.setQpFld i off size v) :=
  h.moves (State_setQpFld_moves s i off size v (.refl _ s) (.refl _)) (by decide) (by decide)
theorem qpMove (h : PortsKept s0 s) (i : Nat) : PortsKept s0 (qpMove s i) := by
  unfold Machine.qpMove
  dsimp only
  split
  · exact h
  · split
    · exact (h.setQpFld _ _ _ _).qpResend _
    · split
      · exact h.setQpFld _ _ _ _
      · exact h
theorem qpsMove (h : PortsKept s0 s) (net : Nat) : PortsKept s0 (qpsMove s net) :=
  forAll_induction _ _ h fun _ _ h => h.qpMove _

theorem drainFail (h : PortsKept s0 s) (k : Nat) : PortsKept s0 (drainFail s k) := by
  unfold Machine.drainFail
  split
  · exact h
  · have hset := h.moves (setDrain_moves s k 3 (.refl _ s) (.refl _)) (by decide) (by decide)
    exact (hset.raise _ _ _ (by decide)).moves (drainEnd_moves _ (.refl _ _) (.refl _)) (by decide) (by decide)
theorem usersFail (h : PortsKept s0 s) (i : Nat) : PortsKept s0 (usersFail s i) := by
  unfold Machine.usersFail
  extract_lets partner store
  have hpartner : PortsKept s0 partner := by
    dsimp only [partner]; split
    · exact h.drainFail _
    · exact h
  have hstore : PortsKept s0 store := by
    dsimp only [store]; split
    · exact hpartner.drainFail _
    · exact hpartner
  split
  · exact hstore.trans ⟨rfl, fun _ => rfl⟩
  · exact hstore
theorem qpError (h : PortsKept s0 s) (i : Nat) : PortsKept s0 (qpError s i) := by
  have hkey (q : Nat) : Obj.ethPState q ≠ Obj.roceErrQps := by unfold Obj.ethPState Obj.roceErrQps ob; omega
  unfold Machine.qpError
  split
  · exact h
  · have hqp := (h.setQpFld i 0x28 1 2).moves (State_modQp_moves _ i (fun q => { q with out := [], retries := 0 }) (.refl _ _) (.refl _))
      (by decide) (by decide)
    exact (hqp.bump hkey).raise _ _ _ (by decide)
theorem qpFail (h : PortsKept s0 s) (i : Nat) : PortsKept s0 (qpFail s i) := by
  unfold Machine.qpFail
  split
  · exact h
  · exact (h.qpError i).usersFail i

theorem modPtp (h : PortsKept s0 s) (f : PtpState → PtpState) : PortsKept s0 (modPtp s f) := h.trans ⟨rfl, fun _ => rfl⟩
theorem setServer (h : PortsKept s0 s) (server port : Nat) :
    PortsKept s0 ((s.setReg Obj.ptpServer server).setReg Obj.ptpPort port) :=
  h.moves (setReg_moves _ _ page_ptpPort (setReg_moves _ _ page_ptpServer (.refl (maskOf [.obj 0x73]) s) (by decide)) (by decide))
    (by decide) (by decide)
theorem ptpChoose (h : PortsKept s0 s) : PortsKept s0 (ptpChoose s) := by
  unfold Machine.ptpChoose
  dsimp only
  split
  · exact h.setServer _ _
  · split
    · exact h
    · split
      · exact ((h.setServer _ _).modPtp _).raise _ _ _ (by decide)
      · exact (h.setServer _ _).modPtp _
theorem ptpPortGone (h : PortsKept s0 s) (p : Nat) : PortsKept s0 (ptpPortGone s p) := (h.modPtp _).ptpChoose

theorem holdFlit (h : PortsKept s0 s) (p : Nat) (f : Flit) : PortsKept s0 (holdFlit s p f) := by
  have hkey (q : Nat) : Obj.ethPState q ≠ Obj.rillHeldFlits := by unfold Obj.ethPState Obj.rillHeldFlits ob; omega
  unfold Machine.holdFlit
  extract_lets rill queued counted
  have hcounted : PortsKept s0 counted := (h.trans ⟨rfl, fun _ => rfl⟩ : PortsKept s0 queued).bump hkey
  split
  · exact hcounted
  · have hraised : PortsKept s0 (counted.withRill { counted.rill with holdRaised := true }) := hcounted.trans ⟨rfl, fun _ => rfl⟩
    exact hraised.raise _ _ _ (by decide)
theorem portDown (h : PortsKept s0 s) (p : Nat) : PortsKept s0 (portDown s p) := by
  have hset := h.moves (setReg_moves (Obj.rillPState p) 5 (page_rillPState p) (.refl _ s) (.refl _)) (by decide) (by decide)
  exact (hset.moves (linkGone_moves _ p 5 (.refl _ _) (.refl _)) (by decide) (by decide)).raise _ _ _ (by decide)
theorem downWithQueues (h : PortsKept s0 s) (p : Nat) : PortsKept s0 (downWithQueues s p) :=
  forAll_induction _ _ (h.portDown p) fun _ _ h => h.holdFlit _ _

end PortsKept

/-! ### The ports of EE go DOWN -/

/-- A port that leaves its state: beside that state, nothing of the ports or pins changes. -/
theorem ethLeave_kept (s : State) (p code : Nat) : PortsKept (ethState s p code) (ethLeave s p code) := by
  have hkey (q : Nat) : Obj.ethPState q ≠ Obj.ethPLinkDowns p := by unfold Obj.ethPState Obj.ethPLinkDowns ob; omega
  unfold ethLeave
  split
  · exact .refl _
  · extract_lets net gone
    have hgone : PortsKept (ethState s p code) gone := ((PortsKept.refl _).bump hkey).ptpPortGone p
    split
    · exact forAll_induction _ _ (hgone.raise _ _ _ (by decide)) fun _ _ h => h.qpFail _
    · exact (hgone.raise _ _ _ (by decide)).qpsMove _

theorem ethPState_inj {p q : Nat} : Obj.ethPState p = Obj.ethPState q ↔ p % 8 = q % 8 := by
  unfold Obj.ethPState ob; omega
theorem ethState_reg (s : State) (p code q : Nat) (hc : code < 256) :
    (ethState s p code).reg (Obj.ethPState q) = if q % 8 = p % 8 then code else s.reg (Obj.ethPState q) := by
  have hfits : code < 256 ^ objSize (objPart (Obj.ethPState p)) := (size_ethPState p).symm ▸ hc
  unfold ethState
  rw [setReg_reg, Nat.mod_eq_of_lt hfits]
  exact ite_congr (propext ethPState_inj) (fun _ => rfl) fun _ => rfl

/-- A port that is not OFF goes DOWN (R352). -/
def leavePort (p : Nat) (s : State) : State := if s.reg (Obj.ethPState p) = 0 then s else ethLeave s p 3

theorem leavePort_pins (p : Nat) (s : State) : (leavePort p s).pins = s.pins := by
  unfold leavePort
  split
  · rfl
  · exact (ethLeave_kept s p 3).1
theorem leavePort_reg (p : Nat) (s : State) (q : Nat) : (leavePort p s).reg (Obj.ethPState q) =
    if q % 8 = p % 8 ∧ s.reg (Obj.ethPState q) ≠ 0 then 3 else s.reg (Obj.ethPState q) := by
  have hreg : q % 8 = p % 8 → s.reg (Obj.ethPState q) = s.reg (Obj.ethPState p) := fun h => by rw [ethPState_inj.2 h]
  unfold leavePort
  split
  · next h0 => rw [if_neg fun h => h.2 ((hreg h.1).trans h0)]
  · next h0 =>
    rw [(ethLeave_kept s p 3).2, ethState_reg s p 3 q (by decide)]
    by_cases h : q % 8 = p % 8
    · rw [if_pos h, if_pos ⟨h, by rwa [hreg h]⟩]
    · rw [if_neg h, if_neg fun h2 => h h2.1]
theorem leavePorts_pins (ps : List Nat) (s : State) : (forAll ps leavePort s).pins = s.pins :=
  forAll_induction (P := fun t => t.pins = s.pins) _ _ rfl fun p t h => (leavePort_pins p t).trans h
theorem leavePorts_reg (ps : List Nat) (s : State) {p : Nat} (hp : p ∈ ps) (h0 : s.reg (Obj.ethPState p) ≠ 0) :
    (forAll ps leavePort s).reg (Obj.ethPState p) = 3 := by
  -- once DOWN, a port is not OFF, and a later port that leaves keeps it DOWN
  have hdown (t : State) (ps : List Nat) (h : t.reg (Obj.ethPState p) = 3) : (forAll ps leavePort t).reg (Obj.ethPState p) = 3 :=
    forAll_induction (P := fun u => u.reg (Obj.ethPState p) = 3) _ _ h fun x u hu => by rw [leavePort_reg, hu]; simp
  induction ps generalizing s with
  | nil => cases hp
  | cons x ps ih =>
    rcases List.mem_cons.1 hp with rfl | hps
    · exact hdown _ ps (by rw [leavePort_reg, if_pos ⟨rfl, h0⟩])
    · refine ih (leavePort x s) hps ?_
      rw [leavePort_reg]
      split
      · decide
      · exact h0

/-- The Rill ports of EE are lost after its Ethernet ports, and change nothing of them. -/
theorem portsOfEe_kept (s : State) : PortsKept (forAll [2, 3, 6, 7] leavePort s) (portsOfEe s) := by
  refine forAll_induction _ _ (.refl _) fun p t h => ?_
  split
  · exact h
  · exact h.downWithQueues p
theorem portsOfEe_pins (s : State) : (portsOfEe s).pins = s.pins := (portsOfEe_kept s).1.trans (leavePorts_pins _ s)
theorem portsOfEe_down (s : State) {p : Nat} (hp : p ∈ [2, 3, 6, 7]) (h0 : s.reg (Obj.ethPState p) ≠ 0) :
    (portsOfEe s).reg (Obj.ethPState p) = 3 := ((portsOfEe_kept s).2 p).trans (leavePorts_reg _ s hp h0)
theorem portsOfEe_stopped (s : State) : (portsOfEe s).stopped = s.stopped :=
  (portsOfEe_moves s (.refl _ s) (.refl _)).same .stopped rfl
theorem portsOfEe_ledger (s : State) : (portsOfEe s).ledger = s.ledger :=
  (portsOfEe_moves s (.refl _ s) (.refl _)).same .ledger rfl

/-! ### A fatal fault -/

theorem freezeLedger_frozen (s : State) (die : Nat) : (freezeLedger s die).ledger.frozen = true := by
  unfold freezeLedger
  split
  · assumption
  · rfl
theorem freezeLedger_of_frozen {s : State} (die : Nat) (h : s.ledger.frozen = true) : freezeLedger s die = s := if_pos h
theorem freezeLedger_ledger {s : State} (die : Nat) (h : s.ledger.frozen = false) : (freezeLedger s die).ledger =
    { s.ledger with
      frozen := true, fatalDie := die, bank := s.reg Obj.stepBank,
      gens := (s.reg Obj.ckptGen, s.reg Obj.ckptSecuredGen, s.reg Obj.ckptDrainState) } := by
  unfold freezeLedger; rw [if_neg (by simp [h])]; rfl
theorem freezeLedger_keeps (s : State) (die : Nat) : Moves (maskOf [.ledger]) s (freezeLedger s die) :=
  freezeLedger_moves s die (.refl _ s) (by decide)

/-- The unit that the event of a fatal fault names. -/
def fatalUnit (die : Nat) : Nat := if die < 4 then uDie die else uEdge die
/-- The machine stopped by a fatal fault of a die other than EW, the event raised. -/
def fatalStop (s : State) (die : Nat) : State := (raise s 0x8A20 .fatal (fatalUnit die)).withStopped true
/-- The same with the ledger frozen. -/
def frozenStop (s : State) (die : Nat) : State := freezeLedger (fatalStop s die) die

theorem execFatalFault_edgeWest {s : State} (h : s.running = true) : execFatalFault 4 s =
    .next (((s.withStopped true).withDead true).withPins { s.pins with fatalLatch := true }) := by
  unfold execFatalFault; rw [if_neg (by simp [h])]; rfl
theorem execFatalFault_compute {s : State} (h : s.running = true) {die : Fin 6} (hd : die.val < 4) :
    execFatalFault die s = .next (frozenStop s die) := by
  unfold execFatalFault
  rw [if_neg (by simp [h]), if_neg (by omega)]
  change Host.Outcome.next (if die.val = 5 then portsOfEe (frozenStop s die) else frozenStop s die) = _
  rw [if_neg (by omega)]
theorem execFatalFault_edgeEast {s : State} (h : s.running = true) :
    execFatalFault 5 s = .next (portsOfEe (frozenStop s 5)) := by
  unfold execFatalFault; rw [if_neg (by simp [h])]; rfl

theorem frozenStop_stopped (s : State) (die : Nat) : (frozenStop s die).stopped = true :=
  (freezeLedger_keeps _ die).same .stopped rfl
theorem frozenStop_frozen (s : State) (die : Nat) : (frozenStop s die).ledger.frozen = true := freezeLedger_frozen _ die
theorem frozenStop_dead (s : State) (die : Nat) : (frozenStop s die).dead = s.dead :=
  Eq.trans ((freezeLedger_keeps _ die).same .dead rfl) (raise_dead ..)
theorem frozenStop_latch (s : State) (die : Nat) : (frozenStop s die).pins.fatalLatch = true := by
  rw [frozenStop, (freezeLedger_keeps (fatalStop s die) die).same .pins rfl]
  exact raise_fatal_latches ..
theorem frozenStop_reports (s : State) (die : Nat) : Reports s (frozenStop s die) 0x8A20 .fatal (fatalUnit die) :=
  (raise_reports s 0x8A20 .fatal (fatalUnit die) noPos).then ((freezeLedger_keeps _ die).same .log rfl)
theorem fatalStop_ledger (s : State) (die : Nat) : (fatalStop s die).ledger = s.ledger := raise_ledger ..
theorem freezeLedger_reg (s : State) (die k : Nat) : (freezeLedger s die).reg k = s.reg k := by
  unfold freezeLedger; split <;> rfl
theorem frozenStop_reg (s : State) (die k : Nat) (hk : page k ≠ 0x23) : (frozenStop s die).reg k = s.reg k :=
  (freezeLedger_reg _ die k).trans (raise_reg _ _ _ _ _ k hk)
theorem frozenStop_fresh (s : State) (die : Nat) (h : s.ledger.frozen = false) :
    (frozenStop s die).ledger.fatalDie = die ∧ (frozenStop s die).ledger.phase = s.ledger.phase ∧
      (frozenStop s die).ledger.step = s.ledger.step := by
  have hl := fatalStop_ledger s die
  rw [frozenStop, freezeLedger_ledger die (by rw [hl, h]), hl]
  exact ⟨rfl, rfl, rfl⟩
theorem frozenStop_again (s : State) (die : Nat) (h : s.ledger.frozen = true) :
    (frozenStop s die).ledger = s.ledger := by
  have hl := fatalStop_ledger s die
  rw [frozenStop, freezeLedger_of_frozen die (by rw [hl, h]), hl]

/-- Settles O27: on EW the device runs no longer; on another die the machine stops and the ledger freezes; on EE its ports go DOWN. -/
theorem fatalFaultCompletes : Obligations.FatalFaultCompletes := by
  intro s hrun
  refine ⟨⟨_, execFatalFault_edgeWest hrun, rfl, rfl, rfl, fun p => ?_⟩, fun die hdie => ?_, ?_⟩
  · have hdead : (((s.withStopped true).withDead true).withPins { s.pins with fatalLatch := true }).running = false := by
      simp [State.running]
    simp [State.serving, hdead]
  · refine ⟨_, execFatalFault_compute hrun hdie, frozenStop_stopped s die, frozenStop_dead s die,
      frozenStop_frozen s _, frozenStop_fresh s die, frozenStop_again s die, frozenStop_latch s die, ?_⟩
    have hunit : fatalUnit die = uDie die := if_pos hdie
    exact hunit ▸ frozenStop_reports s die
  · refine ⟨_, execFatalFault_edgeEast hrun, ?_⟩
    simp only [portsOfEe_stopped, portsOfEe_ledger, portsOfEe_pins]
    refine ⟨frozenStop_stopped s 5, frozenStop_frozen s _, fun h => (frozenStop_fresh s 5 h).1, frozenStop_latch s 5, fun p hp h0 => ?_⟩
    refine portsOfEe_down _ hp ?_
    rw [frozenStop_reg s 5 _ (by rw [page_ethPState]; decide)]
    exact h0

end Sys2Proof.Machine
end

section
/-! Tables: an image written to `TBL.ACTIVATE` and its outcome, and a table that a group switches to or that is dropped (R36–R40). -/

namespace Sys2Proof.Machine

/-! ### An image written -/

/-- What the check of an image leaves: a shadow table, or a refusal (R37–R39). -/
def imageOutcome (s : State) (h : Nat) (snap : SMap Nat) : State :=
  if imageOk s h snap then (stageTable s h snap).setReg Obj.tblActStatus 2 else refuseTable s 0x4A01

theorem tblActivateWrite_checks {s : State} {h : Nat} (hres : bitsOf h 40 10 = 0) : tblActivateWrite h s =
    Ans.ok (imageOutcome (s.setReg Obj.tblActivate h) h (regionSnap s.mem (s.regionBase h) (hBytes h))) := by
  unfold tblActivateWrite; rw [if_neg (by simp [hres])]; rfl

theorem stageTable_shadow (s : State) (h : Nat) (snap : SMap Nat) :
    ∃ r ∈ (stageTable s h snap).tables, r.handle = h ∧ r.snap = snap ∧ r.active = false := by
  unfold stageTable
  extract_lets rd digest shadow waiting staged measured
  have hmem : shadow ∈ staged.tables := List.mem_append_right _ (List.mem_singleton_self shadow)
  refine ⟨shadow, ?_, rfl, rfl, rfl⟩
  split
  · rw [raise_tables]; exact hmem
  · exact hmem

theorem imageOutcome_activate (s : State) (h : Nat) (snap : SMap Nat) :
    (imageOutcome s h snap).reg Obj.tblActivate = s.reg Obj.tblActivate := by
  unfold imageOutcome
  split
  · rw [setReg_reg, if_neg (by decide)]
    exact (stageTable_moves s h snap (.refl _ s) (.refl _)).reg _ rfl
  · unfold refuseTable
    rw [raise_reg _ _ _ _ _ _ (by decide), setReg_reg, if_neg (by decide), bump_reg, if_neg (by decide)]
theorem imageOutcome_status (s : State) (h : Nat) (snap : SMap Nat) :
    (imageOutcome s h snap).reg Obj.tblActStatus = if imageOk s h snap = true then 2 else 3 := by
  unfold imageOutcome
  split
  · rw [setReg_reg, if_pos rfl]; rfl
  · unfold refuseTable
    rw [raise_reg _ _ _ _ _ _ (by decide), setReg_reg, if_pos rfl]; rfl
theorem imageOutcome_shadow {s : State} {h : Nat} {snap : SMap Nat} (hok : imageOk s h snap = true) :
    ∃ r ∈ (imageOutcome s h snap).tables, r.handle = h ∧ r.snap = snap ∧ r.active = false := by
  unfold imageOutcome
  rw [if_pos hok]
  exact stageTable_shadow s h snap

/-- An image written is checked, and the outcome shows in `TBL.ACT_STATUS` (R36–R39). -/
theorem tblActivateWrite_leads {s : State} {q : Req} {h : BitVec 64} (hq : s.takesWrite q Obj.tblActivate = true)
    (hres : bitsOf h.toNat 40 10 = 0) :
    let snap := regionSnap s.mem (s.regionBase h.toNat) (hBytes h.toNat)
    Leads (.tblActivateWrite q h) s fun t => t.reg Obj.tblActivate = h.toNat ∧ Answers t q 2 Obj.tblActivate stOk ∧
      t.reg Obj.tblActStatus = (if imageOk (s.setReg Obj.tblActivate h.toNat) h.toNat snap = true then 2 else 3) ∧
      (imageOk (s.setReg Obj.tblActivate h.toNat) h.toNat snap = true →
        ∃ r ∈ t.tables, r.handle = h.toNat ∧ r.snap = snap ∧ r.active = false) := by
  intro snap
  have hans := (dictWrite_takes (tblActivateWrite h.toNat) hq).trans (by rw [tblActivateWrite_checks hres])
  refine ⟨_, congrArg Host.Outcome.next hans, ?_, answered_answers .., ?_, fun hok => imageOutcome_shadow hok⟩
  · rw [answered_reg _ _ _ _ _ (by decide)]
    refine (imageOutcome_activate ..).trans ?_
    rw [setReg_reg, if_pos rfl]
    exact Nat.mod_eq_of_lt h.isLt
  · rw [answered_reg _ _ _ _ _ (by decide)]
    exact imageOutcome_status ..

/-! ### A table activated -/

theorem execTableActivationApply_due {s : State} {h : BitVec 64} {g : Fin 3} {r : TableRec}
    (hfind : s.tables.find? (fun t => t.handle == h.toNat && tableDue s t g.val) = some r) :
    execTableActivationApply h g s = .next (tableApply s r g) := by
  unfold execTableActivationApply; rw [hfind]
theorem handle_of_due {s : State} {h g : Nat} {r : TableRec}
    (hfind : s.tables.find? (fun t => t.handle == h && tableDue s t g) = some r) : r.handle = h := by
  have hr := List.find?_some hfind
  simp only [Bool.and_eq_true, beq_iff_eq] at hr
  exact hr.1

theorem tableApply_switches {s : State} {r : TableRec} {g : Nat} (hheld : s.held .checkpoint = false) (hb : s.groupAtBoundary g = true)
    (hsame : r.active = true ∨ regionSnap s.mem (s.regionBase r.handle) (hBytes r.handle) = r.snap) :
    tableApply s r g = switchTable s r g := by
  unfold tableApply
  rw [if_neg (by simp [hheld, hb]), if_neg]
  rcases hsame with h | h <;> simp [h]
theorem tableApply_drops {s : State} {r : TableRec} {g : Nat} (hheld : s.held .checkpoint = false) (hb : s.groupAtBoundary g = true)
    (hact : r.active = false) (hdiff : regionSnap s.mem (s.regionBase r.handle) (hBytes r.handle) ≠ r.snap) :
    tableApply s r g = dropShadow s r := by
  unfold tableApply
  rw [if_neg (by simp [hheld, hb]), if_pos (by simp [hact, hdiff])]

/-- The table that a group switches to is active, and waits for the groups that are left; what follows a first switch changes no table. -/
theorem switchTable_tables (s : State) (r : TableRec) (g : Nat) :
    { r with active := true, waitGroups := (dueGroups s r).filter (· != g), bad := false } ∈ (switchTable s r g).tables := by
  unfold switchTable
  extract_lets rest first oldLayers new others switched after
  have hnew : new ∈ switched.tables := List.mem_append_right _ (List.mem_singleton_self new)
  have hafter : after.tables = switched.tables := by
    dsimp only [after]
    split
    · exact (tableEffect_moves switched r.handle oldLayers new (.refl _ _) (.refl _)).same .tables rfl
    · rfl
  split
  · exact hafter ▸ hnew
  · exact hafter ▸ hnew

theorem dropShadow_tables (s : State) (r : TableRec) :
    (dropShadow s r).tables = s.tables.filter fun x => x.active || x.handle != r.handle := by
  unfold dropShadow
  dsimp only
  split
  · rw [setReg_tables, raise_tables]; rfl
  · rw [raise_tables]; rfl
theorem dropShadow_refused (s : State) (r : TableRec) :
    (dropShadow s r).reg Obj.tblRefused = min (s.reg Obj.tblRefused + 1) (2 ^ 32 - 1) := by
  unfold dropShadow
  extract_lets dropped told
  have htold : told.reg Obj.tblRefused = min (s.reg Obj.tblRefused + 1) (2 ^ 32 - 1) := by
    dsimp only [told]
    rw [raise_reg _ _ _ _ _ _ (by decide), bump_reg, if_pos rfl]; rfl
  split
  · rw [setReg_reg, if_neg (by decide)]; exact htold
  · exact htold
theorem dropShadow_reports (s : State) (r : TableRec) : Reports s (dropShadow s r) 0x4A04 .note uMgt := by
  unfold dropShadow
  extract_lets dropped told
  have htold : Reports s told 0x4A04 .note uMgt := (raise_reports (dropped.bump Obj.tblRefused 1) 0x4A04 .note uMgt noPos).of_same rfl rfl
  split
  · exact htold.then rfl
  · exact htold

end Sys2Proof.Machine
end

section
/-! Roles: a request, its refusal, and a cluster that leaves its role or joins a group (R23, R24, R64–R67). -/

namespace Sys2Proof.Machine

theorem schedClRole_ne_roleReq (a b : Nat) : Obj.schedClRole a ≠ Obj.schedClRoleReq b := by
  unfold Obj.schedClRole Obj.schedClRoleReq ob; omega
theorem size_schedClRole (n : Nat) : objSize (objPart (Obj.schedClRole n)) = 1 :=
  (by decide : ∀ m : Fin 16, objSize (objPart (ob (0x4100 + m.val) 0x02)) = 1) ⟨n % 16, Nat.mod_lt _ (by decide)⟩
theorem role_setRoleReq (s : State) (a b v : Nat) : (s.setReg (Obj.schedClRoleReq b) v).role a = s.role a := by
  unfold State.role; rw [setReg_reg, if_neg (schedClRole_ne_roleReq a b)]
theorem roleReq_setRoleReq (s : State) (cl v : Nat) :
    (s.setReg (Obj.schedClRoleReq cl) v).reg (Obj.schedClRoleReq cl) = v % 256 := by
  rw [setReg_reg, if_pos rfl]
  exact congrArg (fun n => v % 256 ^ n) (size_schedClRoleReq cl)
theorem Moves.role {A : Nat} {s t : State} (h : Moves A s t) (hA : A.testBit (Comp.obj 0x41).index = false) (cl : Nat) :
    t.role cl = s.role cl := h.same (.obj 0x41) hA _ (page_schedClRole cl)
theorem Moves.roleReq {A : Nat} {s t : State} (h : Moves A s t) (hA : A.testBit (Comp.obj 0x41).index = false) (cl : Nat) :
    t.reg (Obj.schedClRoleReq cl) = s.reg (Obj.schedClRoleReq cl) := h.same (.obj 0x41) hA _ (page_schedClRoleReq cl)

theorem execRoleReqWrite_taken {s : State} {q : Req} {cl : Fin 16} {v : BitVec 8}
    (hq : s.takesWrite q (Obj.schedClRoleReq cl.val) = true) (hv : v.toNat ≤ 2) : execRoleReqWrite q cl v s =
      .next (answered s.beat q 2 (Obj.schedClRoleReq cl.val) (Ans.ok (requestRole s cl v.toNat))) := by
  unfold execRoleReqWrite
  rw [dictWrite_takes _ hq, roleReqWrite, if_neg (by omega)]

theorem requestRole_cluster (s : State) (cl v : Nat) :
    ((requestRole s cl v).cluster cl).roleReq = if v = s.role cl then none else some v := by
  unfold requestRole
  exact congrArg Cluster.roleReq ((modCluster_cluster _ cl _ cl).trans (if_pos rfl))

/-- A role requested waits; the present role cancels the request (R64). -/
theorem roleReqWrite_leads {s : State} {q : Req} {cl : Fin 16} {v : BitVec 8}
    (hq : s.takesWrite q (Obj.schedClRoleReq cl.val) = true) (hv : v.toNat ≤ 2) :
    Leads (.roleReqWrite q cl v) s fun t => t.reg (Obj.schedClRoleReq cl.val) = v.toNat ∧
      (t.cluster cl.val).roleReq = (if v.toNat = s.role cl.val then none else some v.toNat) ∧ t.role cl.val = s.role cl.val ∧
      Answers t q 2 (Obj.schedClRoleReq cl.val) stOk := by
  have hcount : Obj.schedClRoleReq cl.val ≠ Obj.mgtRequests := by unfold Obj.schedClRoleReq Obj.mgtRequests ob; omega
  have hcount2 : Obj.schedClRole cl.val ≠ Obj.mgtRequests := by unfold Obj.schedClRole Obj.mgtRequests ob; omega
  refine ⟨_, execRoleReqWrite_taken hq hv, ?_, requestRole_cluster s cl v.toNat, ?_, answered_answers ..⟩
  · rw [answered_reg _ _ _ _ _ hcount]
    exact (roleReq_setRoleReq s cl v.toNat).trans (Nat.mod_eq_of_lt (by omega))
  · exact (answered_reg _ _ _ _ _ hcount2).trans (role_setRoleReq s cl cl v.toNat)

/-- A pending request at its boundary is refused or takes effect. -/
theorem roleApply_request {s : State} {cl r : Nat} (hreq : (s.cluster cl).roleReq = some r) (hb : roleBoundary s cl = true)
    (hw : tablesWait s cl (s.role cl) = false) (hheld : s.held .checkpoint = false) :
    roleApply s cl = if roleRefused s cl r then refuseRole s cl else changeRole s cl r := by
  unfold roleApply
  simp only [hreq, hb, hw, hheld, Bool.not_true, Bool.or_self, Bool.false_eq_true, if_false]

theorem refuseRole_leads (s : State) (cl : Nat) : (refuseRole s cl).role cl = s.role cl ∧
    (refuseRole s cl).reg (Obj.schedClRoleReq cl) = s.role cl % 256 ∧ ((refuseRole s cl).cluster cl).roleReq = none ∧
      Reports s (refuseRole s cl) 0x4C01 .note (uCluster cl) := by
  unfold refuseRole
  extract_lets cleared
  refine ⟨?_, ?_, ?_, (raise_reports _ _ _ _ _).of_same rfl rfl⟩
  · refine Eq.trans (raise_reg _ _ _ _ _ _ (by rw [page_schedClRole]; decide)) ?_
    exact role_setRoleReq cleared cl cl _
  · rw [raise_reg _ _ _ _ _ _ (by rw [page_schedClRoleReq]; decide)]
    exact roleReq_setRoleReq cleared cl _
  · rw [State.cluster, raise_clusters]
    change (cleared.cluster cl).roleReq = none
    dsimp only [cleared]
    rw [modCluster_cluster, if_pos rfl]

/-- A cluster that leaves its role is idle and in neither group (R65). -/
theorem leaveRole_leaves (s : State) (cl : Nat) : (leaveRole s cl).role cl = 0 ∧ cl ∉ (leaveRole s cl).train.members ∧
    cl ∉ (leaveRole s cl).roll.members := by
  unfold leaveRole
  extract_lets disarmed emptied g released train roll trainGroup rollGroup left idle
  have hm : Moves (maskOf [.tables, .obj 0x42, .obj 0x44]) idle
      (refreshEpoch (if (idle.inRole g).isEmpty then releaseTables idle g else idle)) :=
    refreshEpoch_moves _ (.or_stay (releaseTables_moves _ _ (.refl _ _) (by decide))) (by decide)
  have hgone (ms : List Nat) : cl ∉ ms.filter (· != cl) := by simp
  refine ⟨(hm.role (by decide) cl).trans ?_, ?_, ?_⟩
  · exact ((setReg_reg left _ 0 _).trans (if_pos rfl)).trans (Nat.zero_mod _)
  · have htrain : idle.train.members = train := by simp only [idle, left, setReg_train, withRoll_train, withTrain_train]
    rw [hm.same .train (by decide), htrain]
    exact hgone _
  · have hroll : idle.roll.members = roll := by simp only [idle, left, setReg_roll, withRoll_roll]
    rw [hm.same .roll (by decide), hroll]
    exact hgone _

/-- The end records that the rollout group's last cluster leaves are no part of roles, groups or tables. -/
theorem writeEnds_if_moves (s : State) (c : Prop) [Decidable c] :
    Moves (maskOf ([.clusters] ++ tiers ++ objs [0x43, 0x44])) s (if c then writeEnds s else s) :=
  .or_stay (writeEnds_moves s (.refl _ s) (by decide))

theorem changeRole_idle {s : State} {cl : Nat} (hrole : s.role cl ≠ 0) : (changeRole s cl 0).role cl = 0 ∧
    (changeRole s cl 0).reg (Obj.schedClRoleReq cl) = 0 ∧ cl ∉ (changeRole s cl 0).train.members ∧
      cl ∉ (changeRole s cl 0).roll.members := by
  unfold changeRole
  extract_lets left ended pending
  obtain ⟨hidle, htrain, hroll⟩ := leaveRole_leaves s cl
  have hleft : left = leaveRole s cl := if_neg hrole
  have hm : Moves _ left ended := writeEnds_if_moves left _
  rw [if_pos rfl]
  refine ⟨?_, roleReq_setRoleReq pending cl 0, ?_, ?_⟩
  · rw [role_setRoleReq]
    exact (hm.role (by decide) cl).trans (hleft ▸ hidle)
  · exact (hm.same .train (by decide)) ▸ hleft ▸ htrain
  · exact (hm.same .roll (by decide)) ▸ hleft ▸ hroll

theorem mem_insertNum (n : Nat) (ms : List Nat) : n ∈ insertNum n ms := by
  induction ms with
  | nil => exact List.mem_singleton_self n
  | cons m ms ih =>
    unfold insertNum
    split
    · exact List.mem_cons_self
    · split
      · next h => exact h ▸ List.mem_cons_self
      · exact List.mem_cons_of_mem m ih

/-- A cluster that joins a group has its role and is one of its members (R24). -/
theorem joinGroup_joins (s : State) (cl : Nat) {r : Nat} (hr : r = 1 ∨ r = 2) : (joinGroup s cl r).role cl = r ∧
    (joinGroup s cl r).reg (Obj.schedClRoleReq cl) = r ∧ ((joinGroup s cl r).cluster cl).roleReq = none ∧
      cl ∈ (if r = 1 then (joinGroup s cl r).train.members else (joinGroup s cl r).roll.members) := by
  unfold joinGroup
  extract_lets fresh ms formed step cleared stepped named g g2 joined
  have hm : Moves (maskOf [.obj 0x44]) joined (refreshEpoch joined) := refreshEpoch_moves _ (.refl _ _) (by decide)
  have hregs : joined.regs = named.regs := by dsimp only [joined]; split <;> rfl
  have hclusters : joined.clusters = cleared.clusters :=
    (by dsimp only [joined]; split <;> rfl : joined.clusters = stepped.clusters).trans
      (forAll_induction (P := fun t => t.clusters = cleared.clusters) _ _ rfl fun _ _ h => h)
  have hsmall : r % 256 = r := Nat.mod_eq_of_lt (by omega)
  have hrole : named.role cl = r := by
    dsimp only [named]
    rw [role_setRoleReq, State.role, setReg_reg, if_pos rfl]
    exact Eq.trans (congrArg (fun n => r % 256 ^ n) (size_schedClRole cl)) hsmall
  refine ⟨(hm.role (by decide) cl).trans ?_, (hm.roleReq (by decide) cl).trans ?_, ?_, ?_⟩
  · rw [State.role, State.reg, hregs]; exact hrole
  · rw [State.reg, hregs]; exact (roleReq_setRoleReq _ cl r).trans hsmall
  · rw [State.cluster, hm.same .clusters (by decide), hclusters]
    exact congrArg Cluster.roleReq ((modCluster_cluster s cl joinCluster cl).trans (if_pos rfl))
  · rw [hm.same .train (by decide), hm.same .roll (by decide)]
    rcases hr with rfl | rfl
    · exact mem_insertNum cl _
    · exact mem_insertNum cl _

theorem inRole_congr {s t : State} (hrole : ∀ c, t.role c = s.role c) (g : Nat) : t.inRole g = s.inRole g := by
  unfold State.inRole; simp only [hrole]
theorem tableDue_congr {s t : State} (hrole : ∀ c, t.role c = s.role c) (r : TableRec) (g : Nat) : tableDue t r g = tableDue s r g := by
  unfold tableDue dueGroups tableGroups; simp only [hrole, inRole_congr hrole]
/-- Which tables a role change waits for is a matter of the tables and of the roles. -/
theorem tablesWait_congr {s t : State} (htables : t.tables = s.tables) (hrole : ∀ c, t.role c = s.role c) (cl g : Nat) :
    tablesWait t cl g = tablesWait s cl g := by
  unfold tablesWait; simp only [htables, tableDue_congr hrole]
theorem groupAtBoundary_congr {s t : State} (htrain : t.train = s.train) (hroll : t.roll = s.roll) (g : Nat) :
    t.groupAtBoundary g = s.groupAtBoundary g := by
  unfold State.groupAtBoundary; rw [htrain, hroll]

/-- An idle cluster takes a role whose group stands at its boundary. -/
theorem changeRole_joins {s : State} {cl r : Nat} (hidle : s.role cl = 0) (hr : r = 1 ∨ r = 2) (hw : tablesWait s cl r = false)
    (hb : s.groupAtBoundary r = true) : ∃ u, changeRole s cl r = joinGroup u cl r := by
  unfold changeRole
  extract_lets left ended pending
  have hleft : left = s := if_pos hidle
  have hm : Moves _ left ended := writeEnds_if_moves left _
  have hwait : tablesWait pending cl r = false :=
    (tablesWait_congr (t := pending) (hm.same .tables (by decide)) (hm.role (by decide)) cl r).trans (hleft ▸ hw)
  have hbound : pending.groupAtBoundary r = true :=
    (groupAtBoundary_congr (t := pending) (hm.same .train (by decide)) (hm.same .roll (by decide)) r).trans (hleft ▸ hb)
  rw [if_neg (by omega), hwait, hbound]
  exact ⟨pending, rfl⟩

end Sys2Proof.Machine
end

section
/-! The step plan (R54, R55, R190, R316). Whatever stops a cluster's part of the plan puts the group in abort and changes no other part of its
step (`StepKept`), so the step that starts is the one the group took at its origin. -/

namespace Sys2Proof.Machine

/-! ### Plan building -/

/-- The step of the training group reads the same; whether it is in abort is left open. -/
def StepKept (s t : State) : Prop := { t.train with abort := false } = { s.train with abort := false }

namespace StepKept
variable {s0 s t : State}

theorem phase (h : StepKept s t) : t.train.phase = s.train.phase := by
  have hphase := congrArg TrainGroup.phase h; exact hphase
theorem origin (h : StepKept s t) : t.train.origin = s.train.origin := by
  have horigin := congrArg TrainGroup.origin h; exact horigin
theorem atOrigin (h : StepKept s t) : t.train.atOrigin = s.train.atOrigin := by
  have hmembers := congrArg TrainGroup.atOrigin h; exact hmembers
theorem of_train (h : StepKept s0 s) (ht : t.train = s.train) : StepKept s0 t := by unfold StepKept; rw [ht]; exact h
theorem abortGroup (h : StepKept s0 s) (cl : Nat) : StepKept s0 (abortGroup s cl) := by
  unfold Machine.abortGroup
  split
  · exact h
  · exact h
  · exact h
theorem modCluster (h : StepKept s0 s) (cl : Nat) (f : Cluster → Cluster) : StepKept s0 (s.modCluster cl f) := h
theorem bump (h : StepKept s0 s) (k n : Nat) : StepKept s0 (s.bump k n) := h
theorem withTables (h : StepKept s0 s) (ts : List TableRec) : StepKept s0 (s.withTables ts) := h
theorem raise (h : StepKept s0 s) (code : Nat) (sev : Sev) (unit pos : Nat) : StepKept s0 (raise s code sev unit pos) := by
  refine of_train (s := sevEffect s sev unit) ?_ (raise_train ..)
  cases sev with
  | note => exact h
  | degrade => exact h
  | fatal => exact h
  | stepAbort =>
    unfold sevEffect abortDevice
    dsimp only
    split
    · exact h.abortGroup _
    · split
      · exact h.abortGroup _
      · split
        · exact h.abortGroup _
        · exact h.abortGroup _
        · exact h
theorem stopPlan (h : StepKept s0 s) (cl : Nat) (p : PlanStop) : StepKept s0 (stopPlan s cl p) := by
  cases p with
  | event code => exact h.raise _ _ _ _
  | table r =>
    unfold Machine.stopPlan mismatchBy
    dsimp only
    split
    · exact h
    · exact (h.withTables _).raise _ _ _ _
theorem originReset (h : StepKept s0 s) (cl : Nat) (lists : List (List PlanEntry)) : StepKept s0 (originReset s cl lists) :=
  h.of_train ((originReset_moves s cl lists (.refl _ s) (.refl _)).same .train rfl)
/-- Whatever becomes of a cluster's part of the plan, the group's step goes on. -/
theorem planCluster (h : StepKept s0 s) (origin cl : Nat) (wide : Bool) : StepKept s0 (planCluster s origin cl wide) := by
  unfold Machine.planCluster
  split
  · exact h.originReset _ _
  · extract_lets sample tails cut
    cases planParts s cl _ origin with
    | inr q => exact ((h.originReset cl tails).modCluster cl _).stopPlan cl q
    | inl ms =>
      dsimp -zeta only
      extract_lets tail lists stop reset planned flagged
      have hflagged : StepKept s0 flagged := (((h.originReset cl _).modCluster cl _).bump _ _).modCluster cl _
      cases stop with
      | none => exact hflagged
      | some q => exact hflagged.stopPlan cl q

end StepKept

theorem ledgerPhase_of_running {s : State} (h : s.ledger.frozen = false) (phase step : Nat) :
    (ledgerPhase s phase step).ledger.phase = phase ∧ (ledgerPhase s phase step).ledger.step = step := by
  unfold ledgerPhase; rw [if_neg (by simp [h])]; exact ⟨rfl, rfl⟩

/-- A plan built at the boundary: the step runs from this beat with the group's members, and the ledger says so (R55, R388). -/
theorem planBuild_starts {s : State} {lead : Nat} (hpos : s.reg Obj.stepDataPos % 2 ^ 64 = s.reg (Obj.schedClStep lead)) :
    (planBuild s lead).train.phase = .running ∧ (planBuild s lead).train.origin = s.beat ∧
      (planBuild s lead).train.atOrigin = s.train.members ∧ (s.ledger.frozen = false →
        (planBuild s lead).ledger.phase = 0 ∧ (planBuild s lead).ledger.step = s.reg (Obj.schedClStep lead)) := by
  unfold planBuild
  extract_lets step wide was atOrigin planned told
  have hplanned : StepKept atOrigin planned := forAll_induction _ _ rfl fun _ _ h => h.planCluster _ _ _
  have htold : StepKept atOrigin told := by
    dsimp only [told]
    split
    · exact hplanned.raise _ _ _ _
    · exact hplanned
  have hstep : StepKept atOrigin (ledgerPhase (dropLists told) 0 step) := htold.of_train
    ((ledgerPhase_moves _ _ _ (dropLists_moves told (.refl (maskOf [.cores, .ledger]) told) (by decide)) (by decide)).same .train rfl)
  have hledger : (dropLists told).ledger = s.ledger := by
    have hm : Moves (maskOf (raises ++ [.tables, .cores, .rill] ++
        objs [0x34, 0x37, 0x38, 0x39, 0x3A, 0x3D, 0x3E, 0x41, 0x63])) s (dropLists told) := by
      refine dropLists_moves _ (.after (t := planned) ?_ ?_) (by decide)
      · exact forAll_moves _ _ (groupAtOrigin_moves s wide (.refl _ s) (by decide)) fun _ _ h => planCluster_moves _ _ _ _ h (by decide)
      · exact .or_stay (raise_moves _ _ _ _ _ (.refl _ _) (by decide))
    exact hm.same .ledger rfl
  rw [if_neg (not_not_intro hpos)]
  refine ⟨hstep.phase, hstep.origin, hstep.atOrigin, fun hf => ?_⟩
  exact ledgerPhase_of_running (by rw [hledger, hf]) 0 step

theorem planBuild_skews {s : State} {lead : Nat} (hpos : s.reg Obj.stepDataPos % 2 ^ 64 ≠ s.reg (Obj.schedClStep lead)) :
    planBuild s lead = skewStep s lead := if_pos hpos
/-- A data position of another step: nothing runs, and the plan waits for a new word (R190). -/
theorem skewStep_waits (s : State) (lead : Nat) : (skewStep s lead).train.phase = s.train.phase ∧ (skewStep s lead).train.skewWait = true ∧
    (skewStep s lead).train.abort = false ∧ Reports s (skewStep s lead) 0x3F06 .stepAbort (uCluster lead) := by
  unfold skewStep
  extract_lets told cleared
  have htold : StepKept s told := StepKept.raise rfl _ _ _ _
  have hm : Moves (maskOf [.clusters]) told cleared := forAll_moves _ _ (.refl _ _) fun _ _ h => modCluster_moves _ _ h (by decide)
  refine ⟨?_, rfl, rfl, (raise_reports s 0x3F06 .stepAbort (uCluster lead) noPos).then (hm.same .log rfl)⟩
  exact (htold.of_train (hm.same .train rfl)).phase

theorem execTrainingPlanBuild_ready {s : State} {lead : Nat} {rest : List Nat} (hmembers : s.train.members = lead :: rest)
    (hready : planReady s = true) : execTrainingPlanBuild s = .next (planBuild s lead) := by
  unfold execTrainingPlanBuild; rw [hmembers]; exact congrArg Host.Outcome.next (if_pos hready)

/-! ### Layers and micro-batches -/

/-- The cluster with its layer advanced. -/
def nextLayer (s : State) (cl : Nat) : State := s.modCluster cl fun c => { c with layer := c.layer + 1 }
/-- The rest of the step under the recompute alternatives: the lists of the cluster's cores, with its mark and its health bit (R54). -/
def recomputing (s : State) (t : TableRec) (cl : Nat) : State :=
  let relisted := forAll (coresOf cl) (fun n s => s.modCore n fun x => { x with todo := recomputeTodo s t cl n x.todo }) s
  setHealth (relisted.modCluster cl fun c => { c with recompute := true }) cl (2 ^ 9)

theorem nextLayer_cluster (s : State) (cl : Nat) : (nextLayer s cl).cluster cl = { s.cluster cl with layer := (s.cluster cl).layer + 1 } := by
  unfold nextLayer; rw [modCluster_cluster, if_pos rfl]
theorem recomputing_cluster (s : State) (t : TableRec) (cl : Nat) : (recomputing s t cl).cluster cl =
    { s.cluster cl with recompute := true, health := (s.cluster cl).health ||| 2 ^ 9 } := by
  unfold recomputing setHealth
  extract_lets relisted
  have hrelisted : relisted.cluster cl = s.cluster cl :=
    forAll_induction (P := fun u => u.cluster cl = s.cluster cl) _ _ rfl fun _ _ h => h
  rw [modCluster_cluster, if_pos rfl, modCluster_cluster, if_pos rfl, hrelisted]

theorem execLayerBoundary_next {s : State} {cl : Fin 16} {r : TableRec} (htable : s.table 6 cl.val 1 = some r)
    (hrole : s.role cl.val = 1) (hphase : s.train.phase = .running) (hmb : (s.cluster cl.val).mb ≠ 0)
    (hplan : (s.cluster cl.val).mb ≤ (s.cluster cl.val).plan.length) (hlayer : (s.cluster cl.val).layer + 1 < snapRd r 0x0A 2) :
    execLayerBoundary cl s = if !(s.cluster cl.val).recomputeReq || (s.cluster cl.val).recompute then .next (nextLayer s cl)
      else .next (recomputing (nextLayer s cl) r cl) := by
  have hdue : ¬(s.role cl.val ≠ 1 || s.train.phase != .running || (s.cluster cl.val).mb = 0 ||
      (s.cluster cl.val).plan.length < (s.cluster cl.val).mb || snapRd r 0x0A 2 ≤ (s.cluster cl.val).layer + 1) = true := by
    simp [hrole, hphase, hmb, hplan, hlayer]
  unfold execLayerBoundary
  rw [htable]
  exact if_neg hdue

/-- The next layer begins, and a recompute request takes effect with it (R54). -/
theorem layerBoundary_leads {s : State} {cl : Fin 16} {r : TableRec} (htable : s.table 6 cl.val 1 = some r)
    (hrole : s.role cl.val = 1) (hphase : s.train.phase = .running) (hmb : (s.cluster cl.val).mb ≠ 0)
    (hplan : (s.cluster cl.val).mb ≤ (s.cluster cl.val).plan.length) (hlayer : (s.cluster cl.val).layer + 1 < snapRd r 0x0A 2) :
    Leads (.layerBoundary cl) s fun t => (t.cluster cl.val).layer = (s.cluster cl.val).layer + 1 ∧
      (t.cluster cl.val).mb = (s.cluster cl.val).mb ∧
      (t.cluster cl.val).recompute = ((s.cluster cl.val).recompute || (s.cluster cl.val).recomputeReq) := by
  have hexec := execLayerBoundary_next htable hrole hphase hmb hplan hlayer
  have hstays : ∀ done asked : Bool, (!asked || done) = true → done = (done || asked) := by decide
  have htakes : ∀ done asked : Bool, ¬(!asked || done) = true → true = (done || asked) := by decide
  by_cases hre : (!(s.cluster cl.val).recomputeReq || (s.cluster cl.val).recompute) = true
  · refine ⟨_, hexec.trans (if_pos hre), ?_⟩
    simp only [nextLayer_cluster, true_and]
    exact hstays _ _ hre
  · refine ⟨_, hexec.trans (if_neg hre), ?_⟩
    simp only [recomputing_cluster, nextLayer_cluster, true_and]
    exact htakes _ _ hre

/-- The next micro-batch begins at its first layer with its ledgers at zero and nothing stashed (R316). -/
theorem microbatchBoundary_leads {s : State} {cl : Fin 16} (hrole : s.role cl.val = 1) (hphase : s.train.phase = .running)
    (hmb : (s.cluster cl.val).mb < (s.cluster cl.val).plan.length) :
    Leads (.microbatchBoundary cl) s fun t => (t.cluster cl.val).mb = (s.cluster cl.val).mb + 1 ∧ (t.cluster cl.val).layer = 0 ∧
      (t.cluster cl.val).ledger = (0, 0, 0) ∧ (t.cluster cl.val).stash = [] := by
  have hexec : execMicrobatchBoundary cl s =
      .next (s.modCluster cl fun c => { clearStash c with mb := c.mb + 1, layer := 0 }) := by
    unfold execMicrobatchBoundary
    exact if_neg (by simp [hrole, hphase, hmb])
  have hcluster := (modCluster_cluster s cl (fun c => { clearStash c with mb := c.mb + 1, layer := 0 }) cl).trans (if_pos rfl)
  exact ⟨_, hexec, congrArg Cluster.mb hcluster, congrArg Cluster.layer hcluster, congrArg Cluster.ledger hcluster,
    congrArg Cluster.stash hcluster⟩

/-! ### The statement -/

/-- Settles O15: each clause from the equation of its command where its conditions hold, and from what the operation it runs leaves. -/
theorem stepControlCompletes : Obligations.StepControlCompletes := by
  refine fun s => ⟨fun q h => tblActivateWrite_leads, ?switches, ?drops, fun q cl v => roleReqWrite_leads, ?refused, ?idle, ?joins,
    ?starts, ?skews, fun cl r => layerBoundary_leads, fun cl => microbatchBoundary_leads⟩
  case switches =>
    intro h g r hfind hheld hb hsame
    have hhandle : r.handle = h.toNat := handle_of_due hfind
    have happly := (execTableActivationApply_due hfind).trans (by rw [tableApply_switches hheld hb hsame])
    exact ⟨_, happly, _, switchTable_tables s r g, hhandle, rfl, rfl, rfl⟩
  case drops =>
    intro h g r hfind hheld hb hact hdiff
    refine ⟨_, (execTableActivationApply_due hfind).trans (by rw [tableApply_drops hheld hb hact hdiff]), fun n hn hshadow => ?_,
      dropShadow_refused s r, dropShadow_reports s r⟩
    rw [dropShadow_tables] at hn
    simpa [hshadow, handle_of_due hfind] using (List.mem_filter.1 hn).2
  case refused =>
    intro cl r hreq hb hw hheld hno
    refine ⟨_, congrArg Host.Outcome.next ((roleApply_request hreq hb hw hheld).trans (if_pos hno)), ?_⟩
    exact refuseRole_leads s cl
  case idle =>
    intro cl hreq hb hw hheld hrole
    have hyes : ¬roleRefused s cl.val 0 = true := by simp [roleRefused]
    exact ⟨_, congrArg Host.Outcome.next ((roleApply_request hreq hb hw hheld).trans (if_neg hyes)), changeRole_idle hrole⟩
  case joins =>
    intro cl r hreq hidle hbeat hr hw hwr hheld hyes hb
    have hbound : roleBoundary s cl.val = true := by unfold roleBoundary; rw [if_pos hidle]; exact decide_eq_true hbeat
    obtain ⟨u, hu⟩ := changeRole_joins hidle hr hwr hb
    have happly := (roleApply_request hreq hbound (hidle ▸ hw) hheld).trans (if_neg (by simp [hyes]))
    exact ⟨_, congrArg Host.Outcome.next (happly.trans hu), joinGroup_joins u cl hr⟩
  case starts =>
    intro lead rest hmembers hready hpos
    exact ⟨_, execTrainingPlanBuild_ready hmembers hready, planBuild_starts hpos⟩
  case skews =>
    intro lead rest hmembers hready hpos
    exact ⟨_, (execTrainingPlanBuild_ready hmembers hready).trans (by rw [planBuild_skews hpos]), skewStep_waits s lead⟩

end Sys2Proof.Machine
end

section
/-! Objects with rules of their own (R93, R186, R431, R434, R465). A taken request is answered with what its handler makes of the state,
so each command is an equation for its handler where its conditions hold, and what that handler's state reads. -/

namespace Sys2Proof.Machine

/-! ### The seed and the owner key -/

/-- The seed written while every cluster is idle and no stop or restore runs (R93, R395). -/
theorem rngSeedWrite_of_idle {s : State} (v : Nat) (hidle : noRole s = true) (hstop : s.reg Obj.ckptState ≠ 1)
    (hrestore : s.reg Obj.ckptRestoreState ≠ 1) :
    rngSeedWrite v s = Ans.ok ((s.setReg Obj.rngSeed v).setReg Obj.rngSeedSet 1) := if_neg (by simp [hidle, hstop, hrestore])

theorem leNat_lt (bs : List Byte) : leNat bs < 256 ^ bs.length := by
  induction bs with
  | nil => exact Nat.one_pos
  | cons b bs ih =>
    have hb := b.isLt
    rw [leNat, List.length_cons, Nat.pow_succ]
    omega

/-- A plain write of the owner key of its size is an enrolment, by the rule of its own (R434). -/
theorem plainWrite_ownerKey (p : Path) {bytes : List Byte} (s : State) (hlen : bytes.length = 133) :
    plainWrite p Obj.secOwnerKey bytes s = ownerKeyPlain p (leNat bytes) s := by
  obtain ⟨d, hd, hrw, hsize⟩ : ∃ d, objThere s Obj.secOwnerKey = some d ∧ readOnly d = false ∧ d.size = 133 := ⟨_, rfl, rfl, rfl⟩
  unfold plainWrite
  simp only [hd, hrw, hsize, hlen, Bool.false_eq_true, if_false, ne_eq, not_true_eq_false, if_true]
  exact if_neg (by decide)
theorem ownerKeyPlain_enrols {s : State} (key : Nat) (hnone : s.reg Obj.secOwnerKey = 0) :
    ownerKeyPlain .field key s = Ans.ok (setOwnerKey s key) := if_neg (not_not_intro hnone)

theorem setOwnerKey_reg (s : State) (key : Nat) : (setOwnerKey s key).reg Obj.secOwnerKey = key % 256 ^ 133 := by
  unfold setOwnerKey
  exact (raise_reg _ _ _ _ _ _ (by decide)).trans ((setReg_reg ..).trans (if_pos rfl))
theorem setOwnerKey_regCfg (s : State) (key : Nat) :
    (setOwnerKey s key).mgt.regCfg = sha512 (s.mgt.regCfg ++ sha512 (leBytes 133 key)) := by
  unfold setOwnerKey
  rw [raise_mgt]; rfl
theorem setOwnerKey_reports (s : State) (key : Nat) : Reports s (setOwnerKey s key) 0x9A02 .note uMgt :=
  (raise_reports (measureCfg (s.setReg Obj.secOwnerKey key) (leBytes 133 key)) 0x9A02 .note uMgt noPos).of_same rfl rfl

/-- The first key written over the field network is enrolled, measured and reported (R434, R442). -/
theorem secOwnerKeyWrite_enrols {s : State} {q : Req} {index : BitVec 16} {sub : BitVec 8} {bytes : List Byte} (hpath : q.path = .field)
    (hq : s.takesWrite q Obj.secOwnerKey = true) (hnone : s.reg Obj.secOwnerKey = 0) (hlen : bytes.length = 133) :
    Leads (.secOwnerKeyWrite q (.plain index sub bytes)) s fun t => t.reg Obj.secOwnerKey = leNat bytes ∧
      t.mgt.regCfg = sha512 (s.mgt.regCfg ++ sha512 (leBytes 133 (leNat bytes))) ∧ Answers t q 2 Obj.secOwnerKey stOk ∧
      Reports s t 0x9A02 .note uMgt := by
  have hwrite : plainWrite q.path Obj.secOwnerKey bytes s = Ans.ok (setOwnerKey s (leNat bytes)) := by
    rw [hpath, plainWrite_ownerKey _ s hlen, ownerKeyPlain_enrols _ hnone]
  have hans := (dictWrite_takes (plainWrite q.path Obj.secOwnerKey bytes) hq).trans (by rw [hwrite])
  refine ⟨_, congrArg Host.Outcome.next hans, ?_, setOwnerKey_regCfg .., answered_answers .., (setOwnerKey_reports s _).then rfl⟩
  rw [answered_reg _ _ _ _ _ (by decide)]
  exact (setOwnerKey_reg ..).trans (Nat.mod_eq_of_lt (hlen ▸ leNat_lt bytes))

/-! ### Reads with rules of their own -/

/-- A taken read is answered with what its handler makes of the state. -/
theorem dictRead_takes {s : State} {q : Req} {obj : Nat} (f : State → Ans) (h : s.takes q 1 obj = true) :
    dictRead s q obj f = answered s.beat q 1 obj (f s) := request_takes f h

/-- A debug read served is counted in `DBG.READS` (R186). -/
theorem answered_dbgReads (b : Nat) (q : Req) (obj : Nat) (s : State) (value : List Byte) :
    (answered b q 1 obj ⟨stOk, s.bump Obj.dbgReads 1, value⟩).reg Obj.dbgReads = min (s.reg Obj.dbgReads + 1) (2 ^ 32 - 1) :=
  (answered_reg _ _ _ _ _ (by decide)).trans ((bump_reg ..).trans (if_pos rfl))
theorem answered_refuse_dbgReads (b : Nat) (q : Req) (obj status : Nat) (s : State) :
    (answered b q 1 obj (Ans.refuse status s)).reg Obj.dbgReads = s.reg Obj.dbgReads := answered_reg _ _ _ _ _ (by decide)

/-- A read of pairs that an entry still writes waits; any other is served at once (R186). -/
theorem execDbgAccRead_holds {s : State} (q : Req) (hmode : s.reg Obj.dbgMode = 1) (hbusy : accBusy s (s.reg Obj.dbgAccSel) = true) :
    execDbgAccRead q s = .next (s.withMgt { s.mgt with heldReads := s.mgt.heldReads ++ [(q, s.reg Obj.dbgAccSel)] }) :=
  congrArg Host.Outcome.next (if_pos (by simp [hmode, hbusy]))
theorem execDbgAccRead_serves {s : State} (q : Req) (hnow : s.reg Obj.dbgMode ≠ 1 ∨ accBusy s (s.reg Obj.dbgAccSel) = false) :
    execDbgAccRead q s = .next (accServe s q (s.reg Obj.dbgAccSel)) :=
  congrArg Host.Outcome.next (if_neg (by rcases hnow with h | h <;> simp [h]))
theorem accServe_open {s : State} {q : Req} (sel : Nat) (hq : s.takes q 1 Obj.dbgAccRead = true) (hmode : s.reg Obj.dbgMode = 1) :
    accServe s q sel = answered s.beat q 1 Obj.dbgAccRead ⟨stOk, s.bump Obj.dbgReads 1, (List.range 8).flatMap fun i =>
      leBytes 8 (smGet zeroWord (s.core (accSelected sel).1).acc ((accSelected sel).2 + i))⟩ :=
  (dictRead_takes _ hq).trans (congrArg _ (if_neg (by omega)))
theorem accServe_closed {s : State} {q : Req} (sel : Nat) (hq : s.takes q 1 Obj.dbgAccRead = true) (hmode : s.reg Obj.dbgMode = 0) :
    accServe s q sel = answered s.beat q 1 Obj.dbgAccRead (Ans.refuse stState s) :=
  (dictRead_takes _ hq).trans (congrArg _ (if_pos hmode))

/-- In debug mode `DBG.SPILL_READ` answers the unit selected, and no unit of the segment store (R172, R186). -/
theorem execDbgSpillRead_unit {s : State} {q : Req} (hq : s.takes q 1 Obj.dbgSpillRead = true) (hmode : s.reg Obj.dbgMode = 1)
    (hunit : bitsOf (s.reg Obj.dbgSpillSel) 0 28 < 0x70000) :
    execDbgSpillRead q s = .next (answered s.beat q 1 Obj.dbgSpillRead ⟨stOk, s.bump Obj.dbgReads 1,
      leBytes 64 (sramRead (s.cluster (bitsOf (s.reg Obj.dbgSpillSel) 28 4)).sram (64 * bitsOf (s.reg Obj.dbgSpillSel) 0 28) 64)⟩) :=
  congrArg Host.Outcome.next ((dictRead_takes _ hq).trans
    (congrArg _ ((if_neg (by omega)).trans (if_neg (Nat.not_le.2 hunit)))))
theorem execDbgSpillRead_segmentStore {s : State} {q : Req} (hq : s.takes q 1 Obj.dbgSpillRead = true) (hmode : s.reg Obj.dbgMode = 1)
    (hstore : 0x70000 ≤ bitsOf (s.reg Obj.dbgSpillSel) 0 28) :
    execDbgSpillRead q s = .next (answered s.beat q 1 Obj.dbgSpillRead (Ans.refuse stRange s)) :=
  congrArg Host.Outcome.next ((dictRead_takes _ hq).trans (congrArg _ ((if_neg (by omega)).trans (if_pos hstore))))

/-- `LOG.READ` answers the pair of records selected, or RANGE where the first is not there (R431). -/
theorem execLogRead_some {s : State} {q : Req} {v : List Byte} (hq : s.takes q 1 Obj.logRead = true) (hpair : logPair s = some v) :
    execLogRead q s = .next (answered s.beat q 1 Obj.logRead ⟨stOk, s, v⟩) :=
  congrArg Host.Outcome.next ((dictRead_takes _ hq).trans (by rw [hpair]))
theorem execLogRead_none {s : State} {q : Req} (hq : s.takes q 1 Obj.logRead = true) (hpair : logPair s = none) :
    execLogRead q s = .next (answered s.beat q 1 Obj.logRead (Ans.refuse stRange s)) :=
  congrArg Host.Outcome.next ((dictRead_takes _ hq).trans (by rw [hpair]))

/-! ### The statement -/

/-- Settles O22: each clause from the equation of its command where its conditions hold, and from what an answer leaves. -/
theorem dictionaryCommandsComplete : Obligations.DictionaryCommandsComplete := by
  refine fun s q => ⟨?seed, ?alert, fun _ _ _ => secOwnerKeyWrite_enrols, ?accServed, ?accHeld, ?accClosed, ?spillServed, ?spillStore,
    ?logThere, ?logAbsent⟩
  case seed =>
    intro v hq hidle hstop hrestore
    have hans := (dictWrite_takes (rngSeedWrite v.toNat) hq).trans (by rw [rngSeedWrite_of_idle _ hidle hstop hrestore])
    refine ⟨_, congrArg Host.Outcome.next hans, ?_, ?_, answered_answers ..⟩
    · rw [answered_reg _ _ _ _ _ (by decide)]
      refine (setReg_reg ..).trans ((if_neg (by decide)).trans ((setReg_reg ..).trans ((if_pos rfl).trans ?_)))
      exact Nat.mod_eq_of_lt v.isLt
    · rw [answered_reg _ _ _ _ _ (by decide)]
      exact (setReg_reg ..).trans (if_pos rfl)
  case alert =>
    intro hq
    refine ⟨_, congrArg Host.Outcome.next (dictAction_takes alertAckWrite hq), rfl, ?_, rfl, answered_answers ..⟩
    rw [answered_reg _ _ _ _ _ (by decide)]
    exact (setReg_reg ..).trans (if_pos rfl)
  case accServed =>
    intro hq hmode hfree
    have hexec := (execDbgAccRead_serves q (.inr hfree)).trans (congrArg _ (accServe_open _ hq hmode))
    exact ⟨_, hexec, answered_answers .., answered_dbgReads ..⟩
  case accHeld =>
    intro hmode hbusy
    exact ⟨_, execDbgAccRead_holds q hmode hbusy, rfl, rfl, rfl⟩
  case accClosed =>
    intro hq hmode
    have hexec := (execDbgAccRead_serves q (.inl (by omega))).trans (congrArg _ (accServe_closed _ hq hmode))
    exact ⟨_, hexec, answered_answers .., answered_refuse_dbgReads ..⟩
  case spillServed =>
    intro hq hmode hunit
    exact ⟨_, execDbgSpillRead_unit hq hmode hunit, answered_answers .., answered_dbgReads ..⟩
  case spillStore =>
    intro hq hmode hstore
    exact ⟨_, execDbgSpillRead_segmentStore hq hmode hstore, answered_answers .., answered_refuse_dbgReads ..⟩
  case logThere =>
    intro v hq hpair
    exact ⟨_, execLogRead_some hq hpair, answered_answers .., rfl⟩
  case logAbsent =>
    intro hq hpair
    exact ⟨_, execLogRead_none hq hpair, answered_answers .., rfl⟩

end Sys2Proof.Machine
end

section
/-! Entries of a core (R50, R127, R146, R275): one that starts with all its operand words forms its results at once. What its output words
leave in their Sluices, and what counting its results leaves of the state. -/

namespace Sys2Proof.Machine

/-! ### Counting and reporting -/

/-- The pages of the objects that counting results and reporting events move: the alert's, the formats', the Spillway's, the accumulators'. -/
def notePages : List Nat := [0x23, 0x30, 0x34, 0x39]

/-- What counting results and reporting events leave: memory, tables, other objects, and every core but what it has reported once. -/
structure Noted (s t : State) : Prop where
  mem : t.mem = s.mem
  tables : t.tables = s.tables
  regs : ∀ k, page k ∉ notePages → t.reg k = s.reg k
  cores : ∀ n, ∃ firsts, t.core n = { s.core n with firsts := firsts }

namespace Noted
variable {s t u : State}

theorem refl (s : State) : Noted s s := ⟨rfl, rfl, fun _ _ => rfl, fun n => ⟨(s.core n).firsts, rfl⟩⟩
theorem trans (h : Noted s t) (h2 : Noted t u) : Noted s u := by
  refine ⟨h2.mem.trans h.mem, h2.tables.trans h.tables, fun k hk => (h2.regs k hk).trans (h.regs k hk), fun n => ?_⟩
  obtain ⟨_, ht⟩ := h.cores n
  obtain ⟨firsts, hu⟩ := h2.cores n
  exact ⟨firsts, by rw [hu, ht]⟩

theorem bump (h : Noted s t) {k : Nat} (n : Nat) (hk : page k ∈ notePages) : Noted s (t.bump k n) :=
  h.trans ⟨rfl, rfl, fun _ hj => (bump_reg ..).trans (if_neg (ne_of_apply_ne page (ne_of_mem_of_not_mem hk hj).symm)), fun _ => ⟨_, rfl⟩⟩
theorem setHealth (h : Noted s t) (cl bits : Nat) : Noted s (setHealth t cl bits) :=
  h.trans ⟨rfl, rfl, fun _ _ => rfl, fun _ => ⟨_, rfl⟩⟩
theorem raise (h : Noted s t) (code : Nat) (sev : Sev) (unit pos : Nat) : Noted s (raise t code sev unit pos) := by
  refine h.trans ⟨raise_mem .., raise_tables .., fun k hk => raise_reg _ _ _ _ _ _ fun h23 => hk ?_, fun n => ⟨_, raise_core ..⟩⟩
  rw [h23]; decide
theorem raiseFirst (h : Noted s t) (core code tensor : Nat) (sev : Sev) (pos : Nat) : Noted s (raiseFirst t core code tensor sev pos) := by
  unfold Machine.raiseFirst
  split
  · exact h
  · have hfirsts : Noted t (t.modCore core fun c => { c with firsts := c.firsts ++ [(code, tensor)] }) := by
      refine ⟨rfl, rfl, fun _ _ => rfl, fun n => ?_⟩
      rw [modCore_core]
      split
      · next hn => subst hn; exact ⟨_, rfl⟩
      · exact ⟨_, rfl⟩
    exact (h.trans hfirsts).raise ..

theorem tileFlags (h : Noted s t) (core : Nat) (cls : TileClass) (sat nan : Bool) : Noted s (tileFlags t core cls sat nan) :=
  h.setHealth ..
theorem noteReserved (h : Noted s t) (core tensor n : Nat) : Noted s (noteReserved t core tensor n) := by
  unfold Machine.noteReserved
  split
  · exact h
  · exact (((h.bump _ (by rw [page_fmtRsvReads]; decide)).bump _ (by rw [page_spillBlkZero]; decide)).setHealth ..).raiseFirst ..
theorem noteNarrowed (h : Noted s t) (core tensor fmt n : Nat) : Noted s (noteNarrowed t core tensor fmt n) := by
  unfold Machine.noteNarrowed
  split
  · exact h
  · exact (h.bump _ (by rw [page_fmtNanNarrowed]; decide)).raiseFirst ..
theorem noteCnt (h : Noted s t) (core : Nat) (cls : TileClass) (tensor fmt : Nat) (c : Cnt) : Noted s (noteCnt t core cls tensor fmt c) := by
  refine ((noteNarrowed ?_ ..).noteReserved ..).tileFlags ..
  exact (((h.bump _ (by rw [page_spillBlkSat]; decide)).bump _ (by rw [page_spillBlkZero]; decide)).bump _
    (by rw [page_spillNanIn]; decide)).bump _ (by rw [page_spillZeroBlocks]; decide)
theorem noteAcc (h : Noted s t) (core : Nat) (cls : TileClass) (f : AccFlags) : Noted s (noteAcc t core cls f) := by
  have hflags := h.tileFlags core cls (decide (0 < f.sat)) (decide (0 < f.nan))
  unfold Machine.noteAcc
  dsimp only
  split <;> split
  · exact hflags
  · exact (hflags.bump _ (by rw [page_accSatAdds]; decide)).raiseFirst ..
  · exact (hflags.bump _ (by rw [page_accNanAdds]; decide)).raiseFirst ..
  · exact (((hflags.bump _ (by rw [page_accSatAdds]; decide)).raiseFirst ..).bump _ (by rw [page_accNanAdds]; decide)).raiseFirst ..
theorem noteBadScale (h : Noted s t) (core n : Nat) : Noted s (noteBadScale t core n) := by
  unfold Machine.noteBadScale
  split
  · exact h
  · exact forAll_induction _ _ ((h.bump _ (by rw [page_fmtBadScales]; decide)).tileFlags ..) fun _ _ ht => ht.raise ..
theorem noteBadTs (h : Noted s t) (core n : Nat) : Noted s (noteBadTs t core n) :=
  forAll_induction _ _ (h.bump _ (by rw [page_fmtBadScales]; decide)) fun _ _ ht => ht.raise ..
theorem noteOperand (h : Noted s t) (core tensor : Nat) (o : Operand) : Noted s (noteOperand t core tensor o) :=
  ((h.noteBadScale ..).noteBadTs ..).noteReserved ..

/-! What is read of tables, streams and Sluices stays as it was. -/

theorem role (h : Noted s t) (cl : Nat) : t.role cl = s.role cl := h.regs _ (by rw [page_schedClRole]; decide)
theorem table (h : Noted s t) (kind unit group : Nat) : t.table kind unit group = s.table kind unit group := by
  unfold State.table; rw [h.tables]
theorem tblRd (h : Noted s t) (r : TableRec) (off n : Nat) : t.tblRd r off n = s.tblRd r off n := by
  unfold State.tblRd State.memRd State.regionBase
  rw [h.mem, h.regs _ (by rw [page_memTblBase]; decide)]
theorem fnRecord (h : Noted s t) (kind core f : Nat) : t.fnRecord kind core f = s.fnRecord kind core f := by
  unfold State.fnRecord; simp only [h.role, h.table, h.tblRd]
theorem desc (h : Noted s t) (core ctx : Nat) : t.desc core ctx = s.desc core ctx := by
  unfold State.desc; simp only [h.role, h.table, h.tblRd]
theorem ctx (h : Noted s t) (core i : Nat) : (t.core core).ctx i = (s.core core).ctx i := by
  obtain ⟨_, hc⟩ := h.cores core; rw [hc]; rfl
theorem sluice (h : Noted s t) (core sl : Nat) : (t.core core).sluice sl = (s.core core).sluice sl := by
  obtain ⟨_, hc⟩ := h.cores core; rw [hc]; rfl
theorem acc (h : Noted s t) (core : Nat) : (t.core core).acc = (s.core core).acc := by
  obtain ⟨_, hc⟩ := h.cores core; rw [hc]
theorem ctxOn (h : Noted s t) (core sl : Nat) : t.ctxOn core sl = s.ctxOn core sl := by
  unfold State.ctxOn; simp only [h.ctx, h.desc]

end Noted

/-! ### Starting, and taking operand words -/

/-- Memory and every object read as before: what an entry that starts and takes operand words leaves. -/
def Fetches (s t : State) : Prop := t.mem = s.mem ∧ ∀ k, t.reg k = s.reg k

namespace Fetches
variable {s t u : State}

theorem refl (s : State) : Fetches s s := ⟨rfl, fun _ => rfl⟩
theorem modCore (h : Fetches s t) (n : Nat) (f : Core → Core) : Fetches s (t.modCore n f) := h
theorem modCluster (h : Fetches s t) (n : Nat) (f : Cluster → Cluster) : Fetches s (t.modCluster n f) := h
theorem openTail (h : Fetches s t) (core : Nat) (p : PlanEntry) : Fetches s (openTail t core p) := by
  unfold Machine.openTail
  dsimp only
  split
  · exact h
  · exact forAll_induction _ _ (h.modCluster ..) fun _ _ ht => ht.modCluster ..
theorem loadStore (h : Fetches s t) (core sl dest : Nat) : Fetches s (loadStore t core sl dest) := h.modCore ..
theorem loadAll (h : Fetches s t) (core scaleDest : Nat) (sls dests : List Nat) : Fetches s (loadAll core scaleDest sls dests t) := by
  induction sls generalizing dests t with
  | nil => exact h
  | cons sl sls ih =>
    unfold Machine.loadAll
    split
    · exact ih (h.loadStore ..) _
    · split
      · exact ih (h.loadStore ..) _
      · exact h
theorem gather (h : Fetches s t) (core : Nat) (got : SMap (List Nat)) (needs : List (Nat × Nat)) :
    Fetches s (gather core got t needs).2 := by
  induction needs generalizing got t with
  | nil => exact h
  | cons p needs ih =>
    unfold Machine.gather
    refine ih ?_ _
    split
    · exact h
    · exact h.modCore ..
theorem entryWords (k : EntryKind) (s : State) (core : Nat) (c : Cur) : Fetches s (entryWords k s core c).2 :=
  ((((refl s).openTail ..).modCore ..).loadAll ..).gather ..

theorem tblRd (h : Fetches s t) (r : TableRec) (off n : Nat) : t.tblRd r off n = s.tblRd r off n := by
  unfold State.tblRd State.memRd State.regionBase
  rw [h.1, h.2]
theorem outliers (h : Fetches s t) (r : TableRec) (off : Nat) : t.outliers r off = s.outliers r off := by
  unfold State.outliers
  simp only [h.tblRd]

end Fetches

/-! ### Output words -/

theorem headPacket_prefix (ws : List SWord) : headPacket ws <+: ws := by
  induction ws with
  | nil => exact List.prefix_rfl
  | cons w ws ih =>
    unfold headPacket
    split
    · exact ⟨ws, rfl⟩
    · exact (List.prefix_cons_inj w).2 ih
theorem headPacket_length_pos (w : SWord) (ws : List SWord) : 0 < (headPacket (w :: ws)).length := by
  unfold headPacket
  split <;> exact Nat.succ_pos _

/-- A queue's first packet for a Sluice stands at the head of the queue. -/
theorem headPacket_takeWhile_prefix (sl : Nat) (w : SWord) (q : List (Nat × SWord)) :
    (headPacket (w :: (q.takeWhile fun x => x.1 == sl).map (·.2))).map (fun x => (sl, x)) <+: (sl, w) :: q := by
  have hself : ∀ x ∈ q.takeWhile fun x => x.1 == sl, ((fun y => (sl, y)) ∘ Prod.snd) x = id x := fun x hx =>
    have hsl : (x.1 == sl) = true := List.all_eq_true.1 List.all_takeWhile x hx
    Prod.ext (beq_iff_eq.1 hsl).symm rfl
  refine ((headPacket_prefix _).map _).trans ?_
  rw [List.map_cons, List.map_map, List.map_congr_left hself, List.map_id]
  exact (List.prefix_cons_inj _).2 (List.takeWhile_prefix _)
/-- A queue is its first packet and what `pushOut` goes on with. -/
theorem headPacket_append_drop (sl : Nat) (w : SWord) (q : List (Nat × SWord)) :
    let pkt := headPacket (w :: (q.takeWhile fun x => x.1 == sl).map (·.2))
    pkt.map (fun x => (sl, x)) ++ q.drop (pkt.length - 1) = (sl, w) :: q := by
  intro pkt
  obtain ⟨rest, hrest⟩ : pkt.map (fun x => (sl, x)) <+: (sl, w) :: q := headPacket_takeWhile_prefix sl w q
  obtain ⟨x, xs, hx⟩ : ∃ x xs, pkt = x :: xs := List.exists_cons_of_length_pos (headPacket_length_pos _ _)
  rw [hx, List.map_cons, List.cons_append, List.cons.injEq] at hrest
  obtain ⟨hw, hq⟩ := hrest
  rw [hx, ← hq, List.length_cons, Nat.add_sub_cancel, List.drop_left' (List.length_map ..), List.map_cons, List.cons_append, hw]

/-- The words of a queue that go to a Sluice. -/
def wordsFor (sl : Nat) (q : List (Nat × SWord)) : List SWord := (q.filter fun x => x.1 == sl).map (·.2)

theorem wordsFor_append (sl : Nat) (p q : List (Nat × SWord)) : wordsFor sl (p ++ q) = wordsFor sl p ++ wordsFor sl q := by
  simp [wordsFor]
theorem wordsFor_packet (sl j : Nat) (ws : List SWord) : wordsFor sl (ws.map fun x => (j, x)) = if j = sl then ws else [] := by
  by_cases h : j = sl <;> simp [wordsFor, List.filter_map, Function.comp_def, h]
theorem kept_append (v w : List SWord) : kept (v ++ w) = kept v ++ kept w := List.filter_append ..
theorem kept_commit (z : Sluice) (p : List SWord) : kept (z.commit p).packets.flatten = kept z.packets.flatten ++ kept p := by
  simp [Sluice.commit, kept]

theorem modSluice_sluice (c : Core) (j : Nat) (f : Sluice → Sluice) (sl : Nat) :
    (c.modSluice j f).sluice sl = if sl = j then f (c.sluice j) else c.sluice sl := smGet_set ..

/-- Output words enter their Sluices in order: what a Sluice holds and then the words that wait for it stay the same sequence (R275). -/
theorem pushOut_kept (core n : Nat) (q : List (Nat × SWord)) (s : State) (sl : Nat) :
    kept ((((pushOut core n q s).2.core core).sluice sl).packets.flatten ++ wordsFor sl (pushOut core n q s).1) =
      kept (((s.core core).sluice sl).packets.flatten ++ wordsFor sl q) := by
  induction n generalizing q s with
  | zero => rfl
  | succ n ih =>
    match q with
    | [] => rfl
    | (j, w) :: q =>
      unfold pushOut
      dsimp only
      split
      · rw [ih, ← headPacket_append_drop j w q, wordsFor_append, wordsFor_packet, modCore_core, if_pos rfl]
        simp only [kept_append]
        rw [show ∀ c : Core, Core.sluice { c with moved := true, preempts := 0 } sl = c.sluice sl from fun _ => rfl, modSluice_sluice]
        by_cases h : sl = j
        · rw [if_pos h, if_pos h.symm, h, kept_commit, List.append_assoc]
        · rw [if_neg h, if_neg (Ne.symm h)]; rfl
      · rfl
theorem pushOut_mem (core n : Nat) (q : List (Nat × SWord)) (s : State) : (pushOut core n q s).2.mem = s.mem := by
  induction n generalizing q s with
  | zero => rfl
  | succ n ih =>
    match q with
    | [] => rfl
    | (_, _) :: _ =>
      unfold pushOut
      dsimp only
      split
      · exact ih ..
      · rfl

/-! ### Results put in place -/

/-- An entry with its results formed and `outq` still to enter its Sluices. -/
def formedRun (re : RunEntry) (f : Formed) (outq : List (Nat × SWord)) : RunEntry :=
  { re with got := [], formed := true, outq := outq, clk := f.clk, stopped := f.stopped, mirror := f.mirror }

theorem putFormed_core (s : State) (core : Nat) (re : RunEntry) (f : Formed) :
    (putFormed s core re none f).core core = putRunning ((pushOut core (f.outq.length + 1) f.outq s).2.core core)
      (formedRun re f (pushOut core (f.outq.length + 1) f.outq s).1) :=
  (modCore_core ..).trans (if_pos rfl)
theorem putFormed_mem (s : State) (core : Nat) (re : RunEntry) (f : Formed) : (putFormed s core re none f).mem = s.mem :=
  pushOut_mem ..
theorem putFormed_acc (s : State) (core : Nat) (re : RunEntry) {f : Formed} (h : f.outq = []) :
    ((putFormed s core re none f).core core).acc = (s.core core).acc := by
  rw [putFormed_core, h]; rfl

/-- The entry stands formed among the started ones, its output words in their Sluices as far as they had room. -/
theorem putFormed_formedIn {u : State} {core : Nat} {c : Cur} {re : RunEntry} {f : Formed} (hplan : re.plan = c.re.plan)
    (hentry : re.entry = c.re.entry) (hsluice : ∀ sl, (f.st.core core).sluice sl = (u.core core).sluice sl) :
    FormedIn (putFormed f.st core re none f) u core c f.clk f.outq := by
  rw [FormedIn, putFormed_core]
  refine ⟨_, List.mem_append_right _ (List.mem_singleton_self _), hplan, hentry, rfl, rfl, fun sl => ?_⟩
  rw [← hsluice sl]
  exact pushOut_kept ..

/-- The entry with its operand words taken and its regions named. -/
def entryGot (k : EntryKind) (s : State) (core : Nat) (c : Cur) : RunEntry :=
  { c.re with got := (entryWords k s core c).1, regions := k.writes (entryOpen k s core c) core c }

/-- An entry that starts with every operand word there, none of its regions still to be written, and no share of a scope, forms its
results at once. -/
theorem runEntry_of_full {k : EntryKind} {s : State} {core : Nat} {c : Cur} (hstart : s.starts core k.op c)
    (hreads : readsHold k s core c = true) (hheld : heldForRegion s core (k.regions s core c) = false)
    (hfull : entryFull k s core c = true) (hshare : (entryResult k s core c).share = none) :
    runEntry k core .none s =
      .next (putFormed (entryResult k s core c).st core (entryGot k s core c) none (entryResult k s core c)) := by
  obtain ⟨hcur, hfresh, hbad, hhalt, hown, hnow⟩ := hstart
  simp only [readsHold, Bool.and_eq_true, Bool.not_eq_true', Option.isNone_iff_eq_none] at hreads
  obtain ⟨hany, hdiffer⟩ := hreads
  have hproceed : proceed k (entryOpen k s core c) core c none =
      putFormed (entryResult k s core c).st core (entryGot k s core c) none (entryResult k s core c) := by
    refine (if_pos hfull).trans ?_
    change (match (entryResult k s core c).share with | some _ => _ | none => _) = _
    rw [hshare]
    rfl
  have hstarted : freshEntry k s core c none = proceed k (entryOpen k s core c) core c none := by
    unfold freshEntry
    simp only [hown, hnow, hany, hdiffer, Bool.not_true, Bool.or_self, Bool.false_eq_true, if_false]
    exact if_neg (by rw [hheld]; decide)
  unfold runEntry
  simp only [hcur, hbad, hhalt, hfresh, Bool.or_self, Bool.false_eq_true, if_false, if_true]
  exact congrArg Host.Outcome.next (hstarted.trans hproceed)

end Sys2Proof.Machine
end

section
/-! Vector and function entries of FP32 inputs and output (R140–R142): their results leave as FP32 words, in order. -/

namespace Sys2Proof.Machine

/-- The operation of a vector entry: it takes the rounding of the last operation and the two inputs. -/
abbrev VectorOp := State → Nat → Nat → RMode → List Nat → List Nat → List (Nat × Bool) × AccFlags

/-- An FP32 input enters with the values of its codes (R141); no scale goes with it. -/
theorem vRead_fp32 (s : State) (core sl n : Nat) (p : Part) (ws : Nat → List Nat) :
    (vRead s core sl 0x01 n p ws).1.skew = none ∧
      (vRead s core sl 0x01 n p ws).2 = (s.inCodes core sl 0x01 n (ws sl)).map fun x => rne32 (plainNum 0x01 x) :=
  ⟨rfl, List.map_map ..⟩

/-- FP32 results leave as they stand (R471), whatever the rounding of a conversion would be. -/
theorem deliver_fp32_codes (s : State) (core out : Nat) (cls : TileClass) (tensor : Nat) (mode : RMode) (p : Part)
    (vals : List (Nat × Bool)) :
    (deliver s core out cls 0x01 tensor mode p vals).2.2 = s.outWords core out 32 (vals.map (·.1)) := by
  have hcodes : (vals.zipIdx.map fun v =>
      finish v.1.1 (0x01 != 0x01 && v.1.2) 0x01 mode ((s.drawArgs core tensor 1).at mode (p.index v.2))).map (·.code) =
        vals.map (·.1) := by
    rw [List.map_map]
    conv => rhs; rw [← List.zipIdx_map_fst 0 vals, List.map_map]
    rfl
  exact congrArg (s.outWords core out 32) hcodes

/-- An operation that reads of the state only what counting leaves: its tables. -/
def Steady (op : VectorOp) : Prop := ∀ s t, Noted s t → ∀ core, op t core = op s core

theorem vFn_steady : Steady vFn := fun s t h core => by
  funext b last as bs
  simp only [vFn, h.fnRecord]

/-- The first input of an entry, and the second where its operation has one. -/
def vLeft (s : State) (core : Nat) (c : Cur) (ws : Nat → List Nat) : Operand × List Nat :=
  vRead s core (vA c.blk) c.re.entry.fmtA (vRows c.blk * vCols c.blk) (vPartA c.blk) ws
def vRight (s : State) (core : Nat) (c : Cur) (ws : Nat → List Nat) : Operand × List Nat :=
  if vTwo (vOp c.blk) then vRead s core (vB c.blk) c.re.entry.fmtB (vBLen c.blk) (vPartB c.blk) ws else ({}, [])
/-- The state once the inputs of an entry are counted (R75, R83, R84). -/
def vCounted (s : State) (core : Nat) (c : Cur) (ws : Nat → List Nat) : State :=
  noteOperand (noteOperand s core (fld c.blk 0x10 3) (vLeft s core c ws).1) core (fld c.blk 0x10 3) (vRight s core c ws).1

theorem vCounted_noted (s : State) (core : Nat) (c : Cur) (ws : Nat → List Nat) : Noted s (vCounted s core c ws) :=
  ((Noted.refl s).noteOperand ..).noteOperand ..

/-- Where no scale is skewed and the output is FP32, an entry forms the results of its operation, rounded to nearest. -/
theorem vForm_to_fp32 {op : VectorOp} {s : State} {core : Nat} {c : Cur} {ws : Nat → List Nat}
    (hleft : (vLeft s core c ws).1.skew = none) (hright : (vRight s core c ws).1.skew = none)
    (hfmt : (if vTwo (vOp c.blk) then fld c.blk 0x02 1 else c.re.entry.fmtB) = 0x01) :
    vForm op s core c ws =
      let r := op (vCounted s core c ws) core c.blk .rne (vLeft s core c ws).2 (vRight s core c ws).2
      let d := deliver (noteAcc (vCounted s core c ws) core .forward r.2) core c.re.entry.out .forward 0x01 (fld c.blk 0x10 3)
        (rmodeOf (fld c.blk 0x03 1 % 4) .rne) (vPartOut c.blk) r.1
      { st := d.1, outq := d.2.2, clk := vClk c.blk } := by
  unfold vForm
  change (match (vLeft s core c ws).1.skew, (vRight s core c ws).1.skew with | some _, _ => _ | none, some _ => _ | none, none => _) = _
  rw [hleft, hright]
  dsimp only
  rw [hfmt]
  rfl

section
variable {op : VectorOp} {s : State} {core : Nat} {c : Cur} {ws : Nat → List Nat}

/-- The FP32 values of `n` elements that an entry reads from a Sluice. -/
def fp32Read (s : State) (core sl n : Nat) (words : List Nat) : List Nat :=
  (s.inCodes core sl 0x01 n words).map fun x => rne32 (plainNum 0x01 x)

theorem vLeft_fp32 (ha : c.re.entry.fmtA = 0x01) :
    (vLeft s core c ws).1.skew = none ∧
      (vLeft s core c ws).2 = fp32Read s core (vA c.blk) (vRows c.blk * vCols c.blk) (ws (vA c.blk)) := by
  rw [vLeft, ha]
  exact vRead_fp32 ..
theorem vRight_fp32 (hb : c.re.entry.fmtB = 0x01) :
    (vRight s core c ws).1.skew = none ∧
      (vRight s core c ws).2 = if vTwo (vOp c.blk) then fp32Read s core (vB c.blk) (vBLen c.blk) (ws (vB c.blk)) else [] := by
  rw [vRight, hb]
  split
  · exact vRead_fp32 ..
  · exact ⟨rfl, rfl⟩

/-- What an entry of FP32 inputs and output forms: its results in order for its OUT Sluice, and the clk of its rule. -/
theorem vForm_fp32 (hop : Steady op) (ha : c.re.entry.fmtA = 0x01) (hb : c.re.entry.fmtB = 0x01)
    (hfmt : vTwo (vOp c.blk) = true → fld c.blk 0x02 1 = 0x01) :
    (vForm op s core c ws).share = none ∧ (vForm op s core c ws).clk = vClk c.blk ∧ Noted s (vForm op s core c ws).st ∧
      (vForm op s core c ws).outq = s.outWords core c.re.entry.out 32
        ((op s core c.blk .rne (fp32Read s core (vA c.blk) (vRows c.blk * vCols c.blk) (ws (vA c.blk)))
          (if vTwo (vOp c.blk) then fp32Read s core (vB c.blk) (vBLen c.blk) (ws (vB c.blk)) else [])).1.map (·.1)) := by
  obtain ⟨hleftSkew, hleft⟩ := vLeft_fp32 (s := s) (core := core) (ws := ws) ha
  obtain ⟨hrightSkew, hright⟩ := vRight_fp32 (s := s) (core := core) (ws := ws) hb
  have hfp32 : (if vTwo (vOp c.blk) then fld c.blk 0x02 1 else c.re.entry.fmtB) = 0x01 := by
    split
    · next htwo => exact hfmt htwo
    · exact hb
  have hcounted := vCounted_noted s core c ws
  rw [vForm_to_fp32 hleftSkew hrightSkew hfp32, hop _ _ hcounted, hleft, hright]
  dsimp only
  have hadded := hcounted.noteAcc core .forward
  refine ⟨rfl, rfl, (hadded _).noteCnt .., (deliver_fp32_codes ..).trans ?_⟩
  unfold State.outWords
  rw [(hadded _).ctxOn]

end

/-- The command of each operation, and that the operation is steady. -/
theorem vectorCommands_run (core : Fin 256) :
    ∀ p ∈ [(0x01, Instr.vectorFn core .none, vFn), (0x02, .vectorAdd core .none, vPoint XNum.add), (0x03, .vectorMul core .none, vPoint XNum.mul),
      (0x04, .vectorRowmax core .none, vRowMax), (0x05, .vectorRowsum core .none, vRowSum), (0x06, .vectorRecip core .none, vRecip),
      (0x07, .vectorRsqrt core .none, vRsqrt), (0x08, .vectorSubrow core .none, vPoint XNum.sub), (0x09, .vectorMulrow core .none, vPoint XNum.mul)],
    (∀ s, exec p.2.1 s = runVector p.1 p.2.2 core .none s) ∧ Steady p.2.2 := by
  simp only [List.forall_mem_cons, List.not_mem_nil, false_imp_iff, implies_true, and_true]
  have hpure : ∀ op : Nat → Nat → RMode → List Nat → List Nat → List (Nat × Bool) × AccFlags, Steady fun _ => op := fun _ _ _ _ _ => rfl
  exact ⟨⟨fun _ => rfl, vFn_steady⟩, ⟨fun _ => rfl, hpure _⟩, ⟨fun _ => rfl, hpure _⟩, ⟨fun _ => rfl, hpure _⟩, ⟨fun _ => rfl, hpure _⟩,
    ⟨fun _ => rfl, hpure _⟩, ⟨fun _ => rfl, hpure _⟩, ⟨fun _ => rfl, hpure _⟩, ⟨fun _ => rfl, hpure _⟩⟩

/-- A vector entry of the command's VOP runs as an entry of its class. -/
theorem runVector_of_named {op : VectorOp} {s : State} {core : Nat} {c : Cur} {v : Nat} {err : EntryErr}
    (hcur : currentEntry s core 0x05 = some c) (hv : vOp c.blk = v) : runVector v op core err s = runEntry (vKind op) core err s := by
  refine if_pos ?_
  rw [vNamed, hcur]
  exact beq_iff_eq.2 hv

/-- A vector entry takes part in no accumulator region, so none holds it back (R127). -/
theorem vKind_heldForRegion (op : VectorOp) (s : State) (core : Nat) (c : Cur) :
    heldForRegion s core ((vKind op).regions s core c) = false := by
  simp [heldForRegion, vKind]

/-- The same of the entry that starts, over the state in which its operand words are taken. -/
theorem entryResult_fp32 {op : VectorOp} {s : State} {core : Nat} {c : Cur} (hop : Steady op) (ha : c.re.entry.fmtA = 0x01)
    (hb : c.re.entry.fmtB = 0x01) (hfmt : vTwo (vOp c.blk) = true → fld c.blk 0x02 1 = 0x01) :
    let u := (entryWords (vKind op) s core c).2
    let read (sl n : Nat) : List Nat := fp32Read u core sl n (entryIn (vKind op) s core c sl)
    let f := entryResult (vKind op) s core c
    f.share = none ∧ f.clk = vClk c.blk ∧ Noted u f.st ∧
      f.outq = u.outWords core c.re.entry.out 32 ((op u core c.blk .rne (read (vA c.blk) (vRows c.blk * vCols c.blk))
        (if vTwo (vOp c.blk) then read (vB c.blk) (vBLen c.blk) else [])).1.map (·.1)) :=
  vForm_fp32 (c := { c with re := entryGot (vKind op) s core c }) hop ha hb hfmt

/-- Settles O50: the entry forms its results at once, and their words are those of the operation on the values read; counting them
touches no Sluice and no memory. -/
theorem vectorResultsDelivered : Obligations.VectorResultsDelivered := by
  intro s core c p hp hstart hvop hreads hfull ha hb hfmt hout
  obtain ⟨hexec, hop⟩ := vectorCommands_run core p hp
  rw [← hvop] at hfmt
  obtain ⟨hshare, hclk, hnoted, houtq⟩ := entryResult_fp32 (s := s) (core := core) hop ha hb hfmt
  have hrun := runEntry_of_full hstart hreads (vKind_heldForRegion ..) hfull hshare
  have hformed := putFormed_formedIn (c := c) (re := entryGot (vKind p.2.2) s core c) rfl rfl (hnoted.sluice core)
  rw [hclk, houtq, State.outWords, if_pos hout, hvop] at hformed
  exact ⟨_, ((hexec s).trans (runVector_of_named hstart.1 hvop)).trans hrun, hformed,
    (putFormed_mem ..).trans (hnoted.mem.trans (Fetches.entryWords ..).1)⟩

end Sys2Proof.Machine
end

section
/-! The outlier side product (R132, R133): one run of slots entered into a zeroed region. -/

namespace Sys2Proof.Machine

/-! ### Pairs of a region -/

theorem setPairs_acc_below (c : Core) {base j : Nat} (ps : List Pair) (h : j < base) :
    smGet zeroWord (c.setPairs base ps).acc j = smGet zeroWord c.acc j := by
  induction ps generalizing c base with
  | nil => rfl
  | cons p ps ih => exact (ih (c.setPair base p) (Nat.lt_succ_of_lt h)).trans ((smGet_set ..).trans (if_neg (Nat.ne_of_lt h)))
theorem setPairs_acc (c : Core) (base : Nat) {ps : List Pair} {i : Nat} {p : Pair} (h : ps[i]? = some p) :
    smGet zeroWord (c.setPairs base ps).acc (base + i) = p.toWord := by
  induction ps generalizing c base i with
  | nil => cases h
  | cons q ps ih =>
    cases i with
    | zero =>
      obtain rfl := Option.some.inj h
      exact (setPairs_acc_below _ _ (Nat.lt_succ_self base)).trans ((smGet_set ..).trans (if_pos rfl))
    | succ i => exact (congrArg (smGet zeroWord _) (by omega)).trans (ih (c.setPair base q) (base + 1) h)

/-- A region that starts holds zeros, and its slot count is 0 (R181). -/
theorem startRegion_acc (s : State) (core base : Nat) {len i : Nat} (wid : Nat) (h : i < len) :
    smGet zeroWord ((startRegion s core base len wid).core core).acc (base + i) = 0 := by
  rw [startRegion, modCore_core, if_pos rfl]
  exact setPairs_acc _ _ (p := Pair.zero) ((List.getElem?_replicate ..).trans (if_pos h))
theorem startRegion_slots (s : State) (core base len wid : Nat) : (((startRegion s core base len wid).core core).region base).slots = 0 := by
  rw [startRegion, modCore_core, if_pos rfl]
  simp [Core.region, Core.modRegion]

/-! ### Slots entered -/

/-- The number of slots that `enterRegion` takes an element to have: the most that any has. -/
theorem foldl_max_length_le_iff (els : List (List XNum)) (m b : Nat) :
    els.foldl (fun m l => max m l.length) m ≤ b ↔ m ≤ b ∧ ∀ l ∈ els, l.length ≤ b := by
  induction els generalizing m with
  | nil => simp
  | cons l els ih => rw [List.foldl_cons, ih, Nat.max_le, List.forall_mem_cons, and_assoc]
theorem foldl_max_drop_eq_zero {els : List (List XNum)} {n : Nat} (h : ∀ l ∈ els, l.length ≤ n) :
    (els.map (·.drop n)).foldl (fun m l => max m l.length) 0 = 0 := by
  refine Nat.le_zero.1 ((foldl_max_length_le_iff ..).2 ⟨Nat.le_refl 0, fun l hl => ?_⟩)
  obtain ⟨x, hx, rfl⟩ := List.mem_map.1 hl
  have := h x hx
  simp only [List.length_drop]
  omega

theorem enterRegion_of_no_slots (core base : Nat) (cls : TileClass) (fuel : Nat) {els : List (List XNum)} (s : State)
    (h : els.foldl (fun m l => max m l.length) 0 = 0) : enterRegion core base cls fuel els s = s := by
  cases fuel with
  | zero => rfl
  | succ fuel => exact if_pos h

/-- A zeroed region that takes at most a segment's slots: every element's pair is the sum of its slots in order (R133, R175). -/
theorem enterRegion_acc {core base : Nat} (cls : TileClass) {fuel : Nat} {els : List (List XNum)} {s : State} (hfuel : 0 < fuel)
    (hzero : ∀ i, i < els.length → smGet zeroWord (s.core core).acc (base + i) = 0) (hslots : ((s.core core).region base).slots = 0)
    (hlen : ∀ l ∈ els, l.length ≤ 65536) {i : Nat} {l : List XNum} (hl : els[i]? = some l) :
    smGet zeroWord ((enterRegion core base cls fuel els s).core core).acc (base + i) = (enterAll Pair.zero l).1.toWord := by
  obtain ⟨fuel, rfl⟩ := Nat.exists_eq_succ_of_ne_zero (Nat.ne_of_gt hfuel)
  have hi := (List.getElem?_eq_some_iff.1 hl).1
  have hmem := List.mem_of_getElem? hl
  unfold enterRegion
  extract_lets n r m res t u
  have hle : ∀ x ∈ els, x.length ≤ n := ((foldl_max_length_le_iff ..).1 (Nat.le_refl n)).2
  have hn : n ≤ 65536 := (foldl_max_length_le_iff ..).2 ⟨Nat.zero_le _, hlen⟩
  split
  · next h0 =>
    have hnil : l = [] := List.eq_nil_of_length_eq_zero (Nat.le_zero.1 (h0 ▸ hle l hmem))
    rw [hzero i hi, hnil]
    rfl
  · have hm : m = n := by show min n (65536 - r.slots) = n; rw [hslots]; omega
    have hpair : (s.core core).pair (base + i) = Pair.zero := by rw [Core.pair, hzero i hi]; rfl
    have hres : (res.map (·.1))[i]? = some (enterAll Pair.zero l).1 := by
      simp [res, hl, hm, hpair, List.take_of_length_le (hle l hmem)]
    rw [if_neg (by show ¬65536 ≤ r.slots; rw [hslots]; decide), enterRegion_of_no_slots _ _ _ _ _ (hm ▸ foldl_max_drop_eq_zero hle),
      ((Noted.refl t).noteAcc ..).acc]
    show smGet zeroWord ((s.modCore core _).core core).acc _ = _
    rw [modCore_core, if_pos rfl]
    exact setPairs_acc _ _ hres

/-! ### The groups of listed channels -/

/-- A list of `M` rows of `N` elements each, row by row, has `M * N` elements. -/
theorem length_flatMap_range {α : Type} (g : Nat → Nat → α) (M N : Nat) :
    ((List.range M).flatMap fun m => (List.range N).map (g m)).length = M * N := by
  induction M with
  | zero => exact (Nat.zero_mul N).symm
  | succ M ih =>
    rw [List.range_succ, List.flatMap_append, List.length_append, ih, List.flatMap_singleton, List.length_map, List.length_range,
      Nat.succ_mul]
/-- Element `(m, j)` of a list of `M` rows of `N` elements each, row by row. -/
theorem getElem?_flatMap_range {α : Type} (g : Nat → Nat → α) {M N m j : Nat} (hm : m < M) (hj : j < N) :
    ((List.range M).flatMap fun m => (List.range N).map (g m))[m * N + j]? = some (g m j) := by
  induction M with
  | zero => exact absurd hm (Nat.not_lt_zero m)
  | succ M ih =>
    have hlen := length_flatMap_range g M N
    rw [List.range_succ, List.flatMap_append]
    rcases Nat.lt_succ_iff_lt_or_eq.1 hm with hlt | rfl
    · have hrow : m * N + j < M * N := calc
        m * N + j < m * N + N := Nat.add_lt_add_left hj _
        _ = (m + 1) * N := (Nat.succ_mul m N).symm
        _ ≤ M * N := Nat.mul_le_mul_right N hlt
      rw [List.getElem?_append_left (hlen ▸ hrow)]
      exact ih hlt
    · rw [List.getElem?_append_right (hlen ▸ Nat.le_add_right ..), hlen]
      simp [hj]

theorem chunks_length_le {α : Type} (n k : Nat) (xs : List α) : (chunks n k xs).length ≤ k := by
  induction k generalizing xs with
  | zero => exact Nat.le_refl 0
  | succ k ih =>
    unfold chunks
    split
    · exact Nat.zero_le _
    · exact Nat.succ_le_succ (ih _)
theorem groups16_length_le (xs : List XNum) : (groups16 xs).length ≤ xs.length :=
  Nat.le_trans (Nat.le_of_eq (List.length_map ..)) (chunks_length_le ..)

theorem le_foldl_length {α : Type} (els : List (List α)) (m : Nat) : m ≤ els.foldl (fun n l => n + l.length) m := by
  induction els generalizing m with
  | nil => exact Nat.le_refl m
  | cons l els ih => exact Nat.le_trans (Nat.le_add_right ..) (ih _)

/-- The slots of element `(m, j)` of a side product of `n` listed channels: the products of its groups of 16, in list order; `A` is the
activation's words as one number. -/
def sideSlots (s : State) (core b n A m j : Nat) : List XNum :=
  List.zipWith (fun x y => gGroup x y 8 8 0)
    (groups16 ((List.range n).map fun i => fmtG16.decode (elemAt A 16 (m * n + i))))
    (groups16 ((List.range n).map fun i => fmtG16.decode ((s.core core).wRd (64 * fld b 8 4 + 2 * (i * fld b 2 1 + j)) 2)))

theorem sideSlots_length_le (s : State) (core b n A m j : Nat) : (sideSlots s core b n A m j).length ≤ n := by
  rw [sideSlots, List.length_zipWith]
  refine Nat.le_trans (Nat.min_le_left ..) (Nat.le_trans (groups16_length_le _) (Nat.le_of_eq ?_))
  rw [List.length_map, List.length_range]

/-- The pairs of a side product: each starts at zero and sums its slots in order. -/
theorem sideForm_acc {s : State} (core : Nat) {c : Cur} (ws : Nat → List Nat) (hn : (s.outliers c.img (fld c.blk 0x0C 4)).length ≤ 65536)
    {m j : Nat} (hm : m < fld c.blk 0 2) (hj : j < fld c.blk 2 1) :
    smGet zeroWord ((sideForm s core c ws).st.core core).acc (fld c.blk 4 4 + m * fld c.blk 2 1 + j) =
      (enterAll Pair.zero (sideSlots s core c.blk (s.outliers c.img (fld c.blk 0x0C 4)).length (packBits 512 (ws (fld c.blk 0x10 1)))
        m j)).1.toWord := by
  let slots := sideSlots s core c.blk (s.outliers c.img (fld c.blk 0x0C 4)).length (packBits 512 (ws (fld c.blk 0x10 1)))
  let els := (List.range (fld c.blk 0 2)).flatMap fun m => (List.range (fld c.blk 2 1)).map (slots m)
  have hels : els.length = fld c.blk 0 2 * fld c.blk 2 1 := length_flatMap_range slots _ _
  have hlen : ∀ l ∈ els, l.length ≤ 65536 := by
    intro l hl
    obtain ⟨_, _, hl⟩ := List.mem_flatMap.1 hl
    obtain ⟨_, _, rfl⟩ := List.mem_map.1 hl
    exact Nat.le_trans (sideSlots_length_le ..) hn
  rw [Nat.add_assoc]
  exact enterRegion_acc (s := startRegion s core (fld c.blk 4 4) (fld c.blk 0 2 * fld c.blk 2 1) 0) .forward
    (Nat.lt_of_lt_of_le Nat.two_pos (le_foldl_length els 2))
    (fun i hi => startRegion_acc s core _ 0 (hels ▸ hi)) (startRegion_slots ..) hlen (getElem?_flatMap_range slots hm hj)

/-- Settles O51: the entry forms its results at once, and putting them in place leaves the pairs it has summed. -/
theorem sideProductAccumulates : Obligations.SideProductAccumulates := by
  intro s core c hstart hreads hheld hfull hn
  refine ⟨_, runEntry_of_full hstart hreads hheld hfull rfl, ?_⟩
  intro m j hm hj
  have houtliers := (Fetches.entryWords sideKind s core c).outliers c.img (fld c.blk 0x0C 4)
  have hacc := sideForm_acc (c := { c with re := entryGot sideKind s core c }) core (entryIn sideKind s core c) (houtliers ▸ hn) hm hj
  rw [houtliers] at hacc
  rw [putFormed_acc _ _ _ rfl]
  exact hacc

end Sys2Proof.Machine
end

section
/-! Private SRAM read after it was written: a word by its bits, a byte by its address, a run as a number. -/

namespace Sys2Proof.Machine

theorem bitsOf_lt (n lo w : Nat) : bitsOf n lo w < 2 ^ w := Nat.mod_lt _ (Nat.two_pow_pos w)
theorem testBit_bitsOf (n lo w i : Nat) : (bitsOf n lo w).testBit i = (decide (i < w) && n.testBit (lo + i)) := by
  rw [bitsOf, Nat.testBit_mod_two_pow, Nat.testBit_shiftRight]

/-- The bits of a word put together of those below bit `sh`, a byte there, and the bits above. -/
theorem testBit_aroundByte (hi : Nat) {sh lo b : Nat} (hlo : lo < 2 ^ sh) (hb : b < 2 ^ 8) (j : Nat) :
    (2 ^ sh * (2 ^ 8 * hi + b) + lo).testBit j =
      if j < sh then lo.testBit j else if j - sh < 8 then b.testBit (j - sh) else hi.testBit (j - sh - 8) := by
  rw [Nat.testBit_two_pow_mul_add _ hlo, Nat.testBit_two_pow_mul_add _ hb]
/-- A word with the byte at bit `sh` replaced: its bits there are the byte's, the others stay. -/
theorem testBit_replaceByte (w sh j : Nat) {b : Nat} (hb : b < 2 ^ 8) :
    (w - bitsOf w sh 8 * 2 ^ sh + b * 2 ^ sh).testBit j = if sh ≤ j ∧ j < sh + 8 then b.testBit (j - sh) else w.testBit j := by
  have hlow : w % 2 ^ sh < 2 ^ sh := Nat.mod_lt _ (Nat.two_pow_pos sh)
  have hword : w = 2 ^ sh * (2 ^ 8 * (w / 2 ^ sh / 2 ^ 8) + bitsOf w sh 8) + w % 2 ^ sh := by
    rw [bitsOf, Nat.shiftRight_eq_div_pow, Nat.div_add_mod, Nat.div_add_mod]
  have hreplaced : w - bitsOf w sh 8 * 2 ^ sh + b * 2 ^ sh = 2 ^ sh * (2 ^ 8 * (w / 2 ^ sh / 2 ^ 8) + b) + w % 2 ^ sh := by
    rw [Nat.mul_add, Nat.mul_comm _ (bitsOf w sh 8)] at hword
    rw [Nat.mul_add, Nat.mul_comm _ b]
    omega
  have hold := testBit_aroundByte (w / 2 ^ sh / 2 ^ 8) hlow (bitsOf_lt w sh 8) j
  rw [← hword] at hold
  rw [hreplaced, testBit_aroundByte _ hlow hb, hold]
  by_cases hbelow : j < sh
  · rw [if_pos hbelow, if_neg (by omega), if_pos hbelow]
  · by_cases hin : j - sh < 8
    · rw [if_neg hbelow, if_pos hin, if_pos (by omega)]
    · rw [if_neg hbelow, if_neg hin, if_neg (by omega), if_neg hbelow, if_neg hin]

/-- The byte at an address of an SRAM. -/
def sramByte (m : SMap Nat) (a : Nat) : Nat := bitsOf (smGet zeroWord m (a / 8)) (8 * (a % 8)) 8

theorem sramRead_succ (m : SMap Nat) (a n : Nat) : sramRead m a (n + 1) = sramByte m a + 256 * sramRead m (a + 1) n := rfl

theorem sramByte_setByte (m : SMap Nat) (a b x : Nat) :
    sramByte (sramSetByte m a b) x = if x = a then b % 256 else sramByte m x := by
  have hb : b % 256 < 256 := Nat.mod_lt _ (by decide)
  unfold sramByte sramSetByte
  dsimp only
  rw [smGet_set]
  by_cases hword : x / 8 = a / 8
  · rw [if_pos hword, hword]
    refine Nat.eq_of_testBit_eq fun i => ?_
    rw [testBit_bitsOf, testBit_replaceByte _ _ _ hb]
    by_cases hi : i < 8
    · by_cases hx : x = a
      · rw [if_pos hx, hx, if_pos (by omega), Nat.add_sub_cancel_left, decide_eq_true hi, Bool.true_and]
      · rw [if_neg hx, if_neg (by omega), testBit_bitsOf]
    · rw [decide_eq_false hi, Bool.false_and]
      split
      · exact (Nat.testBit_lt_two_pow (Nat.lt_of_lt_of_le hb (Nat.pow_le_pow_right Nat.two_pos (Nat.le_of_not_lt hi)))).symm
      · rw [testBit_bitsOf, decide_eq_false hi, Bool.false_and]
  · rw [if_neg hword, if_neg (by rintro rfl; exact hword rfl)]

theorem sramByte_write (m : SMap Nat) (a n v x : Nat) :
    sramByte (sramWrite m a n v) x = if a ≤ x ∧ x < a + n then v / 256 ^ (x - a) % 256 else sramByte m x := by
  induction n generalizing m a v with
  | zero => exact (if_neg (by omega)).symm
  | succ n ih =>
    rw [sramWrite, ih, sramByte_setByte]
    by_cases hx : x = a
    · subst hx
      rw [if_neg (by omega), if_pos rfl, if_pos (by omega), Nat.sub_self, Nat.pow_zero, Nat.div_one, Nat.mod_mod]
    · rw [if_neg hx]
      by_cases hin : a + 1 ≤ x ∧ x < a + 1 + n
      · rw [if_pos hin, if_pos (by omega), show x - a = x - (a + 1) + 1 by omega, Nat.pow_succ', Nat.div_div_eq_div_mul]
      · rw [if_neg hin, if_neg (by omega)]

/-- A run of bytes reads as the number that they spell. -/
theorem sramRead_of_bytes {m : SMap Nat} {a n v : Nat} (h : ∀ i, i < n → sramByte m (a + i) = v / 256 ^ i % 256) :
    sramRead m a n = v % 256 ^ n := by
  induction n generalizing a v with
  | zero => exact (Nat.mod_one v).symm
  | succ n ih =>
    have hfirst : sramByte m a = v % 256 := (h 0 (Nat.succ_pos n)).trans (by rw [Nat.pow_zero, Nat.div_one])
    have hrest : sramRead m (a + 1) n = v / 256 % 256 ^ n := ih fun i hi => by
      rw [Nat.add_assoc, Nat.add_comm 1 i, h (i + 1) (Nat.succ_lt_succ hi), Nat.pow_succ', Nat.div_div_eq_div_mul]
    rw [sramRead_succ, hfirst, hrest, Nat.pow_succ', Nat.mod_mul]

/-- Bytes of a run that was written read as the number's bytes at their place. -/
theorem sramRead_write (m : SMap Nat) (a v : Nat) {n off k : Nat} (h : off + k ≤ n) :
    sramRead (sramWrite m a n v) (a + off) k = v / 256 ^ off % 256 ^ k :=
  sramRead_of_bytes fun i hi => by
    rw [sramByte_write, if_pos (by omega), show a + off + i - a = off + i by omega, Nat.pow_add, Nat.div_div_eq_div_mul]
theorem sramRead_write_outside (m : SMap Nat) (v : Nat) {a n x k : Nat} (h : x + k ≤ a ∨ a + n ≤ x) :
    sramRead (sramWrite m a n v) x k = sramRead m x k := by
  induction k generalizing x with
  | zero => rfl
  | succ k ih => rw [sramRead_succ, sramRead_succ, ih (by omega), sramByte_write, if_neg (by omega)]

theorem sramWr_sramRd (s : State) (cl a v : Nat) {n off k : Nat} (h : off + k ≤ n) :
    (s.sramWr cl a n v).sramRd cl (a + off) k = v / 256 ^ off % 256 ^ k := by
  rw [State.sramRd, State.sramWr, modCluster_cluster, if_pos rfl]
  exact sramRead_write _ a v h
theorem sramWr_sramRd_outside (s : State) (cl v : Nat) {a n x k : Nat} (h : x + k ≤ a ∨ a + n ≤ x) :
    (s.sramWr cl a n v).sramRd cl x k = s.sramRd cl x k := by
  rw [State.sramRd, State.sramWr, modCluster_cluster, if_pos rfl]
  exact sramRead_write_outside _ v h

/-- Element `i` of a packed sequence. -/
theorem packBits_elem (w : Nat) {xs : List Nat} {i x : Nat} (h : xs[i]? = some x) : packBits w xs / 2 ^ (w * i) % 2 ^ w = x % 2 ^ w := by
  induction xs generalizing i with
  | nil => cases h
  | cons y xs ih =>
    rw [packBits]
    cases i with
    | zero =>
      obtain rfl := Option.some.inj h
      rw [Nat.mul_zero, Nat.pow_zero, Nat.div_one, Nat.add_mul_mod_self_left, Nat.mod_mod]
    | succ i =>
      have hrest : (y % 2 ^ w + 2 ^ w * packBits w xs) / 2 ^ w = packBits w xs := by
        rw [Nat.add_mul_div_left _ _ (Nat.two_pow_pos w), Nat.div_eq_of_lt (Nat.mod_lt _ (Nat.two_pow_pos w)), Nat.zero_add]
      rw [Nat.mul_succ, Nat.add_comm (w * i), Nat.pow_add, ← Nat.div_div_eq_div_mul, hrest]
      exact ih h

end Sys2Proof.Machine
end

section
/-! Gradient tiles (R163, R165): a tile move starts and forms at once; the record of a spill, and the pairs that a reload adds. -/

namespace Sys2Proof.Machine

/-! ### A tile move starts -/

/-- The state in which an entry that no Sluice feeds forms its results: it has opened its cluster's tail and left its core's list. -/
def tileOpen (s : State) (core : Nat) (c : Cur) : State :=
  (openTail s core c.re.plan).modCore core fun x => { x with todo := x.todo.drop 1, accHeld := false }

section
variable (s : State) (core : Nat) (c : Cur)

theorem openTail_keeps (p : PlanEntry) : Moves (maskOf [.clusters]) s (openTail s core p) := openTail_moves s core p (.refl _ s) (by decide)

theorem tileOpen_reg (k : Nat) : (tileOpen s core c).reg k = s.reg k := ((Fetches.refl s).openTail core c.re.plan).2 k
theorem tileOpen_clStep (cl : Nat) : (tileOpen s core c).clStep cl = s.clStep cl := tileOpen_reg ..
theorem tileOpen_log : (tileOpen s core c).log = s.log := (openTail_keeps s core c.re.plan).same .log rfl
theorem tileOpen_counter : (tileOpen s core c).counter = s.counter := (openTail_keeps s core c.re.plan).same .counter rfl
theorem tileOpen_core : (tileOpen s core c).core core = { s.core core with todo := (s.core core).todo.drop 1, accHeld := false } := by
  have hcores : (openTail s core c.re.plan).core core = s.core core :=
    congrArg (smGet dCore · core) ((openTail_keeps s core c.re.plan).same .cores rfl)
  rw [tileOpen, modCore_core, if_pos rfl, hcores]
theorem tileOpen_acc : ((tileOpen s core c).core core).acc = (s.core core).acc := by rw [tileOpen_core]
theorem tileOpen_pair (i : Nat) : ((tileOpen s core c).core core).pair i = (s.core core).pair i := by rw [Core.pair, tileOpen_acc]; rfl
theorem tileOpen_region (base : Nat) : ((tileOpen s core c).core core).region base = (s.core core).region base := by
  rw [tileOpen_core]; rfl

end

section
variable {s : State} {core : Nat} {c : Cur}

theorem putFormed_of_no_output (s : State) (core : Nat) (re : RunEntry) {f : Formed} (h : f.outq = []) :
    putFormed s core re none f = s.modCore core (putRunning · (formedRun re f [])) := by
  unfold putFormed
  rw [h]
  rfl
theorem entryOpen_of_no_feeds (k : EntryKind) (hwait : (c.img.waitOf core c.re.entry.wait).1 = []) :
    entryOpen k s core c = tileOpen s core c := by
  unfold entryOpen
  rw [hwait]
  rfl

variable (hconv : cConv c.blk = 4 ∨ cConv c.blk = 5)
include hconv

/-- A tile move reads no Sluice and nothing of another table (R159). -/
theorem cNeeds_tile (t : State) : cNeeds t core c = [] := by
  unfold cNeeds
  rcases hconv with h | h <;> simp only [h]
theorem cReads_tile : cReads s core c = [] := by
  unfold cReads
  rcases hconv with h | h <;> simp only [h]

variable (form : State → Nat → Cur → (Nat → List Nat) → Formed)

theorem entryNeeds_tile : entryNeeds (convKind form) s core c = [] :=
  congrArg (List.filter _) (cNeeds_tile hconv (entryOpen (convKind form) s core c))
theorem entryFull_tile : entryFull (convKind form) s core c = true := by
  rw [entryFull, entryNeeds_tile hconv]; rfl
theorem readsHold_tile : readsHold (convKind form) s core c = true := by
  show (!anyBad (cReads s core c) && (firstDiffer s (cReads s core c)).isNone) = true
  rw [cReads_tile hconv]; rfl
theorem entryResult_tile (hwait : (c.img.waitOf core c.re.entry.wait).1 = []) : entryResult (convKind form) s core c =
    form (tileOpen s core c) core { c with re := entryGot (convKind form) s core c } (entryIn (convKind form) s core c) := by
  have hopen : (entryWords (convKind form) s core c).2 = tileOpen s core c := by
    rw [entryWords, entryNeeds_tile hconv, entryOpen_of_no_feeds _ hwait]; rfl
  rw [← hopen]
  rfl

/-- Nothing keeps a tile move waiting once it has started: it forms at once, and its record among the started entries is all that is put
in place beside what it formed. -/
theorem runConv_tile (hstart : s.starts core 6 c) (hheld : heldForRegion s core (cRegions s core c) = false)
    (hwait : (c.img.waitOf core c.re.entry.wait).1 = [])
    (hform : ∀ t c ws, (form t core c ws).share = none ∧ (form t core c ws).outq = []) :
    ∃ c' ws re, c'.blk = c.blk ∧ runConv (cConv c.blk) form core .none s =
      .next ((form (tileOpen s core c) core c' ws).st.modCore core (putRunning · re)) := by
  have hresult := entryResult_tile (s := s) hconv form hwait
  obtain ⟨hshare, houtq⟩ := hform (tileOpen s core c) { c with re := entryGot (convKind form) s core c } (entryIn (convKind form) s core c)
  have hrun := runEntry_of_full hstart (readsHold_tile hconv form) hheld (entryFull_tile hconv form) (hresult ▸ hshare)
  rw [hresult, putFormed_of_no_output _ _ _ houtq] at hrun
  refine ⟨{ c with re := entryGot (convKind form) s core c }, _, _, rfl, Eq.trans ?_ hrun⟩
  unfold runConv
  rw [hstart.1]
  exact if_pos rfl

end

/-! ### Regions -/

theorem region_base (c : Core) (base : Nat) : (c.region base).base = base := by
  unfold Core.region
  cases h : c.regions.find? fun r => r.base == base with
  | none => rfl
  | some r => exact beq_iff_eq.1 (List.find?_some (p := fun r : Region => r.base == base) h)
theorem modRegion_region (c : Core) {base : Nat} {f : Region → Region} (h : (f (c.region base)).base = base) :
    (c.modRegion base f).region base = f (c.region base) := by
  have hfirst (rs : List Region) : (f (c.region base) :: rs).find? (fun r => r.base == base) = some (f (c.region base)) :=
    List.find?_cons_of_pos (beq_iff_eq.2 h)
  rw [Core.region, Core.modRegion, hfirst]
  rfl
theorem withAcc_regions (c : Core) (acc : SMap Nat) : { c with acc := acc }.regions = c.regions := rfl
theorem setPairs_regions (c : Core) (base : Nat) (ps : List Pair) : (c.setPairs base ps).regions = c.regions := by
  induction ps generalizing c base with
  | nil => rfl
  | cons p ps ih =>
    rw [Core.setPairs, ih]
    exact withAcc_regions c _
theorem setPairs_region (c : Core) (base : Nat) (ps : List Pair) (j : Nat) : (c.setPairs base ps).region j = c.region j := by
  rw [Core.region, setPairs_regions]; rfl
theorem Noted.region {s t : State} (h : Noted s t) (core base : Nat) : (t.core core).region base = (s.core core).region base := by
  obtain ⟨_, hc⟩ := h.cores core; rw [hc]; rfl

/-! ### A spill (R163) -/

theorem pair_toWord_lt (c : Core) (i : Nat) : (c.pair i).toWord < 2 ^ 64 := by
  have hhi := bitsOf_lt (smGet zeroWord c.acc i) 32 32
  have hlo := bitsOf_lt (smGet zeroWord c.acc i) 0 32
  unfold Core.pair Pair.ofWord Pair.toWord
  dsimp only
  omega
theorem spillHeader_lt (wid count step : Nat) : spillHeader wid count step < 256 ^ 64 := by
  unfold spillHeader
  omega

/-- The record of a spill written: the header, and the pairs of the region after it. -/
def writeRecord (s : State) (core b : Nat) : State :=
  (s.sramWr (clusterOf core) (64 * fld b 0x24 4) 64 (spillHeader (fld b 0x20 3) (cElems b) (s.clStep (clusterOf core)))).sramWr
    (clusterOf core) (64 * fld b 0x24 4 + 64) (8 * cElems b) (packBits 64 (((s.core core).pairs (fld b 0x1C 4) (cElems b)).map Pair.toWord))

theorem writeRecord_header (s : State) (core b : Nat) : (writeRecord s core b).sramRd (clusterOf core) (64 * fld b 0x24 4) 64 =
    spillHeader (fld b 0x20 3) (cElems b) (s.clStep (clusterOf core)) := by
  rw [writeRecord, sramWr_sramRd_outside _ _ _ (.inl (Nat.le_refl _))]
  refine (sramWr_sramRd s _ _ _ (off := 0) (Nat.le_refl 64)).trans ?_
  rw [Nat.pow_zero, Nat.div_one, Nat.mod_eq_of_lt (spillHeader_lt ..)]
theorem writeRecord_pair (s : State) (core b : Nat) {i : Nat} (hi : i < cElems b) :
    (writeRecord s core b).sramRd (clusterOf core) (64 * fld b 0x24 4 + 64 + 8 * i) 8 =
      ((s.core core).pair (fld b 0x1C 4 + i)).toWord := by
  have helem : (((s.core core).pairs (fld b 0x1C 4) (cElems b)).map Pair.toWord)[i]? =
      some ((s.core core).pair (fld b 0x1C 4 + i)).toWord := by simp [Core.pairs, hi]
  rw [writeRecord, sramWr_sramRd _ _ _ _ (by omega), show (256 : Nat) ^ (8 * i) = 2 ^ (64 * i) by rw [← Nat.pow_mul 2 8]; congr 1; omega]
  exact (packBits_elem 64 helem).trans (Nat.mod_eq_of_lt (pair_toWord_lt ..))

/-- A spill of a region without closed segments writes its record, ends the pin and counts (R163). -/
theorem spillForm_st {s : State} {core : Nat} {c : Cur} (ws : Nat → List Nat)
    (hsegs : ((s.core core).region (fld c.blk 0x1C 4)).segs = []) :
    (spillForm s core c ws).st = ((writeRecord s core c.blk).modCore core fun x =>
      x.modRegion (fld c.blk 0x1C 4) fun r => { r with pinned := false, slots := 0 }).bump (Obj.bengSpills core) 1 := by
  have hcombine : combineRegion s core (fld c.blk 0x1C 4) .other = s := by
    unfold combineRegion
    exact if_pos (by rw [hsegs]; rfl)
  unfold spillForm
  dsimp only
  rw [hcombine]
  rfl

/-! ### A reload (R165) -/

/-- The header of the record that a reload reads is that of its weight, its count and the step in progress. -/
def recordMatches (s : State) (core b : Nat) : Prop :=
  s.sramRd (clusterOf core) (64 * fld b 0x24 4) 4 = fld b 0x20 3 ∧ s.sramRd (clusterOf core) (64 * fld b 0x24 4 + 4) 4 = cElems b ∧
    s.sramRd (clusterOf core) (64 * fld b 0x24 4 + 8) 4 = s.clStep (clusterOf core) % 2 ^ 32

/-- Pair `i` of a region with pair `i` of its record added, the spilled pair first. -/
def reloadSum (s : State) (core b i : Nat) : PairRes :=
  pairAdd (Pair.ofWord (s.sramRd (clusterOf core) (64 * fld b 0x24 4 + 64 + 8 * i) 8)) ((s.core core).pair (fld b 0x1C 4 + i))
/-- The pairs of a record added into their region. -/
def addRecord (s : State) (core b : Nat) : State :=
  s.modCore core fun x => (x.setPairs (fld b 0x1C 4) ((List.range (cElems b)).map fun i => (reloadSum s core b i).pair)).modRegion
    (fld b 0x1C 4) fun r => { r with slots := r.slots + 1, len := max r.len (cElems b), wid := fld b 0x20 3, pinned := true }

theorem addRecord_acc (s : State) (core b : Nat) {i : Nat} (hi : i < cElems b) :
    smGet zeroWord ((addRecord s core b).core core).acc (fld b 0x1C 4 + i) = (reloadSum s core b i).pair.toWord := by
  rw [addRecord, modCore_core, if_pos rfl]
  exact setPairs_acc _ _ (by simp [hi])
theorem addRecord_region (s : State) (core b : Nat) : ((addRecord s core b).core core).region (fld b 0x1C 4) =
    { (s.core core).region (fld b 0x1C 4) with
      slots := ((s.core core).region (fld b 0x1C 4)).slots + 1, len := max ((s.core core).region (fld b 0x1C 4)).len (cElems b)
      wid := fld b 0x20 3, pinned := true } := by
  rw [addRecord, modCore_core, if_pos rfl, modRegion_region _ (region_base ..), setPairs_region]

/-- A reload whose record matches adds its pairs, and counts: whatever else it notes leaves them (R165, R174). -/
theorem reloadForm_matches {s : State} {core : Nat} {c : Cur} (ws : Nat → List Nat) (h : recordMatches s core c.blk)
    (hslots : ((s.core core).region (fld c.blk 0x1C 4)).slots < 65536) :
    ∃ t, Noted (addRecord s core c.blk) t ∧ (reloadForm s core c ws).st = t.bump (Obj.bengReloads core) 1 := by
  obtain ⟨hwid, hcount, hstep⟩ := h
  unfold reloadForm
  dsimp only
  rw [if_neg (by simp [hwid, hcount, hstep]), if_neg (Nat.not_le.2 hslots)]
  refine ⟨_, ?_, rfl⟩
  rw [List.map_map]
  exact (Noted.refl (addRecord s core c.blk)).noteAcc ..
/-- Any other is reported and adds nothing. -/
theorem reloadForm_differs {s : State} {core : Nat} {c : Cur} (ws : Nat → List Nat) (h : ¬recordMatches s core c.blk) :
    (reloadForm s core c ws).st = raise s 0x3D01 .stepAbort (uCore core) := by
  unfold reloadForm
  dsimp only
  split
  · rfl
  · next hsame =>
    simp only [Bool.or_eq_true, bne_iff_ne, ne_eq, not_or, Decidable.not_not] at hsame
    obtain ⟨⟨hwid, hcount⟩, hstep⟩ := hsame
    exact absurd ⟨hwid, hcount, hstep⟩ h
theorem reloadForm_delivers_nothing (s : State) (core : Nat) (c : Cur) (ws : Nat → List Nat) :
    (reloadForm s core c ws).share = none ∧ (reloadForm s core c ws).outq = [] := by
  unfold reloadForm
  dsimp only
  split <;> exact ⟨rfl, rfl⟩

/-! ### The commands -/

section
variable {s : State} {core : Fin 256} {c : Cur} (hstart : s.starts core 6 c) (hheld : heldForRegion s core (cRegions s core c) = false)
  (hwait : (c.img.waitOf core c.re.entry.wait).1 = [])
include hstart hheld hwait

theorem gradTileSpill_next (hconv : cConv c.blk = 4) (hsegs : ((s.core core).region (fld c.blk 0x1C 4)).segs = []) :
    ∃ re, exec (.gradTileSpill core .none) s = .next ((((writeRecord (tileOpen s core c) core c.blk).modCore core fun x =>
      x.modRegion (fld c.blk 0x1C 4) fun r => { r with pinned := false, slots := 0 }).bump (Obj.bengSpills core) 1).modCore core
        (putRunning · re)) := by
  obtain ⟨c', ws, re, hblk, hrun⟩ := runConv_tile (.inl hconv) spillForm hstart hheld hwait fun _ _ _ => ⟨rfl, rfl⟩
  rw [hconv, spillForm_st ws (by rw [hblk, tileOpen_region, hsegs]), hblk] at hrun
  exact ⟨re, hrun⟩

theorem gradTileReload_next_matches (hconv : cConv c.blk = 5) (hslots : ((s.core core).region (fld c.blk 0x1C 4)).slots < 65536)
    (hmatch : recordMatches (tileOpen s core c) core c.blk) :
    ∃ re t, Noted (addRecord (tileOpen s core c) core c.blk) t ∧
      exec (.gradTileReload core .none) s = .next ((t.bump (Obj.bengReloads core) 1).modCore core (putRunning · re)) := by
  obtain ⟨c', ws, re, hblk, hrun⟩ := runConv_tile (.inr hconv) reloadForm hstart hheld hwait (reloadForm_delivers_nothing · core)
  obtain ⟨t, hnoted, hst⟩ := reloadForm_matches (c := c') ws (hblk ▸ hmatch) (by rw [hblk, tileOpen_region]; exact hslots)
  rw [hconv, hst] at hrun
  exact ⟨re, t, hblk ▸ hnoted, hrun⟩

theorem gradTileReload_next_differs (hconv : cConv c.blk = 5) (hdiffers : ¬recordMatches (tileOpen s core c) core c.blk) :
    ∃ re, exec (.gradTileReload core .none) s =
      .next ((raise (tileOpen s core c) 0x3D01 .stepAbort (uCore core)).modCore core (putRunning · re)) := by
  obtain ⟨c', ws, re, hblk, hrun⟩ := runConv_tile (.inr hconv) reloadForm hstart hheld hwait (reloadForm_delivers_nothing · core)
  rw [hconv, reloadForm_differs ws (hblk ▸ hdiffers)] at hrun
  exact ⟨re, hrun⟩

end

theorem size_bengSpills (n : Nat) : objSize (objPart (Obj.bengSpills n)) = 4 :=
  (by decide +kernel : ∀ m : Fin 256, objSize (objPart (ob (0x3800 + m.val) 0x08)) = 4) ⟨n % 256, Nat.mod_lt _ (by decide)⟩
theorem size_bengReloads (n : Nat) : objSize (objPart (Obj.bengReloads n)) = 4 :=
  (by decide +kernel : ∀ m : Fin 256, objSize (objPart (ob (0x3800 + m.val) 0x09)) = 4) ⟨n % 256, Nat.mod_lt _ (by decide)⟩

theorem putRunning_acc (c : Core) (re : RunEntry) : (putRunning c re).acc = c.acc := rfl
theorem putRunning_region (c : Core) (re : RunEntry) (base : Nat) : (putRunning c re).region base = c.region base := rfl
theorem modCore_putRunning (s : State) (core : Nat) (re : RunEntry) :
    (s.modCore core (putRunning · re)).core core = putRunning (s.core core) re := (modCore_core ..).trans (if_pos rfl)

/-- Settles O52: a tile move forms at once. A spill reads back as its record and leaves the pairs; a reload adds the record where its
header matches, and reports it where it differs. -/
theorem gradTilesKept : Obligations.GradTilesKept := by
  intro s core c hstart hheld b base n r cl a o hwait hsegs
  refine ⟨fun hconv => ?_, fun hconv hslots => ⟨fun hwid hcount hstep => ?_, fun hdiffers => ?_⟩⟩
  · obtain ⟨re, hrun⟩ := gradTileSpill_next hstart hheld hwait hconv hsegs
    refine ⟨_, hrun, ?_, fun i hi => ?_, ?_, ?_, ?_⟩
    · exact (writeRecord_header ..).trans (by rw [tileOpen_clStep])
    · exact (writeRecord_pair _ _ _ hi).trans (by rw [tileOpen_pair])
    · rw [modCore_putRunning, putRunning_acc, bump_core, modCore_core, if_pos rfl]
      exact tileOpen_acc s core c
    · rw [modCore_putRunning, putRunning_region, bump_core, modCore_core, if_pos rfl, modRegion_region _ (region_base ..)]
    · rw [modCore_reg, bump_reg, if_pos rfl, size_bengSpills]
      exact congrArg (fun v => min (v + 1) (2 ^ 32 - 1)) (tileOpen_reg s core c _)
  · have hmatch : recordMatches (tileOpen s core c) core b := ⟨hwid, hcount, hstep.trans (by rw [tileOpen_clStep])⟩
    obtain ⟨re, t, hnoted, hrun⟩ := gradTileReload_next_matches hstart hheld hwait hconv hslots hmatch
    have hregion := (hnoted.region core base).trans (addRecord_region ..)
    rw [tileOpen_region] at hregion
    refine ⟨_, hrun, fun i hi => ?_, ?_, ?_, ?_⟩
    · rw [modCore_putRunning, putRunning_acc, bump_core, hnoted.acc, addRecord_acc _ _ _ hi, reloadSum, tileOpen_pair]
      rfl
    · rw [modCore_putRunning, putRunning_region, bump_core, hregion]
    · rw [modCore_putRunning, putRunning_region, bump_core, hregion]
    · rw [modCore_reg, bump_reg, if_pos rfl, size_bengReloads, hnoted.regs _ (by rw [page_bengReloads]; decide)]
      exact congrArg (fun v => min (v + 1) (2 ^ 32 - 1)) (tileOpen_reg s core c _)
  · have hother : ¬recordMatches (tileOpen s core c) core b := by
      rintro ⟨hwid, hcount, hstep⟩
      exact hdiffers.elim (· hwid) (·.elim (· hcount) (· (hstep.trans (by rw [tileOpen_clStep]))))
    obtain ⟨re, hrun⟩ := gradTileReload_next_differs hstart hheld hwait hconv hother
    refine ⟨_, hrun, ?_, ?_⟩
    · rw [modCore_putRunning, raise_core]
      exact tileOpen_acc s core c
    · exact ((raise_reports _ _ _ _ _).of_same (tileOpen_log ..) (tileOpen_counter ..)).then rfl

end Sys2Proof.Machine
end

section
/-! The discard of a rollout step (R247) where restoring a tail rewrites an image. The discard takes the slots of a cluster by the SLOTS field
that its image holds when the cluster's turn comes, and a cluster before it may have restored a tail over that image. -/

namespace Sys2Proof.Machine

/-- A rollout step in abort over clusters 0 and 1, with one slot in each image (R238). The page tables map the first GiB of virtual addresses
onto the table area (R302), so the tail that slot 0 of cluster 0 has sealed (64 bytes: HEAD_DIM 1 only keeps it short) lies over the rollout
record of cluster 1's image, and its contents before the step, all zero, make SLOTS 0. The slot of cluster 1 holds a row and a token of the
step. -/
def tailOverImage : State :=
  let s := [(Obj.schedClRole 0, 2), (Obj.schedClRole 1, 2), (Obj.memTblBase, 0x40000000), (Obj.xlatRoot, 0x200000),
    (ofUnit Obj.pwrDomState (domHbm 0), dsOn)].foldl (fun s p => s.setReg p.1 p.2) State.reset
  let pte := (0x200000, 8, 0xE000000040000000)
  let image0 := [(0x40000010, 8, 0x200), (0x40000204, 2, 1), (0x40000216, 2, 1)]
  let image1 := [(0x40010010, 8, 0x200), (0x40010204, 2, 1)]
  { s with
    tables := [{ handle := 0x6800000000000001, active := true, snap := [(0x11, 2), (0x204, 1), (0x216, 1)] },
      { handle := 0x6840000000010001, active := true, snap := [(0x11, 2), (0x204, 1)] }]
    mem := (pte :: image0 ++ image1).foldl (fun m f => memWrite m f.1 f.2.1 f.2.2) s.mem
    roll := { phase := .running, abort := true, members := [0, 1] }
    clusters := [(0, { slots := [(0, { st := .decode, len := 32, rows := 1, samples := true, sealed := [(0x10200, 0)] })] }),
      (1, { slots := [(0, { st := .decode, len := 5, rows := 1, samples := true, token := some (7, 0) })] })] }

/-- The rows that a slot holds in the state a command answers. -/
def rowsAfter (o : Host.Outcome State Fault Refusal) (cl n : Nat) : Nat :=
  match o with
  | .next t => ((t.cluster cl).slot n).rows
  | _ => 0

theorem rowsAfter_next (t : State) (cl n : Nat) : rowsAfter (.next t) cl n = ((t.cluster cl).slot n).rows := rfl

/-- Cluster 1 has its slot before the tail of cluster 0 is restored, and none after. -/
theorem tailOverImage_slots : tailOverImage.slotNums 1 = [0] ∧ (unsealSlot 0 0 tailOverImage).slotNums 1 = [] := by decide +kernel
/-- So the discard passes over that slot. -/
theorem tailOverImage_row_stays : rowsAfter (exec .rolloutStepDiscard tailOverImage) 1 0 = 1 := by decide +kernel

/-- Refutes O46: its clause of the discard says that every slot of the group's clusters gives up its rows, and one that its cluster's image
no longer counts keeps its row. -/
theorem not_rolloutCommandsComplete : ¬ Obligations.RolloutCommandsComplete := by
  unfold Obligations.RolloutCommandsComplete
  intro h
  obtain ⟨_, _, hdiscard, _, _⟩ := h tailOverImage
  obtain ⟨t, hexec, _, _, _, _, _, hslots⟩ := hdiscard rfl rfl
  have hmember : 1 ∈ tailOverImage.roll.members := by decide
  have hslot : 0 ∈ tailOverImage.slotNums 1 := by rw [tailOverImage_slots.1]; exact List.mem_singleton_self 0
  have hrows : ((t.cluster 1).slot 0).rows = 0 := (hslots 1 hmember 0 hslot).1
  have hstays := tailOverImage_row_stays
  rw [hexec, rowsAfter_next, hrows] at hstays
  exact absurd hstays (by decide)

end Sys2Proof.Machine
end

section
/-! Contexts and Sluices (11): what is read of them after they were changed, and what the operations that rewind, land and end streams
leave. -/

namespace Sys2Proof.Machine

/-! ### Contexts and Sluices read back -/

section
variable (s : State) (core n i j sl : Nat) (f : Ctx → Ctx) (g : Sluice → Sluice) (c : Core)

@[simp] theorem modCtx_ctx : (c.modCtx i f).ctx j = if j = i then f (c.ctx i) else c.ctx j := smGet_set ..
@[simp] theorem modCtx_sluice : (c.modCtx i f).sluice sl = c.sluice sl := rfl
@[simp] theorem modSluice_ctx : (c.modSluice sl g).ctx j = c.ctx j := rfl
@[simp] theorem modCtx_core : (modCtx s core i f).core core = (s.core core).modCtx i f := (modCore_core ..).trans (if_pos rfl)
@[simp] theorem modSlu_core : (modSlu s core sl g).core core = (s.core core).modSluice sl g := (modCore_core ..).trans (if_pos rfl)
theorem modCtx_ctx_self : ((modCtx s core i f).core core).ctx i = f ((s.core core).ctx i) := by rw [modCtx_core, modCtx_ctx, if_pos rfl]
theorem modSlu_sluice_self : ((modSlu s core sl g).core core).sluice sl = g ((s.core core).sluice sl) := by
  rw [modSlu_core, modSluice_sluice, if_pos rfl]
@[simp] theorem modCtx_reg (k : Nat) : (modCtx s core i f).reg k = s.reg k := rfl
@[simp] theorem modSlu_reg (k : Nat) : (modSlu s core sl g).reg k = s.reg k := rfl
@[simp] theorem modCtx_desc : (modCtx s core i f).desc n j = s.desc n j := rfl
@[simp] theorem modCtx_linkOf : (modCtx s core i f).linkOf n j = s.linkOf n j := rfl

/-- A core but for its contexts and Sluices. -/
def Core.beside (c : Core) : Core := { c with ctxs := [], sluices := [] }
@[simp] theorem modCtx_beside : (c.modCtx i f).beside = c.beside := rfl
@[simp] theorem modSluice_beside : (c.modSluice sl g).beside = c.beside := rfl

end

/-! ### The counters of a core's streams (page 0x52) -/

theorem bump_u32 (s : State) {k : Nat} (hk : objSize (objPart k) = 4) : (s.bump k 1).reg k = min (s.reg k + 1) (2 ^ 32 - 1) :=
  (bump_reg ..).trans ((if_pos rfl).trans (congrArg (fun n => min (s.reg k + 1) (256 ^ n - 1)) hk))

theorem strmDrops_ne_rewinds (core : Nat) : Obj.strmDrops core ≠ Obj.strmRewinds core := by
  unfold Obj.strmDrops Obj.strmRewinds ob; omega
theorem strmFlushes_ne_rewinds (core : Nat) : Obj.strmFlushes core ≠ Obj.strmRewinds core := by
  unfold Obj.strmFlushes Obj.strmRewinds ob; omega
theorem strmDeadlocks_ne_rewinds (core : Nat) : Obj.strmDeadlocks core ≠ Obj.strmRewinds core := by
  unfold Obj.strmDeadlocks Obj.strmRewinds ob; omega
theorem size_strmOverwrites (n : Nat) : objSize (objPart (Obj.strmOverwrites n)) = 4 :=
  (by decide +kernel : ∀ m : Fin 256, objSize (objPart (ob (0x5200 + m.val) 0x01)) = 4) ⟨n % 256, Nat.mod_lt _ (by decide)⟩
theorem size_strmDrops (n : Nat) : objSize (objPart (Obj.strmDrops n)) = 4 :=
  (by decide +kernel : ∀ m : Fin 256, objSize (objPart (ob (0x5200 + m.val) 0x03)) = 4) ⟨n % 256, Nat.mod_lt _ (by decide)⟩
theorem size_strmFlushes (n : Nat) : objSize (objPart (Obj.strmFlushes n)) = 4 :=
  (by decide +kernel : ∀ m : Fin 256, objSize (objPart (ob (0x5200 + m.val) 0x04)) = 4) ⟨n % 256, Nat.mod_lt _ (by decide)⟩
theorem size_strmDeadlocks (n : Nat) : objSize (objPart (Obj.strmDeadlocks n)) = 4 :=
  (by decide +kernel : ∀ m : Fin 256, objSize (objPart (ob (0x5200 + m.val) 0x05)) = 4) ⟨n % 256, Nat.mod_lt _ (by decide)⟩

/-- A descriptor, and the context armed on a Sluice, read as before once a counter of a core's streams has moved. -/
theorem bump_desc (s : State) {k : Nat} (v : Nat) (hk : page k = 0x52) (core i : Nat) : (s.bump k v).desc core i = s.desc core i := by
  have hreg : ∀ j, page j ≠ 0x52 → (s.bump k v).reg j = s.reg j := fun j hj =>
    (bump_reg ..).trans (if_neg (by rintro rfl; exact hj hk))
  unfold State.desc State.table State.tblRd State.memRd State.regionBase State.role
  rw [hreg _ (by rw [page_schedClRole]; decide), hreg _ (by rw [page_memTblBase]; decide)]
  rfl
theorem bump_ctxOn (s : State) {k : Nat} (v : Nat) (hk : page k = 0x52) (core sl : Nat) : (s.bump k v).ctxOn core sl = s.ctxOn core sl := by
  unfold State.ctxOn
  simp only [bump_desc s v hk, bump_core]

/-! ### Requests that land, and records withdrawn -/

theorem landPuts_core (s : State) (core : Nat) (f : Flight) (n : Nat) : (landPuts s core f).core n = s.core n :=
  congrArg (fun cores => smGet dCore cores n) ((landPuts_moves s core f (.refl _ s) (Sub.refl _)).same .cores rfl)
theorem withdraw_core (s : State) (core i n : Nat) : (withdraw s core i).core n = s.core n :=
  congrArg (fun cores => smGet dCore cores n) ((withdraw_moves s core i (.refl _ s) (Sub.refl _)).same .cores rfl)
theorem landIssued_core (s : State) (core i : Nat) :
    (landIssued s core i).core core = (s.core core).modCtx i fun c => { c with flight := [], walk := none } := by
  have hlanded : (forAll ((s.core core).ctx i).flight (fun f s => landPuts s core f) s).core core = s.core core :=
    forAll_induction (P := fun t => t.core core = s.core core) _ _ rfl fun f t ht => (landPuts_core t core f core).trans ht
  rw [landIssued, modCtx_core, hlanded]

/-! ### What rewinding and ending streams leaves -/

/-- What operations on the streams of a core leave: the core but for its contexts and Sluices, and the counters of its streams but the one of
rewinds. -/
structure StreamsMoved (core : Nat) (s t : State) : Prop where
  beside : (t.core core).beside = (s.core core).beside
  regs : ∀ k, page k = 0x52 → k ≠ Obj.strmRewinds core → t.reg k = s.reg k

namespace StreamsMoved
variable {core : Nat} {s t u : State}

theorem refl (core : Nat) (s : State) : StreamsMoved core s s := ⟨rfl, fun _ _ _ => rfl⟩
theorem trans (h : StreamsMoved core s t) (h2 : StreamsMoved core t u) : StreamsMoved core s u :=
  ⟨h2.beside.trans h.beside, fun k hk hr => (h2.regs k hk hr).trans (h.regs k hk hr)⟩
theorem todo (h : StreamsMoved core s t) : (t.core core).todo = (s.core core).todo := (congrArg Core.todo h.beside :)
theorem noPreempt (h : StreamsMoved core s t) : (t.core core).noPreempt = (s.core core).noPreempt := (congrArg Core.noPreempt h.beside :)

theorem modCtx (h : StreamsMoved core s t) (i : Nat) (f : Ctx → Ctx) : StreamsMoved core s (modCtx t core i f) :=
  h.trans ⟨by rw [modCtx_core, modCtx_beside], fun _ _ _ => rfl⟩
theorem modSlu (h : StreamsMoved core s t) (sl : Nat) (f : Sluice → Sluice) : StreamsMoved core s (modSlu t core sl f) :=
  h.trans ⟨by rw [modSlu_core, modSluice_beside], fun _ _ _ => rfl⟩
theorem bumpRewinds (h : StreamsMoved core s t) (n : Nat) : StreamsMoved core s (t.bump (Obj.strmRewinds core) n) :=
  h.trans ⟨rfl, fun _ _ hr => (bump_reg ..).trans (if_neg hr)⟩
theorem withdraw (h : StreamsMoved core s t) (i : Nat) : StreamsMoved core s (withdraw t core i) :=
  h.trans ⟨by rw [withdraw_core], fun k hk _ =>
    (withdraw_moves t core i (.refl _ t) (Sub.refl _)).reg k (by rw [hk]; decide)⟩
theorem landIssued (h : StreamsMoved core s t) (i : Nat) : StreamsMoved core s (landIssued t core i) :=
  h.trans ⟨by rw [landIssued_core, modCtx_beside], fun k hk _ =>
    (landIssued_moves t core i (.refl _ t) (Sub.refl _)).reg k (by rw [hk]; decide)⟩
theorem rewindOne (h : StreamsMoved core s t) (i : Nat) : StreamsMoved core s (rewindOne t core i) :=
  (((h.landIssued i).modCtx ..).modSlu ..).bumpRewinds 1
theorem rewind (h : StreamsMoved core s t) (i : Nat) : StreamsMoved core s (rewind t core i) := by
  unfold Machine.rewind
  dsimp only
  split
  · split
    · exact (h.rewindOne i).rewindOne _
    · exact h.rewindOne i
  · exact h.rewindOne i
theorem disarmOne (h : StreamsMoved core s t) (i : Nat) : StreamsMoved core s (disarmOne t core i) :=
  (((h.withdraw i).landIssued i).modCtx ..).modSlu ..
theorem disarm (h : StreamsMoved core s t) (i : Nat) : StreamsMoved core s (disarm t core i) := by
  unfold Machine.disarm
  dsimp only
  split
  · split
    · exact h.disarmOne i
    · exact (h.disarmOne i).disarmOne _
  · exact h.disarmOne i
theorem emptySlu (h : StreamsMoved core s t) (sl : Nat) : StreamsMoved core s (emptySlu t core sl) := h.modSlu ..

end StreamsMoved

/-! ### A context ended, a Sluice emptied -/

theorem disarmOne_ctx (s : State) (core i j : Nat) :
    ((disarmOne s core i).core core).ctx j = if j = i then {} else (s.core core).ctx j := by
  unfold disarmOne
  rw [modSlu_core, modSluice_ctx, modCtx_core, modCtx_ctx, landIssued_core, withdraw_core, modCtx_ctx]
  split <;> rfl
theorem disarm_ctx_self (s : State) (core i : Nat) : ((disarm s core i).core core).ctx i = {} := by
  have hone : ((disarmOne s core i).core core).ctx i = {} := (disarmOne_ctx ..).trans (if_pos rfl)
  unfold disarm
  dsimp only
  split
  · split
    · exact hone
    · exact (disarmOne_ctx ..).trans ((ite_eq_left_iff).2 fun _ => hone)
  · exact hone

theorem emptySlu_core (s : State) (core sl : Nat) : (emptySlu s core sl).core core = (s.core core).modSluice sl fun q =>
    { q with packets := [], taken := 0, prog := [], rsv := 0, flush := false, nbytes := [], src := none } := modSlu_core ..
theorem emptySlu_ctx (s : State) (core sl i : Nat) : ((emptySlu s core sl).core core).ctx i = (s.core core).ctx i := by
  rw [emptySlu_core, modSluice_ctx]

theorem emptySlu_reg (s : State) (core sl k : Nat) : (emptySlu s core sl).reg k = s.reg k := rfl

end Sys2Proof.Machine
end

section
/-! Armings (R268–R273): an entry of class 0x07 that starts is taken from its core's list with what its action leaves, or holds. -/

namespace Sys2Proof.Machine

/-! ### The entry -/

/-- The arming that an entry's parameter block brings (R270). -/
def entryArming (s : State) (core : Nat) (c : Cur) : Arming :=
  { base0 := fld c.blk 8 8, base1 := fld c.blk 0x10 8, sbase0 := fld c.blk 0x18 8, sbase1 := fld c.blk 0x20 8,
    frame := armFrame s core c.re.plan.mb }
/-- The entry taken from its core's list. -/
def armTaken (core : Nat) (c : Cur) (s : State) : State :=
  s.modCore core fun x => putRunning { x with todo := x.todo.drop 1 } { c.re with formed := true }

section
variable (s : State) (core : Nat) (c : Cur)

theorem armTaken_core : (armTaken core c s).core core =
    putRunning { s.core core with todo := (s.core core).todo.drop 1 } { c.re with formed := true } := (modCore_core ..).trans (if_pos rfl)
@[simp] theorem armTaken_ctx (i : Nat) : ((armTaken core c s).core core).ctx i = (s.core core).ctx i := by rw [armTaken_core]; rfl
@[simp] theorem armTaken_sluice (sl : Nat) : ((armTaken core c s).core core).sluice sl = (s.core core).sluice sl := by
  rw [armTaken_core]; rfl
@[simp] theorem armTaken_reg (k : Nat) : (armTaken core c s).reg k = s.reg k := rfl
variable {s core} in
theorem StreamsMoved.armTaken_todo {t : State} (h : StreamsMoved core s t) :
    ((armTaken core c t).core core).todo = (s.core core).todo.drop 1 := by rw [armTaken_core, ← h.todo]; rfl

end

theorem firstDiffer_append (s : State) (p q : List (TableRec × Nat × Nat)) :
    firstDiffer s (p ++ q) = (firstDiffer s p).or (firstDiffer s q) := by
  unfold firstDiffer
  rw [List.find?_append, Option.map_or]

/-- An entry that starts, of the command's action, whose descriptors stand as measured: what the action makes of the state decides. -/
theorem armCommand_starts {s : State} {core action : Nat} {c : Cur} (effect : State → Nat → Nat → Arming → Option State)
    (hstart : s.starts core 7 c) (haction : fld c.blk 1 1 = action) (hbad : anyBad (armReads s core (fld c.blk 0 1)) = false)
    (hdiffer : firstDiffer s (armReads s core (fld c.blk 0 1)) = none) :
    armCommand action core effect s = .next (((effect s core (fld c.blk 0 1) (entryArming s core c)).map (armTaken core c)).getD s) := by
  obtain ⟨hcurrent, -, himg, hhalted, hown, hnow⟩ := hstart
  unfold armCommand
  rw [hcurrent]
  dsimp only
  rw [if_neg (not_not_intro haction), himg, hhalted, hbad, if_neg (by decide), firstDiffer_append, hown, hdiffer]
  dsimp only [Option.or]
  rw [hnow, if_neg (by decide)]
  unfold entryArming
  split <;> next h => rw [h]; rfl

/-! ### ACTION 1 -/

section
variable {s : State} {core i : Nat} (a : Arming)

theorem armNow_alone (hlink : s.linkOf core i = none) : armNow s core i a = modCtx s core i fun _ => { st := .running, arm := a } := by
  unfold armNow
  dsimp only
  rw [modCtx_linkOf, hlink]
theorem armNow_linked {j : Nat} (hlink : s.linkOf core i = some j) : armNow s core i a =
    modCtx (modCtx s core i fun _ => { st := .running, arm := a }) core j fun _ => { st := .running, arm := a.scale } := by
  unfold armNow
  dsimp only
  rw [modCtx_linkOf, hlink]

theorem armEffect_alone (hfree : ctxFree s core i = true) (hlink : s.linkOf core i = none) :
    armEffect s core i a = some (modCtx s core i fun _ => { st := .running, arm := a }) := by
  rw [armEffect, hfree, hlink, armNow_alone a hlink]; rfl
theorem armEffect_linked {j : Nat} (hfree : ctxFree s core i = true) (hlink : s.linkOf core i = some j) (hfree' : ctxFree s core j = true) :
    armEffect s core i a = some (modCtx (modCtx s core i fun _ => { st := .running, arm := a }) core j fun _ =>
      { st := .running, arm := a.scale }) := by
  rw [armEffect, hfree, hlink, armNow_linked a hlink]
  simp [hfree']
theorem armEffect_holds (h : ctxFree s core i = false ∨ (s.linkOf core i).any (fun j => !ctxFree s core j) = true) :
    armEffect s core i a = none := by
  unfold armEffect
  rw [if_neg]
  cases hlink : s.linkOf core i with
  | none => simpa [hlink] using h
  | some j =>
    rw [hlink] at h
    rcases h with h | h <;> simp_all

/-! ### ACTION 2 -/

theorem rearmEffect_atRest (harmed : ((s.core core).ctx i).armed = false) : rearmEffect s core i a = armEffect s core i a := by
  rw [rearmEffect, harmed]; rfl
/-- A shadow that another replaces is counted and reported (R272). -/
def overwriteNoted (s : State) (core i : Nat) : State :=
  if ((s.core core).ctx i).shadow.isSome then raise (s.bump (Obj.strmOverwrites core) 1) 0x5A01 .note (uCore core) (posOf i 0) else s

theorem overwriteNoted_core (n : Nat) : (overwriteNoted s core i).core n = s.core n := by
  unfold overwriteNoted
  split
  · rw [raise_core, bump_core]
  · rfl
theorem overwriteNoted_desc (n j : Nat) : (overwriteNoted s core i).desc n j = s.desc n j := by
  unfold overwriteNoted
  split
  · rw [((Noted.refl _).raise ..).desc, bump_desc _ _ (page_strmOverwrites core)]
  · rfl
theorem overwriteNoted_reg : (overwriteNoted s core i).reg (Obj.strmOverwrites core) =
    if ((s.core core).ctx i).shadow = none then s.reg (Obj.strmOverwrites core)
    else min (s.reg (Obj.strmOverwrites core) + 1) (2 ^ 32 - 1) := by
  unfold overwriteNoted
  cases ((s.core core).ctx i).shadow with
  | none => rfl
  | some _ =>
    rw [if_pos Option.isSome_some, if_neg (Option.some_ne_none _), raise_reg _ _ _ _ _ _ (by rw [page_strmOverwrites]; decide),
      bump_u32 s (size_strmOverwrites core)]

/-- A re-arm of a stream that is armed and has no scale stream. -/
theorem rearmEffect_alone (harmed : ((s.core core).ctx i).armed = true) (hlink : s.linkOf core i = none) :
    rearmEffect s core i a = some (rearmOne (if ((s.core core).ctx i).st = .done then s else overwriteNoted s core i) core i a) := by
  have hnoted : (if (((s.core core).ctx i).st != .done && ((s.core core).ctx i).shadow.isSome) = true then
      raise (s.bump (Obj.strmOverwrites core) 1) 0x5A01 .note (uCore core) (posOf i 0) else s) =
      if ((s.core core).ctx i).st = .done then s else overwriteNoted s core i := by
    unfold overwriteNoted
    by_cases hdone : ((s.core core).ctx i).st = .done <;> simp [hdone]
  have hlink' : (rearmOne (if ((s.core core).ctx i).st = .done then s else overwriteNoted s core i) core i a).linkOf core i =
      none := by
    rw [← hlink]
    unfold rearmOne State.linkOf
    split <;> split <;> simp only [modCtx_desc, overwriteNoted_desc]
  unfold rearmEffect
  dsimp only
  rw [harmed, hnoted, hlink']
  rfl
theorem rearmEffect_done (harmed : ((s.core core).ctx i).armed = true) (hlink : s.linkOf core i = none)
    (hdone : ((s.core core).ctx i).st = .done) :
    rearmEffect s core i a = some (modCtx s core i fun _ => { st := .running, arm := a }) := by
  rw [rearmEffect_alone a harmed hlink, if_pos hdone, rearmOne, hdone]
  rfl
theorem rearmEffect_shadows (harmed : ((s.core core).ctx i).armed = true) (hlink : s.linkOf core i = none)
    (hgoing : ((s.core core).ctx i).st ≠ .done) :
    rearmEffect s core i a = some (modCtx (overwriteNoted s core i) core i fun c => { c with shadow := some a }) := by
  rw [rearmEffect_alone a harmed hlink, if_neg hgoing, rearmOne, overwriteNoted_core, harmed, beq_eq_false_iff_ne.2 hgoing]
  rfl

end

/-! ### FLUSH asked for, and ACTION 3 -/

/-- FLUSH of a Sluice whose stream is not halted waits for the packet boundary (R278). -/
theorem flushAsk_waits {s : State} {core sl : Nat} (h : ∀ i d, s.ctxOn core sl = some (i, d) →
    ((s.core core).ctx i).st ≠ .haltFault ∧ ((s.core core).ctx i).st ≠ .haltError) :
    flushAsk s core sl = modSlu s core sl fun q => { q with flush := true } := by
  unfold flushAsk
  split
  · next i d hctx => rw [if_neg]; simpa using h i d hctx
  · rfl

section
variable {s : State} {core i : Nat} (a : Arming)

theorem disarmEffect_flushes (hclass : rolloutClass s core (s.sluOf core i) = false) :
    disarmEffect s core i a = some (flushAsk s core (s.sluOf core i)) := by
  rw [disarmEffect, hclass]; rfl
theorem disarmEffect_atRest (hclass : rolloutClass s core (s.sluOf core i) = true) (harmed : ((s.core core).ctx i).armed = false) :
    disarmEffect s core i a = some s := by
  rw [disarmEffect, hclass, harmed]; rfl
theorem disarmEffect_ends (hclass : rolloutClass s core (s.sluOf core i) = true) (harmed : ((s.core core).ctx i).armed = true)
    (hboundary : atBoundary s core (s.sluOf core i) = true) (hempty : ((s.core core).sluice (s.sluOf core i)).packets = []) :
    disarmEffect s core i a = some (disarm s core i) := by
  rw [disarmEffect, hclass, harmed, hboundary, hempty]; rfl

end

/-- Settles O40: an entry that starts is taken with what its action makes of the state, and stays where the action must wait. -/
theorem armingCommandsComplete : Obligations.ArmingCommandsComplete := by
  intro s core c hstart i hbad hdiffer a x sl taken
  have hrefl := StreamsMoved.refl core.val s
  have hrun : ∀ {action : Nat} (effect) {t : State}, fld c.blk 1 1 = action → effect s core i a = some t →
      armCommand action core effect s = .next (armTaken core c t) := fun effect t haction heffect => by
    rw [armCommand_starts effect hstart haction hbad hdiffer]
    exact congrArg (fun o => Host.Outcome.next (Option.getD (Option.map (armTaken core c) o) s)) heffect
  have hflush : fld c.blk 1 1 = 3 → rolloutClass s core sl = false → (∀ k d, s.ctxOn core sl = some (k, d) →
      ((s.core core).ctx k).st ≠ .haltFault ∧ ((s.core core).ctx k).st ≠ .haltError) →
      Leads (.streamDisarm core) s fun t => taken t ∧ ((t.core core).sluice sl).flush = true ∧ (t.core core).ctx i = x :=
    fun haction hclass hgoing => by
      refine ⟨_, hrun disarmEffect haction (disarmEffect_flushes a hclass), ?_⟩
      rw [flushAsk_waits hgoing]
      exact ⟨(hrefl.modSlu ..).armTaken_todo c, by
        rw [armTaken_sluice, modSlu_sluice_self], by rw [armTaken_ctx, modSlu_core, modSluice_ctx]⟩
  refine ⟨fun haction => ⟨fun hfree hlink => ?_, fun j hfree hlink hfree' hne => ?_, fun hheld => ?_⟩,
    fun haction hlink => ⟨fun hrest hfree => ?_, fun harmed hdone => ?_, fun harmed hgoing => ?_⟩,
    fun haction => ⟨fun hrest hclass => ?_, fun hnone => ?_, fun harmed hclass hboundary hempty => ?_,
      fun harmed hclass hctx hfault herror => ?_⟩⟩
  · refine ⟨_, hrun armEffect haction (armEffect_alone a hfree hlink), (hrefl.modCtx ..).armTaken_todo c, ?_, fun j hne => ?_⟩
    · rw [armTaken_ctx, modCtx_ctx_self]
    · rw [armTaken_ctx, modCtx_core, modCtx_ctx, if_neg hne]
  · refine ⟨_, hrun armEffect haction (armEffect_linked a hfree hlink hfree'), ((hrefl.modCtx ..).modCtx ..).armTaken_todo c, ?_, ?_⟩
    · rw [armTaken_ctx, modCtx_core, modCtx_ctx, if_neg hne.symm, modCtx_ctx_self]
    · rw [armTaken_ctx, modCtx_ctx_self]
  · refine ⟨s, ?_, rfl⟩
    show armCommand 1 core armEffect s = _
    rw [armCommand_starts armEffect hstart haction hbad hdiffer, armEffect_holds _ hheld]
    rfl
  · refine ⟨_, hrun rearmEffect haction ((rearmEffect_atRest a hrest).trans (armEffect_alone a hfree hlink)),
      (hrefl.modCtx ..).armTaken_todo c, ?_⟩
    rw [armTaken_ctx, modCtx_ctx_self]
  · refine ⟨_, hrun rearmEffect haction (rearmEffect_done a harmed hlink hdone), (hrefl.modCtx ..).armTaken_todo c, ?_⟩
    rw [armTaken_ctx, modCtx_ctx_self]
  · refine ⟨_, hrun rearmEffect haction (rearmEffect_shadows a harmed hlink hgoing), ?_, ?_, ?_⟩
    · show ((armTaken core c _).core core).todo = _
      rw [armTaken_core, modCtx_core, overwriteNoted_core]
      rfl
    · rw [armTaken_ctx, modCtx_ctx_self, overwriteNoted_core]
    · exact overwriteNoted_reg
  · exact ⟨_, hrun disarmEffect haction (disarmEffect_atRest a hclass hrest), hrefl.armTaken_todo c, armTaken_ctx ..⟩
  · refine hflush haction ?_ fun k d hk => ?_
    · rw [rolloutClass, hnone]; rfl
    · rw [hnone] at hk; cases hk
  · refine ⟨_, hrun disarmEffect haction (disarmEffect_ends a hclass harmed hboundary hempty), (hrefl.disarm _).armTaken_todo c, ?_⟩
    rw [armTaken_ctx, disarm_ctx_self]
  · refine hflush haction hclass fun k d hk => ?_
    rw [hk] at hctx
    obtain rfl : k = i := Option.some.inj hctx
    exact ⟨hfault, herror⟩

end Sys2Proof.Machine
end

section
/-! A store's request whose descriptor has been overwritten (R40, R276). The descriptor of a context is read in memory each time it is needed,
also by the rewind of a packet, and a rewind first lands what the context has issued. -/

namespace Sys2Proof.Machine

/-- Core 0 with one stream. Its request in flight was issued by a store and writes byte 0x49 of the stream's descriptor, the Sluice; the
descriptor has since been overwritten with that of a load of Sluice 3, where a word of a packet in progress stands. -/
def storeOverItsDescriptor : State :=
  let s := State.reset.setReg Obj.memTblBase 0x40000000
  let descriptor := 0x40000080
  let request : Flight := { puts := [(8 * (descriptor + 0x49), 8, 5)] }
  let stream : Ctx := { st := .running, started := true, flight := [request] }
  { s with
    tables := [{ handle := 0x5C00000000000001, active := true }]
    mem := [(0x40000006, 2, 1), (descriptor + 0x49, 1, 3), (descriptor + 0x4E, 1, 0xFF)].foldl
      (fun m f => memWrite m f.1 f.2.1 f.2.2) s.mem
    cores := [(0, { ctxs := [(0, stream)], sluices := [(3, { prog := [{}] })] })] }

/-- The words of the packet in progress on a Sluice in the state a command answers. -/
def progressAfter (o : Host.Outcome State Fault Refusal) (core sl : Nat) : List SWord :=
  match o with
  | .next t => ((t.core core).sluice sl).prog
  | _ => []

theorem progressAfter_next (t : State) (core sl : Nat) : progressAfter (.next t) core sl = ((t.core core).sluice sl).prog := rfl

/-- The stream is a load of Sluice 3. -/
theorem storeOverItsDescriptor_desc : ∃ d, storeOverItsDescriptor.desc 0 0 = some d ∧ d.store = false ∧ d.sluice = 3 := by
  have h : ((storeOverItsDescriptor.desc 0 0).map fun d => (d.store, d.sluice)) = some (false, 3) := by decide +kernel
  obtain ⟨d, hd, hread⟩ := Option.map_eq_some_iff.1 h
  exact ⟨d, hd, congrArg Prod.fst hread, congrArg Prod.snd hread⟩
/-- The rewind lands the request, whose write moves the stream to Sluice 5, and empties that Sluice: the word in Sluice 3 stays. -/
theorem storeOverItsDescriptor_word_stays :
    progressAfter (exec (.memoryReadComplete 0 0 .ue) storeOverItsDescriptor) 0 3 = [{}] := by decide +kernel

/-- Refutes O41: its clause of an uncorrectable word that is read again says that the packet in progress of the stream's Sluice is gone, and
a request that writes the stream's own descriptor as it lands leaves that packet. -/
theorem not_streamRequestsComplete : ¬ Obligations.StreamRequestsComplete := by
  unfold Obligations.StreamRequestsComplete
  intro h
  obtain ⟨d, hdesc, hload, hsluice⟩ := storeOverItsDescriptor_desc
  obtain ⟨_, _, _, _, _, huncorrectable, _⟩ := h storeOverItsDescriptor 0 0 d hdesc
  obtain ⟨hagain, _⟩ := huncorrectable _ [] .ue _ hload rfl (by decide +kernel)
    (Prod.ext (by decide +kernel : (flightStat storeOverItsDescriptor 0 .ue { puts := [(8 * 0x400000C9, 8, 5)] }).1 = true) rfl)
  obtain ⟨t, hexec, _, _, hprog, _⟩ := hagain rfl
  have hgone : ((t.core 0).sluice d.sluice).prog = [] := hprog
  have hstays := storeOverItsDescriptor_word_stays
  rw [hexec, progressAfter_next, ← hsluice, hgone] at hstays
  exact absurd hstays (by decide)

end Sys2Proof.Machine
end

section
/-! Memory written by a store's request (R272, R293): bytes written by a unit of a die read back, and a request of whole bytes. -/

namespace Sys2Proof.Machine

/-! ### Bytes written by a unit of a die -/

theorem memByte_dieWrite (m : MemState) (die a : Nat) (b : Byte) (x : Nat) :
    memByte (dieWrite m die a b) x = if x = a then b else memByte m x := memByte_set m a x b

theorem memByte_dieWriteBytes (die a n v : Nat) (m : MemState) (x : Nat) :
    memByte (dieWriteBytes die a n v m) x = if a ≤ x ∧ x < a + n then BitVec.ofNat 8 (v / 256 ^ (x - a)) else memByte m x := by
  induction n generalizing a v m with
  | zero => exact (if_neg (by omega)).symm
  | succ n ih =>
    rw [dieWriteBytes, ih, memByte_dieWrite]
    by_cases hx : x = a
    · rw [if_neg (by omega), if_pos hx, if_pos (by omega), hx, Nat.sub_self, Nat.pow_zero, Nat.div_one]
    · rw [if_neg hx]
      by_cases hin : a + 1 ≤ x ∧ x < a + 1 + n
      · rw [if_pos hin, if_pos (by omega), show x - a = x - (a + 1) + 1 by omega, Nat.pow_succ', Nat.div_div_eq_div_mul]
      · rw [if_neg hin, if_neg (by omega)]

theorem memRead_congr {m m' : MemState} (h : ∀ x, memByte m x = memByte m' x) (a n : Nat) : memRead m a n = memRead m' a n := by
  induction n generalizing a with
  | zero => rfl
  | succ n ih => rw [memRead, memRead, h, ih]

theorem memRead_dieWriteBytes (die a n v : Nat) (m : MemState) : memRead (dieWriteBytes die a n v m) a n = v % 256 ^ n := by
  induction n generalizing a v m with
  | zero => exact (Nat.mod_one v).symm
  | succ n ih =>
    have hfirst : memByte (dieWriteBytes die a (n + 1) v m) a = BitVec.ofNat 8 v := by
      rw [memByte_dieWriteBytes, if_pos (by omega), Nat.sub_self, Nat.pow_zero, Nat.div_one]
    rw [memRead, hfirst, BitVec.toNat_ofNat, dieWriteBytes, ih, Nat.pow_succ' (m := 256), Nat.mod_mul]

/-! ### A request of whole bytes -/

theorem patchBits_wholeBytes (m : MemState) (a n v : Nat) : patchBits m (8 * a) (8 * n) v % 256 ^ n = v % 256 ^ n := by
  have hpow : 2 ^ (8 * n) = 256 ^ n := Nat.pow_mul 2 8 n
  have haligned : 8 * a % 8 = 0 := Nat.mul_mod_right 8 a
  have hkept (old : Nat) : old - old % 256 ^ n = 256 ^ n * (old / 256 ^ n) := by
    have := Nat.div_add_mod old (256 ^ n)
    omega
  unfold patchBits
  simp only [bitsOf, haligned, Nat.shiftRight_zero, Nat.pow_zero, Nat.mul_one, hpow]
  rw [hkept, Nat.mul_add_mod, Nat.mod_mod]

theorem dieSetBits_wholeBytes (die : Nat) (m : MemState) (a n v : Nat) :
    dieSetBits die m (8 * a) (8 * n) v = dieWriteBytes die a n (patchBits m (8 * a) (8 * n) v) m := by
  rw [dieSetBits, show 8 * a / 8 = a by omega, show (8 * a % 8 + 8 * n + 7) / 8 = n by omega]

/-- The bytes of memory after a request with one write of whole bytes lands. -/
theorem memByte_landPuts_wholeBytes (s : State) (core : Nat) {f : Flight} {a n v : Nat} (hitem : f.item = none)
    (hputs : f.puts = [(8 * a, 8 * n, v)]) (x : Nat) : memByte (landPuts s core f).mem x =
      memByte (dieWriteBytes (dieOf core) a n (patchBits s.mem (8 * a) (8 * n) v) s.mem) x := by
  rw [← dieSetBits_wholeBytes]
  unfold landPuts
  rw [hitem, hputs]
  rfl

/-! ### The end of a packet -/

/-- A packet that ends no arming writes no memory. -/
theorem memByte_packetDone (s : State) (core i : Nat) (d : Desc) (h : ((s.core core).ctx i).ending = false) (x : Nat) :
    memByte (packetDone s core i d).mem x = memByte s.mem x := by
  have hmoves : Moves (maskOf [.cores, .clusters, .ledger]) s (packetDone s core i d) := by
    unfold packetDone
    simp only [h, Bool.false_and, Bool.false_eq_true, if_false]
    exact ledgerStream_moves _ _ _ _ (ite_moves (fun _ => armingComplete_moves _ _ _ _ (.refl _ s) (by decide))
      fun _ => .refl _ s) (by decide)
  exact hmoves.frame (c := .cells) (by decide) x

/-- What the acknowledgement of a store's request leaves of memory and of an arming that is being ended, before a packet it completes is
counted. -/
theorem storeWriteAck_next {s : State} {core : Fin 256} {ctx : Fin 48} {d : Desc} {f : Flight} {fs : List Flight}
    (hdesc : s.desc core ctx = some d) (hstore : d.store = true) (hflight : ((s.core core).ctx ctx).flight = f :: fs) :
    ∃ u done, exec (.storeWriteAck core ctx) s = .next (if done = 0 then u else packetDone u core ctx d) ∧
      u.mem = (landPuts s core f).mem ∧ ((u.core core).ctx ctx).ending = ((s.core core).ctx ctx).ending := by
  refine ⟨?_, ?done, ?run, ?mem, ?ending⟩
  case run =>
    show execStoreWriteAck core ctx s = _
    unfold execStoreWriteAck
    rw [hdesc, hflight]
    exact if_neg (show ¬(!d.store) = true by rw [hstore]; decide)
  case mem => rfl
  case ending => rw [modCtx_core, modCtx_ctx, if_pos rfl, modCore_core, if_pos rfl, landPuts_core]; rfl

/-- Settles O42: the request lands byte by byte as a unit of its die writes it, and what follows writes no memory. -/
theorem storeWritesItsBytes : Obligations.StoreWritesItsBytes := by
  intro s core ctx d f fs a n v hdesc hstore hflight hitem hending hputs
  obtain ⟨u, done, hrun, hmem, hkept⟩ := storeWriteAck_next hdesc hstore hflight
  have hlanded : ∀ x, memByte (if done = 0 then u else packetDone u core ctx d).mem x =
      memByte (dieWriteBytes (dieOf core) a n (patchBits s.mem (8 * a) (8 * n) v) s.mem) x := fun x => by
    rw [← memByte_landPuts_wholeBytes s core hitem hputs x, ← hmem]
    split
    · rfl
    · exact memByte_packetDone u core ctx d (hkept.trans hending) x
  refine ⟨_, hrun, ?_, fun x hx => ?_⟩
  · rw [memRead_congr hlanded, memRead_dieWriteBytes, patchBits_wholeBytes]
  · rw [hlanded, memByte_dieWriteBytes, if_neg (by omega)]

end Sys2Proof.Machine
end

section
/-! Sluice commands (R276, R278–R280, R286): by a unit and by software, an accepted FLUSH, narrow writing, and the preemption of a core whose
streams stand still. -/

namespace Sys2Proof.Machine

/-! ### Commands refused and answered -/

theorem refuseCmd_core (s : State) (core ctx n : Nat) : (refuseCmd s core ctx).core n = s.core n := by
  rw [refuseCmd, raise_core, bump_core]
theorem refuseCmd_counts (s : State) (core ctx : Nat) :
    (refuseCmd s core ctx).reg Obj.sluCmdRefused = min (s.reg Obj.sluCmdRefused + 1) (2 ^ 32 - 1) := by
  rw [refuseCmd, raise_reg _ _ _ _ _ _ (by decide), bump_u32 s size_sluCmdRefused]
theorem refuseCmd_reports (s : State) (core ctx : Nat) : Reports s (refuseCmd s core ctx) 0x5A04 .note (uCore core) :=
  (raise_reports (s.bump Obj.sluCmdRefused 1) 0x5A04 .note (uCore core) (posOf ctx 0)).of_same rfl rfl

theorem answered_core (b : Nat) (q : Req) (op obj : Nat) (a : Ans) (n : Nat) : (answered b q op obj a).core n = a.st.core n := rfl

section
variable {s : State} {core sl : Nat} {ok : State → Nat → Nat → Bool} (effect : State → Nat → Nat → State)

theorem unitCommand_ok (hok : ok s core sl = true) : unitCommand s core sl ok effect = effect s core sl := if_pos hok
theorem unitCommand_refused (hok : ok s core sl = false) : unitCommand s core sl ok effect = refuseCmd s core 0x3F :=
  if_neg (by rw [hok]; decide)
theorem sluCommand_ok (hsel : sluSelected s = (core, sl)) (hidle : s.role (clusterOf core) = 0) (hok : ok s core sl = true) :
    sluCommand ok effect s = Ans.ok (effect s core sl) := by
  unfold sluCommand
  rw [hsel]
  exact if_pos (by simp [hidle, hok])
theorem sluCommand_inRole (hsel : sluSelected s = (core, sl)) (hrole : s.role (clusterOf core) ≠ 0) :
    sluCommand ok effect s = Ans.refuse stState (refuseCmd s core 0x3F) := by
  unfold sluCommand
  rw [hsel]
  exact if_neg (by simp [hrole])
end

/-- A command through `SLU.CMD` to a core whose cluster has a role is refused (R278). -/
theorem dictWrite_sluCommand_inRole {s : State} {r : Req} {core sl : Nat} (hr : s.takesWrite r Obj.sluCmd = true)
    (hsel : sluSelected s = (core, sl)) (hrole : s.role (clusterOf core) ≠ 0) (ok : State → Nat → Nat → Bool)
    (effect : State → Nat → Nat → State) : (dictWrite s r Obj.sluCmd (sluCommand ok effect)).core core = s.core core ∧
      Answers (dictWrite s r Obj.sluCmd (sluCommand ok effect)) r 2 Obj.sluCmd stState := by
  rw [dictWrite_takes _ hr, sluCommand_inRole effect hsel hrole]
  exact ⟨refuseCmd_core .., answered_answers ..⟩

/-! ### DROP_REM -/

/-- What DROP_REM makes of a store halted by a translation fault, before its dropped packet is counted for the arming (R287). -/
def headDropped (s : State) (core i sl : Nat) : State :=
  modCtx (modSlu (landIssued (withdraw (s.bump (Obj.strmDrops core) 1) core i) core i) core sl fun q =>
    { q with packets := q.packets.drop 1, taken := 0 }) core i fun c => { c with st := .running, cause := 0, packets := c.packets + 1 }

theorem headDropped_ctx (s : State) (core i sl : Nat) : ((headDropped s core i sl).core core).ctx i = { (s.core core).ctx i with
    st := .running, cause := 0, packets := ((s.core core).ctx i).packets + 1, flight := [], walk := none } := by
  rw [headDropped, modCtx_core, modCtx_ctx, if_pos rfl, modSlu_core, modSluice_ctx, landIssued_core, withdraw_core, bump_core,
    modCtx_ctx, if_pos rfl]
theorem headDropped_sluice (s : State) (core i sl : Nat) : ((headDropped s core i sl).core core).sluice sl =
    { (s.core core).sluice sl with packets := ((s.core core).sluice sl).packets.drop 1, taken := 0 } := by
  rw [headDropped, modCtx_core, modCtx_sluice, modSlu_core, modSluice_sluice, if_pos rfl, landIssued_core, withdraw_core, bump_core,
    modCtx_sluice]
theorem headDropped_counts (s : State) (core i sl : Nat) :
    (headDropped s core i sl).reg (Obj.strmDrops core) = min (s.reg (Obj.strmDrops core) + 1) (2 ^ 32 - 1) := by
  rw [← bump_u32 s (size_strmDrops core)]
  exact (((((StreamsMoved.refl core _).withdraw i).landIssued i).modSlu ..).modCtx ..).regs _ (page_strmDrops core) (strmDrops_ne_rewinds core)

theorem dropRem_of_halted {s : State} {core sl i : Nat} {d : Desc} (hctx : s.ctxOn core sl = some (i, d))
    (hhalt : ((s.core core).ctx i).st = .haltFault) : dropRem s core sl = packetDone (headDropped s core i sl) core i d := by
  unfold dropRem
  dsimp only
  rw [bump_ctxOn _ _ (page_strmDrops core), hctx]
  exact if_pos (by rw [bump_core, hhalt]; rfl)

/-- A packet that is not its arming's last, of an arming that is not being ended, changes its ledger entry only. -/
theorem packetDone_within {s : State} {core i : Nat} {d : Desc} (hmore : ((s.core core).ctx i).packets < d.numPkts)
    (hending : ((s.core core).ctx i).ending = false) : ∃ v, packetDone s core i d = ledgerStream s core i v := by
  unfold packetDone
  dsimp only
  rw [if_neg (Nat.not_le.2 hmore), hending, Bool.false_and, if_neg Bool.false_ne_true]
  exact ⟨_, rfl⟩
theorem ledgerStream_core (s : State) (core i v n : Nat) : (ledgerStream s core i v).core n = s.core n := by
  unfold ledgerStream; split <;> rfl
theorem ledgerStream_reg (s : State) (core i v k : Nat) : (ledgerStream s core i v).reg k = s.reg k := by
  unfold ledgerStream; split <;> rfl

/-- DROP_REM of a unit at a store that a translation fault halts, short of the last packet of an arming that goes on. -/
theorem sluiceDropRem_halted {s : State} {core : Fin 256} {sl : Fin 16} {i : Nat} {d : Desc} (hctx : s.ctxOn core sl = some (i, d))
    (htc : d.tc = 1) (hstore : d.store = true) (hhalt : ((s.core core).ctx i).st = .haltFault)
    (hmore : ((s.core core).ctx i).packets + 1 < d.numPkts) (hending : ((s.core core).ctx i).ending = false) :
    Leads (.sluiceDropRem (.unit core sl)) s fun t =>
      ((t.core core).sluice sl).packets = ((s.core core).sluice sl).packets.drop 1 ∧ ((t.core core).ctx i).st = .running ∧
        ((t.core core).ctx i).packets = ((s.core core).ctx i).packets + 1 ∧
        t.reg (Obj.strmDrops core) = min (s.reg (Obj.strmDrops core) + 1) (2 ^ 32 - 1) := by
  have hok : dropOk s core sl = true := by rw [dropOk, hctx, Option.map_some, htc, hstore]; rfl
  have hdropped := headDropped_ctx s core i sl
  obtain ⟨v, hdone⟩ := packetDone_within (s := headDropped s core i sl) (d := d) (by rw [hdropped]; exact hmore)
    (by rw [hdropped]; exact hending)
  refine ⟨ledgerStream (headDropped s core i sl) core i v, ?_, ?_, ?_, ?_, ?_⟩
  · exact congrArg Host.Outcome.next ((unitCommand_ok dropRem hok).trans ((dropRem_of_halted hctx hhalt).trans hdone))
  · rw [ledgerStream_core, headDropped_sluice]
  · rw [ledgerStream_core, hdropped]
  · rw [ledgerStream_core, hdropped]
  · rw [ledgerStream_reg, headDropped_counts]

/-! ### FLUSH and RESET -/

/-- A Sluice that holds nothing. -/
def Sluice.emptied (q : Sluice) : Sluice :=
  { q with packets := [], taken := 0, prog := [], rsv := 0, flush := false, nbytes := [], src := none }
/-- The Sluice holds nothing in the state. -/
def HoldsNothing (core sl : Nat) (s : State) : Prop := ∃ q, (s.core core).sluice sl = Sluice.emptied q

theorem emptySlu_sluice (s : State) (core k sl : Nat) : ((emptySlu s core k).core core).sluice sl =
    if sl = k then ((s.core core).sluice k).emptied else (s.core core).sluice sl := by
  rw [emptySlu_core, modSluice_sluice]; rfl
theorem emptySlu_holdsNothing (s : State) (core sl : Nat) : HoldsNothing core sl (emptySlu s core sl) :=
  ⟨_, (emptySlu_sluice ..).trans (if_pos rfl)⟩
theorem HoldsNothing.emptySlu {s : State} {core sl : Nat} (h : HoldsNothing core sl s) (k : Nat) :
    HoldsNothing core sl (emptySlu s core k) := by
  obtain ⟨q, hq⟩ := h
  by_cases hk : sl = k
  · exact ⟨_, (emptySlu_sluice ..).trans (if_pos hk)⟩
  · exact ⟨q, (emptySlu_sluice ..).trans ((if_neg hk).trans hq)⟩

/-- A stream made ready for a FLUSH: the packet in progress of one that a translation fault halts is rewound (R287). -/
def flushReady (s : State) (core i : Nat) : State :=
  if ((s.core core).ctx i).st == .haltFault && holdsPacket s core i then rewind s core i else s
/-- The stream disarmed and its Sluice emptied. -/
def flushed (s : State) (core sl i : Nat) : State :=
  emptySlu (disarm (dropOut (flushReady (s.bump (Obj.strmFlushes core) 1) core i) core sl) core i) core sl

theorem flushReady_moved (s : State) (core i : Nat) : StreamsMoved core s (flushReady s core i) := by
  unfold flushReady
  split
  · exact (StreamsMoved.refl core s).rewind i
  · exact .refl core s
theorem dropOut_reg (s : State) (core sl k : Nat) : (dropOut s core sl).reg k = s.reg k := rfl
theorem flushed_ctx (s : State) (core sl i : Nat) : ((flushed s core sl i).core core).ctx i = {} := by
  rw [flushed, emptySlu_ctx, disarm_ctx_self]
theorem flushed_counts (s : State) (core sl i : Nat) :
    (flushed s core sl i).reg (Obj.strmFlushes core) = min (s.reg (Obj.strmFlushes core) + 1) (2 ^ 32 - 1) := by
  have hpage := page_strmFlushes core
  have hne := strmFlushes_ne_rewinds core
  rw [flushed, (((StreamsMoved.refl core _).disarm i).emptySlu sl).regs _ hpage hne, dropOut_reg,
    (flushReady_moved _ core i).regs _ hpage hne, bump_u32 s (size_strmFlushes core)]

theorem flushNow_unarmed {s : State} {core sl : Nat} (hctx : s.ctxOn core sl = none) :
    flushNow s core sl = emptySlu (s.bump (Obj.strmFlushes core) 1) core sl := by
  unfold flushNow
  dsimp only
  rw [bump_ctxOn _ _ (page_strmFlushes core), hctx]
theorem flushNow_armed {s : State} {core sl i : Nat} {d : Desc} (hctx : s.ctxOn core sl = some (i, d)) :
    flushNow s core sl = if d.scaleLink = 0xFF then flushed s core sl i
      else emptySlu (flushed s core sl i) core ((flushed s core sl i).sluOf core d.scaleLink) := by
  unfold flushNow
  dsimp only
  rw [bump_ctxOn _ _ (page_strmFlushes core), hctx]
  rfl

/-- What a FLUSH that takes effect leaves of the Sluice, of its stream and of the count (R278). -/
theorem flushNow_leaves (s : State) (core sl : Nat) : HoldsNothing core sl (flushNow s core sl) ∧
    (∀ i d, s.ctxOn core sl = some (i, d) → ((flushNow s core sl).core core).ctx i = {}) ∧
    (flushNow s core sl).reg (Obj.strmFlushes core) = min (s.reg (Obj.strmFlushes core) + 1) (2 ^ 32 - 1) := by
  cases hctx : s.ctxOn core sl with
  | none =>
    rw [flushNow_unarmed hctx]
    exact ⟨emptySlu_holdsNothing .., nofun, bump_u32 s (size_strmFlushes core)⟩
  | some p =>
    obtain ⟨i, d⟩ := p
    have hempty : HoldsNothing core sl (flushed s core sl i) := emptySlu_holdsNothing ..
    rw [flushNow_armed hctx]
    split
    · refine ⟨hempty, fun j e h => ?_, flushed_counts ..⟩
      cases h
      exact flushed_ctx ..
    · refine ⟨hempty.emptySlu _, fun j e h => ?_, (emptySlu_reg ..).trans (flushed_counts s core sl i)⟩
      cases h
      rw [emptySlu_ctx, flushed_ctx]

theorem resetSlu_leaves (s : State) (core sl : Nat) : HoldsNothing core sl (resetSlu s core sl) ∧
    ∀ i d, s.ctxOn core sl = some (i, d) → ((resetSlu s core sl).core core).ctx i = {} := by
  unfold resetSlu
  cases s.ctxOn core sl with
  | none => exact ⟨emptySlu_holdsNothing .., nofun⟩
  | some p =>
    refine ⟨emptySlu_holdsNothing .., fun i d h => ?_⟩
    cases h
    rw [emptySlu_ctx, disarm_ctx_self]

/-! ### Narrow writing -/

theorem sluNarrowDataWrite_takes {s : State} {core sl : Nat} (v : Nat) (hsel : sluSelected s = (core, sl))
    (hnarrow : ((s.core core).sluice sl).narrow = true) (hshort : ((s.core core).sluice sl).nbytes.length < 16384)
    (hroom : ((s.core core).sluice sl).nbytes.length % 64 ≠ 0 ∨
      ceilDiv ((s.core core).sluice sl).nbytes.length 64 < ((s.core core).sluice sl).room) :
    sluNarrowDataWrite v s = Ans.ok (modSlu s core sl fun z => { z with nbytes := z.nbytes ++ leBytes 4 v }) := by
  unfold sluNarrowDataWrite
  rw [hsel]
  refine if_neg ?_
  simp only [hnarrow, Bool.not_true, Bool.false_or, Bool.or_eq_true, Bool.and_eq_true, decide_eq_true_eq]
  omega
theorem sluNarrowDataWrite_notNarrow {s : State} {core sl : Nat} (v : Nat) (hsel : sluSelected s = (core, sl))
    (hnarrow : ((s.core core).sluice sl).narrow = false) : sluNarrowDataWrite v s = refuseNarrow s core := by
  unfold sluNarrowDataWrite
  rw [hsel]
  exact if_pos (by rw [hnarrow]; rfl)

/-- A narrow packet commits whole: no word of it stands for a dropped one. -/
theorem commit_narrowPacket (q : Sluice) (bs : List Byte) :
    q.commit (narrowPacket bs) = { q with packets := q.packets ++ [narrowPacket bs] } := by
  have hwhole : (narrowPacket bs).filter (fun w => !w.void) = narrowPacket bs := by
    refine List.filter_eq_self.2 fun w hw => ?_
    obtain ⟨p, -, rfl⟩ := List.mem_map.1 hw
    split <;> rfl
  rw [Sluice.commit, hwhole]
theorem sluNarrowCloseWrite_takes {s : State} {core sl v : Nat} (hsel : sluSelected s = (core, sl)) (hlow : 1 ≤ v) (hhigh : v ≤ 4)
    (hnarrow : ((s.core core).sluice sl).narrow = true) (hbytes : ((s.core core).sluice sl).nbytes ≠ []) :
    sluNarrowCloseWrite v s = Ans.ok (modSlu s core sl fun z =>
      { z with packets := z.packets ++ [narrowPacket (z.nbytes.take (z.nbytes.length - 4 + v))], nbytes := [] }) := by
  unfold sluNarrowCloseWrite
  rw [hsel]
  dsimp only
  rw [if_neg (by omega), if_neg (by simp [hnarrow, hbytes])]
  simp only [commit_narrowPacket]

/-! ### The deadlock watchdog -/

theorem preempt_moved (s : State) (core : Nat) : StreamsMoved core s (preempt s core).1 := by
  unfold preempt
  split
  · exact .refl core s
  · dsimp only
    split
    · exact ((StreamsMoved.refl core s).rewind _).modCtx ..
    · exact (StreamsMoved.refl core s).bumpRewinds 1
theorem preempt_waits {s : State} {core : Nat} {h : Nat × Nat × Bool} {hs : List (Nat × Nat × Bool)} (hheld : holders s core = h :: hs)
    (hload : (hs.foldl worst h).2.2 = true) : (((preempt s core).1.core core).ctx (hs.foldl worst h).1).st = .waitSpace := by
  unfold preempt
  rw [hheld]
  dsimp only
  rw [if_pos hload, modCtx_ctx_self]

/-- The preemption counted and reported, and the core's still beats begun again. -/
def preempted (s : State) (core : Nat) : State :=
  (raise ((preempt s core).1.bump (Obj.strmDeadlocks core) 1) 0x5A02 .note (uCore core) (posOf (preempt s core).2 0)).modCore core
    fun c => { c with stalled := 0, preempts := (s.core core).preempts + 1 }

theorem preempted_core (s : State) (core : Nat) : (preempted s core).core core =
    { (preempt s core).1.core core with stalled := 0, preempts := (s.core core).preempts + 1 } := by
  rw [preempted, modCore_core, if_pos rfl, raise_core, bump_core]
theorem preempted_counts (s : State) (core : Nat) :
    (preempted s core).reg (Obj.strmDeadlocks core) = min (s.reg (Obj.strmDeadlocks core) + 1) (2 ^ 32 - 1) := by
  rw [preempted, modCore_reg, raise_reg _ _ _ _ _ _ (by rw [page_strmDeadlocks]; decide), bump_u32 _ (size_strmDeadlocks core),
    (preempt_moved s core).regs _ (page_strmDeadlocks core) (strmDeadlocks_ne_rewinds core)]

theorem execDeadlockPreempt_still {s : State} {core : Fin 256} (hstill : 256 ≤ (s.core core).stalled)
    (hwatch : (s.core core).noPreempt = false) : execDeadlockPreempt core s =
      if (s.core core).preempts + 1 < 4 then .next (preempted s core)
      else .next (raise ((preempted s core).modCore core fun c => { c with noPreempt := true }) 0x5A03 .stepAbort (uCore core)) :=
  if_neg (by rw [hwatch]; simpa using hstill)

/-- A core that has stood still for 256 beats: its beats start again, the preemption is counted, and after the fourth the watchdog rests. -/
theorem deadlockPreempt_leads {s : State} {core : Fin 256} (hstill : 256 ≤ (s.core core).stalled) (hwatch : (s.core core).noPreempt = false) :
    Leads (.deadlockPreempt core) s fun t => t.core core = { (preempt s core).1.core core with
      stalled := 0, preempts := (s.core core).preempts + 1, noPreempt := decide (4 ≤ (s.core core).preempts + 1) } ∧
      t.reg (Obj.strmDeadlocks core) = min (s.reg (Obj.strmDeadlocks core) + 1) (2 ^ 32 - 1) := by
  have hrun := execDeadlockPreempt_still hstill hwatch
  by_cases hfew : (s.core core).preempts + 1 < 4
  · have hrests : decide (4 ≤ (s.core core).preempts + 1) = ((preempt s core).1.core core).noPreempt := by
      rw [(preempt_moved s core).noPreempt, hwatch, decide_eq_false (by omega)]
    refine ⟨_, hrun.trans (if_pos hfew), ?_, preempted_counts ..⟩
    rw [preempted_core, hrests]
  · refine ⟨_, hrun.trans (if_neg hfew), ?_, ?_⟩
    · rw [raise_core, modCore_core, if_pos rfl, preempted_core, decide_eq_true (by omega)]
    · rw [raise_reg _ _ _ _ _ _ (by rw [page_strmDeadlocks]; decide)]
      exact preempted_counts ..

/-! ### The statement -/

/-- Settles O43: each command from its equation where its conditions hold, and from what the operation it runs leaves. -/
theorem sluiceCommandsComplete : Obligations.SluiceCommandsComplete := by
  intro s core sl q
  refine ⟨fun i d hctx htc hstore hhalt hmore hending => ?_, fun hok => ?_, fun i d hctx htc hfault herror => ?_,
    fun hok => ?_, fun hflush hboundary => ?_, fun hok => ?_, fun r hr hsel => ⟨fun hidle hok => ?_, fun hrole c hc => ?_⟩,
    fun r v hr hsel => ⟨fun hnarrow hshort hroom => ?_, fun hnarrow => ?_⟩, fun r v hr hsel hlow hhigh hnarrow hbytes => ?_,
    fun hstill hwatch h hs hheld => ?_, fun hstill hwatch hheld => ?_⟩
  · exact sluiceDropRem_halted hctx htc hstore hhalt hmore hending
  · refine ⟨_, congrArg Host.Outcome.next (unitCommand_refused dropRem hok), refuseCmd_core .., refuseCmd_counts ..,
      refuseCmd_reports s core _⟩
  · have hok : flushOk s core sl = true := by
      rw [flushOk, rolloutClass, hctx, Option.map_some, Option.getD_some, beq_eq_false_iff_ne.2 htc]; rfl
    refine ⟨_, congrArg Host.Outcome.next ((unitCommand_ok flushAsk hok).trans (flushAsk_waits fun j e hj => ?_)), ?_⟩
    · rw [hctx] at hj
      cases hj
      exact ⟨hfault, herror⟩
    · exact modSlu_sluice_self ..
  · exact ⟨_, congrArg Host.Outcome.next (unitCommand_refused flushAsk hok), refuseCmd_core .., refuseCmd_counts ..⟩
  · obtain ⟨⟨z, hempty⟩, hctx, hcount⟩ := flushNow_leaves s core sl
    have hrun : execSluiceFlushApply core sl s = .next (flushNow s core sl) := if_pos (Bool.and_eq_true_iff.2 ⟨hflush, hboundary⟩)
    exact ⟨_, hrun, by rw [hempty]; rfl, by rw [hempty]; rfl, hctx, hcount⟩
  · obtain ⟨⟨z, hempty⟩, hctx⟩ := resetSlu_leaves s core sl
    exact ⟨_, congrArg Host.Outcome.next (unitCommand_ok resetSlu hok), by rw [hempty]; rfl, by rw [hempty]; rfl, hctx⟩
  · obtain ⟨⟨z, hempty⟩, -⟩ := resetSlu_leaves s core sl
    refine ⟨_, congrArg Host.Outcome.next ((dictWrite_takes _ hr).trans (congrArg _ (sluCommand_ok resetSlu hsel hidle hok))), ?_,
      answered_answers ..⟩
    rw [answered_core]
    exact (congrArg Sluice.packets hempty).trans rfl
  · have hrefused (ok effect) := dictWrite_sluCommand_inRole hr hsel hrole ok effect
    simp only [List.mem_cons, List.not_mem_nil, or_false] at hc
    rcases hc with rfl | rfl | rfl
    · exact ⟨_, rfl, hrefused resetOk resetSlu⟩
    · exact ⟨_, rfl, hrefused flushOk flushAsk⟩
    · exact ⟨_, rfl, hrefused dropOk dropRem⟩
  · refine ⟨_, congrArg Host.Outcome.next ((dictWrite_takes _ hr).trans
      (congrArg _ (sluNarrowDataWrite_takes v.toNat hsel hnarrow hshort hroom))), ?_, answered_answers ..⟩
    rw [answered_core, Ans.ok, modSlu_sluice_self]
  · refine ⟨_, congrArg Host.Outcome.next ((dictWrite_takes _ hr).trans
      (congrArg _ (sluNarrowDataWrite_notNarrow v.toNat hsel hnarrow))), ?_, ?_, answered_answers ..⟩
    · rw [answered_core, refuseNarrow, Ans.refuse, raise_core]
    · exact (raise_reports s 0x5A0A .note (uCore core) noPos).then rfl
  · refine ⟨_, congrArg Host.Outcome.next ((dictWrite_takes _ hr).trans
      (congrArg _ (sluNarrowCloseWrite_takes hsel hlow hhigh hnarrow hbytes))), ?_, ?_, answered_answers ..⟩
    · rw [answered_core, Ans.ok, modSlu_sluice_self]
    · rw [answered_core, Ans.ok, modSlu_sluice_self]
  · obtain ⟨t, hrun, hcore, hcount⟩ := deadlockPreempt_leads hstill hwatch
    refine ⟨t, hrun, ?_, ?_, ?_, fun hload => ?_, hcount⟩
    · rw [hcore]
    · rw [hcore]
    · rw [hcore]
    · rw [hcore]; exact preempt_waits hheld hload
  · obtain ⟨t, hrun, hcore, hcount⟩ := deadlockPreempt_leads hstill hwatch
    exact ⟨t, hrun, by rw [hcore], by rw [hcore], hcount⟩

end Sys2Proof.Machine
end

section
/-! Runs of bytes written to memory (R303, R307, R316, R317): what a run leaves at its address and elsewhere. -/

namespace Sys2Proof.Machine

/-! ### A run of bytes -/

/-- The bytes stand from `a` on in `m'`, and every other byte of it is that of `m`. -/
def StoredAt (m m' : MemState) (a : Nat) (bytes : List Byte) : Prop :=
  (∀ k, k < bytes.length → memByte m' (a + k) = bytes.getD k 0) ∧ ∀ x, x < a ∨ a + bytes.length ≤ x → memByte m' x = memByte m x

theorem memWriteBytes_stored (m : MemState) (a : Nat) (bytes : List Byte) : StoredAt m (memWriteBytes m a bytes) a bytes := by
  refine ⟨fun k hk => ?_, fun x hx => ?_⟩
  · rw [memByte_write, if_pos (by omega), Nat.add_sub_cancel_left]
  · rw [memByte_write, if_neg (by omega)]

theorem memWrite_succ (m : MemState) (a n v : Nat) :
    memWrite m a (n + 1) v = memWrite (memSetByte m a (BitVec.ofNat 8 v)) (a + 1) n (v / 256) := rfl
/-- A number written reads back cut to its bytes. -/
theorem memRead_memWrite (m : MemState) (a n v : Nat) : memRead (memWrite m a n v) a n = v % 256 ^ n := by
  induction n generalizing m a v with
  | zero => exact (Nat.mod_one v).symm
  | succ n ih =>
    have hfirst : memByte (memWrite (memSetByte m a (BitVec.ofNat 8 v)) (a + 1) n (v / 256)) a = BitVec.ofNat 8 v := by
      rw [memWrite, memByte_write, if_neg (by omega), memByte_set, if_pos rfl]
    rw [memWrite_succ, memRead, hfirst, ih, BitVec.toNat_ofNat, Nat.pow_succ' (m := 256), Nat.mod_mul]
/-- The same by its bits. -/
theorem memRead_memWrite_bits (m : MemState) (a v : Nat) {n b : Nat} (hb : b = 8 * n) : memRead (memWrite m a n v) a n = v % 2 ^ b := by
  have hpow : 2 ^ (8 * n) = 256 ^ n := Nat.pow_mul 2 8 n
  rw [hb, hpow, memRead_memWrite]

/-! ### An offload (R317) -/

theorem siphonCommand_runs {s : State} {cl : Nat} {p : TableRec × Nat} (f : TableRec × Nat → State → State)
    (hplan : s.spillPlan cl = some p) (hgood : p.1.bad = false) (hsame : firstDiffer s (planReads s cl p) = none) :
    siphonCommand cl f s = .next (f p s) := by
  unfold siphonCommand
  simp only [hplan, hgood, hsame, Bool.false_eq_true, if_false]

/-- The oldest item that waits in staging is written at its address in its form. -/
theorem offloadNext_mem {s : State} {cl i : Nat} {p : TableRec × Nat} {it : PlanItem}
    (hnext : (planItems s p.1 p.2).zipIdx.find? (fun q => ((s.cluster cl).item q.2).staged) = some (it, i)) :
    (offloadNext cl false p s).mem = clearPoison
      (memWriteBytes s.mem ((s.cluster cl).item i).pa (storedBytes s cl it ((s.cluster cl).item i).form ((s.cluster cl).item i).data))
      ((s.cluster cl).item i).pa ((s.cluster cl).item i).stored := by
  unfold offloadNext
  rw [hnext]
  rfl

/-- Settles O10: the command writes the stored form as one run of bytes, and lifts poison beside it. -/
theorem siphonOffloadStoresItem : Obligations.SiphonOffloadStoresItem := by
  intro s cl p it i hplan hgood hsame hnext x bytes
  have hstored : StoredAt s.mem (offloadNext cl.val false p s).mem x.pa bytes := by
    rw [offloadNext_mem hnext]
    exact memWriteBytes_stored ..
  exact ⟨_, siphonCommand_runs _ hplan hgood hsame, hstored⟩

end Sys2Proof.Machine
end

section
/-! The fault ring takes a held record once its tail makes room (R307). -/

namespace Sys2Proof.Machine

theorem fqFull_of_room {s : State} (h : (s.reg Obj.xlatFqHead + 2 ^ 32 - s.reg Obj.xlatFqTail) % 2 ^ 32 < s.reg Obj.xlatFqSize) :
    fqFull s = false := decide_eq_false (Nat.not_le.2 h)
/-- A record held alone is written while there is room, and none is held any more. -/
theorem fqDrain_single {s : State} (h : HeldFault) (hroom : fqFull s = false) :
    fqDrain [h] s = ((fqWrite s h.record).withMem { (fqWrite s h.record).mem with held := [] }).setReg Obj.xlatFqHeld 0 :=
  if_neg (by rw [hroom]; decide)
/-- The slot of the ring that the head names. -/
def fqSlot (s : State) : Nat := s.reg Obj.xlatFqBase + 64 * (s.reg Obj.xlatFqHead % s.reg Obj.xlatFqSize)
theorem fqDrain_single_bytes {s : State} (h : HeldFault) (hroom : fqFull s = false) (x : Nat) :
    memByte (fqDrain [h] s).mem x = memByte (memWrite s.mem (fqSlot s) 64 h.record) x := by
  rw [fqDrain_single h hroom]
  rfl
theorem fqWrite_head (s : State) (r : Nat) : (fqWrite s r).reg Obj.xlatFqHead = (s.reg Obj.xlatFqHead + 1) % 2 ^ 32 :=
  (setReg_reg ..).trans ((if_pos rfl).trans (Nat.mod_mod ..))
theorem fqWrite_reg (s : State) (r : Nat) {k : Nat} (h : k ≠ Obj.xlatFqHead) : (fqWrite s r).reg k = s.reg k :=
  (setReg_reg ..).trans (if_neg h)

/-- The ring's tail written leaves the ring's other objects. -/
theorem setTail_reg (s : State) (v : Nat) {k : Nat} (h : k ≠ Obj.xlatFqTail) : (s.setReg Obj.xlatFqTail v).reg k = s.reg k :=
  (setReg_reg ..).trans (if_neg h)
theorem setTail_tail (s : State) (v : BitVec 32) : (s.setReg Obj.xlatFqTail v.toNat).reg Obj.xlatFqTail = v.toNat :=
  (setReg_reg ..).trans ((if_pos rfl).trans (Nat.mod_eq_of_lt v.isLt))

theorem execFqTailWrite_takes {s : State} {q : Req} (v : BitVec 32) (hq : s.takesWrite q Obj.xlatFqTail = true) :
    execFqTailWrite q v s = .next (answered s.beat q 2 Obj.xlatFqTail
      (Ans.ok (fqDrain s.mem.held (s.setReg Obj.xlatFqTail v.toNat)))) := congrArg Host.Outcome.next (dictWrite_takes _ hq)

/-- Settles O7: the tail makes room, so the record held alone is drained into the head's slot. -/
theorem heldFaultWrittenAtHead : Obligations.HeldFaultWrittenAtHead := by
  intro s q v h hq hheld hroom
  refine ⟨_, execFqTailWrite_takes v hq, ?_⟩
  have hkept {k : Nat} (hk : k ≠ Obj.xlatFqTail) : (s.setReg Obj.xlatFqTail v.toNat).reg k = s.reg k := setTail_reg _ _ hk
  have hfull : fqFull (s.setReg Obj.xlatFqTail v.toNat) = false := fqFull_of_room (by
    rw [setTail_tail, hkept (by decide), hkept (by decide)]; exact hroom)
  have hslot : fqSlot (s.setReg Obj.xlatFqTail v.toNat) = fqSlot s := by
    unfold fqSlot; rw [hkept (by decide), hkept (by decide), hkept (by decide)]
  have hbytes := fqDrain_single_bytes h hfull
  rw [hslot] at hbytes
  have hstored : StoredAt s.mem (memWrite s.mem (fqSlot s) 64 h.record) (fqSlot s) (leBytes 64 h.record) := memWriteBytes_stored ..
  rw [hheld]
  refine ⟨(memRead_congr hbytes _ 64).trans (memRead_memWrite_bits s.mem (fqSlot s) h.record rfl),
    fun b hb => (hbytes b).trans (hstored.2 b (by rwa [leBytes_length])), ?_, ?_, ?_⟩
  · rw [answered_reg _ _ _ _ _ (by decide), Ans.ok, fqDrain_single h hfull, setReg_reg, if_neg (by decide), withMem_reg, fqWrite_head,
      hkept (by decide)]
  · rw [answered_reg _ _ _ _ _ (by decide), Ans.ok, fqDrain_single h hfull, setReg_reg, if_pos rfl]
    rfl
  · show (fqDrain [h] _).mem.held = []
    rw [fqDrain_single h hfull]
    rfl

end Sys2Proof.Machine
end

section
/-! Where an RDMA WRITE puts its bytes (R303, R356). A frame heard and a congestion notification sent leave memory, the queue pairs and
every object but the counts of their ports, so the packet is taken as the state before it says. -/

namespace Sys2Proof.Machine

/-! ### A frame heard and a notification sent -/

/-- Memory, the queue pairs, and what decides whether and where a packet is taken read the same. -/
structure PacketSees (s t : State) : Prop where
  ports : PortsKept s t
  dead : t.dead = s.dead
  mem : t.mem = s.mem
  qps : t.net.qps = s.net.qps
  regs : ∀ k, page k ≠ 0x72 → t.reg k = s.reg k

namespace PacketSees
variable {s0 s t : State}

theorem refl (s : State) : PacketSees s s := ⟨.refl s, rfl, rfl, rfl, fun _ _ => rfl⟩
theorem trans (h : PacketSees s0 s) (h2 : PacketSees s t) : PacketSees s0 t :=
  ⟨h.ports.trans h2.ports, h2.dead.trans h.dead, h2.mem.trans h.mem, h2.qps.trans h.qps, fun k hk => (h2.regs k hk).trans (h.regs k hk)⟩
theorem qp (h : PacketSees s t) (i : Nat) : t.qp i = s.qp i := congrArg (smGet dQp · i) h.qps
theorem qpRec (h : PacketSees s t) (i : Nat) : t.qpRec i = s.qpRec i :=
  h.regs _ (by rw [page_ofUnit i page_roceQp]; decide)
theorem portUp (h : PacketSees s t) (p : Nat) : t.portUp p = s.portUp p := by unfold State.portUp; rw [h.ports.2]
theorem running (h : PacketSees s t) : t.running = s.running := by unfold State.running; rw [h.ports.1, h.dead]
theorem rxQp (h : PacketSees s t) (hdr : RoceHdr) : rxQp t hdr = rxQp s hdr := by
  unfold Machine.rxQp State.qpState State.qpNet State.qpFld
  simp only [h.running, h.portUp, h.qpRec]
theorem seqPos (h : PacketSees s t) (i : Nat) (hdr : RoceHdr) : seqPos t i hdr = seqPos s i hdr := by
  unfold Machine.seqPos; rw [h.qp]
theorem inMailbox (h : PacketSees s t) (va key : Nat) : inMailbox t va key = inMailbox s va key := by
  unfold Machine.inMailbox
  rw [h.regs Obj.mbxRkey (by decide), h.regs Obj.mbxVa (by decide)]

end PacketSees

theorem bump_packetSees (s : State) {k : Nat} (n : Nat) (hpage : page k = 0x72) (hkey : ∀ p, Obj.ethPState p ≠ k) :
    PacketSees s (s.bump k n) :=
  ⟨(PortsKept.refl s).bump hkey, rfl, rfl, rfl, fun j hj => (bump_reg ..).trans (if_neg (by rintro rfl; exact hj hpage))⟩
theorem rxFrame_packetSees (s : State) (p : Nat) : PacketSees s (rxFrame s p) := by
  unfold rxFrame
  split
  · exact bump_packetSees s 1 (page_ethPRxFrames p) fun q => by unfold Obj.ethPState Obj.ethPRxFrames ob; omega
  · exact .refl s
theorem roceEmit_packetSees (s : State) (p : Nat) (o : Out) : PacketSees s (roceEmit s p o) := by
  unfold roceEmit
  split
  · exact .refl s
  · split
    · exact ⟨⟨rfl, fun _ => rfl⟩, rfl, rfl, rfl, fun _ _ => rfl⟩
    · have hcount := bump_packetSees s (frameCount o) (page_ethPTxFrames p) fun q => by
        unfold Obj.ethPState Obj.ethPTxFrames ob; omega
      exact hcount.trans ⟨⟨rfl, fun _ => rfl⟩, rfl, rfl, rfl, fun _ _ => rfl⟩
theorem noteEcn_packetSees (s : State) (i : Nat) (h : RoceHdr) : PacketSees s (noteEcn s i h) := by
  unfold noteEcn
  split
  · exact roceEmit_packetSees ..
  · exact .refl s

/-! ### A packet of a WRITE in its order -/

/-- The packet expected next is handled as its kind says. -/
theorem rxOrdered_due {s : State} {h : RoceHdr} {i : Nat} (f : Nat → State → State) (hqp : rxQp s h = some i) (hdue : seqPos s i h = .due) :
    rxOrdered (rxFrame s h.port) h f = f i (noteEcn (rxFrame s h.port) i h) := by
  have hframe := rxFrame_packetSees s h.port
  have hheard := hframe.trans (noteEcn_packetSees (rxFrame s h.port) i h)
  unfold rxOrdered rxBySeq
  simp only [hframe.rxQp, hqp, hheard.seqPos, hdue]

/-- The last packet of a message, of its whole length, stores its bytes; what follows writes no memory. -/
theorem writePacket_mem {s : State} (i psn : Nat) {va : Nat} {bytes : List Byte} (hva : vaOk s va bytes.length true = true)
    (hopen : epochLocked s va bytes.length = false) :
    (writePacket s i psn va bytes.length true bytes).mem = (vaStore s va bytes).mem := by
  unfold writePacket
  rw [if_neg (by simp), if_neg (by simp [hva, hopen])]
  exact (roceEmit_packetSees ..).mem

/-- A WRITE of one packet into a region that serves it. -/
theorem execRoceWriteRx_stores {s : State} {h : RoceHdr} {i : Nat} {a : RoceAddr} {bytes : List Byte} (hqp : rxQp s h = some i)
    (hdue : seqPos s i h = .due) (hbox : inMailbox s a.va.toNat a.rkey.toNat = false) (hfresh : (s.qp i).wr = none)
    (hok : accessOk (noteEcn (rxFrame s h.port) i h) ((noteEcn (rxFrame s h.port) i h).qpNet i) a.va.toNat a.len.toNat a.rkey.toNat true = true)
    (hlen : a.len.toNat = bytes.length) :
    Leads (.roceWriteRx h (some a) true bytes) s fun t => t.mem = (vaStore (noteEcn (rxFrame s h.port) i h) a.va.toNat bytes).mem := by
  have hheard := (rxFrame_packetSees s h.port).trans (noteEcn_packetSees (rxFrame s h.port) i h)
  refine ⟨_, congrArg Host.Outcome.next (rxOrdered_due _ hqp hdue), ?_⟩
  dsimp only
  rw [hheard.inMailbox, hbox, Bool.false_and, if_neg Bool.false_ne_true]
  unfold regionWrite
  rw [hheard.qp, hfresh]
  dsimp only
  rw [if_pos hok, hlen]
  simp only [accessOk, hlen, Bool.and_eq_true, Bool.not_eq_true', Bool.true_and] at hok
  obtain ⟨⟨_, hva⟩, hopen⟩ := hok
  exact writePacket_mem _ _ hva hopen

/-! ### Bytes stored within one page -/

theorem vaRuns_within_page {va n : Nat} (hpos : 0 < n) (hpage : va % 65536 + n ≤ 65536) : vaRuns va n = [(va, n)] := by
  have hone : ceilDiv (va % 65536 + n) 65536 = 1 := by unfold ceilDiv; omega
  have hlo : max va ((va / 65536 + 0) * 65536) = va := by omega
  have hhi : min (va + n) ((va / 65536 + 0 + 1) * 65536) - va = n := by omega
  unfold vaRuns
  simp only [hone, List.range_one, List.map_cons, List.map_nil, hlo, hhi]

/-- Within one page whose entry is marked, the bytes stand at the page's address. -/
theorem vaStore_stored {s : State} {va at_ : Nat} {bytes : List Byte} {e : TlbEntry} (hpos : 0 < bytes.length)
    (hpage : va % 65536 + bytes.length ≤ 65536) (hwalk : walk s va true false none = .hit e at_) (hmarked : markPte s e at_ true = s) :
    StoredAt s.mem (vaStore s va bytes).mem (e.frame + (va - e.va)) bytes := by
  have hmem : (vaStore s va bytes).mem = clearPoison (seenByAll (memWriteBytes s.mem (e.frame + (va - e.va)) bytes)
      (e.frame + (va - e.va)) bytes.length) (e.frame + (va - e.va)) bytes.length := by
    unfold vaStore forAll
    rw [vaRuns_within_page hpos hpage]
    simp only [List.foldl_cons, List.foldl_nil, hwalk, hmarked, Nat.sub_self, List.drop_zero, List.take_length, withMem_mem]
  rw [hmem]
  exact memWriteBytes_stored ..

/-- Settles O38: the packet is taken in its order and stores its bytes in one page. -/
theorem remoteWriteStoresBytes : Obligations.RemoteWriteStoresBytes := by
  intro s h i a bytes e at_ hqp hdue hbox hfresh u hok hlen hpos hpage hwalk hmarked
  have hmem : u.mem = s.mem := ((rxFrame_packetSees s h.port).trans (noteEcn_packetSees (rxFrame s h.port) i h)).mem
  obtain ⟨t, hrun, ht⟩ := execRoceWriteRx_stores hqp hdue hbox hfresh hok hlen
  have hstored : StoredAt s.mem t.mem (e.frame + (a.va.toNat - e.va)) bytes := by
    rw [ht, ← hmem]
    exact vaStore_stored hpos hpage hwalk hmarked
  exact ⟨t, hrun, hstored⟩

end Sys2Proof.Machine
end

section
/-! An item placed (R316). What the Siphon reports and requests on the way, and the share record of a lossy form, leave memory and the
cluster's items and ledger; the item then stands in memory in its stored form, or waits in staging. -/

namespace Sys2Proof.Machine

/-! ### What leaves the items and the ledgers -/

/-- Memory, the items of every cluster and its ledger read the same. -/
structure ItemsKept (s t : State) : Prop where
  mem : t.mem = s.mem
  stash : ∀ cl, (t.cluster cl).stash = (s.cluster cl).stash
  ledger : ∀ cl, (t.cluster cl).ledger = (s.cluster cl).ledger

namespace ItemsKept
variable {s0 s t : State}

theorem refl (s : State) : ItemsKept s s := ⟨rfl, fun _ => rfl, fun _ => rfl⟩
theorem item (h : ItemsKept s t) (cl i : Nat) : (t.cluster cl).item i = (s.cluster cl).item i := by
  unfold Cluster.item; rw [h.stash]
theorem bump (h : ItemsKept s0 s) (k n : Nat) : ItemsKept s0 (s.bump k n) := ⟨h.mem, h.stash, h.ledger⟩
theorem note (h : ItemsKept s0 s) (code unit pos : Nat) : ItemsKept s0 (raise s code .note unit pos) := by
  have hclusters : (Machine.raise s code .note unit pos).clusters = s.clusters := raise_clusters ..
  refine ⟨(raise_mem ..).trans h.mem, fun cl => ?_, fun cl => ?_⟩
  · rw [State.cluster, hclusters]; exact h.stash cl
  · rw [State.cluster, hclusters]; exact h.ledger cl
/-- A cluster changed in neither. -/
theorem modCluster (h : ItemsKept s0 s) (cl : Nat) {f : Cluster → Cluster} (hf : ∀ c, (f c).stash = c.stash ∧ (f c).ledger = c.ledger) :
    ItemsKept s0 (s.modCluster cl f) := by
  refine ⟨h.mem, fun n => ?_, fun n => ?_⟩
  · rw [modCluster_cluster]
    split
    · next hn => rw [(hf _).1, ← hn]; exact h.stash n
    · exact h.stash n
  · rw [modCluster_cluster]
    split
    · next hn => rw [(hf _).2, ← hn]; exact h.ledger n
    · exact h.ledger n
theorem sramWr (h : ItemsKept s0 s) (cl a n v : Nat) : ItemsKept s0 (s.sramWr cl a n v) := h.modCluster cl fun _ => ⟨rfl, rfl⟩
theorem sramBump (h : ItemsKept s0 s) (cl a n v : Nat) : ItemsKept s0 (s.sramBump cl a n v) := h.sramWr ..
theorem openShare (h : ItemsKept s0 s) (cl idx tensor : Nat) : ItemsKept s0 (openShare s cl idx tensor) := by
  unfold Machine.openShare
  split
  · exact h
  · exact h.sramWr ..
theorem scopeShare (h : ItemsKept s0 s) (cl idx tensor : Nat) (c : Cnt) (amax ts : Nat) : ItemsKept s0 (scopeShare s cl idx tensor c amax ts) :=
  ((((((((h.openShare ..).sramBump ..).sramBump ..).sramBump ..).sramBump ..).sramBump ..).sramBump ..).sramWr ..).sramWr ..
theorem narrowedBySiphon (h : ItemsKept s0 s) (cl tensor n : Nat) : ItemsKept s0 (narrowedBySiphon s cl tensor n) := by
  unfold Machine.narrowedBySiphon
  split
  · exact h
  · extract_lets counted key
    split
    · exact h.bump ..
    · exact .note (.modCluster (h.bump ..) cl fun _ => by exact ⟨rfl, rfl⟩) ..
theorem lossyShare (h : ItemsKept s0 s) (cl : Nat) (it : PlanItem) (form : Nat) (raw : List Byte) :
    ItemsKept s0 (lossyShare s cl it form raw) := by
  unfold Machine.lossyShare
  split
  · exact h
  · exact (h.scopeShare ..).narrowedBySiphon ..
theorem requestRecompute (h : ItemsKept s0 s) (cl : Nat) : ItemsKept s0 (requestRecompute s cl) := by
  unfold Machine.requestRecompute
  dsimp only
  split
  · exact h
  · exact .note (.bump (.modCluster h cl fun _ => by exact ⟨rfl, rfl⟩) ..) ..

end ItemsKept

/-! ### What the placement reports and requests -/

/-- A redirection reported at its first, and a recompute requested for an item of the reserve. -/
def placeNoted (s : State) (cl : Nat) (d : Place) : State :=
  let s := if d.redirect && !(s.cluster cl).redirected then
      raise (s.modCluster cl fun c => { c with redirected := true }) 0x6A10 .note (uCluster cl) else s
  if d.reserve then requestRecompute s cl else s

theorem placeNoted_kept (s : State) (cl : Nat) (d : Place) : ItemsKept s (placeNoted s cl d) := by
  unfold placeNoted
  extract_lets told
  have htold : ItemsKept s told := by
    dsimp only [told]
    split
    · exact .note (.modCluster (.refl s) cl fun _ => by exact ⟨rfl, rfl⟩) ..
    · exact .refl s
  split
  · exact htold.requestRecompute cl
  · exact htold
/-- Of the objects, it changes the alert's and the count of recomputes. -/
theorem placeNoted_reg (s : State) (cl : Nat) (d : Place) {k : Nat} (hpage : page k ≠ 0x23) (hkey : k ≠ Obj.siphClRecomputes cl) :
    (placeNoted s cl d).reg k = s.reg k := by
  unfold placeNoted
  extract_lets told
  have htold : told.reg k = s.reg k := by
    dsimp only [told]
    split
    · exact raise_reg _ _ _ _ _ _ hpage
    · rfl
  split
  · unfold requestRecompute
    dsimp only
    split
    · exact htold
    · rw [raise_reg _ _ _ _ _ _ hpage, bump_reg, if_neg hkey]
      exact htold
  · exact htold

/-- The pools stay where they are. -/
theorem placeNoted_pool (s : State) (cl : Nat) (d : Place) (tier : Nat) : (placeNoted s cl d).pool cl tier = s.pool cl tier := by
  unfold State.pool
  split
  · exact placeNoted_reg s cl d (by rw [page_siphClT0Pool]; decide) (by unfold Obj.siphClT0Pool Obj.siphClRecomputes ob; omega)
  · exact placeNoted_reg s cl d (by rw [page_siphClT1Pool]; decide) (by unfold Obj.siphClT1Pool Obj.siphClRecomputes ob; omega)
  · exact placeNoted_reg s cl d (by rw [page_siphClT2Pool]; decide) (by unfold Obj.siphClT2Pool Obj.siphClRecomputes ob; omega)
/-- The stored form of an item is a matter of the item, the seed and the cluster's step. -/
theorem storedBytes_congr {s t : State} {cl : Nat} (hseed : t.seed = s.seed) (hstep : ∀ c, t.clStep c = s.clStep c) (it : PlanItem)
    (form : Nat) (raw : List Byte) : storedBytes t cl it form raw = storedBytes s cl it form raw := by
  have hdraw (core tensor purpose : Nat) : t.drawArgs core tensor purpose = s.drawArgs core tensor purpose := by
    unfold State.drawArgs; rw [hseed, hstep]
  unfold storedBytes lossyQuant
  simp only [hdraw]
theorem placeNoted_storedBytes (s : State) (cl : Nat) (d : Place) (it : PlanItem) (form : Nat) (raw : List Byte) :
    storedBytes (placeNoted s cl d) cl it form raw = storedBytes s cl it form raw := by
  refine storedBytes_congr ?_ (fun c => ?_) it form raw
  · exact placeNoted_reg s cl d (by decide) (by unfold Obj.rngSeed Obj.siphClRecomputes ob; omega)
  · exact placeNoted_reg s cl d (by rw [page_schedClStep]; decide) (by unfold Obj.schedClStep Obj.siphClRecomputes ob; omega)
/-- The T0 share of the plan is read in memory, where the tables stand. -/
theorem placeNoted_planT0Share (s : State) (cl : Nat) (d : Place) (p : TableRec × Nat) :
    planT0Share (placeNoted s cl d) p = planT0Share s p := by
  unfold planT0Share State.tblRd State.memRd State.regionBase
  rw [(placeNoted_kept s cl d).mem, placeNoted_reg s cl d (by decide) (by unfold Obj.memTblBase Obj.siphClRecomputes ob; omega)]

/-! ### The item on its shelf -/

theorem modItem_item (s : State) (cl i : Nat) (f : StashItem → StashItem) : ((modItem s cl i f).cluster cl).item i = f ((s.cluster cl).item i) := by
  unfold modItem Cluster.item
  rw [modCluster_cluster, if_pos rfl]
  exact (smGet_set ..).trans (if_pos rfl)
theorem modItem_ledger (s : State) (cl i : Nat) (f : StashItem → StashItem) : ((modItem s cl i f).cluster cl).ledger = (s.cluster cl).ledger := by
  unfold modItem
  rw [modCluster_cluster, if_pos rfl]

/-- An item of T0 written at its address, one of T1 or T2 kept in staging. -/
def shelved (s : State) (cl i tier pa n : Nat) (bytes : List Byte) : State :=
  if tier = 0 then
    modItem (s.withMem (clearPoison (memWriteBytes s.mem pa bytes) pa n)) cl i fun x => { x with data := [], present := true }
  else modItem s cl i fun x => { x with staged := true }

theorem shelved_stored (s : State) (cl i pa n : Nat) (bytes : List Byte) : StoredAt s.mem (shelved s cl i 0 pa n bytes).mem pa bytes :=
  memWriteBytes_stored s.mem pa bytes
theorem shelved_mem {tier : Nat} (s : State) (cl i pa n : Nat) (bytes : List Byte) (h : tier ≠ 0) :
    (shelved s cl i tier pa n bytes).mem = s.mem := by
  rw [shelved, if_neg h]; rfl
theorem shelved_staged {tier : Nat} (s : State) (cl i pa n : Nat) (bytes : List Byte) (h : tier ≠ 0) :
    (((shelved s cl i tier pa n bytes).cluster cl).item i).staged = true := by
  rw [shelved, if_neg h, modItem_item]
theorem shelved_ledger (s : State) (cl i tier pa n : Nat) (bytes : List Byte) :
    ((shelved s cl i tier pa n bytes).cluster cl).ledger = (s.cluster cl).ledger := by
  unfold shelved
  split
  · exact modItem_ledger ..
  · exact modItem_ledger ..

/-- The item's record and the ledger of the cluster after a placement. -/
def entered (s : State) (cl i : Nat) (d : Place) (pa n : Nat) : State :=
  (modItem s cl i fun x => { x with placed := true, tier := d.tier, form := d.form, pa := pa, stored := n }).modCluster cl
    fun c => { c with ledger := ledgerAdd c.ledger d.tier n }

theorem entered_item (s : State) (cl i : Nat) (d : Place) (pa n : Nat) : ((entered s cl i d pa n).cluster cl).item i =
    { (s.cluster cl).item i with placed := true, tier := d.tier, form := d.form, pa := pa, stored := n } := by
  rw [entered, modCluster_cluster, if_pos rfl]
  exact modItem_item ..
theorem entered_ledger (s : State) (cl i : Nat) (d : Place) (pa n : Nat) :
    ((entered s cl i d pa n).cluster cl).ledger = ledgerAdd (s.cluster cl).ledger d.tier n := by
  rw [entered, modCluster_cluster, if_pos rfl]
  exact congrArg (ledgerAdd · d.tier n) (modItem_ledger ..)

/-! ### A placement -/

/-- The decisions of R316 for an item of a plan. -/
def placement (s : State) (cl i : Nat) (it : PlanItem) (p : TableRec × Nat) : Place :=
  choosePlace it (fun f => (storedBytes s cl it f ((s.cluster cl).item i).data).length) (s.cluster cl).ledger (planT0High s p)
    (planT1Share s p) (planT2Share s p)
/-- The state with the item placed at `pa` in its stored form, `n` bytes, before the counts. -/
def placed (s : State) (cl i : Nat) (it : PlanItem) (d : Place) (raw : List Byte) (pa n : Nat) (bytes : List Byte) : State :=
  entered (shelved (lossyShare s cl it d.form raw) cl i d.tier pa n bytes) cl i d pa n

/-- What a placement counts: a tier other than the plan's, and the bytes raw and stored. -/
def placeCounted (s : State) (cl : Nat) (it : PlanItem) (d : Place) (n : Nat) : State :=
  let s := if d.tier = it.tier then s else s.bump (Obj.siphClRedirects cl) 1
  (s.bump (Obj.siphClRawBytes cl) it.bytes).bump (Obj.siphClStoredBytes cl) n

theorem placeCounted_kept (s : State) (cl : Nat) (it : PlanItem) (d : Place) (n : Nat) : ItemsKept s (placeCounted s cl it d n) := by
  unfold placeCounted
  dsimp only
  split
  · exact ((ItemsKept.refl s).bump ..).bump ..
  · exact (((ItemsKept.refl s).bump ..).bump ..).bump ..

/-- An item that its place has room for is placed there; one of the reserve without room is not. -/
theorem placeItem_eq (s : State) (cl i : Nat) (it : PlanItem) (p : TableRec × Nat) :
    placeItem s cl i it p =
      let d := placement s cl i it p
      let raw := ((s.cluster cl).item i).data
      let n := (storedBytes s cl it d.form raw).length
      let u := placeNoted s cl d
      if d.reserve && decide (planT0Share u p < (s.cluster cl).ledger.1 + n) then raise u 0x6A12 .stepAbort (uCluster cl)
      else placeCounted (placed u cl i it d raw (u.pool cl d.tier + ledgerAt (s.cluster cl).ledger d.tier) n
        (storedBytes u cl it d.form raw)) cl it d n := rfl

/-- An item whose place has room for it. -/
theorem placeItem_fits {s : State} {cl i : Nat} {it : PlanItem} {p : TableRec × Nat} {d : Place} {raw bytes : List Byte}
    (hd : placement s cl i it p = d) (hraw : ((s.cluster cl).item i).data = raw) (hbytes : storedBytes s cl it d.form raw = bytes)
    (hfits : ¬(d.reserve = true ∧ planT0Share s p < (s.cluster cl).ledger.1 + bytes.length)) :
    placeItem s cl i it p = placeCounted (placed (placeNoted s cl d) cl i it d raw (s.pool cl d.tier + ledgerAt (s.cluster cl).ledger d.tier)
      bytes.length bytes) cl it d bytes.length := by
  rw [placeItem_eq]
  dsimp only
  rw [hd, hraw, placeNoted_storedBytes, hbytes, placeNoted_planT0Share, placeNoted_pool, if_neg (by simpa using hfits)]

/-- What a placement leaves of the item, of the ledger and of memory. -/
theorem placed_leaves (s : State) (cl i : Nat) (it : PlanItem) (d : Place) (raw : List Byte) (pa : Nat) (bytes : List Byte) :
    let t := placed s cl i it d raw pa bytes.length bytes
    let x := (t.cluster cl).item i
    (x.placed = true ∧ x.tier = d.tier ∧ x.form = d.form ∧ x.pa = pa ∧ x.stored = bytes.length ∧ (d.tier ≠ 0 → x.staged = true)) ∧
      (t.cluster cl).ledger = ledgerAdd (s.cluster cl).ledger d.tier bytes.length ∧
      (d.tier = 0 → StoredAt s.mem t.mem pa bytes) ∧ (d.tier ≠ 0 → t.mem = s.mem) := by
  intro t x
  have hshare : ItemsKept s (lossyShare s cl it d.form raw) := (ItemsKept.refl s).lossyShare ..
  have hitem : x = { ((shelved (lossyShare s cl it d.form raw) cl i d.tier pa bytes.length bytes).cluster cl).item i with
      placed := true, tier := d.tier, form := d.form, pa := pa, stored := bytes.length } := entered_item ..
  have hmem : t.mem = (shelved (lossyShare s cl it d.form raw) cl i d.tier pa bytes.length bytes).mem := rfl
  refine ⟨?_, ?_, fun h0 => ?_, fun h0 => ?_⟩
  · rw [hitem]
    exact ⟨rfl, rfl, rfl, rfl, rfl, shelved_staged _ _ _ _ _ _⟩
  · exact (entered_ledger ..).trans (by rw [shelved_ledger, hshare.ledger])
  · rw [hmem, h0, ← hshare.mem]
    exact shelved_stored ..
  · rw [hmem, shelved_mem _ _ _ _ _ _ h0, hshare.mem]

theorem placeNext_places {s : State} {cl i : Nat} {p : TableRec × Nat} {it : PlanItem}
    (hnext : nextToPlace s cl (planItems s p.1 p.2) = some (it, i)) (hlen : ((s.cluster cl).item i).data.length = it.bytes) :
    placeNext cl false p s = placeItem s cl i it p := by
  unfold placeNext
  rw [hnext]
  exact (if_neg (not_not_intro hlen)).trans (if_neg Bool.false_ne_true)

/-- Settles O9: the item is placed where the decisions say, and what is noted before and counted after it leaves items, ledger and memory. -/
theorem siphonPlacesItems : Obligations.SiphonPlacesItems := by
  intro s cl p it i hplan hgood hsame hnext hlen raw l d bytes pa hfits
  have hrun : Leads (.siphonItemPlace cl false) s fun t => t = placeItem s cl i it p :=
    ⟨_, siphonCommand_runs _ hplan hgood hsame, placeNext_places hnext hlen⟩
  obtain ⟨t, hexec, ht⟩ := hrun
  rw [placeItem_fits (d := d) (raw := raw) (bytes := bytes) rfl rfl rfl hfits] at ht
  have hnoted : ItemsKept s (placeNoted s cl d) := placeNoted_kept s cl d
  have hcounted : ItemsKept _ t := ht ▸ placeCounted_kept _ cl it d bytes.length
  obtain ⟨⟨hplaced, htier, hform, hpa, hstored, hstaged⟩, hledger, hmem0, hmem⟩ := placed_leaves (placeNoted s cl d) cl i it d raw pa bytes
  refine ⟨t, hexec, ?_⟩
  dsimp only
  rw [hcounted.item, hcounted.ledger, hcounted.mem]
  refine ⟨hplaced, htier, hform, hpa, hstored, hstaged, hledger.trans (by rw [hnoted.ledger]), fun h0 => (hmem0 h0).1, fun a ha => ?_⟩
  by_cases h0 : d.tier = 0
  · exact ((hmem0 h0).2 a (ha.resolve_left (not_not_intro h0))).trans (by rw [hnoted.mem])
  · rw [hmem h0, hnoted.mem]

end Sys2Proof.Machine
end

section
/-! Sparse maps with several entries set, and a function over the cores: what they read. -/

namespace Sys2Proof.Machine

/-! ### Entries of a sparse map -/

section
variable {α : Type} (d : Nat → α)

theorem smGet_of_not_mem {m : SMap α} {k : Nat} (h : ∀ p ∈ m, p.1 ≠ k) : smGet d m k = d k := by
  induction m with
  | nil => rfl
  | cons p m ih =>
    rw [List.forall_mem_cons] at h
    exact (if_neg h.1).trans (ih h.2)
/-- With its keys pairwise different, a map reads each of its entries. -/
theorem smGet_of_mem {m : SMap α} {k : Nat} {v : α} (hm : m.Pairwise fun p q => p.1 ≠ q.1) (h : (k, v) ∈ m) : smGet d m k = v := by
  induction m with
  | nil => cases h
  | cons p m ih =>
    rw [List.pairwise_cons] at hm
    rcases List.mem_cons.1 h with rfl | h
    · exact if_pos rfl
    · exact (if_neg (hm.1 _ h)).trans (ih hm.2 h)
/-- Entries of other keys filtered out do not matter. -/
theorem smGet_filter (m : SMap α) {k : Nat} {f : Nat × α → Bool} (h : ∀ v, f (k, v) = true) : smGet d (m.filter f) k = smGet d m k := by
  induction m with
  | nil => rfl
  | cons p m ih =>
    obtain ⟨j, v⟩ := p
    by_cases hj : j = k
    · subst hj
      rw [List.filter_cons_of_pos (h v), smGet, smGet, if_pos rfl, if_pos rfl]
    · cases hf : f (j, v) with
      | true => rw [List.filter_cons_of_pos hf, smGet, smGet, if_neg hj, if_neg hj, ih]
      | false => rw [List.filter_cons_of_neg (by simp [hf]), smGet, if_neg hj, ih]

variable [DecidableEq α]

theorem smGet_setMany_of_not_mem (m : SMap α) {xs : List (Nat × α)} {k : Nat} (h : ∀ p ∈ xs, p.1 ≠ k) :
    smGet d (smSetMany d m xs) k = smGet d m k := by
  induction xs generalizing m with
  | nil => rfl
  | cons x xs ih =>
    rw [List.forall_mem_cons] at h
    rw [smSetMany, ih _ h.2, smGet_set, if_neg (Ne.symm h.1)]
theorem smGet_setMany_of_mem (m : SMap α) {xs : List (Nat × α)} {k : Nat} {v : α} (hxs : xs.Pairwise fun p q => p.1 ≠ q.1)
    (h : (k, v) ∈ xs) : smGet d (smSetMany d m xs) k = v := by
  induction xs generalizing m with
  | nil => cases h
  | cons x xs ih =>
    rw [List.pairwise_cons] at hxs
    rcases List.mem_cons.1 h with rfl | h
    · rw [smSetMany, smGet_setMany_of_not_mem d _ fun p hp => (hxs.1 p hp).symm, smGet_set, if_pos rfl]
    · exact ih _ hxs.2 h

end

/-! ### A function over the cores that hold anything -/

theorem foldl_modCore_core {f : Core → Core} (hf : ∀ c, f (f c) = f c) (ns : List Nat) (s : State) (n : Nat) :
    (ns.foldl (fun s n => s.modCore n f) s).core n = if n ∈ ns then f (s.core n) else s.core n := by
  induction ns generalizing s with
  | nil => rfl
  | cons m ns ih =>
    rw [List.foldl_cons, ih, modCore_core]
    by_cases hm : n = m
    · subst hm; simp [hf]
    · simp [hm]
/-- A function that repeats itself and keeps a core that holds nothing reaches every core. -/
theorem mapCores_core {f : Core → Core} (hf : ∀ c, f (f c) = f c) (hdef : f {} = {}) (s : State) (n : Nat) :
    (s.mapCores f).core n = f (s.core n) := by
  unfold State.mapCores
  rw [foldl_modCore_core hf]
  split
  · rfl
  · next hn =>
    have hcore : s.core n = {} := smGet_of_not_mem dCore fun p hp he => hn (he ▸ List.mem_map_of_mem hp)
    rw [hcore, hdef]
/-- It changes nothing but the cores. -/
theorem mapCores_withCores (s : State) (f : Core → Core) : ∃ cs, s.mapCores f = s.withCores cs := by
  unfold State.mapCores
  exact forAll_induction (P := fun t => ∃ cs, t = s.withCores cs) _ (fun n t => t.modCore n f) ⟨s.cores, rfl⟩
    fun n t ⟨cs, ht⟩ => ⟨smSet dCore cs n (f (smGet dCore cs n)), by rw [ht]; rfl⟩

end Sys2Proof.Machine
end

section
/-! The page mover and invalidation (R306, R311). The words of the source that read as uncorrectable are counted, which changes no byte;
the copy then puts each byte of the source at its place. -/

namespace Sys2Proof.Machine

/-! ### What a copy leaves in memory -/

theorem movePage_copies {m : MemState} (src dst len : Nat) (hm : Canon memDefault m.cells) {i : Nat} (hi : i < len) :
    memByte (movePage m src dst len) (dst + i) = memByte m (src + i) := by
  have hkeys : m.cells.Pairwise fun p q => p.1 ≠ q.1 := hm.rising.imp Nat.ne_of_lt
  unfold movePage memByte
  dsimp only
  by_cases hcell : ∃ v, (src + i, v) ∈ m.cells
  · obtain ⟨v, hv⟩ := hcell
    rw [smGet_of_mem memDefault hkeys hv]
    refine smGet_setMany_of_mem memDefault _ (List.pairwise_map.2 ?_) (List.mem_map.2 ⟨(src + i, v), ?_, ?_⟩)
    · refine ((hkeys.filter _).imp_of_mem fun {p q} hp hq hne => ?_)
      simp only [List.mem_filter, Bool.and_eq_true, decide_eq_true_eq] at hp hq
      dsimp only
      omega
    · simp only [List.mem_filter, Bool.and_eq_true, decide_eq_true_eq]
      exact ⟨hv, by omega, by omega⟩
    · rw [Nat.add_sub_cancel_left, Nat.add_comm]
  · have hnone : ∀ p ∈ m.cells, p.1 ≠ src + i := fun p hp he => hcell ⟨p.2, he ▸ hp⟩
    rw [smGet_of_not_mem memDefault hnone, smGet_setMany_of_not_mem, smGet_of_not_mem]
    · rfl
    · intro p hp
      simp only [List.mem_filter, Bool.or_eq_true, decide_eq_true_eq] at hp
      omega
    · intro p hp
      obtain ⟨c, hc, rfl⟩ := List.mem_map.1 hp
      simp only [List.mem_filter, Bool.and_eq_true, decide_eq_true_eq] at hc
      have := hnone c hc.1
      dsimp only
      omega
theorem movePage_frame (m : MemState) (src dst len : Nat) {a : Nat} (ha : a < dst ∨ dst + len ≤ a) :
    memByte (movePage m src dst len) a = memByte m a := by
  unfold movePage memByte
  dsimp only
  rw [smGet_setMany_of_not_mem, smGet_filter]
  · intro v
    simpa using ha
  · intro p hp
    obtain ⟨c, hc, rfl⟩ := List.mem_map.1 hp
    simp only [List.mem_filter, Bool.and_eq_true, decide_eq_true_eq] at hc
    dsimp only
    omega

/-! ### Uncorrectable words counted -/

/-- What counting uncorrectable words leaves of memory and the log: all but the counts of the pseudo-channels. -/
structure UeNoted (s t : State) : Prop where
  mem : ∃ n, t.mem = { s.mem with pcUe := n }
  log : t.log = s.log
  counter : t.counter = s.counter
  regs : ∀ k, (∀ j, k ≠ Obj.memUeT0 + j % 4) → t.reg k = s.reg k

namespace UeNoted
variable {s0 s t : State}

theorem refl (s : State) : UeNoted s s := ⟨⟨_, rfl⟩, rfl, rfl, fun _ _ => rfl⟩
theorem trans (h : UeNoted s0 s) (h2 : UeNoted s t) : UeNoted s0 t := by
  obtain ⟨n, hn⟩ := h.mem
  obtain ⟨n2, hn2⟩ := h2.mem
  exact ⟨⟨n2, by rw [hn2, hn]⟩, h2.log.trans h.log, h2.counter.trans h.counter,
    fun k hk => (h2.regs k hk).trans (h.regs k hk)⟩

end UeNoted

/-- The objects after an uncorrectable word is counted: its tier's count has moved. -/
theorem noteUe_reg {s : State} {a t : Nat} (ht : tierOf a = some t) (k : Nat) :
    (noteUe s a).reg k = (s.bump (Obj.memUeT0 + t % 4) 1).reg k := by
  unfold noteUe
  rw [ht]
  dsimp only
  split <;> rfl
theorem noteUe_noted (s : State) (a : Nat) : UeNoted s (noteUe s a) := by
  cases ht : tierOf a with
  | none => unfold noteUe; rw [ht]; exact .refl s
  | some t =>
    have hregs (k : Nat) (hk : ∀ j, k ≠ Obj.memUeT0 + j % 4) : (noteUe s a).reg k = s.reg k := by
      rw [noteUe_reg ht, bump_reg, if_neg (hk t)]
    have hmoves : Moves (maskOf [.memory, .obj 0x60]) s (noteUe s a) := noteUe_moves s a (.refl _ s) (by decide)
    refine ⟨?_, hmoves.same .log rfl, hmoves.same .counter rfl, hregs⟩
    unfold noteUe
    rw [ht]
    dsimp only
    split
    · exact ⟨_, rfl⟩
    · exact ⟨_, rfl⟩
/-- The words of a list counted. -/
theorem notedAll (ws : List Nat) (s : State) : UeNoted s (forAll ws (fun w s => noteUe s (8 * w)) s) :=
  forAll_induction _ _ (.refl s) fun _ _ h => h.trans (noteUe_noted ..)

/-! ### The end of a move (R311) -/

/-- The words of the source that a move reads as uncorrectable, counted: the poisoned ones, and the others of `bad`. -/
def moveNoted (s : State) (src len : Nat) (bad : List Nat) : State :=
  let pois := (s.mem.poison.filter fun p => decide (src ≤ 8 * p.1) && decide (8 * p.1 < src + len)).map (·.1)
  forAll (pois ++ (bad.map (src / 8 + ·)).filter fun w => !pois.contains w) (fun w s => noteUe s (8 * w)) s
theorem moveNoted_noted (s : State) (src len : Nat) (bad : List Nat) : UeNoted s (moveNoted s src len bad) := notedAll _ s
/-- The copy, seen by every die, with the words of `bad` poisoned in the destination. -/
def moveCopied (s : State) (src dst len : Nat) (bad : List Nat) : State :=
  s.withMem { bad.foldl (fun m w => setPoison m (dst / 8 + w)) (seenByAll (movePage s.mem src dst len) dst len) with mover := none }
/-- The raced lines of the destination left open (R312). -/
def racedFreed (s : State) : State :=
  let t := forAll s.mem.raced.eraseDups (fun l s => freeBytes l 64 s) s
  t.withMem { t.mem with raced := [] }

theorem execPageMoveDone_moving {s : State} {src dst len : Nat} (bad : List Nat) (h : s.mem.mover = some (src, dst, len)) :
    execPageMoveDone bad s =
      let bad := bad.filter fun w => decide (8 * w < len)
      .next ((racedFreed (moveCopied (moveNoted s src len bad) src dst len bad)).setReg Obj.xlatMoveState
        (if poisoned s.mem src len || !bad.isEmpty then 3 else 2)) := by
  unfold execPageMoveDone
  rw [h]
  rfl

theorem racedFreed_mover (s : State) : (racedFreed s).mem.mover = s.mem.mover := by
  have hmoves : Moves (maskOf [.fresh, .cells]) s (forAll s.mem.raced.eraseDups (fun l s => freeBytes l 64 s) s) :=
    forAll_moves _ _ (.refl _ s) fun _ _ h => freeBytes_moves _ _ _ h (by decide)
  have hmem := congrArg MemState.mover (hmoves.same .memory rfl)
  exact hmem
theorem racedFreed_of_none {s : State} (h : s.mem.raced = []) : (racedFreed s).mem = { s.mem with raced := [] } := by
  unfold racedFreed
  rw [h]
  rfl

theorem setMoveState_reg (s : State) {v : Nat} (hv : v < 256) : (s.setReg Obj.xlatMoveState v).reg Obj.xlatMoveState = v :=
  (setReg_reg ..).trans ((if_pos rfl).trans (Nat.mod_eq_of_lt hv))

/-- A move ends: the mover is free, and its state says whether a word of the source was uncorrectable (R311). -/
theorem pageMoveDone_leads {s : State} {src dst len : Nat} (bad : List Nat) (h : s.mem.mover = some (src, dst, len)) :
    Leads (.pageMoveDone bad) s fun t => t.mem.mover = none ∧ t.reg Obj.xlatMoveState =
      if poisoned s.mem src len || !(bad.filter fun w => decide (8 * w < len)).isEmpty then 3 else 2 :=
  ⟨_, execPageMoveDone_moving bad h, racedFreed_mover _, setMoveState_reg _ (by split <;> decide)⟩

/-- Settles O6: words counted and raced lines apart, memory is what the copy leaves. -/
theorem pageMoveCopiesBytes : Obligations.PageMoveCopiesBytes := by
  intro s src dst len hmover hwf hraced _
  have hcanon : Canon memDefault s.mem.cells := by
    simp only [Memory.wf, Bool.and_eq_true, canon_iff] at hwf
    exact hwf.1
  obtain ⟨n, hnoted⟩ := (moveNoted_noted s src len []).mem
  have hfree : (moveCopied (moveNoted s src len []) src dst len []).mem.raced = [] :=
    (congrArg MemState.raced hnoted).trans hraced
  have hbytes (a : Nat) : memByte (racedFreed (moveCopied (moveNoted s src len []) src dst len [])).mem a =
      memByte (movePage s.mem src dst len) a := by
    rw [racedFreed_of_none hfree, moveCopied, hnoted]
    rfl
  refine ⟨_, execPageMoveDone_moving [] hmover, fun i hi => ?_, fun a ha => ?_⟩
  · exact (hbytes _).trans (movePage_copies src dst len hcanon hi)
  · exact (hbytes _).trans (movePage_frame s.mem src dst len ha)

/-! ### Invalidation (R306) -/

theorem xlatInvalWrite_free {s : State} {v : Nat} (hlow : bitsOf v 2 14 = 0) (hhigh : bitsOf v 48 16 = 0) (hfree : s.mem.inval = none) :
    xlatInvalWrite v s = Ans.ok ((s.withMem { s.mem with inval := some (invalRange v) }).setReg Obj.xlatInvalState 1) := by
  unfold xlatInvalWrite
  rw [if_neg (by simp [hlow, hhigh]), if_neg (by simp [hfree])]

theorem tlbDrop_tlb (r : Nat × Nat) (c : Core) (e : TlbEntry) :
    e ∈ (tlbDrop r c).tlb ↔ e ∈ c.tlb ∧ (e.va + e.size ≤ r.1 ∨ r.1 + r.2 ≤ e.va) := by
  simp [tlbDrop]
theorem tlbDrop_idem (r : Nat × Nat) (c : Core) : tlbDrop r (tlbDrop r c) = tlbDrop r c := by
  simp [tlbDrop]
/-- Every core without the entries that meet a range. -/
theorem mapCores_tlbDrop (s : State) (r : Nat × Nat) (n : Nat) : (s.mapCores (tlbDrop r)).core n = tlbDrop r (s.core n) :=
  mapCores_core (tlbDrop_idem r) rfl s n

/-- The invalidation ended: the entries that meet its range are gone from every core. -/
def invalidated (s : State) (r : Nat × Nat) : State :=
  let t := s.mapCores (tlbDrop r)
  (t.withMem { t.mem with inval := none }).setReg Obj.xlatInvalState 0
theorem execXlatInvalDone_landed {s : State} {r : Nat × Nat} (h : s.mem.inval = some r) (hland : inFlight s r = false) :
    execXlatInvalDone s = .next (invalidated s r) := by
  unfold execXlatInvalDone
  rw [h]
  exact if_neg (by rw [hland]; decide)
theorem invalidated_tlb (s : State) (r : Nat × Nat) (n : Nat) (e : TlbEntry) :
    e ∈ ((invalidated s r).core n).tlb ↔ e ∈ (s.core n).tlb ∧ (e.va + e.size ≤ r.1 ∨ r.1 + r.2 ≤ e.va) := by
  rw [← tlbDrop_tlb, ← mapCores_tlbDrop]
  exact Iff.rfl

/-! ### The start of a move (R311), and the fault ring's tail (R307) -/

theorem pageMoveGo_starts {s : State} (h : moveRefused s = false) : pageMoveGo s = Ans.ok ((s.withMem { s.mem with
    mover := some (s.reg Obj.xlatMoveSrc, s.reg Obj.xlatMoveDst, s.reg Obj.xlatMoveLen), raced := [] }).setReg Obj.xlatMoveState 1) :=
  if_neg (by rw [h]; decide)

/-- Draining the ring moves its head and the count of the records held. -/
theorem fqDrain_reg (hs : List HeldFault) (s : State) {k : Nat} (hhead : k ≠ Obj.xlatFqHead) (hheld : k ≠ Obj.xlatFqHeld) :
    (fqDrain hs s).reg k = s.reg k := by
  induction hs generalizing s with
  | nil => rfl
  | cons h hs ih =>
    unfold fqDrain
    split
    · rfl
    · dsimp only
      rw [ih, setReg_reg, if_neg hheld, withMem_reg, fqWrite_reg _ _ hhead]

/-- Settles O5: each clause from the equation of its command where its conditions hold. -/
theorem translationCommandsComplete : Obligations.TranslationCommandsComplete := by
  refine fun s => ⟨?accepted, ?ended, ?starts, ?copied, ?uncorrectable, ?tail⟩
  case accepted =>
    intro q v hq hlow hhigh hfree
    have hrun := (dictWrite_takes (xlatInvalWrite v.toNat) hq).trans (by rw [xlatInvalWrite_free hlow hhigh hfree])
    refine ⟨_, congrArg Host.Outcome.next hrun, rfl, ?_, answered_answers ..⟩
    rw [answered_reg _ _ _ _ _ (by decide), Ans.ok, setReg_reg, if_pos rfl]
    rfl
  case ended =>
    intro r hinval hland
    refine ⟨_, execXlatInvalDone_landed hinval hland, rfl, ?_, fun n e he => (invalidated_tlb s r n e).1 he,
      fun n e he hout => (invalidated_tlb s r n e).2 ⟨he, hout⟩⟩
    rw [invalidated, setReg_reg, if_pos rfl]
    rfl
  case starts =>
    intro q hq hok
    have hrun := (dictAction_takes (v := 1) pageMoveGo hq).trans (by rw [if_pos rfl, pageMoveGo_starts hok])
    refine ⟨_, congrArg Host.Outcome.next hrun, rfl, ?_, answered_answers ..⟩
    rw [answered_reg _ _ _ _ _ (by decide), Ans.ok]
    exact setMoveState_reg _ (by decide)
  case copied =>
    intro src dst len hmover hclean
    obtain ⟨t, hrun, hfree, hstate⟩ := pageMoveDone_leads [] hmover
    exact ⟨t, hrun, hfree, hstate.trans (by rw [hclean]; rfl)⟩
  case uncorrectable =>
    intro src dst len bad hmover hpoison
    obtain ⟨t, hrun, hfree, hstate⟩ := pageMoveDone_leads bad hmover
    exact ⟨t, hrun, hfree, hstate.trans (by rw [hpoison]; rfl)⟩
  case tail =>
    intro q v hq
    refine ⟨_, execFqTailWrite_takes v hq, ?_, answered_answers ..⟩
    rw [answered_reg _ _ _ _ _ (by decide), Ans.ok, fqDrain_reg _ _ (by decide) (by decide)]
    exact setTail_tail s v

end Sys2Proof.Machine
end

section
/-! Retirement of a pseudo-channel (R300, R301). The rebuild's copy counts the words it reads as uncorrectable, which leaves the sets of
retired ways. -/

namespace Sys2Proof.Machine

/-! ### The request (R300) -/

theorem memRetireWrite_formed {v : Nat} (s : State) (hres : bitsOf v 10 6 = 0) (hbit : bitOf v 7 = false) :
    memRetireWrite v s =
      if retireRefused s (bitsOf v 8 2) (bitsOf v 0 7) then Ans.refuse stState (retireRequest s (bitsOf v 8 2) (bitsOf v 0 7))
      else Ans.ok (retireRequest s (bitsOf v 8 2) (bitsOf v 0 7)) := by
  unfold memRetireWrite
  rw [if_neg (by simp [hres, hbit])]
theorem retireRequest_taken {s : State} {die way : Nat} (h : retireRefused s die way = false) :
    retireRequest s die way = (s.withMem { s.mem with retire := some (die, way) }).setReg Obj.memRetireState 1 :=
  if_neg (by rw [h]; decide)
theorem retireRequest_refused {s : State} {die way : Nat} (h : retireRefused s die way = true) :
    retireRequest s die way = raise (s.setReg Obj.memRetireState 3) 0x6A06 .note (uDie die) := if_pos h
theorem setRetireState_reg (s : State) {v : Nat} (hv : v < 256) : (s.setReg Obj.memRetireState v).reg Obj.memRetireState = v :=
  (setReg_reg ..).trans ((if_pos rfl).trans (Nat.mod_eq_of_lt hv))

/-! ### The rebuild (R301) -/

theorem execRetireRebuildStart_ready {s : State} (hreq : s.mem.retire.isSome = true) (hheld : s.held .rebuild = false)
    (hstop : s.reg Obj.ckptState ≠ 1) (hbound : s.allAtBoundary = true) (hruns : s.stopped = false) :
    execRetireRebuildStart s = .next ((stopRewind (s.addHold .rebuild)).setReg Obj.memRetireState 2) := by
  have hsome : s.mem.retire.isNone = false := by simpa using hreq
  exact if_neg (by simp [hsome, hheld, hstop, hbound, hruns])
theorem addHold_held (s : State) (h : Hold) : (s.addHold h).held h = true := by
  unfold State.addHold
  split
  · assumption
  · simp [State.held]
theorem dropHold_held (s : State) (h : Hold) : (s.dropHold h).held h = false := by simp [State.dropHold, State.held]
theorem stopRewind_holds (s : State) : (stopRewind s).holds = s.holds := (stopRewind_moves s (.refl _ s) (.refl _)).same .holds rfl

theorem size_memRetiredC0_add (die : Nat) : objSize (objPart (Obj.memRetiredC0 + die % 4)) = 16 :=
  (by decide : ∀ m : Fin 4, objSize (objPart (Obj.memRetiredC0 + m.val)) = 16) ⟨die % 4, Nat.mod_lt _ (by decide)⟩
theorem mem_retired (s : State) (die w : Nat) : w ∈ s.retired die ↔ w < 128 ∧ bitOf (s.reg (Obj.memRetiredC0 + die % 4)) w = true := by
  simp [State.retired]
theorem retired_congr {s t : State} {die : Nat} (h : t.reg (Obj.memRetiredC0 + die % 4) = s.reg (Obj.memRetiredC0 + die % 4)) :
    t.retired die = s.retired die := by
  unfold State.retired; rw [h]

/-- A way entered among the retired ones of its die. -/
def wayRetired (s : State) (die way : Nat) : State :=
  s.setReg (Obj.memRetiredC0 + die % 4) (s.reg (Obj.memRetiredC0 + die % 4) ||| 2 ^ way)
theorem mem_wayRetired (s : State) (die w : Nat) {way : Nat} (hway : way < 128) :
    w ∈ (wayRetired s die way).retired die ↔ w = way ∨ w ∈ s.retired die := by
  have hpow : 256 ^ 16 = 2 ^ 128 := rfl
  have hbit (hw : w < 128) : bitOf ((wayRetired s die way).reg (Obj.memRetiredC0 + die % 4)) w =
      (bitOf (s.reg (Obj.memRetiredC0 + die % 4)) w || decide (way = w)) := by
    rw [wayRetired, setReg_reg, if_pos rfl, size_memRetiredC0_add, hpow, bitOf, Nat.testBit_mod_two_pow, Nat.testBit_or,
      Nat.testBit_two_pow, decide_eq_true hw, Bool.true_and]
    rfl
  rw [mem_retired, mem_retired]
  constructor
  · rintro ⟨hw, hset⟩
    rw [hbit hw, Bool.or_eq_true, decide_eq_true_eq] at hset
    exact hset.elim (fun h => .inr ⟨hw, h⟩) fun h => .inl h.symm
  · rintro (rfl | ⟨hw, hset⟩)
    · exact ⟨hway, by rw [hbit hway]; simp⟩
    · exact ⟨hw, by rw [hbit hw, hset]; rfl⟩

/-- The words of `bad` in granules that the copy of a die's rebuild reads. -/
def copiedWords (s : State) (die : Nat) (bad : List Nat) : List Nat :=
  bad.filter fun w => decide (8 * w / 2 ^ 38 = die) && (foldIndex (s.retired die) (8 * w % 2 ^ 38 / 256)).isSome
/-- The copy made, with its uncorrectable words counted, and no request pending. -/
def rebuildCopied (s : State) (die : Nat) (bad : List Nat) : State :=
  let t := forAll (copiedWords s die bad) (fun w s => noteUe s (8 * w)) s
  t.withMem { rebuilt t.mem die (t.reg Obj.memRebuildPool) (t.retired die) (copiedWords s die bad) with retire := none }
/-- The end of the rebuild before its event: no core holds a translation, and steps may start. -/
def rebuildEnded (s : State) : State :=
  ((s.mapCores fun c => { c with tlb := [] }).dropHold .rebuild).setReg Obj.memRetireState 0

theorem execRetireRebuildDone_held {s : State} {die way : Nat} (bad : List Nat) (hreq : s.mem.retire = some (die, way))
    (hheld : s.held .rebuild = true) : execRetireRebuildDone bad s =
      .next (raise (rebuildEnded (rebuildCopied (wayRetired s die way) die bad)) 0x6A05 .degrade (uDie die)) := by
  unfold execRetireRebuildDone
  rw [hreq]
  exact if_neg (by rw [hheld]; decide)

theorem rebuildCopied_reg (s : State) (die : Nat) (bad : List Nat) {k : Nat} (hk : ∀ j, k ≠ Obj.memUeT0 + j % 4) :
    (rebuildCopied s die bad).reg k = s.reg k := (notedAll _ s).regs k hk
theorem rebuildCopied_log (s : State) (die : Nat) (bad : List Nat) : (rebuildCopied s die bad).log = s.log := (notedAll _ s).log
theorem rebuildCopied_counter (s : State) (die : Nat) (bad : List Nat) : (rebuildCopied s die bad).counter = s.counter :=
  (notedAll _ s).counter

/-- What the end of the rebuild leaves of the state. -/
theorem rebuildEnded_eq (s : State) : ∃ cs, rebuildEnded s = ((s.withCores cs).dropHold .rebuild).setReg Obj.memRetireState 0 := by
  obtain ⟨cs, hcs⟩ := mapCores_withCores s fun c => { c with tlb := [] }
  exact ⟨cs, by rw [rebuildEnded, hcs]⟩
theorem rebuildEnded_mem (s : State) : (rebuildEnded s).mem = s.mem := by
  obtain ⟨cs, hcs⟩ := rebuildEnded_eq s; rw [hcs]; rfl
theorem rebuildEnded_log (s : State) : (rebuildEnded s).log = s.log := by
  obtain ⟨cs, hcs⟩ := rebuildEnded_eq s; rw [hcs]; rfl
theorem rebuildEnded_counter (s : State) : (rebuildEnded s).counter = s.counter := by
  obtain ⟨cs, hcs⟩ := rebuildEnded_eq s; rw [hcs]; rfl
theorem rebuildEnded_reg (s : State) {k : Nat} (hk : k ≠ Obj.memRetireState) : (rebuildEnded s).reg k = s.reg k := by
  obtain ⟨cs, hcs⟩ := rebuildEnded_eq s
  rw [hcs, setReg_reg, if_neg hk]
  rfl
theorem rebuildEnded_state (s : State) : (rebuildEnded s).reg Obj.memRetireState = 0 := setRetireState_reg _ (by decide)
theorem rebuildEnded_held (s : State) : (rebuildEnded s).held .rebuild = false := dropHold_held ..
theorem rebuildEnded_tlb (s : State) (n : Nat) : ((rebuildEnded s).core n).tlb = [] :=
  congrArg Core.tlb (mapCores_core (f := fun c => { c with tlb := [] }) (fun _ => rfl) rfl s n)

/-- The ways retired when the rebuild of a die ends: those of before, and the one asked for. -/
theorem mem_retired_rebuilt (s : State) {die way : Nat} (bad : List Nat) (hway : way < 128) (w : Nat) :
    w ∈ (rebuildEnded (rebuildCopied (wayRetired s die way) die bad)).retired die ↔ w = way ∨ w ∈ s.retired die := by
  have hstate : Obj.memRetiredC0 + die % 4 ≠ Obj.memRetireState := by unfold Obj.memRetiredC0 Obj.memRetireState ob; omega
  have hcount (j : Nat) : Obj.memRetiredC0 + die % 4 ≠ Obj.memUeT0 + j % 4 := by unfold Obj.memRetiredC0 Obj.memUeT0 ob; omega
  rw [retired_congr ((rebuildEnded_reg _ hstate).trans (rebuildCopied_reg _ die bad hcount))]
  exact mem_wayRetired s die w hway

/-- Settles O4: each clause from the equation of its command where its conditions hold. -/
theorem retirementCompletes : Obligations.RetirementCompletes := by
  refine fun s => ⟨?accepted, ?refused, ?starts, ?ends⟩
  case accepted =>
    intro q v hq hres hbit hok
    have hrun := (dictWrite_takes (memRetireWrite v.toNat) hq).trans (by
      rw [memRetireWrite_formed s hres hbit, hok, if_neg Bool.false_ne_true, retireRequest_taken hok])
    refine ⟨_, congrArg Host.Outcome.next hrun, rfl, ?_, answered_answers ..⟩
    rw [answered_reg _ _ _ _ _ (by decide)]
    exact setRetireState_reg _ (by decide)
  case refused =>
    intro q v hq hres hbit hno
    have hrun := (dictWrite_takes (memRetireWrite v.toNat) hq).trans (by
      rw [memRetireWrite_formed s hres hbit, hno, if_pos rfl, retireRequest_refused hno])
    refine ⟨_, congrArg Host.Outcome.next hrun, ?_, ?_, answered_answers .., ?_⟩
    · exact congrArg MemState.retire (raise_mem ..)
    · rw [answered_reg _ _ _ _ _ (by decide)]
      exact (raise_reg _ _ _ _ _ _ (by decide)).trans (setRetireState_reg _ (by decide))
    · exact ((raise_reports (s.setReg Obj.memRetireState 3) 0x6A06 .note (uDie _) noPos).of_same rfl rfl).then rfl
  case starts =>
    intro hreq hheld hstop hbound hruns
    refine ⟨_, execRetireRebuildStart_ready hreq hheld hstop hbound hruns, ?_, setRetireState_reg _ (by decide)⟩
    rw [State.held, setReg_holds, stopRewind_holds]
    exact addHold_held s .rebuild
  case ends =>
    intro bad die way hreq hheld hway
    have hretired (w : Nat) : w ∈ (raise (rebuildEnded (rebuildCopied (wayRetired s die way) die bad)) 0x6A05 .degrade
        (uDie die)).retired die ↔ w = way ∨ w ∈ s.retired die := by
      rw [retired_congr (raise_reg _ _ _ _ _ _ (by rw [page_memRetiredC0_add]; decide)), mem_retired_rebuilt s bad hway]
    refine ⟨_, execRetireRebuildDone_held bad hreq hheld, ?_, (hretired way).2 (.inl rfl), fun w hw => (hretired w).2 (.inr hw), ?_, ?_,
      fun n => ?_, ?_⟩
    · rw [raise_mem, rebuildEnded_mem]
      rfl
    · rw [State.held, raise_holds]
      exact rebuildEnded_held _
    · exact (raise_reg _ _ _ _ _ _ (by decide)).trans (rebuildEnded_state _)
    · rw [raise_core]
      exact rebuildEnded_tlb _ n
    · exact (raise_reports _ _ _ _ _).of_same ((rebuildEnded_log _).trans (rebuildCopied_log ..))
        ((rebuildEnded_counter _).trans (rebuildCopied_counter ..))

end Sys2Proof.Machine
end

section
/-! A word read by the scrubber, and an expander lost (R296–R299). -/

namespace Sys2Proof.Machine

/-! ### Words counted for their tier (R296) -/

theorem bump_u64 (s : State) {k : Nat} (hk : objSize (objPart k) = 8) : (s.bump k 1).reg k = min (s.reg k + 1) (2 ^ 64 - 1) :=
  (bump_reg ..).trans ((if_pos rfl).trans (congrArg (fun n => min (s.reg k + 1) (256 ^ n - 1)) hk))
theorem size_memCeT0_add {t : Nat} (ht : t < 3) : objSize (objPart (Obj.memCeT0 + t)) = 8 :=
  (by decide : ∀ m : Fin 3, objSize (objPart (Obj.memCeT0 + m.val)) = 8) ⟨t, ht⟩
theorem size_memUeT0_add {t : Nat} (ht : t < 3) : objSize (objPart (Obj.memUeT0 + t)) = 8 :=
  (by decide : ∀ m : Fin 3, objSize (objPart (Obj.memUeT0 + m.val)) = 8) ⟨t, ht⟩
theorem memCeT0_ne_memUeT0 {t j : Nat} (ht : t < 3) (hj : j < 3) : Obj.memCeT0 + t ≠ Obj.memUeT0 + j := by
  unfold Obj.memCeT0 Obj.memUeT0 ob; omega

/-- The tiers begin at whole words. -/
theorem tierOf_word (a : Nat) : tierOf (a / 8 * 8) = tierOf a := by
  have hword (n : Nat) : (a / 8 * 8 < 8 * n) = (a < 8 * n) := propext (by omega)
  exact ite_congr (hword 0x002000000000) (fun _ => rfl) fun _ => ite_congr (hword 0x004000000000) (fun _ => rfl) fun _ =>
    ite_congr (hword 0x008000000000) (fun _ => rfl) fun _ => ite_congr (hword 0x00A000000000) (fun _ => rfl) fun _ => rfl

theorem retireRequest_reg (s : State) (die way : Nat) {k : Nat} (hstate : k ≠ Obj.memRetireState) (hpage : page k ≠ 0x23) :
    (retireRequest s die way).reg k = s.reg k := by
  unfold retireRequest
  split
  · rw [raise_reg _ _ _ _ _ _ hpage, setReg_reg, if_neg hstate]
  · rw [setReg_reg, if_neg hstate, withMem_reg]
/-- The objects after a corrected word is counted: its tier's count has moved; a limit passed can move the alert and a retirement. -/
theorem noteCe_reg {s : State} {a t k : Nat} (ht : tierOf a = some t) (hstate : k ≠ Obj.memRetireState) (hpage : page k ≠ 0x23) :
    (noteCe s a).reg k = (s.bump (Obj.memCeT0 + t % 4) 1).reg k := by
  unfold noteCe
  rw [ht]
  dsimp only
  split
  · rfl
  · split
    · split
      · rw [retireRequest_reg _ _ _ hstate hpage, raise_reg _ _ _ _ _ _ hpage, withMem_reg]
      · rw [raise_reg _ _ _ _ _ _ hpage, withMem_reg]
    · rfl

/-- A corrected word of T0, T1 or T2 is counted as one, and not as an uncorrectable one. -/
theorem noteCe_counts {s : State} {a t : Nat} (ht : tierOf a = some t) (h3 : t < 3) :
    (noteCe s a).reg (Obj.memCeT0 + t) = min (s.reg (Obj.memCeT0 + t) + 1) (2 ^ 64 - 1) ∧
      (noteCe s a).reg (Obj.memUeT0 + t) = s.reg (Obj.memUeT0 + t) := by
  have hmod : t % 4 = t := Nat.mod_eq_of_lt (by omega)
  constructor
  · rw [noteCe_reg ht (by unfold Obj.memCeT0 Obj.memRetireState ob; omega) (by unfold page Obj.memCeT0 ob; omega), hmod]
    exact bump_u64 s (size_memCeT0_add h3)
  · rw [noteCe_reg ht (by unfold Obj.memUeT0 Obj.memRetireState ob; omega) (by unfold page Obj.memUeT0 ob; omega), hmod, bump_reg,
      if_neg (memCeT0_ne_memUeT0 h3 h3).symm]
/-- An uncorrectable one the other way round. -/
theorem noteUe_counts {s : State} {a t : Nat} (ht : tierOf a = some t) (h3 : t < 3) :
    (noteUe s a).reg (Obj.memUeT0 + t) = min (s.reg (Obj.memUeT0 + t) + 1) (2 ^ 64 - 1) ∧
      (noteUe s a).reg (Obj.memCeT0 + t) = s.reg (Obj.memCeT0 + t) := by
  have hmod : t % 4 = t := Nat.mod_eq_of_lt (by omega)
  constructor
  · rw [noteUe_reg ht, hmod]
    exact bump_u64 s (size_memUeT0_add h3)
  · rw [noteUe_reg ht, hmod, bump_reg, if_neg (memCeT0_ne_memUeT0 h3 h3)]

/-! ### A word read (R297, R298) -/

theorem readStat_corrected {s : State} {a n : Nat} (h : poisoned s.mem a n = false) : readStat s a n .ce = (false, noteCe s a) := by
  unfold readStat
  rw [if_neg (by rw [h]; decide)]
theorem readStat_ok {s : State} {a n : Nat} (h : poisoned s.mem a n = false) : readStat s a n .ok = (false, s) := by
  unfold readStat
  rw [if_neg (by rw [h]; decide)]
theorem readStat_uncorrectable {s : State} {a n : Nat} {st : WordStat} (h : st = .ue ∨ poisoned s.mem a n = true) :
    readStat s a n st = (true, noteUe s a) := by
  refine if_pos ?_
  rcases h with rfl | h
  · exact Bool.or_true _
  · rw [h]; rfl

theorem sysDraw_reg (s : State) (a n k : Nat) : (sysDraw s a n).reg k = s.reg k := by unfold sysDraw; split <;> rfl
theorem sysDraw_mem (s : State) (a n : Nat) : (sysDraw s a n).mem = s.mem := by unfold sysDraw; split <;> rfl

/-- The word at an address that the scrubber reads, with what its check bits say. -/
def scrubbed (s : State) (a : Nat) (st : WordStat) : State := (readStat (sysDraw s a 1) (a / 8 * 8) 8 st).2
/-- On-die corrections counted for a pseudo-channel of T0. -/
def odeccCounted (s : State) (pc n : Nat) : State :=
  s.withMem { s.mem with pcOdecc := smSet zeroWord s.mem.pcOdecc pc (min (smGet zeroWord s.mem.pcOdecc pc + n) (2 ^ 32 - 1)) }

/-- A present word of T0, T1 or T2 is read, and in T0 its on-die corrections are counted. -/
theorem execScrubWord_present {s : State} {addr : BitVec 48} {k : Nat} (st : WordStat) (odecc : BitVec 32)
    (ht : tierOf addr.toNat = some k) (h3 : k < 3) (hthere : s.present addr.toNat = true) : execScrubWord addr st odecc s =
      if k = 0 then .next (odeccCounted (scrubbed s addr.toNat st) ((scrubbed s addr.toNat st).pcOf addr.toNat) odecc.toNat)
      else .next (scrubbed s addr.toNat st) := by
  unfold execScrubWord
  dsimp only
  rw [ht]
  exact if_neg (by simp [h3, hthere])
/-- Whatever the tier, the objects are those that the read leaves. -/
theorem scrubWord_reg {s : State} {addr : BitVec 48} {k : Nat} (st : WordStat) (odecc : BitVec 32)
    (ht : tierOf addr.toNat = some k) (h3 : k < 3) (hthere : s.present addr.toNat = true) :
    Leads (.scrubWord addr st odecc) s fun t => ∀ j, t.reg j = (scrubbed s addr.toNat st).reg j := by
  have hrun := execScrubWord_present st odecc ht h3 hthere
  by_cases h0 : k = 0
  · rw [if_pos h0] at hrun
    exact ⟨_, hrun, fun _ => rfl⟩
  · rw [if_neg h0] at hrun
    exact ⟨_, hrun, fun _ => rfl⟩

theorem pcOf_congr {s t : State} (h : ∀ k, t.reg k = s.reg k) (a : Nat) : t.pcOf a = s.pcOf a := by
  unfold State.pcOf State.t0Cell State.retired State.activeWays
  simp only [h]

/-! ### An expander lost (R299) -/

theorem tierOf_cxl {a : Nat} (hlow : 0x020000000000 ≤ a) (hhigh : a < 0x040000000000) : tierOf a = some 2 := by
  unfold tierOf
  rw [if_neg (by omega), if_neg (by omega), if_pos hhigh]
/-- No address of a lost expander's range is in the capacity present. -/
theorem installed_of_lost {s : State} {port a : Nat} (hport : port < 2) (hlost : port ∈ s.mem.lost)
    (hlow : 0x020000000000 + port * 2 ^ 40 ≤ a) (hhigh : a < 0x020000000000 + (port + 1) * 2 ^ 40) : s.installed a = false := by
  have hrange : (a - 0x020000000000) / 2 ^ 40 = port := by omega
  unfold State.installed
  rw [tierOf_cxl (by omega) (by omega)]
  dsimp only
  rw [hrange, List.contains_iff_mem.2 hlost]
  rfl
/-- An expander lost, before its event. -/
def expanderGone (s : State) (port : Nat) : State := s.withMem { s.mem with lost := port :: s.mem.lost }
theorem execCxlExpanderLost_there {s : State} {port : Fin 2} (h : port.val ∉ s.mem.lost) :
    execCxlExpanderLost port s = .next (raise (expanderGone s port) 0x6A14 .degrade (uEdge (4 + port.val))) :=
  if_neg (by simpa using h)

/-- Settles O3: the counts from what a word's status counts, and the lost range from the tier of its addresses. -/
theorem memoryTiersComplete : Obligations.MemoryTiersComplete := by
  refine fun s => ⟨?corrected, ?uncorrectable, ?odecc, ?lost⟩
  case corrected =>
    intro addr odecc k ht h3 hthere hclean
    obtain ⟨t, hrun, hregs⟩ := scrubWord_reg .ce odecc ht h3 hthere
    obtain ⟨hce, hue⟩ := noteCe_counts (s := sysDraw s addr.toNat 1) ((tierOf_word _).trans ht) h3
    have hread : scrubbed s addr.toNat .ce = noteCe (sysDraw s addr.toNat 1) (addr.toNat / 8 * 8) :=
      congrArg Prod.snd (readStat_corrected (by rw [sysDraw_mem]; exact hclean))
    refine ⟨t, hrun, ?_, ?_⟩
    · rw [hregs, hread, hce, sysDraw_reg]
    · rw [hregs, hread, hue, sysDraw_reg]
  case uncorrectable =>
    intro addr st odecc k ht h3 hthere hbad
    obtain ⟨t, hrun, hregs⟩ := scrubWord_reg st odecc ht h3 hthere
    obtain ⟨hue, hce⟩ := noteUe_counts (s := sysDraw s addr.toNat 1) ((tierOf_word _).trans ht) h3
    have hread : scrubbed s addr.toNat st = noteUe (sysDraw s addr.toNat 1) (addr.toNat / 8 * 8) :=
      congrArg Prod.snd (readStat_uncorrectable (by rw [sysDraw_mem]; exact hbad))
    refine ⟨t, hrun, ?_, ?_⟩
    · rw [hregs, hread, hue, sysDraw_reg]
    · rw [hregs, hread, hce, sysDraw_reg]
  case odecc =>
    intro addr odecc ht hthere hclean
    have hread : scrubbed s addr.toNat .ok = sysDraw s addr.toNat 1 :=
      congrArg Prod.snd (readStat_ok (by rw [sysDraw_mem]; exact hclean))
    have hrun := execScrubWord_present .ok odecc ht (by decide) hthere
    rw [if_pos rfl, hread, pcOf_congr (sysDraw_reg s _ 1)] at hrun
    refine ⟨_, hrun, ?_, sysDraw_reg s _ 1⟩
    rw [odeccCounted, sysDraw_mem]
    exact (smGet_set ..).trans (if_pos rfl)
  case lost =>
    intro port hthere
    refine ⟨_, execCxlExpanderLost_there hthere, fun a hlow hhigh => installed_of_lost port.isLt ?_ hlow hhigh,
      (raise_reports _ _ _ _ _).of_same rfl rfl⟩
    rw [raise_mem]
    exact List.mem_cons_self

end Sys2Proof.Machine
end

section
/-! Rill ports read back: a port after it was set, the objects of a port (page 0x71), and what holding, queueing and checking leave. -/

namespace Sys2Proof.Machine

/-! ### The objects of a port (R348) -/

/-- Objects of different subindices are different, whatever their ports. -/
theorem ob_ne_of_sub {i j a b : Nat} (ha : a < 256) (hb : b < 256) (h : a ≠ b) : ob i a ≠ ob j b := by
  unfold ob; omega

theorem setReg_reg_of_sub (s : State) (k v : Nat) {j : Nat} (h : j % 256 ≠ k % 256) : (s.setReg k v).reg j = s.reg j :=
  (setReg_reg ..).trans (if_neg fun he => h (congrArg (· % 256) he))
theorem bump_reg_of_sub (s : State) (k n : Nat) {j : Nat} (h : j % 256 ≠ k % 256) : (s.bump k n).reg j = s.reg j :=
  setReg_reg_of_sub s k _ h
@[simp] theorem sub_rillPState (n : Nat) : Obj.rillPState n % 256 = 1 := by unfold Obj.rillPState ob; omega
@[simp] theorem sub_rillPLanes (n : Nat) : Obj.rillPLanes n % 256 = 2 := by unfold Obj.rillPLanes ob; omega
@[simp] theorem sub_rillPFailed (n : Nat) : Obj.rillPFailed n % 256 = 3 := by unfold Obj.rillPFailed ob; omega
@[simp] theorem sub_rillPNbr (n : Nat) : Obj.rillPNbr n % 256 = 4 := by unfold Obj.rillPNbr ob; omega
@[simp] theorem sub_rillPNbrOk (n : Nat) : Obj.rillPNbrOk n % 256 = 5 := by unfold Obj.rillPNbrOk ob; omega
@[simp] theorem sub_rillPReplays (n : Nat) : Obj.rillPReplays n % 256 = 6 := by unfold Obj.rillPReplays ob; omega
@[simp] theorem sub_rillPCe (n : Nat) : Obj.rillPCe n % 256 = 7 := by unfold Obj.rillPCe ob; omega
@[simp] theorem sub_rillPUe (n : Nat) : Obj.rillPUe n % 256 = 8 := by unfold Obj.rillPUe ob; omega

@[simp] theorem size_rillPState (n : Nat) : objSize (objPart (Obj.rillPState n)) = 1 :=
  (by decide : ∀ m : Fin 6, objSize (objPart (ob (0x7100 + m.val) 0x01)) = 1) ⟨n % 6, Nat.mod_lt _ (by decide)⟩

/-- An object that neither an event nor a flit that is held or queued nor a neighbour that is checked changes. -/
structure Settled (k : Nat) : Prop where
  page : page k ≠ 0x23
  held : k ≠ Obj.rillHeldFlits
  missed : ∀ p, k ≠ Obj.rillPSlotMiss p
  neighbour : ∀ p, k ≠ Obj.rillPNbrOk p

/-- An object of a port is settled, but for `RILL.P_NBR_OK` and `RILL.P_SLOT_MISS`. -/
theorem settled_of_sub {n a : Nat} (ha : a < 256) (hok : a ≠ 0x05) (hmiss : a ≠ 0x0A) : Settled (ob (0x7100 + n % 6) a) where
  page := by unfold Machine.page ob; omega
  held := by unfold Obj.rillHeldFlits ob; omega
  missed _ := ob_ne_of_sub ha (by decide) hmiss
  neighbour _ := ob_ne_of_sub ha (by decide) hok
theorem settled_rillPState (p : Nat) : Settled (Obj.rillPState p) := settled_of_sub (by decide) (by decide) (by decide)
theorem settled_rillPLanes (p : Nat) : Settled (Obj.rillPLanes p) := settled_of_sub (by decide) (by decide) (by decide)
theorem settled_rillPFailed (p : Nat) : Settled (Obj.rillPFailed p) := settled_of_sub (by decide) (by decide) (by decide)
theorem settled_rillPNbr (p : Nat) : Settled (Obj.rillPNbr p) := settled_of_sub (by decide) (by decide) (by decide)
/-- So are the objects of all ports together, but for `RILL.HELD_FLITS`. -/
theorem settled_of_rill {a : Nat} (ha : a < 256) (hheld : a ≠ 0x06) : Settled (ob 0x7000 a) where
  page := by unfold Machine.page ob; omega
  held := ob_ne_of_sub ha (by decide) hheld
  missed _ := by unfold Obj.rillPSlotMiss ob; omega
  neighbour _ := by unfold Obj.rillPNbrOk ob; omega
theorem settled_rillAltActive : Settled Obj.rillAltActive := settled_of_rill (by decide) (by decide)
theorem settled_rillRouteGen : Settled Obj.rillRouteGen := settled_of_rill (by decide) (by decide)

/-! ### A port set -/

@[simp] theorem modPort_port (s : State) (p : Nat) (f : RillPort → RillPort) (q : Nat) :
    (s.modPort p f).port q = if q = p then f (s.port p) else s.port q := smGet_set ..
theorem modPort_self (s : State) (p : Nat) (f : RillPort → RillPort) : (s.modPort p f).port p = f (s.port p) :=
  (modPort_port ..).trans (if_pos rfl)
@[simp] theorem modPort_reg (s : State) (p : Nat) (f : RillPort → RillPort) (k : Nat) : (s.modPort p f).reg k = s.reg k := rfl
@[simp] theorem modPort_held (s : State) (p : Nat) (f : RillPort → RillPort) : (s.modPort p f).rill.held = s.rill.held := rfl
theorem port_congr {s t : State} (h : t.rill = s.rill) (p : Nat) : t.port p = s.port p := congrArg (RillState.port · p) h

/-! ### Flits held and queued, neighbours checked -/

theorem holdFlit_reg (s : State) (p : Nat) (f : Flit) {k : Nat} (hk : Settled k) : (holdFlit s p f).reg k = s.reg k := by
  have hcounted : ((s.withRill { s.rill with held := s.rill.held ++ [(p, f)] }).bump Obj.rillHeldFlits 1).reg k = s.reg k :=
    (bump_reg ..).trans (if_neg hk.held)
  unfold holdFlit
  extract_lets rill queued counted
  split
  · exact hcounted
  · exact (raise_reg _ _ _ _ _ _ hk.page).trans hcounted
theorem queueFlit_reg (s : State) (p slot : Nat) (f : Flit) {k : Nat} (hk : Settled k) : (queueFlit s p slot f).reg k = s.reg k := by
  unfold queueFlit
  split
  · exact holdFlit_reg s p f hk
  · split
    · rfl
    · split
      · rfl
      · extract_lets beat due late queued counted
        have hcounted : counted.reg k = s.reg k := (bump_reg ..).trans (if_neg (hk.missed p))
        split
        · rfl
        · split
          · exact hcounted
          · exact (raise_reg _ _ _ _ _ _ hk.page).trans hcounted
theorem releaseHeld_reg (s : State) (p : Nat) {k : Nat} (hk : Settled k) : (releaseHeld s p).reg k = s.reg k :=
  forAll_induction (P := fun t => t.reg k = s.reg k) _ _ rfl fun _ _ h => (queueFlit_reg _ _ _ _ hk).trans h
theorem checkNeighbour_reg (s : State) (p : Nat) {k : Nat} (hk : Settled k) : (checkNeighbour s p).reg k = s.reg k := by
  have hset (v : Nat) : (s.setReg (Obj.rillPNbrOk p) v).reg k = s.reg k := (setReg_reg ..).trans (if_neg (hk.neighbour p))
  unfold checkNeighbour
  split
  · rfl
  · extract_lets up
    split
    · rfl
    · split
      · exact hset 1
      · exact (raise_reg _ _ _ _ _ _ hk.page).trans (hset 0)

end Sys2Proof.Machine
end

section
/-! Port states of Rill and route sets (R327–R330, R346, R347). -/

namespace Sys2Proof.Machine

/-! ### Training (R328) -/

/-- The code of the state that a port reaches with `n` good lanes, 8 or more: UP16 or UP8 (R327, R328). -/
def upState (n : Nat) : Nat := if 16 ≤ n then 2 else 3
/-- The lanes that it then uses. -/
def upLanes (n : Nat) : Nat := if 16 ≤ n then 16 else 8
theorem upState_lt (n : Nat) : upState n < 256 := by unfold upState; split <;> decide
theorem upLanes_lt (n : Nat) : upLanes n < 256 := by unfold upLanes; split <;> decide
/-- The lanes that are not good. -/
def badLanes (good : BitVec 18) : Nat := 2 ^ 18 - 1 - good.toNat

theorem setPState_reg (s : State) (p : Nat) {v : Nat} (hv : v < 256) : (s.setReg (Obj.rillPState p) v).pState p = v := by
  rw [State.pState, setReg_reg, if_pos rfl, size_rillPState]
  exact Nat.mod_eq_of_lt hv
theorem setPLanes_reg (s : State) (p : Nat) {v : Nat} (hv : v < 256) : (s.setReg (Obj.rillPLanes p) v).reg (Obj.rillPLanes p) = v := by
  rw [setReg_reg, if_pos rfl, size_rillPLanes]
  exact Nat.mod_eq_of_lt hv

/-- A port UP with its good lanes and the neighbour it learned, before that neighbour is checked. -/
def trained (s : State) (p : Nat) (good : BitVec 18) (nbr : BitVec 15) : State :=
  ((((s.setReg (Obj.rillPState p) (upState (goodLanes good.toNat))).setReg (Obj.rillPLanes p) (upLanes (goodLanes good.toNat))).setReg
    (Obj.rillPFailed p) (badLanes good)).setReg (Obj.rillPNbr p) nbr.toNat).modPort p fun _ => { credits := fullCredits }
theorem trained_pState (s : State) (p : Nat) (good : BitVec 18) (nbr : BitVec 15) :
    (trained s p good nbr).pState p = upState (goodLanes good.toNat) := by
  rw [State.pState, trained, modPort_reg, setReg_reg_of_sub _ _ _ (by simp), setReg_reg_of_sub _ _ _ (by simp), setReg_reg_of_sub _ _ _ (by simp)]
  exact setPState_reg s p (upState_lt _)
theorem trained_lanes (s : State) (p : Nat) (good : BitVec 18) (nbr : BitVec 15) :
    (trained s p good nbr).reg (Obj.rillPLanes p) = upLanes (goodLanes good.toNat) := by
  rw [trained, modPort_reg, setReg_reg_of_sub _ _ _ (by simp), setReg_reg_of_sub _ _ _ (by simp)]
  exact setPLanes_reg _ p (upLanes_lt _)
theorem trained_failed (s : State) (p : Nat) (good : BitVec 18) (nbr : BitVec 15) :
    (trained s p good nbr).reg (Obj.rillPFailed p) = badLanes good := by
  rw [trained, modPort_reg, setReg_reg_of_sub _ _ _ (by simp), setReg_reg, if_pos rfl, size_rillPFailed]
  exact Nat.mod_eq_of_lt (by unfold badLanes; omega)
theorem trained_neighbour (s : State) (p : Nat) (good : BitVec 18) (nbr : BitVec 15) :
    (trained s p good nbr).reg (Obj.rillPNbr p) = nbr.toNat := by
  rw [trained, modPort_reg, setReg_reg, if_pos rfl, size_rillPNbr]
  exact Nat.mod_eq_of_lt (by omega)

/-- Training that succeeds leaves the port as it was trained, whether its neighbour is the one expected or not. -/
theorem rillTrainingDone_leads {s : State} {p : Fin 6} {good : BitVec 18} (nbr : BitVec 15) (htrain : s.pState p = 1)
    (hgood : 8 ≤ goodLanes good.toNat) :
    Leads (.rillTrainingDone p good nbr) s fun t => ∀ k, Settled k → t.reg k = (trained s p good nbr).reg k := by
  let checked := checkNeighbour ((trained s p good nbr).emit (.identify p ((trained s p good nbr).reg Obj.rillCoord))) p
  have hrun : execRillTrainingDone p good nbr s = .next (if checked.linkUsable p then releaseHeld checked p else checked) := by
    refine if_neg ?_
    simp [htrain]
    omega
  refine ⟨_, hrun, fun k hk => ?_⟩
  have hchecked : checked.reg k = (trained s p good nbr).reg k := checkNeighbour_reg _ _ hk
  split
  · exact (releaseHeld_reg _ _ hk).trans hchecked
  · exact hchecked

/-! ### DOWN (R327, R328) -/

theorem linkGone_pState (s : State) (p : Nat) {code : Nat} (hc : code < 256) : (linkGone s p code).pState p = code := by
  rw [State.pState, linkGone, setReg_reg_of_sub _ _ _ (by simp), setReg_reg_of_sub _ _ _ (by simp), setReg_reg_of_sub _ _ _ (by simp)]
  exact setPState_reg _ p hc
theorem linkGone_lanes (s : State) (p code : Nat) : (linkGone s p code).reg (Obj.rillPLanes p) = 0 := by
  rw [linkGone, setReg_reg_of_sub _ _ _ (by simp), setReg_reg_of_sub _ _ _ (by simp)]
  exact setPLanes_reg _ p (by decide)
theorem portDown_pState (s : State) (p : Nat) : (portDown s p).pState p = 5 :=
  (raise_reg _ _ _ _ _ _ (settled_rillPState p).page).trans (linkGone_pState _ p (by decide))
theorem portDown_lanes (s : State) (p : Nat) : (portDown s p).reg (Obj.rillPLanes p) = 0 :=
  (raise_reg _ _ _ _ _ _ (settled_rillPLanes p).page).trans (linkGone_lanes _ p 5)
theorem linkGone_log (s : State) (p code : Nat) : (linkGone s p code).log = s.log := rfl
theorem linkGone_counter (s : State) (p code : Nat) : (linkGone s p code).counter = s.counter := rfl
theorem portDown_reports (s : State) (p : Nat) : Reports s (portDown s p) 0x7A03 .degrade (uRill p) :=
  (raise_reports _ _ _ _ _).of_same (linkGone_log ..) (linkGone_counter ..)
/-- The flits that waited at a port that goes DOWN are held, which changes nothing of its state. -/
theorem downWithQueues_reg (s : State) (p : Nat) {k : Nat} (hk : Settled k) : (downWithQueues s p).reg k = (portDown s p).reg k :=
  forAll_induction (P := fun t => t.reg k = (portDown s p).reg k) _ _ rfl fun _ _ h => (holdFlit_reg _ _ _ hk).trans h

theorem execRillTrainingTimeout_again {s : State} {p : Fin 6} (htrain : s.pState p = 1) (hfew : (s.port p).attempts < 2) :
    execRillTrainingTimeout p s = .next (s.modPort p fun x => { x with attempts := (s.port p).attempts + 1 }) :=
  (if_neg (not_not.2 htrain)).trans (if_pos (Nat.succ_lt_succ hfew))
theorem execRillTrainingTimeout_third {s : State} {p : Fin 6} (htrain : s.pState p = 1) (hmany : 2 ≤ (s.port p).attempts) :
    execRillTrainingTimeout p s = .next (portDown s p) :=
  (if_neg (not_not.2 htrain)).trans (if_neg (by omega))

/-! ### The lane check (R329) -/

theorem laneCheck_of_up {s : State} {p : Nat} (hup : s.linkUp p = true) : laneCheck s p = s.setReg (Obj.rillPState p) 4 := if_pos hup
theorem laneCheck_pState {s : State} {p : Nat} (hup : s.linkUp p = true) : (laneCheck s p).pState p = 4 := by
  rw [laneCheck_of_up hup]
  exact setPState_reg s p (by decide)
theorem execRillLaneLockLoss_good {s : State} {p : Fin 6} {lane : Fin 18} (hgood : bitOf (s.reg (Obj.rillPFailed p)) lane = false) :
    execRillLaneLockLoss p lane s = .next (laneCheck s p) := if_neg (by rw [hgood]; decide)
theorem execRillLaneErrorLimit_over {s : State} {p : Fin 6} {lane : Fin 18} {errors : BitVec 32}
    (hgood : bitOf (s.reg (Obj.rillPFailed p)) lane = false) (hover : s.reg (Obj.rillPLaneErrLimit p) < errors.toNat) :
    execRillLaneErrorLimit p lane errors s = .next (laneCheck s p) := if_pos (by simp [hgood, hover])
theorem execRillLaneErrorLimit_within {s : State} {p : Fin 6} (lane : Fin 18) {errors : BitVec 32}
    (hwithin : errors.toNat ≤ s.reg (Obj.rillPLaneErrLimit p)) : execRillLaneErrorLimit p lane errors s = .next s :=
  if_neg (by simp [hwithin])

/-- The failed lanes noted at the end of a lane check. -/
def lanesTested (s : State) (p : Nat) (good : BitVec 18) : State := s.setReg (Obj.rillPFailed p) (badLanes good)
/-- A port UP again after its lane check, with what was not acknowledged to be sent again. -/
def remapped (s : State) (p : Nat) (good : BitVec 18) : State :=
  ((((lanesTested s p good).setReg (Obj.rillPState p) (upState (goodLanes good.toNat))).setReg (Obj.rillPLanes p)
    (upLanes (goodLanes good.toNat))).bump (Obj.rillPReplays p) (s.port p).unacked.length).modPort p fun x =>
      { x with replay := x.unacked, refused := 0 }
theorem remapped_pState (s : State) (p : Nat) (good : BitVec 18) : (remapped s p good).pState p = upState (goodLanes good.toNat) := by
  rw [State.pState, remapped, modPort_reg, bump_reg_of_sub _ _ _ (by simp), setReg_reg_of_sub _ _ _ (by simp)]
  exact setPState_reg _ p (upState_lt _)
theorem remapped_port (s : State) (p : Nat) (good : BitVec 18) :
    (remapped s p good).port p = { s.port p with replay := (s.port p).unacked, refused := 0 } := modPort_self ..

theorem execRillRemapDone_fails {s : State} {p : Fin 6} {good : BitVec 18} (hremap : s.pState p = 4) (hfew : goodLanes good.toNat < 8) :
    execRillRemapDone p good s = .next (downWithQueues (lanesTested s p good) p) :=
  (if_neg (not_not.2 hremap)).trans (if_pos hfew)
theorem execRillRemapDone_returns {s : State} {p : Fin 6} {good : BitVec 18} (hremap : s.pState p = 4)
    (hgood : 8 ≤ goodLanes good.toNat) : execRillRemapDone p good s =
      .next (if upLanes (goodLanes good.toNat) < s.reg (Obj.rillPLanes p) then raise (remapped s p good) 0x7A02 .degrade (uRill p)
        else raise (remapped s p good) 0x7A01 .note (uRill p)) := by
  have hstate : (if upLanes (goodLanes good.toNat) = 16 then 2 else 3) = upState (goodLanes good.toNat) := by
    unfold upLanes upState; split <;> rfl
  have hwas : (lanesTested s p good).reg (Obj.rillPLanes p) = s.reg (Obj.rillPLanes p) :=
    setReg_reg_of_sub _ _ _ (by simp)
  rw [remapped, ← hstate, ← hwas]
  exact (if_neg (not_not.2 hremap)).trans (if_neg (by omega))
/-- The port is the one remapped, whichever event the end of the check raises. -/
theorem rillRemapDone_leads {s : State} {p : Fin 6} {good : BitVec 18} (hremap : s.pState p = 4) (hgood : 8 ≤ goodLanes good.toNat) :
    Leads (.rillRemapDone p good) s fun t => t.pState p = upState (goodLanes good.toNat) ∧ (t.port p).replay = (s.port p).unacked ∧
      (t.port p).refused = 0 ∧
      if upLanes (goodLanes good.toNat) < s.reg (Obj.rillPLanes p) then Reports s t 0x7A02 .degrade (uRill p)
        else Reports s t 0x7A01 .note (uRill p) := by
  have hraised (code : Nat) (sev : Sev) : (raise (remapped s p good) code sev (uRill p)).pState p = upState (goodLanes good.toNat) ∧
      ((raise (remapped s p good) code sev (uRill p)).port p).replay = (s.port p).unacked ∧
      ((raise (remapped s p good) code sev (uRill p)).port p).refused = 0 ∧
      Reports s (raise (remapped s p good) code sev (uRill p)) code sev (uRill p) := by
    rw [port_congr (raise_rill ..), remapped_port]
    exact ⟨(raise_reg _ _ _ _ _ _ (settled_rillPState p).page).trans (remapped_pState ..), rfl, rfl,
      (raise_reports _ _ _ _ _).of_same rfl rfl⟩
  refine ⟨_, execRillRemapDone_returns hremap hgood, ?_⟩
  split
  · exact hraised ..
  · exact hraised ..

/-! ### Training again (R327) -/

/-- A DOWN port in TRAINING again, as one that has never trained. -/
def retrained (s : State) (p : Nat) : State := (s.setReg (Obj.rillPState p) 1).modPort p fun _ => {}
theorem rillRetrainWrite_leads {s : State} {q : Req} {p : Fin 6} {a : Ans} (hq : s.takesWrite q (Obj.rillPRetrain p) = true)
    (ha : rillRetrainWrite p s = a) : Leads (.rillRetrainWrite q p 1) s fun t => t.pState p = a.st.pState p ∧ t.port p = a.st.port p ∧
      Answers t q 2 (Obj.rillPRetrain p) a.status a.value := by
  have hrun : dictAction s q (Obj.rillPRetrain p) 1 (rillRetrainWrite p) = answered s.beat q 2 (Obj.rillPRetrain p) a := by
    rw [dictAction_takes _ hq, if_pos rfl, ha]
  exact ⟨_, congrArg Host.Outcome.next hrun,
    answered_reg _ _ _ _ _ (by unfold Obj.rillPState Obj.mgtRequests ob; omega), rfl, answered_answers ..⟩

/-! ### A route set asked for (R346, R347) -/

theorem rillAltSelWrite_known {s : State} {r : TableRec} (v : Nat) (hfree : s.held .checkpoint = false) (hr : s.routing = some r) :
    rillAltSelWrite v s =
      if snapRd r 6 1 < v then Ans.refuse stRange (raise s 0x7A08 .note uDevice)
      else if routeBegun s then Ans.ok ((s.setReg Obj.rillAltSel v).withRill { s.rill with altNext := some v })
      else Ans.ok ((s.setReg Obj.rillAltSel v).withRill { s.rill with altReq := some v }) := by
  unfold rillAltSelWrite
  rw [hfree, hr]
  simp only [Bool.false_eq_true, if_false, Option.map_some, Option.getD_some, Option.isNone_some, Bool.false_or, decide_eq_true_eq]
theorem rillAltSelWrite_leads {s : State} {q : Req} {v : BitVec 8} {a : Ans} (hq : s.takesWrite q Obj.rillAltSel = true)
    (ha : rillAltSelWrite v.toNat s = a) : Leads (.rillAltSelWrite q v) s fun t => t.rill = a.st.rill ∧ t.log = a.st.log ∧
      (∀ k, k ≠ Obj.mgtRequests → t.reg k = a.st.reg k) ∧ Answers t q 2 Obj.rillAltSel a.status a.value := by
  have hrun : dictWrite s q Obj.rillAltSel (rillAltSelWrite v.toNat) = answered s.beat q 2 Obj.rillAltSel a := by
    rw [dictWrite_takes _ hq, ha]
  exact ⟨_, congrArg Host.Outcome.next hrun, rfl, rfl, fun _ hk => answered_reg _ _ _ _ _ hk, answered_answers ..⟩
theorem setAltSel_reg (s : State) (v : BitVec 8) : (s.setReg Obj.rillAltSel v.toNat).reg Obj.rillAltSel = v.toNat ∧
    (s.setReg Obj.rillAltSel v.toNat).reg Obj.rillAltActive = s.reg Obj.rillAltActive := by
  constructor
  · exact (setReg_reg ..).trans ((if_pos rfl).trans (Nat.mod_eq_of_lt v.isLt))
  · exact (setReg_reg ..).trans (if_neg (by decide))

/-! ### A route set taken (R346) -/

theorem routing_congr {s t : State} (h : t.tables = s.tables) : t.routing = s.routing := by
  unfold State.routing State.table; rw [h]
/-- Whether the log takes records is not changed by a record. -/
theorem raise_takes_records (s : State) (code : Nat) (sev : Sev) (unit pos : Nat) :
    (raise s code sev unit pos).log.ready = s.log.ready ∧ (raise s code sev unit pos).log.holding = s.log.holding := by
  have hlog := sevEffect_log s sev unit
  unfold raise
  extract_lets t e
  have hready : t.log.ready = s.log.ready := congrArg LogState.ready hlog
  have hholding : t.log.holding = s.log.holding := congrArg LogState.holding hlog
  split
  · exact ⟨hready, hholding⟩
  · split
    · split
      · exact ⟨hready, hholding⟩
      · exact ⟨hready, hholding⟩
    · unfold logRecord
      extract_lets e s1
      split
      · exact ⟨hready, hholding⟩
      · exact ⟨hready, hholding⟩
theorem checkNeighbour_takes_records (s : State) (p : Nat) :
    (checkNeighbour s p).log.ready = s.log.ready ∧ (checkNeighbour s p).log.holding = s.log.holding := by
  unfold checkNeighbour
  split
  · exact ⟨rfl, rfl⟩
  · extract_lets up
    split
    · exact ⟨rfl, rfl⟩
    · split
      · exact ⟨rfl, rfl⟩
      · exact raise_takes_records ..
/-- An event reported of a later state of the same beat, whose log takes records as the earlier one's does. -/
theorem Reports.of_earlier {s s' t : State} {code unit : Nat} {sev : Sev} (h : Reports s' t code sev unit)
    (hlog : s'.log.ready = s.log.ready ∧ s'.log.holding = s.log.holding) (hc : s'.counter = s.counter) : Reports s t code sev unit := by
  intro hready hholding
  have hbeat : s'.beat = s.beat := by unfold State.beat; rw [hc]
  exact hbeat ▸ h (hlog.1.trans hready) (hlog.2.trans hholding)

/-- Coordinate and rank taken from a routing table whose set in force it has. -/
def rankTaken (s : State) (r : TableRec) : State :=
  let placed := s.setReg Obj.rillCoord (torusOf r).self
  placed.setReg Obj.rillRank ((rankOf r (placed.routeSet r)).getD 0xFFFF)
theorem refreshRoutes_known {s : State} {r : TableRec} (hr : s.routing = some r) (hset : s.reg Obj.rillAltActive ≤ snapRd r 6 1) :
    refreshRoutes s = forAll (List.range 6) (fun p s => checkNeighbour s p) (rankTaken s r) := by
  unfold refreshRoutes
  rw [hr]
  dsimp only
  rw [if_neg (Nat.not_lt.2 hset)]
  rfl
theorem refreshRoutes_reg {s : State} {r : TableRec} (hr : s.routing = some r) (hset : s.reg Obj.rillAltActive ≤ snapRd r 6 1) {k : Nat}
    (hk : Settled k) (hcoord : k ≠ Obj.rillCoord) (hrank : k ≠ Obj.rillRank) : (refreshRoutes s).reg k = s.reg k := by
  rw [refreshRoutes_known hr hset]
  refine forAll_induction (P := fun t => t.reg k = s.reg k) _ _ ?_ fun _ _ h => (checkNeighbour_reg _ _ hk).trans h
  rw [rankTaken, setReg_reg, if_neg hrank, setReg_reg, if_neg hcoord]
theorem refreshRoutes_takes_records {s : State} {r : TableRec} (hr : s.routing = some r) (hset : s.reg Obj.rillAltActive ≤ snapRd r 6 1) :
    (refreshRoutes s).log.ready = s.log.ready ∧ (refreshRoutes s).log.holding = s.log.holding := by
  rw [refreshRoutes_known hr hset]
  refine forAll_induction (P := fun t => t.log.ready = s.log.ready ∧ t.log.holding = s.log.holding) _ _ ⟨rfl, rfl⟩ fun p t h => ?_
  obtain ⟨hready, hholding⟩ := checkNeighbour_takes_records t p
  exact ⟨hready.trans h.1, hholding.trans h.2⟩
theorem refreshRoutes_keeps (s : State) :
    Moves 66902235595591869424607302391897674194649986 s (refreshRoutes s) := refreshRoutes_moves s (.refl _ s) (.refl _)

/-- The state at the route barrier, its participants let go. -/
def barrierLeft (s : State) : State := (routeBarrier s).elim s (releaseBarrier s)
theorem barrierLeft_moves (s : State) : Moves 158456325028528675187087909088 s (barrierLeft s) := by
  unfold barrierLeft
  cases routeBarrier s with
  | none => exact .refl _ s
  | some q => exact releaseBarrier_moves s q (.refl _ s) (.refl _)
/-- Set `n` in force, and the next request in its place. -/
def setTaken (s : State) (n : Nat) : State :=
  ((barrierLeft s).setReg Obj.rillAltActive n).withRill { s.rill with altReq := s.rill.altNext, altNext := none }
theorem setTaken_active (s : State) {n : Nat} (hn : n < 256) : (setTaken s n).reg Obj.rillAltActive = n :=
  (setReg_reg ..).trans ((if_pos rfl).trans (Nat.mod_eq_of_lt hn))
theorem setTaken_routeGen (s : State) (n : Nat) : (setTaken s n).reg Obj.rillRouteGen = s.reg Obj.rillRouteGen :=
  ((setReg_reg ..).trans (if_neg (by decide))).trans ((barrierLeft_moves s).reg _ rfl)
theorem setTaken_routing (s : State) (n : Nat) : (setTaken s n).routing = s.routing :=
  routing_congr ((barrierLeft_moves s).same .tables rfl)
theorem setTaken_counter (s : State) (n : Nat) : (setTaken s n).counter = s.counter := (barrierLeft_moves s).same .counter rfl
theorem setTaken_log (s : State) (n : Nat) : (setTaken s n).log = s.log := (barrierLeft_moves s).same .log rfl

theorem execRouteBarrierComplete_ready {s : State} {n : Nat} {r : TableRec} (hreq : s.rill.altReq = some n) (hr : s.routing = some r)
    (hbound : s.groupAtBoundary 1 = true) (hready : routeReady s = true) : execRouteBarrierComplete s =
      .next (raise ((refreshRoutes (setTaken s n)).bump Obj.rillRouteGen 1) 0x7A07 .note uDevice) := by
  have hrill : (barrierLeft s).rill = s.rill := (barrierLeft_moves s).same .rill rfl
  unfold execRouteBarrierComplete
  rw [hreq]
  dsimp only
  rw [if_neg (by simp [hbound, hready, hr]), setTaken, ← hrill, barrierLeft]
  cases routeBarrier s <;> rfl

/-- What the switch to a route set leaves. -/
theorem routeBarrierComplete_leads {s : State} {n : Nat} {r : TableRec} (hreq : s.rill.altReq = some n) (hn : n < 256)
    (hr : s.routing = some r) (hset : n ≤ snapRd r 6 1) (hbound : s.groupAtBoundary 1 = true) (hready : routeReady s = true) :
    Leads .routeBarrierComplete s fun t => t.reg Obj.rillAltActive = n ∧ t.rill.altReq = s.rill.altNext ∧ t.rill.altNext = none ∧
      t.reg Obj.rillRouteGen = min (s.reg Obj.rillRouteGen + 1) (2 ^ 32 - 1) ∧ Reports s t 0x7A07 .note uDevice := by
  have hactive := setTaken_active s hn
  have hrouting : (setTaken s n).routing = some r := (setTaken_routing s n).trans hr
  have hin : (setTaken s n).reg Obj.rillAltActive ≤ snapRd r 6 1 := hactive.symm ▸ hset
  have hrill : (refreshRoutes (setTaken s n)).rill = (setTaken s n).rill := (refreshRoutes_keeps _).same .rill rfl
  have hcounter : (refreshRoutes (setTaken s n)).counter = s.counter :=
    Eq.trans ((refreshRoutes_keeps _).same .counter rfl) (setTaken_counter s n)
  have hlog := refreshRoutes_takes_records hrouting hin
  rw [setTaken_log] at hlog
  refine ⟨_, execRouteBarrierComplete_ready hreq hr hbound hready, ?_, ?_, ?_, ?_, (raise_reports _ _ _ _ _).of_earlier hlog hcounter⟩
  · rw [raise_reg _ _ _ _ _ _ settled_rillAltActive.page, bump_reg, if_neg (by decide),
      refreshRoutes_reg hrouting hin settled_rillAltActive (by decide) (by decide), hactive]
  · rw [raise_rill, bump_rill, hrill]; rfl
  · rw [raise_rill, bump_rill, hrill]; rfl
  · rw [raise_reg _ _ _ _ _ _ settled_rillRouteGen.page, bump_reg, if_pos rfl,
      refreshRoutes_reg hrouting hin settled_rillRouteGen (by decide) (by decide), setTaken_routeGen, size_rillRouteGen]
    rfl

/-! ### The statement -/

/-- Settles O48: each clause from what its command leaves of the port or of the route set. -/
theorem rillPortsComplete : Obligations.RillPortsComplete := by
  refine fun s p => ⟨?trained, ?again, ?failed, ?check, ?remapped, ?retrain, ?asked, ?taken⟩
  case trained =>
    intro good nbr htrain hgood
    obtain ⟨t, hrun, hregs⟩ := rillTrainingDone_leads nbr htrain hgood
    exact ⟨t, hrun, (hregs _ (settled_rillPState p)).trans (trained_pState ..), (hregs _ (settled_rillPLanes p)).trans (trained_lanes ..),
      (hregs _ (settled_rillPFailed p)).trans (trained_failed ..), (hregs _ (settled_rillPNbr p)).trans (trained_neighbour ..)⟩
  case again =>
    intro htrain hfew
    exact ⟨_, execRillTrainingTimeout_again htrain hfew, htrain, congrArg RillPort.attempts (modPort_self ..)⟩
  case failed =>
    intro htrain hmany
    exact ⟨_, execRillTrainingTimeout_third htrain hmany, portDown_pState s p, portDown_lanes s p, portDown_reports s p⟩
  case check =>
    intro lane hup hgood
    exact ⟨⟨_, execRillLaneLockLoss_good hgood, laneCheck_pState hup⟩,
      fun _ hover => ⟨_, execRillLaneErrorLimit_over hgood hover, laneCheck_pState hup⟩,
      fun _ hwithin => ⟨_, execRillLaneErrorLimit_within lane hwithin, rfl⟩⟩
  case remapped =>
    intro good hremap
    refine ⟨fun hfew => ⟨_, execRillRemapDone_fails hremap hfew, ?_, ?_⟩, rillRemapDone_leads hremap⟩
    · exact (downWithQueues_reg _ _ (settled_rillPState p)).trans (portDown_pState _ p)
    · exact (downWithQueues_reg _ _ (settled_rillPLanes p)).trans (portDown_lanes _ p)
  case retrain =>
    intro q hq
    constructor
    · intro hdown
      have ha : rillRetrainWrite p s = Ans.ok (retrained s p) := if_neg (not_not.2 hdown)
      obtain ⟨t, hrun, hstate, hport, hanswer⟩ := rillRetrainWrite_leads hq ha
      exact ⟨t, hrun, hstate.trans (setPState_reg s p (by decide)), hport.trans (modPort_self ..), hanswer⟩
    · intro hup
      have ha : rillRetrainWrite p s = Ans.refuse stState s := if_pos hup
      obtain ⟨t, hrun, hstate, _, hanswer⟩ := rillRetrainWrite_leads hq ha
      exact ⟨t, hrun, hstate, hanswer⟩
  case asked =>
    intro q v r hq hfree hr
    have hknown := rillAltSelWrite_known v.toNat hfree hr
    obtain ⟨hsel, hactive⟩ := setAltSel_reg s v
    refine ⟨fun hin hbegun => ?_, fun hin hbegun => ?_, fun hover => ?_⟩
    · rw [if_neg (Nat.not_lt.2 hin), hbegun, if_neg Bool.false_ne_true] at hknown
      obtain ⟨t, hrun, hrill, _, hregs, hanswer⟩ := rillAltSelWrite_leads hq hknown
      exact ⟨t, hrun, (hregs _ (by decide)).trans hsel, by rw [hrill]; rfl, (hregs _ (by decide)).trans hactive, hanswer⟩
    · rw [if_neg (Nat.not_lt.2 hin), hbegun, if_pos rfl] at hknown
      obtain ⟨t, hrun, hrill, _, hregs, hanswer⟩ := rillAltSelWrite_leads hq hknown
      exact ⟨t, hrun, (hregs _ (by decide)).trans hsel, by rw [hrill]; rfl, by rw [hrill]; rfl, (hregs _ (by decide)).trans hactive,
        hanswer⟩
    · rw [if_pos hover] at hknown
      obtain ⟨t, hrun, hrill, hlog, _, hanswer⟩ := rillAltSelWrite_leads hq hknown
      exact ⟨t, hrun, hrill.trans (raise_rill ..), (raise_reports s 0x7A08 .note uDevice noPos).then hlog, hanswer⟩
  case taken =>
    intro r n hreq hn hr hset hbound hready
    exact routeBarrierComplete_leads hreq hn hr hset hbound hready

end Sys2Proof.Machine
end

section
/-! A flit in order is taken once (R326, R341, R343, R344): whatever its forwarding or delivery does, no port's expected number moves again
(`OrderKept`). -/

namespace Sys2Proof.Machine

/-- At every port the number expected next and the refusals in succession read as before. -/
def OrderKept (s t : State) : Prop := ∀ p, (t.port p).rxSeq = (s.port p).rxSeq ∧ (t.port p).refused = (s.port p).refused

/-- A flit's buffer freed is the one change of its port. -/
theorem freeBuf_port (s : State) (f : Flit) (p : Nat) : ∃ m, (freeBuf s f).port p = { s.port p with freed := m } := by
  unfold freeBuf
  split
  · exact ⟨_, rfl⟩
  · next q vc _ =>
    by_cases hp : p = q
    · subst hp
      exact ⟨_, modPort_self s p fun x => { x with freed := smSet zeroWord x.freed vc (smGet zeroWord x.freed vc + 1) }⟩
    · exact ⟨_, (smGet_set ..).trans (if_neg hp)⟩

namespace OrderKept
variable {s0 s t : State}

theorem refl (s : State) : OrderKept s s := fun _ => ⟨rfl, rfl⟩
theorem trans (h : OrderKept s0 s) (h2 : OrderKept s t) : OrderKept s0 t := fun p =>
  ⟨(h2 p).1.trans (h p).1, (h2 p).2.trans (h p).2⟩
theorem of_rill (h : OrderKept s0 s) (hr : t.rill = s.rill) : OrderKept s0 t :=
  h.trans fun p => by rw [port_congr hr]; exact ⟨rfl, rfl⟩
theorem moves {A : Nat} (h : OrderKept s0 s) (hm : Moves A s t) (hA : A.testBit Comp.rill.index = false) : OrderKept s0 t :=
  h.of_rill (hm.same .rill hA)
theorem withRill (h : OrderKept s0 s) {v : RillState} (hv : v.ports = s.rill.ports) : OrderKept s0 (s.withRill v) := h.trans fun p => by
  have hport : (s.withRill v).port p = s.port p := congrArg (smGet dPort · p) hv
  rw [hport]
  exact ⟨rfl, rfl⟩
theorem modPort (h : OrderKept s0 s) (p : Nat) {f : RillPort → RillPort} (hf : ∀ x, (f x).rxSeq = x.rxSeq ∧ (f x).refused = x.refused) :
    OrderKept s0 (s.modPort p f) := h.trans fun q => by
  rw [modPort_port]
  split
  · next hq => exact hq ▸ hf _
  · exact ⟨rfl, rfl⟩
theorem raise (h : OrderKept s0 s) (code : Nat) (sev : Sev) (unit pos : Nat) : OrderKept s0 (raise s code sev unit pos) :=
  h.of_rill (raise_rill ..)
theorem freeBuf (h : OrderKept s0 s) (f : Flit) : OrderKept s0 (freeBuf s f) := h.trans fun p => by
  obtain ⟨m, hm⟩ := freeBuf_port s f p
  rw [hm]
  exact ⟨rfl, rfl⟩
theorem modColl (h : OrderKept s0 s) (k : Nat) (f : Coll → Coll) : OrderKept s0 (s.modColl k f) := h.withRill rfl
theorem bump (h : OrderKept s0 s) (k n : Nat) : OrderKept s0 (s.bump k n) := h.of_rill (bump_rill ..)

/-! ### Delivery -/

theorem note (h : OrderKept s0 s) (g : Ring) : OrderKept s0 (g.note s) := h.moves (Ring_note_moves g s (.refl _ s) (.refl _)) (by decide)
theorem vaWrite (h : OrderKept s0 s) (va : Nat) (bs : List Byte) : OrderKept s0 (vaWrite s va bs) :=
  h.moves (vaWrite_moves s va bs (.refl _ s) (.refl _)) (by decide)
theorem noteWire (h : OrderKept s0 s) (zeroed sat : Nat) : OrderKept s0 (noteWire s zeroed sat) :=
  h.moves (noteWire_moves s zeroed sat (.refl _ s) (.refl _)) (by decide)
theorem write (h : OrderKept s0 s) (g : Ring) (b c : Nat) (codes : List Nat) : OrderKept s0 (g.write s b c codes) :=
  ((forAll_induction _ _ h fun _ _ h => h.vaWrite _ _ : OrderKept s0 (forAll _ _ s)).modColl _ _).note g
theorem writeAll (h : OrderKept s0 s) (g : Ring) (b : Nat) (ws : List Wire) :
    OrderKept s0 (forAll ws.zipIdx (fun p s => g.write s (b + p.2) p.1.c p.1.codes) s) :=
  forAll_induction _ _ h fun _ _ h => h.write g _ _ _
theorem final (h : OrderKept s0 s) (g : Ring) (b : Nat) (ws : List Wire) (tally : List Nat) : OrderKept s0 (g.final s b ws tally) := by
  unfold Ring.final
  extract_lets written tallied
  have htallied : OrderKept s0 tallied := by
    dsimp only [tallied]; split
    · exact h.writeAll g b ws
    · exact (h.writeAll g b ws).modColl _ _
  split
  · exact htallied
  · exact htallied.modColl _ _
theorem add (h : OrderKept s0 s) (g : Ring) (j b : Nat) (f : Flit) : OrderKept s0 (g.add s j b f) := by
  unfold Ring.add
  extract_lets p n rs ws wired tally noted
  have hnoted : OrderKept s0 noted := ((h.noteWire _ _).modColl _ _).note g
  split
  · exact hnoted.final g _ _ _
  · exact hnoted.modColl _ _
theorem drain (h : OrderKept s0 s) (g : Ring) (fs : List Flit) : OrderKept s0 (g.drain fs s) := by
  refine forAll_induction _ _ h fun f t h => ?_
  extract_lets b j taken
  split
  · exact h
  · exact ((h.modColl _ _).add g _ _ _).freeBuf f
theorem ringSkew (h : OrderKept s0 s) (k port : Nat) : OrderKept s0 (ringSkew s k port) :=
  ((h.modColl k _).moves (setHealth_moves _ _ _ (.refl _ _) (.refl _)) (by decide)).raise _ _ _ _
theorem receive (h : OrderKept s0 s) (g : Ring) (port : Nat) (f : Flit) : OrderKept s0 (g.receive s port f) := by
  unfold Ring.receive
  extract_lets c gather seen
  split
  · exact (h.ringSkew _ _).freeBuf f
  · extract_lets b n counted ws written tallied on passed
    split
    · have htallied : OrderKept s0 tallied := by
        dsimp only [tallied]; split
        · exact (h.modColl _ _).writeAll g b ws
        · exact ((h.modColl _ _).writeAll g b ws).modColl _ _
      have hpassed : OrderKept s0 passed := by
        dsimp only [passed]; split
        · exact htallied.modColl _ _
        · exact htallied
      exact hpassed.freeBuf f
    · exact ((h.modColl _ _).modColl _ _).drain g _
theorem receiveLine (h : OrderKept s0 s) (g : Ring) (f : Flit) : OrderKept s0 (g.receiveLine s f) :=
  ((h.vaWrite _ _).modColl _ _).freeBuf f
theorem receiveRaw (h : OrderKept s0 s) (g : Ring) (f : Flit) : OrderKept s0 (g.receiveRaw s f) := by
  unfold Ring.receiveRaw
  extract_lets pos m written counted whole
  have hcounted : OrderKept s0 counted := (h.vaWrite _ _).modColl _ _
  refine OrderKept.freeBuf ?_ f
  split
  · exact (hcounted.modColl _ _).note g
  · exact hcounted
theorem deliverFlit (h : OrderKept s0 s) (port : Nat) (f : Flit) : OrderKept s0 (deliverFlit s port f) := by
  unfold Machine.deliverFlit
  split
  · exact h.withRill rfl
  · split
    · exact h.freeBuf f
    · extract_lets drawn
      have hdrawn : OrderKept s0 drawn := h.of_rill (withWeir_rill ..)
      split
      · exact hdrawn.freeBuf f
      · split
        · exact hdrawn.receive _ _ _
        · exact hdrawn.receiveLine _ _
        · exact hdrawn.receiveRaw _ _

/-! ### Forwarding -/

theorem holdFlit (h : OrderKept s0 s) (p : Nat) (f : Flit) : OrderKept s0 (holdFlit s p f) := by
  unfold Machine.holdFlit
  extract_lets rill queued counted
  have hqueued : OrderKept s0 queued := h.withRill rfl
  have hcounted : OrderKept s0 counted := hqueued.bump _ _
  split
  · exact hcounted
  · refine OrderKept.raise ?_ _ _ _ _
    exact hcounted.withRill rfl
theorem queueFlit (h : OrderKept s0 s) (p slot : Nat) (f : Flit) : OrderKept s0 (queueFlit s p slot f) := by
  unfold Machine.queueFlit
  split
  · exact h.holdFlit p f
  · split
    · exact h.modPort p fun _ => ⟨rfl, rfl⟩
    · split
      · exact h.modPort p fun _ => ⟨rfl, rfl⟩
      · extract_lets beat due late queued counted
        have hqueued : OrderKept s0 queued := h.modPort p fun _ => ⟨rfl, rfl⟩
        have hcounted : OrderKept s0 counted := hqueued.bump _ _
        split
        · exact hqueued
        · split
          · exact hcounted
          · refine OrderKept.raise ?_ _ _ _ _
            exact hcounted.withRill rfl
theorem takeFlit (h : OrderKept s0 s) (p slot : Nat) (f : Flit) : OrderKept s0 (takeFlit s p slot f) := by
  unfold Machine.takeFlit
  split
  · exact h.freeBuf f
  · split
    · split
      · exact h.freeBuf f
      · exact h.deliverFlit p f
    · have hin : OrderKept s0 (s.modPort p fun x => { x with lastFwd := some s.beat }) := h.modPort p fun _ => ⟨rfl, rfl⟩
      extract_lets crossed
      have hcrossed : OrderKept s0 crossed := hin.modPort _ fun _ => ⟨rfl, rfl⟩
      exact (hcrossed.bump _ _).queueFlit _ _ _

end OrderKept

end Sys2Proof.Machine
end

section
/-! Flits received and sent (R323–R326, R333, R334, R338). -/

namespace Sys2Proof.Machine

theorem linkUp_congr {s t : State} {p : Nat} (h : t.reg (Obj.rillPState p) = s.reg (Obj.rillPState p)) : t.linkUp p = s.linkUp p := by
  unfold State.linkUp State.pState; rw [h]

/-! ### A flit that arrives -/

/-- The flit that arrives, with the buffer it takes at its port. -/
def arrivedFlit (p : Fin 6) (r : FlitRx) : Flit :=
  { kind := r.kind.toNat, vc := r.vc.toNat, dest := r.dest.toNat, waypt := r.waypt, waypoint := r.waypoint.toNat, seq := r.seq.toNat,
    last := r.last, src := r.src.toNat, coll := r.coll.toNat, index := r.index.toNat, scale1 := r.scale1.toNat, scale0 := r.scale0.toNat,
    hop := r.hop.toNat, payload := r.payload.toNat, tally := r.tally.map (·.toNat), buf := some (p, r.vc.toNat) }
/-- Its corrected words counted. -/
def correctedNoted (s : State) (p : Fin 6) (r : FlitRx) : State := s.bump (Obj.rillPCe p) r.ce.toNat
/-- A flit whose words stand: the refusals in succession end, and its trailer is taken. -/
def trailerTaken (s : State) (p : Fin 6) (r : FlitRx) : State :=
  takeTrailer ((correctedNoted s p r).modPort p fun x => { x with refused := 0 }) p (r.ack.map (·.toNat)) r.nak r.credits.toNat r.creditVc.toNat
/-- The next number is expected. -/
def orderAdvanced (s : State) (p : Fin 6) : State := s.modPort p fun x => { x with rxSeq := (x.rxSeq + 1) % 4096, heard := true }
/-- A flit out of order asks for a replay where one before it is missing. -/
def gapNoted (s : State) (p : Fin 6) (seq : Nat) : State :=
  s.modPort p fun x => { x with nak := x.nak || decide ((seq + 4096 - x.rxSeq) % 4096 < 2048) }

/-- What the other end acknowledges concerns what was sent. -/
theorem takeTrailer_rill (s : State) (p : Nat) (ack : Option Nat) (nak : Bool) (credits vc : Nat) : ∃ u rep c,
    (takeTrailer s p ack nak credits vc).rill = s.rill.setPort p { s.port p with unacked := u, replay := rep, credits := c } := by
  unfold takeTrailer
  extract_lets x kept taken
  split
  · exact ⟨_, _, _, rfl⟩
  · exact ⟨_, _, _, rfl⟩
theorem takeTrailer_reg (s : State) (p : Nat) (ack : Option Nat) (nak : Bool) (credits vc : Nat) {k : Nat} (hk : k % 256 ≠ 6) :
    (takeTrailer s p ack nak credits vc).reg k = s.reg k := by
  unfold takeTrailer
  extract_lets x kept taken
  split
  · exact bump_reg_of_sub taken _ _ (by simpa using hk)
  · rfl
theorem trailerTaken_port (s : State) (p : Fin 6) (r : FlitRx) : ∃ u rep c,
    (trailerTaken s p r).port p = { s.port p with refused := 0, unacked := u, replay := rep, credits := c } := by
  obtain ⟨u, rep, c, hrill⟩ := takeTrailer_rill ((correctedNoted s p r).modPort p fun x => { x with refused := 0 }) p
    (r.ack.map (·.toNat)) r.nak r.credits.toNat r.creditVc.toNat
  rw [modPort_self] at hrill
  refine ⟨u, rep, c, (congrArg (RillState.port · p) hrill).trans ?_⟩
  exact (smGet_set ..).trans (if_pos rfl)
theorem trailerTaken_rest (s : State) (p : Fin 6) (r : FlitRx) :
    (trailerTaken s p r).rill.colls = s.rill.colls ∧ (trailerTaken s p r).rill.held = s.rill.held := by
  obtain ⟨u, rep, c, hrill⟩ := takeTrailer_rill ((correctedNoted s p r).modPort p fun x => { x with refused := 0 }) p
    (r.ack.map (·.toNat)) r.nak r.credits.toNat r.creditVc.toNat
  exact ⟨Eq.trans (congrArg RillState.colls hrill) rfl, Eq.trans (congrArg RillState.held hrill) rfl⟩
theorem trailerTaken_nbrOk (s : State) (p : Fin 6) (r : FlitRx) :
    (trailerTaken s p r).reg (Obj.rillPNbrOk p) = s.reg (Obj.rillPNbrOk p) :=
  (takeTrailer_reg _ _ _ _ _ _ (by simp)).trans (bump_reg_of_sub s _ _ (by simp))

section
variable {s : State} {p : Fin 6} {r : FlitRx} (hup : s.linkUp p = true) (hrun : s.running = true)
include hup hrun

theorem execRillFlitRx_refuses (hbad : r.crcOk = false ∨ r.ue.toNat ≠ 0) :
    execRillFlitRx p r s = .next (refuseFlit (correctedNoted s p r) p r.ue.toNat (arrivedFlit p r)) := by
  refine (if_neg (by simp [hup, hrun])).trans (if_pos ?_)
  rcases hbad with h | h <;> simp [h]
theorem execRillFlitRx_idle (hcrc : r.crcOk = true) (hue : r.ue.toNat = 0) (hkind : 2 ≤ r.kind.toNat) :
    execRillFlitRx p r s = .next (trailerTaken s p r) :=
  ((if_neg (by simp [hup, hrun])).trans (if_neg (by simp [hcrc, hue]))).trans (if_pos hkind)
theorem execRillFlitRx_outOfOrder (hcrc : r.crcOk = true) (hue : r.ue.toNat = 0) (hkind : ¬2 ≤ r.kind.toNat)
    (hseq : r.seq.toNat ≠ ((trailerTaken s p r).port p).rxSeq) :
    execRillFlitRx p r s = .next (gapNoted (trailerTaken s p r) p r.seq.toNat) :=
  (((if_neg (by simp [hup, hrun])).trans (if_neg (by simp [hcrc, hue]))).trans (if_neg hkind)).trans (if_pos hseq)
theorem execRillFlitRx_inOrder (hcrc : r.crcOk = true) (hue : r.ue.toNat = 0)
    (hkind : r.kind.toNat = 1 ∨ (r.kind.toNat = 0 ∧ (trailerTaken s p r).reg (Obj.rillPNbrOk p) = 1))
    (hseq : r.seq.toNat = ((trailerTaken s p r).port p).rxSeq) :
    execRillFlitRx p r s = .next (takeFlit (orderAdvanced (trailerTaken s p r) p) p r.slot (arrivedFlit p r)) := by
  refine (((if_neg (by simp [hup, hrun])).trans (if_neg (by simp [hcrc, hue]))).trans (if_neg (show ¬2 ≤ r.kind.toNat by omega))).trans
    ((if_neg (not_not.2 hseq)).trans (if_neg ?_))
  change ¬(decide (r.kind.toNat = 0) && decide ((trailerTaken s p r).reg (Obj.rillPNbrOk p) ≠ 1)) = true
  rcases hkind with h | ⟨_, h⟩ <;> simp [h]

end

/-! ### A flit refused (R326) -/

/-- A refusal counted and to be answered with NAK. -/
def refusalNoted (s : State) (p ue : Nat) : State :=
  (s.bump (Obj.rillPUe p) ue).modPort p fun x => { x with refused := x.refused + 1, nak := true }
theorem cutShort_rill (s : State) (p ue : Nat) (f : Flit) : (cutShort s p ue f).rill = s.rill :=
  (cutShort_moves s p ue f (.refl _ s) (.refl _)).same .rill rfl
theorem cutShort_reg (s : State) (p ue : Nat) (f : Flit) (k : Nat) : (cutShort s p ue f).reg k = s.reg k := by
  unfold cutShort
  split
  · rfl
  · split
    · split <;> rfl
    · rfl
/-- The port after a refusal is noted and a flit that was being cut through is ended. -/
theorem cutShort_refusal_port (s : State) (p ue : Nat) (f : Flit) : (cutShort (refusalNoted s p ue) p ue f).port p =
    { s.port p with refused := (s.port p).refused + 1, nak := true } := by
  rw [port_congr (cutShort_rill ..)]
  exact modPort_self ..
theorem refuseFlit_of_few {s : State} {p : Nat} (ue : Nat) (f : Flit) (h : (s.port p).refused ≠ 7) :
    refuseFlit s p ue f = cutShort (refusalNoted s p ue) p ue f := by
  have hcount : ((cutShort (refusalNoted s p ue) p ue f).port p).refused = (s.port p).refused + 1 :=
    congrArg RillPort.refused (cutShort_refusal_port ..)
  exact if_neg fun heighth => h (Nat.succ.inj (hcount.symm.trans heighth))
theorem refuseFlit_of_eighth {s : State} {p : Nat} (ue : Nat) (f : Flit) (h : (s.port p).refused = 7) : refuseFlit s p ue f =
    laneCheck ((cutShort (refusalNoted s p ue) p ue f).modPort p fun x => { x with refused := 0 }) p := by
  have hcount : ((cutShort (refusalNoted s p ue) p ue f).port p).refused = (s.port p).refused + 1 :=
    congrArg RillPort.refused (cutShort_refusal_port ..)
  exact if_pos (hcount.trans (congrArg Nat.succ h))
theorem laneCheck_rill (s : State) (p : Nat) : (laneCheck s p).rill = s.rill := by
  unfold laneCheck; split <;> rfl

/-! ### A flit sent (R326) -/

theorem putLink_port (s : State) (p : Nat) (f : Flit) : ∃ m, (putLink s p f).port p = { s.port p with nak := false, freed := m } := by
  unfold putLink
  extract_lets x vc n sent
  exact ⟨_, (modPort_self s p _ : sent.port p = _)⟩
theorem putLink_outbox (s : State) (p : Nat) (f : Flit) : (putLink s p f).outbox.length = s.outbox.length + 1 := List.length_append
theorem freeBuf_held (s : State) (f : Flit) : (freeBuf s f).rill.held = s.rill.held := by unfold freeBuf; split <;> rfl
theorem freeBuf_outbox (s : State) (f : Flit) : (freeBuf s f).outbox = s.outbox := by unfold freeBuf; split <;> rfl
theorem sendFlit_port (s : State) (p : Nat) (f : Flit) : ∃ c m, (sendFlit s p f).port p =
    { s.port p with seq := ((s.port p).seq + 1) % 4096, unacked := (s.port p).unacked ++ [{ f with seq := (s.port p).seq, buf := none }],
                    credits := c, nak := false, freed := m } := by
  obtain ⟨m, hfreed⟩ := freeBuf_port s f p
  unfold sendFlit
  extract_lets freed g sent
  obtain ⟨n, hput⟩ := putLink_port sent p g
  have hsent : sent.port p = _ := modPort_self ..
  rw [hfreed] at hsent
  rw [hput, hsent]
  have hg : g = { f with seq := (s.port p).seq, buf := none } := by dsimp only [g]; rw [hfreed]
  exact ⟨_, n, by rw [hg]⟩
theorem sendFlit_outbox (s : State) (p : Nat) (f : Flit) : (sendFlit s p f).outbox.length = s.outbox.length + 1 :=
  (putLink_outbox ..).trans (congrArg (List.length · + 1) (freeBuf_outbox s f))
theorem sendFlit_held (s : State) (p : Nat) (f : Flit) : (sendFlit s p f).rill.held = s.rill.held := freeBuf_held s f
theorem sendNext_held (s : State) (p : Nat) (f : NextFlit) : (sendNext s p f).rill.held = s.rill.held := by
  cases f with
  | replay f => rfl
  | sched d => exact sendFlit_held ..
  | own k f g => exact sendFlit_held ..
  | ctl f => exact sendFlit_held ..
  | best f => exact sendFlit_held ..
theorem slotFlits_held (p slot n : Nat) (s : State) : (slotFlits p slot n s).rill.held = s.rill.held := by
  induction n generalizing s with
  | zero => rfl
  | succ n ih =>
    unfold slotFlits
    split
    · exact (ih _).trans (sendNext_held ..)
    · rfl
theorem idleFlit_held (s : State) (p before : Nat) : (idleFlit s p before).rill.held = s.rill.held := by
  unfold idleFlit
  extract_lets x
  split <;> rfl

/-! ### What goes next in a slot (R338) -/

theorem entryOfSlot_congr {s t : State} (htables : t.tables = s.tables) (hcounter : t.counter = s.counter)
    (hactive : t.reg Obj.rillAltActive = s.reg Obj.rillAltActive) (p slot : Nat) : entryOfSlot t p slot = entryOfSlot s p slot := by
  unfold entryOfSlot State.routeSet State.beat
  rw [routing_congr htables, hcounter, hactive]
theorem sendFlit_entryOfSlot (s : State) (p : Nat) (f : Flit) (q slot : Nat) : entryOfSlot (sendFlit s p f) q slot = entryOfSlot s q slot :=
  have hm := sendFlit_moves s p f (.refl _ s) (.refl _)
  entryOfSlot_congr (hm.same .tables rfl) (hm.same .counter rfl) (hm.reg _ rfl) q slot
/-- In a slot that is not reserved, at a port with neither replays nor data that wait, the first control flit goes next. -/
theorem nextFlit_control {s : State} {p slot : Nat} (hentry : entryOfSlot s p slot = 0) (hreplay : (s.port p).replay = [])
    (hsched : (s.port p).sched = []) (hbest : (s.port p).best = []) :
    nextFlit s p slot = ((s.port p).ctl.head?.filter fun f => canSend s p f.vc).map NextFlit.ctl := by
  have hfree : bitOf 0 15 = false := by decide
  unfold nextFlit
  simp only [hentry, hreplay, hsched, hbest, hfree]
  simp [bestFlit]
theorem slotFlits_none {s : State} {p slot : Nat} (h : nextFlit s p slot = none) (n : Nat) : slotFlits p slot n s = s := by
  cases n with
  | zero => rfl
  | succ n => unfold slotFlits; rw [h]
theorem slotFlits_some {s : State} {p slot : Nat} {f : NextFlit} (h : nextFlit s p slot = some f) (n : Nat) :
    slotFlits p slot (n + 1) s = slotFlits p slot n (sendNext s p f) := by
  rw [slotFlits, h]
/-- One control flit that waits alone, sent in a slot that is not reserved. -/
theorem slotFlits_control {s : State} {p slot : Nat} {f : Flit} (n : Nat) (hentry : entryOfSlot s p slot = 0) (hreplay : (s.port p).replay = [])
    (hsched : (s.port p).sched = []) (hctl : (s.port p).ctl = [f]) (hbest : (s.port p).best = []) (hsend : canSend s p f.vc = true) :
    slotFlits p slot (n + 1) s = sendFlit (s.modPort p fun x => { x with ctl := x.ctl.drop 1 }) p f := by
  have hnext : nextFlit s p slot = some (.ctl f) := by
    rw [nextFlit_control hentry hreplay hsched hbest, hctl]
    simp [hsend]
  rw [slotFlits_some hnext]
  refine slotFlits_none (s := sendFlit _ p f) ?_ n
  obtain ⟨c, m, hport⟩ := sendFlit_port (s.modPort p fun x => { x with ctl := x.ctl.drop 1 }) p f
  rw [modPort_self] at hport
  rw [nextFlit_control, hport]
  · simp [hctl]
  · exact (sendFlit_entryOfSlot ..).trans hentry
  · rw [hport]; exact hreplay
  · rw [hport]; exact hsched
  · rw [hport]; exact hbest

/-! ### The beginning and the end of a slot (R333) -/

/-- What a slot begins with: held flits queued again, or data flits held. -/
def slotBegun (s : State) (p slot : Nat) : State :=
  if s.linkUsable p then releaseHeld s p else holdOwn p slot 19 (holdQueued s p)
theorem execRillSlot_up {s : State} {p : Fin 6} (slot : Fin 20) (hup : s.linkUp p = true) (hrun : s.running = true) :
    execRillSlot p slot s = .next (idleFlit (slotFlits p slot 19 (slotBegun s p slot)) p s.outbox.length) :=
  (if_neg (by simp [hrun])).trans (congrArg Host.Outcome.next (if_pos hup))

theorem releaseHeld_of_none {s : State} {p : Nat} (h : ∀ q ∈ s.rill.held, q.1 ≠ p) : releaseHeld s p = s := by
  have hmine : s.rill.held.filter (fun q => q.1 == p) = [] := List.filter_eq_nil_iff.2 fun q hq => by simpa using h q hq
  have hothers : s.rill.held.filter (fun q => q.1 != p) = s.rill.held := List.filter_eq_self.2 fun q hq => by simpa using h q hq
  unfold releaseHeld
  rw [hmine, hothers]
  rfl
theorem holdOwn_of_unreserved {s : State} {p slot : Nat} (h : entryOfSlot s p slot = 0) (n : Nat) : holdOwn p slot n s = s := by
  cases n with
  | zero => rfl
  | succ n =>
    unfold holdOwn
    rw [h]
    rfl
theorem holdFlit_entryOfSlot (s : State) (p : Nat) (f : Flit) (q slot : Nat) :
    entryOfSlot (holdFlit s p f) q slot = entryOfSlot s q slot :=
  have hm := holdFlit_moves s p f (.refl _ s) (.refl _)
  entryOfSlot_congr (hm.same .tables rfl) (hm.same .counter rfl) (holdFlit_reg s p f settled_rillAltActive) q slot
theorem holdQueued_entryOfSlot (s : State) (p q slot : Nat) : entryOfSlot (holdQueued s p) q slot = entryOfSlot s q slot :=
  forAll_induction (P := fun t => entryOfSlot t q slot = entryOfSlot s q slot) _ _ rfl fun _ _ h => (holdFlit_entryOfSlot ..).trans h
theorem holdFlit_held (s : State) (p : Nat) (f : Flit) : (holdFlit s p f).rill.held = s.rill.held ++ [(p, f)] := by
  unfold holdFlit
  extract_lets rill queued counted
  split
  · rfl
  · rw [raise_rill]; rfl
theorem holdAll_held (p : Nat) (fs : List Flit) (s : State) :
    (forAll fs (fun f s => holdFlit s p f) s).rill.held = s.rill.held ++ fs.map fun f => (p, f) := by
  induction fs generalizing s with
  | nil => exact (List.append_nil _).symm
  | cons f fs ih =>
    refine (ih (holdFlit s p f)).trans ?_
    rw [holdFlit_held, List.append_assoc]
    rfl
theorem holdQueued_held (s : State) (p : Nat) : (holdQueued s p).rill.held =
    s.rill.held ++ ((s.port p).sched.map (·.flit) ++ (s.port p).best).map fun f => (p, f) := holdAll_held ..
theorem holdQueued_of_none {s : State} {p : Nat} (hsched : (s.port p).sched = []) (hbest : (s.port p).best = []) :
    holdQueued s p = s.modPort p fun x => { x with sched := [], best := [] } := by
  unfold holdQueued
  dsimp only
  rw [hsched, hbest]
  rfl

theorem slotBegun_usable {s : State} {p : Nat} (slot : Nat) (huse : s.linkUsable p = true) (hheld : ∀ q ∈ s.rill.held, q.1 ≠ p) :
    slotBegun s p slot = s := (if_pos huse).trans (releaseHeld_of_none hheld)
theorem slotBegun_unusable {s : State} {p slot : Nat} (huse : s.linkUsable p = false) (hentry : entryOfSlot s p slot = 0) :
    slotBegun s p slot = holdQueued s p :=
  (if_neg (by rw [huse]; decide)).trans (holdOwn_of_unreserved ((holdQueued_entryOfSlot ..).trans hentry) 19)
/-- A port with no data flits that wait begins a slot that is not reserved as it was, usable or not. -/
theorem slotBegun_no_data {s : State} {p slot : Nat} (hsched : (s.port p).sched = []) (hbest : (s.port p).best = [])
    (hheld : ∀ q ∈ s.rill.held, q.1 ≠ p) (hentry : entryOfSlot s p slot = 0) : (slotBegun s p slot).port p = s.port p ∧
      entryOfSlot (slotBegun s p slot) p slot = 0 ∧ (slotBegun s p slot).outbox = s.outbox := by
  cases huse : s.linkUsable p with
  | true => rw [slotBegun_usable slot huse hheld]; exact ⟨rfl, hentry, rfl⟩
  | false =>
    rw [slotBegun_unusable huse hentry]
    refine ⟨?_, (holdQueued_entryOfSlot ..).trans hentry, ?_⟩
    · rw [holdQueued_of_none hsched hbest, modPort_self, ← hsched, ← hbest]
    · rw [holdQueued_of_none hsched hbest]; rfl

theorem idleFlit_of_sent {s : State} {before : Nat} (p : Nat) (h : s.outbox.length ≠ before) : idleFlit s p before = s :=
  if_neg (by simp [h])
theorem idleFlit_answers {s : State} {p : Nat} (h : (s.port p).nak = true) : idleFlit s p s.outbox.length = putLink s p { kind := 2 } :=
  if_pos (by simp [h])
theorem idleFlit_of_quiet {s : State} {p : Nat} (before : Nat) (hnak : (s.port p).nak = false) (hfreed : (s.port p).freed = []) :
    idleFlit s p before = s := if_neg (by simp [hnak, hfreed])

/-! ### The statement -/

/-- Settles O47: what a flit that arrives leaves of its port by the case of R326, and what a slot sends or holds. -/
theorem flitCommandsComplete : Obligations.FlitCommandsComplete := by
  refine fun s p hup hrun => ⟨?refused, ?eighth, ?skipped, ?inOrder, ?control, ?held, ?answer⟩
  case refused =>
    intro r hbad hfew
    refine ⟨_, (execRillFlitRx_refuses hup hrun hbad).trans (congrArg _ (refuseFlit_of_few _ _ hfew)), ?_⟩
    beta_reduce
    rw [cutShort_refusal_port, cutShort_reg]
    refine ⟨rfl, rfl, rfl, ?_⟩
    rw [refusalNoted, modPort_reg, bump_reg, if_pos rfl, size_rillPUe, correctedNoted, bump_reg_of_sub _ _ _ (by simp)]
    rfl
  case eighth =>
    intro r hbad height
    refine ⟨_, (execRillFlitRx_refuses hup hrun hbad).trans (congrArg _ (refuseFlit_of_eighth _ _ height)), ?_⟩
    beta_reduce
    rw [port_congr (laneCheck_rill ..), modPort_self, cutShort_refusal_port]
    refine ⟨rfl, rfl, laneCheck_pState ((linkUp_congr ?_).trans hup)⟩
    rw [modPort_reg, cutShort_reg, refusalNoted, modPort_reg, bump_reg_of_sub _ _ _ (by simp), correctedNoted,
      bump_reg_of_sub _ _ _ (by simp)]
  case skipped =>
    intro r hcrc hue hskip
    obtain ⟨u, rep, c, hport⟩ := trailerTaken_port s p r
    obtain ⟨hcolls, hheld⟩ := trailerTaken_rest s p r
    by_cases hkind : 2 ≤ r.kind.toNat
    · exact ⟨_, execRillFlitRx_idle hup hrun hcrc hue hkind, by rw [hport], by rw [hport], hcolls, hheld⟩
    · have hseq : r.seq.toNat ≠ ((trailerTaken s p r).port p).rxSeq := by rw [hport]; exact hskip.resolve_left hkind
      refine ⟨_, execRillFlitRx_outOfOrder hup hrun hcrc hue hkind hseq, ?_, ?_, hcolls, hheld⟩
      · rw [gapNoted, modPort_self, hport]
      · rw [gapNoted, modPort_self, hport]
  case inOrder =>
    intro r hcrc hue hkind hseq
    obtain ⟨u, rep, c, hport⟩ := trailerTaken_port s p r
    have hadvanced : (orderAdvanced (trailerTaken s p r) p).port p = _ := modPort_self ..
    obtain ⟨hrx, hrefused⟩ := (OrderKept.refl (orderAdvanced (trailerTaken s p r) p)).takeFlit p r.slot (arrivedFlit p r) p
    refine ⟨_, execRillFlitRx_inOrder hup hrun hcrc hue ?_ ?_, ?_, ?_⟩
    · rw [trailerTaken_nbrOk]; exact hkind
    · rw [hport]; exact hseq
    · rw [hrx, hadvanced, hport]
    · rw [hrefused, hadvanced, hport]
  case control =>
    intro slot f hreplay hsched hctl hbest hheld hentry hsend
    obtain ⟨hport, hbegun, hout⟩ := slotBegun_no_data hsched hbest hheld hentry
    have hsent := slotFlits_control (s := slotBegun s p slot) 18 hbegun (by rw [hport]; exact hreplay) (by rw [hport]; exact hsched)
      (by rw [hport]; exact hctl) (by rw [hport]; exact hbest) (by unfold canSend; rw [hport]; exact hsend)
    have hlength := sendFlit_outbox ((slotBegun s p slot).modPort p fun x => { x with ctl := x.ctl.drop 1 }) p f
    have hcount : (slotFlits p slot 19 (slotBegun s p slot)).outbox.length = s.outbox.length + 1 := by
      rw [hsent, hlength]; exact congrArg (List.length · + 1) hout
    obtain ⟨c, m, hleft⟩ := sendFlit_port ((slotBegun s p slot).modPort p fun x => { x with ctl := x.ctl.drop 1 }) p f
    rw [modPort_self, hport] at hleft
    refine ⟨_, (execRillSlot_up slot hup hrun).trans (congrArg _ (idleFlit_of_sent p (by rw [hcount]; omega))), ?_, ?_, ?_, hcount⟩
    · rw [hsent, hleft]; simp [hctl]
    · rw [hsent, hleft]
    · rw [hsent, hleft]
  case held =>
    intro slot huse hentry
    refine ⟨_, execRillSlot_up slot hup hrun, ?_⟩
    beta_reduce
    rw [idleFlit_held, slotFlits_held, slotBegun_unusable huse hentry]
    exact holdQueued_held s p
  case answer =>
    intro slot huse hheld hnext
    have hslot := (execRillSlot_up slot hup hrun).trans (by
      rw [slotBegun_usable slot huse hheld, slotFlits_none (Option.isNone_iff_eq_none.1 hnext)])
    refine ⟨fun hnak => ?_, fun hnak hfreed => ?_⟩
    · rw [idleFlit_answers hnak] at hslot
      obtain ⟨m, hput⟩ := putLink_port s p { kind := 2 }
      exact ⟨_, hslot, by rw [hput], putLink_outbox ..⟩
    · rw [idleFlit_of_quiet _ hnak hfreed] at hslot
      exact ⟨s, hslot, rfl⟩

end Sys2Proof.Machine
end

section
/-! Ethernet ports and queue pairs (R351–R357). Frames heard and sent change the counts of frames, what waits at a port and what is sent, and
nothing else of the network (`NetKept`); queue pairs that move change their records besides. -/

namespace Sys2Proof.Machine

/-! ### What frames leave as it was -/

/-- The parts that frames heard and sent change. -/
def frameParts : Nat := maskOf [.outbox, .net, .obj 0x72]
/-- The parts that queue pairs change as they move. -/
def moveParts : Nat := maskOf [.outbox, .net, .obj 0x72, .obj 0x74]
theorem frameParts_sub_moveParts : Sub frameParts moveParts := by decide

/-- Of the objects of the ports at most the counts of frames change. -/
def PortObjsKept (s t : State) : Prop := ∀ k, page k = 0x72 → k % 256 ≠ 6 → k % 256 ≠ 7 → t.reg k = s.reg k

namespace PortObjsKept
variable {s0 s t : State}

theorem refl (s : State) : PortObjsKept s s := fun _ _ _ _ => rfl
theorem trans (h : PortObjsKept s0 s) (h2 : PortObjsKept s t) : PortObjsKept s0 t :=
  fun k hk hr ht => (h2 k hk hr ht).trans (h k hk hr ht)
theorem of_moves {A : Nat} (h : Moves A s t) (hA : A.testBit (Comp.obj 0x72).index = false) : PortObjsKept s t :=
  fun k hk _ _ => h.same (.obj 0x72) hA k hk

end PortObjsKept

/-- Within the parts of `A`, of the network only what waits at ports changes, and of the objects of ports only the counts of frames. -/
structure NetKept (A : Nat) (s t : State) : Prop where
  moves : Moves A s t
  net : { t.net with ports := [] } = { s.net with ports := [] }
  eth : ∀ p, { t.eth p with waiting := [] } = { s.eth p with waiting := [] }
  objs : PortObjsKept s t

@[simp] theorem modEth_eth (s : State) (p q : Nat) (f : EthPort → EthPort) :
    (s.modEth p f).eth q = if q = p then f (s.eth p) else s.eth q := smGet_set ..
@[simp] theorem modQp_qp (s : State) (i j : Nat) (f : Qp → Qp) :
    (s.modQp i f).qp j = if j = i then f (s.qp i) else s.qp j := smGet_set ..

@[simp] theorem sub_ethPState (n : Nat) : Obj.ethPState n % 256 = 1 := by unfold Obj.ethPState ob; omega
@[simp] theorem sub_ethPEnable (n : Nat) : Obj.ethPEnable n % 256 = 2 := by unfold Obj.ethPEnable ob; omega
@[simp] theorem sub_ethPRxFrames (n : Nat) : Obj.ethPRxFrames n % 256 = 6 := by unfold Obj.ethPRxFrames ob; omega
@[simp] theorem sub_ethPTxFrames (n : Nat) : Obj.ethPTxFrames n % 256 = 7 := by unfold Obj.ethPTxFrames ob; omega
@[simp] theorem sub_ethPDrops (n : Nat) : Obj.ethPDrops n % 256 = 8 := by unfold Obj.ethPDrops ob; omega
@[simp] theorem sub_ethPLinkDowns (n : Nat) : Obj.ethPLinkDowns n % 256 = 10 := by unfold Obj.ethPLinkDowns ob; omega

namespace NetKept
variable {A : Nat} {s0 s t : State}

theorem refl (A : Nat) (s : State) : NetKept A s s := ⟨.refl A s, rfl, fun _ => rfl, .refl s⟩
theorem trans (h : NetKept A s0 s) (h2 : NetKept A s t) : NetKept A s0 t :=
  ⟨h.moves.after h2.moves, h2.net.trans h.net, fun p => (h2.eth p).trans (h.eth p), h.objs.trans h2.objs⟩

/-! What is read of the network stays as it was. -/

theorem qp (h : NetKept A s t) (i : Nat) : t.qp i = s.qp i := (congrArg (fun n : NetState => smGet dQp n.qps i) h.net :)
theorem chan (h : NetKept A s t) (k : Nat) : t.chan k = s.chan k := (congrArg (fun n : NetState => smGet dChan n.chans k) h.net :)
theorem ptp (h : NetKept A s t) : t.net.ptp = s.net.ptp := (congrArg NetState.ptp h.net :)
theorem cons (h : NetKept A s t) : t.net.cons = s.net.cons := (congrArg NetState.cons h.net :)
theorem hostPending (h : NetKept A s t) : t.net.hostPending = s.net.hostPending := (congrArg NetState.hostPending h.net :)
theorem hostMask (h : NetKept A s t) : t.net.hostMask = s.net.hostMask := (congrArg NetState.hostMask h.net :)
theorem pause (h : NetKept A s t) (p : Nat) : (t.eth p).pause = (s.eth p).pause := (congrArg EthPort.pause (h.eth p) :)
theorem link (h : NetKept A s t) (p : Nat) : (t.eth p).link = (s.eth p).link := (congrArg EthPort.link (h.eth p) :)
theorem pState (h : NetKept A s t) (p : Nat) : t.reg (Obj.ethPState p) = s.reg (Obj.ethPState p) :=
  h.objs _ (page_ethPState p) (by simp) (by simp)
theorem portUp (h : NetKept A s t) (p : Nat) : t.portUp p = s.portUp p := by unfold State.portUp; rw [h.pState]

/-- An object of another page than the ports' reads the same after frames. -/
theorem reg (h : NetKept frameParts s t) {k : Nat} (hk : page k ≠ 0x72) : t.reg k = s.reg k := by
  refine h.moves.frame (c := .obj ⟨page k, Nat.mod_lt _ (by decide)⟩) ?_ k rfl
  simp only [List.mem_cons, reduceCtorEq, Comp.obj.injEq, List.not_mem_nil, or_false, false_or]
  exact fun h => hk (congrArg Fin.val h)
theorem qpRec (h : NetKept frameParts s t) (i : Nat) : t.qpRec i = s.qpRec i := h.reg (by rw [page_ofUnit i page_roceQp]; decide)
theorem qpState (h : NetKept frameParts s t) (i : Nat) : t.qpState i = s.qpState i := by
  unfold State.qpState State.qpFld; rw [h.qpRec]
theorem qpPort (h : NetKept frameParts s t) (i : Nat) : t.qpPort i = s.qpPort i := by
  unfold State.qpPort State.qpFld; rw [h.qpRec]

/-! Sending and hearing frames, and queue pairs that move. -/

theorem count (h : NetKept A s0 s) {k : Nat} (n : Nat) (hpage : page k = 0x72) (hsub : k % 256 = 6 ∨ k % 256 = 7)
    (hA : Sub frameParts A) : NetKept A s0 (s.bump k n) :=
  h.trans ⟨bump_moves k n hpage (.refl _ s) (Sub.trans (by decide) hA), rfl, fun _ => rfl,
    fun j _ hr ht => bump_reg_of_sub s k n (by omega)⟩
theorem emit (h : NetKept A s0 s) (o : Out) (hA : Sub frameParts A) : NetKept A s0 (s.emit o) :=
  h.trans ⟨State_emit_moves s o (.refl _ s) (Sub.trans (by decide) hA), rfl, fun _ => rfl, .refl s⟩
theorem waits (h : NetKept A s0 s) (p : Nat) (w : List Out) (hA : Sub frameParts A) :
    NetKept A s0 (s.modEth p fun e => { e with waiting := w }) :=
  h.trans ⟨State_modEth_moves s p _ (.refl _ s) (Sub.trans (by decide) hA), rfl, fun q => by rw [modEth_eth]; split <;> simp_all,
    .refl s⟩
theorem rxFrame (h : NetKept A s0 s) (p : Nat) (hA : Sub frameParts A) : NetKept A s0 (rxFrame s p) := by
  unfold Machine.rxFrame
  split
  · exact h.count 1 (page_ethPRxFrames p) (by simp) hA
  · exact h
theorem txFrame (h : NetKept A s0 s) (p : Nat) (o : Out) (hA : Sub frameParts A) : NetKept A s0 (txFrame s p o) :=
  (h.count _ (page_ethPTxFrames p) (by simp) hA).emit o hA
theorem roceEmit (h : NetKept A s0 s) (p : Nat) (o : Out) (hA : Sub frameParts A) : NetKept A s0 (roceEmit s p o) := by
  unfold Machine.roceEmit
  split
  · exact h
  · split
    · exact h.waits p _ hA
    · exact h.txFrame p o hA
theorem noteEcn (h : NetKept A s0 s) (i : Nat) (hdr : RoceHdr) (hA : Sub frameParts A) : NetKept A s0 (noteEcn s i hdr) := by
  unfold Machine.noteEcn
  split
  · exact h.roceEmit _ _ hA
  · exact h
theorem qpResend (h : NetKept A s0 s) (i : Nat) (hA : Sub frameParts A) : NetKept A s0 (qpResend s i) :=
  forAll_induction _ _ h fun _ _ h => h.roceEmit _ _ hA
theorem endPauses (h : NetKept A s0 s) (hA : Sub frameParts A) : NetKept A s0 (endPauses s) :=
  forAll_induction _ _ h fun p _ h => forAll_induction _ _ (h.waits p [] hA) fun _ _ h => h.txFrame p _ hA
theorem setQpFld (h : NetKept A s0 s) (i off size v : Nat) (hA : Sub moveParts A) : NetKept A s0 (s.setQpFld i off size v) := by
  have hset := State_setQpFld_moves s i off size v (.refl _ s) (.refl _)
  exact h.trans ⟨hset.mono (Sub.trans (by decide) hA), rfl, fun _ => rfl, .of_moves hset (by decide)⟩
theorem qpMove (h : NetKept A s0 s) (i : Nat) (hA : Sub moveParts A) : NetKept A s0 (qpMove s i) := by
  unfold Machine.qpMove
  dsimp only
  split
  · exact h
  · split
    · exact (h.setQpFld _ _ _ _ hA).qpResend _ (frameParts_sub_moveParts.trans hA)
    · split
      · exact h.setQpFld _ _ _ _ hA
      · exact h
theorem qpsMove (h : NetKept A s0 s) (net : Nat) (hA : Sub moveParts A) : NetKept A s0 (qpsMove s net) :=
  forAll_induction _ _ h fun _ _ h => h.qpMove _ hA

end NetKept

theorem rxFrame_net (s : State) (p : Nat) : (rxFrame s p).net = s.net := by unfold rxFrame; split <;> rfl
theorem rxFrame_outbox (s : State) (p : Nat) : (rxFrame s p).outbox = s.outbox := by unfold rxFrame; split <;> rfl
theorem rxFrame_counter (s : State) (p : Nat) : (rxFrame s p).counter = s.counter := by unfold rxFrame; split <;> rfl
theorem rxFrame_kept (s : State) (p : Nat) : NetKept frameParts s (rxFrame s p) := (NetKept.refl _ s).rxFrame p (.refl _)

end Sys2Proof.Machine
end

section
/-! The PTP client and `pps_in` (R351, R359–R361). -/

namespace Sys2Proof.Machine

/-! ### An edge of `pps_in` -/

theorem execPpsInEdge_off {s : State} {ns : Fin 1000} (hrun : s.running = true) (hmode : s.reg Obj.ptpPpsMode = 1)
    (hoff : 1000 < ppsError (stampOf s ns)) : execPpsInEdge ns s = .next (raise s 0x7C02 .note uDevice) :=
  if_pos (by simp [hrun, hmode, hoff])
theorem execPpsInEdge_near {s : State} {ns : Fin 1000} (hnear : ppsError (stampOf s ns) ≤ 1000) : execPpsInEdge ns s = .next s :=
  if_neg (by simp [Nat.not_lt.2 hnear])
theorem execPpsInEdge_ignored {s : State} (ns : Fin 1000) (hmode : s.reg Obj.ptpPpsMode = 0) : execPpsInEdge ns s = .next s :=
  if_neg (by simp [hmode])

/-- Settles O59: a note is all that an edge off its second leaves. -/
theorem ppsEdgeCompared : Obligations.PpsEdgeCompared := by
  intro s ns
  refine ⟨fun hrun hmode hoff => ⟨_, execPpsInEdge_off hrun hmode hoff, raise_reports _ _ _ _ _, fun k hk => ?_⟩,
    fun _ hnear => execPpsInEdge_near hnear, fun hmode => execPpsInEdge_ignored ns hmode⟩
  exact (raise_records s 0x7C02 .note uDevice noPos).frame hk

/-! ### What the client hears -/

theorem NetKept.ptpListens {s t : State} (h : NetKept frameParts s t) (port : Nat) : ptpListens t port = ptpListens s port := by
  unfold Machine.ptpListens; rw [h.portUp, h.reg (by decide)]
theorem NetKept.fromServer {s t : State} (h : NetKept frameParts s t) (port domain server : Nat) :
    fromServer t port domain server = fromServer s port domain server := by
  unfold Machine.fromServer ptpChosen ptpMaster
  rw [h.ptpListens, h.ptp, h.reg (by decide : page Obj.ptpDomain ≠ _), h.reg (by decide : page Obj.ptpPort ≠ _),
    h.reg (by decide : page Obj.ptpServer ≠ _)]

/-- The choice of a server keeps the servers heard. -/
theorem ptpChoose_masters (s : State) : (ptpChoose s).net.ptp.masters = s.net.ptp.masters := by
  unfold ptpChoose
  dsimp only
  split
  · rfl
  · split
    · rfl
    · split
      · rw [raise_net]; rfl
      · rfl

/-- The server with the port that heard it among its ports. -/
def heardMaster (s : State) (port : Nat) (server : BitVec 64) (rank : List (BitVec 64)) (steps : BitVec 16) : PtpMaster :=
  { rank := rank.map (·.toNat), steps := steps.toNat, id := server.toNat,
    ports := insertNum port ((ptpMaster s server.toNat).map (·.ports) |>.getD []) }
theorem execPtpAnnounceRx_keeps {s : State} {port : Fin 8} {domain : BitVec 8} (server : BitVec 64) (rank : List (BitVec 64))
    (steps : BitVec 16) (hlisten : ptpListens s port.val = true) (hdomain : s.reg Obj.ptpDomain = domain.toNat) :
    ∃ t, execPtpAnnounceRx port domain server rank steps s = .next t ∧
      heardMaster (rxFrame s port) port server rank steps ∈ t.net.ptp.masters := by
  have hframe := rxFrame_kept s port
  refine ⟨_, if_neg ?_, ?_⟩
  · rw [hframe.ptpListens, hlisten, hframe.reg (by decide), hdomain]; simp
  · rw [ptpChoose_masters]
    exact List.mem_append_right _ (List.mem_singleton_self _)

/-! ### An offset measured -/

theorem ptpLock_net (s : State) : (ptpLock s).net = s.net := by unfold ptpLock; split <;> rfl
theorem ptpLock_cadOffset (s : State) : (ptpLock s).reg Obj.cadOffset = s.reg Obj.cadOffset := by
  unfold ptpLock
  split
  · rfl
  · exact (setReg_reg s Obj.cadSyncState 1 Obj.cadOffset).trans (if_neg (by decide))
theorem ptpOffsetEvent_ptp (s : State) (o : Int) : ∃ high, (ptpOffsetEvent s o).net.ptp = { s.net.ptp with high := high } := by
  unfold ptpOffsetEvent
  split
  · exact ⟨true, by rw [raise_net]; rfl⟩
  · split
    · exact ⟨false, rfl⟩
    · exact ⟨s.net.ptp.high, rfl⟩
theorem addHold_net (s : State) (h : Hold) : (s.addHold h).net = s.net := by unfold State.addHold; split <;> rfl
theorem addHold_reg (s : State) (h : Hold) (k : Nat) : (s.addHold h).reg k = s.reg k := by unfold State.addHold; split <;> rfl
theorem i32_lt (x : Int) : i32 x < 2 ^ 32 := by unfold i32; omega

/-- An offset is shown and counted; a large one is to be corrected. The measurement it came from stays. -/
theorem ptpOffset_ptp (s : State) (o : Int) : ∃ good high correction,
    (ptpOffset s o).net.ptp = { s.net.ptp with good := good, high := high, correction := correction } := by
  unfold ptpOffset
  extract_lets shown good seen
  obtain ⟨high, hseen⟩ := ptpOffsetEvent_ptp (ptpLock good) o
  rw [ptpLock_net] at hseen
  split
  · exact ⟨_, _, _, hseen⟩
  · refine ⟨good.net.ptp.good, high, some (-o), ?_⟩
    show { (seen.addHold .offset).net.ptp with correction := some (-o) } = _
    rw [addHold_net, hseen]
    rfl
theorem ptpOffset_cadOffset (s : State) (o : Int) : (ptpOffset s o).reg Obj.cadOffset = i32 o := by
  unfold ptpOffset
  extract_lets shown good seen
  have hshown : shown.reg Obj.cadOffset = i32 o := (setReg_reg ..).trans ((if_pos rfl).trans (Nat.mod_eq_of_lt (i32_lt o)))
  have hseen : seen.reg Obj.cadOffset = i32 o :=
    ((ptpOffsetEvent_moves (ptpLock good) o (.refl _ _) (.refl _)).reg _ (by decide)).trans ((ptpLock_cadOffset good).trans hshown)
  split
  · exact hseen
  · exact (addHold_reg seen .offset _).trans hseen

/-- A measurement is kept as the last, and gives the offset (R359). -/
theorem ptpMeasure_ptp (s : State) (t1 t2 : Int) : (ptpMeasure s t1 t2).net.ptp.last = some (t1, t2) ∧
    (ptpMeasure s t1 t2).net.ptp.waiting = none ∧ (ptpMeasure s t1 t2).net.ptp.lastSync = s.net.ptp.lastSync ∧
    (ptpMeasure s t1 t2).reg Obj.cadOffset = i32 (t2 - t1 - s.net.ptp.delay) := by
  obtain ⟨good, high, correction, hptp⟩ := ptpOffset_ptp (modPtp s fun p => { p with last := some (t1, t2), waiting := none })
    (t2 - t1 - s.net.ptp.delay)
  exact ⟨(congrArg PtpState.last hptp :), (congrArg PtpState.waiting hptp :), (congrArg PtpState.lastSync hptp :), ptpOffset_cadOffset ..⟩

/-! ### Sync, Follow_Up, Delay_Req and Delay_Resp -/

/-- A Sync of the chosen server noted: it is the last valid one. -/
def syncNoted (s : State) (port : Nat) : State := modPtp (rxFrame s port) fun p => { p with lastSync := some s.beat }

section
variable {s : State} {port : Fin 8} {domain : BitVec 8} {server : BitVec 64} (seq : BitVec 16) (origin : BitVec 64) (ns : Fin 1000)
  (hfrom : fromServer s port.val domain.toNat server.toNat = true)
include hfrom

theorem execPtpSyncRx_heard (twoStep : Bool) : execPtpSyncRx port domain server seq twoStep origin ns s =
    if s.reg Obj.ptpPort ≠ port then .next (syncNoted s port)
    else if twoStep then .next (modPtp (syncNoted s port) fun p => { p with waiting := some (seq.toNat, (stampOf s ns : Int)) })
    else .next (ptpMeasure (syncNoted s port) origin.toNat (stampOf s ns)) := by
  have hframe := rxFrame_kept s port
  unfold execPtpSyncRx
  extract_lets t noted
  have hcounter : t.counter = s.counter := rxFrame_counter s port
  have hnoted : noted = syncNoted s port := by
    unfold noted syncNoted State.beat; rw [hcounter]
  rw [if_neg (by rw [hframe.fromServer, hfrom]; decide), hnoted]
  have hport : (syncNoted s port).reg Obj.ptpPort = s.reg Obj.ptpPort := hframe.reg (by decide)
  have hstamp : stampOf (syncNoted s port) ns = stampOf s ns := congrArg (· + ns.val) hcounter
  rw [hport, hstamp]

variable (hport : s.reg Obj.ptpPort = port.val)
include hport

theorem execPtpFollowUpRx_heard {t2 : Int} (hwait : s.net.ptp.waiting = some (seq.toNat, t2)) :
    execPtpFollowUpRx port domain server seq origin s = .next (ptpMeasure (rxFrame s port) origin.toNat t2) := by
  have hframe := rxFrame_kept s port
  unfold execPtpFollowUpRx
  simp only [hframe.ptp, hwait, hframe.fromServer, hfrom, hframe.reg (by decide : page Obj.ptpPort ≠ 0x72), hport]
  simp
theorem execPtpDelayRespRx_heard {t1 t2 t3 : Int} (hreq : s.net.ptp.delayReq = some (seq.toNat, t3)) (hlast : s.net.ptp.last = some (t1, t2)) :
    execPtpDelayRespRx port domain server seq origin s = .next (modPtp (rxFrame s port) fun p =>
      { p with delayReq := none, delay := ((t2 - t1) + ((origin.toNat : Int) - t3)) / 2 }) := by
  have hframe := rxFrame_kept s port
  unfold execPtpDelayRespRx
  simp only [hframe.ptp, hreq, hlast, hframe.fromServer, hfrom, hframe.reg (by decide : page Obj.ptpPort ≠ 0x72), hport]
  simp

end

theorem execPtpDelayReqSend_chosen {s : State} (ns : Fin 1000) (h : (ptpChosen s).isSome = true) :
    execPtpDelayReqSend ns s = .next (txFrame (modPtp s fun p =>
      { p with delayReq := some (s.net.ptp.reqSeq, (stampOf s ns : Int)), reqSeq := (s.net.ptp.reqSeq + 1) % 65536 })
      (s.reg Obj.ptpPort) (.delayReq (s.reg Obj.ptpPort) s.net.ptp.reqSeq)) :=
  if_neg (by rw [Option.isNone_eq_false_iff.2 h]; decide)

/-- Settles O2: each message heard is the chosen server's, so it is kept or measured. -/
theorem ptpCommandsComplete : Obligations.PtpCommandsComplete := by
  intro s port domain server seq origin ns
  have hnet := rxFrame_net s port
  refine ⟨?announce, ?otherPort, ?twoStep, ?oneStep, ?followUp, ?delayReq, ?delayResp⟩
  case announce =>
    intro rank steps hlisten hdomain
    obtain ⟨t, hrun, hmem⟩ := execPtpAnnounceRx_keeps server rank steps hlisten hdomain
    exact ⟨t, hrun, _, hmem, rfl, rfl, rfl, mem_insertNum ..⟩
  case otherPort =>
    intro hfrom hport twoStep
    refine ⟨_, (execPtpSyncRx_heard seq origin ns hfrom twoStep).trans (if_pos hport), rfl, ?_, (rxFrame_kept s port).reg (by decide)⟩
    exact congrArg (·.ptp.last) hnet
  case twoStep =>
    intro hfrom hport
    exact ⟨_, (execPtpSyncRx_heard seq origin ns hfrom true).trans ((if_neg (not_not.2 hport)).trans (if_pos rfl)), rfl, rfl,
      (rxFrame_kept s port).reg (by decide)⟩
  case oneStep =>
    intro hfrom hport
    obtain ⟨hlast, _, hsync, hoffset⟩ := ptpMeasure_ptp (syncNoted s port) origin.toNat (stampOf s ns)
    refine ⟨_, (execPtpSyncRx_heard seq origin ns hfrom false).trans ((if_neg (not_not.2 hport)).trans (if_neg Bool.false_ne_true)),
      hsync, hlast, hoffset.trans ?_⟩
    have hdelay : (syncNoted s port).net.ptp.delay = s.net.ptp.delay := congrArg (·.ptp.delay) hnet
    rw [hdelay]
    rfl
  case followUp =>
    intro t2 hwait hfrom hport
    obtain ⟨hlast, hnone, _, hoffset⟩ := ptpMeasure_ptp (rxFrame s port) origin.toNat t2
    exact ⟨_, execPtpFollowUpRx_heard seq origin hfrom hport hwait, hlast, hnone, by rw [hoffset, hnet]⟩
  case delayReq =>
    intro hchosen
    exact ⟨_, execPtpDelayReqSend_chosen ns hchosen, rfl, rfl, List.getLast?_concat⟩
  case delayResp =>
    intro t1 t2 t3 hreq hlast hfrom hport
    exact ⟨_, execPtpDelayRespRx_heard seq origin hfrom hport hreq hlast, rfl, rfl⟩

end Sys2Proof.Machine
end

section
/-! Ethernet ports (R351–R355): what an UP port receives, and the states of a port. -/

namespace Sys2Proof.Machine

/-! ### Frames that an UP port hears and answers -/

section
variable {s : State} {p : Fin 8} (hup : s.portUp p = true)
include hup

theorem rxFrame_counted : (rxFrame s p).reg (Obj.ethPRxFrames p) = min (s.reg (Obj.ethPRxFrames p) + 1) (2 ^ 64 - 1) := by
  rw [rxFrame, if_pos hup]
  exact bump_u64 s (size_ethPRxFrames p)
/-- An answer is sent after the frame it answers is counted. -/
theorem txFrame_answers (o : Out) : (txFrame (rxFrame s p) p o).reg (Obj.ethPRxFrames p) = min (s.reg (Obj.ethPRxFrames p) + 1) (2 ^ 64 - 1) ∧
    (txFrame (rxFrame s p) p o).outbox = s.outbox ++ [o] :=
  ⟨(bump_reg_of_sub _ _ _ (by simp)).trans (rxFrame_counted hup), congrArg (· ++ [o]) (rxFrame_outbox s p)⟩
theorem heard_unanswered : (rxFrame s p).reg (Obj.ethPRxFrames p) = min (s.reg (Obj.ethPRxFrames p) + 1) (2 ^ 64 - 1) ∧
    (rxFrame s p).outbox = s.outbox := ⟨rxFrame_counted hup, rxFrame_outbox s p⟩

theorem execIcmpEchoRx_own {v6 : Bool} {ip : BitVec 128} (payload : List Byte) (hip : ip.toNat ≠ 0)
    (hown : s.reg (if v6 then Obj.ethNIpv6 (p.val / 4) else Obj.ethNIpv4 (p.val / 4)) = ip.toNat) :
    execIcmpEchoRx p v6 ip false payload s = .next (txFrame (rxFrame s p) p (.echoReply p payload)) := by
  simp [execIcmpEchoRx, hup, hown, hip]
theorem execIcmpEchoRx_fragment (v6 : Bool) (ip : BitVec 128) (payload : List Byte) :
    execIcmpEchoRx p v6 ip true payload s = .next ((rxFrame s p).bump (Obj.ethPDrops p) 1) := by
  simp [execIcmpEchoRx, hup]
theorem execPfcFrameRx_pauses {enable : BitVec 8} (quanta : BitVec 16)
    (hprio : bitOf enable.toNat (s.reg (Obj.ethNRocePrio (p.val / 4))) = true) : execPfcFrameRx p enable quanta s =
      .next (endPauses ((rxFrame s p).modEth p fun e => { e with pause := s.beat + quantaBeats quanta.toNat })) :=
  if_neg (by simp [hup, hprio])

end

theorem execPfcFrameRx_other {s : State} {p : Fin 8} {enable : BitVec 8} (quanta : BitVec 16)
    (hprio : bitOf enable.toNat (s.reg (Obj.ethNRocePrio (p.val / 4))) = false) :
    execPfcFrameRx p enable quanta s = .next (rxFrame s p) := if_pos (by simp [hprio])

theorem toNat_ne_zero {w : Nat} {ip : BitVec w} (h : ip ≠ 0) : ip.toNat ≠ 0 := fun h0 => h (BitVec.eq_of_toNat_eq h0)

/-! ### The end of a pause -/

/-- What waits at a port leaves by it. -/
def endPause (p : Nat) (s : State) : State :=
  forAll (s.eth p).waiting (fun o s => txFrame s p o) (s.modEth p fun e => { e with waiting := [] })
theorem endPauses_eq (s : State) : endPauses s =
    forAll ((List.range 8).filter fun p => decide ((s.eth p).pause ≤ s.beat) && !(s.eth p).waiting.isEmpty) endPause s := rfl

theorem endPause_waiting (p : Nat) (s : State) (q : Nat) :
    ((endPause p s).eth q).waiting = if q = p then [] else (s.eth q).waiting := by
  have hsent : (endPause p s).eth q = (s.modEth p fun e => { e with waiting := [] }).eth q :=
    forAll_induction (P := fun t => t.eth q = (s.modEth p fun e => { e with waiting := [] }).eth q) _ _ rfl fun _ _ h => h
  rw [hsent, modEth_eth]
  split <;> rfl
/-- Once nothing waits at a port, the ends of pauses leave it so. -/
theorem forAll_endPause_empty (ps : List Nat) {s : State} {q : Nat} (h : (s.eth q).waiting = []) :
    ((forAll ps endPause s).eth q).waiting = [] :=
  forAll_induction (P := fun t => (t.eth q).waiting = []) ps endPause h fun p t ht => by rw [endPause_waiting, ht, ite_self]
theorem forAll_endPause_mem {ps : List Nat} (s : State) {q : Nat} (h : q ∈ ps) : ((forAll ps endPause s).eth q).waiting = [] := by
  induction ps generalizing s with
  | nil => cases h
  | cons p ps ih =>
    rcases List.mem_cons.1 h with rfl | h
    · exact forAll_endPause_empty ps ((endPause_waiting q s q).trans (if_pos rfl))
    · exact ih _ h
/-- Nothing waits at a port whose pause is over. -/
theorem endPauses_waiting {s : State} {p : Nat} (hp : p < 8) (hover : (s.eth p).pause ≤ s.beat) : ((endPauses s).eth p).waiting = [] := by
  rw [endPauses_eq]
  by_cases hnone : (s.eth p).waiting = []
  · exact forAll_endPause_empty _ hnone
  · exact forAll_endPause_mem s (by simp [hp, hover, hnone])

theorem endPauses_paused (s : State) (p : Fin 8) (quanta : BitVec 16) :
    let t := endPauses ((rxFrame s p).modEth p fun e => { e with pause := s.beat + quantaBeats quanta.toNat })
    (t.eth p).pause = s.beat + quantaBeats quanta.toNat ∧ (quanta = 0 → (t.eth p).waiting = []) := by
  extract_lets t
  have hpause : (((rxFrame s p).modEth p fun e => { e with pause := s.beat + quantaBeats quanta.toNat }).eth p).pause =
      s.beat + quantaBeats quanta.toNat := by rw [modEth_eth, if_pos rfl]
  refine ⟨(((NetKept.refl frameParts _).endPauses (.refl _)).pause p).trans hpause, ?_⟩
  intro hzero
  have hbeats : quantaBeats quanta.toNat = 0 := by rw [hzero]; rfl
  refine endPauses_waiting p.isLt (hpause.trans_le ?_)
  rw [hbeats]
  exact (congrArg (· / 1000) (rxFrame_counter s p)).ge

/-- Settles O36: the frame is counted, and answered where it asks for the network's own address. -/
theorem ethernetFramesComplete : Obligations.EthernetFramesComplete := by
  intro s p hup counted
  refine ⟨?arp, ?arpOther, ?neighbour, ?neighbourOther, ?echo, ?fragment, ?pause, ?pauseOther⟩
  case arp =>
    intro ip hip hown
    have hrun : execArpRequestRx p ip s = _ := if_pos ⟨hup, hown ▸ toNat_ne_zero hip, hown⟩
    exact ⟨_, hrun, hown ▸ txFrame_answers hup _⟩
  case arpOther =>
    intro ip hown
    have hrun : execArpRequestRx p ip s = .next (rxFrame s p) := if_neg fun h => hown h.2.2
    exact ⟨_, hrun, heard_unanswered hup⟩
  case neighbour =>
    intro ip hip hown
    have hrun : execNeighbourSolicitRx p ip s = _ := if_pos ⟨hup, hown ▸ toNat_ne_zero hip, hown⟩
    exact ⟨_, hrun, hown ▸ txFrame_answers hup _⟩
  case neighbourOther =>
    intro ip hown
    have hrun : execNeighbourSolicitRx p ip s = .next (rxFrame s p) := if_neg fun h => hown h.2.2
    exact ⟨_, hrun, heard_unanswered hup⟩
  case echo =>
    intro v6 ip payload hip hown
    exact ⟨_, execIcmpEchoRx_own hup payload (toNat_ne_zero hip) hown, txFrame_answers hup _⟩
  case fragment =>
    intro v6 ip payload
    refine ⟨_, execIcmpEchoRx_fragment hup v6 ip payload, ?_, rxFrame_outbox s p, ?_⟩
    · exact (bump_reg_of_sub _ _ _ (by simp)).trans (rxFrame_counted hup)
    · rw [bump_u64 _ (size_ethPDrops p), (rxFrame_kept s p).objs _ (page_ethPDrops p) (by simp) (by simp)]
  case pause =>
    intro enable quanta hprio
    exact ⟨_, execPfcFrameRx_pauses hup quanta hprio, endPauses_paused s p quanta⟩
  case pauseOther =>
    intro enable quanta hprio
    exact ⟨_, execPfcFrameRx_other quanta hprio, rxFrame_counted hup, rxFrame_net s p⟩

/-! ### A port enters and leaves a state -/

theorem ethState_self (s : State) (p : Nat) {code : Nat} (hc : code < 256) : (ethState s p code).reg (Obj.ethPState p) = code :=
  (ethState_reg s p code p hc).trans (if_pos rfl)
theorem ethState_eth (s : State) (p code : Nat) : (ethState s p code).eth p = {} :=
  (modEth_eth s p p fun _ => {}).trans (if_pos rfl)
theorem ethState_reg_of_sub (s : State) (p code : Nat) {k : Nat} (hk : k % 256 ≠ 1) : (ethState s p code).reg k = s.reg k :=
  setReg_reg_of_sub _ _ _ (by simpa using hk)

theorem ethLeave_self (s : State) (p : Nat) {code : Nat} (hc : code < 256) : (ethLeave s p code).reg (Obj.ethPState p) = code :=
  ((ethLeave_kept s p code).2 p).trans (ethState_self s p hc)
/-- What the end of an UP port's traffic brings with it leaves the ports' objects. -/
theorem ethLeave_objs {s : State} {p : Nat} (code : Nat) (hup : s.portUp p = true) :
    PortObjsKept ((ethState s p code).bump (Obj.ethPLinkDowns p) 1) (ethLeave s p code) := by
  unfold ethLeave
  rw [if_neg (by simp [hup])]
  extract_lets net gone
  have hgone : PortObjsKept ((ethState s p code).bump (Obj.ethPLinkDowns p) 1) gone :=
    .of_moves (ptpPortGone_moves _ p (.refl _ _) (.refl _)) (by decide)
  have hraised (event : Nat) : PortObjsKept gone (raise gone event .degrade (uEth p)) := .of_moves (raise_keeps ..) (by decide)
  split
  · exact forAll_induction _ _ (hgone.trans (hraised _)) fun i _ h => h.trans (.of_moves (qpFail_moves _ i (.refl _ _) (.refl _)) (by decide))
  · exact (hgone.trans (hraised _)).trans ((NetKept.refl moveParts _).qpsMove _ (.refl _)).objs
theorem ethLeave_linkDowns {s : State} {p : Nat} (code : Nat) (hup : s.portUp p = true) :
    (ethLeave s p code).reg (Obj.ethPLinkDowns p) = min (s.reg (Obj.ethPLinkDowns p) + 1) (2 ^ 32 - 1) := by
  rw [ethLeave_objs code hup _ (page_ethPLinkDowns p) (by simp) (by simp), bump_u32 _ (size_ethPLinkDowns p),
    ethState_reg_of_sub _ _ _ (by simp)]
theorem ethLeave_enable (s : State) (p code : Nat) : (ethLeave s p code).reg (Obj.ethPEnable p) = s.reg (Obj.ethPEnable p) := by
  cases hup : s.portUp p with
  | true =>
    rw [ethLeave_objs code hup _ (page_ethPEnable p) (by simp) (by simp), bump_reg_of_sub _ _ _ (by simp), ethState_reg_of_sub _ _ _ (by simp)]
  | false =>
    rw [ethLeave, if_pos (by rw [hup]; rfl), ethState_reg_of_sub _ _ _ (by simp)]

theorem ethEnter_enters (s : State) (p : Nat) : (ethEnter s p).reg (Obj.ethPState p) = 2 ∧
    ((ethEnter s p).eth p).link = (s.eth p).link ∧ Reports s (ethEnter s p) 0x7B03 .note (uEth p) := by
  have hmoved := (NetKept.refl moveParts (raise (s.setReg (Obj.ethPState p) 2) 0x7B03 .note (uEth p))).qpsMove (p / 4) (.refl _)
  refine ⟨(hmoved.pState p).trans ?_, (hmoved.link p).trans ?_, ?_⟩
  · rw [raise_reg _ _ _ _ _ _ (by rw [page_ethPState]; decide), setReg_reg, if_pos rfl, size_ethPState]
    rfl
  · unfold State.eth
    rw [raise_net]
    rfl
  · have hraised : Reports s (raise (s.setReg (Obj.ethPState p) 2) 0x7B03 .note (uEth p)) 0x7B03 .note (uEth p) :=
      (raise_reports _ _ _ _ _).of_same rfl rfl
    exact hraised.then (hmoved.moves.same .log (by decide))
theorem tryUp_ready {s : State} {p : Nat} (hstate : s.reg (Obj.ethPState p) = 1) (hlink : (s.eth p).link = true)
    (hsync : s.lacp p = false ∨ (s.eth p).sync = true) : tryUp s p = ethEnter s p := if_pos ⟨hstate, hlink, by simpa using hsync⟩
theorem tryUp_waits {s : State} {p : Nat} (hlacp : s.lacp p = true) (hsync : (s.eth p).sync = false) : tryUp s p = s :=
  if_neg (by simp [hlacp, hsync])

/-! ### The commands of a port -/

/-- A port in TRAINING whose link came up, with its partner in sync where the command or an earlier one says so. -/
def linkedUp (s : State) (p : Nat) (sync : Bool) : State := s.modEth p fun e => { e with link := true, sync := sync || e.sync }
theorem linkedUp_eth (s : State) (p : Nat) (sync : Bool) :
    (linkedUp s p sync).eth p = { s.eth p with link := true, sync := sync || (s.eth p).sync } := (modEth_eth ..).trans (if_pos rfl)
theorem execEthLinkUp_training {s : State} {p : Fin 8} (sync : Bool) (hstate : s.reg (Obj.ethPState p) = 1) :
    execEthLinkUp p sync s = .next (tryUp (linkedUp s p sync) p) := if_neg (not_not.2 hstate)

theorem portUp_iff (s : State) (p : Nat) : s.portUp p = true ↔ s.reg (Obj.ethPState p) = 2 := beq_iff_eq
theorem execEthLinkDown_training {s : State} {p : Fin 8} (hstate : s.reg (Obj.ethPState p) = 1) :
    execEthLinkDown p s = .next (s.modEth p fun _ => {}) := by
  rw [execEthLinkDown, if_neg (by rw [portUp_iff, hstate]; decide), if_pos hstate]

/-- The partner's state noted. -/
def lacpNoted (s : State) (p : Nat) (sync : Bool) : State := (rxFrame s p).modEth p fun e => { e with sync := sync }
theorem lacpNoted_portUp (s : State) (p : Nat) (sync : Bool) : (lacpNoted s p sync).portUp p = s.portUp p := (rxFrame_kept s p).portUp p
theorem lacpNoted_eth (s : State) (p : Nat) (sync : Bool) : (lacpNoted s p sync).eth p = { s.eth p with sync := sync } := by
  have heth : (rxFrame s p).eth p = s.eth p := congrArg (fun n : NetState => smGet dEth n.ports p) (rxFrame_net s p)
  exact (modEth_eth ..).trans ((if_pos rfl).trans (by rw [heth]))
theorem execLacpPduRx_up {s : State} {p : Fin 8} (sync : Bool) (hlacp : s.lacp p = true) (hup : s.portUp p = true) :
    execLacpPduRx p sync s = if sync then .next (lacpNoted s p sync) else .next (ethLeave (lacpNoted s p sync) p 3) := by
  rw [execLacpPduRx, if_neg (by simp [hlacp, hup])]
  exact if_pos ((lacpNoted_portUp s p sync).trans hup)
theorem execLacpPduRx_training {s : State} {p : Fin 8} (sync : Bool) (hlacp : s.lacp p = true) (hstate : s.reg (Obj.ethPState p) = 1)
    (hlink : (s.eth p).link = true) : execLacpPduRx p sync s = .next (tryUp (lacpNoted s p sync) p) := by
  have hup : ¬ s.portUp p = true := by rw [portUp_iff, hstate]; decide
  rw [execLacpPduRx, if_neg (by simp [hlacp, hstate, hlink])]
  exact if_neg ((lacpNoted_portUp s p sync).symm ▸ hup)

/-- A write of `ETH.P_ENABLE` is answered with what its handler leaves of the port. -/
theorem ethEnable_leads {s : State} {q : Req} {p : Fin 8} (v : Nat) {u : State} (hq : s.takesWrite q (Obj.ethPEnable p) = true)
    (hu : ethEnableWrite p v s = Ans.ok u) : ∃ t, dictWrite s q (Obj.ethPEnable p) (ethEnableWrite p v) = t ∧
      t.reg (Obj.ethPEnable p) = u.reg (Obj.ethPEnable p) ∧ t.reg (Obj.ethPState p) = u.reg (Obj.ethPState p) ∧
      Answers t q 2 (Obj.ethPEnable p) stOk := by
  refine ⟨_, dictWrite_takes _ hq, ?_⟩
  rw [hu]
  exact ⟨answered_reg _ _ _ _ _ (by unfold Obj.ethPEnable Obj.mgtRequests ob; omega),
    answered_reg _ _ _ _ _ (by unfold Obj.ethPState Obj.mgtRequests ob; omega), answered_answers ..⟩

/-- Settles O35: each command of a port sets the state that its rule names, and no queue pair or server that moves with it changes one. -/
theorem ethernetPortStatesComplete : Obligations.EthernetPortStatesComplete := by
  intro s p
  refine ⟨?enable, ?disable, ?linkUp, ?waits, ?linkDown, ?trainingDown, ?timeout, ?linked, ?retry, ?inSync, ?outOfSync, ?synced⟩
  case enable =>
    intro q hq
    have hset : (s.setReg (Obj.ethPEnable p) 1).reg (Obj.ethPState p) = s.reg (Obj.ethPState p) := setReg_reg_of_sub _ _ _ (by simp)
    have hone : (s.setReg (Obj.ethPEnable p) 1).reg (Obj.ethPEnable p) = 1 := by
      rw [setReg_reg, if_pos rfl, size_ethPEnable]; rfl
    obtain ⟨t, hrun, hen, hst, hans⟩ := ethEnable_leads 1 hq (if_pos rfl)
    refine ⟨t, congrArg Host.Outcome.next hrun, hen.trans ?_, hst.trans ?_, hans⟩
    · rw [hset]
      split
      · exact (ethState_reg_of_sub _ _ _ (by simp)).trans hone
      · exact hone
    · rw [hset]
      split
      · exact ethState_self _ _ (by decide)
      · exact hset
  case disable =>
    intro q hq
    have hset : (s.setReg (Obj.ethPEnable p) 0).reg (Obj.ethPState p) = s.reg (Obj.ethPState p) := setReg_reg_of_sub _ _ _ (by simp)
    have hzero : (s.setReg (Obj.ethPEnable p) 0).reg (Obj.ethPEnable p) = 0 := by rw [setReg_reg, if_pos rfl, Nat.zero_mod]
    obtain ⟨t, hrun, hen, hst, hans⟩ := ethEnable_leads 0 hq ((if_neg (by decide)).trans (if_pos rfl))
    refine ⟨t, congrArg Host.Outcome.next hrun, hen.trans ?_, hst.trans ?_, hans⟩
    · split
      · exact hzero
      · exact (ethLeave_enable ..).trans hzero
    · rw [hset]
      split
      · next h => exact hset.trans h
      · exact ethLeave_self _ _ (by decide)
  case linkUp =>
    intro sync hstate hsync
    have heth := linkedUp_eth s p sync
    have hready : tryUp (linkedUp s p sync) p = ethEnter (linkedUp s p sync) p := by
      refine tryUp_ready hstate (by rw [heth]) (hsync.imp id fun h => ?_)
      rw [heth]
      simpa using h
    obtain ⟨hup, hlink, hreport⟩ := ethEnter_enters (linkedUp s p sync) p
    exact ⟨_, (execEthLinkUp_training sync hstate).trans (congrArg _ hready), hup, hlink.trans (by rw [heth]), hreport.of_same rfl rfl⟩
  case waits =>
    intro hstate hlacp hsync
    have heth := linkedUp_eth s p false
    have hwaits : tryUp (linkedUp s p false) p = linkedUp s p false := tryUp_waits hlacp (by rw [heth]; exact hsync)
    exact ⟨_, (execEthLinkUp_training false hstate).trans (congrArg _ hwaits), hstate, by rw [heth]⟩
  case linkDown =>
    intro hup
    have hrun : execEthLinkDown p s = .next (ethLeave s p 3) := if_pos hup
    exact ⟨_, hrun, ethLeave_self _ _ (by decide), ethLeave_linkDowns 3 hup⟩
  case trainingDown =>
    intro hstate
    exact ⟨_, execEthLinkDown_training hstate, hstate, (modEth_eth ..).trans (if_pos rfl)⟩
  case timeout =>
    intro hstate hlink
    have hrun : execEthTrainingTimeout p s = .next (ethState s p 3) := if_pos ⟨hstate, by simp [hlink]⟩
    exact ⟨_, hrun, ethState_self _ _ (by decide), ethState_eth ..⟩
  case linked =>
    intro hlink
    have hrun : execEthTrainingTimeout p s = .next s := if_neg (by simp [hlink])
    exact ⟨_, hrun, rfl⟩
  case retry =>
    intro hstate
    have hrun : execEthDownRetry p s = .next (ethTrain s p) := if_pos hstate
    exact ⟨_, hrun, ethState_self _ _ (by decide)⟩
  case inSync =>
    intro hlacp hup
    exact ⟨_, (execLacpPduRx_up true hlacp hup).trans (if_pos rfl), (portUp_iff _ _).1 ((lacpNoted_portUp s p true).trans hup),
      by rw [lacpNoted_eth]⟩
  case outOfSync =>
    intro hlacp hup
    exact ⟨_, (execLacpPduRx_up false hlacp hup).trans (if_neg (by decide)), ethLeave_self _ _ (by decide)⟩
  case synced =>
    intro hlacp hstate hlink
    have heth := lacpNoted_eth s p true
    have hready : tryUp (lacpNoted s p true) p = ethEnter (lacpNoted s p true) p :=
      tryUp_ready (((rxFrame_kept s p).pState p).trans hstate) (by rw [heth]; exact hlink) (.inr (by rw [heth]))
    exact ⟨_, (execLacpPduRx_training true hlacp hstate hlink).trans (congrArg _ hready), (ethEnter_enters _ _).1⟩

end Sys2Proof.Machine
end

section
/-! Queue pairs (R353–R358): the fields of a record, the error state, and what a request of a peer does to memory and to its queue pair. -/

namespace Sys2Proof.Machine

/-! ### The fields of a record (R357) -/

theorem sub_qpKey (i : Nat) : ofUnit Obj.roceQp i % 256 = 2 := by unfold ofUnit Obj.roceQp ob; omega
theorem size_qpKey (i : Nat) : objSize (objPart (ofUnit Obj.roceQp i)) = 64 := by
  rw [show objPart (ofUnit Obj.roceQp i) = Obj.roceQp from Nat.add_mul_mod_self_right ..]
  rfl

theorem testBit_fld (n off size j : Nat) : (fld n off size).testBit j = (decide (j < 8 * size) && n.testBit (8 * off + j)) :=
  testBit_bitsOf ..
/-- One byte of a record set: its bits there are the byte's, the others stay. -/
theorem testBit_setQpFld (s : State) (i off v : Nat) {j : Nat} (hj : j < 512) : ((s.setQpFld i off 1 v).qpRec i).testBit j =
    if 8 * off ≤ j ∧ j < 8 * off + 8 then (v % 256).testBit (j - 8 * off) else (s.qpRec i).testBit j := by
  have hrec : (s.setQpFld i off 1 v).qpRec i =
      (s.qpRec i - bitsOf (s.qpRec i) (8 * off) 8 * 2 ^ (8 * off) + v % 256 * 2 ^ (8 * off)) % 2 ^ (8 * 64) := by
    rw [State.qpRec, State.setQpFld, setReg_reg, if_pos rfl, size_qpKey, Nat.pow_mul 2 8 off, Nat.pow_mul 2 8 64]
    rfl
  rw [hrec, Nat.testBit_mod_two_pow, decide_eq_true hj, Bool.true_and]
  exact testBit_replaceByte _ _ _ (Nat.mod_lt v (by decide))
theorem setQpFld_self (s : State) (i : Nat) {off : Nat} (v : Nat) (hoff : off < 64) :
    (s.setQpFld i off 1 v).qpFld i off 1 = v % 256 := by
  refine Nat.eq_of_testBit_eq fun j => ?_
  rw [State.qpFld, testBit_fld]
  by_cases hj : j < 8
  · rw [testBit_setQpFld _ _ _ _ (by omega), if_pos (by omega), decide_eq_true (by omega), Bool.true_and, Nat.add_sub_cancel_left]
  · rw [decide_eq_false (by omega), Bool.false_and]
    exact (Nat.testBit_lt_two_pow (Nat.lt_of_lt_of_le (Nat.mod_lt _ (by decide)) (Nat.pow_le_pow_right Nat.two_pos (Nat.le_of_not_lt hj)))).symm
theorem setQpFld_other (s : State) (i v : Nat) {off off2 size : Nat} (hfit : off2 + size ≤ 64) (hother : off2 + size ≤ off ∨ off < off2) :
    (s.setQpFld i off 1 v).qpFld i off2 size = s.qpFld i off2 size := by
  refine Nat.eq_of_testBit_eq fun j => ?_
  rw [State.qpFld, State.qpFld, testBit_fld, testBit_fld]
  by_cases hj : j < 8 * size
  · rw [testBit_setQpFld _ _ _ _ (by omega), if_neg (by omega)]
  · rw [decide_eq_false hj, Bool.false_and, Bool.false_and]

@[simp] theorem setQpFld_net (s : State) (i off size v : Nat) : (s.setQpFld i off size v).net = s.net := setReg_net ..
@[simp] theorem setQpFld_mem (s : State) (i off size v : Nat) : (s.setQpFld i off size v).mem = s.mem := setReg_mem ..
@[simp] theorem modQp_mem (s : State) (i : Nat) (f : Qp → Qp) : (s.modQp i f).mem = s.mem := withNet_mem ..
@[simp] theorem modQp_chan (s : State) (i k : Nat) (f : Qp → Qp) : (s.modQp i f).chan k = s.chan k := rfl
@[simp] theorem modQp_reg (s : State) (i k : Nat) (f : Qp → Qp) : (s.modQp i f).reg k = s.reg k := withNet_reg ..
theorem modQp_qpRec (s : State) (i j : Nat) (f : Qp → Qp) : (s.modQp i f).qpRec j = s.qpRec j := withNet_reg ..
theorem setQpFld_chan (s : State) (i off size v k : Nat) : (s.setQpFld i off size v).chan k = s.chan k := by
  rw [State.chan, State.chan, setQpFld_net]
theorem setQpFld_reg (s : State) (i off size v : Nat) {k : Nat} (hk : k % 256 ≠ 2) : (s.setQpFld i off size v).reg k = s.reg k :=
  setReg_reg_of_sub _ _ _ (by rwa [sub_qpKey])
theorem qpState_congr {s t : State} {i : Nat} (h : t.qpRec i = s.qpRec i) : t.qpState i = s.qpState i := by
  rw [State.qpState, State.qpState, State.qpFld, State.qpFld, h]
theorem qpPort_congr {s t : State} {i : Nat} (h : t.qpRec i = s.qpRec i) : t.qpPort i = s.qpPort i := by
  rw [State.qpPort, State.qpPort, State.qpFld, State.qpFld, h]
theorem setQpFld_qp (s : State) (i off size v j : Nat) : (s.setQpFld i off size v).qp j = s.qp j := by unfold State.qp; rw [setQpFld_net]

/-! ### The error state (R356, R387) -/

theorem drainFail_mem (s : State) (k : Nat) : (drainFail s k).mem = s.mem := by
  unfold drainFail drainEnd
  split
  · rfl
  · split <;> exact raise_mem ..
theorem usersFail_mem (s : State) (i : Nat) : (usersFail s i).mem = s.mem := by
  unfold usersFail
  extract_lets partner store
  have hpartner : partner.mem = s.mem := by
    unfold partner
    split
    · exact drainFail_mem ..
    · rfl
  have hstore : store.mem = s.mem := by
    unfold store
    split
    · exact (drainFail_mem ..).trans hpartner
    · exact hpartner
  split <;> exact hstore
theorem usersFail_net (s : State) (i : Nat) : (usersFail s i).net = s.net := (usersFail_moves s i (.refl _ _) (.refl _)).same .net (by decide)

/-- A queue pair in the error state, its requests abandoned. -/
def failedQp (s : State) (i : Nat) : State := (s.setQpFld i 0x28 1 2).modQp i fun q => { q with out := [], retries := 0 }

section
variable {s : State} {i : Nat} (hready : s.qpState i = 1)
include hready

theorem qpFail_ready : qpFail s i = usersFail (raise ((failedQp s i).bump Obj.roceErrQps 1) 0x7B05 .note uDevice) i := by
  rw [qpFail, if_neg (not_not.2 hready), qpError, if_neg (not_not.2 hready)]
  rfl
theorem qpFail_net : (qpFail s i).net = (failedQp s i).net := by rw [qpFail_ready hready, usersFail_net, raise_net, bump_net]
theorem qpFail_mem : (qpFail s i).mem = s.mem := by
  rw [qpFail_ready hready, usersFail_mem, raise_mem, bump_mem, failedQp, modQp_mem, setQpFld_mem]
theorem qpFail_qp : (qpFail s i).qp i = { s.qp i with out := [], retries := 0 } := by
  have hqp : (failedQp s i).qp i = { s.qp i with out := [], retries := 0 } := by
    rw [failedQp, modQp_qp, if_pos rfl, setQpFld_qp]
  rw [← hqp, State.qp, State.qp, qpFail_net hready]
theorem qpFail_chan (k : Nat) : (qpFail s i).chan k = s.chan k := by
  have hchan : (failedQp s i).chan k = s.chan k := by rw [failedQp, modQp_chan, setQpFld_chan]
  rw [← hchan, State.chan, State.chan, qpFail_net hready]
/-- The objects of queue pairs after one failed. -/
theorem qpFail_reg {k : Nat} (hk : page k = 0x74) : (qpFail s i).reg k = ((failedQp s i).bump Obj.roceErrQps 1).reg k := by
  have husers := (usersFail_moves (raise ((failedQp s i).bump Obj.roceErrQps 1) 0x7B05 .note uDevice) i (.refl _ _) (.refl _)).same
    (.obj 0x74) (by decide) k hk
  rw [qpFail_ready hready, husers, raise_reg _ _ _ _ _ _ (by rw [hk]; decide)]
theorem qpFail_state : (qpFail s i).qpState i = 2 := by
  have hrec : (qpFail s i).qpRec i = (failedQp s i).qpRec i :=
    (qpFail_reg hready (page_ofUnit i page_roceQp)).trans (bump_reg_of_sub _ _ _ (by rw [sub_qpKey]; decide))
  have hfailed : (failedQp s i).qpRec i = (s.setQpFld i 0x28 1 2).qpRec i := modQp_qpRec ..
  exact (qpState_congr (hrec.trans hfailed)).trans (setQpFld_self s i 2 (by decide))
theorem qpFail_errors : (qpFail s i).reg Obj.roceErrQps = min (s.reg Obj.roceErrQps + 1) (2 ^ 32 - 1) := by
  have hkey : (failedQp s i).reg Obj.roceErrQps = s.reg Obj.roceErrQps := by rw [failedQp, modQp_reg, setQpFld_reg _ _ _ _ _ (by decide)]
  rw [qpFail_reg hready page_roceErrQps, bump_u32 _ size_roceErrQps, hkey]

/-! ### A NAK that ends the queue pair's operation -/

theorem opNak_state (psn syn : Nat) : (opNak s i psn syn).qpState i = 2 :=
  qpFail_state (((NetKept.refl _ s).roceEmit _ _ (.refl _)).qpState i |>.trans hready)
theorem opNak_mem (psn syn : Nat) : (opNak s i psn syn).mem = s.mem :=
  (qpFail_mem (((NetKept.refl _ s).roceEmit _ _ (.refl _)).qpState i |>.trans hready)).trans (roceEmit_packetSees ..).mem
theorem opNak_qp (psn syn : Nat) : (opNak s i psn syn).qp i = { s.qp i with out := [], retries := 0 } := by
  have hsent := (NetKept.refl frameParts s).roceEmit (s.qpPort i) (.nak i psn syn) (.refl _)
  exact (qpFail_qp ((hsent.qpState i).trans hready)).trans (by rw [hsent.qp])
theorem opNak_chan (psn syn k : Nat) : (opNak s i psn syn).chan k = s.chan k := by
  have hsent := (NetKept.refl frameParts s).roceEmit (s.qpPort i) (.nak i psn syn) (.refl _)
  exact (qpFail_chan ((hsent.qpState i).trans hready) k).trans (hsent.chan k)
/-- Of the objects of queue pairs a NAK changes the record and the count of those in error. -/
theorem opNak_accessNaks (psn syn : Nat) : (opNak s i psn syn).reg Obj.roceAccessNaks = s.reg Obj.roceAccessNaks := by
  have hsent := (NetKept.refl frameParts s).roceEmit (s.qpPort i) (.nak i psn syn) (.refl _)
  rw [opNak, qpFail_reg ((hsent.qpState i).trans hready) page_roceAccessNaks, bump_reg_of_sub _ _ _ (by decide), failedQp, modQp_reg,
    setQpFld_reg _ _ _ _ _ (by decide), hsent.reg (by decide)]

end

/-! ### A remote access error (R356) -/

/-- The error counted, and reported where it is the queue pair's first. -/
def accessNoted (s : State) (i : Nat) : State :=
  let s := s.bump Obj.roceAccessNaks 1
  if (s.qp i).naked then s else raise (s.modQp i fun q => { q with naked := true }) 0x7B04 .note uDevice
theorem accessNak_eq (s : State) (i psn : Nat) : accessNak s i psn = opNak (accessNoted s i) i psn synAccess := rfl
theorem accessNoted_reg (s : State) (i : Nat) {k : Nat} (hk : page k ≠ 0x23) :
    (accessNoted s i).reg k = (s.bump Obj.roceAccessNaks 1).reg k := by
  unfold accessNoted
  dsimp only
  split
  · rfl
  · exact raise_reg _ _ _ _ _ _ hk
theorem accessNoted_mem (s : State) (i : Nat) : (accessNoted s i).mem = s.mem := by
  unfold accessNoted
  dsimp only
  split
  · rfl
  · exact raise_mem ..
theorem accessNoted_recvPsn (s : State) (i : Nat) : ((accessNoted s i).qp i).recvPsn = (s.qp i).recvPsn := by
  unfold accessNoted
  dsimp only
  split
  · rfl
  · have hqp := modQp_qp (s.bump Obj.roceAccessNaks 1) i i fun q => { q with naked := true }
    rw [if_pos rfl] at hqp
    rw [State.qp, raise_net]
    exact (congrArg Qp.recvPsn hqp :)
theorem accessNoted_state (s : State) (i : Nat) : (accessNoted s i).qpState i = s.qpState i := by
  have hrec : (accessNoted s i).qpRec i = s.qpRec i :=
    (accessNoted_reg s i (by rw [page_ofUnit i page_roceQp]; decide)).trans (bump_reg_of_sub _ _ _ (by rw [sub_qpKey]; decide))
  exact qpState_congr hrec
/-- An access refused writes nothing, takes no packet, is counted and ends the queue pair. -/
theorem accessNak_refuses {s : State} {i : Nat} (psn : Nat) (hready : s.qpState i = 1) : (accessNak s i psn).mem = s.mem ∧
    ((accessNak s i psn).qp i).recvPsn = (s.qp i).recvPsn ∧ (accessNak s i psn).qpState i = 2 ∧
    (accessNak s i psn).reg Obj.roceAccessNaks = min (s.reg Obj.roceAccessNaks + 1) (2 ^ 32 - 1) := by
  have hnoted : (accessNoted s i).qpState i = 1 := (accessNoted_state s i).trans hready
  rw [accessNak_eq]
  refine ⟨(opNak_mem hnoted ..).trans (accessNoted_mem s i), ?_, opNak_state hnoted .., ?_⟩
  · rw [opNak_qp hnoted]
    exact accessNoted_recvPsn s i
  · rw [opNak_accessNaks hnoted, accessNoted_reg s i (by decide), bump_u32 s size_roceAccessNaks]

/-! ### A packet heard from a peer -/

/-- The state in which a packet of a queue pair is taken: its frame counted, a congestion notification sent where it is marked. -/
def packetHeard (s : State) (i : Nat) (h : RoceHdr) : State := noteEcn (rxFrame s h.port) i h
theorem packetHeard_sees (s : State) (i : Nat) (h : RoceHdr) : PacketSees s (packetHeard s i h) :=
  (rxFrame_packetSees s h.port).trans (noteEcn_packetSees ..)
theorem packetHeard_kept (s : State) (i : Nat) (h : RoceHdr) : NetKept frameParts s (packetHeard s i h) :=
  (rxFrame_kept s h.port).noteEcn i h (.refl _)

theorem rxQp_ready {s : State} {h : RoceHdr} {i : Nat} (hqp : rxQp s h = some i) : s.qpState i = 1 := by
  unfold rxQp at hqp
  dsimp only at hqp
  split at hqp
  · next hc => exact Option.some.inj hqp ▸ hc.2.2.2.2.1
  · cases hqp

/-- A packet that is not the one expected is answered, and nothing is taken from it. -/
theorem rxOrdered_not_due {s : State} {h : RoceHdr} {i : Nat} (f : Nat → State → State) (hqp : rxQp s h = some i) (hnot : seqPos s i h ≠ .due) :
    PacketSees s (rxOrdered (rxFrame s h.port) h f) := by
  have hheard := packetHeard_sees s i h
  have hpos : seqPos (packetHeard s i h) i h = seqPos s i h := hheard.seqPos i h
  rw [rxOrdered, (rxFrame_packetSees s h.port).rxQp, hqp]
  show PacketSees s (rxBySeq (packetHeard s i h) i h f)
  rw [rxBySeq, hpos]
  cases hs : seqPos s i h with
  | due => exact absurd hs hnot
  | old => exact hheard.trans (roceEmit_packetSees ..)
  | gap => exact hheard.trans (roceEmit_packetSees ..)

theorem execRoceWriteRx_not_due {s : State} {h : RoceHdr} {i : Nat} (first : Option RoceAddr) (last : Bool) (bytes : List Byte)
    (hqp : rxQp s h = some i) (hnot : seqPos s i h ≠ .due) : ∃ t, execRoceWriteRx h first last bytes s = .next t ∧ PacketSees s t :=
  ⟨_, rfl, rxOrdered_not_due _ hqp hnot⟩
/-- A packet of a WRITE in its order that is not for the mailbox pages is one for a region. -/
theorem execRoceWriteRx_due {s : State} {h : RoceHdr} {i : Nat} {first : Option RoceAddr} (last : Bool) (bytes : List Byte)
    (hqp : rxQp s h = some i) (hdue : seqPos s i h = .due)
    (hbox : ∀ a, first = some a → inMailbox s a.va.toNat a.rkey.toNat = false) :
    execRoceWriteRx h first last bytes s = .next (regionWrite (packetHeard s i h) i h.psn.toNat first last bytes) := by
  refine congrArg Host.Outcome.next ((rxOrdered_due _ hqp hdue).trans ?_)
  cases first with
  | none => rfl
  | some a =>
    dsimp only
    rw [((rxFrame_packetSees s h.port).trans (noteEcn_packetSees ..)).inMailbox, hbox a rfl, Bool.false_and, if_neg Bool.false_ne_true]
    rfl

/-! ### A packet of a WRITE stored -/

/-- The bytes of a packet stored, the expected number one on; what is left of the message follows. -/
def packetStored (s : State) (i va left : Nat) (last : Bool) (bytes : List Byte) : State :=
  (rxAdvance (vaStore s va bytes) i 1).modQp i fun q => { q with wr := if last then none else some (va + bytes.length, left - bytes.length) }

theorem vaStore_qp (s : State) (va : Nat) (bytes : List Byte) (i : Nat) : (vaStore s va bytes).qp i = s.qp i :=
  congrArg (fun n : NetState => smGet dQp n.qps i) ((vaStore_moves s va bytes (.refl _ _) (.refl _)).same .net (by decide))
theorem vaStore_qpRec (s : State) (va : Nat) (bytes : List Byte) (i : Nat) : (vaStore s va bytes).qpRec i = s.qpRec i :=
  (vaStore_moves s va bytes (.refl _ _) (.refl _)).same (.obj 0x74) (by decide) _ (page_ofUnit i page_roceQp)
theorem rxAdvance_qp (s : State) (i n : Nat) : (rxAdvance s i n).qp i = { s.qp i with recvPsn := ((s.qp i).recvPsn + n) % 2 ^ 24 } :=
  (modQp_qp _ i i _).trans (if_pos rfl)
theorem packetStored_qp (s : State) (i va left : Nat) (last : Bool) (bytes : List Byte) : (packetStored s i va left last bytes).qp i =
    { s.qp i with recvPsn := ((s.qp i).recvPsn + 1) % 2 ^ 24,
                  wr := if last then none else some (va + bytes.length, left - bytes.length) } := by
  refine (modQp_qp _ i i _).trans ((if_pos rfl).trans ?_)
  rw [rxAdvance_qp, vaStore_qp]
theorem packetStored_mem (s : State) (i va left : Nat) (last : Bool) (bytes : List Byte) :
    (packetStored s i va left last bytes).mem = (vaStore s va bytes).mem := by rw [packetStored, modQp_mem, rxAdvance, modQp_mem]
theorem packetStored_state (s : State) (i va left : Nat) (last : Bool) (bytes : List Byte) :
    (packetStored s i va left last bytes).qpState i = s.qpState i :=
  qpState_congr ((modQp_qpRec ..).trans ((modQp_qpRec ..).trans (vaStore_qpRec s va bytes i)))

/-- The last packet of a message is acknowledged. -/
theorem writePacket_last {s : State} (i psn : Nat) {va : Nat} {bytes : List Byte} (hva : vaOk s va bytes.length true = true)
    (hopen : epochLocked s va bytes.length = false) :
    writePacket s i psn va bytes.length true bytes = ackUp (packetStored s i va bytes.length true bytes) i psn := by
  unfold writePacket packetStored
  rw [if_neg (by simp), if_neg (by simp [hva, hopen])]
  exact if_pos rfl
theorem writePacket_more {s : State} (i psn : Nat) {va left : Nat} {bytes : List Byte} (hlen : bytes.length = 4096) (hmore : 4096 < left)
    (hva : vaOk s va 4096 true = true) (hopen : epochLocked s va 4096 = false) :
    writePacket s i psn va left false bytes = packetStored s i va left false bytes := by
  unfold writePacket packetStored
  rw [if_neg (by simp [hlen]; omega), if_neg (by simp [hlen, hva, hopen])]
  exact if_neg Bool.false_ne_true
/-- A message whose last packet was stored is done, and its queue pair ready for the next. -/
theorem writePacket_done {s : State} {i : Nat} (psn : Nat) {va : Nat} {bytes : List Byte} (hready : s.qpState i = 1)
    (hva : vaOk s va bytes.length true = true) (hopen : epochLocked s va bytes.length = false) :
    let t := writePacket s i psn va bytes.length true bytes
    t.mem = (vaStore s va bytes).mem ∧ (t.qp i).recvPsn = ((s.qp i).recvPsn + 1) % 2 ^ 24 ∧ (t.qp i).wr = none ∧ t.qpState i = 1 := by
  have hacked := (NetKept.refl frameParts (packetStored s i va bytes.length true bytes)).roceEmit
    ((packetStored s i va bytes.length true bytes).qpPort i) (.ack i psn) (.refl _)
  refine ⟨writePacket_mem i psn hva hopen, ?_⟩
  rw [writePacket_last i psn hva hopen, ackUp, hacked.qp, packetStored_qp]
  exact ⟨rfl, rfl, (hacked.qpState i).trans ((packetStored_state ..).trans hready)⟩

/-- The first packet of a WRITE is checked for the whole message. -/
theorem regionWrite_first {s : State} {i : Nat} (psn : Nat) (a : RoceAddr) (last : Bool) (bytes : List Byte) (hfresh : (s.qp i).wr = none) :
    regionWrite s i psn (some a) last bytes =
      if accessOk s (s.qpNet i) a.va.toNat a.len.toNat a.rkey.toNat true then writePacket s i psn a.va.toNat a.len.toNat last bytes
      else accessNak s i psn := by
  unfold regionWrite
  rw [hfresh]
theorem regionWrite_next {s : State} {i : Nat} (psn : Nat) (last : Bool) (bytes : List Byte) {va left : Nat}
    (hopen : (s.qp i).wr = some (va, left)) : regionWrite s i psn none last bytes = writePacket s i psn va left last bytes := by
  unfold regionWrite
  rw [hopen]

/-! ### A READ -/

/-- A message of the RoCE priority leaves at once by a port that is not paused. -/
theorem roceEmit_now {s : State} {port : Nat} (o : Out) (hport : port < 8) (hnow : (s.eth port).pause ≤ s.beat) :
    roceEmit s port o = txFrame s port o := by
  rw [roceEmit, if_neg (Nat.not_le.2 hport), if_neg (Nat.not_lt.2 hnow)]
/-- The state in which a READ in its order is served: it has taken the numbers of its packets. -/
def readTaken (s : State) (i : Nat) (h : RoceHdr) (a : RoceAddr) : State := rxAdvance (packetHeard s i h) i (packetCount a.len.toNat)
theorem execRoceReadRx_due {s : State} {h : RoceHdr} {i : Nat} (a : RoceAddr) (ue : Bool) (hqp : rxQp s h = some i)
    (hdue : seqPos s i h = .due) : execRoceReadRx h a ue s = .next (readAt (readTaken s i h a) i h.psn.toNat a ue) := by
  have hpos : seqPos (noteEcn (rxFrame s h.port) i h) i h = .due := ((packetHeard_sees s i h).seqPos i h).trans hdue
  rw [execRoceReadRx, (rxFrame_packetSees s h.port).rxQp, hqp]
  dsimp only
  rw [hpos]
  rfl
theorem execRoceReadRx_gap {s : State} {h : RoceHdr} {i : Nat} (a : RoceAddr) (ue : Bool) (hqp : rxQp s h = some i)
    (hgap : seqPos s i h = .gap) : ∃ t, execRoceReadRx h a ue s = .next t ∧ PacketSees s t := by
  have hpos : seqPos (noteEcn (rxFrame s h.port) i h) i h = .gap := ((packetHeard_sees s i h).seqPos i h).trans hgap
  rw [execRoceReadRx, (rxFrame_packetSees s h.port).rxQp, hqp]
  dsimp only
  rw [hpos]
  exact ⟨_, rfl, (packetHeard_sees s i h).trans (roceEmit_packetSees ..)⟩
theorem readTaken_qp (s : State) (i : Nat) (h : RoceHdr) (a : RoceAddr) : (readTaken s i h a).qp i =
    { s.qp i with recvPsn := ((s.qp i).recvPsn + packetCount a.len.toNat) % 2 ^ 24 } := by
  rw [readTaken, rxAdvance_qp, (packetHeard_sees s i h).qp]

theorem vaMark_moved (s : State) (va n : Nat) : Moves (maskOf [.cells]) s (vaMark s va n) := vaMark_moves s va n (.refl _ _) (by decide)
/-- A READ that its region serves is answered with the bytes. -/
theorem regionRead_served {s : State} {i : Nat} (psn : Nat) {a : RoceAddr}
    (hok : accessOk s (s.qpNet i) a.va.toNat a.len.toNat a.rkey.toNat false = true) (hgood : (vaLoad s a.va.toNat a.len.toNat).2 = false) :
    regionRead s i psn a false = roceEmit (vaMark s a.va.toNat a.len.toNat) (s.qpPort i) (.data i psn (vaLoad s a.va.toNat a.len.toNat).1) := by
  have hport : (vaMark s a.va.toNat a.len.toNat).qpPort i = s.qpPort i := qpPort_congr
    ((vaMark_moved ..).same (.obj 0x74) (by decide) _ (page_ofUnit i page_roceQp))
  unfold regionRead
  rw [hok, if_neg (by decide)]
  dsimp only
  rw [hgood, hport, if_neg (by decide)]
/-- A READ in its order leaves with the region's bytes where the port of its queue pair is not paused. -/
theorem readAt_served {s : State} {h : RoceHdr} {i : Nat} {a : RoceAddr} (hbox : inMailbox s a.va.toNat a.rkey.toNat = false)
    (hfresh : (s.qp i).wr = none) (hport : s.qpPort i < 8) (hnow : (s.eth (s.qpPort i)).pause ≤ s.beat) :
    let w := readTaken s i h a
    accessOk w (w.qpNet i) a.va.toNat a.len.toNat a.rkey.toNat false = true → (vaLoad w a.va.toNat a.len.toNat).2 = false →
    (readAt w i h.psn.toNat a false).outbox.getLast? = some (.data i h.psn.toNat (vaLoad w a.va.toNat a.len.toNat).1) ∧
      ((readAt w i h.psn.toNat a false).qp i).recvPsn = ((s.qp i).recvPsn + packetCount a.len.toNat) % 2 ^ 24 := by
  intro w hok hgood
  have hqp : w.qp i = { s.qp i with recvPsn := ((s.qp i).recvPsn + packetCount a.len.toNat) % 2 ^ 24 } := readTaken_qp s i h a
  have hheard := packetHeard_kept s i h
  have hwPort : w.qpPort i = s.qpPort i := hheard.qpPort i
  have hread : readAt w i h.psn.toNat a false = roceEmit (vaMark w a.va.toNat a.len.toNat) (s.qpPort i)
      (.data i h.psn.toNat (vaLoad w a.va.toNat a.len.toNat).1) := by
    have hwBox : inMailbox w a.va.toNat a.rkey.toNat = false := ((packetHeard_sees s i h).inMailbox ..).trans hbox
    rw [readAt, hqp, hfresh, hwBox, if_neg (by decide), if_neg (by decide), regionRead_served _ hok hgood, hwPort]
  have hmark := vaMark_moved w a.va.toNat a.len.toNat
  have hmarkNet : (vaMark w a.va.toNat a.len.toNat).net = w.net := hmark.same .net (by decide)
  have hpause : ((vaMark w a.va.toNat a.len.toNat).eth (s.qpPort i)).pause ≤ (vaMark w a.va.toNat a.len.toNat).beat := by
    have hcounter : (vaMark w a.va.toNat a.len.toNat).counter = s.counter :=
      Eq.trans (hmark.same .counter (by decide)) (hheard.moves.same .counter (by decide))
    rw [State.eth, hmarkNet, State.beat, hcounter]
    exact (hheard.pause _).trans_le hnow
  rw [hread]
  refine ⟨?_, ?_⟩
  · rw [roceEmit_now _ hport hpause]
    exact List.getLast?_concat
  · rw [((NetKept.refl frameParts _).roceEmit _ _ (.refl _)).qp, State.qp, hmarkNet]
    exact congrArg Qp.recvPsn hqp

/-- Settles O37: in its order a packet is stored or refused, out of it answered; a READ is answered with what its region holds. -/
theorem roceRequestsComplete : Obligations.RoceRequestsComplete := by
  intro s h i hqp u
  have hheard : PacketSees s u := packetHeard_sees s i h
  have hready : u.qpState i = 1 := ((packetHeard_kept s i h).qpState i).trans (rxQp_ready hqp)
  refine ⟨?first, ?refused, ?next, ?notDue, ?read, ?readGap⟩
  case first =>
    intro a bytes hdue hbox hfresh hok
    have hbox' : ∀ b, some a = some b → inMailbox s b.va.toNat b.rkey.toNat = false := fun b hb => Option.some.inj hb ▸ hbox
    have hwrite (last : Bool) : execRoceWriteRx h (some a) last bytes s = .next (writePacket u i h.psn.toNat a.va.toNat a.len.toNat last bytes) := by
      rw [execRoceWriteRx_due last bytes hqp hdue hbox']
      exact congrArg Host.Outcome.next ((regionWrite_first _ a last bytes ((congrArg Qp.wr (hheard.qp i)).trans hfresh)).trans (if_pos hok))
    refine ⟨fun hlen => ?_, fun hlen hmore hva hopen => ?_⟩
    · simp only [accessOk, hlen, Bool.and_eq_true, Bool.not_eq_true', Bool.true_and] at hok
      obtain ⟨⟨_, hva⟩, hopen⟩ := hok
      rw [hlen] at hwrite
      refine ⟨_, hwrite true, ?_⟩
      rw [← hheard.qp]
      exact writePacket_done _ hready hva hopen
    · refine ⟨_, (hwrite false).trans (congrArg _ (writePacket_more i _ hlen hmore hva hopen)), packetStored_mem .., ?_⟩
      rw [packetStored_qp, hheard.qp, if_neg Bool.false_ne_true, hlen]
      exact ⟨rfl, rfl⟩
  case refused =>
    intro a last bytes hdue hbox hfresh hbad
    have hbox' : ∀ b, some a = some b → inMailbox s b.va.toNat b.rkey.toNat = false := fun b hb => Option.some.inj hb ▸ hbox
    have hnak : regionWrite u i h.psn.toNat (some a) last bytes = accessNak u i h.psn.toNat :=
      (regionWrite_first _ a last bytes ((congrArg Qp.wr (hheard.qp i)).trans hfresh)).trans (if_neg (by rw [hbad]; decide))
    obtain ⟨hmem, hpsn, hstate, hcount⟩ := accessNak_refuses h.psn.toNat hready
    refine ⟨_, (execRoceWriteRx_due last bytes hqp hdue hbox').trans (congrArg _ hnak), hmem.trans hheard.mem, ?_, hstate, ?_⟩
    · rw [hpsn, hheard.qp]
    · rw [hcount, hheard.regs _ (by decide)]
  case next =>
    intro va bytes hdue hwr hva hopen
    have hwrite : regionWrite u i h.psn.toNat none true bytes = writePacket u i h.psn.toNat va bytes.length true bytes :=
      regionWrite_next _ true bytes ((congrArg Qp.wr (hheard.qp i)).trans hwr)
    obtain ⟨hmem, hpsn, hdone, _⟩ := writePacket_done h.psn.toNat hready hva hopen
    refine ⟨_, (execRoceWriteRx_due true bytes hqp hdue (by simp)).trans (congrArg _ hwrite), hmem, ?_, hdone⟩
    rw [hpsn, hheard.qp]
  case notDue =>
    intro first last bytes hnot
    obtain ⟨t, hrun, hseen⟩ := execRoceWriteRx_not_due first last bytes hqp hnot
    exact ⟨t, hrun, hseen.mem, hseen.qp i⟩
  case read =>
    intro a hdue hbox hfresh w hok hgood hport hnow
    exact ⟨_, execRoceReadRx_due a false hqp hdue, readAt_served hbox hfresh hport hnow hok hgood⟩
  case readGap =>
    intro a ue hgap
    obtain ⟨t, hrun, hseen⟩ := execRoceReadRx_gap a ue hqp hgap
    exact ⟨t, hrun, hseen.mem, hseen.qp i⟩

end Sys2Proof.Machine
end

section
/-! What answers the device's own requests (R351, R354), and the records and regions that software writes (R357, R358). -/

namespace Sys2Proof.Machine

/-! ### Requests done, and requests sent again -/

/-- A message to a host that was acknowledged asks for nothing more. -/
theorem rdmaDone_mailbox {r : RdmaReq} {e : Nat} (s : State) (data : List Byte) (h : r.use = .mailbox e) : rdmaDone s r data = s := by
  unfold rdmaDone
  rw [h]
theorem forAll_rdmaDone_mailbox {rs : List RdmaReq} (s : State) (data : List Byte) (h : ∀ r ∈ rs, ∃ e, r.use = .mailbox e) :
    forAll rs (fun r s => rdmaDone s r data) s = s := by
  induction rs with
  | nil => rfl
  | cons r rs ih =>
    rw [List.forall_mem_cons] at h
    obtain ⟨⟨e, he⟩, hrs⟩ := h
    show forAll rs _ (rdmaDone s r data) = s
    rw [rdmaDone_mailbox s data he, ih hrs]
/-- Messages to hosts that were acknowledged are outstanding no longer, whether or not their queue pair moves then. -/
theorem completeReqs_out {s : State} {i n : Nat} (data : List Byte) (h : ∀ r ∈ (s.qp i).out.take n, ∃ e, r.use = .mailbox e) :
    ((completeReqs s i n data).qp i).out = (s.qp i).out.drop n := by
  unfold completeReqs
  dsimp only
  rw [forAll_rdmaDone_mailbox _ data h, ((NetKept.refl moveParts _).qpMove i (.refl _)).qp, modQp_qp, if_pos rfl]

theorem rxFrame_qp (s : State) (p i : Nat) : (rxFrame s p).qp i = s.qp i := by rw [State.qp, State.qp, rxFrame_net]
theorem rxFrame_qpState (s : State) (p i : Nat) : (rxFrame s p).qpState i = s.qpState i := (rxFrame_kept s p).qpState i

section
variable {s : State} {i : Fin 2048} (hrun : s.running = true) (hready : s.qpState i = 1)
include hrun hready

theorem execRoceResponseRx_ack (psn : BitVec 24) : execRoceResponseRx i (.ack psn) s =
    .next (completeReqs (rxFrame s (s.qpPort i)) i (ackedCount s i psn.toNat) []) := by
  have hcount : ackedCount (rxFrame s (s.qpPort i)) i psn.toNat = ackedCount s i psn.toNat := by rw [ackedCount, ackedCount, rxFrame_qp]
  rw [execRoceResponseRx, if_neg (by simp [hrun, hready])]
  dsimp only
  rw [hcount]
theorem execRoceResponseRx_nak (psn : BitVec 24) {syn : BitVec 8} (hsyn : syn.toNat ≠ 0x60) :
    execRoceResponseRx i (.nak psn syn) s = .next (qpFail (rxFrame s (s.qpPort i)) i) := by
  rw [execRoceResponseRx, if_neg (by simp [hrun, hready])]
  exact if_neg hsyn
theorem execRoceCnpRx_acts (hecn : s.reg Obj.roceEcn = 1) :
    execRoceCnpRx i s = .next ((rxFrame s (s.qpPort i)).modQp i fun q => { q with cnps := q.cnps + 1 }) := by
  have hset : (rxFrame s (s.qpPort i)).reg Obj.roceEcn = 1 := ((rxFrame_kept s _).reg (by decide)).trans hecn
  rw [execRoceCnpRx, if_neg (by simp [hrun, hready])]
  exact congrArg Host.Outcome.next (if_pos hset)

variable (hout : (s.qp i).out ≠ [])
include hout

theorem execRoceAckTimeout_waiting : execRoceAckTimeout i s = .next (retryQp s i) := if_neg (by simp [hrun, hready, hout])

end

/-- What is outstanding is sent again, and stays outstanding. -/
theorem retryQp_again {s : State} {i : Nat} (hleft : (s.qp i).retries < s.reg Obj.roceRetry) :
    (retryQp s i).qp i = { s.qp i with retries := (s.qp i).retries + 1 } ∧ (retryQp s i).qpState i = s.qpState i := by
  have hsent := (NetKept.refl frameParts (s.modQp i fun q => { q with retries := q.retries + 1 })).qpResend i (.refl _)
  rw [retryQp, if_neg (Nat.not_le.2 hleft), hsent.qp, modQp_qp, if_pos rfl]
  exact ⟨rfl, (hsent.qpState i).trans (qpState_congr (modQp_qpRec ..))⟩
theorem retryQp_fails {s : State} {i : Nat} (hused : s.reg Obj.roceRetry ≤ (s.qp i).retries) : retryQp s i = qpFail s i := if_pos hused

/-! ### Records written (R357) -/

/-- A record with the fields that software writes. -/
def softWritten (s : State) (i v : Nat) : State := s.setReg (ofUnit Obj.roceQp i) (qpSoft s i v)
theorem qpSoft_flags (s : State) (i v : Nat) {j : Nat} (hj : j < 320) : (qpSoft s i v).testBit j = v.testBit j := by
  rw [qpSoft, Nat.add_comm, Nat.mul_comm, Nat.testBit_two_pow_mul_add _ (bitsOf_lt v 0 320), if_pos hj, testBit_bitsOf, decide_eq_true hj,
    Bool.true_and, Nat.zero_add]
theorem softWritten_flags (s : State) (i v : Nat) : (softWritten s i v).qpFld i 4 4 = fld v 4 4 := by
  refine Nat.eq_of_testBit_eq fun j => ?_
  rw [State.qpFld, testBit_fld, testBit_fld]
  by_cases hj : j < 8 * 4
  · have hrec : (softWritten s i v).qpRec i = qpSoft s i v % 2 ^ (8 * 64) := by
      rw [State.qpRec, softWritten, setReg_reg, if_pos rfl, size_qpKey, Nat.pow_mul 2 8 64]
    rw [hrec, Nat.testBit_mod_two_pow, decide_eq_true (by omega : 8 * 4 + j < 8 * 64), Bool.true_and, qpSoft_flags _ _ _ (by omega)]
  · rw [decide_eq_false hj, Bool.false_and, Bool.false_and]

/-- A queue pair made ready, with its first sequence numbers and a port. -/
def qpStarted (s : State) (i v : Nat) : State :=
  ((softWritten s i v).setQpFld i 0x28 1 1).modQp i fun q =>
    { naked := q.naked, cnps := q.cnps, sendPsn := fld v 0x20 3, recvPsn := fld v 0x24 3 }
theorem qpWrite_on {s : State} {i v : Nat} (hon : bitOf (fld v 4 4) 0 = true) (hidle : s.qpState i ≠ 1) :
    qpWrite s i v = (qpStarted s i v).setQpFld i 0x29 1 (portFor (qpStarted s i v) i) := by
  rw [qpWrite, if_pos hon, if_neg hidle]
  rfl
/-- A queue pair reset: no state, no port, no request. -/
def qpReset (s : State) (i v : Nat) : State :=
  (((softWritten s i v).setQpFld i 0x28 1 0).setQpFld i 0x29 1 0xFF).modQp i fun q => { naked := q.naked, cnps := q.cnps }
theorem qpWrite_off {s : State} {i v : Nat} (hoff : bitOf (fld v 4 4) 0 = false) :
    qpWrite s i v = if s.qpState i = 1 then usersFail (qpReset s i v) i else qpReset s i v := by
  rw [qpWrite, if_neg (by rw [hoff]; decide)]
  rfl

theorem qpFld_congr {s t : State} {i : Nat} (h : t.qpRec i = s.qpRec i) (off size : Nat) : t.qpFld i off size = s.qpFld i off size := by
  rw [State.qpFld, State.qpFld, h]
theorem qpStarted_starts (s : State) (i v port : Nat) : ((qpStarted s i v).setQpFld i 0x29 1 port).qpState i = 1 ∧
    ((qpStarted s i v).setQpFld i 0x29 1 port).qpValid i = bitOf (fld v 4 4) 0 ∧
    ((qpStarted s i v).setQpFld i 0x29 1 port).qp i =
      { naked := (s.qp i).naked, cnps := (s.qp i).cnps, sendPsn := fld v 0x20 3, recvPsn := fld v 0x24 3 } := by
  have hrec : (qpStarted s i v).qpRec i = ((softWritten s i v).setQpFld i 0x28 1 1).qpRec i := modQp_qpRec ..
  refine ⟨?_, ?_, ?_⟩
  · rw [State.qpState, setQpFld_other _ _ _ (by decide) (by decide), qpFld_congr hrec, setQpFld_self _ _ _ (by decide)]
  · rw [State.qpValid, setQpFld_other _ _ _ (by decide) (by decide), qpFld_congr hrec, setQpFld_other _ _ _ (by decide) (by decide),
      softWritten_flags]
  · rw [setQpFld_qp, qpStarted, modQp_qp, if_pos rfl, setQpFld_qp, softWritten, State.qp, setReg_net]
    rfl
theorem qpReset_resets (s : State) (i v : Nat) : (qpReset s i v).qpState i = 0 ∧ (qpReset s i v).qpValid i = bitOf (fld v 4 4) 0 ∧
    ((qpReset s i v).qp i).out = [] := by
  have hrec : (qpReset s i v).qpRec i = (((softWritten s i v).setQpFld i 0x28 1 0).setQpFld i 0x29 1 0xFF).qpRec i := modQp_qpRec ..
  refine ⟨?_, ?_, ?_⟩
  · rw [State.qpState, qpFld_congr hrec, setQpFld_other _ _ _ (by decide) (by decide), setQpFld_self _ _ _ (by decide)]
  · rw [State.qpValid, qpFld_congr hrec, setQpFld_other _ _ _ (by decide) (by decide), setQpFld_other _ _ _ (by decide) (by decide),
      softWritten_flags]
  · rw [qpReset, modQp_qp, if_pos rfl]
/-- What rests on a queue pair ends without touching its record or its requests. -/
theorem usersFail_qpRec (s : State) (i j : Nat) : (usersFail s i).qpRec j = s.qpRec j :=
  (usersFail_moves s i (.refl _ _) (.refl _)).same (.obj 0x74) (by decide) _ (page_ofUnit j page_roceQp)
theorem qpWrite_resets {s : State} {i v : Nat} (hoff : bitOf (fld v 4 4) 0 = false) : (qpWrite s i v).qpState i = 0 ∧
    (qpWrite s i v).qpValid i = false ∧ ((qpWrite s i v).qp i).out = [] := by
  obtain ⟨hstate, hvalid, hout⟩ := qpReset_resets s i v
  rw [hoff] at hvalid
  rw [qpWrite_off hoff]
  split
  · have hrec := usersFail_qpRec (qpReset s i v) i i
    refine ⟨(qpState_congr hrec).trans hstate, ?_, ?_⟩
    · rw [State.qpValid, qpFld_congr hrec]
      exact hvalid
    · rw [State.qp, usersFail_net]
      exact hout
  · exact ⟨hstate, hvalid, hout⟩

/-- A record written is answered with what its handler leaves of the queue pairs. -/
theorem roceQpWrite_leads {s : State} {q : Req} {v : BitVec 512} {a : Ans} (hq : s.takesWrite q Obj.roceQp = true)
    (ha : roceQpWrite v.toNat s = a) : Leads (.roceQpWrite q v) s fun t => (∀ i, t.qpRec i = a.st.qpRec i) ∧ (∀ i, t.qp i = a.st.qp i) ∧
      Answers t q 2 Obj.roceQp a.status a.value := by
  have hrun : dictWrite s q Obj.roceQp (roceQpWrite v.toNat) = answered s.beat q 2 Obj.roceQp a := by rw [dictWrite_takes _ hq, ha]
  refine ⟨_, congrArg Host.Outcome.next hrun, fun i => answered_reg _ _ _ _ _ fun h => ?_, fun _ => rfl, answered_answers ..⟩
  exact absurd (congrArg (· % 256) h) (by simp only [sub_qpKey]; decide)

/-! ### Regions written (R358) -/

theorem roceRgnWrite_formed {v : Nat} (s : State) (hflags : bitsOf (rgnFlags v) 5 27 = 0) (hrest : fld v 0x18 8 = 0) : roceRgnWrite v s =
    if rgnValid v && rgnBad s (s.reg Obj.roceRgnSel) v then Ans.refuse stRange s
    else Ans.ok (s.setReg (ofUnit Obj.roceRgn (s.reg Obj.roceRgnSel)) v) := if_neg (by simp [hflags, hrest])
theorem rgn_setReg (s : State) (r : Nat) (v : BitVec 256) : (s.setReg (ofUnit Obj.roceRgn r) v.toNat).rgn r = v.toNat := by
  have hsize : objSize (objPart (ofUnit Obj.roceRgn r)) = 32 := by
    rw [show objPart (ofUnit Obj.roceRgn r) = Obj.roceRgn from Nat.add_mul_mod_self_right ..]
    rfl
  rw [State.rgn, setReg_reg, if_pos rfl, hsize]
  exact Nat.mod_eq_of_lt v.isLt
theorem roceRgnWrite_leads {s : State} {q : Req} {v : BitVec 256} {a : Ans} (hq : s.takesWrite q Obj.roceRgn = true)
    (ha : roceRgnWrite v.toNat s = a) : Leads (.roceRgnWrite q v) s fun t => (∀ r, t.rgn r = a.st.rgn r) ∧
      Answers t q 2 Obj.roceRgn a.status a.value := by
  have hrun : dictWrite s q Obj.roceRgn (roceRgnWrite v.toNat) = answered s.beat q 2 Obj.roceRgn a := by rw [dictWrite_takes _ hq, ha]
  exact ⟨_, congrArg Host.Outcome.next hrun,
    fun r => answered_reg _ _ _ _ _ (by unfold ofUnit Obj.roceRgn Obj.mgtRequests ob; omega), answered_answers ..⟩

/-- Settles O39: what is acknowledged is done, what fails is abandoned, and what is sent again stays outstanding. -/
theorem queuePairsComplete : Obligations.QueuePairsComplete := by
  intro s
  refine ⟨?ack, ?nak, ?timeout, ?cnp, ?record, ?region⟩
  case ack =>
    intro i psn hrun hready hdone
    refine ⟨_, execRoceResponseRx_ack hrun hready psn, (completeReqs_out [] ?_).trans ?_⟩
    · rw [rxFrame_qp]
      exact hdone
    · rw [rxFrame_qp]
  case nak =>
    intro i psn hrun hready syn hsyn
    have hready' : (rxFrame s (s.qpPort i)).qpState i = 1 := (rxFrame_qpState ..).trans hready
    refine ⟨_, execRoceResponseRx_nak hrun hready psn hsyn, qpFail_state hready', congrArg Qp.out (qpFail_qp hready'), ?_⟩
    rw [qpFail_errors hready', (rxFrame_kept s _).reg (by decide)]
  case timeout =>
    intro i hrun hready hout
    have htimeout := execRoceAckTimeout_waiting hrun hready hout
    refine ⟨fun hleft => ?_, fun hused => ?_⟩
    · obtain ⟨hqp, hstate⟩ := retryQp_again hleft
      exact ⟨_, htimeout, (congrArg Qp.out hqp :), (congrArg Qp.retries hqp :), hstate.trans hready⟩
    · exact ⟨_, htimeout.trans (congrArg _ (retryQp_fails hused)), congrArg Qp.out (qpFail_qp hready), qpFail_state hready⟩
  case cnp =>
    intro i hrun hready hecn
    refine ⟨_, execRoceCnpRx_acts hrun hready hecn, ?_⟩
    beta_reduce
    rw [modQp_qp, if_pos rfl, rxFrame_qp]
    exact ⟨rfl, rfl⟩
  case record =>
    rintro q v i rfl hq
    refine ⟨fun hok hon hidle => ?_, fun hok hoff => ?_, fun st hrefused => ?_⟩
    · have hwrite : roceQpWrite v.toNat s = Ans.ok (qpWrite s (s.reg Obj.roceQpSel) v.toNat) := by rw [roceQpWrite, hok]
      obtain ⟨t, hrun, hrec, hqp, hans⟩ := roceQpWrite_leads hq hwrite
      obtain ⟨hstate, hvalid, hstarted⟩ := qpStarted_starts s (s.reg Obj.roceQpSel) v.toNat
        (portFor (qpStarted s (s.reg Obj.roceQpSel) v.toNat) (s.reg Obj.roceQpSel))
      rw [← qpWrite_on hon hidle] at hstate hvalid hstarted
      have hqp' := (hqp (s.reg Obj.roceQpSel)).trans hstarted
      refine ⟨t, hrun, (qpState_congr (hrec _)).trans hstate, ?_, congrArg Qp.sendPsn hqp', congrArg Qp.recvPsn hqp', congrArg Qp.out hqp', hans⟩
      rw [State.qpValid, qpFld_congr (hrec _)]
      exact hvalid.trans hon
    · have hwrite : roceQpWrite v.toNat s = Ans.ok (qpWrite s (s.reg Obj.roceQpSel) v.toNat) := by rw [roceQpWrite, hok]
      obtain ⟨t, hrun, hrec, hqp, hans⟩ := roceQpWrite_leads hq hwrite
      obtain ⟨hstate, hvalid, hout⟩ := qpWrite_resets hoff
      refine ⟨t, hrun, (qpState_congr (hrec _)).trans hstate, ?_, (congrArg Qp.out (hqp _)).trans hout, hans⟩
      rw [State.qpValid, qpFld_congr (hrec _)]
      exact hvalid
    · have hwrite : roceQpWrite v.toNat s = Ans.refuse st s := by rw [roceQpWrite, hrefused]
      obtain ⟨t, hrun, hrec, _, hans⟩ := roceQpWrite_leads hq hwrite
      exact ⟨t, hrun, hrec _, hans⟩
  case region =>
    intro q v hq hflags hrest
    have hwrite := roceRgnWrite_formed s hflags hrest
    refine ⟨fun hgood => ?_, fun hvalid hbad => ?_⟩
    · obtain ⟨t, hrun, hrgn, hans⟩ := roceRgnWrite_leads hq (hwrite.trans (if_neg (by rw [hgood]; decide)))
      exact ⟨t, hrun, (hrgn _).trans (rgn_setReg ..), hans⟩
    · obtain ⟨t, hrun, hrgn, hans⟩ := roceRgnWrite_leads hq (hwrite.trans (if_pos (by rw [hvalid, hbad]; rfl)))
      exact ⟨t, hrun, hrgn _, hans⟩

end Sys2Proof.Machine
end

section
/-! Mailboxes (R362–R368): channels and doorbell bits read back, what a host writes into its page, what a receiver takes, and what the management
controller sends. -/

namespace Sys2Proof.Machine

/-! ### Channels and doorbells read back -/

@[simp] theorem modChan_chan (s : State) (k j : Nat) (f : Chan → Chan) :
    (s.modChan k f).chan j = if j = k then f (s.chan k) else s.chan j := smGet_set ..
theorem size_mbxSqDbPending (n : Nat) : objSize (objPart (Obj.mbxSqDbPending n)) = 4 :=
  (by decide : ∀ m : Fin 16, objSize (objPart (ob (0xA300 + m.val) 0x01)) = 4) ⟨n % 16, Nat.mod_lt _ (by decide)⟩

/-- The bits of a receiver are read of its pages of objects, or of what a host's endpoint holds. -/
theorem dbPending_congr {s t : State} (hregs : ∀ k, page k = 0xA2 ∨ page k = 0xA3 → t.reg k = s.reg k)
    (hhost : t.net.hostPending = s.net.hostPending) (ep : Nat) : t.dbPending ep = s.dbPending ep := by
  rw [State.dbPending, State.dbPending, hhost, hregs _ (.inl page_mbxMcDbPending), hregs _ (.inr (page_mbxSqDbPending _))]
theorem dbMask_congr {s t : State} (hregs : ∀ k, page k = 0xA2 ∨ page k = 0xA3 → t.reg k = s.reg k)
    (hhost : t.net.hostMask = s.net.hostMask) (ep : Nat) : t.dbMask ep = s.dbMask ep := by
  rw [State.dbMask, State.dbMask, hhost, hregs _ (.inl page_mbxMcDbMask), hregs _ (.inr (page_mbxSqDbMask _))]
theorem NetKept.dbPending {s t : State} (h : NetKept frameParts s t) (ep : Nat) : t.dbPending ep = s.dbPending ep :=
  dbPending_congr (fun k hk => h.reg (by omega)) h.hostPending ep

theorem dbPending_host (s : State) (e : Nat) : s.dbPending (epHost e) = smGet zeroWord s.net.hostPending e := by
  have hmc : epHost e ≠ epMc := by unfold epHost epMc; omega
  have hseq : ¬ epHost e < 0x40 := by unfold epHost; omega
  rw [State.dbPending, if_neg hmc, if_neg hseq, epHost, Nat.add_sub_cancel_left]
theorem dbMask_host (s : State) (e : Nat) : s.dbMask (epHost e) = smGet zeroWord s.net.hostMask e := by
  have hmc : epHost e ≠ epMc := by unfold epHost epMc; omega
  have hseq : ¬ epHost e < 0x40 := by unfold epHost; omega
  rw [State.dbMask, if_neg hmc, if_neg hseq, epHost, Nat.add_sub_cancel_left]

theorem setPending_chan (s : State) (ep v k : Nat) : (s.setPending ep v).chan k = s.chan k := by
  unfold State.setPending; split
  · rfl
  · split <;> rfl
theorem setPending_qp (s : State) (ep v i : Nat) : (s.setPending ep v).qp i = s.qp i := by
  unfold State.setPending; split
  · rfl
  · split <;> rfl
theorem setPending_reg (s : State) (ep v : Nat) {k : Nat} (hmc : page k ≠ 0xA2) (hseq : page k ≠ 0xA3) : (s.setPending ep v).reg k = s.reg k := by
  unfold State.setPending; split
  · exact (setReg_reg ..).trans (if_neg (by rintro rfl; exact hmc page_mbxMcDbPending))
  · split
    · exact (setReg_reg ..).trans (if_neg (by rintro rfl; exact hseq (page_mbxSqDbPending _)))
    · rfl
/-- The lowest 32 bits set for a receiver are the ones that it reads. -/
theorem setPending_dbPending (s : State) (ep v : Nat) {b : Nat} (hb : b < 32) :
    bitOf ((s.setPending ep v).dbPending ep) b = bitOf v b := by
  have hcut : bitOf (v % 256 ^ 4) b = bitOf v b := by
    rw [show (256 : Nat) ^ 4 = 2 ^ 32 by decide, bitOf, Nat.testBit_mod_two_pow, decide_eq_true hb, Bool.true_and]; rfl
  unfold State.setPending State.dbPending
  by_cases hmc : ep = epMc
  · rw [if_pos hmc, if_pos hmc, setReg_reg, if_pos rfl]
    exact hcut
  · rw [if_neg hmc, if_neg hmc]
    by_cases hseq : ep < 0x40
    · rw [if_pos hseq, if_pos hseq, setReg_reg, if_pos rfl, size_mbxSqDbPending]
      exact hcut
    · rw [if_neg hseq, if_neg hseq]
      exact congrArg (bitOf · b) ((smGet_set ..).trans (if_pos rfl))

/-- Beside a doorbell bit, a receiver rung at most takes an interrupt. -/
theorem ring_eq (s : State) (ep bit : Nat) : ∃ out, ring s ep bit = (s.setPending ep (s.dbPending ep ||| 2 ^ bit)).withOutbox out := by
  unfold ring
  dsimp only
  split
  · exact ⟨_, rfl⟩
  · exact ⟨_, rfl⟩
theorem ring_chan (s : State) (ep bit k : Nat) : (ring s ep bit).chan k = s.chan k := by
  obtain ⟨out, h⟩ := ring_eq s ep bit
  rw [h]; exact setPending_chan ..
theorem ring_qp (s : State) (ep bit i : Nat) : (ring s ep bit).qp i = s.qp i := by
  obtain ⟨out, h⟩ := ring_eq s ep bit
  rw [h]; exact setPending_qp ..
theorem ring_reg (s : State) (ep bit : Nat) {k : Nat} (hmc : page k ≠ 0xA2) (hseq : page k ≠ 0xA3) : (ring s ep bit).reg k = s.reg k := by
  obtain ⟨out, h⟩ := ring_eq s ep bit
  rw [h, withOutbox_reg]; exact setPending_reg _ _ _ hmc hseq
theorem ring_rings (s : State) (ep : Nat) {bit : Nat} (hbit : bit < 32) : bitOf ((ring s ep bit).dbPending ep) bit = true := by
  obtain ⟨out, h⟩ := ring_eq s ep bit
  rw [h]
  refine (setPending_dbPending s ep _ hbit).trans ?_
  rw [bitOf, Nat.testBit_or, Nat.testBit_two_pow_self, Bool.or_true]
theorem msgDbell_lt (bytes : List Byte) : msgDbell bytes < 32 := bitsOf_lt _ 8 5

theorem place_chan (s : State) (sender receiver : Nat) (secure : Bool) (bytes : List Byte) :
    let k := chanKey sender receiver secure
    (place s sender receiver secure bytes).chan k =
      { s.chan k with w := ((s.chan k).w + 1) % 2 ^ 32, msgs := (s.chan k).msgs ++ [stamp sender secure (s.chan k).w bytes] } := by
  intro k
  rw [place, ring_chan, modChan_chan, if_pos rfl]
theorem place_rings (s : State) (sender receiver : Nat) (secure : Bool) (bytes : List Byte) :
    bitOf ((place s sender receiver secure bytes).dbPending receiver) (msgDbell bytes) = true := ring_rings _ _ (msgDbell_lt bytes)
theorem place_qp (s : State) (sender receiver : Nat) (secure : Bool) (bytes : List Byte) (i : Nat) :
    (place s sender receiver secure bytes).qp i = s.qp i := ring_qp ..

theorem fullWrite_chan (s : State) (ep k : Nat) : (fullWrite s ep).chan k = s.chan k := by
  rw [fullWrite, State.chan, raise_net]; rfl
theorem fullWrite_count (s : State) (ep : Nat) :
    (fullWrite s ep).reg Obj.mbxFullWrites = min (s.reg Obj.mbxFullWrites + 1) (2 ^ 32 - 1) := by
  rw [fullWrite, raise_reg _ _ _ _ _ _ (by decide), bump_u32 _ size_mbxFullWrites]
theorem fullWrite_qpState (s : State) (ep i : Nat) : (fullWrite s ep).qpState i = s.qpState i := by
  have hpage : page (ofUnit Obj.roceQp i) = 0x74 := page_ofUnit i page_roceQp
  refine qpState_congr ((raise_reg _ _ _ _ _ _ (by rw [hpage]; decide)).trans ?_)
  exact (bump_reg ..).trans (if_neg (by rintro h; rw [h] at hpage; exact absurd hpage (by decide)))
theorem fullWrite_reports (s : State) (ep : Nat) : Reports s (fullWrite s ep) 0xAA01 .note (epUnit ep) :=
  (raise_reports _ _ _ _ _).of_same rfl rfl

/-! ### A write of a host into its page (R363, R365) -/

theorem NetKept.boundTo {s t : State} (h : NetKept frameParts s t) (e i : Nat) : boundTo t e i = boundTo s e i := by
  have hqp (k : Nat) : t.qpValid k = s.qpValid k ∧ t.qpNet k = s.qpNet k := by
    rw [State.qpValid, State.qpNet, qpFld_congr (h.qpRec k)]; exact ⟨rfl, rfl⟩
  simp only [Machine.boundTo, State.hostExists, h.reg (by rw [page_mbxEpQp]; decide : page (Obj.mbxEpQp e) ≠ 0x72), hqp]

/-- A write at an offset of the page of an endpoint whose queue pair makes it. -/
theorem mbxWrite_page {s : State} {e i off : Nat} (psn : Nat) (bytes : List Byte) (he : e < 16) (hoff : off < 4096)
    (hbound : boundTo s e i = true) : mbxWrite s i psn (4096 * e + off) bytes =
      if off < 0x480 then portWrite s i psn e (off / 64) (off % 64) bytes
      else if 0xC00 ≤ off ∧ off < 0xC48 ∧ off % 4 = 0 then fieldWrite s i psn bytes (setCons e ((off - 0xC00) / 4))
      else if off = 0xE04 then fieldWrite s i psn bytes (clearDb e)
      else if off = 0xE08 then fieldWrite s i psn bytes (setMask e)
      else accessNak s i psn := by
  have hpage : (4096 * e + off) / 4096 = e := by omega
  have hin : (4096 * e + off) % 4096 = off := by omega
  unfold mbxWrite
  rw [hpage, hin, if_neg (by simp [he, hbound])]

/-- What lets a host's write of its page reach the page (R353, R363): it is in its order, under the mailbox key, and of the endpoint's queue pair. -/
structure PageWritten (s : State) (h : RoceHdr) (key : BitVec 32) (e i : Nat) : Prop where
  qp : rxQp s h = some i
  due : seqPos s i h = .due
  fresh : (s.qp i).wr = none
  enabled : s.reg Obj.mbxRkey ≠ 0
  key : key.toNat = s.reg Obj.mbxRkey
  bound : boundTo s e i = true

namespace PageWritten
variable {s : State} {h : RoceHdr} {key : BitVec 32} {e : Fin 16} {i : Nat} (hw : PageWritten s h key e i)
include hw

theorem ready : (packetHeard s i h).qpState i = 1 := ((packetHeard_kept s i h).qpState i).trans (rxQp_ready hw.qp)
theorem pageWrite {off : Nat} (bytes : List Byte) (hoff : off < 4096) :
    pageWrite s h key e off bytes = mbxWrite (packetHeard s i h) i h.psn.toNat (4096 * e + off) bytes := by
  have hsees := packetHeard_sees s i h
  have hbox : inMailbox (packetHeard s i h) ((packetHeard s i h).reg Obj.mbxVa + 4096 * e + off) key.toNat = true := by
    have he := e.isLt
    rw [hsees.inMailbox, hsees.regs _ (by decide), inMailbox, hw.key]
    simp only [Bool.and_eq_true, bne_iff_ne, beq_self_eq_true, decide_eq_true_eq, ne_eq]
    unfold mbxRange
    exact ⟨⟨⟨hw.enabled, trivial⟩, by omega⟩, by omega⟩
  refine (rxOrdered_due _ hw.qp hw.due).trans ?_
  show (if ((packetHeard s i h).qp i).wr.isSome then _ else _) = _
  rw [hsees.qp, hw.fresh, if_neg (by decide)]
  exact if_pos hbox
theorem pageWrite_at {off : Nat} (bytes : List Byte) (hoff : off < 4096) : Machine.pageWrite s h key e off bytes =
      if off < 0x480 then portWrite (packetHeard s i h) i h.psn.toNat e (off / 64) (off % 64) bytes
      else if 0xC00 ≤ off ∧ off < 0xC48 ∧ off % 4 = 0 then fieldWrite (packetHeard s i h) i h.psn.toNat bytes (setCons e ((off - 0xC00) / 4))
      else if off = 0xE04 then fieldWrite (packetHeard s i h) i h.psn.toNat bytes (clearDb e)
      else if off = 0xE08 then fieldWrite (packetHeard s i h) i h.psn.toNat bytes (setMask e)
      else accessNak (packetHeard s i h) i h.psn.toNat :=
  (hw.pageWrite bytes hoff).trans (mbxWrite_page _ bytes e.isLt hoff (((packetHeard_kept s i h).boundTo e i).trans hw.bound))

end PageWritten

/-! ### A message into a port -/

section
variable {s : State} {i e j : Nat} (psn : Nat) {bytes : List Byte} (hlen : bytes.length = 64) (hsecure : j = 1 → s.epSecure e = true)
  (htype : typeOk j (leNat (bytes.take 1)) = true)
include hlen hsecure htype

theorem portWrite_formed : portWrite s i psn e j 0 bytes =
    if (s.chan (chanKey (epHost e) (portReceiver j) (j == 1))).full then opNak (fullWrite s (portReceiver j)) i psn synOperation
    else ackUp (rxAdvance (place s (epHost e) (portReceiver j) (j == 1) bytes) i 1) i psn := by
  have hopen : (j == 1 && !s.epSecure e) = false := by
    by_cases hj : j = 1
    · rw [hsecure hj]; simp
    · simp [hj]
  unfold portWrite
  rw [hopen, htype, if_neg (by simp [hlen])]
/-- A message into a port with room stands in its channel, and rings its receiver. -/
theorem portWrite_placed (hroom : (s.chan (chanKey (epHost e) (portReceiver j) (j == 1))).full = false) :
    let k := chanKey (epHost e) (portReceiver j) (j == 1)
    let t := portWrite s i psn e j 0 bytes
    t.chan k = { s.chan k with w := ((s.chan k).w + 1) % 2 ^ 32,
                               msgs := (s.chan k).msgs ++ [stamp (epHost e) (j == 1) (s.chan k).w bytes] } ∧
      bitOf (t.dbPending (portReceiver j)) (msgDbell bytes) = true ∧ (t.qp i).recvPsn = ((s.qp i).recvPsn + 1) % 2 ^ 24 := by
  intro k t
  have ht : t = ackUp (rxAdvance (place s (epHost e) (portReceiver j) (j == 1) bytes) i 1) i psn :=
    (portWrite_formed psn hlen hsecure htype).trans (if_neg (by rw [hroom]; decide))
  have hacked : NetKept frameParts (rxAdvance (place s (epHost e) (portReceiver j) (j == 1) bytes) i 1) t :=
    ht ▸ (NetKept.refl frameParts _).roceEmit _ _ (.refl _)
  refine ⟨?_, ?_, ?_⟩
  · rw [hacked.chan, rxAdvance, modQp_chan]
    exact place_chan ..
  · rw [hacked.dbPending]
    exact place_rings ..
  · rw [hacked.qp, rxAdvance_qp, place_qp]
/-- A message into a full port is counted, and ends the queue pair. -/
theorem portWrite_full (hready : s.qpState i = 1) (hfull : (s.chan (chanKey (epHost e) (portReceiver j) (j == 1))).full = true) :
    let k := chanKey (epHost e) (portReceiver j) (j == 1)
    let t := portWrite s i psn e j 0 bytes
    t.chan k = s.chan k ∧ t.reg Obj.mbxFullWrites = min (s.reg Obj.mbxFullWrites + 1) (2 ^ 32 - 1) ∧ t.qpState i = 2 := by
  intro k t
  have ht : t = opNak (fullWrite s (portReceiver j)) i psn synOperation := (portWrite_formed psn hlen hsecure htype).trans (if_pos hfull)
  have hready' : (fullWrite s (portReceiver j)).qpState i = 1 := (fullWrite_qpState ..).trans hready
  rw [ht]
  refine ⟨(opNak_chan hready' ..).trans (fullWrite_chan ..), ?_, opNak_state hready' ..⟩
  rw [(opNak_moves _ i psn synOperation (.refl _ _) (.refl _)).reg _ (by decide), fullWrite_count]

end

/-! ### A field of the page -/

theorem leNat_leBytes (n v : Nat) : leNat (leBytes n v) = v % 256 ^ n := by
  induction n generalizing v with
  | zero => exact (Nat.mod_one v).symm
  | succ n ih =>
    rw [leBytes, leNat, ih, BitVec.toNat_ofNat, show 256 ^ (n + 1) = 256 * 256 ^ n from Nat.pow_succ', Nat.mod_mul]
/-- A field written takes effect, the packet is taken, and its acknowledgement is a frame. -/
theorem fieldWrite_kept (s : State) (i psn : Nat) (v : BitVec 32) (f : Nat → NetState → NetState) :
    NetKept frameParts (rxAdvance (s.withNet (f v.toNat s.net)) i 1) (fieldWrite s i psn (leBytes 4 v.toNat) f) := by
  have hv : leNat (leBytes 4 v.toNat) = v.toNat := (leNat_leBytes 4 _).trans (Nat.mod_eq_of_lt v.isLt)
  rw [fieldWrite, if_neg (by simp), hv]
  exact (NetKept.refl _ _).roceEmit _ _ (.refl _)

section
variable {s : State} {h : RoceHdr} {key : BitVec 32} {e : Fin 16} {i : Nat} (hw : PageWritten s h key e i)
include hw

theorem execMbxPortWrite_port (j : Fin 18) (bytes : List Byte) :
    execMbxPortWrite h key e j 0 bytes s = .next (portWrite (packetHeard s i h) i h.psn.toNat e j 0 bytes) := by
  have hj := j.isLt
  refine congrArg Host.Outcome.next ((hw.pageWrite_at bytes (by simp only [Fin.val_zero]; omega)).trans ?_)
  rw [if_pos (by simp only [Fin.val_zero]; omega), show (64 * j.val + (0 : Fin 64).val) / 64 = j.val by simp only [Fin.val_zero]; omega,
    show (64 * j.val + (0 : Fin 64).val) % 64 = 0 by simp only [Fin.val_zero]; omega]
theorem mbxConsWrite_leads (j : Fin 18) (v : BitVec 32) : Leads (.mbxConsWrite h key e j v) s fun t => t.consOf e j = v.toNat ∧
    (t.qp i).recvPsn = ((s.qp i).recvPsn + 1) % 2 ^ 24 := by
  have hj := j.isLt
  have hrun : pageWrite s h key e (0xC00 + 4 * j) (leBytes 4 v.toNat) =
      fieldWrite (packetHeard s i h) i h.psn.toNat (leBytes 4 v.toNat) (setCons e j) := by
    rw [hw.pageWrite_at _ (by omega), if_neg (by omega), if_pos (by omega), show (0xC00 + 4 * j.val - 0xC00) / 4 = j.val by omega]
  have hkept := fieldWrite_kept (packetHeard s i h) i h.psn.toNat v (setCons e j)
  refine ⟨_, congrArg Host.Outcome.next hrun, ?_, ?_⟩
  · rw [State.consOf, hkept.cons]
    exact (smGet_set ..).trans (if_pos rfl)
  · rw [hkept.qp, rxAdvance_qp]
    exact congrArg (fun q : Qp => (q.recvPsn + 1) % 2 ^ 24) ((packetHeard_sees s i h).qp i)
theorem mbxDbClearWrite_leads (v : BitVec 32) : Leads (.mbxDbClearWrite h key e v) s fun t =>
    t.dbPending (epHost e) = s.dbPending (epHost e) &&& (2 ^ 32 - 1 - v.toNat) := by
  have hrun : pageWrite s h key e 0xE04 (leBytes 4 v.toNat) =
      fieldWrite (packetHeard s i h) i h.psn.toNat (leBytes 4 v.toNat) (clearDb e) := by
    rw [hw.pageWrite_at _ (by decide), if_neg (by decide), if_neg (by decide), if_pos rfl]
  have hkept := fieldWrite_kept (packetHeard s i h) i h.psn.toNat v (clearDb e)
  refine ⟨_, congrArg Host.Outcome.next hrun, ?_⟩
  beta_reduce
  rw [dbPending_host, dbPending_host, hkept.hostPending, ← (packetHeard_kept s i h).hostPending]
  refine (smGet_set ..).trans ((if_pos rfl).trans ?_)
  rw [Nat.mod_eq_of_lt v.isLt]
theorem mbxDbMaskWrite_host_leads (v : BitVec 32) : Leads (.mbxDbMaskWrite (.host h key e) v) s fun t => t.dbMask (epHost e) = v.toNat := by
  have hrun : pageWrite s h key e 0xE08 (leBytes 4 v.toNat) =
      fieldWrite (packetHeard s i h) i h.psn.toNat (leBytes 4 v.toNat) (setMask e) := by
    rw [hw.pageWrite_at _ (by decide), if_neg (by decide), if_neg (by decide), if_neg (by decide), if_pos rfl]
  have hkept := fieldWrite_kept (packetHeard s i h) i h.psn.toNat v (setMask e)
  refine ⟨_, congrArg Host.Outcome.next hrun, ?_⟩
  beta_reduce
  rw [dbMask_host, hkept.hostMask]
  exact (smGet_set ..).trans (if_pos rfl)

end

/-! ### Masks written through the dictionary (R366) -/

theorem maskWrite_ok (obj ep v : Nat) (s : State) : ∃ u, maskWrite obj ep v s = Ans.ok u ∧ ∀ k, u.reg k = (s.setReg obj v).reg k := by
  unfold maskWrite
  dsimp only
  split
  · exact ⟨_, rfl, fun _ => rfl⟩
  · exact ⟨_, rfl, fun _ => rfl⟩
theorem maskWrite_leads {s : State} {q : Req} {obj : Nat} (ep : Nat) (v : BitVec 32) (hq : s.takesWrite q obj = true)
    (hsize : objSize (objPart obj) = 4) (hobj : obj ≠ Obj.mgtRequests) : ∃ t, dictWrite s q obj (maskWrite obj ep v.toNat) = t ∧
      t.reg obj = v.toNat ∧ Answers t q 2 obj stOk := by
  obtain ⟨u, hu, hreg⟩ := maskWrite_ok obj ep v.toNat s
  have hrun : dictWrite s q obj (maskWrite obj ep v.toNat) = answered s.beat q 2 obj (Ans.ok u) := by rw [dictWrite_takes _ hq, hu]
  refine ⟨_, hrun, ?_, answered_answers ..⟩
  rw [answered_reg _ _ _ _ _ hobj, Ans.ok, hreg, setReg_reg, if_pos rfl, hsize]
  exact Nat.mod_eq_of_lt v.isLt

/-! ### Channels emptied (R366) -/

theorem chanKey_inj {a b r : Nat} {x y : Bool} (h : chanKey a r x = chanKey b r y) : (a, x) = (b, y) := by
  unfold chanKey at h
  have hbits : (if x then 1 else 0 : Nat) = if y then 1 else 0 := by
    have hx : (if x then 1 else 0 : Nat) < 2 := by split <;> decide
    have hy : (if y then 1 else 0 : Nat) < 2 := by split <;> decide
    omega
  have hab : a = b := by omega
  have hxy : x = y := (by decide : ∀ x y : Bool, (if x then 1 else 0 : Nat) = (if y then 1 else 0) → x = y) x y hbits
  rw [hab, hxy]

/-- What is done with a message leaves the channels and the masks. -/
def ChansKept (s t : State) : Prop := (∀ k, t.chan k = s.chan k) ∧ ∀ ep, t.dbMask ep = s.dbMask ep
theorem ChansKept.refl (s : State) : ChansKept s s := ⟨fun _ => rfl, fun _ => rfl⟩
theorem ChansKept.trans {s t u : State} (h : ChansKept s t) (h2 : ChansKept t u) : ChansKept s u :=
  ⟨fun k => (h2.1 k).trans (h.1 k), fun ep => (h2.2 ep).trans (h.2 ep)⟩

/-- Channels emptied in their order, with the bits served so far. -/
def takeChans (receiver : Nat) (f : List Byte → State → State) (chans : List (Nat × Bool)) (a : Nat × State) : Nat × State :=
  chans.foldl (fun a k => takeChan a.2 receiver k.1 k.2 a.1 f) a
theorem takeAll_eq (s : State) (receiver : Nat) (chans : List (Nat × Bool)) (f : List Byte → State → State) :
    takeAll s receiver chans f = (takeChans receiver f chans (0, s)).2.setPending receiver
      ((takeChans receiver f chans (0, s)).2.dbPending receiver &&& (2 ^ 32 - 1 - (takeChans receiver f chans (0, s)).1 % 2 ^ 32)) := rfl

section
variable {receiver : Nat} {f : List Byte → State → State} (hf : ∀ m s, ChansKept s (f m s))
include hf

theorem takeChan_takes (s : State) (sender : Nat) (secure : Bool) (served : Nat) :
    let k := chanKey sender receiver secure
    let t := (takeChan s receiver sender secure served f).2
    (t.chan k).msgs = (s.chan k).msgs.drop (takable (s.dbMask receiver) (s.chan k)).length ∧
      (∀ j, j ≠ k → t.chan j = s.chan j) ∧ ∀ ep, t.dbMask ep = s.dbMask ep := by
  intro k t
  have hkept : ChansKept (s.modChan k _) t := forAll_induction (P := ChansKept _) _ f (.refl _) fun m u h => h.trans (hf m u)
  refine ⟨?_, fun j hj => ?_, hkept.2⟩
  · rw [hkept.1, modChan_chan, if_pos rfl]
  · rw [hkept.1, modChan_chan, if_neg hj]
/-- Each channel loses the messages that its receiver may take, whatever the others hold. -/
theorem takeChans_takes {chans : List (Nat × Bool)} (hnodup : chans.Nodup) (a : Nat × State) :
    let t := (takeChans receiver f chans a).2
    (∀ c ∈ chans, (t.chan (chanKey c.1 receiver c.2)).msgs = (a.2.chan (chanKey c.1 receiver c.2)).msgs.drop
      (takable (a.2.dbMask receiver) (a.2.chan (chanKey c.1 receiver c.2))).length) ∧
    (∀ c ∉ chans, t.chan (chanKey c.1 receiver c.2) = a.2.chan (chanKey c.1 receiver c.2)) ∧ ∀ ep, t.dbMask ep = a.2.dbMask ep := by
  induction chans generalizing a with
  | nil => exact ⟨fun _ h => absurd h List.not_mem_nil, fun _ _ => rfl, fun _ => rfl⟩
  | cons d ds ih =>
    obtain ⟨hd, hds⟩ := List.nodup_cons.1 hnodup
    obtain ⟨htaken, hother, hmask⟩ := takeChan_takes hf a.2 d.1 d.2 a.1 (receiver := receiver)
    obtain ⟨hrest, hrestOther, hrestMask⟩ := ih hds (takeChan a.2 receiver d.1 d.2 a.1 f)
    have hne {c : Nat × Bool} (h : c ≠ d) : chanKey c.1 receiver c.2 ≠ chanKey d.1 receiver d.2 := fun he => h (chanKey_inj he)
    refine ⟨fun c hc => ?_, fun c hc => ?_, fun ep => (hrestMask ep).trans (hmask ep)⟩
    · rcases List.mem_cons.1 hc with rfl | hc
      · exact (congrArg Chan.msgs (hrestOther c hd)).trans htaken
      · have hcd : c ≠ d := fun he => hd (he ▸ hc)
        rw [← hother _ (hne hcd), ← hmask]
        exact hrest c hc
    · obtain ⟨hcd, hc⟩ := not_or.1 (List.mem_cons.not.1 hc)
      exact (hrestOther c hc).trans (hother _ (hne hcd))
theorem takeAll_takes {chans : List (Nat × Bool)} (hnodup : chans.Nodup) (s : State) : ∀ c ∈ chans,
    ((takeAll s receiver chans f).chan (chanKey c.1 receiver c.2)).msgs = (s.chan (chanKey c.1 receiver c.2)).msgs.drop
      (takable (s.dbMask receiver) (s.chan (chanKey c.1 receiver c.2))).length := by
  intro c hc
  rw [takeAll_eq, setPending_chan]
  exact (takeChans_takes hf hnodup (0, s)).1 c hc

end

/-- What a sequencer does with a message (R368). -/
def seqTakes (cl : Nat) (m : List Byte) (s : State) : State := if msgType m = 1 then takeLengths s cl m else s
theorem takeLengths_net (s : State) (cl : Nat) (m : List Byte) : (takeLengths s cl m).net = s.net :=
  (takeLengths_moves s cl m (.refl _ _) (.refl _)).same .net (by decide)
theorem seqTakes_chansKept (cl : Nat) (m : List Byte) (s : State) : ChansKept s (seqTakes cl m s) := by
  unfold seqTakes
  split
  · have hnet := takeLengths_net s cl m
    have hmoves := takeLengths_moves s cl m (.refl _ _) (.refl _)
    refine ⟨fun k => congrArg (fun n : NetState => smGet dChan n.chans k) hnet,
      dbMask_congr (fun k hk => ?_) (congrArg NetState.hostMask hnet)⟩
    rcases hk with hk | hk
    · exact hmoves.same (.obj 0xA2) (by decide) k hk
    · exact hmoves.same (.obj 0xA3) (by decide) k hk
  · exact .refl s
theorem seqChans_nodup : seqChans.Nodup := by decide
theorem mcChans_nodup : mcChans.Nodup := by decide

theorem execSequencerMailboxTake_notified {s : State} {cl : Fin 16} (hrun : s.running = true) (hnote : s.notified (epSeq cl) = true)
    (hstop : s.reg Obj.ckptState ≠ 1) : execSequencerMailboxTake cl s = .next (takeAll s (epSeq cl) seqChans (seqTakes cl)) :=
  if_neg (by simp [hrun, hnote, hstop])
theorem execMcMailboxService_notified {s : State} (hrun : s.running = true) (hnote : s.notified epMc = true)
    (hwarm : s.mgt.restarting = false) : execMcMailboxService s = .next (takeAll s epMc mcChans fun _ s => s) :=
  if_neg (by simp [hrun, hnote, hwarm])

/-! ### Messages of the management controller (R365, R367) -/

theorem epUnit_seq (cl : Fin 16) : epUnit (epSeq cl) = uCluster cl := by
  have hcl := cl.isLt
  have hmc : epSeq cl ≠ epMc := by unfold epSeq epMc; omega
  have hseq : epSeq cl < 0x40 := by unfold epSeq; omega
  rw [epUnit, if_neg hmc, if_pos hseq, epSeq, Nat.add_sub_cancel_left]

/-- A request given to a ready queue pair is one more outstanding; its message is a frame. -/
theorem qpSend_ready {s : State} {i : Nat} (r : RdmaReq) (hready : s.qpState i = 1) :
    ((qpSend s i r).qp i).out.length = (s.qp i).out.length + 1 ∧ ∀ ep, (qpSend s i r).dbPending ep = s.dbPending ep := by
  rw [qpSend, if_neg (not_not.2 hready)]
  extract_lets r' sent
  have hframe : NetKept frameParts sent (roceEmit sent (sent.qpPort i) (.rdma i r'.wire)) := (NetKept.refl _ _).roceEmit _ _ (.refl _)
  refine ⟨?_, fun ep => (hframe.dbPending ep).trans (dbPending_congr (fun _ _ => rfl) rfl ep)⟩
  rw [hframe.qp]
  unfold sent
  rw [modQp_qp, if_pos rfl]
  exact List.length_append
/-- A message to a host rings the endpoint's bit, and is one more request of its queue pair. -/
theorem sendHost_sends {s : State} {e : Nat} (sender : Nat) (secure : Bool) (bytes : List Byte) (hready : s.qpState (s.reg (Obj.mbxEpQp e)) = 1) :
    bitOf ((sendHost s e sender secure bytes).dbPending (epHost e)) (msgDbell bytes) = true ∧
    ((sendHost s e sender secure bytes).qp (s.reg (Obj.mbxEpQp e))).out.length = (s.qp (s.reg (Obj.mbxEpQp e))).out.length + 1 := by
  unfold sendHost
  extract_lets k w j b r counted
  have hb : b < 32 := msgDbell_lt bytes
  have hqp : counted.reg (Obj.mbxEpQp e) = s.reg (Obj.mbxEpQp e) := rfl
  have hrung : (ring counted (epHost e) b).qpState (s.reg (Obj.mbxEpQp e)) = 1 := by
    have hpage := page_ofUnit (s.reg (Obj.mbxEpQp e)) page_roceQp
    exact (qpState_congr (ring_reg _ _ _ (by rw [hpage]; decide) (by rw [hpage]; decide))).trans hready
  obtain ⟨hout, hbits⟩ := qpSend_ready r hrung
  rw [hqp]
  exact ⟨(congrArg (bitOf · b) (hbits _)).trans (ring_rings _ _ hb), hout.trans (by rw [ring_qp]; rfl)⟩

section
variable {s : State} {dest : Fin 32} (secure : Bool) (msg : BitVec 512) (hrun : s.running = true) (hwarm : s.mgt.restarting = false)
include hrun hwarm

theorem execMcMailboxSend_seq (hseq : dest.val < 16) :
    execMcMailboxSend dest secure msg s = .next (mcToSeq s dest.val (leBytes 64 msg.toNat)) := by
  rw [execMcMailboxSend, if_neg (by simp [hrun, hwarm]), if_pos hseq]
theorem execMcMailboxSend_host (hhost : 16 ≤ dest.val) :
    execMcMailboxSend dest secure msg s = .next (mcToHost s (dest.val - 16) secure (leBytes 64 msg.toNat)) := by
  rw [execMcMailboxSend, if_neg (by simp [hrun, hwarm]), if_neg (Nat.not_lt.2 hhost)]

end

/-- Settles O33: a page write is taken in its order, a receiver takes what no mask holds, and a message sent stands where it can be read. -/
theorem mailboxCommandsComplete : Obligations.MailboxCommandsComplete := by
  intro s
  refine ⟨?page, ?mcMask, ?seqMask, ?seqTake, ?mcTake, ?mcSend⟩
  case page =>
    intro h key e i hqp hdue hfresh henabled hkey hbound
    have hw : PageWritten s h key e i := ⟨hqp, hdue, hfresh, henabled, hkey, hbound⟩
    have hheard := packetHeard_kept s i h
    refine ⟨fun j bytes hlen hsecure htype => ?_, mbxConsWrite_leads hw, mbxDbClearWrite_leads hw, mbxDbMaskWrite_host_leads hw⟩
    intro k
    have hsecure' : j.val = 1 → (packetHeard s i h).epSecure e = true := fun hj => by
      rw [State.epSecure, hheard.reg (by decide)]
      exact hsecure hj
    have hrun := execMbxPortWrite_port hw j bytes
    have hchan : (packetHeard s i h).chan k = s.chan k := hheard.chan k
    refine ⟨fun hroom => ?_, fun hfull => ?_⟩
    · obtain ⟨hplaced, hrung, hpsn⟩ := portWrite_placed h.psn.toNat hlen hsecure' htype (i := i) (hchan ▸ hroom)
      rw [hchan] at hplaced
      exact ⟨_, hrun, hplaced, hrung, hpsn.trans (by rw [hheard.qp])⟩
    · obtain ⟨hsame, hcount, hended⟩ := portWrite_full h.psn.toNat hlen hsecure' htype hw.ready (hchan ▸ hfull)
      exact ⟨_, hrun, hsame.trans hchan, hcount.trans (by rw [hheard.reg (by decide)]), hended⟩
  case mcMask =>
    intro q v hq
    obtain ⟨t, hrun, hreg, hans⟩ := maskWrite_leads epMc v hq size_mbxMcDbMask (by decide)
    exact ⟨t, congrArg Host.Outcome.next hrun, hreg, hans⟩
  case seqMask =>
    intro q cl v hq
    obtain ⟨t, hrun, hreg, hans⟩ := maskWrite_leads (epSeq cl) v hq (size_mbxSqDbMask cl)
      (by unfold Obj.mbxSqDbMask Obj.mgtRequests ob; omega)
    refine ⟨t, congrArg Host.Outcome.next hrun, ?_, hans⟩
    have hcl := cl.isLt
    have hmc : epSeq cl ≠ epMc := by unfold epSeq epMc; omega
    have hseq : epSeq cl < 0x40 := by unfold epSeq; omega
    rw [State.dbMask, if_neg hmc, if_pos hseq, epSeq, Nat.add_sub_cancel_left]
    exact hreg
  case seqTake =>
    intro cl hrun hnote hstop
    exact ⟨_, execSequencerMailboxTake_notified hrun hnote hstop, takeAll_takes (seqTakes_chansKept cl) seqChans_nodup s⟩
  case mcTake =>
    intro hrun hnote hwarm
    exact ⟨_, execMcMailboxService_notified hrun hnote hwarm, takeAll_takes (fun _ => .refl) mcChans_nodup s⟩
  case mcSend =>
    intro hrun hwarm dest secure msg
    refine ⟨fun hseq hroom => ?_, fun hseq hfull => ?_, fun hhost hexists henabled hready hroom => ?_⟩
    · have hplace : mcToSeq s dest.val (leBytes 64 msg.toNat) = place s epMc (epSeq dest) false (leBytes 64 msg.toNat) :=
        if_neg (by rw [hroom]; decide)
      refine ⟨_, (execMcMailboxSend_seq secure msg hrun hwarm hseq).trans (congrArg _ hplace), ?_, place_rings ..⟩
      exact congrArg Chan.msgs (place_chan ..)
    · have hcount : mcToSeq s dest.val (leBytes 64 msg.toNat) = fullWrite s (epSeq dest) := if_pos hfull
      exact ⟨_, (execMcMailboxSend_seq secure msg hrun hwarm hseq).trans (congrArg _ hcount), fullWrite_count ..,
        epUnit_seq ⟨dest.val, hseq⟩ ▸ fullWrite_reports s (epSeq dest)⟩
    · have hsend : mcToHost s (dest.val - 16) secure (leBytes 64 msg.toNat) =
          sendHost s (dest.val - 16) epMc secure (leBytes 64 msg.toNat) := by
        rw [mcToHost, if_neg (by simp [hexists, henabled, hready]), if_neg (by rw [hroom]; decide)]
      exact ⟨_, (execMcMailboxSend_host secure msg hrun hwarm hhost).trans (congrArg _ hsend), sendHost_sends epMc secure _ hready⟩

/-! ### The lengths of a step (R368) -/

/-- Everything but the network is as it was. -/
def BesideNet (s t : State) : Prop := ∃ n, t = s.withNet n
theorem BesideNet.trans {s t u : State} (h : BesideNet s t) (h2 : BesideNet t u) : BesideNet s u := by
  obtain ⟨n, rfl⟩ := h
  obtain ⟨m, rfl⟩ := h2
  exact ⟨m, rfl⟩

/-- Channels that hold nothing are emptied at once. -/
theorem takeChans_empty {receiver : Nat} {f : List Byte → State → State} {chans : List (Nat × Bool)} (hf : ∀ m s, ChansKept s (f m s))
    (hnodup : chans.Nodup) (a : Nat × State) (hempty : ∀ c ∈ chans, (a.2.chan (chanKey c.1 receiver c.2)).msgs = []) :
    BesideNet a.2 (takeChans receiver f chans a).2 := by
  induction chans generalizing a with
  | nil => exact ⟨a.2.net, rfl⟩
  | cons d ds ih =>
    obtain ⟨hd, hds⟩ := List.nodup_cons.1 hnodup
    obtain ⟨_, hother, _⟩ := takeChan_takes hf a.2 d.1 d.2 a.1 (receiver := receiver)
    have hnone : takable (a.2.dbMask receiver) (a.2.chan (chanKey d.1 receiver d.2)) = [] := by
      rw [takable, hempty d List.mem_cons_self, List.takeWhile_nil]
    have hfirst : BesideNet a.2 (takeChan a.2 receiver d.1 d.2 a.1 f).2 := by
      unfold takeChan
      dsimp only
      rw [hnone]
      exact ⟨_, rfl⟩
    refine hfirst.trans (ih hds (takeChan a.2 receiver d.1 d.2 a.1 f) fun c hc => ?_)
    have hcd : c ≠ d := fun he => hd (he ▸ hc)
    rw [hother _ fun he => hcd (chanKey_inj he)]
    exact hempty c (List.mem_cons_of_mem d hc)

/-- A channel that holds one message, unmasked, gives it to its receiver. -/
theorem takeChan_single {s : State} {receiver sender : Nat} {secure : Bool} (served : Nat) (f : List Byte → State → State) {m : List Byte}
    (hmsg : (s.chan (chanKey sender receiver secure)).msgs = [m]) (hopen : bitOf (s.dbMask receiver) (msgDbell m) = false) :
    ∃ n, (takeChan s receiver sender secure served f).2 = f m (s.withNet n) := by
  have htake : takable (s.dbMask receiver) (s.chan (chanKey sender receiver secure)) = [m] := by
    rw [takable, hmsg, List.takeWhile_cons_of_pos (by rw [hopen]; rfl), List.takeWhile_nil]
  unfold takeChan
  dsimp only
  rw [htake]
  exact ⟨_, rfl⟩

/-- A message that stands alone among a receiver's channels is all that the receiver takes. -/
theorem takeAll_single {s : State} {receiver : Nat} {f : List Byte → State → State} {chans : List (Nat × Bool)} {c : Nat × Bool}
    {m : List Byte} (hf : ∀ m s, ChansKept s (f m s)) (hnodup : chans.Nodup) (hc : c ∈ chans)
    (hmsg : (s.chan (chanKey c.1 receiver c.2)).msgs = [m]) (hopen : bitOf (s.dbMask receiver) (msgDbell m) = false)
    (hempty : ∀ d ∈ chans, d ≠ c → (s.chan (chanKey d.1 receiver d.2)).msgs = []) :
    ∃ n u v, BesideNet (f m (s.withNet n)) u ∧ takeAll s receiver chans f = u.setPending receiver v := by
  obtain ⟨before, after, rfl⟩ := List.append_of_mem hc
  obtain ⟨hbefore, hrest, hapart⟩ := List.nodup_append.1 hnodup
  obtain ⟨hafter, hnodupAfter⟩ := List.nodup_cons.1 hrest
  have hnotBefore : c ∉ before := fun h => hapart c h c List.mem_cons_self rfl
  -- the channels before hold nothing, and leave the message where it is
  obtain ⟨_, hkept, hmask⟩ := takeChans_takes hf hbefore (0, s) (receiver := receiver)
  have hquiet : BesideNet s (takeChans receiver f before (0, s)).2 := takeChans_empty hf hbefore (0, s) fun d hd =>
    hempty d (List.mem_append_left _ hd) fun he => hnotBefore (he ▸ hd)
  generalize hb : takeChans receiver f before (0, s) = b at hkept hmask hquiet
  obtain ⟨n0, hbn⟩ := hquiet
  obtain ⟨n, htaken⟩ := takeChan_single b.1 f ((congrArg Chan.msgs (hkept c hnotBefore)).trans hmsg) (by rw [hmask]; exact hopen)
  obtain ⟨_, hother, _⟩ := takeChan_takes hf b.2 c.1 c.2 b.1 (receiver := receiver)
  -- and the channels after hold nothing either
  have hlast : BesideNet (takeChan b.2 receiver c.1 c.2 b.1 f).2 (takeChans receiver f after (takeChan b.2 receiver c.1 c.2 b.1 f)).2 := by
    refine takeChans_empty hf hnodupAfter _ fun d hd => ?_
    have hdc : d ≠ c := fun he => hafter (he ▸ hd)
    have hdBefore : d ∉ before := fun h => hapart d h d (List.mem_cons_of_mem c hd) rfl
    rw [hother _ fun he => hdc (chanKey_inj he), hkept d hdBefore]
    exact hempty d (List.mem_append_right _ (List.mem_cons_of_mem c hd)) hdc
  have hfold : takeChans receiver f (before ++ c :: after) (0, s) = takeChans receiver f after (takeChan b.2 receiver c.1 c.2 b.1 f) := by
    rw [takeChans, List.foldl_append, List.foldl_cons]
    exact congrArg (fun b => takeChans receiver f after (takeChan b.2 receiver c.1 c.2 b.1 f)) hb
  have hnet : f m (b.2.withNet n) = f m (s.withNet n) := by rw [hbn]; rfl
  have hlast' := htaken.trans hnet ▸ hlast
  exact ⟨n, _, _, hlast', by rw [takeAll_eq, hfold]⟩

theorem setPending_clusters (s : State) (ep v : Nat) : (s.setPending ep v).clusters = s.clusters :=
  (State_setPending_moves s ep v (.refl _ _) (.refl _)).same .clusters (by decide)
theorem setPending_log (s : State) (ep v : Nat) : (s.setPending ep v).log = s.log :=
  (State_setPending_moves s ep v (.refl _ _) (.refl _)).same .log (by decide)

theorem lengthsOk_withNet (s : State) (n : NetState) (cl w : Nat) : lengthsOk (s.withNet n) cl w = lengthsOk s cl w := rfl
/-- A run of lengths taken: those from `first` on are the message's, the others stay. -/
theorem smGet_lengths (d : Nat → Nat) (ls : SMap Nat) (first count : Nat) (v : Nat → Nat) :
    (∀ k, k < count → smGet d (smSetMany d ls ((List.range count).map fun k => (first + k, v k))) (first + k) = v k) ∧
    ∀ k, k < first ∨ first + count ≤ k → smGet d (smSetMany d ls ((List.range count).map fun k => (first + k, v k))) k = smGet d ls k := by
  refine ⟨fun k hk => smGet_setMany_of_mem d ls ?_ (List.mem_map.2 ⟨k, List.mem_range.2 hk, rfl⟩), fun k hk => ?_⟩
  · exact List.pairwise_map.2 (List.nodup_range.imp fun h he => h (Nat.add_left_cancel he))
  · refine smGet_setMany_of_not_mem d ls fun p hp => ?_
    obtain ⟨j, hj, rfl⟩ := List.mem_map.1 hp
    have := List.mem_range.1 hj
    dsimp only
    omega
theorem takeLengths_ok {s : State} {cl : Nat} {m : List Byte} (hok : lengthsOk s cl (leNat m) = true) :
    (∀ k, k < fld (leNat m) 0x12 1 →
      ((takeLengths s cl m).cluster cl).length (fld (leNat m) 0x10 2 + k) = fld (leNat m) (0x14 + 4 * k) 4) ∧
    ∀ k, k < fld (leNat m) 0x10 2 ∨ fld (leNat m) 0x10 2 + fld (leNat m) 0x12 1 ≤ k →
      ((takeLengths s cl m).cluster cl).length k = (s.cluster cl).length k := by
  have ht : takeLengths s cl m = s.modCluster cl _ := if_pos hok
  rw [ht, modCluster_cluster, if_pos rfl]
  exact smGet_lengths noLength (s.cluster cl).lengths _ _ _
theorem takeLengths_bad {s : State} {cl : Nat} {m : List Byte} (hbad : lengthsOk s cl (leNat m) = false) :
    (takeLengths s cl m).clusters = s.clusters ∧
    (takeLengths s cl m).reg Obj.mbxBadLengths = min (s.reg Obj.mbxBadLengths + 1) (2 ^ 32 - 1) ∧
    Reports s (takeLengths s cl m) 0xAA03 .note (uCluster cl) := by
  have ht : takeLengths s cl m = raise (s.bump Obj.mbxBadLengths 1) 0xAA03 .note (uCluster cl) := if_neg (by rw [hbad]; decide)
  rw [ht]
  refine ⟨raise_clusters .., ?_, (raise_reports _ _ _ _ _).of_same rfl rfl⟩
  rw [raise_reg _ _ _ _ _ _ (by decide), bump_u32 _ size_mbxBadLengths]

/-- Settles O34: the message is the only one that the sequencer takes. -/
theorem lengthsMessageTaken : Obligations.LengthsMessageTaken := by
  intro s cl e m hrun hstop hnote hopen hmsg htype hempty
  have hc : (epHost e, false) ∈ seqChans := List.mem_cons_of_mem _ (List.mem_map.2 ⟨e.val, List.mem_range.2 e.isLt, rfl⟩)
  have hothers : ∀ d ∈ seqChans, d ≠ (epHost e, false) → (s.chan (chanKey d.1 (epSeq cl) d.2)).msgs = [] := by
    have hplain : ∀ d ∈ seqChans, d.2 = false := by decide
    exact fun d hd hne => hempty d hd fun h => hne (Prod.ext h (hplain d hd))
  obtain ⟨n, u, v, ⟨n', hu⟩, htake⟩ := takeAll_single (seqTakes_chansKept cl) seqChans_nodup hc hmsg hopen hothers
  have hlengths : seqTakes cl m (s.withNet n) = takeLengths (s.withNet n) cl m := if_pos htype
  rw [hlengths] at hu
  have hlead := execSequencerMailboxTake_notified hrun hnote hstop
  rw [htake, hu] at hlead
  have hclusters := setPending_clusters ((takeLengths (s.withNet n) cl m).withNet n') (epSeq cl) v
  refine ⟨fun hok => ?_, fun hbad => ?_⟩
  · obtain ⟨hset, hkept⟩ := takeLengths_ok ((lengthsOk_withNet s n cl (leNat m)).trans hok)
    refine ⟨_, hlead, ?_⟩
    have hcluster : (((takeLengths (s.withNet n) cl m).withNet n').setPending (epSeq cl) v).cluster cl =
        (takeLengths (s.withNet n) cl m).cluster cl := congrArg (smGet dCluster · cl.val) hclusters
    beta_reduce
    rw [hcluster]
    exact ⟨hset, hkept⟩
  · obtain ⟨hsame, hcount, hreport⟩ := takeLengths_bad ((lengthsOk_withNet s n cl (leNat m)).trans hbad)
    refine ⟨_, hlead, hclusters.trans hsame, ?_, ?_⟩
    · rw [setPending_reg _ _ _ (by decide) (by decide)]
      exact hcount
    · exact (hreport.of_same rfl rfl).then (setPending_log ..)

end Sys2Proof.Machine
end

section
/-! The step and the form of the state (R424, R428, R431, R460): a command answers a next state that it moved to within its footprint, and
every move keeps the form of the state and what was sent. -/

namespace Sys2Proof.Machine

/-- No command has the queue in its footprint. -/
theorem pending_not_mem_footprint (c : Instr) : Comp.pending ∉ footprint c := by
  cases c <;> simp [footprint, raises, asks, tiers, issues, objs, mem_allBut]

/-- Settles O55: the command's move has the queue outside its footprint, and a move takes back nothing sent. -/
theorem everyCommandAnswers : Obligations.EveryCommandAnswers := by
  intro c s
  obtain ⟨t, hexec, hmoves⟩ := exec_runs c s
  exact ⟨t, hexec, hmoves.frame (pending_not_mem_footprint c), hmoves.sent⟩

/-- Settles O53: both clauses are the definition of a step, by cases of the queue. -/
theorem stepTakesTheFront : Obligations.StepTakesTheFront :=
  ⟨fun _ _ => rfl, fun s h => by unfold step; rw [h]⟩

/-- A step runs the front of the queue on the state with the queue's rest, or leaves the state of an empty queue. -/
theorem step_cases (s : State) : step s = .next s ∨ ∃ c cs, s.pending = c :: cs ∧ step s = exec c (s.withPending cs) := by
  unfold step
  cases h : s.pending with
  | nil => exact .inl rfl
  | cons c cs => exact .inr ⟨c, cs, rfl, rfl⟩

/-- Settles O56: a step is idle or runs one command, whose move keeps the form. -/
theorem stateFormKept : Obligations.StateFormKept := by
  intro s t hwf hstep
  rcases step_cases s with hidle | ⟨c, cs, -, hrun⟩
  · exact Host.Outcome.next.inj (hidle.symm.trans hstep) ▸ hwf
  · obtain ⟨u, hexec, hmoves⟩ := exec_runs c (s.withPending cs)
    obtain rfl : t = u := Host.Outcome.next.inj (hstep.symm.trans (hrun.trans hexec))
    exact hmoves.wf hwf

/-- Settles O54: every map of the reset state is empty and its log numbers from 1. -/
theorem resetInForm : Obligations.ResetInForm :=
  ⟨by decide, rfl, rfl, rfl, by decide, fun _ => rfl⟩

end Sys2Proof.Machine
end

section
/-! Requests that lead to what their handlers make, the records that later events leave in the ring, and objects of a unit. -/

namespace Sys2Proof.Machine

/-! ### Requests -/

/-- A taken write leads to what its handler makes of the state. -/
theorem leads_write {c : Instr} {s : State} {q : Req} {obj : Nat} {f : State → Ans} {P : State → Prop}
    (hexec : exec c s = .next (dictWrite s q obj f)) (hq : s.takesWrite q obj = true) (hP : P (answered s.beat q 2 obj (f s))) :
    Leads c s P := ⟨_, hexec, dictWrite_takes f hq ▸ hP⟩
/-- A taken action leads to what its handler makes of the state. -/
theorem leads_action {c : Instr} {s : State} {q : Req} {obj : Nat} {f : State → Ans} {P : State → Prop}
    (hexec : exec c s = .next (dictAction s q obj 1 f)) (hq : s.takesWrite q obj = true) (hP : P (answered s.beat q 2 obj (f s))) :
    Leads c s P := ⟨_, hexec, dictAction_takes f hq ▸ hP⟩
/-- The answer to a request whose handler is known. -/
theorem answered_of {a : Ans} {status : Nat} {u : State} (h : a = ⟨status, u, []⟩) (b : Nat) (q : Req) (op obj : Nat) :
    Answers (answered b q op obj a) q op obj status := by
  subst h; exact answered_answers ..

/-! ### Records that later events leave in the ring (R431) -/

/-- In the same beat, at most `n` events more were recorded: the newest records are still in the ring, at most `n` places further on, and
the log takes records as before; where it takes them, none is held back (R446). -/
structure KeepsRecords (n : Nat) (t u : State) : Prop where
  records : ∀ m, m + n ≤ 65536 → ∀ e ∈ t.log.ring.take m, e ∈ u.log.ring.take (m + n)
  ready : u.log.ready = t.log.ready
  holding : u.log.holding = t.log.holding
  held : t.log.holding = false → u.log.held = t.log.held
  counter : u.counter = t.counter

theorem logRecord_held (s : State) (e : Event) : (logRecord s e).log.held = s.log.held ∧ (logRecord s e).log.holding = s.log.holding := by
  unfold logRecord
  dsimp only
  split <;> exact ⟨rfl, rfl⟩

namespace KeepsRecords
variable {s t u v : State} {a b : Nat}

theorem of_same (hlog : u.log = t.log) (hcounter : u.counter = t.counter) : KeepsRecords 0 t u :=
  ⟨fun _ _ _ he => hlog ▸ he, hlog ▸ rfl, hlog ▸ rfl, fun _ => hlog ▸ rfl, hcounter⟩
theorem refl (t : State) : KeepsRecords 0 t t := of_same rfl rfl
/-- What changes neither the log nor the counter records nothing. -/
theorem of_moves {A : Nat} (h : Moves A t u) (hlog : A.testBit 15 = false) (hcounter : A.testBit 3 = false) : KeepsRecords 0 t u :=
  of_same (h.same .log hlog) (h.same .counter hcounter)
theorem mono (h : KeepsRecords a t u) (hab : a ≤ b) : KeepsRecords b t u :=
  ⟨fun m hm e he => List.take_subset_take_left _ (by omega) (h.records m (by omega) e he), h.ready, h.holding, h.held, h.counter⟩
theorem trans (h : KeepsRecords a t u) (h' : KeepsRecords b u v) : KeepsRecords (a + b) t v := by
  refine ⟨fun m hm e he => ?_, h'.ready.trans h.ready, h'.holding.trans h.holding,
    fun hfree => (h'.held (h.holding.trans hfree)).trans (h.held hfree), h'.counter.trans h.counter⟩
  have hu := h.records m (by omega) e he
  simpa [Nat.add_assoc] using h'.records (m + a) (by omega) e hu
/-- One more event. -/
theorem raise (s : State) (code : Nat) (sev : Sev) (unit pos : Nat) : KeepsRecords 1 s (raise s code sev unit pos) := by
  obtain ⟨hready, hholding⟩ := raise_takes_records s code sev unit pos
  refine ⟨fun m hm e he => ?_, hready, hholding, fun hfree => ?_, raise_counter ..⟩
  rotate_left
  · unfold Machine.raise
    dsimp only
    rw [sevEffect_log, hfree]
    split
    · exact congrArg LogState.held (sevEffect_log s sev unit)
    · exact (logRecord_held _ _).1.trans (congrArg LogState.held (sevEffect_log s sev unit))
  have hlog : (sevEffect s sev unit).log.ring = s.log.ring := congrArg LogState.ring (sevEffect_log s sev unit)
  have hkeep : e ∈ (sevEffect s sev unit).log.ring.take (m + 1) := hlog ▸ List.take_subset_take_left _ (by omega) he
  unfold Machine.raise
  extract_lets t x
  split
  · exact hkeep
  · split
    · split <;> exact hkeep
    · rw [logRecord_ring, List.take_take, Nat.min_eq_left (by omega), List.take_succ_cons, hlog]
      exact List.mem_cons_of_mem _ he
/-- Either of two operations. -/
theorem ite {c : Prop} [Decidable c] (h : c → KeepsRecords a s t) (h' : ¬c → KeepsRecords a s u) : KeepsRecords a s (if c then t else u) := by
  split
  next hc => exact h hc
  next hc => exact h' hc
/-- Events over a sequence of operations, at most `a` by each. -/
theorem forAll {α : Type} (xs : List α) (f : α → State → State) (hf : ∀ x t, KeepsRecords a t (f x t)) (s : State) :
    KeepsRecords (a * xs.length) s (forAll xs f s) := by
  induction xs generalizing s with
  | nil => exact .refl s
  | cons x xs ih =>
    have h := (hf x s).trans (ih (f x s))
    rw [List.length_cons, Nat.mul_succ, Nat.add_comm]
    exact h

/-- An event raised after at most any number of others is in the log after at most 65,535 more. -/
theorem reports {code unit pos : Nat} {sev : Sev} (h : KeepsRecords b s t) (h' : KeepsRecords a (Machine.raise t code sev unit pos) u)
    (ha : a < 65536) : Reports s u code sev unit := by
  intro hready hholding
  have hbeat : t.beat = s.beat := by unfold State.beat; rw [h.counter]
  have hhead : ∃ e ∈ (Machine.raise t code sev unit pos).log.ring.take 1, e.code = code ∧ e.sev = sev ∧ e.unit = unit ∧ e.beat = s.beat := by
    unfold Machine.raise
    simp only [sevEffect_log, h.ready, h.holding, hready, hholding, Bool.not_true, Bool.false_eq_true, if_false, logRecord_ring]
    exact ⟨_, List.mem_cons_self, rfl, rfl, rfl, (sevEffect_beat t sev unit).trans hbeat⟩
  obtain ⟨e, he, hrec⟩ := hhead
  exact ⟨e, List.mem_of_mem_take (h'.records 1 (by omega) e he), hrec⟩

end KeepsRecords

/-! ### Objects written, and objects of a unit -/

theorem setReg_reg_of_ne (s : State) (k v : Nat) {j : Nat} (h : j ≠ k) : (s.setReg k v).reg j = s.reg j := (setReg_reg ..).trans (if_neg h)
theorem setReg_reg_self (s : State) (k v : Nat) : (s.setReg k v).reg k = v % 256 ^ objSize (objPart k) := (setReg_reg ..).trans (if_pos rfl)
theorem setReg_reg_fits (s : State) {k v : Nat} (h : v < 256 ^ objSize (objPart k)) : (s.setReg k v).reg k = v :=
  (setReg_reg_self ..).trans (Nat.mod_eq_of_lt h)
theorem bump_reg_of_ne (s : State) (k n : Nat) {j : Nat} (h : j ≠ k) : (s.bump k n).reg j = s.reg j := (bump_reg ..).trans (if_neg h)

theorem ofUnit_inj {a b u v : Nat} (ha : a < 2 ^ 24) (hb : b < 2 ^ 24) : ofUnit a u = ofUnit b v ↔ a = b ∧ u = v := by
  unfold ofUnit; omega
theorem objPart_ofUnit {a : Nat} (u : Nat) (ha : a < 2 ^ 24) : objPart (ofUnit a u) = a := by
  unfold objPart ofUnit; omega

end Sys2Proof.Machine
end

section
/-! Checkpoints fall due, their drain, and the header of an image (R379–R387). -/

namespace Sys2Proof.Machine

/-! ### When a checkpoint falls due (R381) -/

/-- Settles O28: each command sets its part of the checkpoint's state. -/
theorem checkpointDueCompletes : Obligations.CheckpointDueCompletes := by
  intro s
  refine ⟨fun hrun hstop hwarm hmode hdue => ?_, fun q hq => ?_, fun q hq => ?_, fun q hq => ?_⟩
  · have hexec : execCkptIntervalExpired s = .next (s.withCkpt { s.ckpt with due := true }) :=
      if_neg (by simp [hrun, hstop, hwarm, hmode, hdue])
    exact ⟨_, hexec, rfl, fun _ => rfl⟩
  · exact leads_action (f := ckptRequestWrite) rfl hq ⟨rfl, answered_answers ..⟩
  · exact leads_action (f := resFailNoticeWrite) rfl hq ⟨rfl, answered_answers ..⟩
  · refine leads_action (f := resMtbfResetWrite) rfl hq ⟨rfl, ?_, answered_answers ..⟩
    have hprior : (answered s.beat q 2 Obj.resMtbfReset (resMtbfResetWrite s)).reg Obj.resMtbfPrior = s.reg Obj.resMtbfPrior :=
      answered_reg _ _ _ _ _ (by decide)
    have hnow : (answered s.beat q 2 Obj.resMtbfReset (resMtbfResetWrite s)).beat = s.beat := rfl
    unfold mtbf
    rw [hprior, hnow]
    simp [answered, resMtbfResetWrite, Ans.ok, State.emit]

/-! ### The drain (R385–R387) -/

/-- A target's two bits of `CKPT.DRAIN_STATE` after they are set. -/
theorem setDrain_drainOf (s : State) {t v : Nat} (ht : t < 3) (hv : v < 4) : (setDrain s t v).drainOf t = v := by
  unfold setDrain State.drainOf
  rw [setReg_reg, if_pos rfl]
  change bitsOf ((s.reg Obj.ckptDrainState - bitsOf (s.reg Obj.ckptDrainState) (2 * t) 2 * 4 ^ t + v * 4 ^ t) % 256) (2 * t) 2 = v
  simp only [bitsOf, Nat.shiftRight_eq_div_pow]
  interval_cases t <;> omega
/-- The end of the drain changes `CKPT.STATE` alone. -/
theorem drainEnd_cases (s : State) : drainEnd s = s ∨ drainEnd s = s.setReg Obj.ckptState 0 := by
  unfold drainEnd
  split
  · exact .inr rfl
  · exact .inl rfl
theorem drainEnd_reg (s : State) {k : Nat} (hk : k ≠ Obj.ckptState) : (drainEnd s).reg k = s.reg k := by
  rcases drainEnd_cases s with h | h
  · rw [h]
  · rw [h, setReg_reg, if_neg hk]
theorem drainEnd_drainOf (s : State) (t : Nat) : (drainEnd s).drainOf t = s.drainOf t := by
  unfold State.drainOf; rw [drainEnd_reg s (by decide)]
theorem drainEnd_mem (s : State) : (drainEnd s).mem = s.mem := by
  rcases drainEnd_cases s with h | h
  · rw [h]
  · rw [h]; rfl
theorem drainEnd_log (s : State) : (drainEnd s).log = s.log := by
  rcases drainEnd_cases s with h | h
  · rw [h]
  · rw [h]; rfl
/-- Securing a generation leaves the targets' states and memory. -/
theorem secure_drainOf (s : State) (t : Nat) : (secure s).drainOf t = s.drainOf t := by
  unfold secure State.drainOf
  split
  · rfl
  · rw [raise_reg _ _ _ _ _ _ (by decide), setReg_reg, if_neg (by decide)]
theorem secure_mem (s : State) : (secure s).mem = s.mem := by
  unfold secure
  split
  · rfl
  · rw [raise_mem]; rfl
/-- A failed target, reported (R387). -/
theorem drainFail_running {s : State} {t : Nat} (h : s.drainOf t = 1) :
    drainFail s t = drainEnd (raise (setDrain s t 3) 0x8A04 .note uDevice t) := if_neg (not_not.mpr h)

/-- What a target that is done leaves, before the generation is secured. -/
def targetDone (s : State) (t : Fin 3) : State := setDrain (if t.val = 0 then drainT3 s else s) t 2
/-- A target that is done: its state, and the drain's end. -/
theorem execCkptDrainTargetDone_full {s : State} {t : Fin 3} (hstop : s.stopped = false) (hrun : s.running = true) (hdrain : s.drainOf t = 1)
    (hfull : targetFull s t = true) :
    execCkptDrainTargetDone t s = .next (drainEnd (if t.val = 2 ∨ (t.val = 1 ∧ (targetDone s t).reg Obj.ckptConflict = 0) then
      secure (targetDone s t) else targetDone s t)) :=
  if_neg (by simp [hstop, hrun, hdrain, hfull])
/-- The image's copy in T3 is the image in T1, where the two do not overlap. -/
theorem drainT3_copies {s : State} (hwf : Memory.wf s.mem = true) {len a b : Nat} (hlen : s.ckpt.bytes = len) (ha : s.reg Obj.ckptT1Base = a)
    (hb : s.reg Obj.ckptT3Base + slotOffset s s.ckpt.draining = b) :
    (∀ i, i < len → memByte (drainT3 s).mem (b + i) = memByte s.mem (a + i)) ∧
      ∀ x, x < b ∨ b + len ≤ x → memByte (drainT3 s).mem x = memByte s.mem x := by
  subst hlen ha hb
  have hcells : Canon memDefault s.mem.cells := by
    simp only [Memory.wf, Bool.and_eq_true] at hwf
    exact (canon_iff ..).mp hwf.1
  exact ⟨fun i hi => movePage_copies _ _ _ hcells hi, fun x hx => movePage_frame _ _ _ _ hx⟩

/-- Settles O31: a target's bits are set last but for the drain's end, and T3's copy is the move of the image's bytes. -/
theorem checkpointDrainCompletes : Obligations.CheckpointDrainCompletes := by
  intro s hstop
  refine ⟨fun t hrun hdrain hfull => ⟨_, execCkptDrainTargetDone_full hstop hrun hdrain hfull, ?_⟩,
    fun a b len hrun hdrain ha hb hlen _ hwf => ⟨_, execCkptDrainTargetDone_full hstop hrun hdrain rfl, ?_⟩, fun t hlimit hdrain => ?_⟩
  · have hdone : (targetDone s t).drainOf t = 2 := setDrain_drainOf _ t.isLt (by decide)
    dsimp only
    rw [drainEnd_drainOf]
    split
    · rw [secure_drainOf, hdone]
    · exact hdone
  · dsimp only
    rw [drainEnd_mem, if_neg (by simp)]
    exact drainT3_copies hwf hlen ha hb
  · have hexec : execCkptDrainTimeout t s = .next (drainFail s t) := if_neg (by simp [hstop, hlimit])
    refine ⟨_, hexec, ?_⟩
    rw [drainFail_running hdrain]
    refine ⟨?_, ((raise_reports (setDrain s t 3) 0x8A04 .note uDevice t).of_same rfl rfl).then (drainEnd_log _)⟩
    rw [drainEnd_drainOf]
    unfold State.drainOf
    rw [raise_reg _ _ _ _ _ _ (by decide)]
    exact setDrain_drainOf s t.isLt (by decide)

end Sys2Proof.Machine
end

section
/-! The end of a checkpoint stop: the header stands at the head of the T1 area (R379, R383, R385). -/

namespace Sys2Proof.Machine

/-! ### A number among stored bytes -/

theorem memRead_of_bytes {m : MemState} {a : Nat} {bs : List Byte} (h : ∀ k, k < bs.length → memByte m (a + k) = bs.getD k 0) :
    memRead m a bs.length = leNat bs := by
  induction bs generalizing a with
  | nil => rfl
  | cons b bs ih =>
    have hrest : ∀ k, k < bs.length → memByte m (a + 1 + k) = bs.getD k 0 := fun k hk => by
      have := h (k + 1) (by simpa using hk)
      simpa [Nat.add_assoc, Nat.add_comm 1 k] using this
    have hfirst : memByte m a = b := h 0 (by simp)
    rw [List.length_cons, memRead, leNat, hfirst, ih hrest]
/-- The `n` bytes of a number that stand behind `pre` in a text read back as that number. -/
theorem memRead_field {m : MemState} {a n v : Nat} {pre post : List Byte}
    (h : ∀ k, k < (pre ++ (leBytes n v ++ post)).length → memByte m (a + k) = (pre ++ (leBytes n v ++ post)).getD k 0) :
    memRead m (a + pre.length) n = v % 256 ^ n := by
  have hlen : (leBytes n v).length = n := leBytes_length ..
  have hpart : ∀ k, k < (leBytes n v).length → memByte m (a + pre.length + k) = (leBytes n v).getD k 0 := fun k hk => by
    rw [Nat.add_assoc, h (pre.length + k) (by simp only [List.length_append]; omega),
      List.getD_append_right _ _ _ _ (by omega), Nat.add_sub_cancel_left, List.getD_append _ _ _ _ hk]
  calc memRead m (a + pre.length) n = memRead m (a + pre.length) (leBytes n v).length := by rw [hlen]
    _ = leNat (leBytes n v) := memRead_of_bytes hpart
    _ = v % 256 ^ n := leNat_leBytes n v

/-! ### The header's fields -/

/-- The header's bytes before GENERATION. -/
def headerFront (s : State) : List Byte :=
  leBytes 4 ckptMagic ++ leBytes 2 1 ++ leBytes 2 s.ckpt.regions.length ++
    leBytes 4 ((s.routing.map fun t => snapRd t 0x14 4).getD 0) ++ leBytes 2 (s.reg Obj.rillRank) ++ leBytes 2 s.layerCount ++
    leBytes 8 (stepInForce s) ++ leBytes 16 (s.ckpt.dataPos.getD (s.reg Obj.stepDataPos)) ++ leBytes 16 (s.reg Obj.rngSeed)
/-- The header's bytes after BYTES. -/
def headerBack (s : State) : List Byte :=
  leBytes 8 (s.reg Obj.epochActive) ++ (allClusters.flatMap fun cl => leBytes 1 (s.role cl)) ++ leBytes 1 (s.reg Obj.resFeed) ++
    List.replicate 31 0

theorem headerFront_length (s : State) : (headerFront s).length = 0x38 := by
  simp only [headerFront, List.length_append, leBytes_length]
theorem headerFront_magic (s : State) : ∃ rest, headerFront s = leBytes 4 ckptMagic ++ rest := by
  simp only [headerFront, List.append_assoc]
  exact ⟨_, rfl⟩
theorem headerBytes_eq (s : State) (gen : Nat) :
    headerBytes s gen = headerFront s ++ (leBytes 8 gen ++ (leBytes 8 s.ckpt.bytes ++ headerBack s)) := by
  simp only [headerBytes, headerFront, headerBack, List.append_assoc]

theorem headerBytes_length (s : State) (gen : Nat) : (headerBytes s gen).length = 0x80 := by
  have hroles : (allClusters.flatMap fun cl => leBytes 1 (s.role cl)).length = 16 := by
    simp [List.length_flatMap, allClusters]
  simp only [headerBytes_eq, headerBack, List.length_append, headerFront_length, leBytes_length, List.length_replicate, hroles]
/-- What stands behind the first 128 bytes of a header: DIGEST, a reserved field and the signature. -/
def headerTail (s : State) (gen : Nat) (sig : List Byte) : List Byte :=
  imageDigest s.mem (s.reg Obj.ckptT1Base) s.ckpt.bytes (headerBytes s gen) ++ List.replicate 64 0 ++ sig
theorem headerTail_length (s : State) (gen : Nat) (sig : List Byte) : (headerTail s gen sig).length = 128 + sig.length := by
  simp only [headerTail, imageDigest, List.length_append, sha512_length, List.length_replicate]
theorem writeHeader_eq (s : State) (gen : Nat) (sig : List Byte) :
    writeHeader s gen sig = s.withMem (memWriteBytes s.mem (s.reg Obj.ckptT1Base) (headerBytes s gen ++ headerTail s gen sig)) := by
  simp only [writeHeader, headerTail, List.append_assoc]
theorem writeHeader_mem (s : State) (gen : Nat) (sig : List Byte) :
    (writeHeader s gen sig).mem = memWriteBytes s.mem (s.reg Obj.ckptT1Base) (headerBytes s gen ++ headerTail s gen sig) := by
  rw [writeHeader_eq, withMem_mem]

/-- MAGIC, GENERATION and BYTES stand at an address. -/
def HeadedAt (m : MemState) (a gen bytes : Nat) : Prop :=
  memRead m a 4 = ckptMagic ∧ memRead m (a + 0x38) 8 = gen % 2 ^ 64 ∧ memRead m (a + 0x40) 8 = bytes % 2 ^ 64

/-- Where the header's bytes stand, its fields read. -/
theorem headedAt_of_bytes {s : State} {m : MemState} {a gen : Nat} {back : List Byte}
    (h : ∀ k, k < (headerBytes s gen ++ back).length → memByte m (a + k) = (headerBytes s gen ++ back).getD k 0) :
    HeadedAt m a gen s.ckpt.bytes := by
  obtain ⟨rest, hmagic⟩ := headerFront_magic s
  refine ⟨?_, ?_, ?_⟩
  · rw [headerBytes_eq, hmagic] at h
    simp only [List.append_assoc] at h
    have hread := memRead_field (m := m) (a := a) (pre := []) (n := 4) (v := ckptMagic) (by simpa only [List.nil_append] using h)
    rwa [List.length_nil, Nat.add_zero, Nat.mod_eq_of_lt (by decide)] at hread
  · rw [headerBytes_eq, List.append_assoc, List.append_assoc] at h
    have hread : _ = _ % 2 ^ 64 := memRead_field h
    rwa [headerFront_length] at hread
  · rw [headerBytes_eq] at h
    have hpre : (headerFront s ++ leBytes 8 gen).length = 0x40 := by
      rw [List.length_append, headerFront_length, leBytes_length]
    have hread := memRead_field (m := m) (a := a) (n := 8) (pre := headerFront s ++ leBytes 8 gen) (v := s.ckpt.bytes)
      (by simpa only [List.append_assoc] using h)
    rwa [hpre] at hread

/-! ### What the end of a stop does to memory -/

/-- A stop's end with no flit held for it: what it does to the checkpoint's state. -/
theorem deliverHeld_of_none {s : State} (h : s.rill.held = []) : deliverHeld s = s := by
  unfold deliverHeld
  rw [h]
  change s.withRill { s.rill with held := [] } = s
  rw [← h]
  rfl
/-- The image has its header, and GENERATION its number (R383). -/
def imageHeaded (s : State) (sig : BitVec 1056) : State :=
  raise ((writeHeader s (s.reg Obj.ckptGen + 1) (leBytes 132 sig.toNat)).setReg Obj.ckptGen (s.reg Obj.ckptGen + 1)) 0x8A02 .note uMgt
/-- The stop's length and the image's bytes are recorded. -/
def stopCounted (s : State) (sig : BitVec 1056) : State :=
  ((imageHeaded s sig).setReg Obj.ckptLastStopUs (min (s.beat - s.ckpt.origin) (2 ^ 32 - 1))).setReg Obj.ckptLastBytes (imageHeaded s sig).ckpt.bytes
/-- A stop that took too long is reported. -/
def stopRecorded (s : State) (sig : BitVec 1056) : State :=
  if (stopCounted s sig).ckpt.bytes < (s.beat - s.ckpt.origin - 20000) * 1000000 then raise (stopCounted s sig) 0x8A0A .note uMgt
  else stopCounted s sig

theorem execCkptStopEnd_ends {s : State} (sig : BitVec 1056) (hrun : s.running = true) (hstop : s.stopped = false)
    (hstate : s.reg Obj.ckptState = 1) :
    execCkptStopEnd sig s = .next (startDrain (stopOver (stopRecorded s sig)) (s.reg Obj.ckptGen + 1)) := by
  unfold execCkptStopEnd stopRecorded
  rw [if_neg (by simp [hrun, hstop, hstate])]
  rfl

section
variable (s : State) (sig : BitVec 1056)

theorem stopCounted_mem : (stopCounted s sig).mem = (writeHeader s (s.reg Obj.ckptGen + 1) (leBytes 132 sig.toNat)).mem := by
  rw [stopCounted, setReg_mem, setReg_mem, imageHeaded, raise_mem, setReg_mem]
theorem stopCounted_rill : (stopCounted s sig).rill = s.rill := by
  rw [stopCounted, setReg_rill, setReg_rill, imageHeaded, raise_rill, setReg_rill, writeHeader_eq, withMem_rill]
/-- Recording the stop changes none of the addresses of the areas. -/
theorem stopCounted_reg {k : Nat} (hpage : page k ≠ 0x23) (hgen : k ≠ Obj.ckptGen) (hus : k ≠ Obj.ckptLastStopUs)
    (hbytes : k ≠ Obj.ckptLastBytes) : (stopCounted s sig).reg k = s.reg k := by
  rw [stopCounted, setReg_reg, if_neg hbytes, setReg_reg, if_neg hus, imageHeaded, raise_reg _ _ _ _ _ _ hpage, setReg_reg, if_neg hgen,
    writeHeader_eq, withMem_reg]

theorem stopRecorded_cases : stopRecorded s sig = raise (stopCounted s sig) 0x8A0A .note uMgt ∨ stopRecorded s sig = stopCounted s sig := by
  by_cases hlong : (stopCounted s sig).ckpt.bytes < (s.beat - s.ckpt.origin - 20000) * 1000000
  · exact .inl (if_pos hlong)
  · exact .inr (if_neg hlong)
theorem stopRecorded_mem : (stopRecorded s sig).mem = (stopCounted s sig).mem := by
  rcases stopRecorded_cases s sig with h | h
  · rw [h, raise_mem]
  · rw [h]
theorem stopRecorded_rill : (stopRecorded s sig).rill = (stopCounted s sig).rill := by
  rcases stopRecorded_cases s sig with h | h
  · rw [h, raise_rill]
  · rw [h]
theorem stopRecorded_reg {k : Nat} (hpage : page k ≠ 0x23) : (stopRecorded s sig).reg k = (stopCounted s sig).reg k := by
  rcases stopRecorded_cases s sig with h | h
  · rw [h, raise_reg _ _ _ _ _ _ hpage]
  · rw [h]

end

/-- With no flit held for it, the end of a stop leaves memory and the objects. -/
theorem stopOver_of_none {s : State} (h : s.rill.held = []) : (stopOver s).mem = s.mem ∧ ∀ k, (stopOver s).reg k = s.reg k := by
  have hnone := deliverHeld_of_none (s := (s.dropHold .checkpoint).withCkpt { s.ckpt with due := false, stopNext := false, lastEnd := s.beat }) h
  have heq : stopOver s = (s.dropHold .checkpoint).withCkpt { s.ckpt with due := false, stopNext := false, lastEnd := s.beat } := hnone
  rw [heq]
  exact ⟨rfl, fun _ => rfl⟩
/-- The bytes that a T3 slot without a header begins with (R385). -/
def noHeader : List Byte := List.replicate 0x200 0
theorem noHeader_length : noHeader.length = 0x200 := List.length_replicate
/-- A drain's generation is named. -/
def drainNamed (s : State) (gen : Nat) : State :=
  (s.setReg Obj.ckptDrainState 0).withCkpt { s.ckpt with draining := gen, heads := s.ckpt.heads.filter (· == 3) }
/-- The T3 slot of the generation has lost its header, where there is one. -/
def slotCleared (s : State) (gen : Nat) : State :=
  if (drainNamed s gen).reg Obj.ckptT3Base = 0 then drainNamed s gen else setDrain (dropHeader (drainNamed s gen) gen) 0 1
theorem startDrain_eq (s : State) (gen : Nat) :
    startDrain s gen = drainEnd ((startStore (startPartner (slotCleared s gen))).setReg Obj.ckptState 2) := rfl
/-- The drain's start clears the header in the T3 slot and leaves every other byte (R385). -/
theorem startDrain_byte (s : State) (gen : Nat) {x : Nat} (hx : s.reg Obj.ckptT3Base = 0 ∨ x < s.reg Obj.ckptT3Base + slotOffset s gen ∨
    s.reg Obj.ckptT3Base + slotOffset s gen + 0x200 ≤ x) : memByte (startDrain s gen).mem x = memByte s.mem x := by
  have hsent (u : State) : memByte (startStore (startPartner u)).mem x = memByte u.mem x :=
    (startStore_moves _ (startPartner_moves u (.refl _ u) (Sub.refl _)) (by decide)).same .cells (by decide) x
  rw [startDrain_eq, drainEnd_mem, setReg_mem, hsent]
  unfold slotCleared
  have hnamed {k : Nat} (hk : k ≠ Obj.ckptDrainState) : (drainNamed s gen).reg k = s.reg k :=
    (setReg_reg s Obj.ckptDrainState 0 k).trans (if_neg hk)
  have hbase : (drainNamed s gen).reg Obj.ckptT3Base = s.reg Obj.ckptT3Base := hnamed (by decide)
  have hslot : slotOffset (drainNamed s gen) gen = slotOffset s gen := congrArg (gen % 2 * ·) (hnamed (by decide))
  have hclear : (dropHeader (drainNamed s gen) gen).mem = memWriteBytes s.mem (s.reg Obj.ckptT3Base + slotOffset s gen) noHeader := by
    rw [dropHeader, withMem_mem, hbase, hslot, noHeader, show (drainNamed s gen).mem = s.mem from rfl]
  by_cases hnone : (drainNamed s gen).reg Obj.ckptT3Base = 0
  · rw [if_pos hnone]; rfl
  · have hcleared := (memWriteBytes_stored s.mem (s.reg Obj.ckptT3Base + slotOffset s gen) noHeader).2 x
      (by rw [noHeader_length]; exact hx.resolve_left (hbase ▸ hnone))
    rw [if_neg hnone, setDrain, setReg_mem, hclear, hcleared]

/-- Settles O30: the header's bytes are written at the head of T1, and what the drain's start clears lies elsewhere. -/
theorem checkpointHeaderWritten : Obligations.CheckpointHeaderWritten := by
  intro s sig hrun hstop hstate hheld _ slot hslot
  refine ⟨_, execCkptStopEnd_ends sig hrun hstop hstate, ?_⟩
  have hover := stopOver_of_none (s := stopRecorded s sig) (by rw [stopRecorded_rill, stopCounted_rill, hheld])
  have hrec {k : Nat} (h : page k ≠ 0x23 ∧ k ≠ Obj.ckptGen ∧ k ≠ Obj.ckptLastStopUs ∧ k ≠ Obj.ckptLastBytes) :
      (stopOver (stopRecorded s sig)).reg k = s.reg k :=
    by
    obtain ⟨hpage, hgen, hus, hbytes⟩ := h
    rw [hover.2, stopRecorded_reg s sig hpage, stopCounted_reg s sig hpage hgen hus hbytes]
  have hmem : (stopOver (stopRecorded s sig)).mem = (writeHeader s (s.reg Obj.ckptGen + 1) (leBytes 132 sig.toNat)).mem :=
    hover.1.trans ((stopRecorded_mem s sig).trans (stopCounted_mem s sig))
  refine headedAt_of_bytes (s := s) (back := headerTail s (s.reg Obj.ckptGen + 1) (leBytes 132 sig.toNat)) fun k hk => ?_
  have hlen : k < 0x200 := by
    rw [List.length_append, headerBytes_length, headerTail_length, leBytes_length] at hk
    omega
  rw [startDrain_byte _ _ ?_, hmem, writeHeader_mem]
  · exact (memWriteBytes_stored ..).1 k hk
  · unfold slotOffset
    rw [hrec (by decide), hrec (by decide)]
    change _ ∨ _ < slot ∨ slot + _ ≤ _
    omega

end Sys2Proof.Machine
end

section
/-! Restore and serve (R391–R394). -/

namespace Sys2Proof.Machine

/-! ### A restore starts (R391, R392) -/

section
variable {s : State} {g : Image}

theorem restoreStart_refused (h : restoreAllowed s = false) : restoreStart s g = Ans.refuse stState s := if_pos (by rw [h]; rfl)
theorem restoreReason_le (s : State) (g : Image) : restoreReason s g ≤ 6 := by
  unfold restoreReason
  extract_lets pos
  repeat' split
  all_goals decide
/-- The state after the failed check is named. -/
def restoreFailed (s : State) (g : Image) : State :=
  let s' := (s.setReg Obj.ckptRestoreState 3).setReg Obj.ckptRestoreReason (restoreReason s g)
  if restoreReason s g = 6 then raise s' 0x3F06 .stepAbort uMgt else s'
theorem restoreStart_fails (h : restoreAllowed s = true) (hr : restoreReason s g ≠ 0) :
    restoreStart s g = Ans.ok (raise (restoreFailed s g) 0x8A09 .note uMgt) := by
  unfold restoreStart
  rw [if_neg (by simp [h]), if_pos hr]
  rfl
/-- The failed check is named before the event that reports it. -/
theorem restoreFailed_names (s : State) (g : Image) : (restoreFailed s g).ckpt = s.ckpt ∧ (restoreFailed s g).counter = s.counter ∧
    (restoreFailed s g).log.ready = s.log.ready ∧ (restoreFailed s g).log.holding = s.log.holding ∧
    (restoreFailed s g).reg Obj.ckptRestoreState = 3 ∧ (restoreFailed s g).reg Obj.ckptRestoreReason = restoreReason s g := by
  have hreason : restoreReason s g % 256 ^ 1 = restoreReason s g := Nat.mod_eq_of_lt (Nat.lt_of_le_of_lt (restoreReason_le s g) (by decide))
  unfold restoreFailed
  extract_lets s'
  have hstate : s'.reg Obj.ckptRestoreState = 3 := by
    rw [setReg_reg_of_ne _ _ _ (by decide), setReg_reg_fits _ (by decide)]
  have hname : s'.reg Obj.ckptRestoreReason = restoreReason s g := by
    rw [setReg_reg_self]; exact hreason
  by_cases h6 : restoreReason s g = 6
  · rw [if_pos h6]
    obtain ⟨hready, hholding⟩ := raise_takes_records s' 0x3F06 .stepAbort uMgt noPos
    refine ⟨raise_ckpt .., raise_counter .., hready, hholding, ?_, ?_⟩
    · rw [raise_reg _ _ _ _ _ _ (by decide), hstate]
    · rw [raise_reg _ _ _ _ _ _ (by decide), hname]
  · rw [if_neg h6]
    exact ⟨rfl, rfl, rfl, rfl, hstate, hname⟩
/-- The ledger of a restore that starts. -/
def restoreLedger (s : State) (g : Image) : State :=
  ledgerPhase (s.withLedger { s.ledger with frozen := false, fatalDie := 7, streams := [], colls := [] }) 6 (g.fld s 0x10 8)
theorem restoreStart_starts (h : restoreAllowed s = true) (hr : restoreReason s g = 0) :
    restoreStart s g = Ans.ok ((((restoreLedger s g).setReg Obj.ckptRestoreState 1).setReg Obj.ckptRestoreReason 0).withCkpt
      { (restoreLedger s g).ckpt with restore := some g.at_ }) := by
  unfold restoreStart
  rw [if_neg (by simp [h])]
  extract_lets r
  rw [if_neg (by simp [r, hr])]
  rfl

end

/-- A write of `CKPT.RESTORE` for the image `g`, by its outcome. -/
theorem restoreStart_leads {c : Instr} {s : State} {q : Req} {g : Image} {f : State → Ans} (hf : f s = restoreStart s g)
    (hexec : exec c s = .next (dictWrite s q Obj.ckptRestore f)) (hq : s.takesWrite q Obj.ckptRestore = true) :
    (restoreAllowed s = true → restoreReason s g = 0 → Leads c s fun t => t.ckpt.restore = some g.at_ ∧ t.reg Obj.ckptRestoreState = 1 ∧
      t.reg Obj.ckptRestoreReason = 0 ∧ Answers t q 2 Obj.ckptRestore stOk) ∧
    (restoreAllowed s = true → restoreReason s g ≠ 0 → Leads c s fun t => t.ckpt.restore = none ∧ t.reg Obj.ckptRestoreState = 3 ∧
      t.reg Obj.ckptRestoreReason = restoreReason s g ∧ Reports s t 0x8A09 .note uMgt ∧ Answers t q 2 Obj.ckptRestore stOk) ∧
    (restoreAllowed s = false → Leads c s fun t => t.ckpt = s.ckpt ∧ t.reg Obj.ckptRestoreState = s.reg Obj.ckptRestoreState ∧
      Answers t q 2 Obj.ckptRestore stState) := by
  refine ⟨fun ha hr => leads_write hexec hq ?_, fun ha hr => leads_write hexec hq ?_, fun ha => leads_write hexec hq ?_⟩
  · rw [hf, restoreStart_starts ha hr]
    refine ⟨rfl, ?_, ?_, answered_answers ..⟩
    · rw [answered_reg _ _ _ _ _ (by decide)]
      have hstate : ((restoreLedger s g).setReg Obj.ckptRestoreState 1).reg Obj.ckptRestoreState = 1 := setReg_reg_fits _ (by decide)
      exact (setReg_reg_of_ne _ Obj.ckptRestoreReason 0 (by decide)).trans hstate
    · rw [answered_reg _ _ _ _ _ (by decide)]
      exact setReg_reg_fits ((restoreLedger s g).setReg Obj.ckptRestoreState 1) (k := Obj.ckptRestoreReason) (v := 0) (by decide)
  · rw [hf, restoreStart_fails ha hr]
    obtain ⟨hckpt, hcounter, hready, hholding, hstate, hname⟩ := restoreFailed_names s g
    have hnone : s.ckpt.restore = none := by
      simp only [restoreAllowed, Bool.and_eq_true, Option.isNone_iff_eq_none] at ha
      exact ha.2
    refine ⟨?_, ?_, ?_, ?_, answered_answers ..⟩
    · change (raise (restoreFailed s g) 0x8A09 .note uMgt).ckpt.restore = none
      rw [raise_ckpt, hckpt, hnone]
    · rw [answered_reg _ _ _ _ _ (by decide)]
      exact (raise_reg _ _ _ _ _ _ (by decide)).trans hstate
    · rw [answered_reg _ _ _ _ _ (by decide)]
      exact (raise_reg _ _ _ _ _ _ (by decide)).trans hname
    · exact ((raise_reports (restoreFailed s g) 0x8A09 .note uMgt noPos).of_earlier ⟨hready, hholding⟩ hcounter).then rfl
  · rw [hf, restoreStart_refused ha]
    exact ⟨rfl, answered_reg _ _ _ _ _ (by decide), answered_answers ..⟩

/-! ### A restore ends (R393) -/

/-- The header's values but the steps, the roles and the state of checkpoints. -/
def headerValues (s : State) (at_ : Nat) : State :=
  (((s.setReg Obj.stepBank 0).setReg Obj.rngSeed (memRead s.mem (at_ + 0x28) 16)).setReg Obj.stepRetries 0).setReg Obj.ckptGen
    (memRead s.mem (at_ + 0x38) 8)
theorem memRead_lt (m : MemState) (a n : Nat) : memRead m a n < 256 ^ n := by
  induction n generalizing a with
  | zero => exact Nat.one_pos
  | succ n ih =>
    have hbyte := (memByte m a).isLt
    have hrest := ih (a + 1)
    rw [memRead, Nat.pow_succ]
    omega
theorem headerValues_values (s : State) (at_ : Nat) : (headerValues s at_).reg Obj.stepBank = 0 ∧
    (headerValues s at_).reg Obj.rngSeed = memRead s.mem (at_ + 0x28) 16 ∧ (headerValues s at_).reg Obj.ckptGen = memRead s.mem (at_ + 0x38) 8 := by
  unfold headerValues
  refine ⟨?_, ?_, setReg_reg_fits _ (memRead_lt ..)⟩
  · rw [setReg_reg_of_ne _ _ _ (by decide), setReg_reg_of_ne _ _ _ (by decide), setReg_reg_of_ne _ _ _ (by decide),
      setReg_reg_fits _ (by decide)]
  · rw [setReg_reg_of_ne _ _ _ (by decide), setReg_reg_of_ne _ _ _ (by decide),
      setReg_reg_fits (k := Obj.rngSeed) _ (memRead_lt s.mem (at_ + 0x28) 16)]
/-- The steps and the epoch of the header put in place, and the restore ended. -/
def headerTaken (s : State) (at_ : Nat) : State :=
  let rd (off n : Nat) : Nat := memRead s.mem (at_ + off) n
  let s := forAll allClusters (fun cl s => s.setReg (Obj.schedClStep cl) (rd 0x10 8)) (headerValues s at_)
  let s := if (validEntries s).any fun i => bitOf (manFlags (s.manifest i)) 2 then
      (s.setReg Obj.epochBank 0).setReg Obj.epochActive (rd 0x48 8) else s
  s.withCkpt { s.ckpt with dataPos := some (rd 0x18 16), notices := s.ckpt.notices + 1, restore := none }
theorem headerTaken_moves (s : State) (at_ : Nat) :
    Moves (maskOf [.ckpt, .obj 0x41, .obj 0x44]) (headerValues s at_) (headerTaken s at_) := by
  refine withCkpt_moves _ (ite_moves (fun _ => ?_) fun _ => ?_) (by decide)
  · exact setReg_moves _ _ page_epochActive (setReg_moves _ _ page_epochBank
      (forAll_moves _ _ (.refl _ _) fun cl _ h => setReg_moves _ _ (page_schedClStep cl) h (by decide)) (by decide)) (by decide)
  · exact forAll_moves _ _ (.refl _ _) fun cl _ h => setReg_moves _ _ (page_schedClStep cl) h (by decide)
/-- The roles of the header are requested last. -/
theorem restoreHeader_eq (s : State) (at_ : Nat) : restoreHeader s at_ =
    forAll allClusters (fun cl u => requestRole u cl (min 2 (memRead s.mem (at_ + (0x50 + cl)) 1))) (headerTaken s at_) := rfl
theorem restoreHeader_of_taken (s : State) (at_ : Nat) :
    Moves (maskOf [.clusters, .obj 0x41]) (headerTaken s at_) (restoreHeader s at_) := by
  rw [restoreHeader_eq]
  exact forAll_moves _ _ (.refl _ _) fun _ _ h => requestRole_moves _ _ _ h (by decide)
/-- Objects outside the clusters' and the epoch's keep the header's values. -/
theorem restoreHeader_of_values (s : State) (at_ : Nat) :
    Moves (maskOf [.clusters, .ckpt, .obj 0x41, .obj 0x44]) (headerValues s at_) (restoreHeader s at_) :=
  ((headerTaken_moves s at_).mono (by decide)).trans (by decide) (restoreHeader_of_taken s at_)
theorem restoreHeader_restore (s : State) (at_ : Nat) : (restoreHeader s at_).ckpt.restore = none := by
  rw [(restoreHeader_of_taken s at_).same .ckpt rfl]; rfl

/-- The state that a finished restore leaves, before its event. -/
def restored (s : State) (at_ : Nat) : State :=
  restoreHeader (restoreRecord (restoreRegions s (at_ + regionsAt s.layerCount) (validEntries s)) (at_ + 65536)) at_
theorem execCkptRestoreDone_ends {s : State} {at_ : Nat} (hrun : s.running = true) (hstop : s.stopped = false)
    (h : s.ckpt.restore = some at_) :
    execCkptRestoreDone s = .next (raise ((restored s at_).setReg Obj.ckptRestoreState 2) 0x8A08 .note uMgt) := by
  unfold execCkptRestoreDone restored
  rw [h]
  dsimp only
  rw [if_neg (by simp [hrun, hstop])]
/-- The parts that a finished restore changes. -/
def restoreParts : List Comp :=
  [.cores, .clusters, .layers, .cells, .poison, .memory, .ckpt] ++ objs [0x31, 0x3C, 0x41, 0x44, 0x80, 0x81]
theorem restored_moves (s : State) (at_ : Nat) : Moves (maskOf restoreParts) s (restored s at_) :=
  restoreHeader_moves _ _ (restoreRecord_moves _ _ (restoreRegions_moves s _ _ (.refl _ s) (by decide)) (by decide)) (by decide)
theorem restored_bank (s : State) (at_ : Nat) : (restored s at_).reg Obj.stepBank = 0 :=
  ((restoreHeader_of_values ..).reg Obj.stepBank (by decide)).trans (headerValues_values ..).1
/-- Where the manifest names no region, memory is as before, and the header's values are in force. -/
theorem restored_values {s : State} (at_ : Nat) (hnone : validEntries s = []) :
    (restored s at_).reg Obj.ckptGen = memRead s.mem (at_ + 0x38) 8 ∧ (restored s at_).reg Obj.rngSeed = memRead s.mem (at_ + 0x28) 16 := by
  unfold restored
  rw [hnone]
  have hbytes : ∀ x, memByte (restoreRecord s (at_ + 65536)).mem x = memByte s.mem x :=
    (restoreRecord_moves s (at_ + 65536) (.refl _ s) (Sub.refl _)).same .cells (by decide)
  obtain ⟨-, hseed, hgen⟩ := headerValues_values (restoreRecord s (at_ + 65536)) at_
  exact ⟨((restoreHeader_of_values ..).reg Obj.ckptGen (by decide)).trans (hgen.trans (memRead_congr hbytes ..)),
    ((restoreHeader_of_values ..).reg Obj.rngSeed (by decide)).trans (hseed.trans (memRead_congr hbytes ..))⟩

/-! ### Serving a partner's copy (R394) -/

section
variable {s : State}

/-- What a write of `CKPT.SERVE` that is taken sends. -/
def serveSent (s : State) (k : Nat) : State :=
  let u := s.withCkpt { s.ckpt with serving := some k, heads := s.ckpt.heads.filter (· != 3) }
  sendImage u .serve (serveSrc u k) (memRead u.mem (serveSrc u k + 0x40) 8) (serveDest u)
theorem serveSent_serving (k : Nat) : (serveSent s k).ckpt.serving = some k :=
  congrArg CkptState.serving ((sendImage_moves _ _ _ _ _ (.refl _ _) (Sub.refl _)).same .ckpt (by decide))
theorem ckptServeWrite_taken {k : Nat} (hslot : bestSlot s (s.reg Obj.ckptPinBase + 64) = some k) (hfree : s.ckpt.serving = none)
    (hstop : s.stopped = false) (hqp : s.qpState (s.reg Obj.ckptServeQp) = 1) : ckptServeWrite s = Ans.ok (serveSent s k) := by
  unfold ckptServeWrite
  rw [hslot]
  exact if_neg (by simp [hfree, hstop, hqp])
theorem ckptServeWrite_none (hslot : bestSlot s (s.reg Obj.ckptPinBase + 64) = none) : ckptServeWrite s = Ans.refuse stState s := by
  unfold ckptServeWrite
  rw [hslot]

end

/-- Settles O32: a restore's outcome is the check's, its end puts the header's values last, and serving sets its own part. -/
theorem restoreAndServeComplete : Obligations.RestoreAndServeComplete := by
  intro s q
  refine ⟨fun p hp hq => ?_, fun a hrun hstop hrest => ⟨_, execCkptRestoreDone_ends hrun hstop hrest, ?_⟩,
    fun k hq hslot hfree hstop hqp => ?_, fun hq hslot => ?_, fun hserve hheads hout => ?_⟩
  · simp only [List.mem_cons, List.not_mem_nil, or_false] at hp
    rcases hp with rfl | rfl
    · exact restoreStart_leads (f := ckptRestoreT1) rfl rfl hq
    · exact restoreStart_leads (f := ckptRestoreT3) rfl rfl hq
  · have hend {k : Nat} (hk : page k ≠ 0x23) (hne : k ≠ Obj.ckptRestoreState) :
        (raise ((restored s a).setReg Obj.ckptRestoreState 2) 0x8A08 .note uMgt).reg k = (restored s a).reg k :=
      (raise_reg _ _ _ _ _ _ hk).trans (setReg_reg_of_ne _ _ _ hne)
    refine ⟨?_, ?_, ?_, (hend (by decide) (by decide)).trans (restored_bank s a), fun hnone => ?_⟩
    · rw [raise_ckpt, setReg_ckpt, restored, restoreHeader_restore]
    · exact (raise_reg _ _ _ _ _ _ (by decide)).trans (setReg_reg_fits _ (by decide))
    · have hlog : ((restored s a).setReg Obj.ckptRestoreState 2).log = s.log := (setReg_log ..).trans ((restored_moves s a).same .log rfl)
      have hcounter : ((restored s a).setReg Obj.ckptRestoreState 2).counter = s.counter :=
        (setReg_counter ..).trans ((restored_moves s a).same .counter rfl)
      exact (raise_reports ((restored s a).setReg Obj.ckptRestoreState 2) 0x8A08 .note uMgt noPos).of_same hlog hcounter
    · obtain ⟨hgen, hseed⟩ := restored_values a hnone
      exact ⟨(hend (by decide) (by decide)).trans hgen, (hend (by decide) (by decide)).trans hseed⟩
  · refine leads_action (f := ckptServeWrite) rfl hq ?_
    rw [ckptServeWrite_taken hslot hfree hstop hqp]
    exact ⟨serveSent_serving k, answered_answers ..⟩
  · refine leads_action (f := ckptServeWrite) rfl hq ?_
    rw [ckptServeWrite_none hslot]
    exact ⟨rfl, answered_answers ..⟩
  · have hexec : execCkptServeDone s = .next (s.withCkpt { s.ckpt with serving := none, heads := s.ckpt.heads.filter (· != 3) }) :=
      if_neg (by cases hs : s.ckpt.serving <;> simp_all)
    exact ⟨_, hexec, rfl⟩

end Sys2Proof.Machine
end

section
/-! Power domains: what their operations leave in the objects of a domain (R402–R405, R409–R412). -/

namespace Sys2Proof.Machine

/-! ### Objects of a domain -/

@[simp] theorem objPart_unit (a u : Nat) : objPart (ofUnit a u) = objPart a := Nat.add_mul_mod_self_right ..
theorem ne_of_objPart {j k : Nat} (h : objPart j ≠ objPart k) : j ≠ k := fun he => h (congrArg objPart he)
theorem ofUnit_ne_of_unit {a u w : Nat} (h : u ≠ w) : ofUnit a u ≠ ofUnit a w := fun he => h (by unfold ofUnit at he; omega)
/-- An object other than the one written, whatever their units. -/
theorem setReg_reg_of_obj (s : State) {k j : Nat} (v : Nat) (h : objPart j ≠ objPart k) : (s.setReg k v).reg j = s.reg j :=
  setReg_reg_of_ne s k v (ne_of_objPart h)
theorem bump_reg_of_obj (s : State) {k j : Nat} (n : Nat) (h : objPart j ≠ objPart k) : (s.bump k n).reg j = s.reg j :=
  bump_reg_of_ne s k n (ne_of_objPart h)
/-- The object of one unit among those of an object that another unit's is written of. -/
theorem setUnit_reg_self (s : State) (a u v : Nat) : (s.setReg (ofUnit a u) v).reg (ofUnit a u) = v % 256 ^ objSize (objPart a) := by
  rw [setReg_reg_self, objPart_unit]
theorem setUnit_reg_of_obj (s : State) {a b : Nat} (u w v : Nat) (h : objPart b ≠ objPart a) :
    (s.setReg (ofUnit a u) v).reg (ofUnit b w) = s.reg (ofUnit b w) := setReg_reg_of_obj s v (by rwa [objPart_unit, objPart_unit])
theorem setUnit_reg_of_plain (s : State) {a b : Nat} (u v : Nat) (h : objPart b ≠ objPart a) :
    (s.setReg (ofUnit a u) v).reg b = s.reg b := setReg_reg_of_obj s v (by rwa [objPart_unit])
theorem setUnit_reg_of_unit (s : State) (a v : Nat) {u w : Nat} (h : w ≠ u) : (s.setReg (ofUnit a u) v).reg (ofUnit a w) = s.reg (ofUnit a w) :=
  setReg_reg_of_ne s _ v (ofUnit_ne_of_unit h)
theorem bumpUnit_reg_self (s : State) (a u n : Nat) :
    (s.bump (ofUnit a u) n).reg (ofUnit a u) = min (s.reg (ofUnit a u) + n) (256 ^ objSize (objPart a) - 1) := by
  rw [bump_reg, if_pos rfl, objPart_unit]
theorem bumpUnit_reg_of_obj (s : State) {a b : Nat} (u w n : Nat) (h : objPart b ≠ objPart a) :
    (s.bump (ofUnit a u) n).reg (ofUnit b w) = s.reg (ofUnit b w) := bump_reg_of_obj s n (by rwa [objPart_unit, objPart_unit])
/-- A domain's object is on its object's page. -/
theorem page_pwrDom {a : Nat} (id : Nat) (h : page a = 0x21) : page (ofUnit a id) = 0x21 := page_ofUnit id h

/-! ### The state of a domain -/

/-- The states of the domains are as before. -/
def DomsKept (s t : State) : Prop := ∀ id, t.reg (ofUnit Obj.pwrDomState id) = s.reg (ofUnit Obj.pwrDomState id)

namespace DomsKept
variable {s t u : State}

theorem refl (s : State) : DomsKept s s := fun _ => rfl
theorem trans (h : DomsKept s t) (h' : DomsKept t u) : DomsKept s u := fun id => (h' id).trans (h id)
theorem domState (h : DomsKept s t) (id : Nat) : t.domState id = s.domState id := by
  unfold State.domState; rw [h id]
theorem domOn (h : DomsKept s t) (id : Nat) : t.domOn id = s.domOn id := by
  unfold State.domOn; rw [h.domState id]
/-- What changes no object of power domains keeps their states. -/
theorem of_moves {A : Nat} (h : Moves A s t) (hA : A.testBit (32 + 0x21) = false) : DomsKept s t := fun id =>
  h.reg _ (by rw [page_pwrDom id page_pwrDomState]; exact hA)
theorem setReg (s : State) (k v : Nat) (h : objPart k ≠ Obj.pwrDomState) : DomsKept s (s.setReg k v) := fun id =>
  setReg_reg_of_obj s v (by rw [objPart_unit]; exact fun he => h he.symm)
theorem setUnit (s : State) {a : Nat} (u v : Nat) (h : objPart a ≠ Obj.pwrDomState) : DomsKept s (s.setReg (ofUnit a u) v) :=
  setReg s _ v (by rwa [objPart_unit])
theorem raise (s : State) (code : Nat) (sev : Sev) (unit pos : Nat) : DomsKept s (raise s code sev unit pos) :=
  of_moves (raise_keeps s code sev unit pos) (by decide)
end DomsKept

theorem setDom_domState (s : State) {id : Nat} (v : Nat) (h : id ≠ domAlwaysOn) : (s.setDom id v).domState id = v % 256 := by
  unfold State.domState State.setDom
  rw [if_neg h, setUnit_reg_self]
  rfl
theorem setDom_domState_of_ne (s : State) {id j : Nat} (v : Nat) (h : j ≠ id) : (s.setDom id v).domState j = s.domState j := by
  unfold State.domState State.setDom
  rw [setUnit_reg_of_unit s _ v h]

/-! ### Bias and frequency (R411, R412) -/

/-- Everything is as before but the bias of domains. -/
def BiasSet (s t : State) : Prop := ∃ b, t = s.withPower { s.power with bias := b }
theorem setBias_set (s : State) (id v : Nat) : BiasSet s (setBias s id v) := by
  by_cases h : isPrivileged id = true
  · exact ⟨smSet zeroWord s.power.bias id v, if_pos h⟩
  · exact ⟨s.power.bias, if_neg h⟩
theorem refreshBias_set (s : State) (id : Nat) : BiasSet s (refreshBias s id) := by
  unfold refreshBias
  split
  · split
    · exact setBias_set ..
    · exact ⟨s.power.bias, rfl⟩
  · exact ⟨s.power.bias, rfl⟩
theorem BiasSet.reg {s t : State} (h : BiasSet s t) (k : Nat) : t.reg k = s.reg k := by
  obtain ⟨b, rfl⟩ := h; rfl

/-- The actual voltage suffices for the frequency that the domain may run at (R411). -/
def voltageHolds (s : State) (id : Nat) : Bool :=
  (((s.pst (dieOfDomain id)).bind fun t => vreq t (freqGoal s id)).map fun v => decide (v ≤ s.reg (ofUnit Obj.pwrDomVolt id))).getD false
theorem refreshFreq_off {s : State} {id : Nat} (h : s.domOn id = false) : refreshFreq s id = s := if_pos (by rw [h]; rfl)
theorem refreshFreq_on {s : State} {id : Nat} (h : s.domOn id = true) : ∃ u, BiasSet s u ∧ refreshFreq s id =
    if freqGoal s id ≤ s.reg (ofUnit Obj.pwrDomFreq id) ∨ voltageHolds s id = true then u.setReg (ofUnit Obj.pwrDomFreq id) (freqGoal s id)
    else u := by
  refine ⟨refreshBias s id, refreshBias_set s id, ?_⟩
  rw [← (refreshBias_set s id).reg]
  unfold refreshFreq
  rw [if_neg (by simp [h])]
  rfl
/-- A frequency is set, or nothing is but bias. -/
theorem refreshFreq_cases (s : State) (id : Nat) : ∃ u, BiasSet s u ∧
    (refreshFreq s id = u ∨ refreshFreq s id = u.setReg (ofUnit Obj.pwrDomFreq id) (freqGoal s id)) := by
  cases h : s.domOn id with
  | false => exact ⟨s, ⟨s.power.bias, rfl⟩, .inl (refreshFreq_off h)⟩
  | true =>
    obtain ⟨u, hu, heq⟩ := refreshFreq_on h
    by_cases hset : freqGoal s id ≤ s.reg (ofUnit Obj.pwrDomFreq id) ∨ voltageHolds s id = true
    · exact ⟨u, hu, .inr (heq.trans (if_pos hset))⟩
    · exact ⟨u, hu, .inl (heq.trans (if_neg hset))⟩

/-- The objects of a domain that R411 and R413 set: its actual frequency and its requests. -/
def paceObjects : List Nat := [Obj.pwrDomFreq, Obj.pwrDomFreqReq, Obj.pwrDomVoltReq]
/-- Of power's objects and its state, only bias, frequencies and requests may be other. -/
structure PaceMoved (s t : State) : Prop where
  reg : ∀ k, objPart k ∉ paceObjects → page k ≠ 0x23 → t.reg k = s.reg k
  power : ∃ b, t.power = { s.power with bias := b }

namespace PaceMoved
variable {s t u : State}

theorem refl (s : State) : PaceMoved s s := ⟨fun _ _ _ => rfl, s.power.bias, rfl⟩
theorem trans (h : PaceMoved s t) (h' : PaceMoved t u) : PaceMoved s u := by
  obtain ⟨b, hb⟩ := h.power
  obtain ⟨b', hb'⟩ := h'.power
  exact ⟨fun k hk hp => (h'.reg k hk hp).trans (h.reg k hk hp), b', by rw [hb', hb]⟩
theorem of_bias (h : BiasSet s t) : PaceMoved s t := ⟨fun k _ _ => h.reg k, by obtain ⟨b, rfl⟩ := h; exact ⟨b, rfl⟩⟩
theorem setUnit (s : State) {a : Nat} (u v : Nat) (h : objPart a ∈ paceObjects) : PaceMoved s (s.setReg (ofUnit a u) v) :=
  ⟨fun k hk _ => setReg_reg_of_obj s v fun he => hk (by rwa [he, objPart_unit]), s.power.bias, rfl⟩
theorem raise (s : State) (code : Nat) (sev : Sev) (unit pos : Nat) : PaceMoved s (raise s code sev unit pos) :=
  ⟨fun k _ hp => raise_reg _ _ _ _ _ k hp, s.power.bias, raise_power ..⟩
theorem refreshFreq (s : State) (id : Nat) : PaceMoved s (refreshFreq s id) := by
  obtain ⟨u, hu, h | h⟩ := refreshFreq_cases s id
  · exact h ▸ of_bias hu
  · exact h ▸ (of_bias hu).trans (setUnit u id _ (by decide))
theorem forAll {α : Type} (xs : List α) (f : α → State → State) (s : State) (hf : ∀ x t, PaceMoved t (f x t)) : PaceMoved s (forAll xs f s) :=
  forAll_induction (P := PaceMoved s) xs f (.refl s) fun x t h => h.trans (hf x t)
theorem refreshFollowers (s : State) (id : Nat) : PaceMoved s (refreshFollowers s id) := forAll _ _ s fun i t => refreshFreq t i
theorem pstAdjust (s : State) (t : TableRec) (id : Nat) : PaceMoved s (pstAdjust s t id) := by
  unfold Machine.pstAdjust
  refine .trans ?_ (refreshFollowers _ id)
  split
  · exact .refl s
  · refine .trans ?_ (raise _ _ _ _ _)
    split
    · exact setUnit s id _ (by decide)
    · exact (setUnit s id _ (by decide)).trans (setUnit _ id _ (by decide))
theorem pstSettle (s : State) (id : Nat) : PaceMoved s (pstSettle s id) := by
  unfold Machine.pstSettle
  split
  · split
    · exact pstAdjust s _ id
    · exact .refl s
  · exact .refl s
theorem doms (h : PaceMoved s t) : DomsKept s t := fun id =>
  h.reg _ (by rw [objPart_unit]; decide) (by rw [page_pwrDom id page_pwrDomState]; decide)
theorem held (h : PaceMoved s t) : t.power.held = s.power.held := by obtain ⟨b, hb⟩ := h.power; rw [hb]
theorem trans_eq (h : PaceMoved s t) : t.power.trans = s.power.trans := by obtain ⟨b, hb⟩ := h.power; rw [hb]
end PaceMoved

/-! ### Reaching a state (R403) -/

/-- A domain that reaches ON stays in that state through what it does there. -/
theorem enterOn_doms (s : State) (id : Nat) : DomsKept s (enterOn s id) := by
  unfold enterOn
  split
  · exact (DomsKept.setUnit s id _ (by decide)).trans (PaceMoved.refreshFreq _ id).doms
  · split
    · exact .of_moves (setReg_moves _ _ (page_rillPState _) (.refl _ s) (Sub.refl _)) (by decide)
    · split
      · exact .of_moves (setReg_moves _ _ (page_ethPState _) (.refl _ s) (Sub.refl _)) (by decide)
      · exact .refl s
theorem unpowered_doms (s : State) (id : Nat) : DomsKept s (unpowered s id) :=
  ((DomsKept.setUnit s id 0 (by decide)).trans (.setUnit _ id 0 (by decide))).trans fun _ => (setBias_set _ id 0).reg _
theorem leftOn_doms (s : State) (id v : Nat) : DomsKept s (leftOn s id v) := by
  unfold leftOn
  split
  · split
    · exact ((DomsKept.setUnit s id 0 (by decide)).trans (.setUnit _ id _ (by decide))).trans fun _ => (setBias_set _ id _).reg _
    · exact unpowered_doms s id
  · exact .refl s
theorem loseContents_doms (s : State) (id : Nat) : DomsKept s (loseContents s id) :=
  .of_moves (loseContents_moves s id (.refl _ s) (Sub.refl _)) (by decide)
/-- What a domain does on reaching its state leaves every domain's state. -/
theorem domArrive_doms (s : State) (id v : Nat) : DomsKept (s.setDom id v) (domArrive s id v) := by
  unfold domArrive
  extract_lets u
  split
  · exact enterOn_doms u id
  · split
    · exact (loseContents_doms u id).trans (leftOn_doms _ id v)
    · exact leftOn_doms u id v
theorem domArrive_domState (s : State) {id v : Nat} (h : id ≠ domAlwaysOn) (hv : v < 256) : (domArrive s id v).domState id = v := by
  rw [(domArrive_doms s id v).domState, setDom_domState s v h, Nat.mod_eq_of_lt hv]
/-- A core's domain is none of the always-on one. -/
theorem domCore_ne_alwaysOn {n : Nat} (h : n < 256) : domCore n ≠ domAlwaysOn := by
  unfold domCore domAlwaysOn; omega

end Sys2Proof.Machine
end

section
/-! A core's test and its unfence (R377). -/

namespace Sys2Proof.Machine

/-! ### The test -/

section
variable {s : State} {core : Nat}

/-- A test that starts: the core's domain ON, the core named. -/
def testStarted (s : State) (core : Nat) : State :=
  let u := enterOn (s.setDom (domCore core) dsOn) (domCore core)
  (u.withCkpt { u.ckpt with testing := some core }).setReg Obj.resTestResult 1
theorem resCoreTestWrite_starts (hcore : s.reg Obj.resCoreSel < 256) (hok : testAllowed s (s.reg Obj.resCoreSel) = true) :
    resCoreTestWrite s = Ans.ok (testStarted s (s.reg Obj.resCoreSel)) := if_neg (by simp [hcore, hok])
theorem resCoreTestWrite_refused (hno : testAllowed s (s.reg Obj.resCoreSel) = false) : resCoreTestWrite s = Ans.refuse stState s :=
  if_pos (by simp [hno])
theorem testStarted_domState (hcore : core < 256) : (testStarted s core).domState (domCore core) = dsOn := by
  have hset : DomsKept (enterOn (s.setDom (domCore core) dsOn) (domCore core)) (testStarted s core) := .setReg _ _ _ (by decide)
  rw [hset.domState, (enterOn_doms _ _).domState, setDom_domState s dsOn (domCore_ne_alwaysOn hcore)]
  rfl

/-- The cores whose test has passed, after a test of `core`. -/
def passedAfter (s : State) (core : Nat) (pass : Bool) : List Nat :=
  if pass then core :: s.ckpt.passed.filter (· != core) else s.ckpt.passed.filter (· != core)
/-- A test's result, with the domain OFF again. -/
def testEnded (s : State) (core : Nat) (pass : Bool) : State :=
  (domArrive (s.withCkpt { s.ckpt with testing := none, passed := passedAfter s core pass }) (domCore core) dsOff).setReg Obj.resTestResult
    (if pass then 2 else 3)
theorem execCoreTestDone_ends (pass : Bool) (htest : s.ckpt.testing = some core) :
    execCoreTestDone pass s = .next (if pass then testEnded s core pass else raise (testEnded s core pass) 0x8A13 .note (uCore core)) := by
  unfold execCoreTestDone
  rw [htest]
  rfl
/-- A core that reaches OFF loses its contents alone: none of the checkpoint's state, of the log and of the counter. -/
theorem coreArriveOff_moves (s : State) (hcore : core < 256) :
    Moves (maskOf [.cores, .power, .obj 0x21]) s (domArrive s (domCore core) dsOff) := by
  have hblank : domArrive s (domCore core) dsOff = leftOn ((s.setDom (domCore core) dsOff).modCore core blankCore) (domCore core) dsOff := by
    have hlose : loseContents (s.setDom (domCore core) dsOff) (domCore core) = (s.setDom (domCore core) dsOff).modCore core blankCore := if_pos hcore
    unfold domArrive
    dsimp only
    rw [if_neg (by decide), if_pos rfl, hlose]
  rw [hblank]
  exact leftOn_moves _ _ _ (modCore_moves _ _ (State_setDom_moves s _ _ (.refl _ s) (by decide)) (by decide)) (by decide)
theorem testEnded_ckpt (pass : Bool) (hcore : core < 256) :
    (testEnded s core pass).ckpt = { s.ckpt with testing := none, passed := passedAfter s core pass } :=
  (coreArriveOff_moves _ hcore).same .ckpt rfl
theorem testEnded_domState (pass : Bool) (hcore : core < 256) : (testEnded s core pass).domState (domCore core) = dsOff := by
  have hset : DomsKept _ (testEnded s core pass) := .setReg _ _ _ (by decide)
  rw [hset.domState, domArrive_domState _ (domCore_ne_alwaysOn hcore) (by decide)]
theorem mem_passedAfter (pass : Bool) : core ∈ passedAfter s core pass ↔ pass = true := by
  cases pass <;> simp [passedAfter]

end

/-! ### The unfence -/

/-- The map without one core. -/
theorem bitOf_without (n core : Nat) (hcore : core < 256) : bitOf ((n &&& (2 ^ 256 - 1 - 2 ^ core)) % 256 ^ 32) core = false := by
  have hmask : (2 ^ 256 - 1 - 2 ^ core).testBit core = false := by
    rw [Nat.sub_sub, Nat.add_comm 1, Nat.testBit_two_pow_sub_succ (Nat.pow_lt_pow_right (by decide) hcore)]
    simp
  rw [bitOf, show (256 : Nat) ^ 32 = 2 ^ 256 by decide, Nat.testBit_mod_two_pow, Nat.testBit_and, hmask]
  simp

section
variable (s : State) (cl : Nat) {core : Nat}

theorem modCluster_unfence (x : Option Nat) : ((s.modCluster cl fun c => { c with unfence := x }).cluster cl).unfence = x := by
  rw [modCluster_cluster, if_pos rfl]
/-- An unfence before its event. -/
def unfenced (s : State) (cl core : Nat) : State :=
  let u := (s.modCluster cl fun c => { c with unfence := none }).setReg Obj.resFencedMap (s.reg Obj.resFencedMap &&& (2 ^ 256 - 1 - 2 ^ core))
  refreshFenced (u.withCkpt { u.ckpt with passed := u.ckpt.passed.filter (· != core) }) cl
theorem unfenceNow_eq : unfenceNow s cl core = raise (unfenced s cl core) 0x8A12 .note (uCore core) := rfl
theorem unfenceNow_map (hcore : core < 256) : bitOf ((unfenceNow s cl core).reg Obj.resFencedMap) core = false := by
  rw [unfenceNow_eq, raise_reg _ _ _ _ _ _ (by decide)]
  unfold unfenced refreshFenced
  rw [setReg_reg_of_obj _ _ (by unfold objPart Obj.schedClFenced Obj.resFencedMap ob; omega), withCkpt_reg, setReg_reg_self]
  exact bitOf_without _ core hcore
theorem unfenceNow_ckpt : (unfenceNow s cl core).ckpt.passed = s.ckpt.passed.filter (· != core) := by
  rw [unfenceNow_eq, raise_ckpt]; rfl
theorem unfenceNow_passed : core ∉ (unfenceNow s cl core).ckpt.passed := by
  rw [unfenceNow_ckpt]; simp
theorem unfenceNow_reports : Reports s (unfenceNow s cl core) 0x8A12 .note (uCore core) :=
  (raise_reports (unfenced s cl core) 0x8A12 .note (uCore core) noPos).of_same rfl rfl
theorem unfenceNow_cluster : ((unfenceNow s cl core).cluster cl).unfence = none := by
  unfold State.cluster
  rw [unfenceNow_eq, raise_clusters]
  exact modCluster_unfence s cl none

end

section
variable {s : State}

theorem resUnfenceWrite_now (hok : unfenceRefused s (s.reg Obj.resCoreSel) = false) (hrole : s.role (clusterOf (s.reg Obj.resCoreSel)) = 0) :
    resUnfenceWrite s = Ans.ok (unfenceNow s (clusterOf (s.reg Obj.resCoreSel)) (s.reg Obj.resCoreSel)) :=
  (if_neg (by rw [hok]; decide)).trans (if_pos hrole)
theorem resUnfenceWrite_waits (hok : unfenceRefused s (s.reg Obj.resCoreSel) = false) (hrole : s.role (clusterOf (s.reg Obj.resCoreSel)) ≠ 0) :
    resUnfenceWrite s = Ans.ok (s.modCluster (clusterOf (s.reg Obj.resCoreSel)) fun c => { c with unfence := some (s.reg Obj.resCoreSel) }) :=
  (if_neg (by rw [hok]; decide)).trans (if_neg hrole)
theorem resUnfenceWrite_refused (hno : unfenceRefused s (s.reg Obj.resCoreSel) = true) :
    resUnfenceWrite s = Ans.refuse stState (raise s 0x8A13 .note (uCore (s.reg Obj.resCoreSel))) := if_pos hno
/-- A core that may be unfenced is one of the 256. -/
theorem lt_of_unfenceRefused {core : Nat} (h : unfenceRefused s core = false) : core < 256 := by
  simp only [unfenceRefused, Bool.or_eq_false_iff, Bool.not_eq_false', decide_eq_true_eq] at h
  obtain ⟨⟨⟨⟨hcore, -⟩, -⟩, -⟩, -⟩ := h
  exact hcore

end

/-- Settles O26: the test sets the domain's state last, and an unfence clears the core's bit at once or notes it for the boundary. -/
theorem coreRepairCompletes : Obligations.CoreRepairCompletes := by
  intro s
  refine ⟨fun q hq hcore hok => ?_, fun q hq hno => ?_, fun pass core htest hcore => ⟨_, execCoreTestDone_ends pass htest, ?_⟩,
    fun q hq hok hrole => ?_, fun q hq hok hrole => ?_, fun q hq hno => ?_, fun cl core hwait hcore hbound => ?_⟩
  · refine leads_action (f := resCoreTestWrite) rfl hq ?_
    rw [resCoreTestWrite_starts hcore hok]
    refine ⟨rfl, ?_, ?_, answered_answers ..⟩
    · exact (answered_reg _ _ _ _ _ (by decide)).trans (setReg_reg_fits _ (k := Obj.resTestResult) (v := 1) (by decide))
    · have hans : DomsKept (testStarted s (s.reg Obj.resCoreSel)) (answered s.beat q 2 Obj.resCoreTest (Ans.ok (testStarted s (s.reg Obj.resCoreSel)))) :=
        fun id => answered_reg _ _ _ _ _ (ne_of_objPart (by rw [objPart_unit]; decide))
      rw [hans.domState, testStarted_domState hcore]
  · refine leads_action (f := resCoreTestWrite) rfl hq ?_
    rw [resCoreTestWrite_refused hno]
    exact ⟨rfl, answered_reg _ _ _ _ _ (by decide), answered_answers ..⟩
  · have hckpt := testEnded_ckpt (s := s) pass hcore
    have hresult : (testEnded s core pass).reg Obj.resTestResult = if pass then 2 else 3 := by
      unfold testEnded
      cases pass <;> exact setReg_reg_fits _ (by decide)
    have hoff := testEnded_domState (s := s) pass hcore
    have hmoved := coreArriveOff_moves (s.withCkpt { s.ckpt with testing := none, passed := passedAfter s core pass }) hcore
    cases pass with
    | true => exact ⟨congrArg CkptState.testing hckpt, hresult, hoff, hckpt ▸ mem_passedAfter true, fun h => absurd h (by decide)⟩
    | false =>
      refine ⟨?_, ?_, ?_, ?_, fun _ => ?_⟩
      · exact (congrArg CkptState.testing (raise_ckpt ..)).trans (congrArg CkptState.testing hckpt)
      · exact (raise_reg _ _ _ _ _ _ (by decide)).trans hresult
      · exact ((DomsKept.raise _ _ _ _ _).domState _).trans hoff
      · rw [if_neg (by decide), raise_ckpt, hckpt]
        exact mem_passedAfter false
      · exact (raise_reports (testEnded s core false) 0x8A13 .note (uCore core) noPos).of_same
          ((setReg_log ..).trans (hmoved.same .log rfl)) ((setReg_counter ..).trans (hmoved.same .counter rfl))
  · refine leads_action (f := resUnfenceWrite) rfl hq ?_
    rw [resUnfenceWrite_now hok hrole]
    refine ⟨?_, unfenceNow_passed _ _, (unfenceNow_reports _ _).then rfl, answered_answers ..⟩
    rw [answered_reg _ _ _ _ _ (by decide)]
    exact unfenceNow_map _ _ (lt_of_unfenceRefused hok)
  · refine leads_action (f := resUnfenceWrite) rfl hq ?_
    rw [resUnfenceWrite_waits hok hrole]
    exact ⟨modCluster_unfence .., answered_reg _ _ _ _ _ (by decide), answered_answers ..⟩
  · refine leads_action (f := resUnfenceWrite) rfl hq ?_
    rw [resUnfenceWrite_refused hno]
    refine ⟨?_, (raise_reports _ _ _ _ _).then rfl, answered_answers ..⟩
    rw [answered_reg _ _ _ _ _ (by decide)]
    exact raise_reg _ _ _ _ _ _ (by decide)
  · have hexec : execCoreUnfenceApply cl s = .next (unfenceNow s cl core) := by
      unfold execCoreUnfenceApply
      rw [hwait]
      exact if_pos hbound
    exact ⟨_, hexec, unfenceNow_map _ _ hcore, unfenceNow_cluster .., unfenceNow_passed _ _, unfenceNow_reports _ _⟩

end Sys2Proof.Machine
end

section
/-! A core fault by request or by a hang (R375, R448). What it records fits the log; what is left of the core stays empty through what
follows; its domain stays OFF. -/

namespace Sys2Proof.Machine

/-! ### What a core fault records -/

/-- What changes neither the log nor the counter records at most one event. -/
theorem KeepsRecords.quiet {s t : State} (hlog : t.log = s.log) (hcounter : t.counter = s.counter) : KeepsRecords 1 s t :=
  (KeepsRecords.of_same hlog hcounter).mono (by decide)
theorem KeepsRecords.then_raise {s t : State} (hlog : t.log = s.log) (hcounter : t.counter = s.counter) (code : Nat) (sev : Sev) (unit pos : Nat) :
    KeepsRecords 1 s (Machine.raise t code sev unit pos) :=
  (KeepsRecords.of_same hlog hcounter).trans (.raise t code sev unit pos)
theorem produceRecord_records (s : State) (die seq r : Nat) : KeepsRecords 1 s (produceRecord s die seq r) := by
  unfold produceRecord
  refine .ite (fun _ => .quiet rfl rfl) fun _ => .ite (fun _ => .quiet rfl rfl) fun _ => .ite (fun _ => .quiet rfl rfl) fun _ => ?_
  exact .ite (fun _ => .then_raise (by rfl) (by rfl) _ _ _ _) fun _ => .quiet rfl rfl
theorem withdraw_records (s : State) (core i : Nat) : KeepsRecords 1 s (withdraw s core i) := by
  unfold withdraw
  exact .ite (fun _ => .quiet rfl rfl) fun _ => .ite (fun _ => .quiet rfl rfl) fun _ => produceRecord_records ..
theorem disarmOne_records (s : State) (core i : Nat) : KeepsRecords 1 s (disarmOne s core i) :=
  (withdraw_records s core i).trans (.of_moves (A := maskOf [.cores, .clusters, .cells, .poison, .memory])
    (modSlu_moves _ _ _ _ (modCtx_moves _ _ _ _ (landIssued_moves _ core i (.refl _ (withdraw s core i)) (by decide)) (by decide)) (by decide)) rfl rfl)
theorem armedOn_length (s : State) (core : Nat) : (s.armedOn core).length ≤ 48 :=
  (List.length_filter_le ..).trans (by rw [List.length_range])
/-- Ending every context of a core records at most one event for each. -/
theorem clearStreams_records (s : State) (core : Nat) : KeepsRecords 48 s (clearStreams s core) := by
  have harmed : KeepsRecords 48 s (forAll (s.armedOn core) (fun i s => disarmOne s core i) s) :=
    (KeepsRecords.forAll _ _ (fun i t => disarmOne_records t core i) s).mono (by have := armedOn_length s core; omega)
  refine harmed.trans (b := 0) ?_
  exact .of_moves (forAll_moves (A := maskOf [.cores]) _ _ (.refl _ _) fun sl t h => emptySlu_moves _ core sl h (by decide)) rfl rfl
theorem fenceStreams_records (s : State) (core : Nat) : KeepsRecords 48 s (fenceStreams s core) :=
  (KeepsRecords.of_moves (rewindHeld_moves s core (.refl _ s) (Sub.refl _)) rfl rfl).trans (clearStreams_records _ core)
theorem domRefuse_records (s : State) (id refuser : Nat) : KeepsRecords 1 s (domRefuse s id refuser) := by
  unfold domRefuse
  refine .then_raise ?_ ?_ _ _ _ _
  · rw [setReg_log, bump_log]
  · rw [setReg_counter, bump_counter]
theorem dropHeld_records (s : State) (id : Nat) : KeepsRecords 1 s (dropHeld s id) := by
  unfold dropHeld
  refine .ite (fun _ => ?_) fun _ => .quiet rfl rfl
  exact KeepsRecords.trans (a := 0) (.of_same (by rfl) (by rfl)) (domRefuse_records _ _ _)
/-- A boundary of a cluster's 16 cores. -/
theorem boundaryDisarm_records (s : State) (cl : Nat) : KeepsRecords 768 s (boundaryDisarm s cl) := by
  have hcore : ∀ core (t : State), KeepsRecords 48 t (clearStreams ((forAll (cutArmings t core) (fun i s => cutArming s core i) t).bump
      (Obj.strmFlushes core) (flushedAtBoundary t core)) core) := fun core t => by
    have hcut : Moves (maskOf [.ledger, .obj 0x52]) t (forAll (cutArmings t core) (fun i s => cutArming s core i) t) :=
      forAll_moves _ _ (.refl _ t) fun i u h => cutArming_moves u core i h (by decide)
    have hbump : KeepsRecords 0 t ((forAll (cutArmings t core) (fun i s => cutArming s core i) t).bump
        (Obj.strmFlushes core) (flushedAtBoundary t core)) := .of_same (hcut.same .log rfl) (hcut.same .counter rfl)
    exact hbump.trans (clearStreams_records _ core)
  exact (KeepsRecords.forAll (coresOf cl) _ hcore s).mono (by simp [coresOf])
/-- A cluster's leave of its role records what its boundary does. -/
theorem leaveRole_records (s : State) (cl : Nat) : KeepsRecords 768 s (leaveRole s cl) := by
  refine (boundaryDisarm_records s cl).trans (b := 0) ?_
  have hrest : Moves (maskOf [.tables, .cores, .clusters, .train, .roll, .obj 0x41, .obj 0x42, .obj 0x44]) (boundaryDisarm s cl) (leaveRole s cl) := by
    unfold leaveRole
    refine refreshEpoch_moves _ (ite_moves (fun _ => releaseTables_moves _ _ ?_ (by decide)) fun _ => ?_) (by decide)
    all_goals
      refine setReg_moves _ _ (page_schedClRole cl) (withRoll_moves _ (withTrain_moves _ (modCluster_moves _ _ ?_ (by decide)) (by decide))
        (by decide)) (by decide)
      exact forAll_moves _ _ (.refl _ _) fun n u h => modCore_moves _ _ h (by decide)
  exact .of_moves hrest rfl rfl
/-- A cluster out of its group, before its request is reset and the event. -/
def clusterLeft (s : State) (cl : Nat) : State := if s.role cl = 0 then s else writeEndsOf (leaveRole s cl) cl
theorem clusterOut_eq (s : State) (cl : Nat) :
    clusterOut s cl = raise ((clusterLeft s cl).setReg (Obj.schedClRoleReq cl) 0) 0x4A30 .degrade (uCluster cl) := rfl
theorem clusterOut_records (s : State) (cl : Nat) : KeepsRecords 769 s (clusterOut s cl) := by
  have hleft : KeepsRecords 768 s (clusterLeft s cl) :=
    .ite (fun _ => (KeepsRecords.refl s).mono (by decide)) fun _ =>
      (leaveRole_records s cl).trans (.of_moves (writeEndsOf_moves _ cl (.refl _ _) (Sub.refl _)) rfl rfl)
  rw [clusterOut_eq]
  exact hleft.trans (.then_raise (setReg_log ..) (setReg_counter ..) _ _ _ _)

/-! ### The core that failed stays empty -/

/-- No context of the core is armed, and its Sluices hold no packet. -/
def CoreEmpty (n : Nat) (s : State) : Prop :=
  (∀ i, ((s.core n).ctx i).armed = false) ∧ ∀ sl, ((s.core n).sluice sl).packets = []

namespace CoreEmpty
variable {n : Nat} {s t : State}

theorem of_core (h : CoreEmpty n s) (hcore : t.core n = s.core n) : CoreEmpty n t := by
  unfold CoreEmpty; rw [hcore]; exact h
theorem of_moves {A : Nat} (h : CoreEmpty n s) (hm : Moves A s t) (hA : A.testBit 6 = false) : CoreEmpty n t :=
  h.of_core (congrArg (fun cores => smGet dCore cores n) (hm.same .cores hA))
theorem raise (h : CoreEmpty n s) (code : Nat) (sev : Sev) (unit pos : Nat) : CoreEmpty n (raise s code sev unit pos) :=
  h.of_core (raise_core ..)
theorem modCore (h : CoreEmpty n s) (core : Nat) (f : Core → Core) (hctx : ∀ c i, (c.ctx i).armed = false → ((f c).ctx i).armed = false)
    (hslu : ∀ c sl, (c.sluice sl).packets = [] → ((f c).sluice sl).packets = []) : CoreEmpty n (s.modCore core f) := by
  unfold CoreEmpty
  rw [modCore_core]
  split
  next he =>
    subst he
    exact ⟨fun i => hctx _ i (h.1 i), fun sl => hslu _ sl (h.2 sl)⟩
  next he => exact h
theorem modCtx (h : CoreEmpty n s) (core i : Nat) (f : Ctx → Ctx) (hf : ∀ c, c.armed = false → (f c).armed = false) :
    CoreEmpty n (modCtx s core i f) := by
  refine h.modCore core _ (fun c j hj => ?_) fun c sl hs => hs
  rw [modCtx_ctx]
  split
  next he => exact hf _ (he ▸ hj)
  next he => exact hj
theorem modSlu (h : CoreEmpty n s) (core sl : Nat) (f : Sluice → Sluice) (hf : ∀ q, q.packets = [] → (f q).packets = []) :
    CoreEmpty n (modSlu s core sl f) := by
  refine h.modCore core _ (fun c i hi => hi) fun c j hj => ?_
  rw [modSluice_sluice]
  split
  next he => exact hf _ (he ▸ hj)
  next he => exact hj
theorem disarmOne (h : CoreEmpty n s) (core i : Nat) : CoreEmpty n (disarmOne s core i) := by
  have hlanded : CoreEmpty n (forAll (((withdraw s core i).core core).ctx i).flight (fun f s => landPuts s core f) (withdraw s core i)) :=
    forAll_induction _ _ (h.of_core (withdraw_core ..)) fun f t ht => ht.of_core (landPuts_core ..)
  unfold Machine.disarmOne
  dsimp only
  refine modSlu (modCtx ?_ core i _ fun _ _ => rfl) core _ _ fun _ hq => hq
  unfold Machine.landIssued
  exact hlanded.modCtx core i _ fun _ hc => hc
theorem clearStreams (h : CoreEmpty n s) (core : Nat) : CoreEmpty n (clearStreams s core) :=
  forAll_induction _ _ (forAll_induction _ _ h fun i _ ht => ht.disarmOne core i) fun sl _ ht => ht.modSlu core sl _ fun _ _ => rfl
theorem boundaryDisarm (h : CoreEmpty n s) (cl : Nat) : CoreEmpty n (boundaryDisarm s cl) := by
  refine forAll_induction _ _ h fun core t ht => CoreEmpty.clearStreams ?_ core
  have hcut : Moves (maskOf [.ledger, .obj 0x52]) t (forAll (cutArmings t core) (fun i s => cutArming s core i) t) :=
    forAll_moves _ _ (.refl _ t) fun i u h => cutArming_moves u core i h (by decide)
  exact (ht.of_moves hcut rfl).of_core rfl
theorem leaveRole (h : CoreEmpty n s) (cl : Nat) : CoreEmpty n (leaveRole s cl) := by
  have hcores : CoreEmpty n (forAll (coresOf cl) (fun n s => s.modCore n emptyCore) (Machine.boundaryDisarm s cl)) :=
    forAll_induction _ _ (h.boundaryDisarm cl) fun core _ ht => ht.modCore core _ (fun _ _ hi => hi) fun _ _ hs => hs
  unfold Machine.leaveRole
  refine of_moves (A := maskOf [.tables, .clusters, .train, .roll, .obj 0x41, .obj 0x42, .obj 0x44]) hcores ?_ rfl
  refine refreshEpoch_moves _ (ite_moves (fun _ => releaseTables_moves _ _ ?_ (by decide)) fun _ => ?_) (by decide)
  all_goals
    exact setReg_moves _ _ (page_schedClRole cl) (withRoll_moves _ (withTrain_moves _ (modCluster_moves _ _ (.refl _ _) (by decide)) (by decide))
      (by decide)) (by decide)
theorem clusterOut (h : CoreEmpty n s) (cl : Nat) : CoreEmpty n (clusterOut s cl) := by
  have hleft : CoreEmpty n (clusterLeft s cl) := by
    by_cases hidle : s.role cl = 0
    · rw [clusterLeft, if_pos hidle]
      exact h
    · rw [clusterLeft, if_neg hidle]
      exact (h.leaveRole cl).of_moves (writeEndsOf_moves _ cl (.refl _ _) (Sub.refl _)) rfl
  have hset : CoreEmpty n ((clusterLeft s cl).setReg (Obj.schedClRoleReq cl) 0) := hleft.of_core (setReg_core ..)
  rw [clusterOut_eq]
  exact hset.raise _ _ _ _
end CoreEmpty

/-- A core that has lost its contents is empty. -/
theorem blankCore_empty (c : Core) : (∀ i, ((blankCore c).ctx i).armed = false) ∧ ∀ sl, ((blankCore c).sluice sl).packets = [] := by
  refine ⟨fun _ => rfl, fun sl => ?_⟩
  unfold blankCore Core.sluice
  induction c.sluices with
  | nil => rfl
  | cons p ps ih =>
    rw [List.map_cons, smGet]
    split
    · rfl
    · exact ih

/-! ### The hardware's steps -/

section
variable (s : State) (core : Nat)

/-- The streams of the failed core ended, after the event, and its held request dropped. -/
def faultEnded (s : State) (core : Nat) : State := dropHeld (fenceStreams (raise s 0x8A10 .stepAbort (uCore core)) core) (domCore core)
theorem faultStop_eq : faultStop s core = coreOff (faultEnded s core) core := rfl
theorem faultEnded_records : KeepsRecords 49 (raise s 0x8A10 .stepAbort (uCore core)) (faultEnded s core) :=
  (fenceStreams_records _ core).trans (dropHeld_records _ _)
theorem faultStop_records : KeepsRecords 49 (raise s 0x8A10 .stepAbort (uCore core)) (faultStop s core) :=
  (faultEnded_records s core).trans (b := 0) (.of_moves (coreOff_moves _ core (.refl _ _) (Sub.refl _)) rfl rfl)
theorem faultStop_empty : CoreEmpty core (faultStop s core) := by
  have hblank : CoreEmpty core ((faultEnded s core).modCore core blankCore) := by
    unfold CoreEmpty
    rw [modCore_core, if_pos rfl]
    exact blankCore_empty _
  exact hblank.of_moves (A := maskOf [.power, .obj 0x21]) (unpowered_moves _ _ (State_setDom_moves _ _ _ (.refl _ _) (by decide)) (by decide)) rfl
theorem faultStop_domState (hcore : core < 256) : (faultStop s core).domState (domCore core) = dsOff := by
  rw [faultStop_eq, coreOff, (unpowered_doms _ _).domState, setDom_domState _ _ (domCore_ne_alwaysOn hcore)]
  rfl
/-- The hardware's steps leave the map of fenced cores, the module's units and the management controller. -/
theorem faultStop_reg (k : Nat) (hk : page k = 0x80 ∨ page k = 0x10) : (faultStop s core).reg k = s.reg k :=
  (faultStop_moves s core (.refl _ s) (Sub.refl _)).reg k (by rcases hk with hk | hk <;> rw [hk] <;> decide)
theorem faultStop_mgt : (faultStop s core).mgt = s.mgt := (faultStop_moves s core (.refl _ s) (Sub.refl _)).same .mgt rfl

end

/-! ### The management controller's steps -/

section
variable (s : State) (core : Nat)

/-- The core in the map, and its cluster's fenced cores counted again. -/
def mapSet (s : State) (core : Nat) : State :=
  refreshFenced (s.setReg Obj.resFencedMap (s.reg Obj.resFencedMap ||| 2 ^ core)) (clusterOf core)
/-- The cluster is out of its group with its second fenced core. -/
def fencedOut (s : State) (core : Nat) : State :=
  if ((mapSet s core).fencedIn (clusterOf core)).length = 2 then clusterOut (mapSet s core) (clusterOf core) else mapSet s core
theorem faultFence_eq : faultFence s core = raise (fencedOut s core) 0x8A11 .degrade (uCore core) := rfl
theorem fencedOut_moves : Moves (maskOf ([.outbox, .tables, .cores, .clusters, .train, .roll, .cells, .poison, .memory, .log, .pins, .ledger] ++
    objs [0x23, 0x41, 0x42, 0x43, 0x44, 0x52, 0x61])) (mapSet s core) (fencedOut s core) :=
  ite_moves (fun _ => clusterOut_moves _ _ (.refl _ _) (by decide)) fun _ => .refl _ _
theorem fencedOut_records : KeepsRecords 769 s (fencedOut s core) := by
  have hset : KeepsRecords 0 s (mapSet s core) := .of_same rfl rfl
  exact hset.trans (.ite (fun _ => clusterOut_records _ _) fun _ => (KeepsRecords.refl _).mono (by decide))
theorem mapSet_map (hcore : core < 256) : bitOf ((mapSet s core).reg Obj.resFencedMap) core = true := by
  unfold mapSet refreshFenced
  rw [setReg_reg_of_obj _ _ (by unfold objPart Obj.schedClFenced Obj.resFencedMap ob; omega), setReg_reg_self, bitOf,
    show 256 ^ objSize (objPart Obj.resFencedMap) = 2 ^ 256 by decide, Nat.testBit_mod_two_pow, Nat.testBit_or, Nat.testBit_two_pow_self]
  simp [hcore]
theorem faultFence_map (hcore : core < 256) : bitOf ((faultFence s core).reg Obj.resFencedMap) core = true := by
  rw [faultFence_eq, raise_reg _ _ _ _ _ _ (by decide), (fencedOut_moves s core).reg Obj.resFencedMap (by decide)]
  exact mapSet_map s core hcore
theorem faultFence_doms : DomsKept s (faultFence s core) := by
  have hset : DomsKept s (mapSet s core) :=
    .of_moves (A := maskOf [.obj 0x41, .obj 0x80]) (refreshFenced_moves _ _ (setReg_moves _ _ page_resFencedMap (.refl _ s) (by decide)) (by decide))
      (by decide)
  exact (hset.trans (.of_moves (fencedOut_moves s core) (by decide))).trans (.raise _ _ _ _ _)
theorem faultFence_empty {n : Nat} (h : CoreEmpty n s) : CoreEmpty n (faultFence s core) := by
  have hset : CoreEmpty n (mapSet s core) := h.of_core rfl
  have hout : CoreEmpty n (fencedOut s core) := by
    by_cases htwo : ((mapSet s core).fencedIn (clusterOf core)).length = 2
    · rw [fencedOut, if_pos htwo]
      exact hset.clusterOut _
    · rw [fencedOut, if_neg htwo]
      exact hset
  rw [faultFence_eq]
  exact hout.raise _ _ _ _

end

end Sys2Proof.Machine
end

section
/-! Settling a core fault by request or by a hang (R375, R448). -/

namespace Sys2Proof.Machine

/-! ### The cluster's first fenced core -/

section
variable {s : State} {core : Nat}

/-- A core enters the map of fenced cores, and no other. -/
theorem coreFenced_map (s : State) (core : Nat) {n : Nat} (hn : n < 256) :
    (s.setReg Obj.resFencedMap (s.reg Obj.resFencedMap ||| 2 ^ core)).coreFenced n = (n == core || s.coreFenced n) := by
  have hbit : bitOf ((s.setReg Obj.resFencedMap (s.reg Obj.resFencedMap ||| 2 ^ core)).reg Obj.resFencedMap) n =
      (bitOf (s.reg Obj.resFencedMap) n || n == core) := by
    rw [setReg_reg_self, bitOf, show 256 ^ objSize (objPart Obj.resFencedMap) = 2 ^ 256 by decide, Nat.testBit_mod_two_pow, Nat.testBit_or,
      Nat.testBit_two_pow, decide_eq_true hn, Bool.true_and, beq_eq_decide]
    simp [bitOf, eq_comm]
  have hpresent : (s.setReg Obj.resFencedMap (s.reg Obj.resFencedMap ||| 2 ^ core)).corePresent n = s.corePresent n := by
    unfold State.corePresent State.mapBit
    rw [setReg_reg_of_ne _ _ _ (by decide)]
  unfold State.coreFenced
  rw [hbit, hpresent, Bool.or_comm (bitOf _ n), Bool.or_assoc]
theorem mem_coresOf {cl n : Nat} : n ∈ coresOf cl ↔ clusterOf n = cl := by
  simp only [coresOf, clusterOf, List.mem_map, List.mem_range]
  constructor
  · rintro ⟨i, hi, rfl⟩; omega
  · rintro rfl; exact ⟨n % 16, by omega, by omega⟩
theorem coresOf_nodup (cl : Nat) : (coresOf cl).Nodup :=
  List.Nodup.map (fun _ _ h => Nat.add_left_cancel h) List.nodup_range
/-- In a cluster that had no fenced core, the one that enters the map is alone. -/
theorem fencedIn_map (hcore : core < 256) (hnone : s.fencedIn (clusterOf core) = []) :
    (s.setReg Obj.resFencedMap (s.reg Obj.resFencedMap ||| 2 ^ core)).fencedIn (clusterOf core) = [core] := by
  have hothers : ∀ n ∈ coresOf (clusterOf core), s.coreFenced n = false := fun n hn => by
    simpa using List.filter_eq_nil_iff.mp hnone n hn
  have halone : ∀ n ∈ coresOf (clusterOf core),
      (s.setReg Obj.resFencedMap (s.reg Obj.resFencedMap ||| 2 ^ core)).coreFenced n = (n == core) := fun n hn => by
    have hlt : n < 256 := by have := mem_coresOf.mp hn; unfold clusterOf at this; omega
    rw [coreFenced_map s core hlt, hothers n hn, Bool.or_false]
  unfold State.fencedIn
  rw [List.filter_congr halone, List.filter_beq, List.count_eq_one_of_mem (coresOf_nodup _) (mem_coresOf.mpr rfl)]
  rfl
theorem mapSet_fencedIn (s : State) (core cl : Nat) :
    (mapSet s core).fencedIn cl = (s.setReg Obj.resFencedMap (s.reg Obj.resFencedMap ||| 2 ^ core)).fencedIn cl := by
  unfold State.fencedIn State.coreFenced State.corePresent State.mapBit mapSet refreshFenced
  rw [setReg_reg_of_obj _ _ (by unfold objPart Obj.schedClFenced Obj.resFencedMap ob; omega),
    setReg_reg_of_obj (j := Obj.cfgUnitMap) _ _ (by unfold objPart Obj.schedClFenced Obj.cfgUnitMap ob; omega)]
theorem size_schedClFenced (n : Nat) : objSize (objPart (Obj.schedClFenced n)) = 1 :=
  (by decide : ∀ m : Fin 16, objSize (objPart (ob (0x4100 + m.val) 0x0A)) = 1) ⟨n % 16, Nat.mod_lt _ (by decide)⟩
/-- `SCHED.CL_FENCED` names the cluster's first fenced core. -/
theorem faultFence_first (hcore : core < 256) (hnone : s.fencedIn (clusterOf core) = []) :
    (faultFence s core).reg (Obj.schedClFenced (clusterOf core)) = core % 16 := by
  have hone : ((mapSet s core).fencedIn (clusterOf core)).length ≠ 2 := by
    rw [mapSet_fencedIn, fencedIn_map hcore hnone, List.length_singleton]
    decide
  rw [faultFence_eq, raise_reg _ _ _ _ _ _ (by rw [page_schedClFenced]; decide), fencedOut, if_neg hone, mapSet, refreshFenced,
    fencedIn_map hcore hnone]
  exact setReg_reg_fits _ (Nat.lt_of_lt_of_le (Nat.mod_lt core (by decide)) (by rw [size_schedClFenced]; decide))

end

/-! ### A core fault -/

section
variable {s : State} {core : Nat} (hcore : core < 256)

/-- A core already fenced, or waiting for its fence, has no fault to take. -/
theorem coreFault_of_fenced (h : s.coreFenced core = true ∨ core ∈ s.mgt.faults) : coreFault s core = s :=
  if_pos (by rcases h with h | h <;> simp [h])
theorem coreFault_restarting (hfree : s.coreFenced core = false) (hwait : core ∉ s.mgt.faults) (hwarm : s.mgt.restarting = true) :
    coreFault s core = (faultStop s core).withMgt { (faultStop s core).mgt with faults := (faultStop s core).mgt.faults ++ [core] } := by
  unfold coreFault
  rw [if_neg (by simp [hfree, hwait])]
  exact if_pos (by rw [faultStop_mgt, hwarm])
theorem coreFault_running (hfree : s.coreFenced core = false) (hwait : core ∉ s.mgt.faults) (hwarm : s.mgt.restarting = false) :
    coreFault s core = faultFence (faultStop s core) core := by
  unfold coreFault
  rw [if_neg (by simp [hfree, hwait])]
  exact if_neg (by rw [faultStop_mgt, hwarm]; decide)

include hcore
/-- The fault taken at once (R375). -/
theorem coreTaken_of_faultFence : CoreTaken s (faultFence (faultStop s core) core) core := by
  have hempty := faultFence_empty (faultStop s core) core (faultStop_empty s core)
  refine ⟨?_, ?_, faultFence_map _ core hcore, ?_, ?_, hempty.2, fun hnone => faultFence_first hcore ?_⟩
  · have hafter := ((faultStop_records s core).trans (fencedOut_records (faultStop s core) core)).trans (.raise _ 0x8A11 .degrade (uCore core) noPos)
    exact (KeepsRecords.refl s).reports hafter (by decide)
  · have hbefore := ((KeepsRecords.raise s 0x8A10 .stepAbort (uCore core) noPos).trans (faultStop_records s core)).trans
      (fencedOut_records (faultStop s core) core)
    exact hbefore.reports (.refl _) (by decide)
  · rw [(faultFence_doms _ core).domState, faultStop_domState s core hcore]
  · exact List.filter_eq_nil_iff.mpr fun i _ => by simp [hempty.1 i]
  · rw [← hnone]
    unfold State.fencedIn State.coreFenced State.corePresent State.mapBit
    rw [faultStop_reg s core Obj.resFencedMap (.inl page_resFencedMap), faultStop_reg s core Obj.cfgUnitMap (.inr page_cfgUnitMap)]
/-- The fault during a warm restart (R448). -/
theorem coreStopped_of_restarting (hfree : s.coreFenced core = false) (hwait : core ∉ s.mgt.faults) (hwarm : s.mgt.restarting = true) :
    CoreStopped s (coreFault s core) core := by
  have hempty := faultStop_empty s core
  rw [coreFault_restarting hfree hwait hwarm]
  refine ⟨?_, faultStop_reg s core Obj.resFencedMap (.inl page_resFencedMap), ?_, faultStop_domState s core hcore, ?_, hempty.2⟩
  · exact ((KeepsRecords.refl s).reports (faultStop_records s core) (by decide)).then rfl
  · rw [withMgt_mgt, faultStop_mgt]
  · exact List.filter_eq_nil_iff.mpr fun i _ => by
      have := hempty.1 i
      simpa using this

end

/-- What a taken core fault says is said of the state that answers the request too. -/
theorem CoreTaken.answered {s u : State} {core : Nat} (h : CoreTaken s u core) (b : Nat) (q : Req) (op obj : Nat) :
    CoreTaken s (answered b q op obj (Ans.ok u)) core := by
  obtain ⟨hstop, hfence, hmap, hdom, harmed, hpackets, hfirst⟩ := h
  have hreg {k : Nat} (hk : page k ≠ 0x14) : (Machine.answered b q op obj (Ans.ok u)).reg k = u.reg k :=
    answered_reg _ _ _ _ _ (ne_of_apply_ne page (by rwa [page_mgtRequests]))
  refine ⟨hstop.then rfl, hfence.then rfl, ?_, ?_, harmed, hpackets, fun hnone => ?_⟩
  · rw [hreg (by decide)]; exact hmap
  · have hdoms : DomsKept u (Machine.answered b q op obj (Ans.ok u)) := fun id => hreg (by rw [page_pwrDom id page_pwrDomState]; decide)
    rw [hdoms.domState, hdom]
  · rw [hreg (by rw [page_schedClFenced]; decide)]
    exact hfirst hnone
/-- A write taken in a device that is not in its warm restart. -/
theorem not_restarting_of_takesWrite {s : State} {q : Req} {obj : Nat} (h : s.takesWrite q obj = true) : s.mgt.restarting = false := by
  simp only [State.takesWrite, State.takes, State.serving, Bool.and_eq_true, Bool.not_eq_true'] at h
  obtain ⟨⟨⟨⟨⟨⟨-, hwarm⟩, -⟩, -⟩, -⟩, -⟩, -⟩ := h
  exact hwarm
/-- A hang that is one is a core fault. -/
theorem execCoreHangTimeout_hangs {s : State} {core : Fin 256} (hrun : s.running = true) (hready : headReady s core = true)
    (hbeat : hangBeat s core ≤ s.beat) : execCoreHangTimeout core s = .next (coreFault s core) := if_neg (by simp [hrun, hready, hbeat])

/-- Settles O25: the fault's steps one after another; what each records fits the log, and none brings back what an earlier one ended. -/
theorem coreFaultCompletes : Obligations.CoreFaultCompletes := by
  intro s
  refine ⟨fun q v hq hv => ⟨fun hfree hwait => ?_, fun hno => ?_⟩, fun q v hq hv => ?_,
    fun core => ⟨fun hrun hready hbeat hfree hwait => ⟨fun hwarm => ?_, fun hwarm => ?_⟩, fun hno => ?_⟩⟩
  · refine leads_write (f := resFenceReqWrite v.toNat) rfl hq ?_
    have hans : resFenceReqWrite v.toNat s = Ans.ok (faultFence (faultStop s v.toNat) v.toNat) :=
      (if_neg (by omega)).trans (congrArg Ans.ok (coreFault_running hfree hwait (not_restarting_of_takesWrite hq)))
    rw [hans]
    exact ⟨(coreTaken_of_faultFence hv).answered .., answered_answers ..⟩
  · refine leads_write (f := resFenceReqWrite v.toNat) rfl hq ?_
    have hans : resFenceReqWrite v.toNat s = Ans.ok s := (if_neg (by omega)).trans (congrArg Ans.ok (coreFault_of_fenced hno))
    rw [hans]
    exact ⟨answered_reg _ _ _ _ _ (by decide), rfl, rfl, answered_answers ..⟩
  · refine leads_write (f := resFenceReqWrite v.toNat) rfl hq ?_
    have hans : resFenceReqWrite v.toNat s = Ans.refuse stRange s := if_pos hv
    rw [hans]
    exact ⟨answered_answers .., answered_reg _ _ _ _ _ (by decide)⟩
  · refine ⟨_, execCoreHangTimeout_hangs hrun hready hbeat, ?_⟩
    rw [coreFault_running hfree hwait hwarm]
    exact coreTaken_of_faultFence core.isLt
  · exact ⟨_, execCoreHangTimeout_hangs hrun hready hbeat, coreStopped_of_restarting core.isLt hfree hwait hwarm⟩
  · by_cases hhang : s.running = true ∧ headReady s core = true ∧ hangBeat s core ≤ s.beat
    · obtain ⟨hrun, hready, hbeat⟩ := hhang
      have hfenced : s.coreFenced core = true ∨ core.val ∈ s.mgt.faults := by
        rcases hno with h | h | h | h | h
        · rw [hrun] at h; exact absurd h (by decide)
        · rw [hready] at h; exact absurd h (by decide)
        · omega
        · exact .inl h
        · exact .inr h
      exact ⟨_, execCoreHangTimeout_hangs hrun hready hbeat, coreFault_of_fenced hfenced⟩
    · have hstay : execCoreHangTimeout core s = .next s := if_pos (by
        simp only [not_and, Nat.not_le] at hhang
        cases hrun : s.running <;> cases hready : headReady s core <;> simp_all)
      exact ⟨_, hstay, rfl⟩

end Sys2Proof.Machine
end

section
/-! Requests on power domains and their transitions (R403–R405, R407). -/

namespace Sys2Proof.Machine

/-! ### Answers -/

theorem answered_reg_of_page {b : Nat} {q : Req} {op obj : Nat} {a : Ans} {k : Nat} (hk : page k ≠ 0x14) :
    (answered b q op obj a).reg k = a.st.reg k := answered_reg _ _ _ _ _ (ne_of_apply_ne page (by rwa [page_mgtRequests]))
theorem DomsKept.answered (b : Nat) (q : Req) (op obj : Nat) (a : Ans) : DomsKept a.st (answered b q op obj a) := fun id =>
  answered_reg_of_page (by rw [page_pwrDom id page_pwrDomState]; decide)

/-! ### A request refused (R404) -/

/-- The objects of a domain that a refused request sets. -/
def refuseObjects : List Nat := [Obj.pwrDomRefused, Obj.pwrDomLastRefuser]

section
variable (s : State) (id : Nat) {r : Nat}

theorem domRefuse_reg {k : Nat} (hpage : page k ≠ 0x23) (hk : objPart k ∉ refuseObjects) : (domRefuse s id r).reg k = s.reg k := by
  simp only [refuseObjects, List.mem_cons, List.not_mem_nil, or_false, not_or] at hk
  obtain ⟨hrefused, hlast⟩ := hk
  rw [domRefuse, raise_reg _ _ _ _ _ _ hpage, setReg_reg_of_obj _ _ (by rwa [objPart_unit]), bump_reg_of_obj _ _ (by rwa [objPart_unit])]
theorem domRefuse_unit {a : Nat} (ha : page a = 0x21) (hk : objPart a ∉ refuseObjects) :
    (domRefuse s id r).reg (ofUnit a id) = s.reg (ofUnit a id) :=
  domRefuse_reg s id (by rw [page_pwrDom id ha]; decide) (by rwa [objPart_unit])
theorem domRefuse_lastRefuser (hr : r < 256) : (domRefuse s id r).reg (ofUnit Obj.pwrDomLastRefuser id) = r := by
  rw [domRefuse, raise_reg _ _ _ _ _ _ (by rw [page_pwrDom id page_pwrDomLastRefuser]; decide), setUnit_reg_self]
  exact Nat.mod_eq_of_lt hr
theorem domRefuse_refused : (domRefuse s id r).reg (ofUnit Obj.pwrDomRefused id) = min (s.reg (ofUnit Obj.pwrDomRefused id) + 1) (2 ^ 32 - 1) := by
  rw [domRefuse, raise_reg _ _ _ _ _ _ (by rw [page_pwrDom id page_pwrDomRefused]; decide), setUnit_reg_of_obj _ _ _ _ (by decide),
    bumpUnit_reg_self]
  rfl
theorem domRefuse_reports : Reports s (domRefuse s id r) 0x2A10 .note (uDomain id) := by
  rw [domRefuse]
  exact (raise_reports ((s.bump (ofUnit Obj.pwrDomRefused id) 1).setReg (ofUnit Obj.pwrDomLastRefuser id) r) 0x2A10 .note (uDomain id) r).of_same
    ((setReg_log ..).trans (bump_log ..)) ((setReg_counter ..).trans (bump_counter ..))
theorem domRefuse_doms : DomsKept s (domRefuse s id r) := fun j =>
  domRefuse_reg s id (by rw [page_pwrDom j page_pwrDomState]; decide) (by rw [objPart_unit]; decide)

end

/-- The refuser ids of R405. -/
theorem refuser_lt_of_mem_refusesOff {s : State} {id r : Nat} (h : r ∈ refusesOff s id) : r < 256 := by
  simp only [refusesOff, List.mem_append, List.mem_ite_nil_right, List.mem_singleton] at h
  rcases h with ((((⟨-, rfl⟩ | ⟨-, rfl⟩) | ⟨-, rfl⟩) | ⟨-, rfl⟩) | ⟨-, rfl⟩) | ⟨-, rfl⟩ <;> decide
theorem refuser_lt_of_mem_refusesOn {s : State} {id r : Nat} (h : r ∈ refusesOn s id) : r < 256 := by
  unfold refusesOn at h
  cases hp : parentOf id with
  | none =>
    rw [hp] at h
    simp only [List.mem_append, List.mem_ite_nil_right, List.mem_singleton, List.not_mem_nil, or_false] at h
    rcases h with (⟨-, rfl⟩ | ⟨-, rfl⟩) | ⟨-, rfl⟩ <;> decide
  | some p =>
    rw [hp] at h
    simp only [List.mem_append, List.mem_ite_nil_right, List.mem_ite_nil_left, List.mem_singleton] at h
    rcases h with ((⟨-, rfl⟩ | ⟨-, rfl⟩) | ⟨-, rfl⟩) | ⟨-, rfl⟩ <;> decide

section
variable {s : State} {id v r : Nat}

/-- A request for a state of a domain that it has (R404): 1 only with RETENTION. -/
def asksState (id v : Nat) : Bool := isDomain id && id != domAlwaysOn && decide (v ≤ 2) && !(v == 1 && !hasRetention id)
theorem domRefusal_of_asks (h : asksState id v = true) : domRefusal s id v =
    (if s.domState id = dsOn ∧ v ≠ dsOn then refusesOff s id
     else if s.domState id ≠ dsOn ∧ (v = dsOn ∨ (v = dsRetention ∧ s.domState id = dsOff)) then refusesOn s id else []).head? := by
  simp only [asksState, Bool.and_eq_true, bne_iff_ne, decide_eq_true_eq, Bool.not_eq_true'] at h
  obtain ⟨⟨⟨hdom, hon⟩, hv⟩, hret⟩ := h
  exact if_neg (by simp [hdom, hon, hv, hret])
theorem domRefusal_of_not_asks (h : asksState id v = false) : domRefusal s id v = some rfRange := by
  refine if_pos ?_
  simp only [asksState, Bool.and_eq_false_iff, Bool.not_eq_false', bne_eq_false_iff_eq, decide_eq_false_iff_not, Nat.not_le] at h
  rcases h with ((h | h) | h) | h <;> simp [h]
theorem asks_of_domRefusal_none (h : domRefusal s id v = none) : asksState id v = true := by
  cases hasks : asksState id v with
  | true => rfl
  | false => rw [domRefusal_of_not_asks hasks] at h; cases h
theorem asksState_bounds (h : asksState id v = true) : id ≠ domAlwaysOn ∧ v ≤ 2 := by
  simp only [asksState, Bool.and_eq_true, bne_iff_ne, decide_eq_true_eq] at h
  obtain ⟨⟨⟨-, hon⟩, hv⟩, -⟩ := h
  exact ⟨hon, hv⟩
theorem refuser_lt_of_domRefusal (h : domRefusal s id v = some r) : r < 256 := by
  cases hasks : asksState id v with
  | false =>
    rw [domRefusal_of_not_asks hasks] at h
    cases h; decide
  | true =>
    rw [domRefusal_of_asks hasks] at h
    have hmem := List.mem_of_mem_head? h
    split at hmem
    · exact refuser_lt_of_mem_refusesOff hmem
    · split at hmem
      · exact refuser_lt_of_mem_refusesOn hmem
      · cases hmem

/-! ### A request taken, refused and held -/

theorem domainReqWrite_starts (hsel : s.reg Obj.pwrDomSel = id) (hfree : s.transition id = none) (hok : domRefusal s id v = none) :
    domainReqWrite v s = Ans.ok (domStart s id v) := by
  subst hsel
  unfold domainReqWrite domRequest
  dsimp only
  rw [hfree, hok]
  rfl
theorem domainReqWrite_refused (hsel : s.reg Obj.pwrDomSel = id) (hfree : s.transition id = none) (hno : domRefusal s id v = some r) :
    domainReqWrite v s = Ans.refuse (refuserStatus r) (domRefuse s id r) := by
  subst hsel
  unfold domainReqWrite domRequest
  dsimp only
  rw [hfree, hno]
  rfl
theorem domainReqWrite_holds (hsel : s.reg Obj.pwrDomSel = id) {x : Nat × Nat} (hbusy : s.transition id = some x) :
    domainReqWrite v s = Ans.ok (s.withPower { s.power with held := smSet (fun _ => none) s.power.held id (some v) }) := by
  subst hsel
  unfold domainReqWrite
  dsimp only
  rw [hbusy]
  rfl

/-- The states between two others (R404). -/
def stateTo (s : State) (id v : Nat) : Nat := if s.domState id = dsOn ∨ v = dsOff then dsLeaving else dsEntering
theorem domStart_moves_on (h : s.domState id ≠ v) : domStart s id v = ((s.setReg (ofUnit Obj.pwrDomReq id) v).withPower
    { s.power with trans := smSet dTrans s.power.trans id (s.domState id, v) }).setDom id (stateTo s id v) := if_neg h
theorem stateTo_between (s : State) (id v : Nat) : stateTo s id v = dsEntering ∨ stateTo s id v = dsLeaving := by
  unfold stateTo
  split
  · exact .inr rfl
  · exact .inl rfl
theorem domStart_domState (hid : id ≠ domAlwaysOn) (h : s.domState id ≠ v) : (domStart s id v).domState id = stateTo s id v := by
  rw [domStart_moves_on h, setDom_domState _ _ hid]
  rcases stateTo_between s id v with he | he <;> rw [he] <;> rfl
theorem domStart_transition (hid : id ≠ domAlwaysOn) (h : s.domState id ≠ v) : (domStart s id v).transition id = some (s.domState id, v) := by
  have hbetween : (domStart s id v).domState id = dsEntering ∨ (domStart s id v).domState id = dsLeaving := by
    rw [domStart_domState hid h]
    exact stateTo_between s id v
  unfold State.transition
  rw [if_pos hbetween, domStart_moves_on h]
  exact congrArg some ((smGet_set ..).trans (if_pos rfl))
theorem domStart_req (hv : v < 256) (h : s.domState id ≠ v) : (domStart s id v).reg (ofUnit Obj.pwrDomReq id) = v := by
  rw [domStart_moves_on h, State.setDom, setUnit_reg_of_obj _ _ _ _ (by decide), withPower_reg, setUnit_reg_self]
  exact Nat.mod_eq_of_lt hv
theorem transition_congr {t : State} (hdoms : DomsKept s t) (hpower : t.power.trans = s.power.trans) : t.transition id = s.transition id := by
  unfold State.transition
  rw [hdoms.domState, hpower]
/-- A domain in transition is not the always-on one. -/
theorem ne_alwaysOn_of_transition {x : Nat × Nat} (h : s.transition id = some x) : id ≠ domAlwaysOn := by
  rintro rfl
  simp [State.transition, State.domState, dsOn, dsEntering, dsLeaving] at h
theorem transition_none_of_settled (h : s.domState id ≤ 2) : s.transition id = none :=
  if_neg (by unfold dsEntering dsLeaving; omega)

/-! ### A transition ends (R403, R404) -/

/-- The power state is as before but for bias. -/
def PowerKept (s t : State) : Prop := ∃ b, t.power = { s.power with bias := b }
theorem PowerKept.trans {s t u : State} (h : PowerKept s t) (h' : PowerKept t u) : PowerKept s u := by
  obtain ⟨b, hb⟩ := h
  obtain ⟨b', hb'⟩ := h'
  exact ⟨b', by rw [hb', hb]⟩
theorem PowerKept.of_eq {s t : State} (h : t.power = s.power) : PowerKept s t := ⟨s.power.bias, h⟩
theorem PowerKept.held {s t : State} (h : PowerKept s t) : t.power.held = s.power.held := by obtain ⟨b, hb⟩ := h; rw [hb]
theorem setBias_power (s : State) (id v : Nat) : PowerKept s (setBias s id v) := by
  obtain ⟨b, hb⟩ := setBias_set s id v
  exact ⟨b, by rw [hb]; rfl⟩
theorem PowerKept.setReg (s : State) (k v : Nat) : PowerKept s (s.setReg k v) := .of_eq (setReg_power ..)
theorem enterOn_power (s : State) (id : Nat) : PowerKept s (enterOn s id) := by
  unfold enterOn
  split
  · exact (PowerKept.setReg s _ _).trans (PaceMoved.refreshFreq _ id).power
  · split
    · exact .setReg s _ _
    · split
      · exact .setReg s _ _
      · exact .of_eq rfl
theorem leftOn_power (s : State) (id v : Nat) : PowerKept s (leftOn s id v) := by
  unfold leftOn
  split
  · split
    · exact ((PowerKept.setReg s _ _).trans (.setReg _ _ _)).trans (setBias_power _ id _)
    · exact ((PowerKept.setReg s _ _).trans (.setReg _ _ _)).trans (setBias_power _ id 0)
  · exact .of_eq rfl
theorem domArrive_power (s : State) (id v : Nat) : PowerKept s (domArrive s id v) := by
  unfold domArrive
  extract_lets u
  have hu : PowerKept s u := .setReg s _ _
  split
  · exact hu.trans (enterOn_power u id)
  · split
    · exact (hu.trans (.of_eq ((loseContents_moves u id (.refl _ u) (Sub.refl _)).same .power (by decide)))).trans (leftOn_power _ id v)
    · exact hu.trans (leftOn_power u id v)

theorem checkHeld_of_none (h : smGet (fun _ => none) s.power.held id = none) :
    checkHeld s id = s.withPower { s.power with held := smErase s.power.held id, trans := smErase s.power.trans id } := by
  unfold checkHeld
  dsimp only
  rw [h]
theorem bootNext_elsewhere (h : s.reg Obj.bootStage ≠ 5) : bootNext s = s := if_pos h
theorem domArrive_bootStage (s : State) (id v : Nat) : (domArrive s id v).reg Obj.bootStage = s.reg Obj.bootStage :=
  (domArrive_moves s id v (.refl _ s) (Sub.refl _)).reg Obj.bootStage (by decide)

/-- The state at the end of a transition with no request held, outside boot stage 5. -/
def transitionEnded (s : State) (id v : Nat) : State :=
  let u := pstSettle (domArrive s id v) id
  u.withPower { u.power with held := smErase u.power.held id, trans := smErase u.power.trans id }
theorem execDomainTransitionDone_ends {s : State} {id : BitVec 9} {a v : Nat} (htrans : s.transition id.toNat = some (a, v))
    (hheld : smGet (fun _ => none) s.power.held id.toNat = none) (hstage : s.reg Obj.bootStage ≠ 5) :
    execDomainTransitionDone id s = .next (transitionEnded s id.toNat v) := by
  have hpace := PaceMoved.pstSettle (domArrive s id.toNat v) id.toNat
  have hnone : smGet (fun _ => none) (pstSettle (domArrive s id.toNat v) id.toNat).power.held id.toNat = none := by
    rw [hpace.held, (domArrive_power s id.toNat v).held, hheld]
  have hboot : (transitionEnded s id.toNat v).reg Obj.bootStage ≠ 5 := by
    change (pstSettle (domArrive s id.toNat v) id.toNat).reg Obj.bootStage ≠ 5
    rw [hpace.reg _ (by decide) (by decide), domArrive_bootStage]
    exact hstage
  unfold execDomainTransitionDone
  rw [htrans]
  dsimp only
  rw [checkHeld_of_none hnone]
  exact congrArg Host.Outcome.next (bootNext_elsewhere hboot)
theorem transitionEnded_domState (hid : id ≠ domAlwaysOn) (hv : v ≤ 2) : (transitionEnded s id v).domState id = v := by
  change (pstSettle (domArrive s id v) id).domState id = v
  rw [(PaceMoved.pstSettle _ id).doms.domState, domArrive_domState s hid (by omega)]

end

end Sys2Proof.Machine
end

section
/-! Settling the requests on power domains, their transitions, the memory that OFF loses, and the domains a role keeps ON. -/

namespace Sys2Proof.Machine

/-! ### A transition aborted (R404) -/

section
variable {s : State} {id v r : Nat}

/-- A domain back in ON, the abort counted, before its event. -/
def abortNoted (s : State) (id r : Nat) : State :=
  ((s.setDom id dsOn).bump (ofUnit Obj.pwrDomAborted id) 1).setReg (ofUnit Obj.pwrDomLastRefuser id) r
theorem abortNoted_values (hid : id ≠ domAlwaysOn) (hr : r < 256) : (abortNoted s id r).domState id = dsOn ∧
    (abortNoted s id r).reg (ofUnit Obj.pwrDomLastRefuser id) = r ∧
    (abortNoted s id r).reg (ofUnit Obj.pwrDomAborted id) = min (s.reg (ofUnit Obj.pwrDomAborted id) + 1) (2 ^ 32 - 1) := by
  have hdoms : DomsKept (s.setDom id dsOn) (abortNoted s id r) :=
    (DomsKept.setUnit _ id _ (by decide)).trans (.setUnit _ id r (by decide))
  refine ⟨?_, ?_, ?_⟩
  · rw [hdoms.domState, setDom_domState s dsOn hid]; rfl
  · rw [abortNoted, setUnit_reg_self]
    exact Nat.mod_eq_of_lt hr
  · rw [abortNoted, setUnit_reg_of_obj _ _ _ _ (by decide), bumpUnit_reg_self, State.setDom, setUnit_reg_of_obj _ _ _ _ (by decide)]
    rfl
theorem abortNoted_log : (abortNoted s id r).log = s.log ∧ (abortNoted s id r).counter = s.counter := by
  unfold abortNoted State.setDom
  exact ⟨by rw [setReg_log, bump_log, setReg_log], by rw [setReg_counter, bump_counter, setReg_counter]⟩
/-- The state at the end of an abort with no request held. -/
def transitionAborted (s : State) (id r : Nat) : State :=
  let u := pstSettle (raise (abortNoted s id r) 0x2A11 .note (uDomain id)) id
  u.withPower { u.power with held := smErase u.power.held id, trans := smErase u.power.trans id }
theorem execDomainTransitionAbort_aborts {s : State} {id : BitVec 9} (htrans : s.transition id.toNat = some (2, v)) (hv : v ≠ 2)
    (hr : (refusesOff s id.toNat).head? = some r) (hheld : smGet (fun _ => none) s.power.held id.toNat = none) :
    execDomainTransitionAbort id s = .next (transitionAborted s id.toNat r) := by
  have hpace := PaceMoved.pstSettle (raise (abortNoted s id.toNat r) 0x2A11 .note (uDomain id.toNat)) id.toNat
  have hpower : PowerKept s (abortNoted s id.toNat r) := (PowerKept.setReg s _ _).trans ((PowerKept.setReg _ _ _).trans (.setReg _ _ _))
  have hnone : smGet (fun _ => none)
      (pstSettle (raise (abortNoted s id.toNat r) 0x2A11 .note (uDomain id.toNat)) id.toNat).power.held id.toNat = none := by
    rw [hpace.held, raise_power, hpower.held, hheld]
  unfold execDomainTransitionAbort
  rw [htrans, hr]
  refine (if_neg hv).trans ?_
  exact congrArg Host.Outcome.next (checkHeld_of_none hnone)
/-- The event of a table that applies at the end of a transition is one more. -/
theorem pstSettle_records (s : State) (id : Nat) : KeepsRecords 1 s (pstSettle s id) := by
  have hrefresh (u : State) : KeepsRecords 0 u (refreshFollowers u id) :=
    .of_moves (refreshFollowers_moves u id (.refl _ u) (Sub.refl _)) (by decide) (by decide)
  have hadjust (t : TableRec) : KeepsRecords 1 s (pstAdjust s t id) := by
    unfold pstAdjust
    refine KeepsRecords.trans (b := 0) (.ite (fun _ => .quiet rfl rfl) fun _ => ?_) (hrefresh _)
    dsimp only
    split
    · exact .then_raise (setReg_log ..) (setReg_counter ..) _ _ _ _
    · exact .then_raise ((setReg_log ..).trans (setReg_log ..)) ((setReg_counter ..).trans (setReg_counter ..)) _ _ _ _
  unfold pstSettle
  refine .ite (fun _ => ?_) fun _ => .quiet rfl rfl
  split
  · exact hadjust _
  · exact .quiet rfl rfl
theorem transitionAborted_values (hid : id ≠ domAlwaysOn) (hr : r < 256) : (transitionAborted s id r).domState id = dsOn ∧
    (transitionAborted s id r).reg (ofUnit Obj.pwrDomLastRefuser id) = r ∧
    (transitionAborted s id r).reg (ofUnit Obj.pwrDomAborted id) = min (s.reg (ofUnit Obj.pwrDomAborted id) + 1) (2 ^ 32 - 1) ∧
    Reports s (transitionAborted s id r) 0x2A11 .note (uDomain id) := by
  obtain ⟨hstate, hlast, haborted⟩ := abortNoted_values (s := s) hid hr
  have hpace := PaceMoved.pstSettle (raise (abortNoted s id r) 0x2A11 .note (uDomain id)) id
  have hunit {a : Nat} (hobj : objPart a ∉ paceObjects) (hpage : page a = 0x21) :
      (transitionAborted s id r).reg (ofUnit a id) = (abortNoted s id r).reg (ofUnit a id) :=
    (hpace.reg _ (by rwa [objPart_unit]) (by rw [page_pwrDom id hpage]; decide)).trans
      (raise_reg _ _ _ _ _ _ (by rw [page_pwrDom id hpage]; decide))
  refine ⟨?_, (hunit (by decide) page_pwrDomLastRefuser).trans hlast, (hunit (by decide) page_pwrDomAborted).trans haborted, ?_⟩
  · have hdoms : DomsKept (abortNoted s id r) (transitionAborted s id r) := (DomsKept.raise _ _ _ _ _).trans hpace.doms
    rw [hdoms.domState, hstate]
  · have hbefore : KeepsRecords 0 s (abortNoted s id r) := .of_same abortNoted_log.1 abortNoted_log.2
    have hafter : KeepsRecords 1 (raise (abortNoted s id r) 0x2A11 .note (uDomain id)) (transitionAborted s id r) :=
      (pstSettle_records _ id).trans (b := 0) (.of_same rfl rfl)
    exact hbefore.reports hafter (by decide)

end

/-- Settles O11: a request is taken, refused or held by its checks, and a transition's end sets the domain's state before what follows. -/
theorem domainCommandsComplete : Obligations.DomainCommandsComplete := by
  intro s
  refine ⟨fun q v id hq hsel hfree hok hne => ?_, fun q v id r hq hsel hfree hno => ?_, fun q v id x hq hsel hbusy => ?_,
    fun id a v htrans hv hheld hstage => ?_, fun id v r htrans hv hr hheld => ?_⟩
  · obtain ⟨hid, hv⟩ := asksState_bounds (asks_of_domRefusal_none hok)
    refine leads_write (f := domainReqWrite v.toNat) rfl hq ?_
    rw [domainReqWrite_starts hsel hfree hok]
    have hdoms := DomsKept.answered s.beat q 2 Obj.pwrDomReq (Ans.ok (domStart s id v.toNat))
    refine ⟨?_, ?_, ?_, answered_answers ..⟩
    · rw [hdoms.domState]; exact domStart_domState hid hne
    · rw [transition_congr hdoms rfl]; exact domStart_transition hid hne
    · rw [answered_reg_of_page (by rw [page_pwrDom id page_pwrDomReq]; decide)]
      exact domStart_req v.isLt hne
  · refine leads_write (f := domainReqWrite v.toNat) rfl hq ?_
    rw [domainReqWrite_refused hsel hfree hno]
    have hdoms := DomsKept.answered s.beat q 2 Obj.pwrDomReq (Ans.refuse (refuserStatus r) (domRefuse s id r))
    refine ⟨?_, ?_, ?_, ?_, answered_answers .., (domRefuse_reports s id).then rfl⟩
    · rw [hdoms.domState]; exact (domRefuse_doms s id).domState id
    · rw [answered_reg_of_page (by rw [page_pwrDom id page_pwrDomReq]; decide)]
      exact domRefuse_unit s id page_pwrDomReq (by decide)
    · rw [answered_reg_of_page (by rw [page_pwrDom id page_pwrDomLastRefuser]; decide)]
      exact domRefuse_lastRefuser s id (refuser_lt_of_domRefusal hno)
    · rw [answered_reg_of_page (by rw [page_pwrDom id page_pwrDomRefused]; decide)]
      exact domRefuse_refused s id
  · refine leads_write (f := domainReqWrite v.toNat) rfl hq ?_
    rw [domainReqWrite_holds hsel hbusy]
    have hdoms := DomsKept.answered s.beat q 2 Obj.pwrDomReq
      (Ans.ok (s.withPower { s.power with held := smSet (fun _ => none) s.power.held id (some v.toNat) }))
    have hset : smGet (fun _ => none) (smSet (fun _ => none) s.power.held id (some v.toNat)) id = some v.toNat :=
      (smGet_set ..).trans (if_pos rfl)
    exact ⟨hset, hdoms.domState id, answered_answers ..⟩
  · have hid := ne_alwaysOn_of_transition htrans
    have hstate := transitionEnded_domState (s := s) hid hv
    exact ⟨_, execDomainTransitionDone_ends htrans hheld hstage, hstate, transition_none_of_settled (by rw [hstate]; exact hv)⟩
  · exact ⟨_, execDomainTransitionAbort_aborts htrans hv hr hheld,
      transitionAborted_values (ne_alwaysOn_of_transition htrans) (refuser_lt_of_mem_refusesOff (List.mem_of_mem_head? hr))⟩

/-! ### Contents lost (R403) -/

section
variable {s t : State}

/-- The granules of T0 lie where the retired ways leave them. -/
theorem t0Cell_congr (h : ∀ die, t.reg (Obj.memRetiredC0 + die % 4) = s.reg (Obj.memRetiredC0 + die % 4)) (a : Nat) : t.t0Cell a = s.t0Cell a := by
  unfold State.t0Cell State.retired State.activeWays
  dsimp only
  rw [h]
theorem domHolds_congr (h : ∀ die, t.reg (Obj.memRetiredC0 + die % 4) = s.reg (Obj.memRetiredC0 + die % 4)) (id a : Nat) :
    domHolds t id a = domHolds s id a := by
  unfold domHolds
  rw [t0Cell_congr h]
theorem loseMemory_byte (s : State) (id a : Nat) :
    memByte (loseMemory s id).mem a = if domHolds s id a = true then memDefault a else memByte s.mem a := by
  cases hlost : domHolds s id a with
  | true =>
    refine smGet_of_not_mem memDefault fun p hp he => ?_
    have hkept := (List.mem_filter.mp hp).2
    rw [he, hlost] at hkept
    exact absurd hkept (by decide)
  | false => exact smGet_filter memDefault s.mem.cells fun _ => by rw [hlost]; rfl
/-- A memory domain: a stack of HBM or half of the LPDDR. -/
def isMemory (id : Nat) : Prop := (0x120 ≤ id ∧ id < 0x130) ∨ id = 0x140 ∨ id = 0x141
theorem domArrive_memory {id : Nat} (hid : isMemory id) : domArrive s id dsOff = loseMemory (s.setDom id dsOff) id := by
  have hlose : loseContents (s.setDom id dsOff) id = loseMemory (s.setDom id dsOff) id := by
    unfold loseContents
    rcases hid with ⟨hlow, hhigh⟩ | rfl | rfl
    · rw [if_neg (by omega), if_neg (by omega), if_neg (by omega), if_pos hhigh]
    · rfl
    · rfl
  have hpaced : isPaced id = false := by
    unfold isPaced
    exact decide_eq_false (by rcases hid with h | h | h <;> omega)
  unfold domArrive
  dsimp only
  rw [if_neg (by decide), if_pos rfl, hlose, leftOn, if_neg (by rw [hpaced]; decide)]
theorem pstSettle_memory {id : Nat} (hid : isMemory id) : pstSettle s id = s := by
  refine if_neg ?_
  rw [isDvfs, decide_eq_true_eq]
  rcases hid with h | h | h <;> omega

end

/-- Settles O12: the filter of the domain's addresses is all that reaches memory. -/
theorem offLosesMemory : Obligations.OffLosesMemory := by
  intro s id a htrans hid hheld hstage
  refine ⟨_, execDomainTransitionDone_ends htrans hheld hstage, fun b => ?_⟩
  change memByte (pstSettle (domArrive s id.toNat dsOff) id.toNat).mem b = _
  have hkept : ∀ die, (s.setDom id.toNat dsOff).reg (Obj.memRetiredC0 + die % 4) = s.reg (Obj.memRetiredC0 + die % 4) := fun die =>
    setUnit_reg_of_plain s _ _ (by unfold objPart Obj.memRetiredC0 Obj.pwrDomState ob; omega)
  rw [pstSettle_memory hid, domArrive_memory hid, loseMemory_byte, domHolds_congr hkept,
    show (s.setDom id.toNat dsOff).mem = s.mem from setReg_mem ..]

/-! ### The domains of a role (R407) -/

section
variable {s : State} {cl id : Nat}

/-- A domain that a role needs: the fabric, the SRAM and the unfenced cores of the cluster. -/
def roleNeeds (s : State) (cl id : Nat) : Prop := id = domFabric cl ∨ id = domSram cl ∨
  ∃ n, n < 256 ∧ n / 16 = cl ∧ s.coreFenced n = false ∧ id = domCore n
theorem mem_roleDomains (hcl : cl < 16) : id ∈ roleDomains s cl ↔ roleNeeds s cl id := by
  simp only [roleDomains, roleNeeds, List.mem_append, List.mem_cons, List.not_mem_nil, or_false, List.mem_map, List.mem_filter, mem_coresOf,
    clusterOf, Bool.not_eq_true', or_assoc]
  refine or_congr_right (or_congr_right ⟨fun ⟨n, ⟨hn, hfree⟩, he⟩ => ⟨n, by omega, hn, hfree, he.symm⟩,
    fun ⟨n, _, hn, hfree, he⟩ => ⟨n, ⟨hn, hfree⟩, he.symm⟩⟩)
theorem roleRefused_of_off {r : Nat} (hcl : cl < 16) (hr : r = 1 ∨ r = 2) (hneed : roleNeeds s cl id) (hoff : s.domOn id = false) :
    roleRefused s cl r = true := by
  have hall : (roleDomains s cl).all s.domOn = false := by
    rw [List.all_eq_false]
    exact ⟨id, (mem_roleDomains hcl).mpr hneed, by rw [hoff]; decide⟩
  have hr0 : (r != 0) = true := by rcases hr with rfl | rfl <;> rfl
  simp [roleRefused, hall, hr0]
/-- What a role needs is one of the domains with RETENTION. -/
theorem roleNeeds_lt (hcl : cl < 16) (hneed : roleNeeds s cl id) : id < 0x120 := by
  rcases hneed with rfl | rfl | ⟨n, hn, -, -, hid⟩
  · unfold domFabric; omega
  · unfold domSram; omega
  · unfold domCore at hid; omega
/-- The role keeps the fabric and the cores, and the fabric keeps the SRAM. -/
theorem refusesOff_of_needs (hcl : cl < 16) (hrole : s.role cl ≠ 0) (hon : ∀ i, roleNeeds s cl i → s.domOn i = true) (hneed : roleNeeds s cl id) :
    rfChild ∈ refusesOff s id ∨ rfRole ∈ refusesOff s id := by
  rcases hneed with rfl | rfl | ⟨n, hn, hcln, hfree, hid⟩
  · have hcluster : clusterOfDomain (domFabric cl) = cl := by unfold clusterOfDomain domFabric; rw [if_neg (by omega)]; omega
    have hdvfs : isDvfs (domFabric cl) = true := decide_eq_true (by unfold domFabric; omega)
    have hcore : ¬domFabric cl < 0x100 := by unfold domFabric; omega
    exact .inr (by simp [refusesOff, hcluster, hdvfs, hcore, hrole])
  · have hchild : childrenOf (domSram cl) = [domFabric cl] := by
      unfold childrenOf domSram domFabric
      rw [if_neg (by omega), if_pos (by omega), show 0x110 + cl - 0x10 = 0x100 + cl by omega]
    have hfabric : s.domState (domFabric cl) = dsOn := by simpa [State.domOn] using hon (domFabric cl) (.inl rfl)
    exact .inl (by simp [refusesOff, hchild, hfabric, dsOn])
  · have hcluster : clusterOfDomain n = cl := by unfold clusterOfDomain; rw [if_pos hn]; exact hcln
    have hdvfs : isDvfs n = true := decide_eq_true (by omega)
    rw [hid]
    exact .inr (by simp [refusesOff, domCore, hcluster, hdvfs, hrole, hfree])
theorem refuser_ne_range {r : Nat} (h : r ∈ refusesOff s id) : r ≠ rfRange := by
  simp only [refusesOff, List.mem_append, List.mem_ite_nil_right, List.mem_singleton] at h
  rcases h with ((((⟨-, rfl⟩ | ⟨-, rfl⟩) | ⟨-, rfl⟩) | ⟨-, rfl⟩) | ⟨-, rfl⟩) | ⟨-, rfl⟩ <;> decide
/-- A request to leave ON of a domain that a role needs is refused: STATE for a state that it has, RANGE otherwise. -/
theorem domRefusal_of_needs {v : Nat} (hcl : cl < 16) (hrole : s.role cl ≠ 0) (hon : ∀ i, roleNeeds s cl i → s.domOn i = true)
    (hneed : roleNeeds s cl id) (hv : v ≠ 2) :
    ∃ r, domRefusal s id v = some r ∧ refuserStatus r = if v < 2 then stState else stRange := by
  have hlt := roleNeeds_lt hcl hneed
  have hstate : s.domState id = dsOn := by simpa [State.domOn] using hon id hneed
  by_cases hlow : v < 2
  · have hasks : asksState id v = true := by
      have hdom : isDomain id = true := by simp [isDomain, show id < 0x136 by omega]
      have hret : hasRetention id = true := by simp [hasRetention, show id < 0x130 by omega]
      have hne : id ≠ domAlwaysOn := by unfold domAlwaysOn; omega
      simp [asksState, hdom, hret, hne, show v ≤ 2 by omega]
    rw [domRefusal_of_asks hasks, if_pos ⟨hstate, hv⟩, if_pos hlow]
    cases hlist : refusesOff s id with
    | nil => rcases refusesOff_of_needs hcl hrole hon hneed with h | h <;> rw [hlist] at h <;> cases h
    | cons r rs =>
      have hr : r ≠ rfRange := refuser_ne_range (s := s) (id := id) (by rw [hlist]; exact List.mem_cons_self)
      exact ⟨r, rfl, if_neg hr⟩
  · have hasks : asksState id v = false := by simp [asksState, show ¬v ≤ 2 by omega]
    exact ⟨rfRange, domRefusal_of_not_asks hasks, by rw [if_neg hlow]; rfl⟩

end

/-- Settles O60: the role's domains are what the change of role checks, and the refusal conditions keep each of them ON. -/
theorem roleKeepsDomainsOn : Obligations.RoleKeepsDomainsOn := by
  intro s cl needs
  refine ⟨fun r id hreq hr hb hw hheld hneed hoff => ?_, fun q v id hq hrole hon hneed hsel hv => ?_⟩
  · have hno := roleRefused_of_off cl.isLt hr hneed hoff
    obtain ⟨hrole, -, hnone, hrep⟩ := refuseRole_leads s cl
    exact ⟨_, congrArg Host.Outcome.next ((roleApply_request hreq hb hw hheld).trans (if_pos hno)), hrole, hnone, hrep⟩
  · obtain ⟨r, hrefuse, hstatus⟩ := domRefusal_of_needs cl.isLt hrole hon hneed hv
    have hstate : s.domState id = dsOn := by simpa [State.domOn] using hon id hneed
    have hfree : s.transition id = none := transition_none_of_settled (by rw [hstate]; decide)
    refine leads_write (f := domainReqWrite v.toNat) rfl hq ?_
    rw [domainReqWrite_refused hsel hfree hrefuse, ← hstatus]
    have hdoms := (domRefuse_doms s id (r := r)).trans
      (DomsKept.answered s.beat q 2 Obj.pwrDomReq (Ans.refuse (refuserStatus r) (domRefuse s id r)))
    exact ⟨(hdoms.domOn id).trans (hon id hneed), answered_answers ..⟩

end Sys2Proof.Machine
end

section
/-! Frequency and voltage (R409–R411). -/

namespace Sys2Proof.Machine

/-! ### The frequency that a domain may run at -/

section
variable {s t : State}

/-- The ceilings of a domain are on the supply's and the thermal page, and in the power state. -/
theorem domCeil_congr (hreg : ∀ k, page k = 0x20 → t.reg k = s.reg k) (hthrottle : t.power.throttle = s.power.throttle)
    (hceil : t.power.ceil = s.power.ceil) (id : Nat) : domCeil t id = domCeil s id := by
  unfold domCeil supplyCeil
  rw [hthrottle, hceil]
  simp only [hreg _ (page_pwrThermCeil _), hreg _ page_pwrCapCeil, hreg _ page_pwrSupplyState, hreg _ page_pwrDipFreq]
theorem freqGoal_congr (hreg : ∀ k, page k = 0x20 → t.reg k = s.reg k) (hthrottle : t.power.throttle = s.power.throttle)
    (hceil : t.power.ceil = s.power.ceil) {id : Nat} (hreq : reqFreq t id = reqFreq s id) : freqGoal t id = freqGoal s id := by
  unfold freqGoal
  rw [hreq, domCeil_congr hreg hthrottle hceil]
theorem freqGoal_le_ceil (s : State) (id : Nat) : freqGoal s id ≤ domCeil s (requester id) :=
  (Nat.div_mul_le_self ..).trans (Nat.min_le_right ..)
/-- A domain's object written leaves the objects of the supply's page. -/
theorem setUnit_reg_supply (s : State) {a : Nat} (u v : Nat) (ha : page a = 0x21) : ∀ k, page k = 0x20 → (s.setReg (ofUnit a u) v).reg k = s.reg k :=
  fun _ hk => setReg_reg_of_ne _ _ _ (ne_of_apply_ne page (by rw [hk, page_pwrDom u ha]; decide))

end

section
variable (s : State) {id : Nat}

/-- A frequency refreshed leaves every object but the domain's actual frequency. -/
theorem refreshFreq_reg {k : Nat} (hk : k ≠ ofUnit Obj.pwrDomFreq id) : (refreshFreq s id).reg k = s.reg k := by
  obtain ⟨u, hu, h | h⟩ := refreshFreq_cases s id
  · rw [h, hu.reg]
  · rw [h, setReg_reg_of_ne _ _ _ hk, hu.reg]
theorem refreshFreq_set (hon : s.domOn id = true) (h : freqGoal s id ≤ s.reg (ofUnit Obj.pwrDomFreq id) ∨ voltageHolds s id = true) :
    (refreshFreq s id).reg (ofUnit Obj.pwrDomFreq id) = freqGoal s id % 65536 := by
  obtain ⟨u, -, heq⟩ := refreshFreq_on hon
  rw [heq, if_pos h, setUnit_reg_self]
  rfl
/-- After it is refreshed the frequency is at most what the domain may run at. -/
theorem refreshFreq_le (hon : s.domOn id = true) : (refreshFreq s id).reg (ofUnit Obj.pwrDomFreq id) ≤ freqGoal s id := by
  by_cases h : freqGoal s id ≤ s.reg (ofUnit Obj.pwrDomFreq id) ∨ voltageHolds s id = true
  · rw [refreshFreq_set s hon h]
    exact Nat.mod_le ..
  · obtain ⟨u, hu, heq⟩ := refreshFreq_on hon
    rw [heq, if_neg h, hu.reg]
    omega
theorem refreshFollowers_reg {k : Nat} (hk : objPart k ≠ Obj.pwrDomFreq) : (refreshFollowers s id).reg k = s.reg k := by
  refine forAll_induction (P := fun t => t.reg k = s.reg k) _ _ rfl fun i t ht => (refreshFreq_reg t ?_).trans ht
  exact ne_of_objPart (by rwa [objPart_unit])
/-- A DVFS domain comes first among what follows it. -/
theorem refreshFollowers_self : (refreshFollowers s id).reg (ofUnit Obj.pwrDomFreq id) = (refreshFreq s id).reg (ofUnit Obj.pwrDomFreq id) := by
  unfold refreshFollowers followers
  by_cases h : id < 0x100
  · rw [if_pos h]; rfl
  · rw [if_neg h]
    exact refreshFreq_reg (refreshFreq s id) (ofUnit_ne_of_unit (by omega))

end

/-! ### Requests -/

section
variable {s : State} {id r v : Nat}

theorem isDvfs_of_freqRefusal (h : freqRefusal s id v = none) : id < 0x110 := by
  by_contra hid
  rw [freqRefusal, if_pos (by simp [isDvfs, hid])] at h
  cases h
theorem freqReqWrite_ok (hsel : s.reg Obj.pwrDomSel = id) (hok : freqRefusal s id v = none) :
    freqReqWrite v s = Ans.ok (refreshFollowers (s.setReg (ofUnit Obj.pwrDomFreqReq id) v) id) := by
  subst hsel
  unfold freqReqWrite
  dsimp only
  rw [hok]
theorem freqReqWrite_refused (hsel : s.reg Obj.pwrDomSel = id) (hno : freqRefusal s id v = some r) :
    freqReqWrite v s = Ans.refuse (refuserStatus r) (domRefuse s id r) := by
  subst hsel
  unfold freqReqWrite
  dsimp only
  rw [hno]
theorem voltReqWrite_ok (hsel : s.reg Obj.pwrDomSel = id) (hok : voltRefusal s id v = none) :
    voltReqWrite v s = Ans.ok (s.setReg (ofUnit Obj.pwrDomVoltReq id) v) := by
  subst hsel
  unfold voltReqWrite
  dsimp only
  rw [hok]
theorem voltReqWrite_refused (hsel : s.reg Obj.pwrDomSel = id) (hno : voltRefusal s id v = some r) :
    voltReqWrite v s = Ans.refuse (refuserStatus r) (domRefuse s id r) := by
  subst hsel
  unfold voltReqWrite
  dsimp only
  rw [hno]
theorem refuser_lt_of_freqRefusal (h : freqRefusal s id v = some r) : r < 256 := by
  unfold freqRefusal at h
  repeat' split at h
  all_goals cases h
  all_goals decide
theorem refuser_lt_of_voltRefusal (h : voltRefusal s id v = some r) : r < 256 := by
  unfold voltRefusal at h
  repeat' split at h
  all_goals cases h
  all_goals decide
/-- A refused request of frequency or voltage: counted, recorded, reported and answered, the request as it was (R404). -/
theorem requestRefused_leads {c : Instr} {q : Req} {obj : Nat} {f : State → Ans} (hexec : exec c s = .next (dictWrite s q obj f))
    (hq : s.takesWrite q obj = true) (hans : f s = Ans.refuse (refuserStatus r) (domRefuse s id r)) (hr : r < 256)
    (hpage : page obj = 0x21) (hobj : objPart obj ∉ refuseObjects) :
    Leads c s fun t => t.reg (ofUnit obj id) = s.reg (ofUnit obj id) ∧ t.reg (ofUnit Obj.pwrDomLastRefuser id) = r ∧
      t.reg (ofUnit Obj.pwrDomRefused id) = min (s.reg (ofUnit Obj.pwrDomRefused id) + 1) (2 ^ 32 - 1) ∧
      Reports s t 0x2A10 .note (uDomain id) ∧ Answers t q 2 obj (refuserStatus r) := by
  refine leads_write hexec hq ?_
  rw [hans]
  refine ⟨?_, ?_, ?_, (domRefuse_reports s id).then rfl, answered_answers ..⟩
  · rw [answered_reg_of_page (by rw [page_pwrDom id hpage]; decide)]
    exact domRefuse_unit s id hpage hobj
  · rw [answered_reg_of_page (by rw [page_pwrDom id page_pwrDomLastRefuser]; decide)]
    exact domRefuse_lastRefuser s id hr
  · rw [answered_reg_of_page (by rw [page_pwrDom id page_pwrDomRefused]; decide)]
    exact domRefuse_refused s id
/-- A lower frequency is in force at once (R411). -/
theorem freqRequested_lowers (hid : id < 0x110) (hv : v < 65536) (hon : s.domOn id = true)
    (hle : min v (domCeil s id) / 25 * 25 ≤ s.reg (ofUnit Obj.pwrDomFreq id)) :
    (refreshFollowers (s.setReg (ofUnit Obj.pwrDomFreqReq id) v) id).reg (ofUnit Obj.pwrDomFreq id) = min v (domCeil s id) / 25 * 25 := by
  have hdoms : DomsKept s (s.setReg (ofUnit Obj.pwrDomFreqReq id) v) := .setUnit _ _ _ (by decide)
  have hgoal : freqGoal (s.setReg (ofUnit Obj.pwrDomFreqReq id) v) id = min v (domCeil s id) / 25 * 25 := by
    have hreq : reqFreq (s.setReg (ofUnit Obj.pwrDomFreqReq id) v) id = v := by
      rw [reqFreq, requester, if_pos hid, setUnit_reg_self]
      exact Nat.mod_eq_of_lt hv
    rw [freqGoal, hreq, domCeil_congr (setUnit_reg_supply s _ _ page_pwrDomFreqReq) rfl rfl, requester, if_pos hid]
  have hfits : min v (domCeil s id) / 25 * 25 < 65536 := by omega
  rw [refreshFollowers_self, refreshFreq_set _ ((hdoms.domOn id).trans hon) (.inl ?_), hgoal, Nat.mod_eq_of_lt hfits]
  rw [hgoal, setUnit_reg_of_obj _ _ _ _ (by decide)]
  exact hle

end

/-! ### A voltage that has settled -/

section
variable {s : State} {id : Nat}

/-- The voltage at its request, before the frequency follows. -/
def voltReached (s : State) (id : Nat) : State := s.setReg (ofUnit Obj.pwrDomVolt id) (reqVolt s id)
theorem voltReached_goal (s : State) (id : Nat) : freqGoal (voltReached s id) id = freqGoal s id :=
  freqGoal_congr (setUnit_reg_supply s _ _ page_pwrDomVolt) rfl rfl (setUnit_reg_of_obj _ _ _ _ (by decide))
theorem voltReached_freq (s : State) (id : Nat) : (voltReached s id).reg (ofUnit Obj.pwrDomFreq id) = s.reg (ofUnit Obj.pwrDomFreq id) :=
  setUnit_reg_of_obj _ _ _ _ (by decide)
theorem voltReached_volt (s : State) (id : Nat) : (voltReached s id).reg (ofUnit Obj.pwrDomVolt id) = reqVolt s id % 65536 :=
  setUnit_reg_self ..
theorem voltReached_on (hon : s.domOn id = true) : (voltReached s id).domOn id = true :=
  ((DomsKept.setUnit s id _ (by decide)).domOn id).trans hon
/-- The voltage at its request suffices for the goal where the die's table says so. -/
theorem voltReached_holds {pt : TableRec} {m : Nat} (hpt : s.pst (dieOfDomain id) = some pt) (hm : vreq pt (freqGoal s id) = some m)
    (hle : m ≤ reqVolt s id % 65536) : voltageHolds (voltReached s id) id = true := by
  have hpt' : (voltReached s id).pst (dieOfDomain id) = some pt := hpt
  rw [voltageHolds, voltReached_goal, voltReached_volt, hpt']
  simp [hm, hle]
theorem execDvfsVoltageReached_settles {id : BitVec 9} (hpaced : isPaced id.toNat = true) (hon : s.domOn id.toNat = true)
    (hfall : s.reg (ofUnit Obj.pwrDomVolt id.toNat) ≤ reqVolt s id.toNat ∨ s.reg (ofUnit Obj.pwrDomFreq id.toNat) ≤ reqFreq s id.toNat) :
    execDvfsVoltageReached id s = .next (refreshFreq (voltReached s id.toNat) id.toNat) :=
  (if_neg (by simp [hpaced, hon])).trans (if_neg (by omega))
theorem execDvfsVoltageReached_stays {id : BitVec 9} (h : isPaced id.toNat = false ∨ s.domOn id.toNat = false ∨
    (reqVolt s id.toNat < s.reg (ofUnit Obj.pwrDomVolt id.toNat) ∧ reqFreq s id.toNat < s.reg (ofUnit Obj.pwrDomFreq id.toNat))) :
    execDvfsVoltageReached id s = .next s := by
  rcases h with h | h | h
  · exact if_pos (by simp [h])
  · exact if_pos (by simp [h])
  · by_cases hoff : (!isPaced id.toNat || !s.domOn id.toNat) = true
    · exact if_pos hoff
    · exact (if_neg hoff).trans (if_pos h)

end

/-- Settles O13: a request sets its object and lowers the frequency, and a settled voltage refreshes it. -/
theorem dvfsCommandsComplete : Obligations.DvfsCommandsComplete := by
  intro s
  refine ⟨fun q f id hq hsel hok => ?_, fun q f id r hq hsel hno => ?_, fun q v id hq hsel hok => ?_, fun q v id r hq hsel hno => ?_,
    fun id => ⟨fun hpaced hon hfall => ⟨_, execDvfsVoltageReached_settles hpaced hon hfall, ?_, fun hle => ?_, fun pt m hpt hm hle => ?_⟩,
      fun h => ⟨_, execDvfsVoltageReached_stays h, rfl⟩⟩⟩
  · refine leads_write (f := freqReqWrite f.toNat) rfl hq ?_
    rw [freqReqWrite_ok hsel hok]
    refine ⟨?_, answered_answers .., fun hon hle => ?_⟩
    · rw [answered_reg_of_page (by rw [page_pwrDom id page_pwrDomFreqReq]; decide)]
      refine (refreshFollowers_reg _ (by rw [objPart_unit]; decide)).trans ((setUnit_reg_self ..).trans ?_)
      exact Nat.mod_eq_of_lt f.isLt
    · rw [answered_reg_of_page (by rw [page_pwrDom id page_pwrDomFreq]; decide)]
      exact freqRequested_lowers (isDvfs_of_freqRefusal hok) f.isLt hon hle
  · exact requestRefused_leads (f := freqReqWrite f.toNat) rfl hq (freqReqWrite_refused hsel hno) (refuser_lt_of_freqRefusal hno)
      page_pwrDomFreqReq (by decide)
  · refine leads_write (f := voltReqWrite v.toNat) rfl hq ?_
    rw [voltReqWrite_ok hsel hok]
    refine ⟨?_, answered_answers ..⟩
    rw [answered_reg_of_page (by rw [page_pwrDom id page_pwrDomVoltReq]; decide)]
    exact (setUnit_reg_self ..).trans (Nat.mod_eq_of_lt v.isLt)
  · exact requestRefused_leads (f := voltReqWrite v.toNat) rfl hq (voltReqWrite_refused hsel hno) (refuser_lt_of_voltRefusal hno)
      page_pwrDomVoltReq (by decide)
  · rw [refreshFreq_reg _ (ne_of_objPart (by rw [objPart_unit, objPart_unit]; decide)), voltReached_volt]
  · rw [refreshFreq_set _ (voltReached_on hon) (.inl (by rwa [voltReached_goal, voltReached_freq])), voltReached_goal]
  · rw [refreshFreq_set _ (voltReached_on hon) (.inr (voltReached_holds hpt hm hle)), voltReached_goal]

end Sys2Proof.Machine
end

section
/-! The supply and the power cap (R398–R400, R415). -/

namespace Sys2Proof.Machine

/-! ### Frequencies under a ceiling -/

section
variable {s t : State}

theorem refreshAll_paces (s : State) : PaceMoved s (refreshAll s) := PaceMoved.forAll _ _ s fun id t => PaceMoved.refreshFreq t id
theorem refreshAll_log (s : State) : (refreshAll s).log = s.log ∧ (refreshAll s).counter = s.counter :=
  have h := refreshAll_moves s (.refl _ s) (Sub.refl _)
  ⟨h.same .log (by decide), h.same .counter (by decide)⟩
/-- An object of the supply's page is not a domain's. -/
theorem not_paceObject_of_page {k : Nat} (hk : page k = 0x20) : objPart k ∉ paceObjects ∧ page k ≠ 0x23 := by
  refine ⟨fun h => ?_, by rw [hk]; decide⟩
  simp only [paceObjects, List.mem_cons, List.not_mem_nil, or_false] at h
  unfold page at hk
  unfold objPart Obj.pwrDomFreq Obj.pwrDomFreqReq Obj.pwrDomVoltReq ob at h
  omega
theorem refreshAll_supply (s : State) {k : Nat} (hk : page k = 0x20) : (refreshAll s).reg k = s.reg k :=
  (refreshAll_paces s).reg k (not_paceObject_of_page hk).1 (not_paceObject_of_page hk).2
theorem PaceMoved.domCeil (h : PaceMoved s t) (id : Nat) : domCeil t id = domCeil s id := by
  obtain ⟨b, hb⟩ := h.power
  exact domCeil_congr (fun k hk => h.reg k (not_paceObject_of_page hk).1 (not_paceObject_of_page hk).2) (by rw [hb]) (by rw [hb]) id
/-- A frequency at most a bound stays so where no domain may run above it. -/
theorem refreshFreq_le_kept {B id j : Nat} (hgoal : freqGoal t j ≤ B) (h : t.reg (ofUnit Obj.pwrDomFreq id) ≤ B) :
    (refreshFreq t j).reg (ofUnit Obj.pwrDomFreq id) ≤ B := by
  by_cases hid : id = j
  · subst hid
    cases hon : t.domOn id with
    | false => rw [refreshFreq_off hon]; exact h
    | true => exact (refreshFreq_le t hon).trans hgoal
  · rw [refreshFreq_reg t (ofUnit_ne_of_unit hid)]
    exact h
theorem refreshes_le {B : Nat} (ids : List Nat) (s : State) (hgoal : ∀ t, PaceMoved s t → ∀ j ∈ ids, freqGoal t j ≤ B) {id : Nat} (hid : id ∈ ids)
    (hon : s.domOn id = true) : (forAll ids (fun j t => refreshFreq t j) s).reg (ofUnit Obj.pwrDomFreq id) ≤ B := by
  induction ids generalizing s with
  | nil => cases hid
  | cons j js ih =>
    have hpace := PaceMoved.refreshFreq s j
    have hrest : ∀ t, PaceMoved (refreshFreq s j) t → ∀ i ∈ js, freqGoal t i ≤ B := fun t ht i hi =>
      hgoal t (hpace.trans ht) i (List.mem_cons_of_mem _ hi)
    have hkeeps : ∀ (js' : List Nat) (u : State), (∀ t, PaceMoved u t → ∀ i ∈ js', freqGoal t i ≤ B) → u.reg (ofUnit Obj.pwrDomFreq id) ≤ B →
        (forAll js' (fun j t => refreshFreq t j) u).reg (ofUnit Obj.pwrDomFreq id) ≤ B := by
      intro js' u hbound hu
      induction js' generalizing u with
      | nil => exact hu
      | cons i is ih' =>
        exact ih' (refreshFreq u i) (fun t ht k hk => hbound t ((PaceMoved.refreshFreq u i).trans ht) k (List.mem_cons_of_mem _ hk))
          (refreshFreq_le_kept (hbound u (.refl u) i List.mem_cons_self) hu)
    rcases List.mem_cons.mp hid with rfl | hmem
    · exact hkeeps js _ hrest ((refreshFreq_le s hon).trans (hgoal s (.refl s) id List.mem_cons_self))
    · exact ih _ hrest hmem ((hpace.doms.domOn id).trans hon)
/-- Under a supply ceiling every domain that is ON runs at most at it (R399). -/
theorem refreshAll_le {B id : Nat} (hsupply : supplyCeil s ≤ B) (hid : id < 0x120) (hon : s.domOn id = true) :
    (refreshAll s).reg (ofUnit Obj.pwrDomFreq id) ≤ B := by
  refine refreshes_le _ s (fun t ht j _ => ?_) (List.mem_filter.mpr ⟨List.mem_range.mpr hid, hon⟩) hon
  calc freqGoal t j ≤ domCeil t (requester j) := freqGoal_le_ceil t j
    _ = domCeil s (requester j) := ht.domCeil _
    _ ≤ supplyCeil s := (Nat.min_le_left ..).trans (Nat.min_le_right ..)
    _ ≤ B := hsupply

end

/-! ### The supply -/

section
variable {s : State} {mv : BitVec 17}

theorem noteInput_reg (s : State) (v : Nat) {k : Nat} (hk : k ≠ Obj.pwrInputMv) : (noteInput s v).reg k = s.reg k := setReg_reg_of_ne _ _ _ hk
theorem noteInput_mv (s : State) (mv : BitVec 17) : (noteInput s mv.toNat).reg Obj.pwrInputMv = mv.toNat :=
  setReg_reg_fits _ (Nat.lt_trans mv.isLt (by decide))

theorem execSupplyOutOfRange_first (hrange : inRange mv.toNat = false) (hlow : 46000 < mv.toNat) (hhigh : mv.toNat ≤ 60000)
    (hstate : s.reg Obj.pwrSupplyState = 0) :
    execSupplyOutOfRange mv s = .next (raise ((noteInput s mv.toNat).setReg Obj.pwrSupplyState 1) 0x2A03 .note uDevice) := by
  unfold execSupplyOutOfRange
  dsimp only
  rw [if_neg (by simp [hrange]; omega), if_pos ((noteInput_reg s _ (by decide)).trans hstate)]
theorem execSupplyBackInRange_back (hrange : inRange mv.toNat = true) (hstate : s.reg Obj.pwrSupplyState = 1) :
    execSupplyBackInRange mv s = .next ((noteInput s mv.toNat).setReg Obj.pwrSupplyState 0) := by
  unfold execSupplyBackInRange
  dsimp only
  rw [if_neg (by simp [hrange]), if_pos ((noteInput_reg s _ (by decide)).trans hstate)]

/-- A dip, before the frequencies follow (R399). -/
def dipNoted (s : State) (v : Nat) : State :=
  (((noteInput s v).withPower { s.power with throttle := true, holding := false, ceil := (noteInput s v).reg Obj.pwrDipFreq }).setReg
    Obj.pwrSupplyState 2).bump Obj.pwrDipCount 1
theorem execSupplyBelow46_dips (hlow : 42000 < mv.toNat) (hhigh : mv.toNat < 46000) (hrun : s.running = true) :
    execSupplyBelow46 mv s = .next (raise (refreshAll (dipNoted s mv.toNat)) 0x2A01 .note uDevice) := by
  unfold execSupplyBelow46
  rw [if_neg (by simp [hrun]; omega)]
  rfl
theorem dipNoted_values (s : State) (v : Nat) : (dipNoted s v).reg Obj.pwrSupplyState = 2 ∧ (dipNoted s v).reg Obj.pwrDipFreq = s.reg Obj.pwrDipFreq ∧
    (dipNoted s v).reg Obj.pwrDipCount = min (s.reg Obj.pwrDipCount + 1) (2 ^ 32 - 1) ∧ (dipNoted s v).power.throttle = true := by
  unfold dipNoted
  refine ⟨?_, ?_, ?_, rfl⟩
  · rw [bump_reg_of_ne _ _ _ (by decide), setReg_reg_fits _ (by decide)]
  · rw [bump_reg_of_ne _ _ _ (by decide), setReg_reg_of_ne _ _ _ (by decide), withPower_reg, noteInput_reg _ _ (by decide)]
  · rw [bump_reg, if_pos rfl, setReg_reg_of_ne _ _ _ (by decide), withPower_reg, noteInput_reg _ _ (by decide)]
    rfl
theorem dipNoted_supplyCeil (s : State) (v : Nat) : supplyCeil (dipNoted s v) = s.reg Obj.pwrDipFreq := by
  obtain ⟨hstate, hfreq, -, hthrottle⟩ := dipNoted_values s v
  rw [supplyCeil, if_neg (by rw [hthrottle]; decide), if_pos hstate, hfreq]
theorem dipNoted_doms (s : State) (v : Nat) : DomsKept s (dipNoted s v) :=
  ((DomsKept.setReg s _ _ (by decide)).trans (t := noteInput s v) (.refl _)).trans
    ((DomsKept.setReg _ Obj.pwrSupplyState 2 (by decide)).trans (.setReg _ Obj.pwrDipCount _ (by decide)))

/-- A step of the ceiling (R400). -/
theorem ceilStep_values (s : State) : (ceilStep s).power.ceil = min 2000 (s.power.ceil + 100) ∧ (ceilStep s).power.holding = s.power.holding ∧
    (ceilStep s).reg Obj.pwrSupplyState = s.reg Obj.pwrSupplyState := by
  obtain ⟨b, hb⟩ := (refreshAll_paces (s.withPower { s.power with ceil := min 2000 (s.power.ceil + 100) })).power
  refine ⟨?_, ?_, ?_⟩
  · rw [ceilStep, hb]; rfl
  · rw [ceilStep, hb]; rfl
  · exact refreshAll_supply _ page_pwrSupplyState

/-- The end of the throttle, before the frequencies follow (R400). -/
def throttleEnded (s : State) : State :=
  (s.withPower { s.power with throttle := false }).setReg Obj.pwrSupplyState (if s.reg Obj.pwrInputMv < 48000 then 1 else 0)
theorem execSupplyReleaseStep_ends (hstate : s.reg Obj.pwrSupplyState = 3) (hceil : 2000 ≤ s.power.ceil) :
    execSupplyReleaseStep s = .next (raise (refreshAll (throttleEnded s)) 0x2A02 .note uDevice) :=
  (if_neg (not_not.mpr hstate)).trans (if_neg (by omega))

end

/-! ### The power cap (R415) -/

section
variable {s : State} {w : BitVec 16} {mv : BitVec 17}

/-- The newest 1,000 samples with the one just taken. -/
def samplesWith (s : State) (w : BitVec 16) : List Nat := (w.toNat :: s.power.samples).take 1000
/-- Whether the mean of 10 ms is above the cap (1), 100 W below it (2), or neither. -/
def capCond (s : State) (w : BitVec 16) : Nat :=
  if s.reg Obj.pwrCapW < meanOf (samplesWith s w) 1000 then 1 else if meanOf (samplesWith s w) 1000 + 100 < s.reg Obj.pwrCapW then 2 else 0
def capRunWith (s : State) (w : BitVec 16) : Bool × (Nat × Nat) := stepRun s.power.capRun (capCond s w) (if capCond s w = 1 then 10 else 100)
/-- The sample noted, before the ceiling's step. -/
def sampleNoted (s : State) (w : BitVec 16) (mv : BitVec 17) : State :=
  ((noteInput s mv.toNat).setReg Obj.pwrInputW (meanOf (samplesWith s w) 1000)).withPower
    { s.power with samples := samplesWith s w, capRun := (capRunWith s w).2, capPeak := decide (4400 < meanOf (samplesWith s w) 100) }
/-- The ceiling's step after a sample: falling, rising, and for a new peak. -/
def sampleStepped (s : State) (w : BitVec 16) (mv : BitVec 17) : State :=
  capStep (sampleNoted s w mv) ((capRunWith s w).1 && capCond s w == 1) ((capRunWith s w).1 && capCond s w == 2)
    (decide (4400 < meanOf (samplesWith s w) 100) && !s.power.capPeak)
theorem execPowerSample_steps (hrun : s.running = true) : execPowerSample w mv s = .next (refreshAll (sampleStepped s w mv)) := by
  unfold execPowerSample
  rw [if_neg (by simp [hrun])]
  rfl
theorem sampleNoted_ceil (s : State) (w : BitVec 16) (mv : BitVec 17) : (sampleNoted s w mv).reg Obj.pwrCapCeil = s.reg Obj.pwrCapCeil := by
  rw [sampleNoted, withPower_reg, setReg_reg_of_ne _ _ _ (by decide), noteInput_reg _ _ (by decide)]

theorem newPeak (hover : 4400 < meanOf (samplesWith s w) 100) (hpeak : s.power.capPeak = false) :
    (decide (4400 < meanOf (samplesWith s w) 100) && !s.power.capPeak) = true := by
  rw [hpeak, decide_eq_true hover]; rfl
/-- The ceiling that a step leaves, and the events. -/
def steppedCeil (c : Nat) (fallNow riseNow peakNow : Bool) : Nat :=
  let c1 := if fallNow then max 800 (c - 25) else if riseNow then min 2000 (c + 25) else c
  if peakNow then max 800 (c1 - 400) else c1
def ceilSet (s : State) (fallNow riseNow peakNow : Bool) : State :=
  s.setReg Obj.pwrCapCeil (steppedCeil (s.reg Obj.pwrCapCeil) fallNow riseNow peakNow)
def capFell (s : State) (fallNow riseNow peakNow : Bool) : State :=
  if s.reg Obj.pwrCapCeil = 2000 ∧ steppedCeil (s.reg Obj.pwrCapCeil) fallNow riseNow peakNow < 2000 then
    raise (ceilSet s fallNow riseNow peakNow) 0x2A20 .note uDevice else ceilSet s fallNow riseNow peakNow
def capPeaked (s : State) (fallNow riseNow peakNow : Bool) : State :=
  if peakNow then raise (capFell s fallNow riseNow peakNow) 0x2A22 .note uDevice else capFell s fallNow riseNow peakNow
theorem capStep_eq (s : State) (fallNow riseNow peakNow : Bool) : capStep s fallNow riseNow peakNow =
    if s.reg Obj.pwrCapCeil < 2000 ∧ steppedCeil (s.reg Obj.pwrCapCeil) fallNow riseNow peakNow = 2000 then
      raise (capPeaked s fallNow riseNow peakNow) 0x2A21 .note uDevice else capPeaked s fallNow riseNow peakNow := rfl

section
variable (s) (fallNow riseNow peakNow : Bool)

/-- What the events of a step leave: objects outside the alert's page, and the power state. -/
theorem ite_raise_reg (u : State) (c : Prop) [Decidable c] (code : Nat) {k : Nat} (hk : page k ≠ 0x23) :
    (if c then raise u code .note uDevice else u).reg k = u.reg k := by
  split
  · exact raise_reg _ _ _ _ _ _ hk
  · rfl
theorem ite_raise_power (u : State) (c : Prop) [Decidable c] (code : Nat) : (if c then raise u code .note uDevice else u).power = u.power := by
  split
  · exact raise_power ..
  · rfl
theorem ite_raise_records (u : State) (c : Prop) [Decidable c] (code : Nat) : KeepsRecords 1 u (if c then raise u code .note uDevice else u) :=
  .ite (fun _ => .raise _ _ _ _ _) fun _ => .quiet rfl rfl
theorem capStep_reg {k : Nat} (hk : page k ≠ 0x23) : (capStep s fallNow riseNow peakNow).reg k = (ceilSet s fallNow riseNow peakNow).reg k := by
  rw [capStep_eq, ite_raise_reg _ _ _ hk, capPeaked, ite_raise_reg _ _ _ hk, capFell, ite_raise_reg _ _ _ hk]
theorem capStep_power : (capStep s fallNow riseNow peakNow).power = s.power := by
  rw [capStep_eq, ite_raise_power, capPeaked, ite_raise_power, capFell, ite_raise_power, ceilSet, setReg_power]
theorem capStep_ceil : (capStep s fallNow riseNow peakNow).reg Obj.pwrCapCeil = steppedCeil (s.reg Obj.pwrCapCeil) fallNow riseNow peakNow % 65536 := by
  rw [capStep_reg _ _ _ _ (by decide), ceilSet, setReg_reg_self]
  rfl
/-- A peak is reported. -/
theorem capStep_reports : Reports s (capStep s fallNow riseNow true) 0x2A22 .note uDevice := by
  have hbefore : KeepsRecords 1 s (capFell s fallNow riseNow true) :=
    (KeepsRecords.of_same (setReg_log ..) (setReg_counter ..)).trans (ite_raise_records _ _ _)
  have hafter : KeepsRecords 1 (raise (capFell s fallNow riseNow true) 0x2A22 .note uDevice) (capStep s fallNow riseNow true) :=
    capStep_eq s fallNow riseNow true ▸ ite_raise_records _ _ _
  exact hbefore.reports hafter (by decide)

end

end

/-- Settles O14: each command sets the supply's objects, and the frequencies that follow leave them. -/
theorem supplyCommandsComplete : Obligations.SupplyCommandsComplete := by
  intro s mv
  refine ⟨fun hrange hlow hhigh hstate => ⟨_, execSupplyOutOfRange_first hrange hlow hhigh hstate, ?_, ?_, ?_⟩,
    fun hrange hstate => ⟨_, execSupplyBackInRange_back hrange hstate, setReg_reg_fits _ (by decide), ?_⟩,
    fun hlow hhigh hrun => ⟨_, execSupplyBelow46_dips hlow hhigh hrun, ?_⟩, fun hhigh hthrottle hstate => ?_, fun hlow hhold => ?_,
    fun hhold => ?_, fun hstate hceil => ?_, fun hstate hceil => ⟨_, execSupplyReleaseStep_ends hstate hceil, ?_, ?_, ?_⟩,
    fun w hrun => ⟨_, execPowerSample_steps hrun, ?_, ?_, ?_⟩, fun w hrun hmax hover hrun1 hlow => ⟨_, execPowerSample_steps hrun, ?_⟩,
    fun w hrun hmax hpeak hover => ⟨_, execPowerSample_steps hrun, ?_, ?_⟩⟩
  · exact (raise_reg _ _ _ _ _ _ (by decide)).trans (setReg_reg_fits _ (by decide))
  · rw [raise_reg _ _ _ _ _ _ (by decide), setReg_reg_of_ne _ _ _ (by decide), noteInput_mv]
  · exact (raise_reports ((noteInput s mv.toNat).setReg Obj.pwrSupplyState 1) 0x2A03 .note uDevice noPos).of_same rfl rfl
  · rw [setReg_reg_of_ne _ _ _ (by decide), noteInput_mv]
  · obtain ⟨hstate, -, hcount, hthrottle⟩ := dipNoted_values s mv.toNat
    obtain ⟨b, hb⟩ := (refreshAll_paces (dipNoted s mv.toNat)).power
    have hsupply {k : Nat} (hk : page k = 0x20) :
        (raise (refreshAll (dipNoted s mv.toNat)) 0x2A01 .note uDevice).reg k = (dipNoted s mv.toNat).reg k :=
      (raise_reg _ _ _ _ _ _ (by rw [hk]; decide)).trans (refreshAll_supply _ hk)
    refine ⟨(hsupply page_pwrSupplyState).trans hstate, ?_, (hsupply page_pwrDipCount).trans hcount, ?_, fun id hid hon => ?_⟩
    · rw [raise_power, hb]; exact hthrottle
    · obtain ⟨hlog, hcounter⟩ := refreshAll_log (dipNoted s mv.toNat)
      exact (raise_reports (refreshAll (dipNoted s mv.toNat)) 0x2A01 .note uDevice noPos).of_same hlog hcounter
    · rw [raise_reg _ _ _ _ _ _ (by rw [page_pwrDom id page_pwrDomFreq]; decide)]
      exact refreshAll_le (dipNoted_supplyCeil s mv.toNat).le (by omega) (((dipNoted_doms s mv.toNat).domOn id).trans hon)
  · have hexec : execSupplyAbove47 mv s = .next ((noteInput s mv.toNat).withPower { s.power with holding := true }) :=
      if_neg (by simp [hthrottle, hstate]; omega)
    exact ⟨_, hexec, rfl, hthrottle⟩
  · have hexec : execSupplyFallTo47v mv s = .next ((noteInput s mv.toNat).withPower { s.power with holding := false }) :=
      if_neg (by simp [hhold]; omega)
    exact ⟨_, hexec, rfl⟩
  · have hexec : execSupplyHoldComplete s = .next (ceilStep ((s.withPower { s.power with holding := false, ceil := s.reg Obj.pwrDipFreq }).setReg
        Obj.pwrSupplyState 3)) := if_neg (by simp [hhold])
    obtain ⟨hceil, hholding, hstate⟩ :=
      ceilStep_values ((s.withPower { s.power with holding := false, ceil := s.reg Obj.pwrDipFreq }).setReg Obj.pwrSupplyState 3)
    exact ⟨_, hexec, hstate.trans (setReg_reg_fits _ (by decide)), hholding, hceil⟩
  · have hexec : execSupplyReleaseStep s = .next (ceilStep s) := (if_neg (not_not.mpr hstate)).trans (if_pos hceil)
    obtain ⟨hup, -, hkept⟩ := ceilStep_values s
    exact ⟨_, hexec, hup, hkept.trans hstate⟩
  · obtain ⟨b, hb⟩ := (refreshAll_paces (throttleEnded s)).power
    rw [raise_power, hb]; rfl
  · rw [raise_reg _ _ _ _ _ _ (by decide), refreshAll_supply _ page_pwrSupplyState, throttleEnded]
    exact setReg_reg_fits _ (by split <;> decide)
  · obtain ⟨hlog, hcounter⟩ := refreshAll_log (throttleEnded s)
    exact (raise_reports (refreshAll (throttleEnded s)) 0x2A02 .note uDevice noPos).of_same hlog hcounter
  · obtain ⟨b, hb⟩ := (refreshAll_paces (sampleStepped s w mv)).power
    rw [hb, sampleStepped, capStep_power]
    rfl
  · rw [refreshAll_supply _ page_pwrInputW, sampleStepped, capStep_reg _ _ _ _ (by decide), ceilSet, setReg_reg_of_ne _ _ _ (by decide),
      sampleNoted, withPower_reg, setReg_reg_self]
    rfl
  · rw [refreshAll_supply _ page_pwrInputMv, sampleStepped, capStep_reg _ _ _ _ (by decide), ceilSet, setReg_reg_of_ne _ _ _ (by decide),
      sampleNoted, withPower_reg, setReg_reg_of_ne _ _ _ (by decide), noteInput_mv]
  · have hcond : capCond s w = 1 := if_pos hover
    have hrunWith : (capRunWith s w).1 = true := by
      rw [capRunWith, hcond, stepRun, if_neg (by decide), if_pos hrun1]
    have hnone : decide (4400 < meanOf (samplesWith s w) 100) = false := decide_eq_false (Nat.not_lt.mpr hlow)
    dsimp only
    rw [refreshAll_supply _ page_pwrCapCeil, sampleStepped, capStep_ceil, sampleNoted_ceil, hrunWith, hcond, hnone]
    change max 800 (s.reg Obj.pwrCapCeil - 25) % 65536 = _
    omega
  · rw [refreshAll_supply _ page_pwrCapCeil, sampleStepped, capStep_ceil, sampleNoted_ceil]
    have hnow := newPeak (s := s) (w := w) hover hpeak
    rw [hnow]
    refine (Nat.mod_le ..).trans ?_
    unfold steppedCeil
    rw [if_pos rfl]
    split
    · omega
    · split <;> omega
  · have hnow := newPeak (s := s) (w := w) hover hpeak
    obtain ⟨hlog, -⟩ := refreshAll_log (sampleStepped s w mv)
    refine Reports.then ?_ hlog
    rw [sampleStepped, hnow]
    exact (capStep_reports (sampleNoted s w mv) _ _).of_same rfl rfl

end Sys2Proof.Machine
end

section
/-! The power-up sequence and its control inputs (R457–R461). -/

namespace Sys2Proof.Machine

/-! ### The alert's object -/

/-- An event changes no object but the number of the record that waits for its acknowledgement (R465). -/
theorem raise_reg_of_ne (s : State) (code : Nat) (sev : Sev) (unit pos : Nat) {k : Nat} (hk : k ≠ Obj.modAlertSeq) :
    (raise s code sev unit pos).reg k = s.reg k := by
  have hsev : (sevEffect s sev unit).reg k = s.reg k := by
    cases sev with
    | note => rfl
    | degrade => rfl
    | fatal => rfl
    | stepAbort =>
      have hgroup : ∀ cl, (abortGroup s cl).reg k = s.reg k := fun cl => by unfold abortGroup; split <;> rfl
      have hdevice : (abortDevice s).reg k = s.reg k := by
        unfold abortDevice
        split
        · exact hgroup _
        · exact hgroup _
        · rfl
      unfold sevEffect
      dsimp only
      split
      · exact hgroup _
      · split
        · exact hgroup _
        · exact hdevice
  have hlog (u : State) (e : Event) : (logRecord u e).reg k = u.reg k := by
    unfold logRecord
    dsimp only
    split
    · exact setReg_reg_of_ne _ _ _ hk
    · rfl
  unfold raise
  dsimp only
  split
  · exact hsev
  · split
    · split <;> exact hsev
    · rw [hlog, hsev]

/-! ### The boot origin (R440, R457, R458) -/

section
variable (s : State)

/-- The straps are held as they were sampled. -/
theorem takeStraps_values (feed : BitVec 4) (slot : BitVec 6) : (takeStraps s feed.toNat slot.toNat).reg Obj.resFeed = feed.toNat ∧
    (takeStraps s feed.toNat slot.toNat).reg Obj.resSlot = slot.toNat ∧
    (takeStraps s feed.toNat slot.toNat).reg Obj.modStrapsLive = feed.toNat + 16 * slot.toNat := by
  have hfeed := feed.isLt
  have hslot := slot.isLt
  unfold takeStraps
  refine ⟨?_, ?_, setReg_reg_fits _ (Nat.lt_of_lt_of_le (m := 65536) (by omega) (by decide))⟩
  · rw [setReg_reg_of_ne _ _ _ (by decide), setReg_reg_of_ne _ _ _ (by decide), setReg_reg_fits _ (Nat.lt_trans hfeed (by decide))]
  · rw [setReg_reg_of_ne _ _ _ (by decide), setReg_reg_fits _ (Nat.lt_trans hslot (by decide))]

/-- The boot's own objects, before its events. -/
def bootNamed (s : State) : State :=
  ((((s.withPins { s.pins with inReset := false, pwrGood := true }).withLog {}).setReg Obj.bootStage 1).setReg Obj.pwrResetCause s.pins.cause).setReg
    Obj.fldPlcaId (s.reg Obj.resSlot + 1)
def bootCaused (s : State) : State :=
  if 1 ≤ s.pins.cause ∧ s.pins.cause ≤ 3 then raise (bootNamed s) 0x2A05 .note uDevice s.pins.cause else bootNamed s
theorem beginBoot_eq : beginBoot s = if (bootInput (bootCaused s)).reg Obj.resFeed = 0xF then raise (bootInput (bootCaused s)) 0x2A53 .note uDevice
    else bootInput (bootCaused s) := rfl
/-- An event or none leaves the pins and the objects but the alert's, and the log taking records. -/
theorem ite_raise_keeps (u : State) (c : Prop) [Decidable c] (code pos : Nat) :
    (if c then raise u code .note uDevice pos else u).pins = u.pins ∧ (if c then raise u code .note uDevice pos else u).log.ready = u.log.ready ∧
      ∀ k, k ≠ Obj.modAlertSeq → (if c then raise u code .note uDevice pos else u).reg k = u.reg k := by
  split
  · exact ⟨raise_pins_of_ne_fatal _ _ _ _ (by decide), (raise_takes_records ..).1, fun k hk => raise_reg_of_ne _ _ _ _ _ hk⟩
  · exact ⟨rfl, rfl, fun _ _ => rfl⟩
theorem bootInput_keeps (u : State) : (bootInput u).pins = u.pins ∧ (bootInput u).log.ready = u.log.ready ∧
    ∀ k, k ≠ Obj.modAlertSeq → k ≠ Obj.pwrSupplyState → (bootInput u).reg k = u.reg k := by
  unfold bootInput
  split
  · exact ⟨rfl, rfl, fun _ _ _ => rfl⟩
  · exact ⟨raise_pins_of_ne_fatal _ _ _ _ (by decide), (raise_takes_records ..).1, fun k hk hstate =>
      (raise_reg_of_ne _ _ _ _ _ hk).trans (setReg_reg_of_ne _ _ _ hstate)⟩
/-- The boot's events leave its own objects. -/
theorem beginBoot_keeps : (beginBoot s).pins = { s.pins with inReset := false, pwrGood := true } ∧ (beginBoot s).log.ready = true ∧
    ∀ k, k ≠ Obj.modAlertSeq → k ≠ Obj.pwrSupplyState → (beginBoot s).reg k = (bootNamed s).reg k := by
  obtain ⟨hpins1, hready1, hreg1⟩ := ite_raise_keeps (bootNamed s) (1 ≤ s.pins.cause ∧ s.pins.cause ≤ 3) 0x2A05 s.pins.cause
  obtain ⟨hpins2, hready2, hreg2⟩ := bootInput_keeps (bootCaused s)
  obtain ⟨hpins3, hready3, hreg3⟩ := ite_raise_keeps (bootInput (bootCaused s)) ((bootInput (bootCaused s)).reg Obj.resFeed = 0xF) 0x2A53 noPos
  rw [beginBoot_eq]
  exact ⟨hpins3.trans (hpins2.trans hpins1), hready3.trans (hready2.trans hready1), fun k halert hstate =>
    (hreg3 k halert).trans ((hreg2 k halert hstate).trans (hreg1 k halert))⟩
theorem beginBoot_values : (beginBoot s).reg Obj.bootStage = 1 ∧ (beginBoot s).reg Obj.pwrResetCause = s.pins.cause % 256 ∧
    (s.reg Obj.resSlot ≤ 63 → (beginBoot s).reg Obj.fldPlcaId = s.reg Obj.resSlot + 1) := by
  obtain ⟨-, -, hreg⟩ := beginBoot_keeps s
  refine ⟨?_, ?_, fun hslot => ?_⟩
  · rw [hreg _ (by decide) (by decide), bootNamed, setReg_reg_of_ne _ _ _ (by decide), setReg_reg_of_ne _ _ _ (by decide),
      setReg_reg_fits _ (by decide)]
  · rw [hreg _ (by decide) (by decide), bootNamed, setReg_reg_of_ne _ _ _ (by decide), setReg_reg_self]
    rfl
  · rw [hreg _ (by decide) (by decide), bootNamed]
    exact setReg_reg_fits _ (Nat.lt_of_lt_of_le (m := 256) (by omega) (by decide))
/-- Objects that the boot does not name are as before. -/
theorem beginBoot_reg {k : Nat} (hk : k ∉ [Obj.modAlertSeq, Obj.pwrSupplyState, Obj.fldPlcaId, Obj.pwrResetCause, Obj.bootStage]) :
    (beginBoot s).reg k = s.reg k := by
  simp only [List.mem_cons, List.not_mem_nil, or_false, not_or] at hk
  obtain ⟨halert, hstate, hplca, hcause, hstage⟩ := hk
  rw [(beginBoot_keeps s).2.2 k halert hstate, bootNamed, setReg_reg_of_ne _ _ _ hplca, setReg_reg_of_ne _ _ _ hcause,
    setReg_reg_of_ne _ _ _ hstage]
  rfl
theorem tryBoot_boots {u : State} (hreset : u.pins.inReset = true) (hgood : u.pins.pwrGood = true) (hdone : u.pins.internalDone = true)
    (hrst : u.pins.rstN = true) : tryBoot u = beginBoot u := if_pos (by simp [hreset, hgood, hdone, hrst])
/-- Whether the boot begins or not, the straps stay as they were sampled, and `rst_n` as it is. -/
theorem tryBoot_reg {k : Nat} (hk : k ∉ [Obj.modAlertSeq, Obj.pwrSupplyState, Obj.fldPlcaId, Obj.pwrResetCause, Obj.bootStage]) :
    (tryBoot s).reg k = s.reg k := by
  unfold tryBoot
  split
  · exact beginBoot_reg s hk
  · rfl
theorem tryBoot_rstN : (tryBoot s).pins.rstN = s.pins.rstN := by
  unfold tryBoot
  split
  · rw [(beginBoot_keeps s).1]
  · rfl

end

/-- The straps sampled at the release of `rst_n`, before the boot. -/
def rstReleased (s : State) (feed : BitVec 4) (slot : BitVec 6) : State :=
  modPins (takeStraps s feed.toNat slot.toNat) fun p => { p with rstN := true }
theorem execRstNDeassert_rises {s : State} (feed : BitVec 4) (slot : BitVec 6) (hlow : s.pins.rstN = false) :
    execRstNDeassert feed slot s = .next (tryBoot (rstReleased s feed slot)) := if_neg (by simp [hlow])
theorem execInternalResetEnd_ends {s : State} (hgood : s.pins.pwrGood = true) (hreset : s.pins.inReset = true)
    (hdone : s.pins.internalDone = false) :
    execInternalResetEnd s = .next (tryBoot (modPins s fun p => { p with internalDone := true })) := if_pos (by simp [hgood, hreset, hdone])

/-- Settles O16: each input sets its pins, and the boot begins once all of them stand. -/
theorem powerUpCommandsComplete : Obligations.PowerUpCommandsComplete := by
  intro s
  refine ⟨fun feed slot hunmated => ?_, fun rested hlow => ?_, fun hmated hmon hen hneed htherm hgood => ?_, fun hsoft => ?_,
    fun hgood hreset hdone hrst => ⟨_, execInternalResetEnd_ends hgood hreset hdone, ?_⟩,
    fun hgood hreset hdone hrst hslot => ⟨_, execInternalResetEnd_ends hgood hreset hdone, ?_⟩,
    fun feed slot hlow => ⟨_, execRstNDeassert_rises feed slot hlow, ?_⟩,
    fun feed slot hlow hreset hgood hdone => ⟨_, execRstNDeassert_rises feed slot hlow, ?_⟩⟩
  · have hexec : execJ1Mate feed slot s = .next (modPins (takeStraps s feed.toNat slot.toNat) fun p =>
        { p with mated := true, monitor := true, thermLatch := false }) := if_neg (by rw [hunmated]; decide)
    exact ⟨_, hexec, rfl, rfl, takeStraps_values s feed slot⟩
  · have hexec : execPwrEnRise rested s = .next (modPins s fun p =>
        { p with pwrEn := true, needRise := false, thermLatch := p.thermLatch && !rested }) := if_neg (by rw [hlow]; decide)
    exact ⟨_, hexec, rfl, rfl, rfl⟩
  · have hexec : execSoftStartBegin s = .next (modPins s fun p => { p with softStart := true, inReset := true }) :=
      if_pos (by simp [hmated, hmon, hen, hneed, htherm, hgood])
    exact ⟨_, hexec, rfl, rfl⟩
  · have hexec : execRailsInRegulation s = .next (modPins s fun p => { p with softStart := false, pwrGood := true, internalDone := false }) :=
      if_pos hsoft
    exact ⟨_, hexec, rfl, rfl, rfl⟩
  · have hstays : tryBoot (modPins s fun p => { p with internalDone := true }) = modPins s fun p => { p with internalDone := true } :=
      if_neg (by simp [modPins, hrst])
    rw [hstays]
    exact ⟨rfl, hreset, rfl⟩
  · rw [tryBoot_boots (u := modPins s fun p => { p with internalDone := true }) hreset hgood rfl hrst]
    obtain ⟨hpins, hready, -⟩ := beginBoot_keeps (modPins s fun p => { p with internalDone := true })
    obtain ⟨hstage, hcause, hplca⟩ := beginBoot_values (modPins s fun p => { p with internalDone := true })
    exact ⟨by rw [hpins], hstage, hcause, hready, hplca hslot⟩
  · obtain ⟨hfeed, hslot, hlive⟩ := takeStraps_values s feed slot
    exact ⟨tryBoot_rstN _, (tryBoot_reg _ (by decide)).trans hfeed, (tryBoot_reg _ (by decide)).trans hslot,
      (tryBoot_reg _ (by decide)).trans hlive⟩
  · rw [tryBoot_boots (u := rstReleased s feed slot) hreset hgood hdone rfl]
    obtain ⟨-, hslot, -⟩ := takeStraps_values s feed slot
    obtain ⟨hpins, -, -⟩ := beginBoot_keeps (rstReleased s feed slot)
    obtain ⟨hstage, -, hplca⟩ := beginBoot_values (rstReleased s feed slot)
    have hsampled : (rstReleased s feed slot).reg Obj.resSlot = slot.toNat := hslot
    have hbound := slot.isLt
    exact ⟨by rw [hpins], hstage, hsampled ▸ hplca (by omega)⟩

end Sys2Proof.Machine
end

section
/-! What resets the device, and what a reset leaves (R401, R417, R425, R453, R455, R460, R461). -/

namespace Sys2Proof.Machine

/-! ### What a reset leaves -/

/-- The persistent objects (R425). -/
def persistentObjects : List Nat :=
  [Obj.resFencedMap, Obj.memRetiredC0, Obj.memRetiredC1, Obj.memRetiredC2, Obj.memRetiredC3, Obj.bootCount, Obj.secOwnerKey, Obj.secNonce,
    Obj.secMinSvn]
/-- Where every object fits its size, so does one that still has its default. -/
theorem reg_fits {s : State} (h : s.regsFit = true) {k : Nat} (hd : regDefault k < 256 ^ objSize (objPart k)) :
    s.reg k < 256 ^ objSize (objPart k) := by
  rw [regsFit_iff] at h
  unfold State.reg
  generalize s.regs = m at h
  induction m with
  | nil => exact hd
  | cons p m ih =>
    obtain ⟨j, v⟩ := p
    rw [smGet]
    split
    next he => exact he ▸ h (j, v) List.mem_cons_self
    next he => exact ih fun q hq => h q (List.mem_cons_of_mem _ hq)
theorem persistent_fits {s : State} (h : s.regsFit = true) {k : Nat} (hk : k ∈ persistentObjects) : s.reg k < 256 ^ objSize (objPart k) :=
  reg_fits h ((by decide : ∀ k ∈ persistentObjects, regDefault k < 256 ^ objSize (objPart k)) k hk)

/-- The objects of a list written one after another, each with its own value. -/
theorem setAll_reg (ks : List Nat) (v : Nat → Nat) (s : State) (j : Nat) :
    (forAll ks (fun k s => s.setReg k (v k)) s).reg j = if j ∈ ks then v j % 256 ^ objSize (objPart j) else s.reg j := by
  induction ks generalizing s with
  | nil => rfl
  | cons k ks ih =>
    have hstep : (forAll (k :: ks) (fun k s => s.setReg k (v k)) s).reg j = _ := ih (s.setReg k (v k))
    rw [hstep]
    by_cases hmem : j ∈ ks
    · rw [if_pos hmem, if_pos (List.mem_cons_of_mem _ hmem)]
    · rw [if_neg hmem, setReg_reg]
      by_cases hj : j = k
      · subst hj
        rw [if_pos rfl, if_pos List.mem_cons_self]
      · rw [if_neg hj, if_neg (by simp [hj, hmem])]

section
variable (s : State) (cause : Nat)

/-- The reset state with what is not the registers' kept (R401, R460). -/
def resetBase (s : State) (cause : Nat) : State :=
  { State.reset with
    pending := (landT3 s).pending, outbox := (landT3 s).outbox, fresh := (landT3 s).fresh, flash := keptFlash (landT3 s),
    mem := keptMemory (landT3 s).mem, log := { ready := false }, pins := resetPins (landT3 s).pins cause }
/-- The objects that a reset keeps, put back. -/
def resetKept (s : State) (cause : Nat) : State := forAll keptObjects (fun k u => u.setReg k ((landT3 s).reg k)) (resetBase s cause)
theorem deviceReset_eq : deviceReset s cause = forAll allClusters (fun cl u => refreshFenced u cl) (resetKept s cause) := rfl
/-- Beside its objects the device is as the reset state. -/
theorem deviceReset_beside : ∃ r, deviceReset s cause = (resetBase s cause).withRegs r := by
  rw [deviceReset_eq]
  refine forAll_induction (P := fun t => ∃ r, t = (resetBase s cause).withRegs r) _ _ ?_ ?_
  · refine forAll_induction (P := fun t => ∃ r, t = (resetBase s cause).withRegs r) _ _ ⟨_, rfl⟩ ?_
    rintro k _ ⟨r, rfl⟩
    exact ⟨_, rfl⟩
  · rintro cl _ ⟨r, rfl⟩
    exact ⟨_, rfl⟩
theorem deviceReset_reg {k : Nat} (hk : page k ≠ 0x41) : (deviceReset s cause).reg k =
    if k ∈ keptObjects then s.reg k % 256 ^ objSize (objPart k) else regDefault k := by
  have hfenced : (deviceReset s cause).reg k = (resetKept s cause).reg k := by
    rw [deviceReset_eq]
    exact forAll_induction (P := fun t => t.reg k = (resetKept s cause).reg k) _ _ rfl fun cl t ht =>
      (setReg_reg_of_ne _ _ _ (ne_of_apply_ne page (by rw [page_schedClFenced]; exact hk))).trans ht
  have hland : (landT3 s).reg k = s.reg k := by
    have hsame := landT3_moves s (.refl _ s) (Sub.refl _)
    exact hsame.same (.obj ⟨page k, Nat.mod_lt _ (by decide)⟩)
      (Nat.testBit_lt_two_pow (Nat.lt_of_lt_of_le (by decide) (Nat.pow_le_pow_right (by decide) (Nat.le_add_right 32 _)))) k rfl
  rw [hfenced, resetKept, setAll_reg, hland]
  rfl
theorem keptMemory_lost (m : MemState) {a : Nat} (ha : a < 0x020000000000) : memByte (keptMemory m) a = memDefault a := by
  refine smGet_of_not_mem memDefault fun p hp he => ?_
  have hkept := (List.mem_filter.mp hp).2
  rw [he, decide_eq_true_eq] at hkept
  omega
theorem landT3_pins : (landT3 s).pins = s.pins := (landT3_moves s (.refl _ s) (Sub.refl _)).same .pins (by decide)

end

/-- A reset of a state whose persistent objects are those of `s`. -/
theorem deviceReset_resetFor {s u : State} (hfit : s.regsFit = true) (hkept : ∀ k ∈ persistentObjects, u.reg k = s.reg k) (cause : Nat) :
    ResetFor s (deviceReset u cause) cause := by
  obtain ⟨r, hr⟩ := deviceReset_beside u cause
  have hdom : ∀ id, id ≠ domAlwaysOn → (deviceReset u cause).domState id = dsOff := fun id hid => by
    have hnot : ofUnit Obj.pwrDomState id ∉ keptObjects := fun hmem => by
      have hobj : ∀ k ∈ keptObjects, objPart k ≠ Obj.pwrDomState := by decide
      exact hobj _ hmem (by rw [objPart_unit]; decide)
    rw [State.domState, if_neg hid, deviceReset_reg _ _ (by rw [page_pwrDom id page_pwrDomState]; decide), if_neg hnot, regDefault, objPart_unit]
    decide
  have hobjects : ∀ k ∈ persistentObjects, (deviceReset u cause).reg k = s.reg k := fun k hk => by
    have hpage : page k ≠ 0x41 := (by decide : ∀ k ∈ persistentObjects, page k ≠ 0x41) k hk
    have hmem : k ∈ keptObjects := List.mem_append_left _ ((by decide : persistentObjects ⊆ _) hk)
    rw [deviceReset_reg _ _ hpage, if_pos hmem, hkept k hk, Nat.mod_eq_of_lt (persistent_fits hfit hk)]
  refine ⟨?_, ?_, ?_, ?_, ?_, ?_, ?_, ?_, hdom, ?_, hobjects⟩
  all_goals rw [hr]
  · rfl
  · rfl
  · rfl
  · rfl
  · rfl
  · rfl
  · exact fun _ => rfl
  · exact fun _ => rfl
  · exact fun a ha => keptMemory_lost _ ha
/-- What a reset leaves says nothing of the pins that a cause sets beside it. -/
theorem ResetFor.modPins {s t : State} {cause : Nat} (h : ResetFor s t cause) (f : Pins → Pins)
    (hf : (f t.pins).inReset = t.pins.inReset ∧ (f t.pins).cause = t.pins.cause ∧ (f t.pins).fatalLatch = t.pins.fatalLatch) :
    ResetFor s (modPins t f) cause := by
  obtain ⟨hreset, hcause, hlatch, hrest⟩ := h
  exact ⟨hf.1.trans hreset, hf.2.1.trans hcause, hf.2.2.trans hlatch, hrest⟩
theorem powerLoss_resetFor {s u : State} (hfit : s.regsFit = true) (hkept : ∀ k ∈ persistentObjects, u.reg k = s.reg k) (cause : Nat) :
    ResetFor s (powerLoss u cause) cause := (deviceReset_resetFor hfit hkept cause).modPins stageOff ⟨rfl, rfl, rfl⟩

/-! ### The causes -/

/-- The trip's sample leaves the persistent objects. -/
theorem thermal_keeps (s : State) (ts : List Int) (d : Nat) : ∀ k ∈ persistentObjects,
    (raise (thermAll s ts) 0x2A32 .fatal (uAnyDie d)).reg k = s.reg k := fun k hk => by
  have hpage : ∀ k ∈ persistentObjects, page k ≠ 0x23 ∧ Nat.testBit (maskOf ([.outbox, .clusters, .train, .roll, .log, .power, .pins] ++
      objs [0x20, 0x21, 0x23])) (32 + page k) = false := by decide
  obtain ⟨hne, hoff⟩ := hpage k hk
  rw [raise_reg _ _ _ _ _ _ hne]
  exact (thermAll_moves s ts (.refl _ s) (by decide)).reg k hoff
theorem execThermalSample_trips {s : State} {ts : Vector Int 6} (hrun : s.running = true) (hot : ∃ x ∈ ts.toList, 110000 ≤ x) :
    ∃ d, execThermalSample ts s = .next (thermalTrip (thermAll s ts.toList) d) := by
  obtain ⟨x, hx, hlimit⟩ := hot
  unfold execThermalSample
  rw [if_neg (by simp [hrun])]
  cases hfind : ts.toList.findIdx? fun t => decide (110000 ≤ t) with
  | none =>
    rw [List.findIdx?_eq_none_iff] at hfind
    exact absurd (hfind x hx) (by simpa using hlimit)
  | some d => exact ⟨d, rfl⟩

/-- Settles O17: each cause resets a state whose persistent objects are as before, and sets its own pins. -/
theorem resetCommandsComplete : Obligations.ResetCommandsComplete := by
  intro s hfit
  have hself : ∀ k ∈ persistentObjects, s.reg k = s.reg k := fun _ _ => rfl
  have hnoted (v : Nat) : ∀ k ∈ persistentObjects, (noteInput s v).reg k = s.reg k := fun k hk =>
    noteInput_reg s v ((by decide : ∀ k ∈ persistentObjects, k ≠ Obj.pwrInputMv) k hk)
  refine ⟨fun mv hmv hpow => ?_, fun mv hmv hpow => ?_, fun hmated hpow => ?_, fun hmated hpow => ?_, fun hpow => ?_, fun hpow => ?_,
    fun hen hpow => ?_, fun hrst hgood hreset => ?_, fun ts hrun hot => ?_⟩
  · have hexec : execBrownOut mv s = .next (powerLoss (noteInput s mv.toNat) 1) := if_neg (by simp [hpow]; omega)
    exact ⟨_, hexec, powerLoss_resetFor hfit (hnoted _) 1, rfl⟩
  · have hexec : execOverVoltage mv s = .next (powerLoss (noteInput s mv.toNat) 2) := if_neg (by simp [hpow]; omega)
    exact ⟨_, hexec, powerLoss_resetFor hfit (hnoted _) 2, rfl⟩
  · have hexec : execJ1Break s = .next (modPins (powerLoss s 1) fun p => { p with mated := false }) := by
      unfold execJ1Break
      rw [if_neg (by simp [hmated]), if_pos hpow]
    exact ⟨_, hexec, (powerLoss_resetFor hfit hself 1).modPins _ ⟨rfl, rfl, rfl⟩, rfl, rfl⟩
  · have hexec : execJ1Break s = .next (modPins s fun p => { p with mated := false }) := by
      unfold execJ1Break
      rw [if_neg (by simp [hmated]), if_neg (by simp [hpow])]
    exact ⟨_, hexec, rfl, rfl⟩
  · have hexec : execInputBelow40v s = .next (modPins (powerLoss s 1) fun p => { p with monitor := false, thermLatch := false }) := by
      unfold execInputBelow40v
      rw [if_pos hpow]
    exact ⟨_, hexec, (powerLoss_resetFor hfit hself 1).modPins _ ⟨rfl, rfl, rfl⟩, rfl, rfl⟩
  · have hexec : execInputBelow40v s = .next (modPins s fun p => { p with monitor := false, thermLatch := false }) := by
      unfold execInputBelow40v
      rw [if_neg (by simp [hpow])]
    exact ⟨_, hexec, rfl, rfl, rfl⟩
  · have hexec : execPwrEnFall s = .next (modPins (powerLoss s 0) fun p => { p with pwrEn := false, needRise := true }) := by
      unfold execPwrEnFall
      rw [if_neg (by simp [hen]), if_pos hpow]
    exact ⟨_, hexec, (powerLoss_resetFor hfit hself 0).modPins _ ⟨rfl, rfl, rfl⟩, rfl, rfl, rfl⟩
  · have hexec : execRstNAssert s = .next (modPins (deviceReset s 4) fun p => { p with rstN := false }) := by
      unfold execRstNAssert
      rw [if_neg (by simp [hrst]), if_pos (by simp [hgood, hreset])]
    refine ⟨_, hexec, (deviceReset_resetFor hfit hself 4).modPins _ ⟨rfl, rfl, rfl⟩, rfl, ?_⟩
    obtain ⟨r, hr⟩ := deviceReset_beside s 4
    rw [hr]
    exact (congrArg Pins.pwrGood (landT3_pins s)).trans hgood
  · obtain ⟨d, hexec⟩ := execThermalSample_trips hrun hot
    exact ⟨_, hexec, (powerLoss_resetFor hfit (thermal_keeps s ts.toList d) 3).modPins _ ⟨rfl, rfl, rfl⟩, rfl, rfl, rfl⟩

end Sys2Proof.Machine
end

section
/-! The module's sensors, SLEEP and the standby serial port (R408, R417–R419, R457, R464). -/

namespace Sys2Proof.Machine

/-! ### Temperatures (R417) -/

/-- A die's temperature and its thermal ceiling, set. -/
def thermNoted (s : State) (d : Nat) (t : Int) (ceil : Nat) : State :=
  (s.setReg (Obj.pwrTemp d) ((t % 2 ^ 32).toNat)).setReg (Obj.pwrThermCeil d) ceil
/-- A die's sample sets these two objects, at 105 °C or more with the lowest ceiling. -/
theorem thermDie_noted (s : State) (d : Nat) (t : Int) : ∃ ceil, (105000 ≤ t → ceil = 800) ∧
    ∀ k, k ≠ Obj.modAlertSeq → (thermDie s d t).reg k = (thermNoted s d t ceil).reg k := by
  unfold thermDie
  extract_lets lim cond r c c1 hot was s1 s2 keep p s3 s4
  refine ⟨if hot then 800 else c1, fun h => if_pos (decide_eq_true h), fun k hk => ?_⟩
  have hfour : s4.reg k = s2.reg k := by
    by_cases hc : c = 2000 ∧ (hot = true ∨ c1 < 2000)
    · exact (congrArg (State.reg · k) (if_pos hc)).trans (raise_reg_of_ne _ _ _ _ _ hk)
    · have hsame : s4 = s3 := if_neg hc
      rw [hsame]
      rfl
  split
  · exact (raise_reg_of_ne _ _ _ _ _ hk).trans hfour
  · exact hfour
/-- What a sample of `t` leaves of die `d`. -/
def ThermStands (s : State) (d : Nat) (t : Int) : Prop :=
  s.reg (Obj.pwrTemp d) = (t % 2 ^ 32).toNat ∧ (105000 ≤ t → s.reg (Obj.pwrThermCeil d) = 800)
theorem thermObjects_apart {d e : Nat} (hd : d < 6) (he : e < 6) : Obj.pwrTemp d ≠ Obj.pwrThermCeil e ∧ Obj.pwrThermCeil d ≠ Obj.pwrTemp e ∧
    (d ≠ e → Obj.pwrTemp d ≠ Obj.pwrTemp e ∧ Obj.pwrThermCeil d ≠ Obj.pwrThermCeil e) ∧
    Obj.pwrTemp d ≠ Obj.modAlertSeq ∧ Obj.pwrThermCeil d ≠ Obj.modAlertSeq := by
  simp only [Obj.pwrTemp, Obj.pwrThermCeil, Obj.modAlertSeq, ob]
  omega
theorem thermDie_stands (s : State) {d : Nat} (hd : d < 6) (t : Int) : ThermStands (thermDie s d t) d t := by
  obtain ⟨ceil, hceil, hreg⟩ := thermDie_noted s d t
  obtain ⟨hapart, -, -, htemp, hlimit⟩ := thermObjects_apart hd hd
  refine ⟨?_, fun h => ?_⟩
  · rw [hreg _ htemp, thermNoted, setReg_reg_of_ne _ _ _ hapart, setReg_reg_fits _ ?_]
    rw [size_pwrTemp]
    omega
  · rw [hreg _ hlimit, thermNoted, hceil h, setReg_reg_fits _ (by rw [size_pwrThermCeil]; decide)]
theorem ThermStands.of_reg {s t : State} {d : Nat} {x : Int} (h : ThermStands s d x) (htemp : t.reg (Obj.pwrTemp d) = s.reg (Obj.pwrTemp d))
    (hceil : t.reg (Obj.pwrThermCeil d) = s.reg (Obj.pwrThermCeil d)) : ThermStands t d x :=
  ⟨htemp.trans h.1, fun hx => hceil.trans (h.2 hx)⟩
theorem ThermStands.thermDie {s : State} {d e : Nat} {x : Int} (h : ThermStands s d x) (hd : d < 6) (he : e < 6) (hne : d ≠ e) (y : Int) :
    ThermStands (thermDie s e y) d x := by
  obtain ⟨ceil, -, hreg⟩ := thermDie_noted s e y
  obtain ⟨htc, hct, hother, htemp, hlimit⟩ := thermObjects_apart hd he
  obtain ⟨htt, hcc⟩ := hother hne
  refine h.of_reg ?_ ?_
  · rw [hreg _ htemp, thermNoted, setReg_reg_of_ne _ _ _ htc, setReg_reg_of_ne _ _ _ htt]
  · rw [hreg _ hlimit, thermNoted, setReg_reg_of_ne _ _ _ hcc, setReg_reg_of_ne _ _ _ hct]
/-- The dies of a list sampled one after another: those before it stand as they stood. -/
theorem thermDies_stand (ts : List Int) (n : Nat) (s : State) (hn : n + ts.length ≤ 6) :
    let u := forAll (ts.zipIdx n) (fun p s => thermDie s p.2 p.1) s
    (∀ d x, d < n → ThermStands s d x → ThermStands u d x) ∧ ∀ d (hd : d < ts.length), ThermStands u (n + d) ts[d] := by
  induction ts generalizing n s with
  | nil => exact ⟨fun _ _ _ h => h, fun _ hd => absurd hd (Nat.not_lt_zero _)⟩
  | cons t ts ih =>
    rw [List.length_cons] at hn
    obtain ⟨hbefore, hlater⟩ := ih (n + 1) (thermDie s n t) (by omega)
    refine ⟨fun d x hd h => hbefore d x (by omega) (h.thermDie (by omega) (by omega) (by omega) t), fun d hd => ?_⟩
    cases d with
    | zero => exact hbefore n t (by omega) (thermDie_stands s (by omega) t)
    | succ d =>
      rw [show n + (d + 1) = n + 1 + d by omega]
      exact hlater d (by simpa using hd)
theorem thermAll_stands (s : State) (ts : Vector Int 6) (d : Fin 6) : ThermStands (thermAll s ts.toList) d.val ts[d.val] := by
  have h := (thermDies_stand ts.toList 0 s (by simp)).2 d.val (by simp)
  rw [Nat.zero_add, Vector.getElem_toList] at h
  exact h.of_reg (refreshAll_supply _ (page_pwrTemp _)) (refreshAll_supply _ (page_pwrThermCeil _))
theorem execThermalSample_stays {s : State} {ts : Vector Int 6} (hrun : s.running = true) (hcold : ∀ x ∈ ts.toList, x < 110000) :
    execThermalSample ts s = .next (thermAll s ts.toList) := by
  have hnone : ts.toList.findIdx? (fun t => decide (110000 ≤ t)) = none := by
    rw [List.findIdx?_eq_none_iff]
    exact fun x hx => decide_eq_false (by have := hcold x hx; omega)
  unfold execThermalSample
  rw [if_neg (by simp [hrun]), hnone]

/-! ### Cooling (R464) -/

section
variable (s : State) (was now : Bool) (code : Nat)

theorem excursion_reg {k : Nat} (hk : k ≠ Obj.modAlertSeq) : (excursion s was now code).reg k = s.reg k := by
  unfold excursion
  split
  · exact raise_reg_of_ne _ _ _ _ _ hk
  · rfl
theorem excursion_records : KeepsRecords 1 s (excursion s was now code) :=
  .ite (fun _ => .raise ..) fun _ => (KeepsRecords.refl s).mono (by decide)
theorem excursion_begins (hwas : was = false) (hnow : now = true) : excursion s was now code = raise s code .note uDevice :=
  if_pos (by simp [hwas, hnow])

end

/-- What a sample of the coolant sets, before its events. -/
def coolNoted (s : State) (inlet outlet : BitVec 32) (flow : BitVec 16) (leak : Bool) : State :=
  modPins ((((s.setReg Obj.modInletC inlet.toNat).setReg Obj.modOutletC outlet.toNat).setReg Obj.modFlow flow.toNat).setReg
    Obj.modLeak (if leak then 1 else 0)) fun p => { p with
      hotInlet := decide (1000 * (s.reg Obj.modCoolLimitC : Int) < inlet.toInt), lowFlow := decide (flow.toNat < 2000) }
section
variable (s : State) (inlet outlet : BitVec 32) (flow : BitVec 16) (leak : Bool)

/-- The sample with the first event, and with the first two. -/
def coolHot : State := excursion (coolNoted s inlet outlet flow leak) s.pins.hotInlet
  (decide (1000 * (s.reg Obj.modCoolLimitC : Int) < inlet.toInt)) 0x2A50
def coolLow : State := excursion (coolHot s inlet outlet flow leak) s.pins.lowFlow (decide (flow.toNat < 2000)) 0x2A52
def coolWet : State := excursion (coolLow s inlet outlet flow leak) (s.reg Obj.modLeak == 1) leak 0x2A51
theorem execCoolantSample_taken (hrun : s.running = true) : execCoolantSample inlet outlet flow leak s = .next (coolWet s inlet outlet flow leak) :=
  if_neg (by simp [hrun])
theorem coolWet_reg {k : Nat} (hk : k ≠ Obj.modAlertSeq) : (coolWet s inlet outlet flow leak).reg k = (coolNoted s inlet outlet flow leak).reg k :=
  (excursion_reg _ _ _ _ hk).trans ((excursion_reg _ _ _ _ hk).trans (excursion_reg _ _ _ _ hk))
theorem coolNoted_values : (coolNoted s inlet outlet flow leak).reg Obj.modInletC = inlet.toNat ∧
    (coolNoted s inlet outlet flow leak).reg Obj.modOutletC = outlet.toNat ∧
    (coolNoted s inlet outlet flow leak).reg Obj.modFlow = flow.toNat ∧
    (coolNoted s inlet outlet flow leak).reg Obj.modLeak = if leak = true then 1 else 0 := by
  unfold coolNoted modPins
  refine ⟨?_, ?_, ?_, ?_⟩
  · rw [withPins_reg, setReg_reg_of_ne _ _ _ (by decide), setReg_reg_of_ne _ _ _ (by decide), setReg_reg_of_ne _ _ _ (by decide)]
    exact setReg_reg_fits _ inlet.isLt
  · rw [withPins_reg, setReg_reg_of_ne _ _ _ (by decide), setReg_reg_of_ne _ _ _ (by decide)]
    exact setReg_reg_fits _ outlet.isLt
  · rw [withPins_reg, setReg_reg_of_ne _ _ _ (by decide)]
    exact setReg_reg_fits _ flow.isLt
  · rw [withPins_reg]
    exact setReg_reg_fits _ (by cases leak <;> decide)
theorem coolNoted_records : KeepsRecords 0 s (coolNoted s inlet outlet flow leak) := .of_same rfl rfl
theorem coolHot_records : KeepsRecords 1 s (coolHot s inlet outlet flow leak) :=
  (coolNoted_records s inlet outlet flow leak).trans (excursion_records ..)
theorem coolLow_records : KeepsRecords 2 s (coolLow s inlet outlet flow leak) := (coolHot_records s inlet outlet flow leak).trans (excursion_records ..)
theorem coolHot_reports (hhot : 1000 * (s.reg Obj.modCoolLimitC : Int) < inlet.toInt) (hwas : s.pins.hotInlet = false) :
    Reports s (coolWet s inlet outlet flow leak) 0x2A50 .note uDevice := by
  have hafter : KeepsRecords 2 (coolHot s inlet outlet flow leak) (coolWet s inlet outlet flow leak) :=
    (excursion_records (coolHot s inlet outlet flow leak) _ _ _).trans (excursion_records ..)
  rw [coolHot, excursion_begins _ _ _ _ hwas (decide_eq_true hhot)] at hafter
  exact (coolNoted_records s inlet outlet flow leak).reports hafter (by decide)
theorem coolLow_reports (hlow : flow.toNat < 2000) (hwas : s.pins.lowFlow = false) :
    Reports s (coolWet s inlet outlet flow leak) 0x2A52 .note uDevice := by
  have hafter : KeepsRecords 1 (coolLow s inlet outlet flow leak) (coolWet s inlet outlet flow leak) := excursion_records ..
  rw [coolLow, excursion_begins _ _ _ _ hwas (decide_eq_true hlow)] at hafter
  exact (coolHot_records s inlet outlet flow leak).reports hafter (by decide)
theorem coolWet_reports (hleak : leak = true) (hwas : s.reg Obj.modLeak ≠ 1) : Reports s (coolWet s inlet outlet flow leak) 0x2A51 .note uDevice := by
  have hafter : KeepsRecords 0 (coolWet s inlet outlet flow leak) (coolWet s inlet outlet flow leak) := .refl _
  rw (occs := .pos [1]) [coolWet] at hafter
  rw [excursion_begins _ _ _ _ (beq_false_of_ne hwas) hleak] at hafter
  exact (coolLow_records s inlet outlet flow leak).reports hafter (by decide)

end

/-! ### Straps (R457) -/

theorem execStrapCheck_taken {s : State} (feed : BitVec 4) (slot : BitVec 6) (hrun : s.running = true) :
    execStrapCheck feed slot s = .next (
      if (decide (feed.toNat + 16 * slot.toNat ≠ s.reg Obj.modStrapsLive) &&
        decide (feed.toNat + 16 * slot.toNat ≠ s.reg Obj.resFeed + 16 * s.reg Obj.resSlot)) = true
      then raise (s.setReg Obj.modStrapsLive (feed.toNat + 16 * slot.toNat)) 0x2A54 .note uDevice
      else s.setReg Obj.modStrapsLive (feed.toNat + 16 * slot.toNat)) := if_neg (by simp [hrun])

/-! ### SLEEP and the wake (R408, R418, R419) -/

theorem sleepWrite_taken {s : State} (h : ∀ id ∈ allDomains, s.domState id = dsOff) :
    sleepWrite s = Ans.ok (s.withPower { s.power with sleeping := true }) :=
  if_pos (List.all_eq_true.mpr fun id hid => beq_iff_eq.mpr (h id hid))
theorem sleepWrite_refused {s : State} (h : ∃ id ∈ allDomains, s.domState id ≠ dsOff) :
    sleepWrite s = Ans.refuse stState (domRefuse s domAlwaysOn rfSleep) := by
  obtain ⟨id, hid, hne⟩ := h
  exact if_neg fun hall => hne (beq_iff_eq.mp (List.all_eq_true.mp hall id hid))

/-- SLEEP and its end are as before. -/
def SleepKept (s t : State) : Prop := t.power.waking = s.power.waking ∧ t.power.sleeping = s.power.sleeping
theorem domRequest_sleep (s : State) (id v : Nat) : SleepKept s (domRequest s id v).2 := by
  unfold domRequest
  split
  next r _ =>
    have h := raise_power ((s.bump (ofUnit Obj.pwrDomRefused id) 1).setReg (ofUnit Obj.pwrDomLastRefuser id) r) 0x2A10 .note (uDomain id) r
    rw [setReg_power, bump_power] at h
    exact ⟨congrArg PowerState.waking h, congrArg PowerState.sleeping h⟩
  next =>
    by_cases hst : s.domState id = v
    · rw [domStart, if_pos hst]
      exact ⟨rfl, rfl⟩
    · rw [domStart_moves_on hst]
      exact ⟨rfl, rfl⟩

/-- The end of a wake, before its domains are asked for. -/
def wakeNoted (s : State) : State := raise ((s.withPower { s.power with waking := false, sleeping := false }).bump Obj.pwrWakes 1) 0x2A40 .note
  (uDomain domAlwaysOn)
theorem execSspWakeComplete_taken {s : State} (h : s.power.waking = true) : execSspWakeComplete s = .next
    (forAll (wakeDomains ((wakeNoted s).reg Obj.pwrWakeSet)) (fun id s => (domRequest s id dsOn).2) (wakeNoted s)) :=
  if_neg (by simp [h])

/-- Settles O18: each sample sets its objects before its events, and none of its events takes them back. -/
theorem moduleCommandsComplete : Obligations.ModuleCommandsComplete := by
  intro s
  refine ⟨fun ts hrun hcold => ?_, fun feed slot hrun => ?_, fun inlet outlet flow leak hrun => ?_, fun q hq hall => ?_, fun q hq hex => ?_,
    fun addr hgood hdead haddr => ?_, fun hwaking => ?_⟩
  · exact ⟨_, execThermalSample_stays hrun hcold, thermAll_stands s ts⟩
  · refine ⟨_, execStrapCheck_taken feed slot hrun, ?_, fun hnew hother => ?_⟩
    · have hset : (s.setReg Obj.modStrapsLive (feed.toNat + 16 * slot.toNat)).reg Obj.modStrapsLive = feed.toNat + 16 * slot.toNat :=
        setReg_reg_fits _ (Nat.lt_of_lt_of_le (m := 65536) (by have := feed.isLt; have := slot.isLt; omega) (by decide))
      split
      · exact (raise_reg_of_ne _ _ _ _ _ (by decide)).trans hset
      · exact hset
    · rw [if_pos (by simp [hnew, hother])]
      exact (raise_reports (s.setReg Obj.modStrapsLive (feed.toNat + 16 * slot.toNat)) 0x2A54 .note uDevice noPos).of_same rfl rfl
  · obtain ⟨hinlet, houtlet, hflow, hleak⟩ := coolNoted_values s inlet outlet flow leak
    exact ⟨_, execCoolantSample_taken s inlet outlet flow leak hrun, (coolWet_reg _ _ _ _ _ (by decide)).trans hinlet,
      (coolWet_reg _ _ _ _ _ (by decide)).trans houtlet, (coolWet_reg _ _ _ _ _ (by decide)).trans hflow,
      (coolWet_reg _ _ _ _ _ (by decide)).trans hleak, coolHot_reports s inlet outlet flow leak, coolLow_reports s inlet outlet flow leak,
      coolWet_reports s inlet outlet flow leak⟩
  · refine leads_action (f := sleepWrite) rfl hq ⟨?_, answered_of (sleepWrite_taken hall) ..⟩
    rw [show (answered s.beat q 2 Obj.pwrSleep (sleepWrite s)).power = (sleepWrite s).st.power from rfl, sleepWrite_taken hall]
    rfl
  · refine leads_action (f := sleepWrite) rfl hq ⟨?_, answered_of (sleepWrite_refused hex) .., ?_, ?_⟩
    · rw [show (answered s.beat q 2 Obj.pwrSleep (sleepWrite s)).power = (sleepWrite s).st.power from rfl, sleepWrite_refused hex]
      exact congrArg PowerState.sleeping (raise_power ..)
    · rw [answered_reg_of_page (by decide), sleepWrite_refused hex]
      exact domRefuse_lastRefuser s domAlwaysOn (by decide)
    · refine Reports.then (t := (sleepWrite s).st) ?_ rfl
      rw [sleepWrite_refused hex]
      exact domRefuse_reports s domAlwaysOn
  · have hexec : execSspAddressMatch addr s = .next (if s.power.sleeping = true
        then (s.emit .sspAck).withPower { s.power with waking := true } else s.emit .sspAck) :=
      if_neg (by simp [hgood, hdead, haddr])
    refine ⟨_, hexec, ?_, ?_⟩
    · split <;> rfl
    · split
      next h => rw [h, Bool.or_true]; rfl
      next h => rw [Bool.eq_false_of_not_eq_true h, Bool.or_false]; rfl
  · have hnoted : SleepKept (s.withPower { s.power with waking := false, sleeping := false }) (wakeNoted s) := by
      have h := raise_power ((s.withPower { s.power with waking := false, sleeping := false }).bump Obj.pwrWakes 1) 0x2A40 .note
        (uDomain domAlwaysOn) noPos
      exact ⟨congrArg PowerState.waking h, congrArg PowerState.sleeping h⟩
    have hwakes : (wakeNoted s).reg Obj.pwrWakes = min (s.reg Obj.pwrWakes + 1) (2 ^ 32 - 1) := by
      rw [wakeNoted, raise_reg_of_ne _ _ _ _ _ (by decide), bump_reg, if_pos rfl]
      rfl
    refine ⟨_, execSspWakeComplete_taken hwaking, ?_⟩
    refine forAll_induction (P := fun t => t.power.waking = false ∧ t.power.sleeping = false ∧
      t.reg Obj.pwrWakes = min (s.reg Obj.pwrWakes + 1) (2 ^ 32 - 1)) _ _ ⟨hnoted.1, hnoted.2, hwakes⟩ fun id t ⟨hwake, hsleep, hcount⟩ => ?_
    obtain ⟨hw, hs⟩ := domRequest_sleep t id dsOn
    exact ⟨hw.trans hwake, hs.trans hsleep, ((domRequest_moves t id dsOn (.refl _ t) (Sub.refl _)).reg _ (by decide)).trans hcount⟩

end Sys2Proof.Machine
end

section
/-! The boot's stages (R433, R437, R440, R441). -/

namespace Sys2Proof.Machine

theorem atStage_iff {s : State} {n : Nat} (hrun : s.running = true) (hstage : s.reg Obj.bootStage = n) : atStage s n = true := by
  unfold atStage
  rw [hrun, hstage, beq_self_eq_true, Bool.and_self]

/-! ### Recovery entered (R441) -/

section
variable (s : State) (reason : Nat)

/-- The stage, the reason and an empty buffer, before the event. -/
def recoveryNoted : State := modMgt (s.setReg Obj.bootStage 8) fun m => { m with reason := reason, recovery := [], recPst := 0 }
theorem enterRecovery_eq : enterRecovery s reason = forAll [4, 5, 6, 7] (fun p t => romPort t p)
    ((raise (recoveryNoted s reason) 0x1A04 .note uMgt).setReg Obj.fldState 1) := rfl
/-- What bringing up a port changes. -/
def romPortMask : Nat := maskOf ([.power] ++ objs [0x21, 0x71, 0x72])
theorem romPort_keeps (t : State) (p : Nat) : (romPort t p).mgt = t.mgt ∧ KeepsRecords 0 t (romPort t p) ∧
    ∀ k ∈ [Obj.bootStage, Obj.fldState], (romPort t p).reg k = t.reg k := by
  unfold romPort
  split
  · have hmoves := enterOn_moves _ (domEth p) 
      (setReg_moves (A := romPortMask) _ dsOn (page_pwrDom (domEth p) page_pwrDomState) (.refl _ t) (by decide)) (by decide)
    exact ⟨hmoves.same .mgt (by decide), .of_moves hmoves (by decide) (by decide), fun k hk => hmoves.reg k
      ((by decide : ∀ k ∈ [Obj.bootStage, Obj.fldState], Nat.testBit romPortMask (32 + page k) = false) k hk)⟩
  · exact ⟨rfl, .refl t, fun _ _ => rfl⟩
/-- Recovery entered: the stage, the field network's state, the reason, and the event. -/
theorem enterRecovery_enters : (enterRecovery s reason).reg Obj.bootStage = 8 ∧ (enterRecovery s reason).reg Obj.fldState = 1 ∧
    (enterRecovery s reason).mgt.reason = reason ∧ Reports s (enterRecovery s reason) 0x1A04 .note uMgt := by
  let u := (raise (recoveryNoted s reason) 0x1A04 .note uMgt).setReg Obj.fldState 1
  have hports : (enterRecovery s reason).mgt = u.mgt ∧ KeepsRecords 0 u (enterRecovery s reason) ∧
      ∀ k ∈ [Obj.bootStage, Obj.fldState], (enterRecovery s reason).reg k = u.reg k := by
    rw [enterRecovery_eq]
    refine forAll_induction (P := fun t => t.mgt = u.mgt ∧ KeepsRecords 0 u t ∧ ∀ k ∈ [Obj.bootStage, Obj.fldState], t.reg k = u.reg k) _ _
      ⟨rfl, .refl u, fun _ _ => rfl⟩ fun p t ⟨hmgt, hlog, hreg⟩ => ?_
    obtain ⟨hmgt', hlog', hreg'⟩ := romPort_keeps t p
    exact ⟨hmgt'.trans hmgt, hlog.trans hlog', fun k hk => (hreg' k hk).trans (hreg k hk)⟩
  obtain ⟨hmgt, hlog, hreg⟩ := hports
  refine ⟨?_, ?_, ?_, ?_⟩
  · rw [hreg _ (by decide), setReg_reg_of_ne _ _ _ (by decide), raise_reg_of_ne _ _ _ _ _ (by decide)]
    exact setReg_reg_fits (k := Obj.bootStage) (v := 8) s (by decide)
  · rw [hreg _ (by decide)]
    exact setReg_reg_fits (k := Obj.fldState) (v := 1) _ (by decide)
  · rw [hmgt]
    exact congrArg MgtState.reason (raise_mgt ..)
  · have hset : KeepsRecords 0 (raise (recoveryNoted s reason) 0x1A04 .note uMgt) u := .of_same (setReg_log ..) (setReg_counter ..)
    exact (KeepsRecords.of_same (t := s) (u := recoveryNoted s reason) rfl rfl).reports (hset.trans hlog) (by decide)

end

/-! ### Identity and firmware (R433, R440, R442) -/

/-- The boot's identity, before its comparison. -/
def identityNoted (s : State) (key : BitVec 1064) : State :=
  modMgt ((s.setReg Obj.bootStage 2).bump Obj.bootCount 1) fun m => { m with identity := leBytes 133 key.toNat }
theorem execBootIdentity_taken {s : State} {key : BitVec 1064} (h : atStage s 1 = true) : execBootIdentity key s =
    if leBytes 133 key.toNat = s.flash.deviceKey then .next ((identityNoted s key).setReg Obj.secIdState 1)
    else .next (raise ((identityNoted s key).setReg Obj.secIdState 2) 0x9A01 .fatal uMgt) := if_neg (by simp [h])
theorem identityNoted_values (s : State) (key : BitVec 1064) : (identityNoted s key).reg Obj.bootStage = 2 ∧
    (identityNoted s key).reg Obj.bootCount = min (s.reg Obj.bootCount + 1) (2 ^ 32 - 1) := by
  unfold identityNoted modMgt
  refine ⟨?_, ?_⟩
  · rw [withMgt_reg, bump_reg_of_ne _ _ _ (by decide)]
    exact setReg_reg_fits s (by decide)
  · rw [withMgt_reg, bump_reg, if_pos rfl, setReg_reg_of_ne _ _ _ (by decide)]
    rfl
/-- A field of four bytes of an image. -/
theorem leNat_word_lt (b : List Byte) (i : Nat) : leNat ((b.drop i).take 4) < 256 ^ 4 :=
  Nat.lt_of_lt_of_le (leNat_lt _) (Nat.pow_le_pow_right (by decide) (List.length_take_le ..))
theorem runFirmware_shows (s : State) (b : List Byte) : (runFirmware s b).reg Obj.idFwVersion = firmwareVersion b ∧
    (runFirmware s b).reg Obj.idFwSvn = firmwareSvn b ∧ (runFirmware s b).mgt.regFw = sha512 (s.mgt.regFw ++ sha512 b) := by
  unfold runFirmware measureFw modMgt
  refine ⟨?_, ?_, rfl⟩
  · rw [withMgt_reg, setReg_reg_of_ne _ _ _ (by decide)]
    exact setReg_reg_fits s (leNat_word_lt b 8)
  · rw [withMgt_reg]
    exact setReg_reg_fits _ (leNat_word_lt b 0xC)
theorem execBootFirmware_taken {s : State} (h : atStage s 2 = true) : execBootFirmware s =
    if !firmwareOk s.flash.firmware false then .next (enterRecovery s 1)
    else if firmwareSvn s.flash.firmware < s.reg Obj.secMinSvn then .next (enterRecovery s 3)
    else .next (runFirmware (s.setReg Obj.bootStage 3) s.flash.firmware) := if_neg (by simp [h])

/-! ### Configuration (R437, R414, R385) -/

/-- Configuration that has been applied, with the tables made active. -/
def configured (s1 : State) : State :=
  writeIdentity ((forAll (List.range 6) (fun d s => pstLoad s d) (s1.setReg Obj.bootStage 4)).setReg Obj.fldState 1)
theorem execBootConfig_recovers {s : State} (h : atStage s 3 = true)
    (hbad : ((applyRecords s).isSome && (List.range 6).all fun d => pstPasses d (s.flash.pst.getD d [])) = false) :
    execBootConfig s = .next (enterRecovery s 2) := by
  unfold execBootConfig
  rw [if_neg (by simp [h])]
  cases happly : applyRecords s with
  | none => rfl
  | some s1 =>
    rw [happly, Option.isSome_some, Bool.true_and] at hbad
    exact if_pos (by rw [hbad]; rfl)
theorem execBootConfig_configures {s s1 : State} (h : atStage s 3 = true) (happly : applyRecords s = some s1)
    (hpst : ((List.range 6).all fun d => pstPasses d (s.flash.pst.getD d [])) = true) : execBootConfig s = .next (configured s1) := by
  unfold execBootConfig
  rw [if_neg (by simp [h]), happly]
  exact if_neg (by rw [hpst]; decide)
theorem configured_values (s1 : State) : (configured s1).reg Obj.bootStage = 4 ∧ (configured s1).reg Obj.fldState = 1 := by
  have htables : (forAll (List.range 6) (fun d s => pstLoad s d) (s1.setReg Obj.bootStage 4)).reg Obj.bootStage = 4 :=
    forAll_induction (P := fun t => t.reg Obj.bootStage = 4) _ _ (setReg_reg_fits s1 (by decide)) fun d t ht =>
      ((pstLoad_moves t d (.refl _ t) (Sub.refl _)).reg _ (by decide)).trans ht
  have hidentity (t : State) := writeIdentity_moves t (.refl _ t) (Sub.refl _)
  refine ⟨?_, ((hidentity _).reg _ (by decide)).trans (setReg_reg_fits _ (by decide))⟩
  exact ((hidentity _).reg _ (by decide)).trans ((setReg_reg_of_ne _ _ _ (by decide)).trans htables)

/-! ### Domains asked for one after another (R404, R440) -/

/-- What the refusal of a request ON looks at. -/
structure AsksSame (s t : State) : Prop where
  reg : ∀ k ∈ [Obj.cfgUnitMap, Obj.resFencedMap], t.reg k = s.reg k
  throttle : t.power.throttle = s.power.throttle
theorem domRequest_asks (s : State) (id v : Nat) : AsksSame s (domRequest s id v).2 := by
  have hmoves := domRequest_moves s id v (.refl _ s) (Sub.refl _)
  refine ⟨fun k hk => hmoves.reg k ((by decide : ∀ k ∈ [Obj.cfgUnitMap, Obj.resFencedMap], Nat.testBit _ (32 + page k) = false) k hk), ?_⟩
  unfold domRequest
  split
  next r _ =>
    have h := raise_power ((s.bump (ofUnit Obj.pwrDomRefused id) 1).setReg (ofUnit Obj.pwrDomLastRefuser id) r) 0x2A10 .note (uDomain id) r
    rw [setReg_power, bump_power] at h
    exact congrArg PowerState.throttle h
  next =>
    by_cases hst : s.domState id = v
    · rw [domStart, if_pos hst]
      rfl
    · rw [domStart_moves_on hst]
      rfl
/-- A request changes the state of its own domain at most. -/
theorem domRequest_domState_of_ne (s : State) {id j : Nat} (v : Nat) (h : j ≠ id) : (domRequest s id v).2.domState j = s.domState j := by
  unfold domRequest
  split
  next r _ => exact (domRefuse_doms s id).domState j
  next =>
    by_cases hst : s.domState id = v
    · rw [domStart, if_pos hst]
      exact (DomsKept.setUnit s id v (by decide)).domState j
    · rw [domStart_moves_on hst, setDom_domState_of_ne _ _ h]
      exact (DomsKept.setUnit s id v (by decide)).domState j
namespace AsksSame
variable {s t : State}

theorem domPresent (h : AsksSame s t) : t.domPresent = s.domPresent := by
  funext id
  unfold State.domPresent State.corePresent State.mapBit
  rw [h.reg _ (by decide)]
theorem coreFenced (h : AsksSame s t) : t.coreFenced = s.coreFenced := by
  funext id
  unfold State.coreFenced State.corePresent State.mapBit
  rw [h.reg Obj.cfgUnitMap (by decide), h.reg Obj.resFencedMap (by decide)]
theorem bootWants (h : AsksSame s t) : bootWants t = bootWants s := by
  unfold Machine.bootWants
  rw [h.domPresent, h.coreFenced]
theorem refusesOn (h : AsksSame s t) {id : Nat} (hparent : ∀ p ∈ parentOf id, t.domOn p = s.domOn p) : refusesOn t id = refusesOn s id := by
  unfold Machine.refusesOn
  rw [h.domPresent, h.coreFenced, h.throttle]
  cases hp : parentOf id with
  | none => rfl
  | some p =>
    dsimp only
    rw [hparent p hp]
end AsksSame

/-- A domain stands OFF and may be asked for ON. -/
structure OnAsked (s : State) (id : Nat) : Prop where
  ready : bootReady s id = true
  free : domRefusal s id dsOn = none
namespace OnAsked
variable {s : State} {id j : Nat}

theorem off (h : OnAsked s id) : s.domState id = dsOff := by
  have hready := h.ready
  rw [bootReady, Bool.and_eq_true, beq_iff_eq] at hready
  exact hready.1
theorem parentOn (h : OnAsked s id) {p : Nat} (hp : p ∈ parentOf id) : s.domOn p = true := by
  have hready := h.ready
  rw [bootReady, Bool.and_eq_true, Option.mem_def.mp hp] at hready
  exact hready.2
/-- What leaves the domain's state, its parent's and what a refusal looks at leaves it so. -/
theorem of_same (h : OnAsked s id) {t : State} (hasks : AsksSame s t) (hstate : t.domState id = s.domState id)
    (hparent : ∀ p ∈ parentOf id, t.domOn p = s.domOn p) : OnAsked t id := by
  have hasked := asks_of_domRefusal_none h.free
  have hfree := h.free
  have hready := h.ready
  refine ⟨?_, ?_⟩
  · unfold bootReady at hready ⊢
    rw [hstate]
    cases hp : parentOf id with
    | none => rwa [hp] at hready
    | some p =>
      rw [hp, Option.map_some] at hready
      rwa [Option.map_some, hparent p hp]
  · rw [domRefusal_of_asks hasked] at hfree ⊢
    rw [if_neg fun hon => hon.2 rfl] at hfree ⊢
    rwa [hstate, hasks.refusesOn hparent]
/-- Its own request starts its transition. -/
theorem requested (h : OnAsked s id) : (domRequest s id dsOn).2.domState id = dsEntering := by
  obtain ⟨hid, -⟩ := asksState_bounds (asks_of_domRefusal_none h.free)
  have hne : s.domState id ≠ dsOn := by rw [h.off]; decide
  unfold domRequest
  rw [h.free]
  dsimp only
  rw [domStart_domState hid hne]
  exact if_neg (by rw [h.off]; decide)
/-- The request of another domain that stands OFF leaves it as it is. -/
theorem other (h : OnAsked s id) (hj : j ≠ id) (hoff : bootReady s j = true) : OnAsked (domRequest s j dsOn).2 id := by
  have hstate := domRequest_domState_of_ne s dsOn hj.symm
  have hparent : ∀ p ∈ parentOf id, (domRequest s j dsOn).2.domOn p = s.domOn p := fun p hp => by
    have hon := h.parentOn hp
    have hpj : p ≠ j := fun he => by
      rw [bootReady, Bool.and_eq_true, beq_iff_eq] at hoff
      rw [he, State.domOn, hoff.1] at hon
      exact absurd hon (by decide)
    unfold State.domOn
    rw [domRequest_domState_of_ne s dsOn hpj]
  exact h.of_same (domRequest_asks s j dsOn) hstate hparent
end OnAsked

/-- One domain of the boot, asked for where it is ready. -/
def bootAsk (id : Nat) (s : State) : State := if bootReady s id then (domRequest s id dsOn).2 else s
theorem requestDomains_eq (s : State) : requestDomains s = forAll (bootWants s) bootAsk s := rfl
theorem bootAsk_entering {s : State} {id : Nat} (j : Nat) (h : s.domState id = dsEntering) : (bootAsk j s).domState id = dsEntering := by
  unfold bootAsk
  split
  next hready =>
    have hj : id ≠ j := fun he => by
      subst he
      rw [bootReady, h, Bool.and_eq_true] at hready
      exact absurd hready.1 (by decide)
    exact (domRequest_domState_of_ne s dsOn hj).trans h
  next => exact h
theorem bootAsks_entering (ids : List Nat) {s : State} {id : Nat} (h : s.domState id = dsEntering) :
    (forAll ids bootAsk s).domState id = dsEntering :=
  forAll_induction (P := fun t => t.domState id = dsEntering) ids bootAsk h fun j _ ht => bootAsk_entering j ht
/-- Among domains asked for in turn, one that may be asked for is entered. -/
theorem bootAsks_enter (ids : List Nat) {s : State} {id : Nat} (hmem : id ∈ ids) (h : OnAsked s id) :
    (forAll ids bootAsk s).domState id = dsEntering := by
  induction ids generalizing s with
  | nil => cases hmem
  | cons j ids ih =>
    change (forAll ids bootAsk (bootAsk j s)).domState id = dsEntering
    by_cases hj : j = id
    · subst hj
      refine bootAsks_entering ids ?_
      rw [bootAsk, if_pos h.ready]
      exact h.requested
    · refine ih ((List.mem_cons.mp hmem).resolve_left fun he => hj he.symm) ?_
      unfold bootAsk
      split
      next hready => exact h.other hj hready
      next => exact h
theorem requestDomains_stage (s : State) : (requestDomains s).reg Obj.bootStage = s.reg Obj.bootStage :=
  (requestDomains_moves s (.refl _ s) (Sub.refl _)).reg _ (by decide)

/-- The boot's stage says nothing of what domains it wants and which may be asked for. -/
theorem bootPowered (s : State) {id : Nat} (hmem : id ∈ bootWants s) (h : OnAsked s id) :
    id ∈ bootWants (s.setReg Obj.bootStage 5) ∧ OnAsked (s.setReg Obj.bootStage 5) id := by
  have hdoms : DomsKept s (s.setReg Obj.bootStage 5) := .setReg s _ _ (by decide)
  have hasks : AsksSame s (s.setReg Obj.bootStage 5) :=
    ⟨fun k hk => setReg_reg_of_ne _ _ _ ((by decide : ∀ k ∈ [Obj.cfgUnitMap, Obj.resFencedMap], k ≠ Obj.bootStage) k hk), rfl⟩
  exact ⟨by rwa [hasks.bootWants], h.of_same hasks (hdoms.domState id) fun p _ => hdoms.domOn p⟩

/-! ### Memory (R440) -/

/-- Memory with the tiers T0 to T2 written to zero. -/
def bootMemoryOf (m : MemState) : MemState :=
  { m with cells := m.cells.filter (fun c => decide (0x040000000000 ≤ c.1)), poison := m.poison.filter fun w => decide (0x040000000000 ≤ 8 * w.1) }
theorem bootMemoryOf_byte (m : MemState) (a : Nat) :
    memByte (bootMemoryOf m) a = if a < 0x040000000000 then memDefault a else memByte m a := by
  split
  next h =>
    refine smGet_of_not_mem memDefault fun p hp he => ?_
    have hkept := (List.mem_filter.mp hp).2
    rw [he, decide_eq_true_eq] at hkept
    omega
  next h => exact smGet_filter memDefault m.cells fun _ => decide_eq_true (Nat.le_of_not_lt h)
theorem execBootMemory_taken {s : State} (h : atStage s 5 = true) (hon : ∀ id ∈ bootWants s, s.domOn id = true) :
    execBootMemory s = .next ((s.setReg Obj.bootStage 6).withMem (bootMemoryOf s.mem)) :=
  if_neg (by rw [h, List.all_eq_true.mpr hon]; decide)

/-- Settles O19: each stage sets the next, or recovery where its check fails. -/
theorem bootCommandsComplete : Obligations.BootCommandsComplete := by
  intro s hrun
  refine ⟨fun key hstage => ?_, fun hstage => ?_, fun hstage => ?_, fun hstage => ?_, fun hstage => ?_, fun hstage hon => ?_, fun ms hstage => ?_⟩
  · obtain ⟨hboot, hcount⟩ := identityNoted_values s key
    by_cases hkey : leBytes 133 key.toNat = s.flash.deviceKey
    · refine ⟨(identityNoted s key).setReg Obj.secIdState 1, (execBootIdentity_taken (atStage_iff hrun hstage)).trans (if_pos hkey), ?_, ?_, rfl, ?_,
        fun hne => absurd hkey hne⟩
      · exact (setReg_reg_of_ne _ _ _ (by decide)).trans hboot
      · exact (setReg_reg_of_ne _ _ _ (by decide)).trans hcount
      · rw [if_pos hkey]
        exact setReg_reg_fits _ (by decide)
    · let u := (identityNoted s key).setReg Obj.secIdState 2
      have hreg {k : Nat} (hk : k ≠ Obj.modAlertSeq) : (raise u 0x9A01 .fatal uMgt).reg k = u.reg k := raise_reg_of_ne _ _ _ _ _ hk
      refine ⟨raise u 0x9A01 .fatal uMgt, (execBootIdentity_taken (atStage_iff hrun hstage)).trans (if_neg hkey), ?_, ?_, ?_, ?_,
        fun _ => ⟨raise_fatal_latches .., ?_⟩⟩
      · exact (hreg (by decide)).trans ((setReg_reg_of_ne _ _ _ (by decide)).trans hboot)
      · exact (hreg (by decide)).trans ((setReg_reg_of_ne _ _ _ (by decide)).trans hcount)
      · exact congrArg MgtState.identity (raise_mgt ..)
      · rw [if_neg hkey, hreg (by decide)]
        exact setReg_reg_fits _ (by decide)
      · exact (raise_reports u 0x9A01 .fatal uMgt noPos).of_same rfl rfl
  · have hexec := execBootFirmware_taken (atStage_iff hrun hstage)
    by_cases hok : firmwareOk s.flash.firmware false = true
    · rw [if_neg (by simp [hok])] at hexec
      by_cases hsvn : s.reg Obj.secMinSvn ≤ firmwareSvn s.flash.firmware
      · rw [if_neg (by omega)] at hexec
        obtain ⟨hversion, hsvn', hmeasure⟩ := runFirmware_shows (s.setReg Obj.bootStage 3) s.flash.firmware
        refine ⟨_, hexec, ?_, fun _ => ⟨hversion, hsvn', hmeasure⟩, fun hbad => absurd hbad (by simp [hok, hsvn])⟩
        rw [if_pos (by simp [hok, hsvn])]
        exact ((runFirmware_moves _ _ (.refl _ _) (Sub.refl _)).reg _ (by decide)).trans (setReg_reg_fits s (by decide))
      · rw [if_pos (by omega)] at hexec
        obtain ⟨hboot, -, hreason, hevent⟩ := enterRecovery_enters s 3
        exact ⟨_, hexec, by rw [hboot, if_neg (by simp [hsvn])], fun hgood => absurd hgood (by simp [hsvn]),
          fun _ => ⟨by rw [hreason, if_pos hok], hevent⟩⟩
    · rw [if_pos (by simp [hok])] at hexec
      obtain ⟨hboot, -, hreason, hevent⟩ := enterRecovery_enters s 1
      exact ⟨_, hexec, by rw [hboot, if_neg (by simp [hok])], fun hgood => absurd hgood (by simp [hok]),
        fun _ => ⟨by rw [hreason, if_neg hok], hevent⟩⟩
  · have hat := atStage_iff hrun hstage
    by_cases hok : ((applyRecords s).isSome && (List.range 6).all fun d => pstPasses d (s.flash.pst.getD d [])) = true
    · obtain ⟨happly, hpst⟩ := Bool.and_eq_true_iff.mp hok
      obtain ⟨s1, hs1⟩ := Option.isSome_iff_exists.mp happly
      obtain ⟨hboot, hfield⟩ := configured_values s1
      exact ⟨_, execBootConfig_configures hat hs1 hpst, by rw [hboot, if_pos hok], hfield, fun hbad => absurd hok (by rw [hbad]; decide)⟩
    · obtain ⟨hboot, hfield, hreason, hevent⟩ := enterRecovery_enters s 2
      exact ⟨_, execBootConfig_recovers hat (Bool.eq_false_of_not_eq_true hok), by rw [hboot, if_neg hok], hfield, fun _ => ⟨hreason, hevent⟩⟩
  · refine ⟨_, if_neg (by simp [atStage_iff hrun hstage]), ?_, fun id hid hready hfree => ?_⟩
    · exact (requestDomains_stage _).trans (setReg_reg_fits s (by decide))
    · obtain ⟨hmem, hasked⟩ := bootPowered s hid ⟨hready, hfree⟩
      exact bootAsks_enter _ hmem hasked
  · refine ⟨_, if_neg (by simp [atStage_iff hrun hstage]), ?_, fun id hid hready hfree => bootAsks_enter _ hid ⟨hready, hfree⟩⟩
    exact (requestDomains_stage s).trans hstage
  · exact ⟨_, execBootMemory_taken (atStage_iff hrun hstage) hon, setReg_reg_fits (k := Obj.bootStage) (v := 6) s (by decide), bootMemoryOf_byte s.mem⟩
  · refine ⟨_, if_neg (by simp [atStage_iff hrun hstage]), ?_, ?_, ?_⟩
    · rw [raise_reg_of_ne _ _ _ _ _ (by decide), setReg_reg_of_ne _ _ _ (by decide)]
      exact setReg_reg_fits s (by decide)
    · rw [raise_reg_of_ne _ _ _ _ _ (by decide)]
      exact setReg_reg_fits _ ms.isLt
    · exact (raise_reports ((s.setReg Obj.bootStage 7).setReg Obj.bootReadyMs ms.toNat) 0x1A01 .note uMgt noPos).of_same rfl rfl

end Sys2Proof.Machine
end

section
/-! Recovery, a staged record and the end of a warm restart (R439, R441, R446). -/

namespace Sys2Proof.Machine

/-! ### Recovery (R441) -/

/-- The device's request on each of some ports: sending one changes nothing that the next says. -/
theorem recoverReqs_sent (ports : List Nat) (s : State) :
    (forAll ports (fun p t => t.emit (.recoverReq p (recoverValue t))) s).outbox = s.outbox ++ ports.map fun p => .recoverReq p (recoverValue s) := by
  induction ports generalizing s with
  | nil => exact (List.append_nil _).symm
  | cons p ports ih =>
    refine (ih (s.emit (.recoverReq p (recoverValue s)))).trans ?_
    rw [emit_outbox, List.append_assoc]
    rfl
section
variable (m : SMap Byte) (n : Nat) (bs : List Byte)

theorem putBlock_inside {i : Nat} (hi : i < bs.length) : smGet dRec (putBlock m n bs) (n + i) = bs.getD i 0 := by
  refine smGet_setMany_of_mem dRec m ?_ ?_
  · rw [List.pairwise_map]
    have hsnd : (bs.zipIdx.map Prod.snd).Nodup := by
      rw [List.zipIdx_map_snd]
      exact List.nodup_range'
    exact (List.pairwise_map.mp hsnd).imp fun h he => h (Nat.add_left_cancel he)
  · rw [List.mem_map]
    refine ⟨(bs[i], i), ?_, ?_⟩
    · rw [List.mem_zipIdx_iff_getElem?]
      exact List.getElem?_eq_getElem hi
    · rw [List.getD_eq_getElem _ _ hi]
theorem putBlock_outside {a : Nat} (ha : a < n ∨ n + bs.length ≤ a) : smGet dRec (putBlock m n bs) a = smGet dRec m a := by
  refine smGet_setMany_of_not_mem dRec m fun p hp => ?_
  obtain ⟨⟨b, i⟩, hmem, rfl⟩ := List.mem_map.mp hp
  have hi : i < bs.length := by
    rw [List.mem_zipIdx_iff_getElem?] at hmem
    exact (List.getElem?_eq_some_iff.mp hmem).1
  dsimp only
  omega

end

/-! ### A staged record (R439) -/

theorem mem_setAt (i : Nat) (v : List Byte) (xs : List (List Byte)) : v ∈ setAt i v xs := by
  induction xs generalizing i with
  | nil => exact List.mem_append_right _ (List.mem_singleton_self v)
  | cons x xs ih =>
    rw [setAt]
    split
    · exact List.mem_cons_self
    · exact List.mem_cons_of_mem _ (ih (i - 1))
theorem storeRecord_flash (s : State) (kind : Nat) (b : List Byte) :
    b ∈ if kind = 1 then (storeRecord s kind b).flash.factory else (storeRecord s kind b).flash.owner := by
  by_cases hk : kind = 1
  · rw [if_pos hk, storeRecord, if_pos hk]
    exact mem_setAt ..
  · rw [if_neg hk, storeRecord, if_neg hk]
    exact mem_setAt ..
theorem storeRecord_mgt (s : State) (kind : Nat) (b : List Byte) : (storeRecord s kind b).mgt = s.mgt := by
  by_cases hk : kind = 1
  · rw [storeRecord, if_pos hk]; rfl
  · rw [storeRecord, if_neg hk]; rfl

/-- The record that was staged is no longer. -/
def recordDone (s : State) : State := modMgt s fun m => { m with record := none }
theorem execCfgRecordDone_taken {s : State} {b : List Byte} (h : s.mgt.record = some b) : execCfgRecordDone s =
    if (blockFld b 6 1 = 1 ∨ blockFld b 6 1 = 2) ∧ recordPasses s (blockFld b 6 1) b ∧
        s.reg (if blockFld b 6 1 = 1 then Obj.cfgFactorySeq else Obj.cfgOwnerSeq) < cfgSeq b
    then .next ((storeRecord (recordDone s) (blockFld b 6 1) b).setReg Obj.cfgState 3)
    else .next (raise ((recordDone s).setReg Obj.cfgState 4) 0x1A06 .note uMgt) := by
  unfold execCfgRecordDone
  rw [h]
  rfl

/-! ### The end of a warm restart (R446, R448) -/

section
variable (s : State)

/-- A core in the map of fenced cores stays there. -/
theorem faultFence_map_kept (core : Nat) {n : Nat} (hn : n < 256) (h : bitOf (s.reg Obj.resFencedMap) n = true) :
    bitOf ((faultFence s core).reg Obj.resFencedMap) n = true := by
  rw [faultFence_eq, raise_reg _ _ _ _ _ _ (by decide), (fencedOut_moves s core).reg Obj.resFencedMap (by decide), mapSet, refreshFenced,
    setReg_reg_of_obj _ _ (by unfold objPart Obj.schedClFenced Obj.resFencedMap ob; omega), setReg_reg_self, bitOf,
    show 256 ^ objSize (objPart Obj.resFencedMap) = 2 ^ 256 by decide, Nat.testBit_mod_two_pow, Nat.testBit_or, decide_eq_true hn]
  rw [bitOf] at h
  simp [h]
/-- Every core fenced after another is in the map. -/
theorem faultFences_map (cores : List Nat) {n : Nat} (hn : n < 256) (h : n ∈ cores ∨ bitOf (s.reg Obj.resFencedMap) n = true) :
    bitOf ((forAll cores (fun core t => faultFence t core) s).reg Obj.resFencedMap) n = true := by
  induction cores generalizing s with
  | nil => exact h.resolve_left List.not_mem_nil
  | cons core cores ih =>
    refine ih (faultFence s core) ?_
    rcases h with h | h
    · rcases List.mem_cons.mp h with rfl | h
      · exact .inr (faultFence_map s n hn)
      · exact .inl h
    · exact .inr (faultFence_map_kept s core hn h)
theorem faultFence_records (core : Nat) : KeepsRecords 770 s (faultFence s core) := by
  rw [faultFence_eq]
  exact (fencedOut_records s core).trans (.raise _ _ _ _ _)

/-- The log takes records, and none is held back. -/
def NoneHeld (s : State) : Prop := s.log.holding = false ∧ s.log.held = []
theorem KeepsRecords.noneHeld {s t : State} {n : Nat} (h : KeepsRecords n s t) (hs : NoneHeld s) : NoneHeld t :=
  ⟨h.holding.trans hs.1, (h.held hs.1).trans hs.2⟩
theorem fenceWaiting_noneHeld (h : NoneHeld s) : NoneHeld (fenceWaiting s) :=
  forAll_induction (P := NoneHeld) _ _ h fun core t ht => (faultFence_records t core).noneHeld ht
theorem fenceWaiting_mgt : (fenceWaiting s).mgt = { s.mgt with faults := [] } :=
  forAll_induction (P := fun t => t.mgt = { s.mgt with faults := [] }) _ _ rfl fun core t ht => by
    have hsame : (faultFence t core).mgt = t.mgt := (faultFence_moves t core (.refl _ t) (Sub.refl _)).same .mgt (by decide)
    exact hsame.trans ht
theorem logHeld_noneHeld : NoneHeld (logHeld s) :=
  forAll_induction (P := NoneHeld) _ _ ⟨rfl, rfl⟩ fun e t ⟨hholding, hheld⟩ =>
    ⟨(logRecord_held t e).2.trans hholding, (logRecord_held t e).1.trans hheld⟩

/-- Of the factory's records the best is the same where the module's serial number is. -/
theorem bestFactory_congr {s t : State} (h : t.reg Obj.idSerial = s.reg Obj.idSerial) (slots : List (List Byte)) :
    bestRecord t 1 slots = bestRecord s 1 slots := by
  have hpasses : recordPasses t 1 = recordPasses s 1 := by
    funext b
    unfold recordPasses
    rw [h, if_pos rfl, if_pos rfl]
  unfold bestRecord
  rw [hpasses]

/-- The management controller's firmware runs again, before the records. -/
def firmwareAgain (s : State) : State := runFirmware (logHeld (modMgt s fun m => { m with restarting := false }))
  (logHeld (modMgt s fun m => { m with restarting := false })).flash.firmware
/-- The end of the restart, after the records have been applied. -/
def restartEnded (u : State) : State := raise ((u.setReg Obj.fwState 0).bump Obj.bootWarm 1) 0x1A02 .note uMgt
theorem execWarmRestartDone_taken {s : State} (h : s.mgt.restarting = true) :
    execWarmRestartDone s = .next (fenceWaiting (restartEnded ((applyRecords (firmwareAgain s)).getD (firmwareAgain s)))) := if_neg (by simp [h])
theorem fenceWaiting_reg (u : State) {k : Nat} (hk : k ∈ [Obj.fwState, Obj.bootWarm, Obj.idFwVersion]) : (fenceWaiting u).reg k = u.reg k :=
  (fenceWaiting_moves u (.refl _ u) (Sub.refl _)).reg k ((by decide : ∀ k ∈ [Obj.fwState, Obj.bootWarm, Obj.idFwVersion],
    Nat.testBit _ (32 + page k) = false) k hk)
theorem restartEnded_fwState (u : State) : (fenceWaiting (restartEnded u)).reg Obj.fwState = 0 := by
  rw [fenceWaiting_reg _ (by decide), restartEnded, raise_reg_of_ne _ _ _ _ _ (by decide), bump_reg_of_ne _ _ _ (by decide)]
  exact setReg_reg_fits u (by decide)
theorem firmwareAgain_kept : (firmwareAgain s).flash = s.flash ∧ (firmwareAgain s).mgt.restarting = false ∧
    (firmwareAgain s).mgt.faults = s.mgt.faults ∧ (firmwareAgain s).reg Obj.idSerial = s.reg Obj.idSerial ∧
    (firmwareAgain s).reg Obj.bootWarm = s.reg Obj.bootWarm := by
  have hlog := logHeld_moves (modMgt s fun m => { m with restarting := false }) (.refl _ _) (Sub.refl _)
  have hmgt : (logHeld (modMgt s fun m => { m with restarting := false })).mgt = { s.mgt with restarting := false } := hlog.same .mgt (by decide)
  have hflash := hlog.same .flash (by decide)
  have hfirmware : (firmwareAgain s).mgt.restarting = (logHeld (modMgt s fun m => { m with restarting := false })).mgt.restarting ∧
      (firmwareAgain s).mgt.faults = (logHeld (modMgt s fun m => { m with restarting := false })).mgt.faults := ⟨rfl, rfl⟩
  rw [hmgt] at hfirmware
  refine ⟨hflash, hfirmware.1, hfirmware.2, ?_, ?_⟩
  · exact (setReg_reg_of_ne _ _ _ (by decide)).trans ((setReg_reg_of_ne _ _ _ (by decide)).trans (hlog.reg _ (by decide)))
  · exact (setReg_reg_of_ne _ _ _ (by decide)).trans ((setReg_reg_of_ne _ _ _ (by decide)).trans (hlog.reg _ (by decide)))

end

/-- Settles O20: a record checked is written or reported; the end of a warm restart logs what was held, runs the firmware and fences what
waited. -/
theorem recoveryCommandsComplete : Obligations.RecoveryCommandsComplete := by
  intro s
  refine ⟨fun hrun hstage hidle => ?_, fun block bytes hrun hstage hlen hfit => ?_, fun tag len hrun hstage hfit hidle => ?_,
    fun b hrec => ?_, fun hwarm => ?_, fun hwarm hnone => ?_⟩
  · exact ⟨_, if_neg (by simp [hrun, hstage, hidle]), recoverReqs_sent (s.activePorts 1) s⟩
  · have hexec : execRecoveryBlockRx block bytes s = .next ((modMgt s fun m => { m with recovery := putBlock m.recovery (1024 * block.toNat) bytes }).emit
        (.recoverAnswer block.toNat 0x87 stOk)) := by
      unfold execRecoveryBlockRx
      rw [if_neg (by simp [hrun, hstage]), if_neg (by omega), if_neg (by omega)]
    exact ⟨_, hexec, rfl, fun i hi => putBlock_inside _ _ _ hi, fun a ha => putBlock_outside _ _ _ ha⟩
  · have hexec : execRecoverGoRx tag len s = if firmwareOk (recoveryImage s len.toNat) true = true
        then .next ((runRecovery s).emit (.recoverAnswer tag.toNat 0x88 stOk)) else .next (s.emit (.recoverAnswer tag.toNat 0x88 stAuth)) := by
      unfold execRecoverGoRx
      rw [if_neg (by simp [hrun, hstage]), if_neg (by omega), if_pos hidle]
    by_cases hok : firmwareOk (recoveryImage s len.toNat) true = true
    · refine ⟨_, hexec.trans (if_pos hok), ?_, ?_⟩
      · rw [if_pos hok]
        exact setReg_reg_fits (k := Obj.bootRecovery) (v := 1) s (by decide)
      · rw [if_pos hok]
        rfl
    · refine ⟨_, hexec.trans (if_neg hok), ?_, ?_⟩
      · rw [if_neg hok]
        exact hidle
      · rw [if_neg hok]
        rfl
  · have hexec := execCfgRecordDone_taken hrec
    have hbool : ((blockFld b 6 1 == 1 || blockFld b 6 1 == 2) && recordPasses s (blockFld b 6 1) b &&
        decide (s.reg (if blockFld b 6 1 = 1 then Obj.cfgFactorySeq else Obj.cfgOwnerSeq) < cfgSeq b)) = true ↔
        (blockFld b 6 1 = 1 ∨ blockFld b 6 1 = 2) ∧ recordPasses s (blockFld b 6 1) b ∧
          s.reg (if blockFld b 6 1 = 1 then Obj.cfgFactorySeq else Obj.cfgOwnerSeq) < cfgSeq b := by
      simp [and_assoc]
    by_cases hok : (blockFld b 6 1 = 1 ∨ blockFld b 6 1 = 2) ∧ recordPasses s (blockFld b 6 1) b ∧
        s.reg (if blockFld b 6 1 = 1 then Obj.cfgFactorySeq else Obj.cfgOwnerSeq) < cfgSeq b
    · refine ⟨_, hexec.trans (if_pos hok), congrArg MgtState.record (storeRecord_mgt (recordDone s) _ b), ?_,
        fun _ => storeRecord_flash (recordDone s) _ b, fun hbad => absurd (hbool.mpr hok) (by rw [hbad]; decide)⟩
      rw [if_pos (hbool.mpr hok)]
      exact setReg_reg_fits _ (by decide)
    · refine ⟨_, hexec.trans (if_neg hok), congrArg MgtState.record (raise_mgt ..), ?_, fun hgood => absurd (hbool.mp hgood) hok,
        fun _ => ⟨raise_flash .., ?_⟩⟩
      · rw [if_neg (fun hgood => hok (hbool.mp hgood)), raise_reg_of_ne _ _ _ _ _ (by decide)]
        exact setReg_reg_fits _ (by decide)
      · exact (raise_reports ((recordDone s).setReg Obj.cfgState 4) 0x1A06 .note uMgt noPos).of_same rfl rfl
  · exact ⟨_, execWarmRestartDone_taken hwarm, restartEnded_fwState _⟩
  · obtain ⟨hflash, hrest, hfaults, hserial, hcount⟩ := firmwareAgain_kept s
    have happly : applyRecords (firmwareAgain s) = none := by
      unfold applyRecords
      rw [bestFactory_congr hserial, hflash, hnone]
      rfl
    have hexec := execWarmRestartDone_taken hwarm
    rw [happly, Option.getD_none] at hexec
    have hmgt : (restartEnded (firmwareAgain s)).mgt = (firmwareAgain s).mgt := raise_mgt ..
    have hheld : NoneHeld (fenceWaiting (restartEnded (firmwareAgain s))) := by
      refine fenceWaiting_noneHeld _ ((KeepsRecords.raise _ _ _ _ _).noneHeld ?_)
      exact logHeld_noneHeld (modMgt s fun m => { m with restarting := false })
    refine ⟨_, hexec, ?_, hheld.1, hheld.2, restartEnded_fwState _, ?_, ?_, ?_, fun core hcore hlt => ?_⟩
    · rw [fenceWaiting_mgt, hmgt]
      exact hrest
    · rw [fenceWaiting_reg _ (by decide), restartEnded, raise_reg_of_ne _ _ _ _ _ (by decide), bump_reg, if_pos rfl,
        setReg_reg_of_ne _ _ _ (by decide), hcount]
      rfl
    · rw [fenceWaiting_reg _ (by decide), restartEnded, raise_reg_of_ne _ _ _ _ _ (by decide), bump_reg_of_ne _ _ _ (by decide),
        setReg_reg_of_ne _ _ _ (by decide), firmwareAgain, (runFirmware_shows _ _).1, ← hflash]
      rfl
    · rw [fenceWaiting_mgt]
    · refine faultFences_map _ _ hlt (.inl ?_)
      rw [hmgt, hfaults]
      exact hcore

end Sys2Proof.Machine
end

section
/-! The security engine's commands that no signed block gives (R444–R446). -/

namespace Sys2Proof.Machine

/-! ### Debug mode left (R445) -/

section
variable {s : State}

/-- Debug mode left and measured, before its event. -/
def debugLeft (s : State) : State := measureDbg (s.setReg Obj.dbgMode 0) 0xFA02
theorem debugLeft_mode (s : State) : (debugLeft s).reg Obj.dbgMode = 0 := setReg_reg_fits (k := Obj.dbgMode) (v := 0) s (by decide)
theorem debugLeave_leaves (h : s.reg Obj.dbgMode ≠ 0) : debugLeave s = raise (debugLeft s) 0xFA02 .note uMgt := if_neg h
theorem debugExit_leaves (h : s.reg Obj.dbgMode ≠ 0) : debugExit 1 s = Ans.ok (raise (debugLeft s) 0xFA02 .note uMgt) :=
  (if_neg (by decide)).trans (congrArg Ans.ok (debugLeave_leaves h))
/-- Out of debug mode, whether the device was in it or not. -/
theorem debugLeave_mode (s : State) : (debugLeave s).reg Obj.dbgMode = 0 := by
  by_cases h : s.reg Obj.dbgMode = 0
  · rw [debugLeave, if_pos h]
    exact h
  · rw [debugLeave_leaves h, raise_reg_of_ne _ _ _ _ _ (by decide)]
    exact debugLeft_mode s

end

/-! ### Staged firmware (R441, R446) -/

section
variable {s : State}

theorem fwVerify_starts (h : s.reg Obj.fwState ∉ [1, 4, 5]) : fwVerify s = Ans.ok (s.setReg Obj.fwState 1) := if_neg (by simpa using h)
/-- The image staged for a check, and whether it passes. -/
def stagedImage (s : State) : List Byte := stagedBytes s [1] (s.reg Obj.fwStageAddr) (s.reg Obj.fwStageLen)
def stagedPasses (s : State) : Bool := firmwareOk (stagedImage s) false && decide (s.reg Obj.secMinSvn ≤ firmwareSvn (stagedImage s))
theorem execFwVerifyDone_taken (hstate : s.reg Obj.fwState = 1) (hrun : s.running = true) : execFwVerifyDone s =
    if stagedPasses s = true then .next (modMgt (s.setReg Obj.fwState 2) fun m => { m with verified := stagedImage s })
    else .next (raise (s.setReg Obj.fwState 3) 0x1A06 .note uMgt) := if_neg (by simp [hstate, hrun])
/-- The new image in flash. -/
def flashed (s : State) (image : List Byte) : State :=
  (s.withFlash { s.flash with firmware := image }).withMgt { s.mgt with flashing := none, verified := [] }
theorem execFwFlashDone_taken {image : List Byte} {restart : Bool} (h : s.mgt.flashing = some (image, restart)) :
    execFwFlashDone s = .next ((flashed s image).setReg Obj.fwState (if restart then 5 else 0)) := by
  unfold execFwFlashDone
  rw [h]
  rfl
theorem execWarmRestartStart_begins (hrun : s.running = true) (hfw : s.reg Obj.fwState = 5) (hfree : s.mgt.restarting = false)
    (hstop : s.reg Obj.ckptState = 0) (hrestore : s.reg Obj.ckptRestoreState ≠ 1) (hrebuild : s.held .rebuild = false) :
    execWarmRestartStart s = .next ((s.withMgt { s.mgt with restarting := true }).withLog { s.log with holding := true }) := by
  unfold State.held at hrebuild
  exact if_neg (by simp [hrun, hfw, hfree, hstop, hrestore]; simpa using hrebuild)

end

/-! ### Attestation (R444) -/

theorem execAttestReportReady_taken {s : State} {b : List Byte} (sig : BitVec 1056) (h : s.mgt.building = some b) :
    execAttestReportReady sig s = .next (modMgt ((s.setReg Obj.secAttestState 2).setReg Obj.secAttestLen (b ++ leBytes 132 sig.toNat).length)
      fun m => { m with building := none, report := b ++ leBytes 132 sig.toNat }) := by
  unfold execAttestReportReady
  rw [h]

/-- Settles O24: each command sets its own objects and the management controller's own state. -/
theorem securityCommandsComplete : Obligations.SecurityCommandsComplete := by
  intro s
  refine ⟨fun q hq hmode => ?_, fun q nonce hq => ?_, fun sig b hbuilding => ?_, fun q hq hstate => ?_, fun hstate hrun => ?_,
    fun image restart hflashing => ?_, fun hrun hfw hfree hstop hrestore hrebuild => ?_⟩
  · refine leads_write (f := debugExit 1) rfl hq ?_
    rw [debugExit_leaves hmode]
    refine ⟨?_, ?_, answered_answers .., ?_⟩
    · rw [answered_reg _ _ _ _ _ (by decide)]
      exact (raise_reg_of_ne _ _ _ _ _ (by decide)).trans (debugLeft_mode s)
    · exact congrArg MgtState.regDbg (raise_mgt (debugLeft s) ..)
    · exact ((raise_reports (debugLeft s) 0xFA02 .note uMgt noPos).of_same rfl rfl).then rfl
  · refine leads_write (f := attestNonceWrite nonce.toNat) rfl hq ⟨rfl, ?_, ?_, answered_answers ..⟩
    · rw [answered_reg _ _ _ _ _ (by decide)]
      exact (setReg_reg_of_ne _ Obj.secAttestLen 0 (by decide)).trans (setReg_reg_fits (k := Obj.secAttestState) (v := 1) s (by decide))
    · rw [answered_reg _ _ _ _ _ (by decide)]
      exact setReg_reg_fits (k := Obj.secAttestLen) (v := 0) _ (by decide)
  · refine ⟨_, execAttestReportReady_taken sig hbuilding, rfl, rfl, ?_, ?_⟩
    · exact (setReg_reg_of_ne _ Obj.secAttestLen _ (by decide)).trans (setReg_reg_fits (k := Obj.secAttestState) (v := 2) s (by decide))
    · refine (setReg_reg_self _ Obj.secAttestLen _).trans ?_
      rw [List.length_append, leBytes_length]
      rfl
  · refine leads_action (f := fwVerify) rfl hq ?_
    rw [fwVerify_starts hstate]
    refine ⟨?_, answered_answers ..⟩
    rw [answered_reg _ _ _ _ _ (by decide)]
    exact setReg_reg_fits (k := Obj.fwState) (v := 1) s (by decide)
  · have hexec := execFwVerifyDone_taken hstate hrun
    by_cases hok : stagedPasses s = true
    · refine ⟨_, hexec.trans (if_pos hok), ?_, fun _ => rfl, fun hbad => absurd (hok.symm.trans hbad) (by decide)⟩
      exact (setReg_reg_fits (k := Obj.fwState) (v := 2) s (by decide)).trans (if_pos hok).symm
    · refine ⟨_, hexec.trans (if_neg hok), ?_, fun hgood => absurd hgood hok, fun _ => ?_⟩
      · exact ((raise_reg_of_ne _ _ _ _ _ (by decide)).trans (setReg_reg_fits (k := Obj.fwState) (v := 3) s (by decide))).trans (if_neg hok).symm
      · exact (raise_reports (s.setReg Obj.fwState 3) 0x1A06 .note uMgt noPos).of_same rfl rfl
  · exact ⟨_, execFwFlashDone_taken hflashing, rfl, rfl, setReg_reg_fits _ (by cases restart <;> decide)⟩
  · exact ⟨_, execWarmRestartStart_begins hrun hfw hfree hstop hrestore hrebuild, rfl, rfl⟩

end Sys2Proof.Machine
end

section
/-! A plain write of an object (R424). -/

namespace Sys2Proof.Machine

section
variable {s : State} {p : Path} {key : Nat} {d : ObjDesc} {bytes : List Byte}

/-! ### What stands under an object's key -/

/-- An object's value stands under its own key or a unit's. -/
theorem objPart_valueKey (s : State) (hkey : key < 2 ^ 24) : objPart (valueKey s key) = key := by
  have hself : objPart key = key := Nat.mod_eq_of_lt hkey
  unfold valueKey
  simp only [apply_ite objPart, objPart_unit, hself, ite_self]
theorem objDesc_of_objThere (h : objThere s key = some d) : objDesc key = some d := by
  unfold objThere at h
  obtain ⟨d', hdesc, hd'⟩ := Option.bind_eq_some_iff.mp h
  rw [Option.ite_none_right_eq_some] at hd'
  exact hdesc.trans (by rw [hd'.2])
theorem objSize_of_objThere (h : objThere s key = some d) : objSize key = d.size := by
  unfold objSize
  rw [objDesc_of_objThere h]
  rfl
/-- The object that counts requests takes no write. -/
theorem ne_mgtRequests_of_writable (h : objThere s key = some d) (hwrite : readOnly d = false) : key ≠ Obj.mgtRequests := by
  rintro rfl
  have hro : ∀ e ∈ objDesc Obj.mgtRequests, readOnly e = true := by decide
  exact absurd (hro d (objDesc_of_objThere h)) (by rw [hwrite]; decide)

/-! ### The checks of a plain write, in their order -/

theorem plainWrite_absent (h : objThere s key = none) (hsub : key % 256 ≠ 0) : plainWrite p key bytes s = Ans.refuse stNoObject s := by
  unfold plainWrite
  rw [h]
  dsimp only
  rw [if_neg (by simp [hsub])]
theorem plainWrite_readOnly (h : objThere s key = some d) (hro : readOnly d = true) : plainWrite p key bytes s = Ans.refuse stAccess s := by
  unfold plainWrite
  rw [h]
  exact if_pos hro
theorem plainWrite_signedOnly (h : objThere s key = some d) (hwrite : readOnly d = false) (hsigned : key ∈ signedOnly) :
    plainWrite p key bytes s = Ans.refuse stAuth s := by
  unfold plainWrite
  rw [h]
  exact (if_neg (by simp [hwrite])).trans (if_pos (by simpa using hsigned))
theorem plainWrite_open (h : objThere s key = some d) (hwrite : readOnly d = false) (hplain : key ∉ signedOnly) :
    plainWrite p key bytes s = if bytes.length ≠ d.size then Ans.refuse stLength s
      else if key = Obj.secOwnerKey then ownerKeyPlain p (leNat bytes) s else checkedWrite d key (leNat bytes) s := by
  unfold plainWrite
  rw [h]
  exact (if_neg (by simp [hwrite])).trans (if_neg (by simpa using hplain))
/-- A value that its checks pass, of an object without an effect of its own, is stored. -/
theorem checkedWrite_stores {v : Nat} (hvalue : valueBad d key v = none) (hstopped : d.acc ≠ .rws ∨ unitStopped s key = true)
    (hown : ((ownWrites ++ ownWrites2).find? fun p => p.1 == key).isNone = true) (hfamily : (familyWrite key v s).isNone = true) :
    checkedWrite d key v s = Ans.ok (s.setReg (valueKey s key) v) := by
  unfold checkedWrite applyWrite
  rw [hvalue, Option.isNone_iff_eq_none.mp hown, Option.isNone_iff_eq_none.mp hfamily]
  exact if_neg (by rcases hstopped with h | h <;> simp [h])

end

/-- A refused request changes no object but the count of requests. -/
theorem refused_changes_none (s : State) (b : Nat) (q : Req) (op obj status : Nat) :
    ∀ k, k ≠ Obj.mgtRequests → (answered b q op obj (Ans.refuse status s)).reg k = s.reg k := fun _ hk => answered_reg _ _ _ _ _ hk

/-- Settles O21: the checks of a plain write in their order, and the value stored under its object's key. -/
theorem registerWriteCompletes : Obligations.RegisterWriteCompletes := by
  intro s q index sub bytes key hq
  have hkey : key < 2 ^ 24 := by
    have := index.isLt
    have := sub.isLt
    change index.toNat * 256 + sub.toNat < 2 ^ 24
    omega
  have hsub : key % 256 = sub.toNat := by
    have := sub.isLt
    change (index.toNat * 256 + sub.toNat) % 256 = sub.toNat
    omega
  refine ⟨fun d hthere hwrite hplain hlen howner hvalue hstopped hown hfamily => ?_, fun hthere hs => ?_, fun d hthere hro => ?_,
    fun d hthere hwrite hsigned => ?_, fun d hthere hwrite hplain hlen => ?_⟩
  all_goals refine leads_write (f := plainWrite q.path key bytes) rfl hq ?_
  · have hans : plainWrite q.path key bytes s = Ans.ok (s.setReg (valueKey s key) (leNat bytes)) := by
      rw [plainWrite_open hthere hwrite hplain, if_neg (not_not.mpr hlen), if_neg howner, checkedWrite_stores hvalue hstopped hown hfamily]
    have hapart : valueKey s key ≠ Obj.mgtRequests := fun he => ne_mgtRequests_of_writable hthere hwrite (by
      rw [← objPart_valueKey s hkey, he]
      rfl)
    have hfits : leNat bytes < 256 ^ objSize (objPart (valueKey s key)) := by
      rw [objPart_valueKey s hkey, objSize_of_objThere hthere, ← hlen]
      exact leNat_lt bytes
    rw [hans]
    exact ⟨(answered_reg _ _ _ _ _ hapart).trans (setReg_reg_fits s hfits), answered_answers .., fun k hk hreq =>
      (answered_reg _ _ _ _ _ hreq).trans (setReg_reg_of_ne _ _ _ hk)⟩
  · rw [plainWrite_absent hthere (by rwa [hsub])]
    exact ⟨answered_answers .., refused_changes_none s s.beat q 2 _ _⟩
  · rw [plainWrite_readOnly hthere hro]
    exact ⟨answered_answers .., refused_changes_none s s.beat q 2 _ _⟩
  · rw [plainWrite_signedOnly hthere hwrite hsigned]
    exact ⟨answered_answers .., refused_changes_none s s.beat q 2 _ _⟩
  · rw [plainWrite_open hthere hwrite hplain, if_pos hlen]
    exact ⟨answered_answers .., refused_changes_none s s.beat q 2 _ _⟩

end Sys2Proof.Machine
end

section
/-! Signed commands (R434, R435, R439, R445–R447). -/

namespace Sys2Proof.Machine

/-! ### The four checks (R435) -/

/-- The nonce advanced, before the object's own effect. -/
def nonceNext (s : State) : State := s.setReg Obj.secNonce (s.reg Obj.secNonce + 1)
section
variable {s : State} {q : Req} {b : List Byte} {key : Nat} {d : ObjDesc}

theorem nonceNext_reg {k : Nat} (hk : k ≠ Obj.secNonce) : (nonceNext s).reg k = s.reg k := setReg_reg_of_ne _ _ _ hk
theorem nonceNext_nonce : (nonceNext s).reg Obj.secNonce = (s.reg Obj.secNonce + 1) % 2 ^ 64 := setReg_reg_self ..
/-- A whole block for an object that is present, with a value of its size. -/
theorem signedWrite_whole (hkey : blockKey b = key) (hlen : b.length = 0x20 + pad8 (blockVlen b) + 132)
    (hthere : objThere s key = some d) (hsize : blockVlen b = d.size) : signedWrite b s =
    if !blockOk s b then authFail s else if readOnly d then Ans.refuse stAccess (nonceNext s)
      else checkedWrite d key (blockFld b 0x20 d.size) (nonceNext s) := by
  subst hkey
  unfold signedWrite
  rw [if_neg (by omega), hthere]
  exact if_neg (not_not.mpr hsize)
/-- A block whose checks fail is counted, and changes nothing else. -/
theorem authFail_reg {k : Nat} (halert : k ≠ Obj.modAlertSeq) :
    (authFail s).st.reg k = (s.bump Obj.secAuthFails 1).reg k := by
  unfold authFail Ans.refuse
  dsimp only
  split
  · exact raise_reg_of_ne _ _ _ _ _ halert
  · rfl
/-- The objects that signed commands have in this statement. -/
def signedKeys : List Nat := [Obj.secOwnerKey, Obj.secOwnerRelease, Obj.secMinSvn, Obj.dbgEnter, Obj.cfgWrite, Obj.fwCommit]
theorem signedKeys_open (hkey : key ∈ signedKeys) (hthere : objThere s key = some d) : readOnly d = false ∧ d.acc ≠ .rws := by
  have hall : ∀ k ∈ signedKeys, ∀ e ∈ objDesc k, readOnly e = false ∧ e.acc ≠ .rws := by decide
  exact hall key hkey d (objDesc_of_objThere hthere)
/-- A value of a block fits its object. -/
theorem blockValue_fits (hthere : objThere s key = some d) : blockFld b 0x20 d.size < 256 ^ objSize key := by
  rw [objSize_of_objThere hthere]
  exact Nat.lt_of_lt_of_le (leNat_lt _) (Nat.pow_le_pow_right (by decide) (List.length_take_le ..))
/-- A block taken has the effect that its object's handler has; one whose checks fail has none. -/
theorem signedWrite_taken {f : Nat → State → Ans} {v : Nat} (hkey : blockKey b = key)
    (hlen : b.length = 0x20 + pad8 (blockVlen b) + 132) (hthere : objThere s key = some d) (hsize : blockVlen b = d.size)
    (hvalue : valueBad d key (blockFld b 0x20 d.size) = none) (hv : blockFld b 0x20 d.size = v) (hsigned : key ∈ signedKeys)
    (hown : ((ownWrites ++ ownWrites2).find? fun p => p.1 == key) = some (key, f)) :
    signedWrite b s = if blockOk s b = true then f v (nonceNext s) else authFail s := by
  obtain ⟨hopen, hrws⟩ := signedKeys_open hsigned hthere
  have happly : checkedWrite d key v (nonceNext s) = f v (nonceNext s) := by
    unfold checkedWrite applyWrite
    rw [← hv, hvalue, hown]
    exact if_neg (by simp [hrws])
  rw [signedWrite_whole hkey hlen hthere hsize, hv, happly, hopen]
  cases blockOk s b <;> rfl

/-- What a signed command leads to: its effect, or AUTH. -/
def SignedDone (s : State) (q : Req) (b : List Byte) (key : Nat) (t : State) (effect : Prop) : Prop :=
  if blockOk s b = true then
    t.reg Obj.secNonce = (s.reg Obj.secNonce + 1) % 2 ^ 64 ∧ Answers t q 3 key stOk ∧ effect
  else Answers t q 3 key stAuth ∧ t.reg Obj.secAuthFails = min (s.reg Obj.secAuthFails + 1) (2 ^ 32 - 1) ∧
    ∀ k, k ∉ [Obj.secAuthFails, Obj.mgtRequests, Obj.modAlertSeq] → t.reg k = s.reg k
theorem signedDone_auth {E : Prop} (hfail : blockOk s b ≠ true) : SignedDone s q b key (answered s.beat q 3 key (authFail s)) E := by
  refine (if_neg hfail).mpr ⟨answered_answers s.beat q 3 key (authFail s), ?_, fun k hk => ?_⟩
  · rw [answered_reg _ _ _ _ _ (by decide), authFail_reg (by decide), bump_reg, if_pos rfl]
    rfl
  · simp only [List.mem_cons, List.not_mem_nil, or_false, not_or] at hk
    obtain ⟨hfails, hrequests, halert⟩ := hk
    rw [answered_reg _ _ _ _ _ hrequests, authFail_reg halert, bump_reg_of_ne _ _ _ hfails]
/-- A signed command whose object's handler takes its value. -/
theorem leads_signed {c : Instr} {f : Nat → State → Ans} {v : Nat} {u : State} {E : State → Prop}
    (hexec : exec c s = .next (signedFor s q key b)) (hq : s.takes q 3 key = true)
    (hwrite : signedWrite b s = if blockOk s b = true then f v (nonceNext s) else authFail s) (hkey : blockKey b = key)
    (hok : f v (nonceNext s) = Ans.ok u) (hnonce : u.reg Obj.secNonce = (nonceNext s).reg Obj.secNonce)
    (heffect : E (answered s.beat q 3 key (Ans.ok u))) : Leads c s fun t => SignedDone s q b key t (E t) := by
  have hrun : signedFor s q key b = answered s.beat q 3 key (signedWrite b s) := by
    subst hkey
    exact (if_pos rfl).trans (request_takes _ hq)
  rw [hrun, hwrite] at hexec
  by_cases hblock : blockOk s b = true
  · rw [if_pos hblock, hok] at hexec
    refine ⟨_, hexec, (if_pos hblock).mpr ⟨?_, answered_answers s.beat q 3 key (Ans.ok u), heffect⟩⟩
    exact (answered_reg _ _ _ _ _ (by decide)).trans (hnonce.trans nonceNext_nonce)
  · rw [if_neg hblock] at hexec
    exact ⟨_, hexec, signedDone_auth hblock⟩

end

/-! ### What the handlers make of a value -/

section
variable (s : State)

theorem debugLeave_reg {k : Nat} (hmode : k ≠ Obj.dbgMode) (halert : k ≠ Obj.modAlertSeq) : (debugLeave s).reg k = s.reg k := by
  by_cases h : s.reg Obj.dbgMode = 0
  · rw [debugLeave, if_pos h]
  · rw [debugLeave_leaves h, raise_reg_of_ne _ _ _ _ _ halert]
    exact setReg_reg_of_ne s _ 0 hmode
theorem setOwnerKey_others (key : Nat) {k : Nat} (howner : k ≠ Obj.secOwnerKey) (halert : k ≠ Obj.modAlertSeq) :
    (setOwnerKey s key).reg k = s.reg k := (raise_reg_of_ne _ _ _ _ _ halert).trans (setReg_reg_of_ne _ _ _ howner)
/-- Debug mode entered and measured, before its event. -/
def debugEntered (s : State) : State :=
  modMgt (measureDbg ((s.setReg Obj.dbgMode 1).bump Obj.dbgEntries 1) 0xFA01) fun m => { m with debugSince := true }
theorem debugEntered_mode : (debugEntered s).reg Obj.dbgMode = 1 :=
  (bump_reg_of_ne _ Obj.dbgEntries 1 (by decide)).trans (setReg_reg_fits (k := Obj.dbgMode) (v := 1) s (by decide))
theorem debugEntered_others {k : Nat} (hmode : k ≠ Obj.dbgMode) (hentries : k ≠ Obj.dbgEntries) : (debugEntered s).reg k = s.reg k :=
  (bump_reg_of_ne _ Obj.dbgEntries 1 hentries).trans (setReg_reg_of_ne s _ 1 hmode)
theorem debugEntered_entries : (debugEntered s).reg Obj.dbgEntries = min (s.reg Obj.dbgEntries + 1) (2 ^ 32 - 1) := by
  have hbump : (debugEntered s).reg Obj.dbgEntries = ((s.setReg Obj.dbgMode 1).bump Obj.dbgEntries 1).reg Obj.dbgEntries := rfl
  rw [hbump, bump_reg, if_pos rfl, setReg_reg_of_ne _ _ _ (by decide)]
  rfl
theorem debugEnter_enters : debugEnter 1 s = Ans.ok (raise (debugEntered s) 0xFA01 .note uMgt) := rfl
/-- The device's power and memory are as the advance of the nonce found them, so a range staged in memory reads the same. -/
theorem stagedBytes_nonceNext (tiers : List Nat) (a n : Nat) : stagedBytes (nonceNext s) tiers a n = stagedBytes s tiers a n := by
  have hretired (die : Nat) : (nonceNext s).reg (Obj.memRetiredC0 + die % 4) = s.reg (Obj.memRetiredC0 + die % 4) :=
    nonceNext_reg (by unfold Obj.memRetiredC0 Obj.secNonce ob; omega)
  have hdoms : DomsKept s (nonceNext s) := .setReg s _ _ (by decide)
  have hinstalled : (nonceNext s).installed = s.installed := by
    funext x
    unfold State.installed
    rw [retired_congr (hretired _)]
    rfl
  have hpowered : (nonceNext s).powered = s.powered := by
    funext x
    unfold State.powered
    rw [t0Cell_congr hretired, funext hdoms.domOn]
  unfold stagedBytes State.rangePresent State.present
  rw [hinstalled, hpowered]
  rfl
/-- The record that `CFG.WRITE` of a length stages. -/
def stagedRecord (s : State) (len : Nat) : List Byte := if len ≤ 65536 then stagedBytes s [0, 1] (s.reg Obj.cfgStageAddr) len else []
theorem stagedRecord_nonceNext (len : Nat) : stagedRecord (nonceNext s) len = stagedRecord s len := by
  unfold stagedRecord
  rw [stagedBytes_nonceNext, nonceNext_reg (by decide)]
theorem flashBusy_nonceNext : flashBusy (nonceNext s) = flashBusy s := by
  unfold flashBusy
  rw [nonceNext_reg (by decide), nonceNext_reg (by decide)]
theorem cfgWrite_stages (len : Nat) (hfree : flashBusy s = false) : cfgWrite len (nonceNext s) =
    Ans.ok (modMgt ((nonceNext s).setReg Obj.cfgState 1) fun m => { m with record := some (stagedRecord s len) }) := by
  rw [← stagedRecord_nonceNext]
  exact if_neg (by rw [flashBusy_nonceNext, hfree]; decide)
theorem committed_nonce : ((nonceNext s).setReg Obj.fwState 4).reg Obj.secNonce = (nonceNext s).reg Obj.secNonce :=
  setReg_reg_of_ne _ _ _ (by decide)
theorem committed_state : ((nonceNext s).setReg Obj.fwState 4).reg Obj.fwState = 4 := setReg_reg_fits _ (by decide)
theorem fwCommit_commits {v : Nat} (hv : v = 1 ∨ v = 2) (hfree : flashBusy s = false) (hstate : s.reg Obj.fwState = 2) :
    fwCommit v (nonceNext s) =
      Ans.ok (modMgt ((nonceNext s).setReg Obj.fwState 4) fun m => { m with flashing := some (m.verified, v == 2) }) := by
  unfold fwCommit
  rw [if_neg (by omega), flashBusy_nonceNext, hfree, nonceNext_reg (by decide), hstate]
  rfl

end

/-- Settles O23: the four checks decide between the effect of the object's handler, which keeps the nonce, and AUTH. -/
theorem signedCommandsComplete : Obligations.SignedCommandsComplete := by
  intro s q b key d hkey hq _ hlen hthere hsize hvalue
  have hfits := blockValue_fits (b := b) hthere
  have htaken {f : Nat → State → Ans} {v : Nat} (hv : blockFld b 0x20 d.size = v) (hsigned : key ∈ signedKeys)
      (hown : ((ownWrites ++ ownWrites2).find? fun p => p.1 == key) = some (key, f)) :=
    signedWrite_taken hkey hlen hthere hsize hvalue hv hsigned hown
  refine ⟨fun hobj => ?_, fun hobj hv => ?_, fun hobj hlow hhigh => ?_, fun hobj hv => ?_, fun hobj hfree => ?_, fun hobj hv hfree hstate => ?_,
    fun hobj hv hfree hstate => ?_⟩
  all_goals subst hobj
  · refine leads_signed (E := fun t => t.reg Obj.secOwnerKey = blockFld b 0x20 d.size) rfl hq (htaken rfl (by decide) rfl) hkey rfl ?_ ?_
    · exact setOwnerKey_others _ _ (by decide) (by decide)
    · rw [answered_reg _ _ _ _ _ (by decide)]
      exact (setOwnerKey_reg ..).trans (Nat.mod_eq_of_lt hfits)
  · have hok : ownerRelease (s.reg Obj.idSerial) (nonceNext s) = Ans.ok (debugLeave (setOwnerKey (nonceNext s) 0)) :=
      if_neg (not_not.mpr (nonceNext_reg (by decide)).symm)
    refine leads_signed (E := fun t => t.reg Obj.secOwnerKey = 0 ∧ t.reg Obj.dbgMode = 0) rfl hq (htaken hv (by decide) rfl) hkey hok ?_ ⟨?_, ?_⟩
    · rw [debugLeave_reg _ (by decide) (by decide)]
      exact setOwnerKey_others _ _ (by decide) (by decide)
    · rw [answered_reg _ _ _ _ _ (by decide)]
      exact (debugLeave_reg _ (by decide) (by decide)).trans (setOwnerKey_reg ..)
    · rw [answered_reg _ _ _ _ _ (by decide)]
      exact debugLeave_mode _
  · have hok : minSvnWrite (blockFld b 0x20 d.size) (nonceNext s) = Ans.ok ((nonceNext s).setReg Obj.secMinSvn (blockFld b 0x20 d.size)) := by
      unfold minSvnWrite
      rw [nonceNext_reg (by decide), nonceNext_reg (by decide)]
      exact if_neg (by omega)
    refine leads_signed (E := fun t => t.reg Obj.secMinSvn = blockFld b 0x20 d.size) rfl hq (htaken rfl (by decide) rfl) hkey hok ?_ ?_
    · exact setReg_reg_of_ne _ _ _ (by decide)
    · rw [answered_reg _ _ _ _ _ (by decide)]
      exact setReg_reg_fits _ hfits
  · refine leads_signed (E := fun t => t.reg Obj.dbgMode = 1 ∧ t.mgt.debugSince = true ∧
      t.reg Obj.dbgEntries = min (s.reg Obj.dbgEntries + 1) (2 ^ 32 - 1)) rfl hq (htaken hv (by decide) rfl) hkey (debugEnter_enters _) ?_ ⟨?_, ?_, ?_⟩
    · exact (raise_reg_of_ne _ _ _ _ _ (by decide)).trans (debugEntered_others _ (by decide) (by decide))
    · rw [answered_reg _ _ _ _ _ (by decide)]
      exact (raise_reg_of_ne _ _ _ _ _ (by decide)).trans (debugEntered_mode _)
    · exact congrArg MgtState.debugSince (raise_mgt (debugEntered (nonceNext s)) ..)
    · rw [answered_reg _ _ _ _ _ (by decide), ← nonceNext_reg (s := s) (k := Obj.dbgEntries) (by decide)]
      exact (raise_reg_of_ne _ _ _ _ _ (by decide)).trans (debugEntered_entries _)
  · refine leads_signed (E := fun t => t.reg Obj.cfgState = 1 ∧ t.mgt.record = some (stagedRecord s (blockFld b 0x20 d.size))) rfl hq
      (htaken rfl (by decide) rfl) hkey (cfgWrite_stages s _ hfree) ?_ ⟨?_, rfl⟩
    · exact setReg_reg_of_ne _ Obj.cfgState 1 (by decide)
    · rw [answered_reg _ _ _ _ _ (by decide)]
      exact setReg_reg_fits (k := Obj.cfgState) (v := 1) _ (by decide)
  all_goals have hbyte : blockFld b 0x20 1 = blockFld b 0x20 d.size := congrArg (blockFld b 0x20) (objSize_of_objThere hthere)
  · have hexec : execFwCommitFlash q b s = .next (signedFor s q Obj.fwCommit b) := if_neg (by rw [hbyte, hv]; decide)
    refine leads_signed (E := fun t => t.reg Obj.fwState = 4 ∧ t.mgt.flashing = some (s.mgt.verified, false)) hexec hq
      (htaken hv (by decide) rfl) hkey (fwCommit_commits s (.inl rfl) hfree hstate) (committed_nonce s) ⟨?_, rfl⟩
    exact (answered_reg _ _ _ _ _ (by decide)).trans (committed_state s)
  · have hexec : execFwCommitRestart q b s = .next (signedFor s q Obj.fwCommit b) := if_pos (by rw [hbyte, hv])
    refine leads_signed (E := fun t => t.reg Obj.fwState = 4 ∧ t.mgt.flashing = some (s.mgt.verified, true)) hexec hq
      (htaken hv (by decide) rfl) hkey (fwCommit_commits s (.inr rfl) hfree hstate) (committed_nonce s) ⟨?_, rfl⟩
    exact (answered_reg _ _ _ _ _ (by decide)).trans (committed_state s)

end Sys2Proof.Machine
end

section
/-! A checkpoint stop whose rewind rewrites a page table (R287, R302, R384). A stop first rewinds every packet in progress, which lands what
the packets' streams have issued, and then translates the regions of the manifest. -/

namespace Sys2Proof.Machine

/-- A device without a group that has a checkpoint due. Its manifest names one region, a page that the page tables map onto T0 (R302). On
core 0 a store has halted at a fault before its packet was written whole; its request in flight clears VALID of that page's entry. -/
def requestOverPageEntry : State :=
  let region := 2 ^ 192 + 65536 * 2 ^ 128
  let s := [(Obj.ckptT1Len, 16000000), (Obj.ckptT3SlotLen, 16000000), (Obj.xlatRoot, 0x200000), (ofUnit Obj.ckptRgn 0, region),
    (ofUnit Obj.pwrDomState (domHbm 0), dsOn), (Obj.memTblBase, 0x40000000)].foldl (fun s p => s.setReg p.1 p.2) State.reset
  let pte := (0x200000, 8, 0xE000000080000000)
  let descriptor := [(0x40000006, 2, 1), (0x400000CD, 1, 1)]
  let request : Flight := { puts := [(8 * 0x200007, 8, 0)] }
  let store : Ctx := { st := .haltFault, started := true, flight := [request] }
  { s with
    ckpt := { due := true }
    tables := [{ handle := 0x5C00000000000001, active := true }]
    mem := (pte :: descriptor).foldl (fun m f => memWrite m f.1 f.2.1 f.2.2) s.mem
    cores := [(0, { ctxs := [(0, store)], sluices := [(0, { packets := [{}] })] })] }

/-- The state of the checkpoint engine that a command answers. -/
def ckptStateAfter (o : Host.Outcome State Fault Refusal) : Nat :=
  match o with
  | .next t => t.reg Obj.ckptState
  | _ => 0
theorem ckptStateAfter_next (t : State) : ckptStateAfter (.next t) = t.reg Obj.ckptState := rfl

/-- The stream is a store whose packet the stop rewinds. -/
theorem requestOverPageEntry_store : (requestOverPageEntry.desc 0 0).map (·.store) = some true ∧ holdsPacket requestOverPageEntry 0 0 = true := by
  decide +kernel
/-- Before the stop the manifest's region translates, and the image fits. -/
theorem requestOverPageEntry_translates : sampleRegions requestOverPageEntry (validEntries requestOverPageEntry) =
    some [{ idx := 0, va := 0, len := 65536, pages := [0x80000000] }] := by decide +kernel
theorem requestOverPageEntry_fits : manifestBytes requestOverPageEntry ≤ requestOverPageEntry.reg Obj.ckptT1Len ∧
    manifestBytes requestOverPageEntry ≤ requestOverPageEntry.reg Obj.ckptT3SlotLen := by decide +kernel
theorem requestOverPageEntry_pending : stopPending requestOverPageEntry = true ∧ requestOverPageEntry.reg Obj.ckptState ≠ 1 ∧
    requestOverPageEntry.allAtBoundary = true := by decide +kernel
/-- The rewind lands the request, and the region translates no more. -/
theorem requestOverPageEntry_rewound : sampleRegions (stopRewind requestOverPageEntry) (validEntries requestOverPageEntry) = none := by decide +kernel
/-- So the stop is abandoned. -/
theorem requestOverPageEntry_abandoned : ckptStateAfter (exec .ckptStopBegin requestOverPageEntry) = 0 := by decide +kernel

/-- Refutes O29: its clause of a stop that begins says so where every region translates before the command, and a stop translates them only
after its rewind, which may rewrite a page table. -/
theorem not_checkpointStopCompletes : ¬ Obligations.CheckpointStopCompletes := by
  unfold Obligations.CheckpointStopCompletes
  intro h
  obtain ⟨hbegin, _⟩ := h requestOverPageEntry rfl rfl
  obtain ⟨hpending, hidle, hboundary⟩ := requestOverPageEntry_pending
  obtain ⟨hcopies, _⟩ := hbegin hpending hidle hboundary rfl
  obtain ⟨t, hexec, hstate, _⟩ := hcopies _ requestOverPageEntry_translates requestOverPageEntry_fits.1 requestOverPageEntry_fits.2
  have habandoned := requestOverPageEntry_abandoned
  rw [hexec, ckptStateAfter_next, hstate] at habandoned
  exact absurd habandoned (by decide)

end Sys2Proof.Machine
end
